-- ==== Sys2Proof/Word.lean ====
section
/-! DEFINITION. The byte, the words the manual treats as bits, and the sparse table every unit of the block uses. -/
namespace Sys2Proof

/-- A byte of a frame, a window or a record. -/
abbrev Byte := BitVec 8

/-- A 32-bit register of BAR0 or BAR4 (R11). -/
abbrev Word := BitVec 32

/-- A sparse table: (index, value) pairs with strictly rising indices.
An index that is not listed holds the table's default value, and no listed value equals that default. -/
abbrev Tab (α : Type) := List (Nat × α)

end Sys2Proof
end

