-- ==== Sys2Proof/Syntax.lean ====
section
/-! DEFINITION. The commands of the block: one constructor per row of spec/opcode_table.json, with the operands the
environment supplies (a port, a frame as it arrives, what a read over PCIe returns, what an external check finds). -/
namespace Sys2Proof

/-- A frame as it arrives at a receive MAC: its bytes from the DA to the FCS (from the relay header on a relay port, R77)
and what the PCS and the MAC report of it (R60, R65). -/
structure RxFrame where
  bytes : List Byte
  /-- the FCS is good (R60 reason 2 when not) -/
  fcsOk : Bool := true
  /-- an uncorrectable codeword overlaps the frame (R60 reason 3) -/
  codeword : Bool := false
  /-- cut off by loss of lock (R60 reason 4) -/
  cut : Bool := false
  /-- carried by the MAC merge sublayer on the preemptable MAC (R202) -/
  preempt : Bool := false
  /-- a fragment is missing, out of sequence or has a bad mCRC (R65) -/
  assembly : Bool := false
  /-- the tail passes with the arrival; otherwise FRAME_TAIL follows -/
  ended : Bool := true
deriving DecidableEq, Repr

/-- What the DER bytes of one certificate say (RFC 5280 decoding is outside the manual), as R401 asks. (DESIGN CHOICE, entry 12.) -/
structure Cert where
  /-- SHA-384 of its SubjectPublicKeyInfo -/
  spki : Nat
  v3 : Bool := true
  p384 : Bool := true
  sha384 : Bool := true
  /-- its signature verifies under the next certificate's key (its own for the last) -/
  sigOk : Bool := true
  ca : Bool := true
  certSign : Bool := true
  digSig : Bool := true
  otherCritical : Bool := false
  notBefore : Nat := 0
  notAfter : Nat := 281474976710655
deriving DecidableEq, Repr

/-- A certificate chain: its length in bytes and its certificates, leaf first. (DESIGN CHOICE, entry 12.) -/
structure Chain where
  len : Nat
  certs : List Cert
deriving DecidableEq, Repr

/-- A structure entry whose parity fails when it is read: structure 0 FRONT, 1 FRONT_OVERFLOW, 2 STATION,
3 STATION_OVERFLOW, 4 RECORD (R138, R460), 5 rule row, 6 prefix lane (R161), and its index. -/
structure BadEntry where
  kind : Nat
  index : Nat
deriving DecidableEq, Repr

/-- What a boot stage finds outside the block (R494 to R498). (DESIGN CHOICE, entry 12.) -/
structure BootInput where
  /-- OTP read and ROM self-check succeed (stage 1) -/
  otpOk : Bool := true
  /-- ECDSA verification of firmware slots A and B under the Esras key (stage 2) -/
  fwA : Bool := true
  fwB : Bool := true
  /-- SECURITY_VERSION carried by slots A and B -/
  svnA : Nat := 0
  svnB : Nat := 0
  /-- pseudo-channels whose training fails (stage 4) -/
  failedPcs : List Nat := []
  /-- trained lanes and their HBM.TRAIN_LANE value (stage 4) -/
  lanes : List (Nat × Nat) := []
  /-- the check of Stride image slots A and B by R104 (stage 6) -/
  strideA : Bool := true
  strideB : Bool := true
deriving DecidableEq, Repr

/-- One request to the buffer pools: requester 0 to 4 of R388 and the bytes it needs. -/
structure PoolAsk where
  requester : Nat
  bytes : Nat
deriving DecidableEq, Repr

/-- A punt ring entry as the host posts it (R522): its buffer. -/
structure PuntBuf where
  addr : Nat
  len : Nat
deriving DecidableEq, Repr

/-- An inject descriptor as the host posts it (R524), with the frame bytes its buffer holds. -/
structure InjectDesc where
  port : Nat
  cls : Nat
  pipeline : Bool
  gen : Nat
  bytes : List Byte
  reservedZero : Bool := true
deriving DecidableEq, Repr

/-- The JTAG instructions the manual names (R546). -/
inductive JtagOp where
  | idcode
  | bypass
  | boundary (code : Nat)
  | privateOp (code : Nat)
deriving DecidableEq, Repr

/-- A context of a Stride engine: that of a packet in an ingress engine or that of a copy in an egress engine (R79, R102). -/
inductive StrideCtx where
  | ingress (pkt : Nat)
  | egress (cpy : Nat)
deriving DecidableEq, Repr

/-- What the read of a control-store word meets: 0 no error, 1 a corrected error, 2 a multi-bit error (R94), and the entries, rows and
records whose parity fails as the word reads them. -/
structure WordRead where
  ecc : Nat := 0
  bad : List BadEntry := []
deriving DecidableEq, Repr

/-- A frame that the Pacer verifies, and whether the Vault record of its key is intact as it is read (R259, R284). -/
structure HmacRead where
  pkt : Nat
  intact : Bool := true
deriving DecidableEq, Repr

/-- What a time source gives: the port of its PTP engine (PTP alone) and the offset in ns from device time (R37). -/
structure SourceSample where
  port : Nat := 0
  offset : Int
deriving DecidableEq, Repr

/-- The commands. Operands named `pkt` and `cpy` are packet and copy numbers the block hands out; `slot` is 4 × instance + slot of a
mailbox; indices follow R7 and R425. -/
inductive Instr where
  | lapBoundary
  | frameArrival (port : Nat) (frame : RxFrame)
  | frameTail (pkt : Nat)
  | strideAdmit (pkt : Nat)
  | strideWord (ctx : StrideCtx) (read : WordRead)
  | strideWaitTimeout (ctx : StrideCtx)
  | strideStepLimit (ctx : StrideCtx)
  | classifierHandoff (pkt : Nat) (bad : List BadEntry)
  | stationLookupComplete (pkt : Nat) (bad : List BadEntry)
  | stationLookupAbandon (pkt : Nat)
  | actionRelease (pkt : Nat) (bad : List BadEntry)
  | cmacJobComplete (job : Nat)
  | cmacJobResume (job : Nat)
  | hmacVerify (read : HmacRead)
  | authVerdict (pkt : Nat)
  | residueRetry (cpy : Nat)
  | mcResidueExpire (cpy : Nat)
  | spillWrite (cpy : Nat)
  | spillRefillRead (queue quadrant : Nat)
  | schedulerSelect (pipe : Nat) (ports : List Nat) (ecc : List Nat)
  | resLimitExpire (queue quadrant : Nat)
  | egressStrideAdmit (pipe cpy : Nat)
  | fcsSend (cpy : Nat)
  | gateEntryChange (port : Nat)
  | gateListStart (port profile : Nat)
  | rampEnd (port cls : Nat)
  | macControlReceive (port : Nat) (bytes : List Byte)
  | pauseTimerExpire (port priority : Nat)
  | xoffResend (port priority : Nat)
  | verifySend (port : Nat)
  | verifyResponse (port : Nat)
  | fecDegradeEvent (port symbols : Nat)
  | portAllLocks (port : Nat)
  | portLockLoss (port lane : Nat) (remote : Bool)
  | upDebounceExpire (port : Nat)
  | lossFilterExpire (port : Nat)
  | portHoldExpire (port : Nat)
  | anFailure (port : Nat)
  | trainingTimeout (port : Nat)
  | learnArbiterArrival (pipe : Nat)
  | learnWindowExpire (key : Nat)
  | learnFreezeEnd (key : Nat)
  | learnWriteback
  | ageScan (tier first count : Nat)
  | learnFlush (port first count : Nat)
  | tableScrub (bad : List BadEntry)
  | recordFencePass (kind index : Nat)
  | moveEngineUpdate
  | streamResetScan (index : Nat)
  | fillRequestPost
  | vaultRecordReturn (intact : Bool)
  | slotValid
  | benchFaultRetry (port cls : Nat)
  | benchTimeout (port cls : Nat)
  | prefetchHoldEnd (slot : Nat)
  | trngHealthFail
  | trngHealthPass
  | gmuCopyEntry
  | streamLost (tap : Nat)
  | gmuFinish (tap : Nat)
  | capturePostEnd (capture : Nat)
  | pmuCfgSend (output : Nat)
  | idSettle
  | helloReceive (port : Nat) (bytes : List Byte)
  | lsaReceive (port : Nat) (bytes : List Byte)
  | lsaSend
  | lsaAgeOut (device : Nat)
  | helloMissExpire (port : Nat)
  | pathsetInstall
  | voqSelect
  | creditSend (source : Nat)
  | creditReceive (port : Nat) (bytes : List Byte)
  | anchorArrival (pkt : Nat)
  | anchorTimeout (source rclass : Nat)
  | anchorContextIdle (source rclass : Nat)
  | hbmPick (pc ecc : Nat)
  | refreshDue (pc : Nat)
  | hbmPowerDown (pc : Nat)
  | patrolScrub (address ecc : Nat)
  | chReserve (thread channel words : Nat)
  | chPut (thread channel word : Nat)
  | chCommit (thread channel : Nat)
  | chRead (thread channel : Nat)
  | hwChannelProduce (channel : Nat) (words : List Nat)
  | poolAllocate (asks : List PoolAsk)
  | poolStepUp (ask : Nat)
  | poolRetry (ask : Nat)
  | poolFree (pool buffer : Nat)
  | appletViolation (core thread pc cause : Nat)
  | requestWindowWrite (slot offset : Nat) (bytes : List Byte)
  | doorbellRing (slot : Nat) (dma : Option (List Byte))
  | mbxRelease (slot : Nat)
  | mbxWrDroppedClear (slot : Nat)
  | jobStep (session seq : Nat)
  | jobRetentionExpire (session seq : Nat)
  | sessionConfirmExpire (session : Nat)
  | sessionIdleExpire (session : Nat)
  | debugTokenExpire
  | transferTimeout (target : Nat)
  | sessionDeviceId (slot : Nat)
  | sessionOpen (slot : Nat) (chain : Chain) (popOk : Bool)
  | sessionClose (slot : Nat)
  | sessionPoll (slot : Nat)
  | sessionAbort (slot : Nat)
  | sessionRootProgram (slot : Nat)
  | sessionRootRevoke (slot : Nat)
  | cfgSet (slot : Nat)
  | cfgGet (slot : Nat)
  | cfgRestage (slot : Nat)
  | cfgValidate (slot : Nat)
  | cfgCommit (slot : Nat)
  | cfgConfirm (slot : Nat)
  | cfgRollback (slot : Nat)
  | cfgRollbackDisable (slot : Nat)
  | cfgStatus (slot : Nat)
  | timeSetSeconds (slot : Nat)
  | timeRead (slot : Nat)
  | tblInsert (slot : Nat)
  | tblDelete (slot : Nat)
  | tblLookup (slot : Nat)
  | tblDump (slot : Nat)
  | tblFlush (slot : Nat)
  | objWrite (slot : Nat)
  | objDelete (slot : Nat)
  | objRead (slot : Nat)
  | streamReset (slot : Nat)
  | ruleInsert (slot : Nat)
  | ruleDelete (slot : Nat)
  | ruleSetResult (slot : Nat)
  | ruleRead (slot : Nat)
  | pfxInsert (slot : Nat)
  | pfxDelete (slot : Nat)
  | pfxLookup (slot : Nat)
  | portStatus (slot : Nat)
  | portPtpTsRead (slot : Nat)
  | gateStage (slot : Nat)
  | gateRead (slot : Nat)
  | schedProfileSelect (slot : Nat)
  | keyInstall (slot : Nat)
  | keyRemove (slot : Nat)
  | keyMakeCurrent (slot : Nat)
  | keyStatus (slot : Nat)
  | gmuRead (slot : Nat)
  | gmuTriggerStatus (slot : Nat)
  | gmuCaptureList (slot : Nat)
  | gmuCaptureRead (slot : Nat)
  | gmuCaptureRelease (slot : Nat)
  | fabStatus (slot : Nat)
  | fabLsdbRead (slot : Nat)
  | fabPathsetRead (slot : Nat)
  | instStatus (slot : Nat)
  | instReset (slot : Nat)
  | instDelete (slot : Nat)
  | instFreeze (slot : Nat)
  | instSave (slot : Nat)
  | instRestore (slot : Nat) (sigOk : Bool)
  | instResume (slot : Nat)
  | retireMarkerReturn (inst gen engine : Nat)
  | faultList (slot : Nat)
  | faultStatus (slot : Nat)
  | faultAck (slot : Nat)
  | faultPolicySet (slot : Nat)
  | logRead (slot : Nat)
  | ctrSelect (slot : Nat)
  | ctrRead (slot : Nat)
  | ctrClear (slot : Nat)
  | ctrSplitsRead (slot : Nat)
  | ctrStatRead (slot : Nat)
  | imgFwLoad (slot : Nat) (sigOk : Bool) (svn : Nat)
  | imgFwActivate (slot : Nat)
  | imgStrideLoad (slot : Nat) (chain : Chain) (sigOk : Bool)
  | imgStrideSwitch (slot : Nat)
  | imgAppletLoad (slot : Nat) (chain : Chain) (sigOk : Bool)
  | imgAppletStop (slot : Nat)
  | imgStatus (slot : Nat)
  | strideBankDrained
  | diagDebugUnlock (slot : Nat)
  | diagDebugEnd (slot : Nat)
  | diagThreadCtl (slot : Nat)
  | diagStrideTrace (slot : Nat)
  | diagLoopback (slot : Nat)
  | diagReset (slot : Nat)
  | commitFencePass
  | rollbackFencePass
  | confirmWindowExpire
  | lastGoodWrite (ok : Bool)
  | lgRefreshExpire
  | recoveryAttemptComplete (source unit : Nat)
  | faultConditionClear (source unit : Nat)
  | quietPeriodExpire (source unit : Nat)
  | faultIrqClear
  | recorderAccept
  | recordStage
  | flashCopy (ok : Bool)
  | hourComplete
  | pfwNAssert
  | pfwNDeassert
  | counterLowRead (inst counter : Nat)
  | timeSecondsLoRead
  | pcStatusRead (pc : Nat)
  | poolStatusRead (pool : Nat)
  | puntRxDropsRead (inst : Nat)
  | gateLateStartClear (port mask : Nat)
  | irqCauseClear (inst mask : Nat)
  | irqMaskWrite (inst value : Nat)
  | ringEnable (inst ring : Nat)
  | ringDisable (inst ring : Nat)
  | puntRxPostWrite (inst index : Nat) (bufs : List PuntBuf)
  | puntTxPostWrite (inst index : Nat) (descs : List InjectDesc)
  | gmuRingHeadWrite (inst index : Nat)
  | registerWrite (address width value : Nat) (poisoned : Bool)
  | puntComplete (inst : Nat)
  | injectTake (inst : Nat)
  | functionLevelReset
  | pcieLinkDown
  | resetNAssert
  | resetNRelease (gpio0 : Bool)
  | supplyMonitorTrip
  | bootStageComplete (stage : Nat) (found : BootInput)
  | timeSourceValid (sample : SourceSample)
  | sourceLossExpire
  | ppsInEdge
  | refclkLoss (pair : Nat)
  | temperatureCrossing (sensor : Nat) (celsius : Int)
  | pmbusStatusWord
  | pmbusReadTemperature1
  | pmbusReadTemperature2
  | jtagInstruction (op : JtagOp)
  | rootProvision (hash : List Byte)
  | pipeHang (pipe : Nat)
  | meterVisit (index : Nat)
  | refreshAheadOfTime (pc : Nat)
  | supplyMonitorRelease
  | powerFailFlushEnd
  | reserveEraseEnd
deriving DecidableEq, Repr

end Sys2Proof
end

