-- ==== Sys2Proof/Decode.lean ====
section
/-! DEFINITION. The commands a word spells. The table gives no row any bits, so no word spells a command. -/
namespace Sys2Proof

/-- The command that a word spells by the table's bits: the table has none. (DESIGN CHOICE, entry 1.) -/
def decodeTableWord (_nbits _w : Nat) : Option Instr := none

end Sys2Proof
end

