-- ==== Sys2Proof/Machine/Tab.lean ====
section
/-! DEFINITION. Sparse tables in canonical form, bit fields, byte orders, serial comparison (R44) and CRC-32C (R551). -/
namespace Sys2Proof

/-- The value a sparse table holds at an index. -/
def Tab.at {α : Type} [Inhabited α] : Tab α → Nat → α
  | [], _ => default
  | (k', v) :: t, k => if k = k' then v else Tab.at t k

/-- Whether a sparse table lists an index. -/
def Tab.has {α : Type} : Tab α → Nat → Bool
  | [], _ => false
  | (k', _) :: t, k => k == k' || Tab.has t k

/-- Drops an index from a table. -/
def Tab.del {α : Type} : Tab α → Nat → Tab α
  | [], _ => []
  | (k', v) :: t, k => if k = k' then Tab.del t k else (k', v) :: Tab.del t k

/-- Lists a value at its place in a table. -/
def Tab.ins {α : Type} : Tab α → Nat → α → Tab α
  | [], k, v => [(k, v)]
  | (k', v') :: t, k, v =>
    if k = k' then (k, v) :: t else if k < k' then (k, v) :: (k', v') :: t else (k', v') :: Tab.ins t k v

/-- Writes a table: the default value is written by dropping the entry, so equal tables are equal lists. -/
def Tab.put {α : Type} [Inhabited α] [DecidableEq α] (t : Tab α) (k : Nat) (v : α) : Tab α :=
  if v = default then t.del k else t.ins k v

/-- Changes one entry of a table. -/
def Tab.upd {α : Type} [Inhabited α] [DecidableEq α] (t : Tab α) (k : Nat) (f : α → α) : Tab α :=
  t.put k (f (t.at k))

/-- Changes every listed entry of a table; one that becomes the default value is no longer listed. -/
def Tab.mapAll {α : Type} [Inhabited α] [DecidableEq α] : Tab α → (Nat → α → α) → Tab α
  | [], _ => []
  | (k, v) :: t, f => if f k v = default then Tab.mapAll t f else (k, f k v) :: Tab.mapAll t f

/-- Keeps the listed entries that satisfy a test. -/
def Tab.keep {α : Type} (t : Tab α) (f : Nat → α → Bool) : Tab α :=
  t.filter (fun e => f e.1 e.2)

/-- The indices a table lists, rising. -/
def Tab.keys {α : Type} (t : Tab α) : List Nat := t.map (·.1)

/-- The canonical form: strictly rising indices, no entry equal to the default. -/
def Tab.wf {α : Type} [Inhabited α] [DecidableEq α] : Tab α → Bool
  | [] => true
  | (k, v) :: t => decide (v ≠ default) && (match t with | [] => true | (k', _) :: _ => decide (k < k')) && Tab.wf t

/-- The field of `width` bits of `x` whose lowest bit is `lo`. -/
def bits (x lo width : Nat) : Nat := (x / 2 ^ lo) % 2 ^ width

/-- One bit of `x`. -/
def bit (x i : Nat) : Bool := x.testBit i

/-- `x` with the field of `width` bits at `lo` replaced. -/
def setBits (x lo width v : Nat) : Nat :=
  x - bits x lo width * 2 ^ lo + (v % 2 ^ width) * 2 ^ lo

/-- 1 for true. -/
def b2n (b : Bool) : Nat := if b then 1 else 0

/-- A two's complement reading of the low `width` bits. -/
def signed (width x : Nat) : Int :=
  let v := x % 2 ^ width
  if v < 2 ^ (width - 1) then (v : Int) else (v : Int) - (2 ^ width : Nat)

/-- The two's complement word of an integer. -/
def unsigned (width : Nat) (x : Int) : Nat := (x % ((2 ^ width : Nat) : Int)).toNat

/-- Little-endian number of a byte list. -/
def leNat : List Byte → Nat
  | [] => 0
  | b :: t => b.toNat + 256 * leNat t

/-- Big-endian number of a byte list. -/
def beNat (l : List Byte) : Nat := l.foldl (fun a b => a * 256 + b.toNat) 0

/-- `n` little-endian bytes of a number. -/
def leBytes : Nat → Nat → List Byte
  | 0, _ => []
  | n + 1, x => BitVec.ofNat 8 x :: leBytes n (x / 256)

/-- `n` big-endian (network order) bytes of a number. -/
def beBytes (n x : Nat) : List Byte := (leBytes n x).reverse

/-- `len` bytes from offset `off`; bytes beyond the end read 0. -/
def slice (l : List Byte) (off len : Nat) : List Byte :=
  let d := (l.drop off).take len
  d ++ List.replicate (len - d.length) 0

/-- The little-endian field at an offset. -/
def leAt (l : List Byte) (off len : Nat) : Nat := leNat (slice l off len)

/-- The big-endian field at an offset. -/
def beAt (l : List Byte) (off len : Nat) : Nat := beNat (slice l off len)

/-- Writes bytes over a buffer that reads 0 where nothing was written. -/
def overlay (l : List Byte) (off : Nat) (bs : List Byte) : List Byte :=
  let a := l.take off
  a ++ List.replicate (off - a.length) 0 ++ bs ++ l.drop (off + bs.length)

/-- R44: `a` is later than `b` in `width` bits when (a − b) mod 2^width lies from 1 to 2^(width−1) − 1. -/
def later (width a b : Nat) : Bool :=
  let d := (a + 2 ^ width - b % 2 ^ width) % 2 ^ width
  decide (1 ≤ d ∧ d < 2 ^ (width - 1))

/-- A value held between two limits. -/
def clampInt (lo hi x : Int) : Int := if x < lo then lo else if hi < x then hi else x

/-- Saturating increment. -/
def satInc (max x : Nat) : Nat := if x < max then x + 1 else x

/-- Rounding up. -/
def ceilDiv (a b : Nat) : Nat := (a + b - 1) / b

/-- Eight steps of a reflected CRC. -/
def crcBits (poly : Nat) : Nat → Nat → Nat
  | 0, c => c
  | n + 1, c => crcBits poly n (if c % 2 = 1 then (c / 2) ^^^ poly else c / 2)

/-- A reflected 32-bit CRC over bytes from a preset, with the final complement. -/
def crc32Reflected (poly preset : Nat) (l : List Byte) : Nat :=
  (l.foldl (fun c b => crcBits poly 8 (c ^^^ b.toNat)) preset) ^^^ 0xFFFFFFFF

/-- CRC-32C of R551 from a named initial value. -/
def crc32cFrom (preset : Nat) (l : List Byte) : Nat := crc32Reflected 0x82F63B78 (preset % 2 ^ 32) l

/-- CRC-32C of R551 with the standard preset. -/
def crc32c (l : List Byte) : Nat := crc32cFrom 0xFFFFFFFF l

/-- The Ethernet FCS of IEEE 802.3 (PRESUMED: the manual names the FCS and leaves its polynomial to IEEE 802.3). -/
def crc32 (l : List Byte) : Nat := crc32Reflected 0xEDB88320 0xFFFFFFFF l

/-- Eight steps of CRC-16 with polynomial 0x1021, most significant bit first. -/
def crc16Bits : Nat → Nat → Nat
  | 0, c => c
  | n + 1, c => crc16Bits n (if 0x8000 ≤ c then ((2 * c) % 2 ^ 16) ^^^ 0x1021 else 2 * c)

/-- HDR_CHECK of R331: CRC-16, polynomial 0x1021, initial value 0xFFFF. -/
def crc16 (l : List Byte) : Nat := l.foldl (fun c b => crc16Bits 8 (c ^^^ (b.toNat * 256))) 0xFFFF

/-- `0, 1, …, n − 1` satisfying a test, first first. -/
def firstFrom (n start : Nat) (p : Nat → Bool) : Option Nat :=
  ((List.range n).map (fun i => (start + i) % n)).find? p

/-- The bit string of a list of numbers, as a mask. -/
def maskOf (l : List Nat) : Nat := l.foldl (fun m i => m ||| 2 ^ i) 0

/-- The positions set in the low `n` bits. -/
def onesOf (n m : Nat) : List Nat := (List.range n).filter (fun i => bit m i)

/-- Integer square root by bisection on a fixed number of bits. -/
def isqrtFrom : Nat → Nat → Nat → Nat
  | 0, _, r => r
  | b + 1, x, r => let t := r + 2 ^ b; isqrtFrom b x (if t * t ≤ x then t else r)

end Sys2Proof
end

