-- ==== Sys2Proof/Machine/Crypto.lean ====
section
/-! DEFINITION. The keyed and unkeyed functions the manual names: AES (FIPS 197), AES-CMAC (RFC 4493), GMAC (NIST SP
800-38D), AES key wrap (RFC 3394), SHA-256 and SHA-384 (FIPS 180-4), HMAC (RFC 2104). -/
namespace Sys2Proof.Crypto

/-! ### The AES field -/

/-- Multiplication by x in the AES field. -/
def xtime (b : Byte) : Byte := (b <<< 1) ^^^ (if b.msb then 0x1B#8 else 0#8)

/-- Product in the AES field, from the low bit of `b` up. -/
def gmulFrom : Nat → Byte → Byte → Byte → Byte
  | 0, _, _, acc => acc
  | n + 1, a, b, acc => gmulFrom n (xtime a) (b >>> 1) (if b.getLsbD 0 then acc ^^^ a else acc)

/-- Product in the AES field. -/
def gmul (a b : Byte) : Byte := gmulFrom 8 a b 0#8

/-- The power 254 in the AES field: the inverse, and 0 for 0. -/
def ginv (b : Byte) : Byte :=
  let b2 := gmul b b
  let b4 := gmul b2 b2
  let b8 := gmul b4 b4
  let b16 := gmul b8 b8
  let b32 := gmul b16 b16
  let b64 := gmul b32 b32
  let b128 := gmul b64 b64
  gmul b128 (gmul b64 (gmul b32 (gmul b16 (gmul b8 (gmul b4 b2)))))

/-- The substitution of one byte. -/
def sbox (b : Byte) : Byte :=
  let v := ginv b
  v ^^^ v.rotateLeft 1 ^^^ v.rotateLeft 2 ^^^ v.rotateLeft 3 ^^^ v.rotateLeft 4 ^^^ 0x63#8

/-- The inverse substitution. -/
def sboxInv (b : Byte) : Byte :=
  ginv (b.rotateLeft 1 ^^^ b.rotateLeft 3 ^^^ b.rotateLeft 6 ^^^ 0x05#8)

/-! ### AES -/

/-- Bitwise exclusive or of two byte lists. -/
def xorBytes (a b : List Byte) : List Byte := List.zipWith (· ^^^ ·) a b

/-- A byte of a list, 0 beyond its end. -/
def byteAt (l : List Byte) (i : Nat) : Byte := l.getD i 0#8

/-- ShiftRows on a block in column order. -/
def shiftRows (l : List Byte) : List Byte := (List.range 16).map (fun i => byteAt l ((i + 4 * (i % 4)) % 16))

/-- Inverse of ShiftRows. -/
def shiftRowsInv (l : List Byte) : List Byte := (List.range 16).map (fun i => byteAt l ((i + 12 * (i % 4)) % 16))

/-- Every column times a circulant of four coefficients. -/
def mixWith (c0 c1 c2 c3 : Byte) (l : List Byte) : List Byte :=
  (List.range 16).map (fun i =>
    let col := 4 * (i / 4)
    let r := i % 4
    gmul c0 (byteAt l (col + r)) ^^^ gmul c1 (byteAt l (col + (r + 1) % 4))
      ^^^ gmul c2 (byteAt l (col + (r + 2) % 4)) ^^^ gmul c3 (byteAt l (col + (r + 3) % 4)))

/-- Expanded key words, newest first. -/
def expandFrom (nk : Nat) : Nat → Nat → Byte → List (List Byte) → List (List Byte)
  | 0, _, _, ws => ws
  | n + 1, i, rcon, ws =>
    let prev := ws.headD []
    let back := (ws.drop (nk - 1)).headD []
    let t :=
      if i % nk = 0 then
        xorBytes ((prev.drop 1 ++ prev.take 1).map sbox) [rcon, 0#8, 0#8, 0#8]
      else if decide (6 < nk) && i % nk == 4 then prev.map sbox else prev
    expandFrom nk n (i + 1) (if i % nk = 0 then xtime rcon else rcon) (xorBytes back t :: ws)

/-- Round keys of a 16- or 32-byte key, first first. -/
def roundKeys (key : List Byte) : List (List Byte) :=
  let nk := key.length / 4
  let ws0 := ((List.range nk).map (fun i => slice key (4 * i) 4)).reverse
  let words := (expandFrom nk (4 * (nk + 7) - nk) nk 1#8 ws0).reverse
  (List.range (nk + 7)).map (fun r => ((words.drop (4 * r)).take 4).flatten)

/-- AES encryption of one block under expanded round keys. -/
def aesWith (rounds : List (List Byte)) (block : List Byte) : List Byte :=
  match rounds with
  | [] => block
  | k0 :: ks =>
    let mid := ks.dropLast
    let b := mid.foldl (fun b k => xorBytes (mixWith 2#8 3#8 1#8 1#8 (shiftRows (b.map sbox))) k) (xorBytes block k0)
    xorBytes (shiftRows (b.map sbox)) (ks.getLastD [])

/-- AES encryption of one block. -/
def aes (key block : List Byte) : List Byte := aesWith (roundKeys key) block

/-- AES decryption of one block. -/
def aesInv (key block : List Byte) : List Byte :=
  match (roundKeys key).reverse with
  | [] => block
  | kN :: ks =>
    let b := ks.dropLast.foldl (fun b k =>
      mixWith 14#8 11#8 13#8 9#8 (xorBytes ((shiftRowsInv b).map sboxInv) k)) (xorBytes block kN)
    xorBytes ((shiftRowsInv b).map sboxInv) (ks.getLastD [])

/-! ### AES-CMAC -/

/-- Doubling of a 128-bit block. -/
def dbl (x : Nat) : Nat := ((2 * x) % 2 ^ 128) ^^^ (if 2 ^ 127 ≤ x then 0x87 else 0)

/-- Blocks of 16 bytes; the last may be shorter. -/
def blocksFrom : Nat → List Byte → List (List Byte)
  | 0, _ => []
  | n + 1, l => l.take 16 :: blocksFrom n (l.drop 16)

/-- The 16-byte blocks of a message, at least one. -/
def blocks (l : List Byte) : List (List Byte) := blocksFrom (max 1 (ceilDiv l.length 16)) l

/-- AES-CMAC of a message (RFC 4493) under expanded round keys. -/
def cmacWith (rounds : List (List Byte)) (msg : List Byte) : List Byte :=
  let enc := aesWith rounds
  let l := beNat (enc (List.replicate 16 0#8))
  let bs := blocks msg
  let last := bs.getLastD []
  let fin := if last.length = 16 then xorBytes last (beBytes 16 (dbl l))
    else xorBytes (slice (last ++ [0x80#8]) 0 16) (beBytes 16 (dbl (dbl l)))
  enc (xorBytes (bs.dropLast.foldl (fun c b => enc (xorBytes c b)) (List.replicate 16 0#8)) fin)

/-- AES-CMAC of a message (RFC 4493). -/
def cmac (key msg : List Byte) : List Byte := cmacWith (roundKeys key) msg

/-! ### GMAC -/

/-- Product of two 128-bit blocks of GCM, bit 127 first. -/
def gcmMulFrom : Nat → Nat → Nat → Nat → Nat
  | 0, _, _, z => z
  | n + 1, x, v, z =>
    gcmMulFrom n x (if v % 2 = 1 then (v / 2) ^^^ (0xE1 * 2 ^ 120) else v / 2) (if x.testBit n then z ^^^ v else z)

/-- Product of two 128-bit blocks of GCM. -/
def gcmMul (x y : Nat) : Nat := gcmMulFrom 128 x y 0

/-- The GHASH subkey H of expanded round keys. -/
def hashKey (rounds : List (List Byte)) : Nat := beNat (aesWith rounds (List.replicate 16 0#8))

/-- The GMAC tag of a message under a 96-bit IV (NIST SP 800-38D, all bytes additional data), from the round keys and the subkey H. -/
def gmacWith (rounds : List (List Byte)) (h : Nat) (iv msg : List Byte) : List Byte :=
  let body := if msg.isEmpty then [] else (blocks msg).map (fun b => beNat (slice b 0 16))
  let y := (body ++ [msg.length * 8 * 2 ^ 64]).foldl (fun y b => gcmMul (y ^^^ b) h) 0
  xorBytes (beBytes 16 y) (aesWith rounds (iv ++ [0#8, 0#8, 0#8, 1#8]))

/-- The GMAC tag of a message under a 96-bit IV. -/
def gmac (key iv msg : List Byte) : List Byte := gmacWith (roundKeys key) (hashKey (roundKeys key)) iv msg

/-! ### AES key wrap (RFC 3394) -/

/-- The initial value of RFC 3394. -/
def kwIv : List Byte := List.replicate 8 0xA6#8

/-- One step of wrapping on A and the list of 64-bit halves. -/
def kwStep (key : List Byte) (n : Nat) (st : List Byte × List (List Byte)) (t : Nat) : List Byte × List (List Byte) :=
  let i := (t - 1) % n
  let b := aes key (st.1 ++ st.2.getD i [])
  (xorBytes (b.take 8) (beBytes 8 t), st.2.set i (b.drop 8))

/-- Wraps a block whose length is a multiple of 8. -/
def kwWrap (key p : List Byte) : List Byte :=
  let n := p.length / 8
  let r := (List.range n).map (fun i => slice p (8 * i) 8)
  let o := ((List.range (6 * n)).map (· + 1)).foldl (kwStep key n) (kwIv, r)
  o.1 ++ o.2.flatten

/-- One step of unwrapping. -/
def kwStepInv (key : List Byte) (n : Nat) (st : List Byte × List (List Byte)) (t : Nat) : List Byte × List (List Byte) :=
  let i := (t - 1) % n
  let b := aesInv key (xorBytes st.1 (beBytes 8 t) ++ st.2.getD i [])
  (b.take 8, st.2.set i (b.drop 8))

/-- Unwraps; none when the integrity check fails. -/
def kwUnwrap (key c : List Byte) : Option (List Byte) :=
  let n := c.length / 8 - 1
  let r := (List.range n).map (fun i => slice c (8 * i + 8) 8)
  let o := (((List.range (6 * n)).map (· + 1)).reverse).foldl (kwStepInv key n) (c.take 8, r)
  if o.1 = kwIv then some o.2.flatten else none

/-! ### SHA-256 and SHA-384 (FIPS 180-4) -/

/-- Round constants of SHA-256. -/
def k256 : List Nat := List.flatten [
  [0x428a2f98, 0x71374491, 0xb5c0fbcf, 0xe9b5dba5, 0x3956c25b, 0x59f111f1, 0x923f82a4, 0xab1c5ed5],
  [0xd807aa98, 0x12835b01, 0x243185be, 0x550c7dc3, 0x72be5d74, 0x80deb1fe, 0x9bdc06a7, 0xc19bf174],
  [0xe49b69c1, 0xefbe4786, 0xfc19dc6, 0x240ca1cc, 0x2de92c6f, 0x4a7484aa, 0x5cb0a9dc, 0x76f988da],
  [0x983e5152, 0xa831c66d, 0xb00327c8, 0xbf597fc7, 0xc6e00bf3, 0xd5a79147, 0x6ca6351, 0x14292967],
  [0x27b70a85, 0x2e1b2138, 0x4d2c6dfc, 0x53380d13, 0x650a7354, 0x766a0abb, 0x81c2c92e, 0x92722c85],
  [0xa2bfe8a1, 0xa81a664b, 0xc24b8b70, 0xc76c51a3, 0xd192e819, 0xd6990624, 0xf40e3585, 0x106aa070],
  [0x19a4c116, 0x1e376c08, 0x2748774c, 0x34b0bcb5, 0x391c0cb3, 0x4ed8aa4a, 0x5b9cca4f, 0x682e6ff3],
  [0x748f82ee, 0x78a5636f, 0x84c87814, 0x8cc70208, 0x90befffa, 0xa4506ceb, 0xbef9a3f7, 0xc67178f2]]

/-- Initial value of SHA-256. -/
def h256 : List Nat := List.flatten [
  [0x6a09e667, 0xbb67ae85, 0x3c6ef372, 0xa54ff53a, 0x510e527f, 0x9b05688c, 0x1f83d9ab, 0x5be0cd19]]

/-- Round constants of SHA-384. -/
def k512 : List Nat := List.flatten [
  [0x428a2f98d728ae22, 0x7137449123ef65cd, 0xb5c0fbcfec4d3b2f, 0xe9b5dba58189dbbc],
  [0x3956c25bf348b538, 0x59f111f1b605d019, 0x923f82a4af194f9b, 0xab1c5ed5da6d8118],
  [0xd807aa98a3030242, 0x12835b0145706fbe, 0x243185be4ee4b28c, 0x550c7dc3d5ffb4e2],
  [0x72be5d74f27b896f, 0x80deb1fe3b1696b1, 0x9bdc06a725c71235, 0xc19bf174cf692694],
  [0xe49b69c19ef14ad2, 0xefbe4786384f25e3, 0xfc19dc68b8cd5b5, 0x240ca1cc77ac9c65],
  [0x2de92c6f592b0275, 0x4a7484aa6ea6e483, 0x5cb0a9dcbd41fbd4, 0x76f988da831153b5],
  [0x983e5152ee66dfab, 0xa831c66d2db43210, 0xb00327c898fb213f, 0xbf597fc7beef0ee4],
  [0xc6e00bf33da88fc2, 0xd5a79147930aa725, 0x6ca6351e003826f, 0x142929670a0e6e70],
  [0x27b70a8546d22ffc, 0x2e1b21385c26c926, 0x4d2c6dfc5ac42aed, 0x53380d139d95b3df],
  [0x650a73548baf63de, 0x766a0abb3c77b2a8, 0x81c2c92e47edaee6, 0x92722c851482353b],
  [0xa2bfe8a14cf10364, 0xa81a664bbc423001, 0xc24b8b70d0f89791, 0xc76c51a30654be30],
  [0xd192e819d6ef5218, 0xd69906245565a910, 0xf40e35855771202a, 0x106aa07032bbd1b8],
  [0x19a4c116b8d2d0c8, 0x1e376c085141ab53, 0x2748774cdf8eeb99, 0x34b0bcb5e19b48a8],
  [0x391c0cb3c5c95a63, 0x4ed8aa4ae3418acb, 0x5b9cca4f7763e373, 0x682e6ff3d6b2b8a3],
  [0x748f82ee5defb2fc, 0x78a5636f43172f60, 0x84c87814a1f0ab72, 0x8cc702081a6439ec],
  [0x90befffa23631e28, 0xa4506cebde82bde9, 0xbef9a3f7b2c67915, 0xc67178f2e372532b],
  [0xca273eceea26619c, 0xd186b8c721c0c207, 0xeada7dd6cde0eb1e, 0xf57d4f7fee6ed178],
  [0x6f067aa72176fba, 0xa637dc5a2c898a6, 0x113f9804bef90dae, 0x1b710b35131c471b],
  [0x28db77f523047d84, 0x32caab7b40c72493, 0x3c9ebe0a15c9bebc, 0x431d67c49c100d4c],
  [0x4cc5d4becb3e42b6, 0x597f299cfc657e2a, 0x5fcb6fab3ad6faec, 0x6c44198c4a475817]]

/-- Initial value of SHA-384. -/
def h384 : List Nat := List.flatten [
  [0xcbbb9d5dc1059ed8, 0x629a292a367cd507, 0x9159015a3070dd17, 0x152fecd8f70e5939],
  [0x67332667ffc00b31, 0x8eb44a8768581511, 0xdb0c2e0d64f98fa7, 0x47b5481dbefa4fa4]]

/-- Rotation right of a `w`-bit word. -/
def rotr (w n x : Nat) : Nat := ((x / 2 ^ n) ||| (x * 2 ^ (w - n))) % 2 ^ w

/-- Parameters of one of the two functions: word width, constants, and the rotations of its four sigmas. -/
structure Sha where
  w : Nat
  k : List Nat
  s0 : Nat × Nat × Nat
  s1 : Nat × Nat × Nat
  b0 : Nat × Nat × Nat
  b1 : Nat × Nat × Nat

/-- SHA-256. -/
def sha2w32 : Sha := ⟨32, k256, (7, 18, 3), (17, 19, 10), (2, 13, 22), (6, 11, 25)⟩

/-- SHA-512 and SHA-384. -/
def sha2w64 : Sha := ⟨64, k512, (1, 8, 7), (19, 61, 6), (28, 34, 39), (14, 18, 41)⟩

/-- A small sigma: two rotations and a shift. -/
def small (h : Sha) (r : Nat × Nat × Nat) (x : Nat) : Nat := rotr h.w r.1 x ^^^ rotr h.w r.2.1 x ^^^ (x / 2 ^ r.2.2)

/-- A big sigma: three rotations. -/
def big (h : Sha) (r : Nat × Nat × Nat) (x : Nat) : Nat := rotr h.w r.1 x ^^^ rotr h.w r.2.1 x ^^^ rotr h.w r.2.2 x

/-- The message schedule, newest word first. -/
def schedFrom (h : Sha) : Nat → List Nat → List Nat
  | 0, ws => ws
  | n + 1, ws =>
    let g := fun i => ws.getD i 0
    schedFrom h n ((small h h.s1 (g 1) + g 6 + small h h.s0 (g 14) + g 15) % 2 ^ h.w :: ws)

/-- One round on the eight working words. -/
def shaRound (h : Sha) (v : List Nat) (kw : Nat × Nat) : List Nat :=
  match v with
  | [a, b, c, d, e, f, g, hh] =>
    let t1 := hh + big h h.b1 e + ((e &&& f) ^^^ ((2 ^ h.w - 1 - e) &&& g)) + kw.1 + kw.2
    let t2 := big h h.b0 a + ((a &&& b) ^^^ (a &&& c) ^^^ (b &&& c))
    [(t1 + t2) % 2 ^ h.w, a, b, c, (d + t1) % 2 ^ h.w, e, f, g]
  | _ => v

/-- One block. -/
def shaBlock (h : Sha) (st : List Nat) (block : List Byte) : List Nat :=
  let n := h.w / 8
  let ws := (schedFrom h (h.k.length - 16) ((List.range 16).map (fun i => beAt block (n * i) n)).reverse).reverse
  let v := (List.zip h.k ws).foldl (shaRound h) st
  List.zipWith (fun a b => (a + b) % 2 ^ h.w) st v

/-- Blocks of a padded message. -/
def shaBlocks (h : Sha) (init : List Nat) (msg : List Byte) : List Nat :=
  let bl := 2 * h.w
  let lf := h.w / 4
  let total := ceilDiv (msg.length + 1 + lf) bl * bl
  let padded := msg ++ [0x80#8] ++ List.replicate (total - msg.length - 1 - lf) 0#8 ++ beBytes lf (8 * msg.length)
  (List.range (total / bl)).foldl (fun st i => shaBlock h st (slice padded (bl * i) bl)) init

/-- SHA-256 of a message. -/
def sha256 (msg : List Byte) : List Byte := ((shaBlocks sha2w32 h256 msg).map (beBytes 4)).flatten

/-- SHA-384 of a message. -/
def sha384 (msg : List Byte) : List Byte := (((shaBlocks sha2w64 h384 msg).take 6).map (beBytes 8)).flatten

/-- HMAC-SHA256 (RFC 2104) under a key of at most 64 bytes. -/
def hmac256 (key msg : List Byte) : List Byte :=
  let k := slice key 0 64
  sha256 (k.map (· ^^^ 0x5C#8) ++ sha256 (k.map (· ^^^ 0x36#8) ++ msg))

/-- Counter-mode CMAC key derivation (NIST SP 800-108r1) of `n` bytes for a label of ASCII codes. -/
def kdf (key : List Byte) (label : List Byte) (n : Nat) : List Byte :=
  (((List.range (ceilDiv n 16)).map (fun i => cmac key (beBytes 4 (i + 1) ++ label ++ [0#8] ++ beBytes 4 (8 * n)))).flatten).take n

end Sys2Proof.Crypto
end

