-- ==== Sys2Proof/Config.lean ====
section
/-! DEFINITION. What one chip fixes and what the manual leaves open: values with no body, which no proof can see.
`Config.freeValue` applied to the state's own counter gives a fresh free value each time. -/
namespace Sys2Proof

/-- Device-unique seeds drawn from the TRNG at first boot (R111, R167, R180): 0 to 15 FT_SEED, 16 OVF_SEED, 17 ST_SEED,
18 HASH_SEED, 19 the duplicate table's. (DESIGN CHOICE, entry 6.) -/
opaque Config.deviceSeed : Nat → BitVec 32

/-- A value that the manual leaves open, by the number the state's counter `free` gives it. (DESIGN CHOICE, entries 5, 121.) -/
opaque Config.freeValue : Nat → BitVec 1024

/-- The SECDED check bits of a control-store word over its bits 191 to 9: the manual does not name the code (R83). (DESIGN CHOICE, entry 141.) -/
opaque Config.secded : BitVec 183 → BitVec 9

/-- IMAGE_ID, PATCH_LEVEL and SHA-384 digest of the default image embedded in the firmware (R97, R109, R498). (DESIGN CHOICE, entry 142.) -/
opaque Config.defaultImage : BitVec 16 × BitVec 8 × BitVec 384

/-- The delay in ns of the anti-alias filter of a decimated stream, by its sample rate (R305). (DESIGN CHOICE, entry 155.) -/
opaque Config.filterDelay : Nat → BitVec 24

/-- DEVICE_SERIAL (R403). (DESIGN CHOICE, entry 7.) -/
opaque Config.deviceSerial : BitVec 64

/-- The public key, 97 bytes, of a private P-384 key (R281, R404): the model holds no arithmetic of the curve. (DESIGN CHOICE, entry 7.) -/
opaque Config.publicKey : Nat → BitVec 776

/-- An ECDSA P-384 signature, 96 bytes, by a private key over the given bytes (R281, R404, R456). (DESIGN CHOICE, entry 7.) -/
opaque Config.sign : Nat → List Byte → BitVec 768

/-- The shared secret Z of R404 from a private P-384 key and the bytes of a public one: the model holds no arithmetic of the curve.
(DESIGN CHOICE, entry 8.) -/
opaque Config.sharedSecret : Nat → List Byte → BitVec 384

/-- The OTP device key from which the Vault wrap key is derived (R279). (DESIGN CHOICE, entry 9.) -/
opaque Config.vaultKey : Nat → BitVec 256

/-- The Pacer core that serves a mailbox slot: the manual does not say which (R467). (DESIGN CHOICE, entry 10.) -/
opaque Config.slotCore : Nat → BitVec 2

/-- The Pacer core that serves a job, by SEQ: the manual does not say which (R467). (DESIGN CHOICE, entry 10.) -/
opaque Config.jobCore : BitVec 64 → BitVec 2

/-- The bank of an HBM block, by its address ÷ 2 KiB: the manual does not give the address bits (R347). (DESIGN CHOICE, entry 11.) -/
opaque Config.hbmBank : Nat → BitVec 5

end Sys2Proof
end

