-- ==== Sys2Proof/Machine/Params.lean ====
section
/-! DEFINITION. Every row of every parameter table of the manual: PARAM_ID (R424), range of INDEX (R425), form of VALUE
(R426) and default, and the bank of configuration values. -/
namespace Sys2Proof.Machine

/-- The form of a parameter's Range (R426). -/
inductive Form where
  /-- a list of n discrete names or values: the position -/
  | list (n : Nat)
  | interval (lo hi : Int)
  /-- one separate value besides an interval -/
  | orInterval (extra lo hi : Int)
  /-- an interval of divisors of 10⁹ (LAP_RATE) -/
  | divisor (lo hi : Int)
  /-- an interval of divisors of a number (PMU_RATE) -/
  | divides (lo hi n : Int)
  /-- an interval in steps -/
  | step (lo hi by_ : Int)
  /-- a bitmap of n bits -/
  | bits (n : Nat)
  /-- a bitmap of n bits of which only those of the mask may be set (CLASS_EXPRESS, R167) -/
  | maskBits (n mask : Nat)
  /-- IEEE 754 single greater than 0 -/
  | single
  | ptp
  | text (n : Nat)
  | template (lo hi : Nat)
  /-- a measurement source -/
  | source
  /-- a measurement source that must be a tap channel -/
  | tapSource
  /-- 0 to the size of the pool that INDEX names (R387) -/
  | poolSize
deriving DecidableEq, Repr

/-- A parameter: its PARAM_ID, the number of its indices, its form and the default of each index. -/
structure Param where
  id : Nat
  count : Nat
  form : Form
  dflt : Nat → Int

/-! Parameters of lap and time (R28, R37). -/

def P.lapRate : Param := ⟨0x0200, 1, .divisor 500 100000, fun _ => 4000⟩
def P.timeSource : Param := ⟨0x0201, 1, .list 3, fun _ => 0⟩
def P.ptpPort : Param := ⟨0x0202, 1, .interval (0) (511), fun _ => 0⟩
def P.stepThreshold : Param := ⟨0x0203, 1, .interval (100) (1000000), fun _ => 1000⟩
def P.slewMax : Param := ⟨0x0204, 1, .interval (1) (500), fun _ => 100⟩
def P.sourceLoss : Param := ⟨0x0205, 1, .interval (1) (60), fun _ => 3⟩

/-- The parameters of file 02 in the order of R424. -/
def paramTable02 : List Param := [
  P.lapRate,
  P.timeSource,
  P.ptpPort,
  P.stepThreshold,
  P.slewMax,
  P.sourceLoss]

/-! Parameters of ports (R55). -/

def P.portEnable : Param := ⟨0x0300, 512, .list 2, fun _ => 0⟩
def P.portSpeed : Param := ⟨0x0301, 512, .list 8, fun _ => 4⟩
def P.laneRate : Param := ⟨0x0302, 512, .list 5, fun _ => 4⟩
def P.fecMode : Param := ⟨0x0303, 512, .list 3, fun _ => 2⟩
def P.anEnable : Param := ⟨0x0304, 512, .list 2, fun _ => 0⟩
def P.trainEnable : Param := ⟨0x0305, 512, .list 2, fun _ => 0⟩
def P.txPolarity : Param := ⟨0x0306, 512, .bits 8, fun _ => 0⟩
def P.rxPolarity : Param := ⟨0x0307, 512, .bits 8, fun _ => 0⟩
def P.maxFrame : Param := ⟨0x0308, 512, .interval (64) (10240), fun _ => 1522⟩
def P.flowCtrl : Param := ⟨0x0309, 512, .list 3, fun _ => 0⟩
def P.pfcMap : Param := ⟨0x030A, 8192, .list 9, fun i => if i % 16 < 8 then ((i % 16 : Nat) : Int) else 8⟩
def P.pfcQuanta : Param := ⟨0x030B, 512, .interval (1) (65535), fun _ => 65535⟩
def P.preemptEnable : Param := ⟨0x030C, 512, .list 2, fun _ => 0⟩
def P.preemptMap : Param := ⟨0x030D, 512, .bits 16, fun _ => 0x0FFF⟩
def P.addFragSize : Param := ⟨0x030E, 512, .interval (0) (3), fun _ => 0⟩
def P.verifyEnable : Param := ⟨0x030F, 512, .list 2, fun _ => 1⟩
def P.verifyTime : Param := ⟨0x0310, 512, .interval (1) (128), fun _ => 10⟩
def P.lossFilter : Param := ⟨0x0311, 512, .interval (0) (8), fun _ => 2⟩
def P.upDebounce : Param := ⟨0x0312, 512, .interval (0) (10000), fun _ => 100⟩
def P.fecDegrade : Param := ⟨0x0313, 512, .interval (1) (4294967295), fun _ => 1048576⟩
def P.ptpTrimRx : Param := ⟨0x0314, 512, .interval (-5000) (5000), fun _ => 0⟩
def P.ptpTrimTx : Param := ⟨0x0315, 512, .interval (-5000) (5000), fun _ => 0⟩
def P.portRole : Param := ⟨0x0316, 512, .list 2, fun _ => 0⟩

/-- The parameters of file 03 in the order of R424. -/
def paramTable03 : List Param := [
  P.portEnable,
  P.portSpeed,
  P.laneRate,
  P.fecMode,
  P.anEnable,
  P.trainEnable,
  P.txPolarity,
  P.rxPolarity,
  P.maxFrame,
  P.flowCtrl,
  P.pfcMap,
  P.pfcQuanta,
  P.preemptEnable,
  P.preemptMap,
  P.addFragSize,
  P.verifyEnable,
  P.verifyTime,
  P.lossFilter,
  P.upDebounce,
  P.fecDegrade,
  P.ptpTrimRx,
  P.ptpTrimTx,
  P.portRole]

/-! Parameters of parsing (R100). -/

/-- Its default is 0 on a host port and 1 on a relay port (R100), which Bank.parseEntryOf resolves; −1 stands for it. -/
def P.parseEntry : Param := ⟨0x0400, 512, .interval (0) (15), fun _ => -1⟩
def P.accumBytes : Param := ⟨0x0401, 512, .list 3, fun _ => 0⟩
def P.mustParse : Param := ⟨0x0402, 512, .list 2, fun _ => 0⟩
def P.defaultAction : Param := ⟨0x0403, 512, .list 4, fun _ => 0⟩
def P.defaultPort : Param := ⟨0x0404, 512, .interval (0) (511), fun _ => 0⟩
def P.defaultClass : Param := ⟨0x0405, 512, .interval (0) (11), fun _ => 0⟩
def P.pvid : Param := ⟨0x0406, 512, .interval (1) (4094), fun _ => 1⟩
def P.egressDefault : Param := ⟨0x0407, 512, .list 2, fun _ => 0⟩

/-- The parameters of file 04 in the order of R424. -/
def paramTable04 : List Param := [
  P.parseEntry,
  P.accumBytes,
  P.mustParse,
  P.defaultAction,
  P.defaultPort,
  P.defaultClass,
  P.pvid,
  P.egressDefault]

/-! Parameters of tables and learning (R111, R113, R129, R136, R139). -/

def P.poolFront : Param := ⟨0x0500, 1, .interval (1) (64), fun _ => 44⟩
def P.poolNextHop : Param := ⟨0x0501, 1, .interval (0) (63), fun _ => 4⟩
def P.poolRewrite : Param := ⟨0x0502, 1, .interval (0) (63), fun _ => 4⟩
def P.poolAction : Param := ⟨0x0503, 1, .interval (0) (63), fun _ => 4⟩
def P.poolStream : Param := ⟨0x0504, 1, .interval (0) (63), fun _ => 2⟩
def P.poolMeter : Param := ⟨0x0505, 1, .interval (0) (63), fun _ => 2⟩
def P.poolDuplicate : Param := ⟨0x0506, 1, .interval (0) (63), fun _ => 4⟩
def P.ftSegments : Param := ⟨0x0507, 16, .interval (0) (63), fun i => if i = 0 then 43 else 0⟩
def P.ftForm : Param := ⟨0x0508, 16, .list 2, fun _ => 0⟩
def P.ftSeed : Param := ⟨0x0509, 16, .bits 32, fun i => (Config.deviceSeed i).toNat⟩
def P.ovfSeed : Param := ⟨0x050A, 1, .bits 32, fun _ => (Config.deviceSeed 16).toNat⟩
def P.stSeed : Param := ⟨0x050B, 1, .bits 32, fun _ => (Config.deviceSeed 17).toNat⟩
def P.kpTable : Param := ⟨0x050C, 16, .interval (0) (15), fun _ => 0⟩
def P.kpNfields : Param := ⟨0x050D, 16, .interval (0) (8), fun i => if i = 1 then 2 else 0⟩
def P.kpField : Param := ⟨0x050E, 128, .bits 16, fun i => if i = 8 then 0x67CB else if i = 9 then 0x802F else 0⟩
def P.kpStation : Param := ⟨0x050F, 16, .list 2, fun i => if i = 1 then 1 else 0⟩
def P.kpLearn : Param := ⟨0x0510, 16, .list 2, fun i => if i = 1 then 1 else 0⟩
def P.kpLfield : Param := ⟨0x0511, 128, .bits 16, fun i => if i = 8 then 0x67CB else if i = 9 then 0x81AF else 0⟩
def P.expressMiss : Param := ⟨0x0512, 512, .list 3, fun _ => 0⟩
def P.learnEnable : Param := ⟨0x0513, 512, .list 2, fun _ => 0⟩
def P.learnTier : Param := ⟨0x0514, 512, .list 2, fun _ => 1⟩
def P.learnLimit : Param := ⟨0x0515, 512, .interval (0) (37748736), fun _ => 0⟩
def P.learnActionRef : Param := ⟨0x0516, 512, .interval (0) (1048575), fun _ => 0⟩
def P.flushOnDown : Param := ⟨0x0517, 512, .list 2, fun _ => 1⟩
def P.ageLaps : Param := ⟨0x0518, 1, .orInterval 0 400 2147483647, fun _ => 1200000⟩
def P.scrubLaps : Param := ⟨0x0519, 1, .interval (4000) (4000000), fun _ => 40000⟩

/-- The parameters of file 05 in the order of R424. -/
def paramTable05 : List Param := [
  P.poolFront,
  P.poolNextHop,
  P.poolRewrite,
  P.poolAction,
  P.poolStream,
  P.poolMeter,
  P.poolDuplicate,
  P.ftSegments,
  P.ftForm,
  P.ftSeed,
  P.ovfSeed,
  P.stSeed,
  P.kpTable,
  P.kpNfields,
  P.kpField,
  P.kpStation,
  P.kpLearn,
  P.kpLfield,
  P.expressMiss,
  P.learnEnable,
  P.learnTier,
  P.learnLimit,
  P.learnActionRef,
  P.flushOnDown,
  P.ageLaps,
  P.scrubLaps]

/-! Parameters of rules and prefixes (R145). -/

def P.kpRnfields : Param := ⟨0x0600, 16, .interval (0) (16), fun i => if i = 1 then 9 else 0⟩
def P.kpRfield : Param := ⟨0x0601, 256, .bits 16, fun i => if i = 16 then 32200 else if i = 17 then 27343 else if i = 18 then 26571 else if i = 19 then 25602 else if i = 20 then 14671 else if i = 21 then 23495 else if i = 22 then 23109 else if i = 23 then 21839 else if i = 24 then 20815 else 0⟩
def P.kpPfPos : Param := ⟨0x0602, 16, .orInterval 511 0 312, fun i => if i = 1 then 246 else 511⟩
def P.kpPrefix : Param := ⟨0x0603, 16, .list 3, fun i => if i = 1 then 1 else 0⟩
def P.kpVrf : Param := ⟨0x0604, 16, .maskBits 16 0xFFC7, fun _ => 0⟩

/-- The parameters of file 06 in the order of R424. -/
def paramTable06 : List Param := [
  P.kpRnfields,
  P.kpRfield,
  P.kpPfPos,
  P.kpPrefix,
  P.kpVrf]

/-! Parameters of actions (R167). -/

def P.classExpress : Param := ⟨0x0700, 1, .maskBits 16 0xF000, fun _ => 0x8000⟩
def P.pcpClass : Param := ⟨0x0701, 4096, .interval (0) (15), fun i => ((i % 8 : Nat) : Int)⟩
def P.untaggedClass : Param := ⟨0x0702, 512, .interval (0) (15), fun _ => 0⟩
def P.hashSeed : Param := ⟨0x0703, 1, .bits 32, fun _ => (Config.deviceSeed 18).toNat⟩
def P.dupForgetMs : Param := ⟨0x0704, 1, .interval (10) (10000), fun _ => 400⟩

/-- The parameters of file 07 in the order of R424. -/
def paramTable07 : List Param := [
  P.classExpress,
  P.pcpClass,
  P.untaggedClass,
  P.hashSeed,
  P.dupForgetMs]

/-! Parameters of buffer (R195 to R214). -/

def P.qmin : Param := ⟨0x0800, 8192, .interval (0) (4096), fun i => if 12 ≤ i % 16 then 8 else 2⟩
def P.alphaK : Param := ⟨0x0801, 8192, .interval (-4) (3), fun _ => 0⟩
def P.voqMin : Param := ⟨0x0802, 8, .interval (0) (1024), fun _ => 0⟩
def P.voqAlphaK : Param := ⟨0x0803, 8, .interval (-4) (3), fun _ => -1⟩
def P.anchorReserve : Param := ⟨0x0804, 4, .interval (0) (65536), fun _ => 16384⟩
def P.anchorAlphaK : Param := ⟨0x0805, 1, .interval (-4) (3), fun _ => 0⟩
def P.fwdMode : Param := ⟨0x0806, 8192, .list 3, fun _ => 2⟩
def P.resLimit : Param := ⟨0x0807, 16, .interval (1) (1000000), fun i => if i = 15 then 250 else if 13 ≤ i then 1000 else if 8 ≤ i then 10000 else 1000000⟩
def P.mcResidueLaps : Param := ⟨0x0808, 1, .interval (1) (64), fun _ => 4⟩
def P.spillEnable : Param := ⟨0x0809, 512, .bits 8, fun _ => 0⟩
def P.spillOn : Param := ⟨0x080A, 1, .interval (512) (65536), fun _ => 8192⟩
def P.spillRefill : Param := ⟨0x080B, 1, .interval (64) (4096), fun _ => 256⟩
def P.spillMax : Param := ⟨0x080C, 1, .interval (0) (16777215), fun _ => 4194304⟩
def P.xoffCells : Param := ⟨0x080D, 4096, .interval (16) (65536), fun _ => 1024⟩
def P.xonCells : Param := ⟨0x080E, 4096, .interval (0) (65520), fun _ => 768⟩
def P.headroomCells : Param := ⟨0x080F, 4096, .step 0 16384 16, fun _ => 640⟩
def P.pfcGlobalXoff : Param := ⟨0x0810, 1, .interval (0) (65536), fun _ => 8192⟩
def P.portHoldLaps : Param := ⟨0x0811, 512, .interval (0) (64), fun _ => 2⟩

/-- The parameters of file 08 in the order of R424. -/
def paramTable08 : List Param := [
  P.qmin,
  P.alphaK,
  P.voqMin,
  P.voqAlphaK,
  P.anchorReserve,
  P.anchorAlphaK,
  P.fwdMode,
  P.resLimit,
  P.mcResidueLaps,
  P.spillEnable,
  P.spillOn,
  P.spillRefill,
  P.spillMax,
  P.xoffCells,
  P.xonCells,
  P.headroomCells,
  P.pfcGlobalXoff,
  P.portHoldLaps]

/-! Parameters of queues and gates (R219, R227). -/

def P.schedMode : Param := ⟨0x0900, 8192, .list 2, fun i => if 12 ≤ i % 16 then 0 else 1⟩
def P.quantum : Param := ⟨0x0901, 8192, .interval (1) (255), fun _ => 1⟩
def P.shaperMode : Param := ⟨0x0902, 8192, .list 2, fun _ => 0⟩
def P.idleSlope : Param := ⟨0x0903, 8192, .interval (1) (12500000), fun _ => 15625⟩
def P.hiCredit : Param := ⟨0x0904, 8192, .interval (0) (1048576), fun _ => 16384⟩
def P.loCredit : Param := ⟨0x0905, 8192, .interval (-1048576) (0), fun _ => -10240⟩
def P.resetTo : Param := ⟨0x0906, 8192, .list 2, fun _ => 1⟩
def P.rampEnable : Param := ⟨0x0907, 8192, .list 2, fun i => if 12 ≤ i % 16 then 0 else 1⟩
def P.rampCir : Param := ⟨0x0908, 8192, .interval (1) (1000), fun _ => 250⟩
def P.rampCbs : Param := ⟨0x0909, 8192, .interval (1024) (1048576), fun _ => 65536⟩
def P.rampPir : Param := ⟨0x090A, 8192, .interval (1) (1000), fun _ => 1000⟩
def P.rampPbs : Param := ⟨0x090B, 8192, .interval (1024) (1048576), fun _ => 10240⟩
def P.queueMaxSdu : Param := ⟨0x090C, 8192, .interval (64) (10240), fun _ => 1522⟩
def P.recovRampLaps : Param := ⟨0x090D, 1, .interval (1) (64), fun _ => 16⟩
def P.gateEnable : Param := ⟨0x090E, 512, .list 2, fun _ => 0⟩
def P.glBaseTime : Param := ⟨0x090F, 2048, .ptp, fun _ => 0⟩
def P.glCycle : Param := ⟨0x0910, 2048, .interval (1000) (1000000000), fun _ => 1000000⟩
def P.glLen : Param := ⟨0x0911, 2048, .interval (0) (256), fun _ => 0⟩
def P.glEntry : Param := ⟨0x0912, 524288, .bits 96, fun _ => 0⟩
def P.strictStart : Param := ⟨0x0913, 2048, .list 2, fun _ => 0⟩

/-- The parameters of file 09 in the order of R424. -/
def paramTable09 : List Param := [
  P.schedMode,
  P.quantum,
  P.shaperMode,
  P.idleSlope,
  P.hiCredit,
  P.loCredit,
  P.resetTo,
  P.rampEnable,
  P.rampCir,
  P.rampCbs,
  P.rampPir,
  P.rampPbs,
  P.queueMaxSdu,
  P.recovRampLaps,
  P.gateEnable,
  P.glBaseTime,
  P.glCycle,
  P.glLen,
  P.glEntry,
  P.strictStart]

/-! Parameters of associations and MACsec (R250, R252). -/

def P.asMode : Param := ⟨0x0A00, 65536, .list 9, fun _ => 0⟩
def P.asDir : Param := ⟨0x0A01, 65536, .list 2, fun _ => 0⟩
def P.asInstance : Param := ⟨0x0A02, 65536, .interval (0) (63), fun _ => 0⟩
def P.asSci : Param := ⟨0x0A03, 65536, .bits 64, fun _ => 0⟩
def P.asSsci : Param := ⟨0x0A04, 65536, .bits 32, fun _ => 0⟩
def P.asSalt : Param := ⟨0x0A05, 65536, .bits 96, fun _ => 0⟩
def P.replayProtect : Param := ⟨0x0A06, 65536, .list 2, fun _ => 1⟩
def P.replayWindow : Param := ⟨0x0A07, 65536, .interval (0) (1073741824), fun _ => 0⟩
def P.hdrOffset : Param := ⟨0x0A08, 65536, .interval (0) (244), fun _ => 0⟩
def P.tagAnchor : Param := ⟨0x0A09, 65536, .list 2, fun _ => 1⟩
def P.tagOffset : Param := ⟨0x0A0A, 65536, .interval (0) (10224), fun _ => 0⟩
def P.coverStart : Param := ⟨0x0A0B, 65536, .interval (0) (244), fun _ => 0⟩
def P.softLimit : Param := ⟨0x0A0C, 65536, .interval (1) (4294967279), fun _ => 3221225472⟩
def P.hardLimit : Param := ⟨0x0A0D, 65536, .interval (2) (4294967280), fun _ => 4294967280⟩
def P.autoAdvance : Param := ⟨0x0A0E, 65536, .list 2, fun _ => 0⟩
def P.asEnable : Param := ⟨0x0A0F, 65536, .list 2, fun _ => 0⟩
def P.macsecMode : Param := ⟨0x0A10, 512, .list 3, fun _ => 0⟩
def P.macsecSc : Param := ⟨0x0A11, 4096, .bits 80, fun _ => 0⟩
def P.macsecStrip : Param := ⟨0x0A12, 512, .list 2, fun _ => 1⟩
def P.macsecTxEnable : Param := ⟨0x0A13, 512, .list 2, fun _ => 0⟩
def P.macsecTxAssoc : Param := ⟨0x0A14, 512, .interval (0) (65535), fun _ => 0⟩
def P.macsecTxSci : Param := ⟨0x0A15, 512, .list 2, fun _ => 1⟩
def P.keyExhaustedAction : Param := ⟨0x0A16, 512, .list 2, fun _ => 0⟩

/-- The parameters of file 10 in the order of R424. -/
def paramTable0A : List Param := [
  P.asMode,
  P.asDir,
  P.asInstance,
  P.asSci,
  P.asSsci,
  P.asSalt,
  P.replayProtect,
  P.replayWindow,
  P.hdrOffset,
  P.tagAnchor,
  P.tagOffset,
  P.coverStart,
  P.softLimit,
  P.hardLimit,
  P.autoAdvance,
  P.asEnable,
  P.macsecMode,
  P.macsecSc,
  P.macsecStrip,
  P.macsecTxEnable,
  P.macsecTxAssoc,
  P.macsecTxSci,
  P.keyExhaustedAction]

/-! Parameters of bench and slots (R294, R295). -/

def P.keyFaultAction : Param := ⟨0x0B00, 512, .list 2, fun _ => 0⟩
def P.benchPortMax : Param := ⟨0x0B01, 512, .interval (0) (16384), fun _ => 2048⟩
def P.benchTimeout : Param := ⟨0x0B02, 1, .interval (10) (1000), fun _ => 100⟩
def P.asSlotPolicy : Param := ⟨0x0B03, 65536, .list 2, fun _ => 0⟩

/-- The parameters of file 11 in the order of R424. -/
def paramTable0B : List Param := [
  P.keyFaultAction,
  P.benchPortMax,
  P.benchTimeout,
  P.asSlotPolicy]

/-! Parameters of GMU (R300 to R325). -/

def P.tapEnable : Param := ⟨0x0C00, 1024, .list 2, fun _ => 0⟩
def P.tapInstance : Param := ⟨0x0C01, 1024, .interval (0) (63), fun _ => 0⟩
def P.tapPort : Param := ⟨0x0C02, 1024, .interval (0) (512), fun _ => 512⟩
def P.tapVid : Param := ⟨0x0C03, 1024, .interval (0) (4095), fun _ => 4095⟩
def P.tapAppid : Param := ⟨0x0C04, 1024, .interval (0) (65535), fun _ => 0x4000⟩
def P.tapDa : Param := ⟨0x0C05, 1024, .bits 48, fun _ => 1154490826752⟩
def P.smpRate : Param := ⟨0x0C06, 1024, .list 5, fun _ => 0⟩
def P.fNominal : Param := ⟨0x0C07, 1024, .list 2, fun _ => 0⟩
def P.channels : Param := ⟨0x0C08, 1024, .interval (1) (8), fun _ => 8⟩
def P.decim : Param := ⟨0x0C09, 1024, .list 2, fun _ => 0⟩
def P.gapFill : Param := ⟨0x0C0A, 1024, .interval (0) (8), fun _ => 2⟩
def P.lossUs : Param := ⟨0x0C0B, 1024, .interval (100) (100000), fun _ => 1000⟩
def P.acceptTest : Param := ⟨0x0C0C, 1024, .list 2, fun _ => 0⟩
def P.simMode : Param := ⟨0x0C0D, 1024, .list 2, fun _ => 0⟩
def P.requirePass : Param := ⟨0x0C0E, 1024, .list 2, fun _ => 0⟩
def P.reportDiv : Param := ⟨0x0C0F, 1024, .interval (0) (65535), fun _ => 40⟩
def P.captureEnable : Param := ⟨0x0C10, 1024, .list 2, fun _ => 0⟩
def P.chType : Param := ⟨0x0C11, 8192, .list 2, fun i => if i % 8 < 4 then 0 else 1⟩
def P.chScale : Param := ⟨0x0C12, 8192, .single, fun _ => 981668463⟩
def P.chFullScale : Param := ⟨0x0C13, 8192, .single, fun _ => 1203982336⟩
def P.chNominal : Param := ⟨0x0C14, 8192, .single, fun _ => 1148846080⟩
def P.freqCycles : Param := ⟨0x0C15, 1, .interval (1) (4), fun _ => 2⟩
def P.rocofCycles : Param := ⟨0x0C16, 1, .interval (1) (4), fun _ => 4⟩
def P.gmuLock : Param := ⟨0x0C17, 512, .list 2, fun _ => 0⟩
def P.tripEnable : Param := ⟨0x0C18, 1024, .list 2, fun _ => 0⟩
def P.tripSrcA : Param := ⟨0x0C19, 1024, .tapSource, fun _ => 262144⟩
def P.tripSrcB : Param := ⟨0x0C1A, 1024, .tapSource, fun _ => 327680⟩
def P.tripSrcC : Param := ⟨0x0C1B, 1024, .tapSource, fun _ => 393216⟩
def P.trigEnable : Param := ⟨0x0C1C, 512, .list 2, fun _ => 0⟩
def P.trigType : Param := ⟨0x0C1D, 512, .list 7, fun _ => 0⟩
def P.trigSrc : Param := ⟨0x0C1E, 512, .list 2, fun _ => 0⟩
def P.trigIndex : Param := ⟨0x0C1F, 512, .interval (0) (1023), fun _ => 0⟩
def P.trigChannel : Param := ⟨0x0C20, 512, .interval (0) (7), fun _ => 0⟩
def P.trigThreshold : Param := ⟨0x0C21, 512, .interval (0) (2147483647), fun _ => 900⟩
def P.trigHyst : Param := ⟨0x0C22, 512, .interval (0) (2147483647), fun _ => 20⟩
def P.pickupLaps : Param := ⟨0x0C23, 512, .interval (1) (64), fun _ => 1⟩
def P.holdOffLaps : Param := ⟨0x0C24, 512, .interval (0) (65535), fun _ => 400⟩
def P.trigActions : Param := ⟨0x0C25, 512, .bits 4, fun _ => 4⟩
def P.trigPorts : Param := ⟨0x0C26, 512, .bits 512, fun _ => 0⟩
def P.trigProfile : Param := ⟨0x0C27, 512, .list 3, fun _ => 1⟩
def P.clearProfile : Param := ⟨0x0C28, 512, .list 3, fun _ => 0⟩
def P.clearLaps : Param := ⟨0x0C29, 512, .interval (1) (65535), fun _ => 4000⟩
def P.capturePreMs : Param := ⟨0x0C2A, 1, .interval (0) (1000), fun _ => 100⟩
def P.capturePostMs : Param := ⟨0x0C2B, 1, .interval (1) (10000), fun _ => 500⟩
def P.pmuEnable : Param := ⟨0x0C2C, 8, .list 2, fun _ => 0⟩
def P.pmuPort : Param := ⟨0x0C2D, 8, .interval (0) (511), fun _ => 0⟩
def P.pmuClass : Param := ⟨0x0C2E, 8, .interval (0) (15), fun _ => 11⟩
def P.pmuHdr : Param := ⟨0x0C2F, 8, .template 42 66, fun _ => 0⟩
def P.pmuIdcode : Param := ⟨0x0C30, 8, .interval (1) (65534), fun _ => 1⟩
def P.pmuStn : Param := ⟨0x0C31, 8, .text 16, fun _ => 52992132075864⟩
def P.pmuRate : Param := ⟨0x0C32, 8, .divides 1 240 12000000, fun _ => 50⟩
def P.pmuNph : Param := ⟨0x0C33, 8, .interval (1) (16), fun _ => 1⟩
def P.pmuPh : Param := ⟨0x0C34, 128, .source, fun _ => 262144⟩
def P.pmuFreqSrc : Param := ⟨0x0C35, 8, .source, fun _ => 262144⟩
def P.pmuCfgS : Param := ⟨0x0C36, 8, .interval (1) (3600), fun _ => 60⟩

/-- The parameters of file 12 in the order of R424. -/
def paramTable0C : List Param := [
  P.tapEnable,
  P.tapInstance,
  P.tapPort,
  P.tapVid,
  P.tapAppid,
  P.tapDa,
  P.smpRate,
  P.fNominal,
  P.channels,
  P.decim,
  P.gapFill,
  P.lossUs,
  P.acceptTest,
  P.simMode,
  P.requirePass,
  P.reportDiv,
  P.captureEnable,
  P.chType,
  P.chScale,
  P.chFullScale,
  P.chNominal,
  P.freqCycles,
  P.rocofCycles,
  P.gmuLock,
  P.tripEnable,
  P.tripSrcA,
  P.tripSrcB,
  P.tripSrcC,
  P.trigEnable,
  P.trigType,
  P.trigSrc,
  P.trigIndex,
  P.trigChannel,
  P.trigThreshold,
  P.trigHyst,
  P.pickupLaps,
  P.holdOffLaps,
  P.trigActions,
  P.trigPorts,
  P.trigProfile,
  P.clearProfile,
  P.clearLaps,
  P.capturePreMs,
  P.capturePostMs,
  P.pmuEnable,
  P.pmuPort,
  P.pmuClass,
  P.pmuHdr,
  P.pmuIdcode,
  P.pmuStn,
  P.pmuRate,
  P.pmuNph,
  P.pmuPh,
  P.pmuFreqSrc,
  P.pmuCfgS]

/-! Parameters of fabric (R329). -/

def P.fabricEnable : Param := ⟨0x0D00, 1, .list 2, fun _ => 0⟩
def P.idMode : Param := ⟨0x0D01, 1, .list 2, fun _ => 0⟩
def P.deviceId : Param := ⟨0x0D02, 1, .interval (0) (4095), fun _ => 0⟩
def P.fabricId : Param := ⟨0x0D03, 1, .bits 32, fun _ => 0⟩
def P.fabricSeed : Param := ⟨0x0D04, 1, .bits 32, fun _ => 0⟩
def P.hopLimit : Param := ⟨0x0D05, 1, .interval (1) (15), fun _ => 4⟩
def P.helloMiss : Param := ⟨0x0D06, 1, .interval (2) (16), fun _ => 3⟩
def P.relayCost : Param := ⟨0x0D07, 512, .interval (1) (255), fun _ => 1⟩
def P.relaySched : Param := ⟨0x0D08, 8, .list 2, fun i => if 6 ≤ i then 0 else 1⟩
def P.relayQuantum : Param := ⟨0x0D09, 8, .interval (1) (255), fun _ => 1⟩
def P.relayTxqDepth : Param := ⟨0x0D0A, 1, .interval (4) (64), fun _ => 16⟩
def P.creditInit : Param := ⟨0x0D0B, 8, .interval (256) (1048576), fun _ => 4096⟩
def P.creditInterval : Param := ⟨0x0D0C, 1, .interval (250) (10000), fun _ => 1000⟩
def P.reorderTimeout : Param := ⟨0x0D0D, 1, .interval (1) (1000), fun _ => 20⟩

/-- The parameters of file 13 in the order of R424. -/
def paramTable0D : List Param := [
  P.fabricEnable,
  P.idMode,
  P.deviceId,
  P.fabricId,
  P.fabricSeed,
  P.hopLimit,
  P.helloMiss,
  P.relayCost,
  P.relaySched,
  P.relayQuantum,
  P.relayTxqDepth,
  P.creditInit,
  P.creditInterval,
  P.reorderTimeout]

/-! Parameters of HBM (R362). -/

def P.pdIdle : Param := ⟨0x0E00, 1, .interval (64) (65535), fun _ => 1024⟩
def P.refPostponeMax : Param := ⟨0x0E01, 1, .interval (1) (4), fun _ => 4⟩
def P.hbmScrubHours : Param := ⟨0x0E02, 1, .interval (1) (168), fun _ => 24⟩

/-- The parameters of file 14 in the order of R424. -/
def paramTable0E : List Param := [
  P.pdIdle,
  P.refPostponeMax,
  P.hbmScrubHours]

/-! Parameters of Pacer (R372, R387). -/

def P.fillMode : Param := ⟨0x0F00, 4, .list 2, fun _ => 0⟩
def P.appletEnable : Param := ⟨0x0F01, 4, .bits 2, fun _ => 0⟩
def P.quotaSlowPath : Param := ⟨0x0F02, 4, .poolSize, fun i => if i = 0 then 8192 else if i = 1 then 1024 else if i = 2 then 96 else 16⟩
def P.quotaMailbox : Param := ⟨0x0F03, 4, .poolSize, fun i => if i = 0 then 2048 else if i = 1 then 512 else if i = 2 then 96 else 48⟩
def P.quotaGmu : Param := ⟨0x0F04, 4, .poolSize, fun i => if i = 0 then 8192 else if i = 1 then 128 else if i = 2 then 0 else 0⟩
def P.quotaRecorder : Param := ⟨0x0F05, 4, .poolSize, fun i => if i = 0 then 1024 else if i = 1 then 128 else if i = 2 then 32 else 8⟩
def P.quotaApplets : Param := ⟨0x0F06, 4, .poolSize, fun i => if i = 0 then 1024 else if i = 1 then 128 else if i = 2 then 32 else 8⟩
def P.stepUp : Param := ⟨0x0F07, 5, .list 2, fun i => if i < 2 then 1 else 0⟩

/-- The parameters of file 15 in the order of R424. -/
def paramTable0F : List Param := [
  P.fillMode,
  P.appletEnable,
  P.quotaSlowPath,
  P.quotaMailbox,
  P.quotaGmu,
  P.quotaRecorder,
  P.quotaApplets,
  P.stepUp]

/-! Parameters of sessions (R406). -/

def P.sessionConfirmS : Param := ⟨0x1000, 1, .interval (1) (60), fun _ => 5⟩
def P.sessionIdleS : Param := ⟨0x1001, 1, .interval (10) (86400), fun _ => 600⟩
def P.operatorContexts : Param := ⟨0x1002, 1, .interval (1) (16), fun _ => 2⟩

/-- The parameters of file 16 in the order of R424. -/
def paramTable10 : List Param := [
  P.sessionConfirmS,
  P.sessionIdleS,
  P.operatorContexts]

/-! Parameters of last-good image (R442). -/

def P.lgRefreshS : Param := ⟨0x1200, 1, .orInterval 0 10 3600, fun _ => 60⟩

/-- The parameters of file 18 in the order of R424. -/
def paramTable12 : List Param := [
  P.lgRefreshS]

/-! Parameters of instances (R444). -/

def P.instEnable : Param := ⟨0x1300, 64, .list 2, fun i => if i = 0 then 1 else 0⟩
def P.portOwner : Param := ⟨0x1301, 512, .interval (0) (64), fun _ => 0⟩
def P.vidOwner : Param := ⟨0x1302, 4096, .interval (0) (63), fun _ => 0⟩
def P.ftOwner : Param := ⟨0x1303, 16, .interval (0) (63), fun _ => 0⟩
def P.vrfOwner : Param := ⟨0x1304, 256, .interval (0) (63), fun _ => 0⟩
def P.instCells : Param := ⟨0x1305, 64, .interval (0) (1048576), fun _ => 1048576⟩
def P.instRuleRows : Param := ⟨0x1306, 64, .interval (0) (131072), fun i => if i = 0 then 131072 else 0⟩
def P.instPfxLanes : Param := ⟨0x1307, 64, .interval (0) (524288), fun i => if i = 0 then 524288 else 0⟩
def P.instStationMax : Param := ⟨0x1308, 64, .interval (0) (33816576), fun i => if i = 0 then 33816576 else 0⟩
def P.instCtrBase : Param := ⟨0x1309, 64, .interval (0) (2047), fun _ => 0⟩
def P.instCtrCount : Param := ⟨0x130A, 64, .interval (0) (2048), fun i => if i = 0 then 2048 else 0⟩

/-- The parameters of file 19 in the order of R424. -/
def paramTable13 : List Param := [
  P.instEnable,
  P.portOwner,
  P.vidOwner,
  P.ftOwner,
  P.vrfOwner,
  P.instCells,
  P.instRuleRows,
  P.instPfxLanes,
  P.instStationMax,
  P.instCtrBase,
  P.instCtrCount]

/-! Parameters of fault unit (R466). -/

def P.quietLaps : Param := ⟨0x1400, 1, .interval (1) (65535), fun _ => 16⟩
def P.faultPath : Param := ⟨0x1401, 384, .list 2, fun _ => 0⟩
def P.faultIrqMin : Param := ⟨0x1402, 1, .list 5, fun _ => 1⟩

/-- The parameters of file 20 in the order of R424. -/
def paramTable14 : List Param := [
  P.quietLaps,
  P.faultPath,
  P.faultIrqMin]

/-! Parameters of recorder and counters (R484, R488). -/

def P.flashCopyS : Param := ⟨0x1500, 1, .interval (10) (3600), fun _ => 60⟩
def P.pfFlushBytes : Param := ⟨0x1501, 1, .interval (1024) (16384), fun _ => 4096⟩
def P.ctrUnit : Param := ⟨0x1502, 2048, .interval (0) (4294967295), fun _ => 4294967295⟩
def P.counterUserRead : Param := ⟨0x1503, 64, .list 2, fun _ => 0⟩

/-- The parameters of file 21 in the order of R424. -/
def paramTable15 : List Param := [
  P.flashCopyS,
  P.pfFlushBytes,
  P.ctrUnit,
  P.counterUserRead]

/-- The parameters of the file whose number is NN, in order of appearance (R424). -/
def paramFile : Nat → List Param
  | 0x02 => paramTable02
  | 0x03 => paramTable03
  | 0x04 => paramTable04
  | 0x05 => paramTable05
  | 0x06 => paramTable06
  | 0x07 => paramTable07
  | 0x08 => paramTable08
  | 0x09 => paramTable09
  | 0x0A => paramTable0A
  | 0x0B => paramTable0B
  | 0x0C => paramTable0C
  | 0x0D => paramTable0D
  | 0x0E => paramTable0E
  | 0x0F => paramTable0F
  | 0x10 => paramTable10
  | 0x12 => paramTable12
  | 0x13 => paramTable13
  | 0x14 => paramTable14
  | 0x15 => paramTable15
  | _ => []

/-- The parameter a PARAM_ID names (R424). -/
def findParam (id : Nat) : Option Param := (paramFile (id / 256))[id % 256]?

/-- A bank of configuration: the values that differ from their defaults, keyed by PARAM_ID × 2³² + INDEX. -/
abbrev Bank := Tab Int

/-- The value a bank holds. -/
def Bank.get (b : Bank) (p : Param) (i : Nat) : Int :=
  if Tab.has b (p.id * 2 ^ 32 + i) then Tab.at b (p.id * 2 ^ 32 + i) else p.dflt i

/-- Writes a bank: a value equal to its default is not listed. -/
def Bank.set (b : Bank) (p : Param) (i : Nat) (v : Int) : Bank :=
  if v = p.dflt i then Tab.del b (p.id * 2 ^ 32 + i) else Tab.ins b (p.id * 2 ^ 32 + i) v

/-- A value that is never negative, as a number. -/
def Bank.getN (b : Bank) (p : Param) (i : Nat) : Nat := (b.get p i).toNat

/-- A 0 or 1 parameter. -/
def Bank.on (b : Bank) (p : Param) (i : Nat) : Bool := b.get p i == 1

/-- PARSE_ENTRY of a port with its default: 0 on a host port, 1 on a relay port (R100). -/
def Bank.parseEntryOf (b : Bank) (port : Nat) : Nat :=
  let v := b.get P.parseEntry port
  if v < 0 then (if b.on P.portRole port then 1 else 0) else v.toNat

/-- Fewest bytes that hold n in an unsigned number. -/
def byteWidth (n : Nat) : Nat :=
  if n < 2 ^ 8 then 1 else if n < 2 ^ 16 then 2 else if n < 2 ^ 24 then 3 else if n < 2 ^ 32 then 4 else
  if n < 2 ^ 40 then 5 else if n < 2 ^ 48 then 6 else if n < 2 ^ 56 then 7 else 8

/-- Fewest bytes that hold lo to hi, in two's complement when lo is negative. -/
def rangeWidth (lo hi : Int) : Nat :=
  if lo < 0 then byteWidth ((2 * (max (-lo - 1) hi)).toNat + 1) else byteWidth hi.toNat

/-- Sizes of the buffer pools (R385). -/
def poolBuffers (pool : Nat) : Nat :=
  if pool = 0 then 16384 else if pool = 1 then 2048 else if pool = 2 then 256 else 64

/-- Size of a buffer of a pool (R385). -/
def poolBufferSize (pool : Nat) : Nat :=
  if pool = 0 then 256 else if pool = 1 then 2048 else if pool = 2 then 16384 else 65536

/-- The width W of a parameter (R426). -/
def Form.width (f : Form) : Nat :=
  match f with
  | .list n => byteWidth (n - 1)
  | .interval lo hi | .divisor lo hi | .divides lo hi _ | .step lo hi _ => rangeWidth lo hi
  | .orInterval e lo hi => rangeWidth (min e lo) (max e hi)
  | .bits n | .maskBits n _ => (n + 7) / 8
  | .single | .source | .tapSource => 4
  | .ptp => 10
  | .text n => n
  | .template lo _ => lo
  | .poolSize => 2

/-- Whether a parameter's range holds negative values. -/
def Form.isSigned (f : Form) : Bool :=
  match f with
  | .interval lo _ => decide (lo < 0)
  | _ => false

/-- Whether a LEN is one R426 allows for the form. -/
def Form.lenOk (f : Form) (len : Nat) : Bool :=
  match f with
  | .list _ | .interval _ _ | .orInterval _ _ _ | .divisor _ _ | .divides _ _ _ | .step _ _ _ | .poolSize =>
    decide (f.width ≤ len ∧ len ≤ 8)
  | .bits _ | .maskBits _ _ => decide (f.width ≤ len)
  | .template _ _ => decide (1 ≤ len)
  | _ => decide (len = f.width)

/-- The number a VALUE of R426 gives a bank: templates carry their length above their bytes. -/
def Form.decode (f : Form) (value : List Byte) : Int :=
  match f with
  | .template _ _ => ((value.length * 2 ^ 1024 + leNat value : Nat) : Int)
  | _ => if f.isSigned then signed (8 * value.length) (leNat value) else (leNat value : Int)

/-- The bytes of a value in a VALUE field of CFG.GET. -/
def Form.encode (f : Form) (v : Int) : List Byte :=
  match f with
  | .template _ _ => leBytes (v.toNat / 2 ^ 1024) (v.toNat % 2 ^ 1024)
  | _ => leBytes f.width (unsigned (8 * f.width) v)

/-- Whether a measurement source has the layout of R426. -/
def sourceOk (tapOnly : Bool) (v : Nat) : Bool :=
  decide (bits v 0 16 ≤ 1023 ∧ bits v 16 8 ≤ 7 ∧ bits v 25 7 = 0) &&
    (if bit v 24 then !tapOnly && bits v 16 8 == 0 else true)

/-- Whether a value lies in the parameter's Range (R13). -/
def Form.rangeOk (f : Form) (i : Nat) (v : Int) : Bool :=
  match f with
  | .list n => decide (0 ≤ v ∧ v < n)
  | .interval lo hi => decide (lo ≤ v ∧ v ≤ hi)
  | .orInterval e lo hi => decide (v = e ∨ (lo ≤ v ∧ v ≤ hi))
  | .divisor lo hi => decide (lo ≤ v ∧ v ≤ hi) && decide (1000000000 % v = 0)
  | .divides lo hi n => decide (lo ≤ v ∧ v ≤ hi) && decide (n % v = 0)
  | .step lo hi st => decide (lo ≤ v ∧ v ≤ hi) && decide (v % st = 0)
  | .bits n => decide (0 ≤ v ∧ v < (2 ^ n : Nat))
  | .maskBits n m => decide (0 ≤ v ∧ v < (2 ^ n : Nat)) && decide (v.toNat &&& m = v.toNat)
  | .single => decide (0 < v ∧ v < 0x7F800000)
  | .ptp => decide (v.toNat / 2 ^ 48 < 1000000000)
  | .text n => (leBytes n v.toNat).all (fun c => decide (c.toNat < 128))
  | .template lo hi => decide (lo ≤ v.toNat / 2 ^ 1024 ∧ v.toNat / 2 ^ 1024 ≤ hi)
  | .source => sourceOk false v.toNat
  | .tapSource => sourceOk true v.toNat
  | .poolSize => decide (0 ≤ v ∧ v ≤ poolBuffers i)

/-- Values of the list parameters that are numbers. -/
def portSpeedGbps (v : Nat) : Nat := [1, 10, 25, 50, 100, 200, 400, 800].getD v 100

end Sys2Proof.Machine
end

