-- ==== Sys2Proof/Machine/Units.lean ====
section
/-! DEFINITION. The plain-data state of the management side: time unit, recorder, fault unit, counters, host interface,
mailboxes, sessions and jobs, Pacer, configuration banks, instances, boot and flash. -/
namespace Sys2Proof.Machine

/-! ### Time unit (02) -/

/-- TIME.STATE (R37, R515). -/
inductive TimeState where
  | freerun | locked | holdover
deriving DecidableEq, Repr, Inhabited

/-- The code of TIME.STATE. -/
def TimeState.code : TimeState → Nat
  | .freerun => 0 | .locked => 1 | .holdover => 2

structure TimeUnit where
  /-- the core PLL and the time unit run (from the release of RESET_N) -/
  running : Bool := false
  /-- TIME.LAP_COUNT (R30) -/
  lapCount : BitVec 32 := 0
  /-- device time in whole nanoseconds: the 48-bit seconds × 10⁹ + the nanoseconds field (R36) -/
  dev : Nat := 0
  /-- the fraction of a nanosecond (R36), which serves only the discipline loop -/
  frac : BitVec 16 := 0
  /-- nanoseconds counted by the monotonic counter (R41), whose 64 bits are `TimeUnit.counter` -/
  mono : Nat := 0
  /-- the part of a nanosecond that the monotonic counter has gathered, in 10⁻⁹ ns -/
  mfrac : Nat := 0
  /-- the frequency correction in force, in parts per 10⁹ of the core clock (R37) -/
  freq : Int := 0
  /-- the frequency comes from REFCLK_10M_IN, and not from the core PLL (R37) -/
  ref10 : Bool := false
  state : TimeState := .freerun
  /-- laps per second in force (R31) -/
  lapRate : Nat := 4000
  /-- a committed LAP_RATE that waits for a PTP second boundary (R31) -/
  pendingRate : Option Nat := none
  /-- device time of the next lap boundary (R29, R38) -/
  next : Nat := 250000
  /-- a time step waiting for the boundary, in ns added to device time (R38) -/
  step : Option Int := none
  /-- monotonic time of the last lap boundary -/
  lapAt : Nat := 0
  /-- phase offset still to be slewed out (R37, R39) -/
  slew : Int := 0
  /-- monotonic time of the last valid source input (R37) -/
  lastValid : Nat := 0
  /-- monotonic time of the last valid edge of PPS_IN (R545) -/
  ppsAt : Option Nat := none
  /-- SECONDS of TIME.SET_SECONDS waiting for PPS_IN (R37) -/
  setSeconds : Option Nat := none
  /-- seconds, nanoseconds, fraction latched by a read of TIME.SECONDS_LO (R515) -/
  latch : Nat × Nat × Nat := (0, 0, 0)
deriving DecidableEq, Repr, Inhabited

/-- The 64-bit monotonic counter (R41). (DESIGN CHOICE, entry 136.) (DESIGN CHOICE, entry 16). -/
def TimeUnit.counter (t : TimeUnit) : BitVec 64 := BitVec.ofNat 64 t.mono

/-- The nanoseconds that one core nanosecond adds under the frequency correction, in 10⁻⁹ ns, with the part gathered before.
(DESIGN CHOICE, entry 136.) -/
def TimeUnit.gathered (t : TimeUnit) : Nat := (1000000000 + t.freq).toNat + t.mfrac

/-- A lap rate the block accepts (R28): 500 to 100,000 laps per second, a divisor of 10⁹. -/
def lapRateOk (r : Nat) : Bool := decide (500 ≤ r) && decide (r ≤ 100000) && decide (1000000000 % r = 0)

/-- What an activation may change of the time unit: its state, its discipline, and the LAP_RATE that waits for a second (R31, R37). -/
def TimeUnit.activated (t u : TimeUnit) : TimeUnit :=
  { t with state := u.state, step := u.step, slew := u.slew, freq := u.freq, ref10 := u.ref10, pendingRate := u.pendingRate.filter lapRateOk }

/-! ### Event recorder (21) -/

/-- An event on its way to the ring, with the time of its occurrence (R476, R477). -/
structure Event where
  typ : Nat
  /-- INSTANCE: 0xFF when none -/
  inst : Nat := 255
  keys : List Nat := []
  items : List Nat := []
  lap : Nat := 0
  hours : Nat := 0
  ms : Nat := 0
  pwr : Nat := 0
  /-- seconds and nanoseconds of the PTP extension, when TIME.STATE is not FREERUN -/
  ptp : Option (Nat × Nat) := none
deriving DecidableEq, Repr, Inhabited

/-- A record of the ring (R476); TYPE 0 is PAD. -/
structure Rec where
  ev : Event
  /-- byte offset in the ring and length in bytes -/
  off : Nat := 0
  len : Nat := 16
  seq : Nat := 0
  rep : Nat := 0
  /-- part of a run of R552: never merged -/
  run : Bool := false
  /-- staged for flash, hence closed to merging (R478, R483) -/
  staged : Bool := false
deriving DecidableEq, Repr, Inhabited

structure Recorder where
  /-- records and PADs, oldest first (R476, R480) -/
  ring : List Rec := []
  lastSeq : Nat := 0
  /-- byte offset at which the next record is placed -/
  head : Nat := 0
  /-- the 256-record input queue (R479) -/
  queue : List Event := []
  /-- records dropped since the last RECORDER_DROPPED (R479) -/
  dropped : Nat := 0
  /-- records are accepted; false after PFW_N (R484) -/
  accepting : Bool := true
  /-- staged records in HBM that have not reached flash (R483) -/
  staging : List Rec := []
  /-- the circular flash log, oldest first (R483) -/
  flash : List Rec := []
  flashSeq : Nat := 0
  /-- the reserved erase block is erased and ready (R483, R484) -/
  reserveReady : Bool := false
  /-- an unmerged power-fail flush in the reserved block (R484) -/
  reserve : List Rec := []
  /-- a power-fail flush is being programmed (R484, R505) -/
  flushing : Bool := false
  opHours : BitVec 32 := 0
  /-- monotonic time at which the current hour began -/
  hourStart : Nat := 0
  /-- monotonic time of the next periodic flash copy -/
  copyAt : Nat := 0
deriving DecidableEq, Repr, Inhabited

/-! ### Fault unit (20) -/

/-- A fault record (R462). -/
structure FaultRec where
  severity : Nat
  count : Nat := 1
  first : Nat := 0
  last : Nat := 0
  acked : Bool := false
deriving DecidableEq, Repr, Inhabited

/-- State kept per source (R459). -/
structure FaultSrc where
  record : Option FaultRec := none
  /-- the last record, as it stood when it closed (R554) -/
  closed : Option FaultRec := none
  /-- current rung; none: the entry rung -/
  rung : Option Nat := none
  /-- programmed severity and entry rung of FAULT.POLICY_SET (R473); none: those of R460 -/
  policy : Option (Nat × Nat) := none
  /-- laps of the failures of R468 -/
  fails : List Nat := []
  recoveries : BitVec 16 := 0
deriving DecidableEq, Repr, Inhabited

/-- State kept per unit (R459, R465, R468). -/
structure FaultUnit where
  inFault : Bool := false
  /-- the condition of a level source holds -/
  cond : Bool := false
  /-- a recovery attempt is in progress -/
  attempt : Bool := false
  /-- lap boundaries left of the quiet period, while it runs -/
  quiet : Option Nat := none
deriving DecidableEq, Repr, Inhabited

structure Faults where
  src : Tab FaultSrc := []
  /-- keyed 64 × source + unit -/
  unit : Tab FaultUnit := []
  /-- PWR_CYCLE_REQ_N is driven low (R470) -/
  pwrCycleReq : Bool := false
  /-- a rung 3 reset is in progress (R469) -/
  warm : Bool := false
  /-- functions being re-initialised: code of R467 (1 port, 2 pipe, 3 quadrant pipes, 4 PC, 5 core, 6 Pacer, 7 CMAC, 8 GMU)
  and which one -/
  funcs : List (Nat × Nat) := []
deriving DecidableEq, Repr, Inhabited

/-! ### Statistics and performance counters (21) -/

structure Ctr where
  event : Nat := 0
  level : Bool := false
  value : BitVec 48 := 0
  sticky : Bool := false
  /-- units for which the condition held when it was last examined (edge mode of a condition) -/
  was : List Nat := []
deriving DecidableEq, Repr, Inhabited

structure Counters where
  ctr : Tab Ctr := []
  /-- statistics keyed STAT_ID × 2³² + INDEX, saturating at 64 bits (R487) -/
  stat : Tab Nat := []
  /-- the two snapshot buffers: 48-bit value with the sticky bit above it (R490) -/
  snapA : Tab Nat := []
  snapB : Tab Nat := []
  /-- buffer B is the shown one -/
  showB : Bool := false
  snapLap : Nat := 0
  timeSteps : BitVec 32 := 0
  /-- high words latched by a 32-bit read of a live low word, keyed 2048 × instance + counter (R489) -/
  latch : Tab Nat := []
  /-- monotonic time up to which level conditions have been counted -/
  upTo : Nat := 0
deriving DecidableEq, Repr, Inhabited

/-! ### Host interface (23) -/

/-- One MSI-X table entry (PCI Express Base Specification 5.0): masked at reset. (PRESUMED, entry 101.) -/
structure Msix where
  addr : Nat := 0
  data : Nat := 0
  masked : Bool := true
deriving DecidableEq, Repr, Inhabited

/-- BASE, ENABLE and LOG2_SIZE of one ring (R520). -/
structure RingCtl where
  base : Nat := 0
  enable : Bool := false
  log2 : Nat := 6
deriving DecidableEq, Repr, Inhabited

/-- A punt ring entry assigned to a packet (R521, R523). (DEDUCED, entry 107.) -/
structure PuntEntry where
  pkt : Nat
  cause : Nat
  /-- COPY: the entry carries a copy, the packet goes on -/
  copy : Bool := false
  gen : Nat := 0
  buf : PuntBuf := ⟨0, 0⟩
  /-- pool and buffer of the Pacer that hold its frame (R387) -/
  hold : Nat × Nat := (0, 0)
  /-- its frame data have been written (R523) -/
  issued : Bool := false
deriving DecidableEq, Repr, Inhabited

/-- The ring page of one instance (R520). (DEDUCED, entry 107.) -/
structure RingPage where
  rx : RingCtl := {}
  tx : RingCtl := {}
  gmu : RingCtl := {}
  rxPost : BitVec 16 := 0
  rxDone : BitVec 16 := 0
  txPost : BitVec 16 := 0
  txDone : BitVec 16 := 0
  gmuHead : BitVec 16 := 0
  gmuTail : BitVec 16 := 0
  rxDrops : BitVec 32 := 0
  /-- an entry has completed since ENABLE was set, so that one completed and not returned can be told (R516) -/
  rxAny : Bool := false
  /-- buffers of the posted entries, by 16-bit index -/
  bufs : List (Nat × PuntBuf) := []
  /-- inject descriptors of the posted entries, by 16-bit index -/
  descs : List (Nat × InjectDesc) := []
  /-- entries assigned, in order from PUNT.RX_DONE -/
  assigned : List PuntEntry := []
  /-- entries written since ENABLE (SEQ of R525) -/
  gmuSeq : Nat := 0
deriving DecidableEq, Repr, Inhabited

/-- What leaves the block. The list of these is the model's own record of its outputs. (DESIGN CHOICE, entry 106.) -/
inductive Out where
  /-- a frame, or its stomped remainder, sent on a port (DA to FCS as on the wire) -/
  | frame (port cls : Nat) (bytes : List Byte) (stomped : Bool)
  /-- a MAC control frame: destination, EtherType, opcode, parameters (R66, R68, R69) -/
  | macControl (port dest etherType opcode : Nat) (params : List Nat)
  /-- a verify mPacket (R63) -/
  | verify (port : Nat)
  /-- the remote fault signal (R72) -/
  | remoteFault (port : Nat)
  /-- an MSI-X message (R516) -/
  | msix (vector addr data : Nat)
  /-- a DMA write to host memory -/
  | dma (addr : Nat) (bytes : List Byte)
  /-- the value a host read returns -/
  | read (value : Nat)
  /-- a PMBus response word, by the target at an address (R544) -/
  | pmbus (address value : Nat)
  /-- the rising edge of PPS_OUT at a second of device time (R545) -/
  | pps (second : Nat)
  /-- the register a JTAG instruction selects, with its value where the manual gives one (R546) -/
  | jtag (register : Nat) (value : Nat)
  /-- the status that a refused allocation returns to its requester (R386, R389) -/
  | poolRefused (requester status : Nat)
  /-- a relay transmit: a fabric frame on a relay port -/
  | relay (port rclass : Nat) (bytes : List Byte)
deriving DecidableEq, Repr, Inhabited

structure HostIf where
  /-- HIF.IRQ_CAUSE; bit 1 of instance 0 is FAULT.SUMMARY.IRQ_PENDING (R516) -/
  cause : Tab Nat := []
  mask : Tab Nat := []
  msix : Tab Msix := []
  /-- the Function Mask bit of the MSI-X capability (R518). (PRESUMED, entry 101.) -/
  funcMask : Bool := false
  /-- the PBA: messages held by a mask (R518) -/
  pba : Tab Bool := []
  page : Tab RingPage := []
  /-- punt tokens in units of 1/50 token (20 per µs), and the monotonic time they were counted (R521) -/
  tokens : Nat := 102400
  tokensAt : Nat := 0
  /-- the PCIe link is up (R186 of the fault table, R510) -/
  linkUp : Bool := true
deriving DecidableEq, Repr, Inhabited

/-! ### Mailboxes, sessions and jobs (16, 17) -/

/-- A request that passed checks 1 to 8 of R408 and waits in its BUSY slot. -/
structure Accepted where
  op : Nat
  session : Nat
  seq : Nat
  payload : List Byte := []
  outLen : Nat := 0
  outAddr : Nat := 0
  /-- the countersigning session, for critical commands -/
  cosign : Option Nat := none
  /-- instance generation at acceptance (R47) -/
  gen : Nat := 0
  /-- pool and buffer that hold its DMA payload (R389) -/
  buf : Option (Nat × Nat) := none
  /-- its place in the order in which commands passed check 6 (R410), and the monotonic time of it -/
  order : Nat := 0
  at_ : Nat := 0
  /-- a reset of the host interface took its slot: its result is recorded and not posted (R510) -/
  silent : Bool := false
deriving DecidableEq, Repr, Inhabited

/-- A request as the device copied it: its header of 96 bytes and its payload (R397). -/
structure Request where
  head : List Byte
  inline : List Byte
  dma : Option (List Byte)
deriving DecidableEq, Repr, Inhabited

/-- What a response says beside its opcode, session and SEQ (R399). -/
structure Answer where
  /-- 0 DONE, 1 IN_PROGRESS, 2 ABORTED, 3 REFUSED -/
  rstate : Nat
  status : Nat
  result : List Byte := []
  /-- what the catalogue places at OUT_ADDR -/
  atOut : List Byte := []
  stepsDone : Nat := 0
  stepsTotal : Nat := 0
  /-- TAG = 0 although not refused (R417) -/
  untagged : Bool := false
deriving DecidableEq, Repr, Inhabited

/-- What follows once a response has been posted. -/
inductive Sequel where
  | nothing
  /-- the session closes (R405) -/
  | closeSession (session : Nat)
  /-- every session of a revoked root closes (R400) -/
  | closeRoot (hash : Option Nat)
  /-- the instance takes a generation and is reset (R451) -/
  | resetInst (inst gen : Nat)
  /-- a warm reset, or the re-initialisation of a function, by DIAG.RESET -/
  | warmReset
  | reinit (f : Nat × Nat)
deriving DecidableEq, Repr, Inhabited

/-- What waits in a BUSY slot for its tag from the CMAC unit (R270, R398). (DEDUCED, entry 74.) -/
inductive Waiting where
  /-- a request whose TAG is to be checked -/
  | request (a : Accepted) (r : Request)
  /-- a response to be tagged and posted -/
  | response (a : Accepted) (r : Answer) (next : Sequel)
deriving DecidableEq, Repr, Inhabited

/-- The request it is of. -/
def Waiting.accepted : Waiting → Accepted
  | .request a _ => a
  | .response a _ _ => a

/-- A mailbox slot (R391 to R394). -/
structure Slot where
  /-- 0 IDLE, 1 BUSY, 2 DONE -/
  st : Nat := 0
  wrDropped : Bool := false
  request : List Byte := []
  response : List Byte := []
  acc : Option Accepted := none
  /-- what waits for the CMAC unit, with the numbers of its jobs there: one for each tag -/
  held : Option (List Nat × Waiting) := none
deriving DecidableEq, Repr, Inhabited

/-- A session context (R405, R407). -/
structure Session where
  /-- 0 FREE, 1 PENDING, 2 OPEN -/
  st : Nat := 0
  inst : Nat := 0
  /-- operator identity (R402) -/
  ident : Nat := 0
  /-- ROOT_HASH at which its chain ends -/
  root : Nat := 0
  high : Nat := 0
  window : Nat := 0
  /-- monotonic time its timer expires -/
  deadline : Nat := 0
  /-- K as 32 bytes, held in the CMAC unit -/
  key : List Byte := []
deriving DecidableEq, Repr, Inhabited

/-- What a job does at each of its steps. -/
inductive JobKind where
  /-- CFG.COMMIT: confirm time, lap asked for -/
  | commit (confirmS : Nat) (atLap : Bool) (lap : Nat)
  | rollback
  /-- a batch of table, rule, prefix or configuration entries not yet applied, with its results so far -/
  | batch (op : Nat) (entries : List (List Byte)) (pos applied : Nat) (failed : List (Nat × Nat)) (handles : List Nat)
  /-- TBL.FLUSH: selection, instance, port, entries deleted -/
  | flush (select inst port deleted : Nat)
  /-- a delete that waits for the fence of a record: kind and index -/
  | objDelete (kind index : Nat)
  | instDelete (inst stage : Nat) (records : List Nat)
  | instSave (inst segment : Nat)
  | instRestore (inst : Nat) (sigOk : Bool)
  | fwLoad (sigOk : Bool) (svn : Nat)
  /-- IMG.STRIDE_LOAD: whether a future lap is asked for, the lap, whether the signature stands, and the image -/
  | strideLoad (atLap : Bool) (lap : Nat) (sigOk : Bool) (image : List Byte)
  | appletLoad (core thread : Nat) (sigOk : Bool)
deriving DecidableEq, Repr, Inhabited

/-- A job, or the memory of an ended one (R413 to R416). -/
structure Job where
  session : Nat
  seq : Nat
  inst : Nat
  op : Nat
  kind : JobKind
  done : Nat := 0
  total : Nat := 1
  /-- RSTATE: 1 IN_PROGRESS, 0 DONE, 2 ABORTED -/
  rstate : Nat := 1
  status : Nat := 0
  result : List Byte := []
  abort : Bool := false
  /-- waiting for a fence, a lap or a job of the move engine: steps do nothing -/
  waits : Bool := false
  /-- monotonic time it ended -/
  endAt : Nat := 0
  outAddr : Nat := 0
  outLen : Nat := 0
  /-- the slot that is still BUSY with it: a command that may yet answer DONE (V of R419), and the boundaries left until it
  answers IN_PROGRESS -/
  slot : Option Nat := none
  left : Nat := 0
deriving DecidableEq, Repr, Inhabited

/-- An open segmented transfer (R429). -/
structure Transfer where
  next : Nat := 0
  total : Nat := 0
  bytes : List Byte := []
  deadline : Nat := 0
  open_ : Bool := false
deriving DecidableEq, Repr, Inhabited

/-- A root entry (R400). -/
structure Root where
  hash : Option Nat := none
  revoked : Bool := false
deriving DecidableEq, Repr, Inhabited

/-- A debug token (R412). -/
structure DebugToken where
  session : Nat
  scope : Nat
  endAt : Nat
deriving DecidableEq, Repr, Inhabited

structure Mailboxes where
  slot : Tab Slot := []
  session : Tab Session := []
  jobs : List Job := []
  tokens : List DebugToken := []
  /-- segmented transfers by target: 0 to 63 INST.RESTORE, 64 firmware, 65 + 2 × core + thread − 6 applets -/
  transfer : Tab Transfer := []
  root : Tab Root := []
  /-- requests rung while the Pacer is re-initialised, with their slots, oldest first: mailbox service waits for it (R24) -/
  rung : List (Nat × Request) := []
  /-- commands accepted at check 6 (R410) -/
  accepted : Nat := 0
  /-- host batch entries applied in the current window (R33, R34) -/
  batchUsed : Nat := 0
deriving DecidableEq, Repr, Inhabited

/-! ### Pacer (15) -/

structure Thread where
  /-- 0 ABSENT, 1 RUNNABLE, 2 BLOCKED, 3 HALTED -/
  st : Nat := 0
  applet : Bool := false
  appletId : Nat := 0
  /-- 0 read, 1 reservation -/
  waitDir : Nat := 0
  channel : Nat := 0
  pc : Nat := 0
  /-- state before a debugger's halt -/
  before : Nat := 1
  /-- the message its last read returned -/
  msg : List Nat := []
deriving DecidableEq, Repr, Inhabited

/-- The open reservation of a channel (R377). -/
structure Reservation where
  thread : Nat
  words : Nat
  put : List Nat := []
deriving DecidableEq, Repr, Inhabited

structure Channel where
  msgs : List (List Nat) := []
  resv : Option Reservation := none
  /-- threads blocked reading, and threads blocked reserving with their words, in the order they blocked -/
  readers : List Nat := []
  writers : List (Nat × Nat) := []
deriving DecidableEq, Repr, Inhabited

structure Pool where
  /-- owner of each taken buffer: requester + 1 -/
  owner : Tab Nat := []
  /-- the rotating pointer (R388) -/
  ptr : Nat := 0
  /-- most buffers taken at once since the last read of MIN_FREE (R390) -/
  maxTaken : Nat := 0
deriving DecidableEq, Repr, Inhabited

/-- A pool request that has not been granted or given up. -/
structure Ask where
  requester : Nat
  bytes : Nat
  pool : Nat
  /-- how it waits: 0 it lost the cycle, 1 refused in this pool and steps up, 2 it waits one lap, 3 its lap has passed -/
  wait : Nat := 0
  /-- packet it serves: a punt with its CAUSE, the copy of a COPY_PUNT, or a frame for HMAC verification -/
  pkt : Option Nat := none
  cause : Nat := 0
  copy : Bool := false
  hmac : Bool := false
deriving DecidableEq, Repr, Inhabited

structure Pacer where
  thread : Tab Thread := []
  channel : Tab Channel := []
  pool : Tab Pool := []
  /-- requests waiting, by number -/
  ask : Tab (Option Ask) := []
  nextAsk : Nat := 0
  /-- a re-initialisation is in progress (R384) -/
  down : Bool := false
  /-- some thread that is not ABSENT was not BLOCKED at some moment of the lap (R383) -/
  ranInLap : Bool := false
deriving DecidableEq, Repr, Inhabited

end Sys2Proof.Machine
end

