-- ==== Sys2Proof/Machine/Path.lean ====
section
/-! DEFINITION. The plain-data state of the packet path: ports, Stride engines and images, packets and copies, tables and
records, learning, rule and prefix stores, buffer, scheduler and gates. -/
namespace Sys2Proof.Machine

/-! ### Ports (03) -/

/-- Link state of R72. -/
inductive Link where
  | disabled | acquire | upPending | up
deriving DecidableEq, Repr, Inhabited

/-- STATE of PORT.STATUS. -/
def Link.code : Link → Nat
  | .disabled => 0 | .acquire => 1 | .upPending => 2 | .up => 3

structure Port where
  link : Link := .disabled
  /-- bit per lane: all its locks hold -/
  locks : Nat := 0
  /-- a remote fault is being received -/
  remote : Bool := false
  /-- monotonic time at which UP_DEBOUNCE ends -/
  debounce : Nat := 0
  /-- monotonic time at which LOSS_FILTER ends, while a lock is lost in UP -/
  loss : Option Nat := none
  /-- LINK_FLAPS of PORT.STATUS -/
  flaps : BitVec 32 := 0
  fecCorrected : BitVec 64 := 0
  fecUncorrectable : BitVec 64 := 0
  /-- corrected symbols in this lap (R58) -/
  fecLap : Nat := 0
  /-- monotonic time at which each received pause timer ends; index 8 is PAUSE (R68) -/
  pause : Tab Nat := []
  /-- priorities for which this device holds the peer in XOFF, bit 8 for PAUSE (R69) -/
  xoff : Nat := 0
  /-- monotonic time of the next XOFF of each priority (R69) -/
  resend : Tab Nat := []
  /-- verify attempts without a response, and the result (R63) -/
  attempts : Nat := 0
  verified : Bool := false
  /-- monotonic time of the next verify mPacket -/
  verifyAt : Nat := 0
  /-- lap boundaries left of HOLD (R214) -/
  hold : Option Nat := none
  /-- UP since it was enabled or last flushed (R215) -/
  beenUp : Bool := false
  /-- two-step transmit timestamps: sequence, message type, domain, seconds, ns (R75) -/
  ptp : List (Nat × Nat × Nat × Nat × Nat) := []
  /-- monotonic time from which its MAC may begin a frame after a preempted fragment -/
  txFree : Nat := 0
  /-- DIAG.LOOPBACK mode -/
  loopback : Nat := 0
  /-- monotonic time at which training is restarted (R71), while it runs -/
  train : Option Nat := none
  /-- what auto-negotiation advertises: speed, lane rate and FEC codes of R55 (R71) -/
  advert : Option (Nat × Nat × Nat) := none
  /-- receive timestamp of the last PTP event message, for the PTP engine of the port: sequence, message type, domain, seconds, ns (R75) -/
  ptpIn : Option (Nat × Nat × Nat × Nat × Nat) := none
deriving DecidableEq, Repr, Inhabited

/-! ### Stride engines (04) -/

/-- The contents of one bank of the control stores (R103, R104). -/
structure Image where
  id : Nat := 0
  patch : Nat := 0
  ingress : List Nat := []
  egress : List Nat := []
  entry : List Nat := []
  digest : Nat := 0
  /-- the embedded default image (R97), whose words the manual does not give -/
  builtin : Bool := true
deriving DecidableEq, Repr, Inhabited

/-- A packet context of a Stride engine (R79). -/
structure Ctx where
  slot : Nat := 0
  cursor : Nat := 0
  addr : Nat := 0
  /-- control store bank latched at admission (R106) -/
  bank : Bool := false
  words : Nat := 0
  /-- monotonic time of admission -/
  start : Nat := 0
  /-- first time the present word waited -/
  waits : Option Nat := none
  ext : Nat := 0
  keyAbsent : Bool := false
  /-- early lookups issued, by key profile -/
  issued : Nat := 0
deriving DecidableEq, Repr, Inhabited

structure Stride where
  bank0 : Image := {}
  bank1 : Image := {}
  /-- bank 1 is current -/
  cur : Bool := false
  loaded : Bool := false
  standbyValid : Bool := false
  /-- lap at which the switch takes place (R106) -/
  switchAt : Option Nat := none
  /-- the former bank still holds packets (R107) -/
  draining : Bool := false
  /-- halted admission by engine: 2 × pipe + (1 egress) (R93) -/
  halted : Tab Bool := []
  /-- engines whose next context is traced -/
  trace : Tab Bool := []
  /-- last capture of an engine: address, words, clocks, metadata -/
  captured : Tab (Option (Nat × Nat × Nat × Nat)) := []
  /-- a load is in progress -/
  loading : Bool := false
  /-- parse counters: 64 × engine + number 1 to 63 (R83) -/
  pcount : Tab Nat := []
  /-- the core clock after the one on which a slot last accepted a packet, keyed 4 × engine + slot (R79) -/
  took : Tab Nat := []
deriving DecidableEq, Repr, Inhabited

/-! ### Packets and copies (04 to 13) -/

/-- Where a packet is before its copies are made. -/
inductive Stage where
  /-- in the receive FIFO of its pipe -/
  | fifo
  | engine (c : Ctx)
  /-- left the ingress engine and waits for its turn (R80) -/
  | parsed
  /-- a station lookup is outstanding since this monotonic time -/
  | station (since : Nat)
  /-- lookups done, waits for the packets of its port before it (R130) -/
  | classified
  /-- past stage 6, waits for the Anchor (R342) -/
  | anchor
  /-- past the action stage -/
  | released
deriving DecidableEq, Repr, Inhabited

/-- The authentication verdict of a packet. -/
inductive Verdict where
  /-- no verification applies, or none decided yet -/
  | none
  | pending
  | pass
  /-- the row of R260 counted from 1 -/
  | fail (cause : Nat)
deriving DecidableEq, Repr, Inhabited

structure Packet where
  live : Bool := false
  port : Nat := 0
  rx : RxFrame := { bytes := [] }
  /-- the tail has passed -/
  ended : Bool := false
  /-- discarded at its tail by R60 while copies or punts remain -/
  bad : Bool := false
  /-- monotonic time of the receive timestamp -/
  arrived : Nat := 0
  /-- the receive timestamp: device time in ns (R40, R74) -/
  rxTime : Nat := 0
  /-- configuration generation latched at admission (R101) -/
  gen : Nat := 0
  inst : Nat := 0
  instGen : Nat := 0
  /-- the metadata word of R95 -/
  md : Nat := 0
  stage : Stage := .fifo
  /-- results latched with the rule and prefix matches (R151, R158) -/
  ruleRes : Nat := 0
  pfxRes : Nat := 0
  /-- deletes made when its lookups completed (R555) -/
  looked : Nat := 0
  /-- MUST_SIGN and COPY_PUNT of the action set (R164) -/
  mustSign : Bool := false
  copyPunt : Bool := false
  /-- it starts only after its tail and verdict (R202, R247, R292) -/
  whole : Bool := false
  /-- bytes of its SecTAG, which header offsets ignore (R253) -/
  sectag : Nat := 0
  verdict : Verdict := .none
  assoc : Nat := 0
  keyNum : Nat := 0
  pn : Nat := 0
  /-- Baton slot whose key it uses -/
  slot : Option Nat := none
  /-- it waits on the bench in this many cells (R289) -/
  bench : Option Nat := none
  /-- it waits for the HMAC task of the Pacer -/
  hmac : Bool := false
  /-- pool buffer that holds it while the Pacer verifies it (R259, R387) -/
  hbuf : Option (Nat × Nat) := none
  /-- its verdict has taken effect (R262) -/
  judged : Bool := false
  /-- number of its CMAC job -/
  cmac : Option Nat := none
  /-- what its ended CMAC job has found: the tag matches -/
  tagOk : Option Bool := none
  /-- stream record, sequence number accepted and recovery mode (R184) -/
  accepted : Option (Nat × Nat) := none
  /-- meter record, assumed length and buckets drawn: 1 TC, 2 TPE (R182) -/
  metered : Option (Nat × Nat × Nat) := none
  /-- MAX_SDU is to be checked at the tail against this stream record (R175, R176) -/
  sduStream : Option Nat := none
  /-- destinations the action stage resolved: egress port and rewrite template of each copy -/
  dests : List (Nat × Nat) := []
  /-- the forwarding result is an MCAST group or a flood (R204) -/
  mc : Bool := false
  /-- relay destination device and class, for a RELAY next hop or a transit frame (R170, R336) -/
  relay : Option (Nat × Nat) := none
  /-- source device, SEQ and ORDER_STAMP of a frame from the fabric (R331, R342) -/
  relaySrc : Option (Nat × Nat × Nat) := none
  /-- its learn key and the tier that answered: raised at the end of its checks -/
  learn : Option Nat := none
  /-- a descriptor that carries it is marked UNTRUSTED -/
  untrusted : Bool := false
deriving DecidableEq, Repr, Inhabited

/-- Where a copy is. -/
inductive Place where
  | queue
  /-- in the residue list, with the boundaries it has stayed -/
  | residue (laps : Nat)
  | spilled
  /-- selected, not yet admitted by the egress engine -/
  | selected
  /-- in a context of the egress engine -/
  | egress (c : Ctx)
  /-- past the egress engine: its present fragment begins at this monotonic time -/
  | sending (start : Nat)
  /-- in a relay transmit FIFO -/
  | txfifo
deriving DecidableEq, Repr, Inhabited

structure Copy where
  live : Bool := false
  pkt : Nat := 0
  /-- egress queue 0 to 8,191, or 8,192 + VOQ -/
  queue : Nat := 0
  quad : Nat := 0
  cells : Nat := 0
  /-- the 20-bit numbers of the cells that hold its frame; copies of one frame share them, and one copy lists them (R185, R204) -/
  store : List Nat := []
  /-- cells it drew itself from the shared pool or headroom, from headroom first (R196, R449) -/
  drawn : Nat := 0
  /-- its first cell drew on headroom (R197) -/
  fromHead : Bool := false
  /-- cells drawn from the completion reserve (R197) -/
  comp : Nat := 0
  /-- the crossbar output it crosses through, and the cells that have crossed (R193) -/
  xout : Option Nat := none
  crossed : Nat := 0
  /-- cells it stands for in pfc_cnt (R211) -/
  pfc : Nat := 0
  /-- it was preempted and its remainder waits (R238) -/
  paused : Bool := false
  /-- frame bytes sent in earlier fragments -/
  sent : Nat := 0
  /-- bytes that ramp buckets paid for it (R223) -/
  paid : Nat := 0
  /-- its gate was closed while it was on the wire of the express MAC (R237, R240) -/
  late : Bool := false
  /-- device time at which its first fragment began (R74) -/
  ts : Nat := 0
  /-- SEQ of its relay header (R339) -/
  seq : Nat := 0
  /-- lossless priority at its ingress port (R211) -/
  pri : Option Nat := none
  place : Place := .queue
  /-- rewrite template (R165, R204) -/
  rewrite : Nat := 0
  /-- copy of an MCAST or FLOOD frame -/
  mc : Bool := false
  /-- cut-through eligible (R199) -/
  eligible : Bool := false
  /-- frame bytes as the egress engine has edited them, DA up to the FCS -/
  out : List Byte := []
  /-- the metadata word as the egress engine has it -/
  emd : Nat := 0
  /-- it is to be sent with the inverted FCS -/
  stomp : Bool := false
  /-- a frame with no packet: injected, synchrophasor or fabric control -/
  own : List Byte := []
  /-- stamp of a frame with no packet -/
  stamp : Nat := 0
  inst : Nat := 0
  instGen : Nat := 0
  /-- relay port of its transmit FIFO, for a copy of a VOQ (R339) -/
  rport : Nat := 0
  /-- it comes from another device: it needs no credit and keeps its SEQ (R336) -/
  transit : Bool := false
  /-- the Baton slot whose key tags it, of which it holds a reference (R255, R277) -/
  tag : Option Nat := none
deriving DecidableEq, Repr, Inhabited

/-! ### Tables and records (05, 07) -/

/-- A front entry with its side bits (R120), or a station entry (R122) with its result expanded to the layout of R121. -/
structure Entry where
  valid : Bool := false
  key : Nat := 0
  result : Nat := 0
  hit : Bool := false
  /-- PAR: three bits of a front entry, two of a station entry (R120, R122) -/
  par : Nat := 0
  /-- host-inserted: the Pacer holds a shadow (R138) -/
  host : Bool := false
deriving DecidableEq, Repr, Inhabited

/-- A record of a record region (R168, R555). -/
structure ObjRec where
  /-- 0 free, 1 live, 2 draining -/
  st : Nat := 0
  /-- its pool words, word k at bits 192k (R168, R420) -/
  words : Nat := 0
  /-- PAR side bits of its pool words, those of word k at bits 3k (R110, R168) -/
  par : Nat := 0
  /-- its words as the host wrote them, from which STREAM.RESET restores (R173) -/
  init : Nat := 0
  owner : Nat := 0
  /-- monotonic time before which the drain fence has not passed (R142) -/
  fence : Nat := 0
  /-- number of its delete: packets looked up before it may still use the record (R555) -/
  del : Nat := 0
deriving DecidableEq, Repr, Inhabited

/-- A stepped scan over every entry. (DESIGN CHOICE, entry 147.) -/
structure Scan where
  /-- positions done since it began -/
  pos : Nat := 0
  /-- laps since it began -/
  laps : Nat := 0
deriving DecidableEq, Repr, Inhabited

structure Tables where
  /-- keyed table × 2²⁴ + 4 × bucket + slot -/
  front : Tab Entry := []
  frontOvf : Tab Entry := []
  /-- rotating victim pointers, keyed table × 2²⁴ + bucket (R117) -/
  victim : Tab Nat := []
  station : Tab Entry := []
  stationOvf : Tab Entry := []
  /-- ALT (1) and OVF (2) flags per bucket (R122) -/
  stFlags : Tab Nat := []
  /-- keyed kind × 2²⁰ + index; kinds as OBJ.WRITE -/
  obj : Tab ObjRec := []
  /-- deletes made (R555) -/
  dels : Nat := 0
  /-- duplicate-table words, keyed 4 × bucket + slot, with the three PAR side bits above bit 191 (R110, R180) -/
  dup : Tab Nat := []
  /-- entries marked bad and not yet rewritten: kind × 2³² + index (R138) -/
  bad : List Nat := []
  /-- station reads made at this monotonic time (R128) -/
  stAt : Nat := 0
  stReads : Nat := 0
  /-- the aging scan, whose positions count through two passes (R136) -/
  age : Scan := {}
  /-- the parity scrub (R139, R161) -/
  scrub : Scan := {}
deriving DecidableEq, Repr, Inhabited

/-! ### Learning (05) -/

structure LearnEvent where
  key : Nat
  port : Nat
  stamp : Nat
  inst : Nat
  instGen : Nat
  /-- station-backed profile -/
  station : Bool
  /-- monotonic time at which its contest window ends -/
  expiry : Nat := 0
deriving DecidableEq, Repr, Inhabited

structure Learning where
  fifo : Tab (List LearnEvent) := []
  window : List LearnEvent := []
  /-- move tracker: key and moves in this lap (R134) -/
  moves : List (Nat × Nat) := []
  /-- freeze list: key and boundaries left -/
  frozen : List (Nat × Nat) := []
  /-- handoff queue to the Pacer: event, and whether it is a move (R135) -/
  queue : List (LearnEvent × Bool) := []
  /-- ports whose flush of R137 runs -/
  flushing : List Nat := []
  /-- events of those ports that are applied after the flush, in order (R137) -/
  deferred : List LearnEvent := []
  /-- monotonic time from which the arbiter accepts its next event: one per 1.6 core clocks, which is 1 ns (R132) -/
  acceptAt : Nat := 0
deriving DecidableEq, Repr, Inhabited

/-! ### Rule and prefix stores (06) -/

structure Rule where
  valid : Bool := false
  value : Nat := 0
  mask : Nat := 0
  prio : Nat := 0
  result : Nat := 0
  handle : Nat := 0
  pfAny : Bool := true
  pfTag : Nat := 0
  /-- PAR (R143) -/
  par : Nat := 0
  /-- quadrants whose copy has lost VALID (R161), bit per quadrant -/
  lost : Nat := 0
deriving DecidableEq, Repr, Inhabited

structure Prefix where
  valid : Bool := false
  /-- 4 or 6 -/
  family : Nat := 4
  vrf : Nat := 0
  len : Nat := 0
  addr : Nat := 0
  result : Nat := 0
  /-- parity of the lane, as PAR of R143 (R156) -/
  par : Nat := 0
  lost : Nat := 0
deriving DecidableEq, Repr, Inhabited

/-- An update waiting for the move engine (R154), with the job that reports it. -/
inductive Move where
  /-- rewrite of a bad row or lane from the Pacer shadow: store 5 rule, 6 prefix; address; quadrant -/
  | shadow (store address quad : Nat)
  /-- one entry of a batch: job session and SEQ, entry number, operation, bytes -/
  | entry (session seq pos op : Nat) (bytes : List Byte)
deriving DecidableEq, Repr, Inhabited

structure Search where
  rule : Tab Rule := []
  nextHandle : Nat := 1
  /-- prefixes keyed 8 × row + lane -/
  pfx : Tab Prefix := []
  /-- rows held by each group, keyed 256 × family + length -/
  groupRows : Tab Nat := []
  moves : List Move := []
  /-- enabled rows and rule searches of this lap (R150) -/
  rows : Nat := 0
  searches : Nat := 0
deriving DecidableEq, Repr, Inhabited

/-! ### Buffer and crossbar (08) -/

/-- A sub-queue: on-chip head, spilled middle, on-chip tail; copy numbers (R208). -/
structure SubQueue where
  head : List Nat := []
  middle : List Nat := []
  tail : List Nat := []
  /-- cells on chip -/
  occ : Nat := 0
  /-- cells spilled -/
  spilled : Nat := 0
deriving DecidableEq, Repr, Inhabited

structure Buffer where
  /-- keyed 4 × queue + quadrant; queues 0 to 8,191 egress, 8,192 to 40,959 VOQ -/
  sub : Tab SubQueue := []
  /-- cells of the completion reserve in use per quadrant (R197) -/
  compUsed : Tab Nat := []
  /-- headroom cells in use per 8 × port + priority -/
  headUsed : Tab Nat := []
  /-- pfc_cnt per 8 × port + priority (R211) -/
  pfcCnt : Tab Nat := []
  /-- cells held by Anchor windows per quadrant -/
  anchorOcc : Tab Nat := []
  residue : List Nat := []
  /-- grant pointers of the 32 inputs and accept pointers of the 32 outputs (R192) -/
  grant : Tab Nat := []
  accept : Tab Nat := []
  /-- inst_cells of R449 -/
  instCells : Tab Nat := []
  /-- largest depth and delay of each queue in this lap (R242) -/
  depth : Tab Nat := []
  delay : Tab Nat := []
deriving DecidableEq, Repr, Inhabited

/-! ### Scheduler, shapers and gates (09) -/

/-- Per-queue shaper and ramp state. Amounts are in units of 1/2,000,000 byte, so that the 1/64 B units of R221 and R223
lose no fraction. -/
structure QState where
  credit : Int := 0
  /-- deficit counter (R220) -/
  dc : Nat := 0
  tc : Int := 0
  tp : Int := 0
  /-- boundaries left of the start-up ramp and of the recovery ramps, while they run; TEST ramp -/
  startup : Option Nat := none
  recovery : Option Nat := none
  test : Bool := false
deriving DecidableEq, Repr, Inhabited

/-- A gate list: entries of 96 bits, cycle and start time in device ns (R228, R230). -/
structure GateList where
  entries : List Nat := []
  cycle : Nat := 1000000
  start : Nat := 0
deriving DecidableEq, Repr, Inhabited

/-- One schedule profile of a port (R232, R234). -/
structure Profile where
  oper : Option GateList := none
  wait : Option GateList := none
  late : Bool := false
deriving DecidableEq, Repr, Inhabited

structure Sched where
  q : Tab QState := []
  /-- ACTIVE of R220, per port -/
  active : Tab (List Nat) := []
  /-- scheduler port pointer per pipe (R218) -/
  ptr : Tab Nat := []
  /-- profiles keyed 4 × port + profile -/
  profile : Tab Profile := []
  /-- active profile per port -/
  sel : Tab Nat := []
  /-- host selections waiting: lap, profile, ports, in order of acceptance (R233) -/
  host : List (Nat × Nat × List Nat) := []
  /-- histogram bins 1 to 15, keyed 32 × queue + 16 × kind + bin (R243); bin 0 holds the other samples -/
  split : Tab Nat := []
  /-- boundaries at which the histograms were sampled, and how many there had been when a histogram was last cleared, keyed
  2 × queue + kind -/
  samples : Nat := 0
  splitBase : Tab Nat := []
deriving DecidableEq, Repr, Inhabited

end Sys2Proof.Machine
end

