-- ==== Sys2Proof/Machine/Secure.lean ====
section
/-! DEFINITION. The plain-data state of authentication: keys, Baton slots, Vault, bench, CMAC unit, HMAC store, TRNG. -/
namespace Sys2Proof.Machine

/-- The keys that the key derivation unit places with their units at stage 1 of a boot (R281). -/
structure DeviceKeys where
  /-- KEK, with the Vault fetch and unwrap engine -/
  kek : List Byte := []
  /-- SMK, with the Vault fetch and unwrap engine -/
  smk : List Byte := []
  /-- the private attestation key, with the Starting block -/
  attest : Nat := 0
  /-- the last-good key, with the reserved context of the CMAC unit -/
  lastGood : List Byte := []
  /-- the boot key, with the Starting block and the reserved context of the CMAC unit -/
  boot : List Byte := []
deriving DecidableEq, Repr, Inhabited

/-- A Vault record (R280): the wrapped key is held as its 40 bytes, the STATE_MAC as its 16. -/
structure VaultRec where
  valid : Bool := false
  mode : Nat := 0
  inst : Nat := 0
  wrapped : List Byte := []
  useReserved : BitVec 32 := 0
  nextPn : BitVec 64 := 0
  lowestPn : BitVec 64 := 0
  txReserved : BitVec 64 := 0
  mac : List Byte := []
deriving DecidableEq, Repr, Inhabited

/-- What a key replica holds (R275): the AES round keys of 16 bytes, and the GHASH subkey H. -/
structure Replica where
  rounds : List (List Byte) := []
  h : Nat := 0
deriving DecidableEq, Repr, Inhabited

/-- A Baton slot: its central entry (R276), and its replicas. -/
structure KeySlot where
  /-- 0 FREE, 1 FILLING, 2 VALID, 3 REMOVING -/
  st : Nat := 0
  policy : Nat := 0
  assoc : Nat := 0
  keyNum : Nat := 0
  gen : Nat := 0
  refs : Nat := 0
  age : BitVec 32 := 0
  /-- monotonic time at which a prefetch hold ends, by its low 32 bits (R44) -/
  holdEnd : BitVec 32 := 0
  /-- the hold lasts until HOLD_END (R298) -/
  timed : Bool := false
  /-- the hold lasts until the key becomes current (R299) -/
  untilCurrent : Bool := false
  useCount : BitVec 32 := 0
  useReserved : BitVec 32 := 0
  nextPn : BitVec 64 := 0
  lowestPn : BitVec 64 := 0
  txPn : BitVec 64 := 0
  txReserved : BitVec 64 := 0
  /-- the replica of each pipe, 0 to 15 (R275) -/
  replica : Tab Replica := []
  /-- receive state changed in this lap (R283) -/
  dirty : Bool := false
deriving DecidableEq, Repr, Inhabited

/-- What an association holds beside its parameters: current key, counts, last verified key (R249, R264, R298). -/
structure AssocState where
  current : Option Nat := none
  /-- key to become current at order 3 of a lap: key number and lap (R267, KEY.MAKE_CURRENT) -/
  change : Option (Nat × Nat) := none
  verified : Nat := 0
  failed : Nat := 0
  tagged : Nat := 0
  lastVerified : Nat := 0
  /-- bit per key number that has reached SOFT_LIMIT (R267) -/
  soft : Nat := 0
  /-- its keys are removed at this fence (R251) -/
  removeAt : Option Nat := none
deriving DecidableEq, Repr, Inhabited

/-- A fill request of the fault queue (R285, R286). -/
structure Fill where
  assoc : Nat
  keyNum : Nat
  inst : Nat
  gen : Nat
  /-- 0 key fault, 1 pinned load, 2 prefetch, whose hold ends at this time or, without one, when the key becomes current -/
  policy : Nat := 0
  holdEnd : Option (BitVec 32) := none
  /-- the slot claimed, once the fill is posted -/
  slot : Option Nat := none
  /-- its record has been read and unwrapped -/
  read : Bool := false
  /-- the unwrapped block of 32 bytes, in the unwrap engine -/
  key : List Byte := []
deriving DecidableEq, Repr, Inhabited

/-- What a job of the CMAC unit is for (R269, R270). -/
inductive CmacWork where
  /-- the tag of a frame, by its packet and the pipe it came in by -/
  | frame (pkt pipe : Nat)
  /-- the TAG of the request in a mailbox slot, or of its response -/
  | mailbox (slot : Nat)
  /-- the digest of the image that a job loads, by its session and SEQ -/
  | digest (session seq : Nat)
deriving DecidableEq, Repr, Inhabited

/-- A job of the CMAC unit (R269, R270). -/
structure CmacJob where
  work : CmacWork
  level : Nat
  inst : Nat
  gen : Nat
  /-- 0 waiting, 1 running, 2 suspended -/
  st : Nat := 0
  /-- engine it runs in -/
  engine : Nat := 0
  /-- order in which it was started or suspended -/
  order : Nat := 0
  /-- the Baton slot that a frame job holds a reference of (R276, R277) -/
  key : Option Nat := none
  /-- the round keys it has copied into its context (R275) -/
  rounds : List (List Byte) := []
deriving DecidableEq, Repr, Inhabited

/-- The state of authentication. -/
structure Secure where
  /-- keys of R281, empty until stage 1 of a boot derives them -/
  keys : DeviceKeys := {}
  slot : Tab KeySlot := []
  assoc : Tab AssocState := []
  /-- keyed 4 × association + key number -/
  vault : Tab VaultRec := []
  /-- fault queue; the first two may be in the engine -/
  fills : List Fill := []
  /-- packets on the bench, by 16 × port + class, in order -/
  bench : Tab (List Nat) := []
  /-- use counts left in the block of a pipe, keyed 32 × pipe + slot (R266) -/
  block : Tab Nat := []
  cmac : Tab (Option CmacJob) := []
  nextJob : Nat := 0
  /-- HMAC key store: association, key number, key bytes; most recently used last (R259) -/
  hmac : List (Nat × Nat × List Byte) := []
  /-- HMAC frames taken at this monotonic microsecond (R259) -/
  hmacAt : Nat := 0
  hmacUsed : Nat := 0
  /-- a health test of the TRNG has failed (R274) -/
  trngFailed : Bool := false
  reseeds : Nat := 0
deriving DecidableEq, Repr, Inhabited

end Sys2Proof.Machine
end

