-- ==== Sys2Proof/Machine/Grid.lean ====
section
/-! DEFINITION. The plain-data state of the Grid Measurement Unit, the relay fabric and the HBM controller. -/
namespace Sys2Proof.Machine

/-! ### Grid Measurement Unit (12) -/

/-- A window sample of a channel: its time in device ns, its 16-bit word, that word times e^(−jω₀t) × 2^62, and what R307 and R309 flag
of it. -/
structure WSample where
  t : Nat
  v : Int
  re : Int := 0
  im : Int := 0
  clip : Bool := false
  sim : Bool := false
  /-- used under ACCEPT_TEST -/
  test : Bool := false
deriving DecidableEq, Repr, Inhabited

/-- What a channel keeps of a cycle end (R312): its time, the mean of its window in window words × 2^62, its unwrapped phase in turns × 2^64,
and its frequency in Hz × 2^40. -/
structure CycleEnd where
  t : Nat
  re : Int
  im : Int
  theta : Int
  f : Option Int
deriving DecidableEq, Repr, Inhabited

/-- The quantities of R312 at a window sample: its time, P in window words × 2^62, the frequency in Hz × 2^40 and whether it was clamped, the
ROCOF in Hz/s × 2^40, and which of them are valid. A quotient over no time is none: it is open. -/
structure Point where
  t : Nat
  re : Int := 0
  im : Int := 0
  f : Option Int := none
  clamped : Bool := false
  rocof : Option Int := none
  ok : Bool := false
  okF : Bool := false
  okR : Bool := false
deriving DecidableEq, Repr, Inhabited

/-- The window of a channel. -/
structure ChanState where
  /-- window samples, newest first -/
  win : List WSample := []
  /-- window samples since the last cycle end -/
  n : Nat := 0
  /-- the last 8 cycle ends, newest first -/
  ends : List CycleEnd := []
  theta : Int := 0
  /-- THD at the last cycle end, a single -/
  thd : Option Nat := none
  /-- the window samples of this lap and the last one before it, newest first -/
  pts : List Point := []
  /-- received samples since its window began -/
  run : Nat := 0
  /-- samples missing since its last used value -/
  miss : Nat := 0
  /-- the last used value, as received -/
  raw : Int := 0
  /-- samples since the last decimated one -/
  phase : Nat := 0
deriving DecidableEq, Repr, Inhabited

/-- Outputs of one channel: the exact sum of squares of its window words, the THD of its last cycle end, the window samples of the lap and
the last one before it, newest first, and the IEEE 754 singles of R314. -/
structure ChanOut where
  sumsq : Nat := 0
  distortion : Option Nat := none
  pts : List Point := []
  rms : Nat := 0
  re : Nat := 0
  im : Nat := 0
  f : Nat := 0
  rocof : Nat := 0
  thd : Nat := 0
deriving DecidableEq, Repr, Inhabited

/-- The record of a tap (R314). -/
structure GRecord where
  lap : Nat := 0
  /-- instance generation (R315) -/
  gen : Nat := 0
  t : Nat := 0
  cnt : Nat := 0
  received : Nat := 0
  health : Nat := 0
  chans : List ChanOut := []
  /-- entry time, in device ns, of the last sample of the measurement lap -/
  entry : Nat := 0
deriving DecidableEq, Repr, Inhabited

structure TapState where
  last : Option Nat := none
  ch : Tab ChanState := []
  /-- received samples still needed before FILLED clears -/
  filled : Nat := 0
  unsync : Bool := false
  lost : Bool := false
  /-- monotonic time of the last used sample, or at which the tap was enabled -/
  lastUsed : Nat := 0
  /-- samples received in this lap, time and entry time of the last one -/
  received : Nat := 0
  lastT : Nat := 0
  entry : Nat := 0
  /-- laps that a boundary has closed and the finishing engines have not completed, oldest first -/
  closing : List GRecord := []
  /-- records completed and waiting for their boundary -/
  done : List GRecord := []
  /-- the latest published record -/
  record : GRecord := {}
  /-- publications, for REPORT_DIV -/
  laps : Nat := 0
deriving DecidableEq, Repr, Inhabited

/-- The record of a triplet (R314): X₁, X₂, X₀ as singles, real then imaginary. -/
structure TripRecord where
  valid : Bool := false
  lap : Nat := 0
  gen : Nat := 0
  parts : List Nat := []
deriving DecidableEq, Repr, Inhabited

/-- A trigger (R319). -/
structure Trigger where
  /-- 0 ARMED, 1 PICKUP, 2 FIRED -/
  st : Nat := 0
  count : Nat := 0
  fireLap : Nat := 0
  fires : BitVec 32 := 0
  /-- consecutive evaluated laps with the clear condition met -/
  clear : Nat := 0
  /-- CLEAR_PROFILE has been requested in this FIRED period -/
  cleared : Bool := false
  /-- PROFILE and CLEAR_PROFILE are suppressed for this fire -/
  quiet : Bool := false
deriving DecidableEq, Repr, Inhabited

/-- A capture entry (R323). -/
structure CapEntry where
  tap : Nat
  flags : Nat
  cnt : Nat
  t : Nat
  vals : List Int
  qual : List Nat
  entry : Nat
deriving DecidableEq, Repr, Inhabited

structure Capture where
  held : Bool := false
  trig : Nat := 0
  start : Nat := 0
  stop : Nat := 0
  complete : Bool := false
  gapped : Bool := false
  preShort : Bool := false
  /-- an interrupt follows its completion -/
  intr : Bool := false
deriving DecidableEq, Repr, Inhabited

structure PmuState where
  cfgCnt : BitVec 16 := 0
  lastCfg : Nat := 0
  sentCfg : Bool := false
deriving DecidableEq, Repr, Inhabited

structure Gmu where
  /-- input queue: tap and packet (R303) -/
  queue : List (Nat × Nat) := []
  tap : Tab TapState := []
  trip : Tab TripRecord := []
  trig : Tab Trigger := []
  /-- profile requests of the coming boundary: rank, trigger, port, profile (R321) -/
  req : List (Nat × Nat × Nat × Nat) := []
  /-- capture ring blocks: entries by their place -/
  block : Tab (List CapEntry) := []
  /-- place of the next entry: 512 × block + place -/
  pos : Nat := 0
  /-- entry time of the newest entry that has been overwritten -/
  overwritten : Option Nat := none
  /-- GMU_TRIGGER entries that go out at the publication: trigger, items, interrupt (R311) -/
  events : List (Nat × List Nat × Bool) := []
  /-- device times of the last two boundaries: the measurement lap that is published next lies between them -/
  bounds : Nat × Nat := (0, 0)
  capture : Tab Capture := []
  pmu : Tab PmuState := []
  /-- monotonic time HOLDOVER was entered, for STAT (R327) -/
  holdoverAt : Nat := 0
deriving DecidableEq, Repr, Inhabited

/-! ### Relay fabric (13) -/

structure Adjacency where
  up : Bool := false
  peer : Nat := 0
  serial : Nat := 0
  nonce : Nat := 0
  /-- laps without a hello -/
  miss : Nat := 0
deriving DecidableEq, Repr, Inhabited

structure Lsa where
  present : Bool := false
  serial : Nat := 0
  nonce : Nat := 0
  seq : Nat := 0
  entries : List Nat := []
  /-- monotonic time of its last refresh -/
  at_ : Nat := 0
deriving DecidableEq, Repr, Inhabited

/-- A packet held by the Anchor: its sequence number, the monotonic time from which it is held, its cells by their numbers (R185), and
how many of them were drawn from the shared pool. -/
structure Held where
  pkt : Nat
  seq : Nat
  at_ : Nat
  store : List Nat := []
  drawn : Nat := 0
deriving DecidableEq, Repr, Inhabited

/-- An Anchor context (R342). -/
structure Anchor where
  sync : Bool := false
  expect : Nat := 0
  /-- held list in order of arrival -/
  held : List Held := []
  lost : List Nat := []
  lastArrival : Nat := 0
  lastStamp : Option Nat := none
deriving DecidableEq, Repr, Inhabited

structure Fabric where
  id : Nat := 0
  settled : Bool := false
  /-- consecutive laps without a conflict (R330) -/
  calm : Nat := 0
  nonce : Nat := 0
  adj : Tab Adjacency := []
  /-- link-state database by device ID -/
  lsdb : Tab Lsa := []
  lsaSeq : Nat := 0
  /-- an LSA of this device is due -/
  lsaDue : Bool := false
  lsaAt : Nat := 0
  path : Tab (List Nat) := []
  stale : Bool := false
  /-- spray pointers by VOQ -/
  ptr : Tab Nat := []
  /-- transmit FIFOs, 8 × port + relay class -/
  txfifo : Tab (List Nat) := []
  seqctr : Tab Nat := []
  /-- credit in cells, by VOQ -/
  credit : Tab Nat := []
  /-- last CUM_CELLS by VOQ -/
  lastCum : Tab Nat := []
  /-- cells returned to 8 × source + class, and the value last sent -/
  returned : Tab Nat := []
  sent : Tab Nat := []
  anchor : Tab Anchor := []
  /-- round-robin pointer of each relay class, its deficit, and the list of DRR classes with waiting frames (R338) -/
  rr : Tab Nat := []
  dc : Tab Nat := []
  active : List Nat := []
  /-- monotonic time before which no CREDIT frame goes to a source -/
  creditAt : Tab Nat := []
  /-- VOQs blocked by R339 until a FIFO frees -/
  blocked : List Nat := []
deriving DecidableEq, Repr, Inhabited

/-! ### HBM controller (14) -/

/-- A request at a pseudo-channel (R350, R352). -/
structure HReq where
  /-- rank 1 to 9 of R350; the spill read is 2, the spill write 6 -/
  master : Nat
  addr : Nat
  bytes : Nat
  write : Bool
  at_ : Nat
  /-- number the master gives it -/
  tag : Nat := 0
deriving DecidableEq, Repr, Inhabited

structure Pc where
  /-- 0 TRAINING, 1 READY, 2 POWER_DOWN, 3 FAILED -/
  st : Nat := 0
  debt : Nat := 0
  hot : Bool := false
  splits : BitVec 16 := 0
  reads : List HReq := []
  writes : List HReq := []
  bank : Nat := 0
  /-- a write batch is in progress (R356) -/
  batch : Bool := false
  /-- the last burst was a write -/
  lastWrite : Bool := false
  /-- the burst in progress and the monotonic time it ends -/
  burst : Option HReq := none
  busy : Nat := 0
  /-- monotonic time since which nothing is queued -/
  idle : Nat := 0
  /-- refreshes made ahead of time (R357) -/
  ahead : Nat := 0
  /-- monotonic time of the next refresh -/
  refresh : Nat := 0
  /-- monotonic time at which the last refresh ends -/
  refEnd : Nat := 0
deriving DecidableEq, Repr, Inhabited

structure Hbm where
  pc : Tab Pc := []
  /-- requests that wait at their masters for a place at their PC, oldest first -/
  wait : List HReq := []
  /-- time, in thirds of a ps, from which the next request of a rate-limited master may go out, by its rank -/
  rate : Tab Nat := []
  /-- HBM.TRAIN_LANE by 128 × stack + lane -/
  lane : Tab Nat := []
  /-- stack temperatures in °C -/
  temp : Tab Int := []
  scrubAt : Nat := 0
  /-- spill cells in use (R348) -/
  spillCells : Nat := 0
  /-- contents are valid (R363) -/
  valid : Bool := false
deriving DecidableEq, Repr, Inhabited

end Sys2Proof.Machine
end

