-- ==== Sys2Proof/Machine/State.lean ====
section
/-! DEFINITION. The state of the block: every register, table, queue, counter and pin the manual gives it, as plain
data, with the queue of commands that wait. State.reset is the block with power just applied and RESET_N low. -/
namespace Sys2Proof.Machine

/-! ### Configuration banks (18) -/

/-- STANDBY_STATE of R432. -/
inductive Standby where
  | empty | staging | committing | draining | previous | retiring | retired
deriving DecidableEq, Repr, Inhabited

def Standby.code : Standby → Nat
  | .empty => 0 | .staging => 1 | .committing => 2 | .draining => 3 | .previous => 4 | .retiring => 5 | .retired => 6

/-- The last-good image of R441. (DEDUCED, entry 95.) -/
structure LgImage where
  gen : Nat := 0
  writeSeq : Nat := 0
  valid : Bool := false
  bank : Bank := []
  /-- host-inserted front entries where they stand, and station entries as key and result -/
  front : Tab Entry := []
  frontOvf : Tab Entry := []
  station : List (Nat × Nat) := []
  rules : Tab Rule := []
  pfx : Tab Prefix := []
  groupRows : Tab Nat := []
  nextHandle : Nat := 1
  objs : Tab ObjRec := []
  vault : Tab VaultRec := []
  rbDisable : Bool := false
  /-- LENGTH and the AES-CMAC of the slot header (R441) -/
  length : Nat := 0
  mac : List Byte := []
deriving DecidableEq, Repr, Inhabited

/-- An activation that waits for its lap (R434, R438, R439). -/
structure Activation where
  lap : Nat
  /-- 0 commit, 1 rollback by the host, 2 rollback at the end of a window -/
  kind : Nat
  confirmS : Nat := 0
  session : Nat := 0
  seq : Nat := 0
deriving DecidableEq, Repr, Inhabited

structure Cfg where
  active : Bank := []
  standby : Bank := []
  activeGen : BitVec 16 := 0
  standbyGen : BitVec 16 := 0
  st : Standby := .empty
  lastGood : BitVec 16 := 0
  /-- monotonic time at which the confirm window ends (R437) -/
  window : Option Nat := none
  /-- the window has ended unconfirmed, and the rollback waits for a boundary (R438) -/
  expired : Bool := false
  /-- monotonic time of the drain fence of the last activation, and its job -/
  fence : Nat := 0
  fenceJob : Nat × Nat := (0, 0)
  act : Option Activation := none
  /-- LAP of the last activation -/
  commitLap : Nat := 0
  rbDisable : Bool := false
  /-- last-good slots 0 and 1 in flash -/
  slot0 : LgImage := {}
  slot1 : LgImage := {}
  /-- image being written, and its slot -/
  writing : Option (LgImage × Bool) := none
  /-- an image is to be built at the next boundary: of a confirmation (true), or keeping its GEN (R440 to R442) -/
  lgDue : Option Bool := none
  /-- monotonic time of the next refresh (R442) -/
  lgAt : Nat := 0
deriving DecidableEq, Repr, Inhabited

/-! ### Instances (19) -/

structure Inst where
  gen : BitVec 8 := 0
  /-- 0 running, 1 frozen, 2 deleted -/
  st : Nat := 0
  /-- lap at which a freeze or a resume takes effect -/
  freezeAt : Option Nat := none
  resumeAt : Option Nat := none
  /-- the 256-bit in-use map (R48) -/
  used : Nat := 0
  /-- retire markers outstanding: generation and engine 0 to 5 (R48, R452) -/
  markers : List (Nat × Nat) := []
  /-- generation whose frames are flushed at order 9 (R451) -/
  flush : Option Nat := none
  /-- INST_ENABLE = 1 has been staged for it while it is deleted (R454) -/
  revive : Bool := false
  /-- image of INST.SAVE, made at the boundary of the freeze (R456) -/
  saved : List Byte := []
deriving DecidableEq, Repr, Inhabited

/-! ### Boot and flash (22) -/

/-- A boot header copy (R497). -/
structure BootHdr where
  /-- MAGIC, FORMAT and the reserved bytes are as written -/
  valid : Bool := false
  /-- preferred firmware slot is B -/
  slotB : Bool := false
  writeSeq : Nat := 0
  /-- DTR_CLK_MHZ, DTR_READ_OPCODE, DTR_DUMMY -/
  mhz : Nat := 25
  opcode : Nat := 0
  dummy : Nat := 0
  svn : Nat := 0
  /-- AES-CMAC under the boot key -/
  mac : List Byte := []
deriving DecidableEq, Repr, Inhabited

/-- A persistent record copy (R497). -/
structure Persist where
  /-- MAGIC and FORMAT are as written -/
  valid : Bool := false
  writeSeq : Nat := 0
  hours : Nat := 0
  pwr : Nat := 0
  stridePtr : Nat := 2
  /-- POLICY entries that are set: severity and entry rung -/
  policy : Tab (Option (Nat × Nat)) := []
  /-- AES-CMAC under the boot key -/
  mac : List Byte := []
deriving DecidableEq, Repr, Inhabited

/-- A stepped operation whose start record has no end record (R506): opcode, SEQ and INSTANCE of the record, STEPS_DONE and STEPS_TOTAL
where the operation was in progress. -/
structure CutOp where
  op : Nat
  seq : Nat
  inst : Nat := 255
  steps : Option (Nat × Nat) := none
deriving DecidableEq, Repr, Inhabited

/-- How the flash is read (R497, R542): single-line SDR or quad-line DTR, clock in MHz, read opcode, dummy cycles. -/
structure FlashRead where
  dtr : Bool := false
  mhz : Nat := 25
  opcode : Nat := 0x13
  dummy : Nat := 0
deriving DecidableEq, Repr, Inhabited

/-- State of the boot, flash and OTP (DESIGN CHOICE, entry 19). -/
structure Boot where
  stage : Nat := 0
  /-- stages that have ended -/
  ended : List Nat := []
  ready : Bool := false
  cause : Nat := 0
  fwSlot : Bool := false
  fallback : Bool := false
  ucode : Nat := 0
  lgSource : Nat := 0
  rootsBlank : Bool := false
  tagExhausted : Bool := false
  halt : Nat := 0
  /-- HBM stacks to be retrained although the reset is warm (R503) -/
  retrain : Bool := false
  /-- the reset that is under way came with the ramp of the supplies -/
  powerOn : Bool := true
  /-- a confirm window was open when the device was reset (R443) -/
  wasWindow : Option (Nat × Nat) := none
  /-- stepped operations cut off by the reset (R506) -/
  cut : List CutOp := []
  hdr0 : BootHdr := {}
  hdr1 : BootHdr := {}
  per0 : Persist := {}
  per1 : Persist := {}
  /-- power-cycle count (R49, R481) -/
  pwrCycles : Nat := 0
  svnFloor : Nat := 0
  /-- the firmware slot last loaded, B or A, and the SECURITY_VERSION of its image -/
  fwLoaded : Option (Bool × Nat) := none
  /-- Stride image slots A and B in flash -/
  strideA : Option Image := none
  strideB : Option Image := none
  /-- how the flash is read since the boot header was (R542) -/
  flashRead : FlashRead := {}
deriving DecidableEq, Repr, Inhabited

/-! ### Pins and supplies (24) -/

structure Pins where
  /-- RESET_N is high -/
  resetHigh : Bool := false
  /-- PFW_N is asserted (low) -/
  pfwLow : Bool := false
  /-- supplies within range, as the supply monitor sees them -/
  supplyOk : Bool := true
  /-- RESET_N was asserted during the power-fail flush and waits for its end (R505) -/
  deferred : Bool := false
  /-- PMBus address bit latched from GPIO0 at the release of RESET_N (R544) -/
  gpio0 : Bool := false
  /-- reference clock pairs out of range (R540) -/
  refLost : List Nat := []
  /-- die and HBM stack temperatures in °C, by sensor -/
  temp : Tab Int := []
  /-- the register the JTAG instruction register selects: 0 IDCODE, 1 BYPASS, 2 boundary scan -/
  jtag : Nat := 0
deriving DecidableEq, Repr, Inhabited

/-- The state of the block. -/
structure State where
  time : TimeUnit := {}
  cfg : Cfg := {}
  inst : Tab Inst := []
  port : Tab Port := []
  stride : Stride := {}
  pkt : Tab Packet := []
  cpy : Tab Copy := []
  nextPkt : Nat := 0
  nextCpy : Nat := 0
  tbl : Tables := {}
  learn : Learning := {}
  srch : Search := {}
  buf : Buffer := {}
  sched : Sched := {}
  sec : Secure := {}
  gmu : Gmu := {}
  fab : Fabric := {}
  hbm : Hbm := {}
  pacer : Pacer := {}
  mbx : Mailboxes := {}
  host : HostIf := {}
  fault : Faults := {}
  recd : Recorder := {}
  ctr : Counters := {}
  boot : Boot := {}
  pins : Pins := {}
  /-- what has left the block, newest first (the model's own record) -/
  out : List Out := []
  /-- number of the next free value (the model's own field) -/
  free : Nat := 0
  pending : List Instr := []
deriving DecidableEq, Repr, Inhabited

/-- Reasons for which the block stops: the manual gives none. -/
inductive Fault where
deriving DecidableEq, Repr

/-- Reasons for which the model does not say what the block does. -/
inductive Refusal where
  /-- Raised by the dispatcher for a command whose meaning has not been written. Safe. -/
  | notModelled (mnemonic : String)
  /-- Raised by execJtagInstruction for a private JTAG instruction that a debug token allows: the manual gives it no
  effect (R546). Safe. -/
  | jtagPrivate
deriving DecidableEq, Repr

/-- The block with power just applied and RESET_N low: every field at the value the manual gives for reset.
(DESIGN CHOICE, entries 2, 19.) -/
def State.reset : State := {}

end Sys2Proof.Machine
end

