-- ==== Sys2Proof/Machine/Stat.lean ====
section
/-! DEFINITION. The statistics of the manual with their STAT_ID and unit (R487). -/
namespace Sys2Proof.Machine

/-- What a statistic's INDEX names, for the ownership of R446. -/
inductive StatUnit where
  /-- device-wide: INDEX 0 -/
  | device
  | port
  /-- n × port + k -/
  | portBy (n : Nat)
  | queue
  | inst
  /-- n × instance + k -/
  | instBy (n : Nat)
  | assoc
  | tap
  /-- a unit of the operator: pipe, cause, requester, pseudo-channel -/
  | other
deriving DecidableEq, Repr

/-- A statistic. -/
structure Stat where
  id : Nat
  unit : StatUnit
deriving DecidableEq, Repr

/-! Statistics first named in file 02. -/

def Stat.residenceLimitDrops : Stat := ⟨0x0200, .queue⟩
def Stat.residenceCapDrops : Stat := ⟨0x0201, .device⟩

/-! Statistics first named in file 03. -/

def Stat.rxDiscards : Stat := ⟨0x0300, .portBy 5⟩
def Stat.rxTruncatedStomped : Stat := ⟨0x0301, .device⟩
def Stat.txAborted : Stat := ⟨0x0302, .device⟩
def Stat.rxAssemblyErrors : Stat := ⟨0x0303, .device⟩
def Stat.pfcUnmapped : Stat := ⟨0x0304, .device⟩
def Stat.linkFlaps : Stat := ⟨0x0305, .port⟩
def Stat.relayHdrErrors : Stat := ⟨0x0306, .device⟩

/-! Statistics first named in file 04. -/

def Stat.rxOverrun : Stat := ⟨0x0400, .device⟩
def Stat.strideWaitTimeouts : Stat := ⟨0x0401, .device⟩
def Stat.strideEccCorrected : Stat := ⟨0x0402, .device⟩
def Stat.defaultDrops : Stat := ⟨0x0403, .portBy 64⟩

/-! Statistics first named in file 05. -/

def Stat.expressMisses : Stat := ⟨0x0500, .device⟩
def Stat.stationOverload : Stat := ⟨0x0501, .other⟩
def Stat.stationTimeouts : Stat := ⟨0x0502, .other⟩
def Stat.learnCheckSkipped : Stat := ⟨0x0503, .device⟩
def Stat.learnFifoDrops : Stat := ⟨0x0504, .device⟩
def Stat.learnContests : Stat := ⟨0x0505, .device⟩
def Stat.learnTableFull : Stat := ⟨0x0506, .device⟩
def Stat.learnStaticHits : Stat := ⟨0x0507, .device⟩
def Stat.learnLimitDrops : Stat := ⟨0x0508, .device⟩
def Stat.learnFrozen : Stat := ⟨0x0509, .device⟩
def Stat.learnTrackFull : Stat := ⟨0x050A, .device⟩
def Stat.learnQueueDrops : Stat := ⟨0x050B, .device⟩
def Stat.tableParityErrors : Stat := ⟨0x050C, .device⟩

/-! Statistics first named in file 06. -/

def Stat.rulePfRows : Stat := ⟨0x0600, .device⟩
def Stat.searchParityDrops : Stat := ⟨0x0601, .device⟩

/-! Statistics first named in file 07. -/

def Stat.actionDrops : Stat := ⟨0x0700, .port⟩
def Stat.recordRefInvalid : Stat := ⟨0x0701, .port⟩
def Stat.nextHopInvalid : Stat := ⟨0x0702, .port⟩
def Stat.lagNoMember : Stat := ⟨0x0703, .device⟩
def Stat.streamSduStomped : Stat := ⟨0x0704, .device⟩
def Stat.dupEvictions : Stat := ⟨0x0705, .device⟩

/-! Statistics first named in file 08. -/

def Stat.bufferEccCorrected : Stat := ⟨0x0800, .device⟩
def Stat.bufferEccDrops : Stat := ⟨0x0801, .device⟩
def Stat.pfcHeadroomOverrun : Stat := ⟨0x0802, .device⟩
def Stat.admitDrops : Stat := ⟨0x0803, .queue⟩
def Stat.mcResidueDrops : Stat := ⟨0x0804, .device⟩
def Stat.mcResidueFull : Stat := ⟨0x0805, .device⟩
def Stat.mcPortDownDrops : Stat := ⟨0x0806, .device⟩
def Stat.holdFlushDrops : Stat := ⟨0x0807, .queue⟩
def Stat.portDownDrops : Stat := ⟨0x0808, .device⟩

/-! Statistics first named in file 09. -/

def Stat.gateRephases : Stat := ⟨0x0900, .port⟩
def Stat.gateOverruns : Stat := ⟨0x0901, .device⟩
def Stat.oversizeForSchedule : Stat := ⟨0x0902, .queue⟩

/-! Statistics first named in file 10. -/

def Stat.macsecTxOversize : Stat := ⟨0x0A00, .device⟩
def Stat.hmacOverload : Stat := ⟨0x0A01, .device⟩
def Stat.authFails : Stat := ⟨0x0A02, .other⟩
def Stat.authDrops : Stat := ⟨0x0A03, .other⟩
def Stat.authStomped : Stat := ⟨0x0A04, .port⟩
def Stat.authUntrusted : Stat := ⟨0x0A05, .device⟩
def Stat.unsignedDrops : Stat := ⟨0x0A06, .port⟩
def Stat.verified : Stat := ⟨0x0A07, .assoc⟩
def Stat.failed : Stat := ⟨0x0A08, .assoc⟩
def Stat.tagged : Stat := ⟨0x0A09, .assoc⟩

/-! Statistics first named in file 11. -/

def Stat.expressKeyFaults : Stat := ⟨0x0B00, .port⟩
def Stat.benchOverflows : Stat := ⟨0x0B01, .port⟩
def Stat.benchTimeoutDrops : Stat := ⟨0x0B02, .port⟩
def Stat.prefetchMisses : Stat := ⟨0x0B03, .device⟩

/-! Statistics first named in file 12. -/

def Stat.gmuTapOverflow : Stat := ⟨0x0C00, .tap⟩
def Stat.gmuRxErrors : Stat := ⟨0x0C01, .tap⟩
def Stat.gmuUnverified : Stat := ⟨0x0C02, .tap⟩
def Stat.gmuParseErrors : Stat := ⟨0x0C03, .tap⟩
def Stat.svDuplicates : Stat := ⟨0x0C04, .tap⟩
def Stat.svFilled : Stat := ⟨0x0C05, .tap⟩
def Stat.svJumps : Stat := ⟨0x0C06, .tap⟩
def Stat.svSimulated : Stat := ⟨0x0C07, .tap⟩
def Stat.gmuReportDrops : Stat := ⟨0x0C08, .device⟩
def Stat.captureDrops : Stat := ⟨0x0C09, .device⟩
def Stat.captureRefused : Stat := ⟨0x0C0A, .device⟩

/-! Statistics first named in file 13. -/

def Stat.relayHopDrops : Stat := ⟨0x0D00, .device⟩
def Stat.fabricUnreachable : Stat := ⟨0x0D01, .device⟩
def Stat.sprayBlocked : Stat := ⟨0x0D02, .device⟩
def Stat.creditErrors : Stat := ⟨0x0D03, .device⟩
def Stat.anchorLateDrops : Stat := ⟨0x0D04, .device⟩
def Stat.anchorForced : Stat := ⟨0x0D05, .device⟩
def Stat.anchorAdmitDrops : Stat := ⟨0x0D06, .device⟩
def Stat.anchorGapsLost : Stat := ⟨0x0D07, .device⟩

/-! Statistics first named in file 14. -/

def Stat.refSplits : Stat := ⟨0x0E00, .other⟩
def Stat.hbmOndieCorrected : Stat := ⟨0x0E01, .device⟩
def Stat.hbmEccCorrected : Stat := ⟨0x0E02, .device⟩

/-! Statistics first named in file 15. -/

def Stat.poolDoubleFrees : Stat := ⟨0x0F00, .device⟩
def Stat.poolEmpty : Stat := ⟨0x0F01, .other⟩
def Stat.gmuPoolDrops : Stat := ⟨0x0F02, .device⟩

/-! Statistics first named in file 16. -/

def Stat.mbxRefused : Stat := ⟨0x1000, .instBy 256⟩

/-! Statistics first named in file 19. -/

def Stat.instShareDrops : Stat := ⟨0x1300, .inst⟩
def Stat.falseStartDrops : Stat := ⟨0x1301, .inst⟩
def Stat.falseStartDiscards : Stat := ⟨0x1302, .instBy 6⟩
def Stat.instFrozenDrops : Stat := ⟨0x1303, .device⟩

/-! Statistics first named in file 21. -/

def Stat.recorderFlashLost : Stat := ⟨0x1500, .device⟩

/-! Statistics first named in file 23. -/

def Stat.hifFlrDiscards : Stat := ⟨0x1700, .device⟩
def Stat.puntRxDrops : Stat := ⟨0x1701, .inst⟩
def Stat.puntOverload : Stat := ⟨0x1702, .device⟩

/-- Every statistic, in the order of STAT_ID. -/
def Stat.all : List Stat :=
  List.flatten [
  [Stat.residenceLimitDrops, Stat.residenceCapDrops, Stat.rxDiscards, Stat.rxTruncatedStomped, Stat.txAborted, Stat.rxAssemblyErrors],
  [Stat.pfcUnmapped, Stat.linkFlaps, Stat.relayHdrErrors, Stat.rxOverrun, Stat.strideWaitTimeouts, Stat.strideEccCorrected],
  [Stat.defaultDrops, Stat.expressMisses, Stat.stationOverload, Stat.stationTimeouts, Stat.learnCheckSkipped, Stat.learnFifoDrops],
  [Stat.learnContests, Stat.learnTableFull, Stat.learnStaticHits, Stat.learnLimitDrops, Stat.learnFrozen, Stat.learnTrackFull],
  [Stat.learnQueueDrops, Stat.tableParityErrors, Stat.rulePfRows, Stat.searchParityDrops, Stat.actionDrops, Stat.recordRefInvalid],
  [Stat.nextHopInvalid, Stat.lagNoMember, Stat.streamSduStomped, Stat.dupEvictions, Stat.bufferEccCorrected, Stat.bufferEccDrops],
  [Stat.pfcHeadroomOverrun, Stat.admitDrops, Stat.mcResidueDrops, Stat.mcResidueFull, Stat.mcPortDownDrops, Stat.holdFlushDrops],
  [Stat.portDownDrops, Stat.gateRephases, Stat.gateOverruns, Stat.oversizeForSchedule, Stat.macsecTxOversize, Stat.hmacOverload],
  [Stat.authFails, Stat.authDrops, Stat.authStomped, Stat.authUntrusted, Stat.unsignedDrops, Stat.verified],
  [Stat.failed, Stat.tagged, Stat.expressKeyFaults, Stat.benchOverflows, Stat.benchTimeoutDrops, Stat.prefetchMisses],
  [Stat.gmuTapOverflow, Stat.gmuRxErrors, Stat.gmuUnverified, Stat.gmuParseErrors, Stat.svDuplicates, Stat.svFilled],
  [Stat.svJumps, Stat.svSimulated, Stat.gmuReportDrops, Stat.captureDrops, Stat.captureRefused, Stat.relayHopDrops],
  [Stat.fabricUnreachable, Stat.sprayBlocked, Stat.creditErrors, Stat.anchorLateDrops, Stat.anchorForced, Stat.anchorAdmitDrops],
  [Stat.anchorGapsLost, Stat.refSplits, Stat.hbmOndieCorrected, Stat.hbmEccCorrected, Stat.poolDoubleFrees, Stat.poolEmpty],
  [Stat.gmuPoolDrops, Stat.mbxRefused, Stat.instShareDrops, Stat.falseStartDrops, Stat.falseStartDiscards, Stat.instFrozenDrops],
  [Stat.recorderFlashLost, Stat.hifFlrDiscards, Stat.puntRxDrops, Stat.puntOverload]]

end Sys2Proof.Machine
end

