-- ==== Sys2Proof/Machine/Ops.lean ====
section
/-! DEFINITION. The named operations every meaning rests on: parameters in force, ownership, statistics and the counters
that select them, recorder events, interrupts, outputs, free values. -/
namespace Sys2Proof.Machine

/-! ### Parameters in force -/

/-- A parameter of the Active bank as a number (R427, R431). -/
def State.par (s : State) (p : Param) (i : Nat := 0) : Nat := s.cfg.active.getN p i

/-- A parameter of the Active bank as an integer. -/
def State.parI (s : State) (p : Param) (i : Nat := 0) : Int := s.cfg.active.get p i

/-- A flag of the Active bank, or the second of two names. -/
def State.parOn (s : State) (p : Param) (i : Nat := 0) : Bool := s.cfg.active.on p i

/-- The bank of a configuration generation: a packet keeps the bank it latched at admission (R101, R431). -/
def State.bankOf (s : State) (gen : Nat) : Bank :=
  if gen = s.cfg.activeGen.toNat then s.cfg.active else s.cfg.standby

/-- The lap length in nanoseconds (R29). -/
def State.lapNs (s : State) : Nat := 1000000000 / s.time.lapRate

/-- TIME.LAP_COUNT as a number. -/
def State.lap (s : State) : Nat := s.time.lapCount.toNat

/-- The port's state. -/
def State.prt (s : State) (p : Nat) : Port := s.port.at p

/-- Changes one port. -/
def State.updPort (s : State) (p : Nat) (f : Port → Port) : State := { s with port := s.port.upd p f }

/-- Changes one packet. -/
def State.updPkt (s : State) (n : Nat) (f : Packet → Packet) : State := { s with pkt := s.pkt.upd n f }

/-- Changes one copy. -/
def State.updCpy (s : State) (n : Nat) (f : Copy → Copy) : State := { s with cpy := s.cpy.upd n f }

/-- An effect that leaves the time unit alone. -/
def State.timeless (s : State) (f : State → State) : State := { f s with time := s.time }

/-- Applies a change for each number of a list, in its order. -/
def State.forEach {α : Type} (s : State) (l : List α) (f : State → α → State) : State := l.foldl f s

/-! ### Ownership (R446) -/

/-- The instance that owns a port, and its egress queues: those of a shared port belong to instance 0. -/
def State.portInst (s : State) (p : Nat) : Nat :=
  let o := s.par P.portOwner p
  if o < 64 then o else 0

/-- The instance whose range holds a performance counter: the operator where no other enabled instance's does. -/
def State.ctrOwner (s : State) (g : Nat) : Nat :=
  ((List.range 64).find? (fun i => i != 0 && s.parOn P.instEnable i && decide (s.par P.instCtrBase i ≤ g)
    && decide (g < s.par P.instCtrBase i + s.par P.instCtrCount i))).getD 0

/-- The instance that owns a unit of a statistic (R488). -/
def State.statOwner (s : State) (u : StatUnit) (idx : Nat) : Nat :=
  match u with
  | .device => 0
  | .port => s.portInst idx
  | .portBy n => s.portInst (idx / n)
  | .queue => s.portInst (idx / 16)
  | .inst => idx
  | .instBy n => idx / n
  | .assoc => s.par P.asInstance idx
  | .tap => s.par P.tapInstance idx
  | .other => 0

/-! ### Statistics and performance counters (R485 to R488) -/

/-- A counter gains an amount: it wraps at 48 bits and then sets its sticky bit (R485). -/
def Ctr.add (c : Ctr) (n : Nat) : Ctr :=
  { c with value := BitVec.ofNat 48 (c.value.toNat + n), sticky := c.sticky || decide (2 ^ 48 ≤ c.value.toNat + n) }

/-- Whether counter `g` counts the events of unit `idx` (R488). -/
def State.unitCounted (s : State) (g : Nat) (u : StatUnit) (idx : Nat) : Bool :=
  let want := s.par P.ctrUnit g
  if want = 0xFFFFFFFF then (let o := s.ctrOwner g; o == 0 || s.statOwner u idx == o) else want == idx

/-- A statistic gains `n`, saturating at 64 bits, and the performance counters that select it follow: in edge mode they
add every increment, at most 64 on one clock; in level mode the clock (R486, R487). -/
def State.count (s : State) (st : Stat) (idx : Nat := 0) (n : Nat := 1) : State :=
  if n = 0 then s else
    let k := st.id * 2 ^ 32 + idx
    { s with ctr := { s.ctr with
        stat := s.ctr.stat.put k (min (2 ^ 64 - 1) (s.ctr.stat.at k + n))
        ctr := s.ctr.ctr.mapAll (fun g c =>
          if c.event == st.id && s.unitCounted g st.unit idx then c.add (if c.level then 1 else min 64 n) else c) } }

/-- The value of a statistic. -/
def State.statVal (s : State) (st : Stat) (idx : Nat := 0) : Nat := s.ctr.stat.at (st.id * 2 ^ 32 + idx)

/-- A statistic that reports a value (RULE_PF_ROWS, R150). -/
def State.setStat (s : State) (st : Stat) (idx v : Nat) : State :=
  { s with ctr := { s.ctr with stat := s.ctr.stat.put (st.id * 2 ^ 32 + idx) v } }

/-! ### Recorder events (R477, R479) -/

/-- Items that fit in one record: 124, or 122 with the PTP extension (R552). -/
def Event.capacity (e : Event) : Nat := if e.ptp.isSome then 122 else 124

/-- Records an event is written as (R552). -/
def Event.parts (e : Event) : Nat :=
  if e.keys.length + e.items.length ≤ e.capacity then 1
  else ceilDiv e.items.length (e.capacity - e.keys.length - 1)

/-- Milliseconds within the operating hour (R476). -/
def State.hourMs (s : State) : Nat := min 3599999 ((s.time.mono - s.recd.hourStart) / 1000000)

/-- The event of a type, stamped with the time of its occurrence. -/
def State.event (s : State) (typ : Nat) (keys items : List Nat) (inst : Nat := 255) : Event :=
  { typ := typ, inst := inst, keys := keys, items := items, lap := s.lap, hours := s.recd.opHours.toNat,
    ms := s.hourMs, pwr := s.boot.pwrCycles,
    ptp := if s.time.state = .freerun then none else some (s.time.dev / 1000000000, s.time.dev % 1000000000) }

/-- An event enters the 256-record input queue, whole or not at all; after PFW_N it is refused, and counts as dropped (R479, R484,
R537, R552). -/
def State.log (s : State) (typ : Nat) (keys items : List Nat) (inst : Nat := 255) : State :=
  let e := s.event typ keys items inst
  if s.recd.accepting && decide ((s.recd.queue.map Event.parts).sum + e.parts ≤ 256) then
    { s with recd := { s.recd with queue := s.recd.queue ++ [e] } }
  else { s with recd := { s.recd with dropped := s.recd.dropped + e.parts } }

/-- A RULE_EVENT: the rule's number, its subject and the KIND, then the items the rule names (R477). (DEDUCED, entry 44.) -/
def State.ruleEvent (s : State) (rule subject kind : Nat) (items : List Nat := []) (inst : Nat := 255) : State :=
  s.log 0x0FF [rule, subject, kind] items inst

/-! ### Outputs and free values -/

/-- Something that a port transmits. -/
def Out.transmitted : Out → Bool
  | .frame .. | .macControl .. | .verify _ | .remoteFault _ | .relay .. => true
  | _ => false

/-- Something leaves the block; once PWR_CYCLE_REQ_N is low no port transmits (R470). -/
def State.emit (s : State) (o : Out) : State :=
  if s.fault.pwrCycleReq && o.transmitted then s else { s with out := o :: s.out }

/-- A value the manual leaves open, `w` bits wide. (DESIGN CHOICE, entry 5.) -/
def State.freeVal (s : State) (w : Nat) : Nat := (Config.freeValue s.free).toNat % 2 ^ w

/-- The next free value is another one. (DESIGN CHOICE, entry 5.) -/
def State.drawn (s : State) (n : Nat := 1) : State := { s with free := s.free + n }

/-- A write to host memory: none is issued while the PCIe link is down (R510). -/
def State.dmaWrite (s : State) (addr : Nat) (bytes : List Byte) : State :=
  if s.host.linkUp && !bytes.isEmpty then s.emit (.dma addr bytes) else s

/-! ### Interrupts (R516 to R518) -/

/-- Whether the OR of a vector's unmasked cause bits is 1: vector 2i takes bits 0 to 2, vector 2i + 1 bits 3 and 4. -/
def irqLine (cause mask v : Nat) : Bool :=
  (if v = 0 then [0, 1, 2] else [3, 4]).any (fun b => bit cause b && !bit mask b)

/-- Sends the message of a vector, or holds it in the PBA while the vector or the function is masked. (PRESUMED, entry 101.) -/
def State.sendMsix (s : State) (v : Nat) : State :=
  let e := s.host.msix.at v
  if e.masked || s.host.funcMask then { s with host := { s.host with pba := s.host.pba.put v true } }
  else if s.host.linkUp then s.emit (.msix v e.addr e.data) else s

/-- HIF.IRQ_CAUSE and HIF.IRQ_MASK of an instance take new values; each vector whose OR changes from 0 to 1 sends one
message. -/
def State.setIrq (s : State) (i cause mask : Nat) : State :=
  let c := s.host.cause.at i
  let m := s.host.mask.at i
  let s' := { s with host := { s.host with cause := s.host.cause.put i cause, mask := s.host.mask.put i mask } }
  let s' := if irqLine cause mask 0 && !irqLine c m 0 then s'.sendMsix (2 * i) else s'
  if irqLine cause mask 1 && !irqLine c m 1 then s'.sendMsix (2 * i + 1) else s'

/-- Sets one cause bit of an instance: 0 MBX, 1 FAULT, 2 GMU, 3 PUNT, 4 GMU_REPORT. -/
def State.cause (s : State) (i b : Nat) : State :=
  s.setIrq i (s.host.cause.at i ||| 2 ^ b) (s.host.mask.at i)

/-! ### Outcomes -/

/-- The outcome of a command that leaves the time unit and the queue of commands alone. -/
def runs (f : State → State) (s : State) : Host.Outcome State Fault Refusal :=
  .next { f s with time := s.time, pending := s.pending }

/-- The outcome of a command that sets the time unit and leaves the queue of commands alone. -/
def runsTime (f : State → State) (s : State) : Host.Outcome State Fault Refusal :=
  .next { f s with pending := s.pending }

end Sys2Proof.Machine
end

