-- ==== Sys2Proof/Machine/Memory.lean ====
section
/-! DEFINITION. Requests at the HBM controller: the pseudo-channel of an address (R347), the queues of a PC and the
limits of its masters (R350, R352). What a request reads or writes is the effect of the command that makes it. -/
namespace Sys2Proof.Machine

/-- The PC of an address (R347). -/
def pcOf (a : Nat) : Nat := bits a 11 7 ^^^ bits a 18 7 ^^^ bits a 25 7 ^^^ bits a 32 4

/-- Requests of a master that may be outstanding at one PC, by rank (R350). -/
def hbmLimit (rank : Nat) : Nat := [0, 4, 8, 2, 32, 8, 8, 8, 2, 1].getD rank 0

/-- Real-time masters: Vault fetch, spill read, GMU capture (R350). -/
def hbmRealTime (rank : Nat) : Bool := decide (1 ≤ rank) && decide (rank ≤ 3)

/-- The target of a master in ns (R350): none for the patrol scrub. -/
def hbmTarget (rank : Nat) : Option Nat := [none, some 400, some 500, some 2000, some 200, some 2000, some 2000, some 5000, some 20000, none].getD rank none

/-- Changes one PC. -/
def State.updPc (s : State) (pc : Nat) (f : Pc → Pc) : State := { s with hbm := { s.hbm with pc := s.hbm.pc.upd pc f } }

/-- Requests of a master at a PC. -/
def Pc.held (c : Pc) (rank : Nat) : Nat := ((c.reads ++ c.writes).filter (fun r => r.master == rank)).length

/-- What a request takes of its master's rate limit, in thirds of a ps: 1.0 TB/s for each direction of the spill, a read and a write 120 M
times a second for the learn writeback, 64 GB/s for the Pacer, 100 MB/s for the recorder (R350). -/
def hbmCost (rank bytes : Nat) : Nat :=
  match rank with
  | 2 => 3 * bytes
  | 5 => 12500
  | 6 => 3 * bytes
  | 7 => bytes * 375 / 8
  | 8 => 30000 * bytes
  | _ => 0

/-- A PC has a place for a request: it is in service, and its master and its queue have room (R350, R352). -/
def Pc.room (c : Pc) (r : HReq) : Bool :=
  (c.st == 1 || c.st == 2) && decide (c.held r.master < hbmLimit r.master) && decide ((if r.write then c.writes else c.reads).length < 64)

/-- A request takes its place in a queue, in the order in which requests come to wait there; a PC in power-down wakes (R361). -/
def Pc.enter (c : Pc) (now : Nat) (r : HReq) : Pc :=
  let r := { r with at_ := max r.at_ now }
  let put := fun (l : List HReq) => l.takeWhile (fun q => decide (q.at_ ≤ r.at_)) ++ r :: l.dropWhile (fun q => decide (q.at_ ≤ r.at_))
  if r.write then { c with st := 1, writes := put c.writes } else { c with st := 1, reads := put c.reads }

/-- A request of a master, which goes out when its rate limit lets it, asks for a place at its PC while that is in service: it enters the
queue, or waits at its master behind those that wait already (R350, R352). (DEDUCED, entry 85.) -/
def State.hbmAsk (s : State) (rank addr bytes : Nat) (write : Bool) (tag : Nat) : State :=
  let pc := pcOf addr
  let c := s.hbm.pc.at pc
  if c.st ≠ 1 ∧ c.st ≠ 2 then s else
    let from_ := max (3000 * s.time.mono) (s.hbm.rate.at rank)
    let r : HReq := { master := rank, addr := addr, bytes := bytes, write := write, at_ := ceilDiv from_ 3000, tag := tag }
    let s := if hbmCost rank bytes = 0 then s else { s with hbm := { s.hbm with rate := s.hbm.rate.put rank (from_ + hbmCost rank bytes) } }
    if c.room r && !s.hbm.wait.any (fun q => q.master == rank && pcOf q.addr == pc) then s.updPc pc (fun c => c.enter s.time.mono r)
    else { s with hbm := { s.hbm with wait := s.hbm.wait ++ [r] } }

/-- The first request that waits at its master for a PC with room for it takes its place. (DEDUCED, entry 85.) -/
def State.hbmEnter (s : State) (pc : Nat) : State :=
  match s.hbm.wait.find? (fun r => pcOf r.addr == pc && (s.hbm.pc.at pc).room r) with
  | none => s
  | some r => ({ s with hbm := { s.hbm with wait := s.hbm.wait.erase r } }).updPc pc (fun c => c.enter s.time.mono r)

/-- tREFI in ns. -/
def Pc.interval (c : Pc) : Nat := if c.hot then 1950 else 3900

/-- A PC comes into service: nothing is queued at it, and its refreshes run from now (R357). -/
def State.readyPc (s : State) (pc : Nat) : State :=
  s.updPc pc (fun c => { c with st := 1, burst := none, batch := false, idle := s.time.mono, refresh := s.time.mono + c.interval, ahead := 0, debt := 0 })

/-- Base addresses of the regions of R348. -/
def hbmStation : Nat := 0
def hbmStationOvf : Nat := 0x020000000
def hbmVault : Nat := 0x022000000
def hbmRecorder : Nat := 0x024000000
def hbmPacer : Nat := 0x028000000
def hbmCapture : Nat := 0x100000000
def hbmSpill : Nat := 0x180000000

/-- Requests of a master for a range of its region, in bursts that cross no 2 KiB boundary (R349). -/
def State.hbmSpan (s : State) (rank addr bytes : Nat) (write : Bool) (tag : Nat) : State :=
  s.forEach (List.range (ceilDiv (addr % 2048 + bytes) 2048)) (fun s i =>
    let lo := max addr ((addr / 2048 + i) * 2048)
    s.hbmAsk rank lo (min (addr + bytes) ((addr / 2048 + i + 1) * 2048) - lo) write tag)

/-- A core's access to Pacer memory, which holds the shadows of table entries (R138, R161): the manual gives neither the place of a shadow nor
the core. (DESIGN CHOICE, entry 85.) -/
def State.pacerAsk (s : State) (write : Bool) : State :=
  (s.hbmAsk 7 (hbmPacer + s.freeVal 64 % 1769472 * 2048) 64 write (s.freeVal 66 / 2 ^ 64)).drawn

/-- HBM spill region in cells (R348). -/
def spillRegion : Nat := 243269632

end Sys2Proof.Machine
end

