-- ==== Sys2Proof/Machine/Packets.lean ====
section
/-! DEFINITION. Packets, copies and cells: who holds a frame, what its cells are drawn from and given back to (R185 to
R213), PFC thresholds (R211, R69), flushes and holds (R214, R215). -/
namespace Sys2Proof.Machine

/-! ### Pipes, quadrants, rates -/

/-- The pipe of a port: 32 lanes each (R50). -/
def pipeOf (port : Nat) : Nat := port / 32

/-- The quadrant of a port: four pipes each (R185). -/
def quadOf (port : Nat) : Nat := port / 128

/-- Port speed in Gb/s. -/
def Bank.rate (b : Bank) (port : Nat) : Nat := portSpeedGbps (b.getN P.portSpeed port)

/-- Receive and transmit delay of a port's PCS in ns (R57). -/
def Bank.pcsDelay (b : Bank) (port : Nat) : Nat × Nat :=
  let fec := b.getN P.fecMode port != 0
  match b.getN P.portSpeed port with
  | 0 => (130, 90)
  | 1 => (48, 32)
  | 2 => if fec then (112, 41) else (26, 18)
  | 3 => (196, 44)
  | 4 => match b.getN P.laneRate port with
    | 3 => (124, 36)
    | 4 => (132, 36)
    | _ => if fec then (78, 30) else (22, 16)
  | 5 => (96, 30)
  | 6 => (74, 26)
  | _ => (58, 22)

/-- The longest frame that a port accepts and sends, with its FCS: MAX_FRAME, and 16 bytes more on a relay port (R55, R77). -/
def Bank.longest (b : Bank) (port : Nat) : Nat := b.getN P.maxFrame port + if b.on P.portRole port then 16 else 0

/-- Lanes of a port by its speed and lane rate (R52): rounded up from speed over lane payload. -/
def Bank.lanes (b : Bank) (port : Nat) : Nat :=
  match b.getN P.portSpeed port, b.getN P.laneRate port with
  | 4, 2 => 4 | 4, 3 => 2 | 4, _ => 1
  | 5, 3 => 4 | 5, _ => 2
  | 6, 3 => 8 | 6, _ => 4
  | 7, _ => 8
  | _, _ => 1

/-- Whether a number is an enabled Ethernet port: a relay port's egress queues are not used (R194). -/
def Bank.ethernet (b : Bank) (port : Nat) : Bool := b.on P.portEnable port && !b.on P.portRole port

/-- The port is UP. -/
def State.isUp (s : State) (port : Nat) : Bool := (s.prt port).link = .up

/-- The lossless priority of a frame by its ingress port and class; under PAUSE the whole port is priority 0 (R211). -/
def Bank.losslessPri (b : Bank) (port cls : Nat) : Option Nat :=
  match b.getN P.flowCtrl port with
  | 1 => some 0
  | 2 => let p := b.getN P.pfcMap (16 * port + cls); if p < 8 then some p else none
  | _ => none

/-- Whether some class of a port maps to a lossless priority (R212). -/
def Bank.priUsed (b : Bank) (port pri : Nat) : Bool :=
  (List.range 16).any (fun c => b.losslessPri port c == some pri)

/-! ### Parts of a quadrant (R194) -/

/-- Cells of a quadrant (R185). -/
def quadCells : Nat := 262144

/-- The completion reserve of a quadrant (R194). -/
def completionReserve : Nat := 5248

/-- Minima every quadrant reserves for egress queues and VOQs. -/
def Bank.minima (b : Bank) : Nat :=
  (((List.range 512).filter b.ethernet).map (fun p => ((List.range 16).map (fun c => b.getN P.qmin (16 * p + c))).sum)).sum
    + 4096 * ((List.range 8).map (fun c => b.getN P.voqMin c)).sum

/-- PFC headroom of a quadrant. -/
def Bank.headroom (b : Bank) (quad : Nat) : Nat :=
  (((List.range 128).filter (fun i => b.on P.portEnable (128 * quad + i) && b.getN P.flowCtrl (128 * quad + i) != 0)).map
    (fun i => ((List.range 8).map (fun k =>
      if b.priUsed (128 * quad + i) k then b.getN P.headroomCells (8 * (128 * quad + i) + k) else 0)).sum)).sum

/-- What the parts other than the shared pool take of a quadrant. -/
def Bank.reserved (b : Bank) (quad : Nat) : Nat :=
  b.minima + b.headroom quad + b.getN P.anchorReserve quad + completionReserve

/-- QMIN or VOQ_MIN of a queue. -/
def State.queueMin (s : State) (queue : Nat) : Nat :=
  if queue < 8192 then s.par P.qmin queue else s.par P.voqMin (queue % 8)

/-- Cells that the frames of a quadrant occupy: each stored once, whatever copies refer to it (R186, R204). -/
def State.cellsIn (s : State) (quad : Nat) : Nat :=
  (s.cpy.map (fun e => if e.2.quad = quad then e.2.store.length else 0)).sum
    + (s.fab.anchor.map (fun e => (e.2.held.map (fun h => if quadOf (s.pkt.at h.pkt).port = quad then h.store.length else 0)).sum)).sum

/-- Cells of a quadrant in use that parts other than the shared pool carry: minima, headroom, Anchor reserve, completion reserve. -/
def State.partsUsed (s : State) (quad : Nat) : Nat :=
  (s.buf.sub.map (fun e => if e.1 % 4 = quad ∧ (8192 ≤ e.1 / 4 ∨ s.cfg.active.ethernet (e.1 / 64) = true)
      then min e.2.occ (s.queueMin (e.1 / 4)) else 0)).sum
    + (s.buf.headUsed.map (fun e => if quadOf (e.1 / 8) = quad then e.2 else 0)).sum
    + min (s.par P.anchorReserve quad) (s.buf.anchorOcc.at quad) + s.buf.compUsed.at quad

/-- Cells of a quadrant's shared pool in use: those no other part carries, under the minima and reserves now in force (R194, R198).
(DEDUCED, entry 61.) -/
def State.sharedUsed (s : State) (quad : Nat) : Nat := s.cellsIn quad - s.partsUsed quad

/-- shared_free of R196: the free cells of a quadrant's shared pool. -/
def State.sharedFree (s : State) (quad : Nat) : Nat :=
  quadCells - s.cfg.active.reserved quad - s.sharedUsed quad

/-- headroom_free of R196. -/
def State.headFree (s : State) (port pri : Nat) : Nat :=
  s.par P.headroomCells (8 * port + pri) - s.buf.headUsed.at (8 * port + pri)

/-! ### Time stamps -/

/-- RX_STAMP of a copy (R42): the low 32 bits of the monotonic counter at arrival. -/
def State.stampOf (s : State) (n : Nat) : Nat :=
  let c := s.cpy.at n
  if c.own.isEmpty then (s.pkt.at c.pkt).arrived % 2 ^ 32 else c.stamp % 2 ^ 32

/-- The stamp by which R189 orders a copy: ORDER_STAMP for a frame that an Anchor passed on, RX_STAMP otherwise (R342). -/
def State.orderOf (s : State) (n : Nat) : Nat :=
  match (s.pkt.at (s.cpy.at n).pkt).relaySrc with
  | some (_, _, stamp) => if (s.cpy.at n).own.isEmpty then stamp else s.stampOf n
  | none => s.stampOf n

/-- Residence (R42): (now − stamp) mod 2³². -/
def State.residence (s : State) (stamp : Nat) : Nat := (s.time.mono + 2 ^ 32 - stamp % 2 ^ 32) % 2 ^ 32

/-! ### Sub-queues (R188, R189, R208) -/

/-- The sub-queue of a queue in a quadrant. -/
def State.subq (s : State) (queue quad : Nat) : SubQueue := s.buf.sub.at (4 * queue + quad)

/-- Changes one sub-queue. -/
def State.updSub (s : State) (queue quad : Nat) (f : SubQueue → SubQueue) : State :=
  { s with buf := { s.buf with sub := s.buf.sub.upd (4 * queue + quad) f } }

/-- Copies of a sub-queue in order. -/
def SubQueue.all (q : SubQueue) : List Nat := q.head ++ q.middle ++ q.tail

/-- The copy at the head of a sub-queue: a spilled middle is read back before the tail is served (R208). -/
def SubQueue.first (q : SubQueue) : Option Nat :=
  match q.head with
  | n :: _ => some n
  | [] => if q.middle.isEmpty then q.tail.head? else none

/-- Copies of a queue over its four sub-queues. -/
def State.queueCopies (s : State) (queue : Nat) : List Nat :=
  (s.subq queue 0).all ++ (s.subq queue 1).all ++ (s.subq queue 2).all ++ (s.subq queue 3).all

/-- Whether a queue holds no frame. -/
def State.queueEmpty (s : State) (queue : Nat) : Bool := (s.queueCopies queue).isEmpty

/-- Cells of a queue on chip, in all quadrants. -/
def State.queueCells (s : State) (queue : Nat) : Nat :=
  (s.subq queue 0).occ + (s.subq queue 1).occ + (s.subq queue 2).occ + (s.subq queue 3).occ

/-- Spilled cells of a queue. -/
def State.queueSpilled (s : State) (queue : Nat) : Nat :=
  (s.subq queue 0).spilled + (s.subq queue 1).spilled + (s.subq queue 2).spilled + (s.subq queue 3).spilled

/-- The head frame of a queue: the earliest RX_STAMP by R44, and the lower quadrant on a tie (R189). -/
def State.queueHead (s : State) (queue : Nat) : Option Nat :=
  [0, 1, 2, 3].foldl (fun best q =>
    match (s.subq queue q).first, best with
    | none, b => b
    | some n, none => some n
    | some n, some b => if later 32 (s.orderOf b) (s.orderOf n) then some n else some b) none

/-! ### PFC (R211, R69) -/

/-- Duration in ns of pause quanta of 512 bit times at port speed (R66). -/
def State.quantaNs (s : State) (port quanta : Nat) : Nat := quanta * 512 / s.cfg.active.rate port

/-- The destination and the EtherType of MAC Control frames (R66). -/
def macControlDest : Nat := 0x0180C2000001

def macControlType : Nat := 0x8808

/-- Sends XOFF (`quanta` > 0) or XON for one priority: PAUSE carries one quanta, PFC a vector and eight (R66). -/
def State.sendPause (s : State) (port pri quanta : Nat) : State :=
  if s.par P.flowCtrl port = 1 then s.emit (.macControl port macControlDest macControlType 0x0001 [quanta])
  else s.emit (.macControl port macControlDest macControlType 0x0101 ((2 ^ pri) :: (List.range 8).map (fun k => if k = pri then quanta else 0)))

/-- The bit by which a priority is kept in Port.xoff: bit 8 under PAUSE. -/
def State.xoffBit (s : State) (port pri : Nat) : Nat := if s.par P.flowCtrl port = 1 then 8 else pri

/-- Re-examines one (ingress port, priority) against its thresholds and the global one (R211, R69). -/
def State.pfcCheck (s : State) (port pri : Nat) : State :=
  if !s.isUp port || s.par P.flowCtrl port = 0 || !s.cfg.active.priUsed port pri then s else
    let cnt := s.buf.pfcCnt.at (8 * port + pri)
    let free := s.sharedFree (quadOf port)
    let b := s.xoffBit port pri
    let held := bit (s.prt port).xoff b
    if !held && (decide (s.par P.xoffCells (8 * port + pri) < cnt) || decide (free < s.par P.pfcGlobalXoff)) then
      (s.updPort port (fun p => { p with
        xoff := p.xoff ||| 2 ^ b
        resend := p.resend.put b (s.time.mono + s.quantaNs port (s.par P.pfcQuanta port) / 2) })).sendPause port pri
          (s.par P.pfcQuanta port)
    else if held && decide (cnt ≤ s.par P.xonCells (8 * port + pri)) && decide (s.par P.pfcGlobalXoff ≤ free) then
      (s.updPort port (fun p => { p with xoff := p.xoff - 2 ^ b, resend := p.resend.put b 0 })).sendPause port pri 0
    else s

/-- Re-examines every lossless priority of a quadrant's ports after its occupancy changed. -/
def State.pfcQuad (s : State) (quad : Nat) : State :=
  s.forEach (((s.port.keys).filter (fun p => quadOf p == quad && s.par P.flowCtrl p != 0)).flatMap
    (fun p => (List.range 8).map (fun k => (p, k)))) (fun s pk => s.pfcCheck pk.1 pk.2)

/-! ### Drawing and returning cells (R196, R197, R213, R449) -/

/-- inst_cells of R449 changes. -/
def State.instDraw (s : State) (inst k : Nat) : State :=
  { s with buf := { s.buf with instCells := s.buf.instCells.upd inst (· + k) } }

/-- Draws `k` cells from the headroom of an (ingress port, priority). -/
def State.drawHead (s : State) (port pri inst k : Nat) : State :=
  { s with buf := { s.buf with headUsed := s.buf.headUsed.upd (8 * port + pri) (· + k) } }.instDraw inst k

/-- Draws `k` cells from the completion reserve of a quadrant (R197). -/
def State.drawComp (s : State) (quad k : Nat) : State :=
  { s with buf := { s.buf with compUsed := s.buf.compUsed.upd quad (· + k) } }

/-- Returns `k` drawn cells: to the headroom of the frame's (port, priority) before the shared pool (R213). -/
def State.giveBack (s : State) (inst : Nat) (pp : Option (Nat × Nat)) (k : Nat) : State :=
  let s := match pp with
    | some (p, pri) => { s with buf := { s.buf with headUsed := s.buf.headUsed.upd (8 * p + pri) (fun h => h - min k h) } }
    | none => s
  { s with buf := { s.buf with instCells := s.buf.instCells.upd inst (· - k) } }

/-! ### Cells (R185, R186) -/

/-- Cells of a bank. -/
def bankCells : Nat := 16384

/-- The 20-bit number of a cell (R185). -/
def cellNo (quad bank cell : Nat) : Nat := quad * 2 ^ 18 + bank * 2 ^ 14 + cell

/-- The numbers of the cells in use. -/
def State.usedCells (s : State) : List Nat :=
  s.cpy.flatMap (fun e => e.2.store) ++ s.fab.anchor.flatMap (fun e => e.2.held.flatMap (·.store))

/-- A free cell of a bank, sought from one of its cells on. -/
def freeCell (quad bank : Nat) (used : List Nat) : Nat → Nat → Nat
  | 0, i => cellNo quad bank (i % bankCells)
  | k + 1, i => if used.contains (cellNo quad bank (i % bankCells)) then freeCell quad bank used k (i + 1) else cellNo quad bank (i % bankCells)

/-- The bank that takes a cell: the next in rotation that has a free one (R186). -/
def freeBank (quad bank : Nat) (used : List Nat) : Nat :=
  (firstFrom 16 bank (fun b => decide ((used.filter (fun c => c / bankCells == 16 * quad + b)).length < bankCells))).getD (bank % 16)

/-- `n` free cells of a quadrant, in banks in rotation from `bank` on. Which cell of a bank is taken is left open: it is sought from where
a free value says. (DESIGN CHOICE, entry 151.) -/
def cellsFrom (quad v : Nat) : Nat → Nat → List Nat → List Nat
  | 0, _, _ => []
  | n + 1, bank, used =>
    let b := freeBank quad bank used
    let c := freeCell quad b used used.length (v / 2 ^ (4 + 14 * (n % 64)))
    c :: cellsFrom quad v n (b + 1) (c :: used)

/-- More cells for a frame: they go on in the rotation after its last cell, or begin at any bank. (DESIGN CHOICE, entry 151.) -/
def State.moreCells (s : State) (quad n : Nat) (store : List Nat) : List Nat :=
  let v := s.freeVal 1024
  store ++ cellsFrom quad v n (match store.getLast? with | some c => c / bankCells + 1 | none => v) s.usedCells

/-! ### Slot references (R277) -/

/-- Gives up one reference of a Baton slot: a REMOVING slot becomes FREE at zero (R296). -/
def KeySlot.unref (k : KeySlot) : KeySlot :=
  let r := k.refs - 1
  if k.st = 3 && r = 0 then {} else { k with refs := r }

/-- Gives up a slot reference; the use counts that pipes still hold of a slot that becomes FREE are lost (R266). (DEDUCED, entry 108.) -/
def State.slotUnref (s : State) (slot : Nat) : State :=
  let k := (s.sec.slot.at slot).unref
  let s := { s with sec := { s.sec with slot := s.sec.slot.put slot k } }
  if k.st = 0 then { s with sec := { s.sec with block := s.sec.block.keep (fun i _ => i % 32 != slot) } } else s

/-- A packet gives up its slot reference, when its verdict has been reached or it is discarded. -/
def State.pktUnref (s : State) (n : Nat) : State :=
  match (s.pkt.at n).slot with
  | some k => (s.slotUnref k).updPkt n (fun p => { p with slot := none })
  | none => s

/-! ### Life of packets and copies -/

/-- Live copies of a packet. -/
def State.copiesOf (s : State) (n : Nat) : List Nat :=
  ((s.cpy.filter (fun e => e.2.live && e.2.own.isEmpty && e.2.pkt == n)).map (·.1))

/-- Whether a punt ring entry, a queue of the GMU or a window of an Anchor still needs a packet. -/
def State.pktWanted (s : State) (n : Nat) : Bool :=
  s.host.page.any (fun e => e.2.assigned.any (fun a => a.pkt == n))
  || s.gmu.queue.any (fun e => e.2 == n)
  || s.fab.anchor.any (fun e => e.2.held.any (fun h => h.pkt == n))
  || s.pacer.ask.any (fun e => match e.2 with | some a => a.pkt == some n | none => false)

/-- Frees a packet once its tail has passed, it has left the ingress stages and nothing holds it. -/
def State.reap (s : State) (n : Nat) : State :=
  let p := s.pkt.at n
  if p.live && p.ended && decide (p.stage = .released) && p.bench.isNone && !p.hmac && p.cmac.isNone
      && (s.copiesOf n).isEmpty && !s.pktWanted n && decide (p.verdict ≠ .pending) then
    let s := s.pktUnref n
    { s with pkt := s.pkt.del n }
  else s

/-- Takes a packet out of every ingress stage: it is discarded, and freed once its tail has passed. A CMAC job of it runs to its end. -/
def State.discard (s : State) (n : Nat) : State :=
  let s := s.pktUnref n
  let s := { s with sec := { s.sec with bench := s.sec.bench.mapAll (fun _ l => l.filter (· != n)) } }
  (s.updPkt n (fun p => { p with stage := .released, verdict := if p.verdict = .pending then .none else p.verdict
                                 bench := none, hmac := false, cmac := none, sduStream := none })).reap n

/-- Frees a buffer: one that is free already is counted and recorded (R386). -/
def State.poolRelease (s : State) (pool buffer : Nat) : State :=
  let p := s.pacer.pool.at pool
  if p.owner.has buffer then
    { s with pacer := { s.pacer with pool := s.pacer.pool.put pool { p with owner := p.owner.del buffer } } }
  else (s.count Stat.poolDoubleFrees).ruleEvent 386 pool 0 [buffer]

/-- A packet is dropped wherever it is held before its copies: the buffer and the requests the Pacer holds for it go back. -/
def State.drop (s : State) (n : Nat) : State :=
  let s := match (s.pkt.at n).hbuf with
    | some h => s.poolRelease h.1 h.2
    | none => s
  let s := { s with pacer := { s.pacer with ask := s.pacer.ask.filter (fun e =>
    match e.2 with | some a => !(a.pkt == some n && !a.copy) | none => true) } }
  (s.updPkt n (fun p => { p with hbuf := none })).discard n

/-- Every request to the Pacer for a packet is given up. -/
def State.dropAsks (s : State) (n : Nat) : State :=
  { s with pacer := { s.pacer with ask := s.pacer.ask.filter (fun e => match e.2 with | some a => !(a.pkt == some n) | none => true) } }

/-- No VOQ of a relay class holds a frame. -/
def State.relayEmpty (s : State) (rc : Nat) : Bool :=
  s.buf.sub.all (fun e => decide (e.1 / 4 < 8192) || decide (e.1 / 4 % 8 ≠ rc) || e.2.all.isEmpty)

/-- The DRR list of a port, or of the fabric scheduler, drops what has become empty (R220, R338). (DEDUCED, entry 55.) -/
def State.drrDrop (s : State) (queue : Nat) : State :=
  if queue < 8192 then
    (if s.queueEmpty queue then
      { s with sched := { s.sched with active := s.sched.active.upd (queue / 16) (·.filter (· != queue % 16)) } }
    else s)
  else if s.relayEmpty (queue % 8) then
    { s with fab := { s.fab with active := s.fab.active.filter (· != queue % 8), dc := s.fab.dc.del (queue % 8) } }
  else s

/-- (ingress port, priority) of a lossless copy. -/
def State.priOf (s : State) (c : Copy) : Option (Nat × Nat) := c.pri.map (fun k => ((s.pkt.at c.pkt).port, k))

/-- Another copy of the same frame that still occupies its cells. -/
def State.sibling (s : State) (n : Nat) : Option Nat :=
  let c := s.cpy.at n
  if c.mc then (s.copiesOf c.pkt).find? (fun m => m != n && decide ((s.cpy.at m).place ≠ .spilled)) else none

/-- Takes a copy's cells off its sub-queue: those of a residue copy are on none, spilled ones are no longer on chip. -/
def State.leaveSub (s : State) (n : Nat) : State :=
  let c := s.cpy.at n
  let spilled := decide (c.place = .spilled)
  let waits := match c.place with | .residue _ => true | _ => false
  let s := s.updSub c.queue c.quad (fun q => { q with
    head := q.head.filter (· != n), middle := q.middle.filter (· != n), tail := q.tail.filter (· != n)
    occ := if spilled || waits then q.occ else q.occ - c.cells
    spilled := if spilled then q.spilled - c.cells else q.spilled })
  let s := if spilled then { s with hbm := { s.hbm with spillCells := s.hbm.spillCells - c.cells } } else s
  s.updSub c.queue c.quad (fun q => if q.middle.isEmpty then { q with head := q.head ++ q.tail, tail := [] } else q)

/-- pfc_cnt loses cells of an (ingress port, priority) (R211). -/
def State.pfcLess (s : State) (pp : Option (Nat × Nat)) (k : Nat) : State :=
  match pp with
  | some (p, pri) => { s with buf := { s.buf with pfcCnt := s.buf.pfcCnt.upd (8 * p + pri) (· - k) } }
  | none => s

/-- Returns the cells of a copy to the parts they came from, with its part of pfc_cnt, or hands them to another copy of the frame (R204,
R211, R213). -/
def State.undraw (s : State) (n : Nat) : State :=
  let c := s.cpy.at n
  match s.sibling n with
  | some m => s.updCpy m (fun d => { d with
      store := d.store ++ c.store, drawn := d.drawn + c.drawn, comp := d.comp + c.comp, pfc := d.pfc + c.pfc, fromHead := d.fromHead || c.fromHead })
  | none =>
    let s := (s.giveBack c.inst (s.priOf c) c.drawn).pfcLess (s.priOf c) c.pfc
    { s with buf := { s.buf with compUsed := s.buf.compUsed.upd c.quad (· - c.comp) } }

/-- Frees the cells of a copy, and re-examines the thresholds of its quadrant. -/
def State.freeCells (s : State) (n : Nat) : State := ((s.leaveSub n).undraw n).pfcQuad (s.cpy.at n).quad

/-- The egress port of a copy: of its relay FIFO for a copy of a VOQ. -/
def Copy.port (c : Copy) : Nat := if c.queue < 8192 then c.queue / 16 else c.rport

/-- A copy gives up the reference of the slot whose key tags it (R277). -/
def State.copyUnref (s : State) (c : Copy) : State :=
  match c.tag with
  | some k => s.slotUnref k
  | none => s

/-- Ends a copy: its cells are freed, and its packet once nothing holds it. -/
def State.endCopy (s : State) (n : Nat) : State :=
  let c := s.cpy.at n
  if !c.live then s else
    let s := (s.freeCells n).copyUnref c
    let s := { s with cpy := s.cpy.del n, buf := { s.buf with residue := s.buf.residue.filter (· != n) } }
    let s := s.drrDrop c.queue
    if c.own.isEmpty then s.reap c.pkt else s

/-- Drops copies and counts each. -/
def State.dropCopies (s : State) (l : List Nat) (st : Stat) (idx : Copy → Nat) : State :=
  s.forEach l (fun s n => (s.count st (idx (s.cpy.at n))).endCopy n)

/-! ### Joining a queue -/

/-- Largest depth of the lap (R242). -/
def State.noteDepth (s : State) (queue : Nat) : State :=
  if queue < 8192 then
    { s with buf := { s.buf with depth := s.buf.depth.upd queue (max (s.queueCells queue + s.queueSpilled queue)) } }
  else s

/-- A DRR queue, or relay class, with a waiting frame stands in its list (R220, R338). (DEDUCED, entry 55.) -/
def State.drrJoin (s : State) (queue : Nat) : State :=
  if 8192 ≤ queue then
    (if s.par P.relaySched (queue % 8) = 1 ∧ s.fab.active.contains (queue % 8) = false then
      { s with fab := { s.fab with active := s.fab.active ++ [queue % 8] } }
    else s)
  else if s.par P.schedMode queue = 1 ∧ (s.sched.active.at (queue / 16)).contains (queue % 16) = false then
    { s with sched := { s.sched with active := s.sched.active.upd (queue / 16) (· ++ [queue % 16]) } }
  else s

/-- A copy joins its sub-queue: the head segment while no middle exists, else the tail; or the middle (R208). An empty
DRR queue joins the list of its port (R220). -/
def State.joinQueue (s : State) (n : Nat) (middle : Bool) : State :=
  let c := s.cpy.at n
  let s := s.updSub c.queue c.quad (fun q =>
    if middle then { q with middle := q.middle ++ [n], occ := q.occ + c.cells }
    else if q.middle.isEmpty then { q with head := q.head ++ [n], occ := q.occ + c.cells }
    else { q with tail := q.tail ++ [n], occ := q.occ + c.cells })
  let s := if c.place = .selected then s else s.drrJoin c.queue
  s.noteDepth c.queue

/-! ### Flushes and holds (R61, R206, R214, R215) -/

/-- Copies that the egress Stride engine of a port's pipe has admitted for it: their transmission has begun (R261). -/
def Copy.begun (c : Copy) : Bool :=
  match c.place with
  | .egress _ | .sending _ => true
  | _ => false

/-- A fragment of the copy is being sent. -/
def Copy.inFlight (c : Copy) : Bool := match c.place with | .sending _ => !c.paused | _ => false

/-- Copies of a port in egress queues, in the order of their numbers. -/
def State.portCopies (s : State) (port : Nat) (p : Copy → Bool) : List Nat :=
  ((s.cpy.filter (fun e => e.2.live && e.2.queue / 16 == port && decide (e.2.queue < 8192) && p e.2)).map (·.1))

/-- The first bit of the frame has left the port, and its end has not. -/
def State.onWire (s : State) (c : Copy) : Bool :=
  match c.place with
  | .sending t => !c.paused && decide (t ≤ s.time.mono)
  | _ => false

/-- R61: frames in transmission for a port that leaves UP are lost; frames selected but not admitted return to the head
of their queues. `finish`: the MAC stops after its current frame (R72), so a frame on the wire is not lost. (DEDUCED, entry 114.) -/
def State.abortTx (s : State) (port : Nat) (finish : Bool) : State :=
  let s := s.dropCopies (s.portCopies port (fun c => c.begun && !(finish && s.onWire c))) Stat.txAborted (fun _ => 0)
  s.forEach (s.portCopies port (fun c => decide (c.place = .selected)))
    (fun s n => (s.updCpy n (fun c => { c with place := .queue, xout := none, crossed := 0 })).drrJoin (s.cpy.at n).queue)

/-- Flushes the queues of a port: every cell returns, spilled cells included (R215). -/
def State.flushPort (s : State) (port : Nat) : State :=
  let s := s.dropCopies (s.portCopies port (fun c => !c.begun)) Stat.holdFlushDrops (fun c => c.queue)
  s.updPort port (fun p => { p with hold := none, beenUp := false })

/-- R214: what a port that leaves UP, or enters DISABLED, does with its frames. `flush`: PORT_ENABLE = 0; `finish`: it leaves UP by a
commit or a re-initialisation (R72). (DEDUCED, entry 114.) -/
def State.holdPort (s : State) (port : Nat) (flush finish : Bool) : State :=
  let s := s.abortTx port finish
  let s := s.dropCopies (s.portCopies port (fun c => c.mc && !c.begun)) Stat.mcPortDownDrops (fun _ => 0)
  if flush || s.par P.portHoldLaps port = 0 then s.flushPort port
  else if (s.prt port).beenUp && (s.prt port).hold.isNone then
    (s.forEach (s.portCopies port (fun _ => true)) (fun s n => s.updCpy n (fun c => { c with eligible := false }))).updPort
      port (fun p => { p with hold := some (s.par P.portHoldLaps port) })
  else s

end Sys2Proof.Machine
end

