-- ==== Sys2Proof/Machine/Cmac.lean ====
section
/-! DEFINITION. The keys that stage 1 derives (R281), references of Baton slots (R277), and the CMAC unit: its contexts, its queue
and its suspend store (R269 to R272). -/
namespace Sys2Proof.Machine

/-! ### Derived keys (R281) -/

/-- The order n of the P-384 group (FIPS 186-5). -/
def p384Order : Nat := 0xFFFFFFFFFFFFFFFFFFFFFFFFFFFFFFFFFFFFFFFFFFFFFFFFC7634D81F4372DDF581A0DB248B0A77AECEC196ACCC52973

/-- A key of the derivation unit: the label is "XQ" and two more letters. (DESIGN CHOICE, entry 9.) -/
def derive (device : List Byte) (c d : Byte) (n : Nat) : List Byte := Crypto.kdf device [0x58#8, 0x51#8, c, d] n

/-- The keys of R281 from the device key. (DESIGN CHOICE, entry 9.) -/
def DeviceKeys.of (device : List Byte) : DeviceKeys :=
  { kek := derive device 0x56#8 0x4B#8 32
    smk := derive device 0x56#8 0x4D#8 32
    attest := beNat (derive device 0x44#8 0x41#8 48) % (p384Order - 1) + 1
    lastGood := derive device 0x4C#8 0x47#8 32
    boot := derive device 0x42#8 0x54#8 32 }

/-- Stage 1 of a boot: every key goes to its unit. (DESIGN CHOICE, entry 9.) -/
def State.deriveKeys (s : State) : State :=
  { s with sec := { s.sec with keys := DeviceKeys.of (beBytes 32 (Config.vaultKey 0).toNat) } }

/-! ### Slot references (R277) -/

/-- Changes one slot. -/
def State.updKey (s : State) (slot : Nat) (f : KeySlot → KeySlot) : State :=
  { s with sec := { s.sec with slot := s.sec.slot.upd slot f } }

/-- Finding a slot takes a reference, which updates AGE. -/
def State.takeRef (s : State) (slot : Nat) : State :=
  s.updKey slot (fun k => { k with refs := k.refs + 1, age := BitVec.ofNat 32 s.time.mono })

/-- Gives up the slot reference of a job. -/
def State.jobUnref (s : State) (j : CmacJob) : State :=
  match j.key with
  | some k => s.slotUnref k
  | none => s

/-! ### The CMAC unit (R269 to R271) -/

/-- Jobs of the unit by number. -/
def State.cmacJobs (s : State) : List (Nat × CmacJob) := s.sec.cmac.filterMap (fun e => e.2.map (fun j => (e.1, j)))

/-- Contexts an engine uses. (DEDUCED, entry 74.) -/
def State.cmacBusy (s : State) (engine : Nat) : Nat :=
  (s.cmacJobs.filter (fun j => j.2.st == 1 && j.2.engine == engine)).length

/-- n contexts are free, and the unit is not being re-initialised (R467). -/
def State.cmacRoom (s : State) (n : Nat) : Bool :=
  decide (s.cmacBusy 0 + s.cmacBusy 1 + n ≤ 320) && !s.fault.funcs.any (fun f => f.1 == 7)

/-- A context is free. -/
def State.cmacFree (s : State) : Bool := s.cmacRoom 1

/-- Jobs that wait, or that the suspend store holds. -/
def State.cmacCount (s : State) (st : Nat) (p : CmacJob → Bool) : Nat := (s.cmacJobs.filter (fun j => j.2.st == st && p j.2)).length

/-- A frame job. -/
def CmacWork.isFrame : CmacWork → Bool
  | .frame _ _ => true
  | _ => false

/-- Writes a job. -/
def State.setJob (s : State) (n : Nat) (j : Option CmacJob) : State := { s with sec := { s.sec with cmac := s.sec.cmac.put n j } }

/-- The round keys that a frame job copies from the replica of its ingress pipe (R275). -/
def State.roundsOf (s : State) (j : CmacJob) : List (List Byte) :=
  match j.key, j.work with
  | some k, .frame _ pipe => ((s.sec.slot.at k).replica.at pipe).rounds
  | _, _ => j.rounds

/-- A job takes a context of the engine with more free ones; the lower engine wins a tie. One that resumes has its round keys. -/
def State.startCmac (s : State) (n : Nat) (j : CmacJob) : State :=
  let e := if s.cmacBusy 1 < s.cmacBusy 0 then 1 else 0
  let s := s.setJob n (some { j with
    st := 1, engine := e, order := s.sec.nextJob, rounds := if j.rounds.isEmpty then s.roundsOf j else j.rounds })
  { s with sec := { s.sec with nextJob := s.sec.nextJob + 1 } }

/-- The job a waiting job of `level` suspends: the most recently started of the lowest level present below it. -/
def State.suspendable (s : State) (level : Nat) : Option (Nat × CmacJob) :=
  let run := s.cmacJobs.filter (fun j => j.2.st == 1 && decide (level < j.2.level))
  run.foldl (fun best j => match best with
    | none => some j
    | some b => if b.2.level < j.2.level ∨ (b.2.level = j.2.level ∧ b.2.order < j.2.order) then some j else some b) none

/-- A job is submitted: it runs, suspends a job of a lower level, or waits. None: the queue of 8,192 frame jobs is full, which refuses no
other job. (DEDUCED, entry 74.) -/
def State.submitCmac (s : State) (j : CmacJob) : State × Option Nat :=
  let n := s.sec.nextJob
  let s := { s with sec := { s.sec with nextJob := n + 1 } }
  if s.cmacFree then (s.startCmac n j, some n)
  else
    match (s.suspendable j.level).filter (fun _ => decide (s.cmacCount 2 (fun _ => true) < 1024)) with
    | some (m, v) => ((s.setJob m (some { v with st := 2, order := n })).startCmac n j, some n)
    | none =>
      if j.work.isFrame && decide (8192 ≤ s.cmacCount 0 (fun j => j.work.isFrame)) then (s, none)
      else (s.setJob n (some { j with order := n }), some n)

/-- The job that takes a freed context: by level, a suspended one before a waiting one of its level, then by order (R271).
(DEDUCED, entry 74.) -/
def State.nextCmac (s : State) : Option (Nat × CmacJob) :=
  (s.cmacJobs.filter (fun j => j.2.st != 1)).foldl (fun best j => match best with
    | none => some j
    | some b =>
      let k := fun (x : CmacJob) => (x.level, if x.st = 2 then 0 else 1, x.order)
      let (a1, a2, a3) := k j.2
      let (b1, b2, b3) := k b.2
      if a1 < b1 ∨ (a1 = b1 ∧ (a2 < b2 ∨ (a2 = b2 ∧ a3 < b3))) then some j else some b) none

/-- A context that is free goes to the next job. -/
def State.feedCmac (s : State) : State :=
  if s.cmacFree then
    match s.nextCmac with
    | some (m, v) => s.startCmac m v
    | none => s
  else s

/-- A job leaves the unit, and its context goes to the next job; with it goes its slot reference (R277). -/
def State.leaveCmac (s : State) (n : Nat) (j : CmacJob) : State := ((s.setJob n none).jobUnref j).feedCmac

/-- The CMAC unit is re-initialised (R467): frame jobs fail with CMAC_OVERLOAD, row 8 of R260, and mailbox and digest jobs are requeued. -/
def State.resetCmac (s : State) : State :=
  s.forEach s.cmacJobs (fun s e =>
    match e.2.work with
    | .frame pkt _ =>
      let s := (s.setJob e.1 none).jobUnref e.2
      if (s.pkt.at pkt).cmac = some e.1 then s.updPkt pkt (fun p => { p with cmac := none, verdict := .fail 8 }) else s
    | _ => s.setJob e.1 (some { e.2 with st := 0 }))

/-- The unit serves again: the requeued jobs take contexts in order. -/
def State.restartCmac (s : State) : State := s.forEach (s.cmacJobs.filter (fun j => j.2.st == 0)) (fun s _ => s.feedCmac)

end Sys2Proof.Machine
end

