-- ==== Sys2Proof/Machine/Operands.lean ====
section
/-! DEFINITION. The operand side of the mailbox commands: status codes (R430), opcodes with class, length and scope (R419,
R428), and the form of every payload (R420 to R424). -/
namespace Sys2Proof.Machine

/-! ### Status codes (R430) -/

def E.format : Nat := 0x0001
def E.session : Nat := 0x0002
def E.poolEmpty : Nat := 0x0003
def E.dma : Nat := 0x0004
def E.unsigned : Nat := 0x0005
def E.replay : Nat := 0x0006
def E.opcode : Nat := 0x0007
def E.scope : Nat := 0x0008
def E.cosign : Nat := 0x0009
def E.notOwner : Nat := 0x000A
def E.range : Nat := 0x0010
def E.busy : Nat := 0x0011
def E.inUse : Nat := 0x0012
def E.notFound : Nat := 0x0013
def E.duplicate : Nat := 0x0014
def E.tableFull : Nat := 0x0015
def E.partial_ : Nat := 0x0016
def E.state : Nat := 0x0017
def E.noJob : Nat := 0x0020
def E.aborted : Nat := 0x0021
def E.pacerReset : Nat := 0x0022
def E.instanceReset : Nat := 0x0023
def E.cert : Nat := 0x0030
def E.rootRevoked : Nat := 0x0031
def E.noContext : Nat := 0x0032
def E.lastRoot : Nat := 0x0033
def E.entropy : Nat := 0x0034
def E.signature : Nat := 0x0035
def E.imageFormat : Nat := 0x0036
def E.noDebug : Nat := 0x0037
def E.keyWrap : Nat := 0x0038
def E.portConflict : Nat := 0x0040
def E.gateLate : Nat := 0x0041
def E.noRollback : Nat := 0x0042
def E.notStaged : Nat := 0x0043

/-! ### Payload forms -/

/-- The form of a request payload (R420). -/
inductive PayloadForm where
  /-- a fixed number of bytes -/
  | fixed (n : Nat)
  /-- COUNT, rsv, then COUNT entries of n bytes (R422) -/
  | batch (n : Nat)
  /-- COUNT, rsv, then COUNT elements (R424) -/
  | elements
  /-- CFG.GET -/
  | get
  /-- KIND, rsv, INDEX and whole pool words -/
  | words
  /-- GATE.STAGE: a header and GL_LEN entries -/
  | gate
  /-- a header of n bytes and a segment or image -/
  | segment (n : Nat)
  /-- SESSION.OPEN (R403) -/
  | open_
deriving DecidableEq, Repr

/-- One row of the catalogue. -/
structure OpInfo where
  op : Nat
  critical : Bool
  /-- 0 N, 1 Y, 2 V (R419) -/
  long : Nat
  /-- accepted only in slots of instance 0 -/
  opOnly : Bool
  form : PayloadForm
  /-- a reserved field, offset and size: in each entry of a batch, else in the payload -/
  rsv : Nat × Nat := (0, 0)
deriving DecidableEq, Repr

def Op.sessionDeviceId : Nat := 0x0101
def Op.sessionOpen : Nat := 0x0102
def Op.sessionClose : Nat := 0x0103
def Op.sessionPoll : Nat := 0x0104
def Op.sessionAbort : Nat := 0x0105
def Op.sessionRootProgram : Nat := 0x0110
def Op.sessionRootRevoke : Nat := 0x0111
def Op.cfgSet : Nat := 0x0201
def Op.cfgGet : Nat := 0x0202
def Op.cfgRestage : Nat := 0x0203
def Op.cfgValidate : Nat := 0x0204
def Op.cfgCommit : Nat := 0x0205
def Op.cfgConfirm : Nat := 0x0206
def Op.cfgRollback : Nat := 0x0207
def Op.cfgRollbackDisable : Nat := 0x0208
def Op.cfgStatus : Nat := 0x0209
def Op.timeSetSeconds : Nat := 0x0210
def Op.timeRead : Nat := 0x0211
def Op.tblInsert : Nat := 0x0301
def Op.tblDelete : Nat := 0x0302
def Op.tblLookup : Nat := 0x0303
def Op.tblDump : Nat := 0x0304
def Op.tblFlush : Nat := 0x0305
def Op.objWrite : Nat := 0x0310
def Op.objDelete : Nat := 0x0311
def Op.objRead : Nat := 0x0312
def Op.streamReset : Nat := 0x0313
def Op.ruleInsert : Nat := 0x0401
def Op.ruleDelete : Nat := 0x0402
def Op.ruleSetResult : Nat := 0x0403
def Op.ruleRead : Nat := 0x0404
def Op.pfxInsert : Nat := 0x0410
def Op.pfxDelete : Nat := 0x0411
def Op.pfxLookup : Nat := 0x0412
def Op.portStatus : Nat := 0x0501
def Op.portPtpTsRead : Nat := 0x0502
def Op.gateStage : Nat := 0x0601
def Op.gateRead : Nat := 0x0602
def Op.schedProfileSelect : Nat := 0x0603
def Op.keyInstall : Nat := 0x0701
def Op.keyRemove : Nat := 0x0702
def Op.keyMakeCurrent : Nat := 0x0703
def Op.keyStatus : Nat := 0x0704
def Op.gmuRead : Nat := 0x0801
def Op.gmuTriggerStatus : Nat := 0x0802
def Op.gmuCaptureList : Nat := 0x0803
def Op.gmuCaptureRead : Nat := 0x0804
def Op.gmuCaptureRelease : Nat := 0x0805
def Op.fabStatus : Nat := 0x0901
def Op.fabLsdbRead : Nat := 0x0902
def Op.fabPathsetRead : Nat := 0x0903
def Op.instStatus : Nat := 0x0A01
def Op.instReset : Nat := 0x0A02
def Op.instDelete : Nat := 0x0A03
def Op.instFreeze : Nat := 0x0A04
def Op.instSave : Nat := 0x0A05
def Op.instRestore : Nat := 0x0A06
def Op.instResume : Nat := 0x0A07
def Op.faultList : Nat := 0x0B01
def Op.faultStatus : Nat := 0x0B02
def Op.faultAck : Nat := 0x0B03
def Op.faultPolicySet : Nat := 0x0B04
def Op.logRead : Nat := 0x0B10
def Op.ctrSelect : Nat := 0x0C01
def Op.ctrRead : Nat := 0x0C02
def Op.ctrClear : Nat := 0x0C03
def Op.ctrSplitsRead : Nat := 0x0C04
def Op.ctrStatRead : Nat := 0x0C05
def Op.imgFwLoad : Nat := 0x0D01
def Op.imgFwActivate : Nat := 0x0D02
def Op.imgStrideLoad : Nat := 0x0D03
def Op.imgStrideSwitch : Nat := 0x0D04
def Op.imgAppletLoad : Nat := 0x0D05
def Op.imgAppletStop : Nat := 0x0D06
def Op.imgStatus : Nat := 0x0D07
def Op.diagDebugUnlock : Nat := 0x0E01
def Op.diagDebugEnd : Nat := 0x0E02
def Op.diagThreadCtl : Nat := 0x0E03
def Op.diagStrideTrace : Nat := 0x0E04
def Op.diagLoopback : Nat := 0x0E05
def Op.diagReset : Nat := 0x0E06

/-- Rows of the catalogue (R428). -/
def opRows0 : List OpInfo := [
  ⟨Op.sessionDeviceId, false, 0, false, .fixed 0, (0, 0)⟩,
  ⟨Op.sessionOpen, false, 0, false, .open_, (0, 0)⟩,
  ⟨Op.sessionClose, false, 0, false, .fixed 0, (0, 0)⟩,
  ⟨Op.sessionPoll, false, 0, false, .fixed 8, (0, 0)⟩,
  ⟨Op.sessionAbort, false, 0, false, .fixed 8, (0, 0)⟩,
  ⟨Op.sessionRootProgram, true, 0, true, .fixed 49, (0, 0)⟩,
  ⟨Op.sessionRootRevoke, true, 0, true, .fixed 1, (0, 0)⟩,
  ⟨Op.cfgSet, false, 2, false, .elements, (0, 0)⟩,
  ⟨Op.cfgGet, false, 0, false, .get, (0, 0)⟩,
  ⟨Op.cfgRestage, false, 2, true, .fixed 0, (0, 0)⟩,
  ⟨Op.cfgValidate, false, 2, true, .fixed 0, (0, 0)⟩,
  ⟨Op.cfgCommit, false, 1, true, .fixed 8, (1, 1)⟩]

/-- Rows of the catalogue (R428). -/
def opRows1 : List OpInfo := [
  ⟨Op.cfgConfirm, false, 0, true, .fixed 2, (0, 0)⟩,
  ⟨Op.cfgRollback, false, 1, true, .fixed 8, (1, 3)⟩,
  ⟨Op.cfgRollbackDisable, true, 0, true, .fixed 1, (0, 0)⟩,
  ⟨Op.cfgStatus, false, 0, false, .fixed 0, (0, 0)⟩,
  ⟨Op.timeSetSeconds, false, 0, true, .fixed 8, (6, 2)⟩,
  ⟨Op.timeRead, false, 0, false, .fixed 0, (0, 0)⟩,
  ⟨Op.tblInsert, false, 2, false, .batch 32, (2, 6)⟩,
  ⟨Op.tblDelete, false, 2, false, .batch 24, (1, 7)⟩,
  ⟨Op.tblLookup, false, 0, false, .fixed 24, (1, 7)⟩,
  ⟨Op.tblDump, false, 2, false, .fixed 16, (3, 1)⟩,
  ⟨Op.tblFlush, false, 1, false, .fixed 4, (0, 0)⟩,
  ⟨Op.objWrite, false, 0, false, .words, (1, 3)⟩]

/-- Rows of the catalogue (R428). -/
def opRows2 : List OpInfo := [
  ⟨Op.objDelete, false, 1, false, .fixed 8, (1, 3)⟩,
  ⟨Op.objRead, false, 0, false, .fixed 8, (1, 3)⟩,
  ⟨Op.streamReset, false, 0, false, .fixed 2, (0, 0)⟩,
  ⟨Op.ruleInsert, false, 2, false, .batch 96, (4, 4)⟩,
  ⟨Op.ruleDelete, false, 2, false, .batch 4, (0, 0)⟩,
  ⟨Op.ruleSetResult, false, 0, false, .fixed 16, (4, 4)⟩,
  ⟨Op.ruleRead, false, 0, false, .fixed 4, (0, 0)⟩,
  ⟨Op.pfxInsert, false, 2, false, .batch 32, (4, 4)⟩,
  ⟨Op.pfxDelete, false, 2, false, .batch 24, (3, 5)⟩,
  ⟨Op.pfxLookup, false, 0, false, .fixed 24, (2, 6)⟩,
  ⟨Op.portStatus, false, 0, false, .fixed 2, (0, 0)⟩,
  ⟨Op.portPtpTsRead, false, 0, false, .fixed 3, (0, 0)⟩]

/-- Rows of the catalogue (R428). -/
def opRows3 : List OpInfo := [
  ⟨Op.gateStage, false, 0, false, .gate, (0, 0)⟩,
  ⟨Op.gateRead, false, 0, false, .fixed 4, (0, 0)⟩,
  ⟨Op.schedProfileSelect, false, 0, false, .fixed 72, (2, 2)⟩,
  ⟨Op.keyInstall, false, 0, false, .fixed 48, (3, 5)⟩,
  ⟨Op.keyRemove, false, 0, false, .fixed 3, (0, 0)⟩,
  ⟨Op.keyMakeCurrent, false, 0, false, .fixed 8, (0, 0)⟩,
  ⟨Op.keyStatus, false, 0, false, .fixed 3, (0, 0)⟩,
  ⟨Op.gmuRead, false, 0, false, .fixed 4, (1, 1)⟩,
  ⟨Op.gmuTriggerStatus, false, 0, false, .fixed 2, (0, 0)⟩,
  ⟨Op.gmuCaptureList, false, 0, false, .fixed 0, (0, 0)⟩,
  ⟨Op.gmuCaptureRead, false, 2, false, .fixed 12, (1, 3)⟩,
  ⟨Op.gmuCaptureRelease, false, 0, false, .fixed 1, (0, 0)⟩]

/-- Rows of the catalogue (R428). -/
def opRows4 : List OpInfo := [
  ⟨Op.fabStatus, false, 0, false, .fixed 0, (0, 0)⟩,
  ⟨Op.fabLsdbRead, false, 2, true, .fixed 4, (0, 0)⟩,
  ⟨Op.fabPathsetRead, false, 0, true, .fixed 2, (0, 0)⟩,
  ⟨Op.instStatus, false, 0, false, .fixed 1, (0, 0)⟩,
  ⟨Op.instReset, false, 0, false, .fixed 1, (0, 0)⟩,
  ⟨Op.instDelete, true, 1, true, .fixed 1, (0, 0)⟩,
  ⟨Op.instFreeze, false, 0, true, .fixed 8, (2, 2)⟩,
  ⟨Op.instSave, false, 1, true, .fixed 4, (1, 1)⟩,
  ⟨Op.instRestore, false, 1, true, .segment 6, (1, 1)⟩,
  ⟨Op.instResume, false, 0, true, .fixed 8, (2, 2)⟩,
  ⟨Op.faultList, false, 0, false, .fixed 0, (0, 0)⟩,
  ⟨Op.faultStatus, false, 0, false, .fixed 2, (0, 0)⟩]

/-- Rows of the catalogue (R428). -/
def opRows5 : List OpInfo := [
  ⟨Op.faultAck, false, 0, false, .fixed 2, (0, 0)⟩,
  ⟨Op.faultPolicySet, true, 0, true, .fixed 4, (0, 0)⟩,
  ⟨Op.logRead, false, 2, false, .fixed 12, (1, 3)⟩,
  ⟨Op.ctrSelect, false, 0, false, .fixed 8, (5, 3)⟩,
  ⟨Op.ctrRead, false, 0, false, .fixed 4, (0, 0)⟩,
  ⟨Op.ctrClear, false, 0, false, .fixed 4, (0, 0)⟩,
  ⟨Op.ctrSplitsRead, false, 0, false, .fixed 4, (0, 0)⟩,
  ⟨Op.ctrStatRead, false, 0, false, .fixed 8, (2, 2)⟩,
  ⟨Op.imgFwLoad, true, 1, true, .segment 4, (0, 0)⟩,
  ⟨Op.imgFwActivate, true, 0, true, .fixed 0, (0, 0)⟩,
  ⟨Op.imgStrideLoad, true, 1, true, .segment 8, (1, 3)⟩,
  ⟨Op.imgStrideSwitch, true, 0, true, .fixed 8, (1, 3)⟩]

/-- Rows of the catalogue (R428). -/
def opRows6 : List OpInfo := [
  ⟨Op.imgAppletLoad, true, 1, true, .segment 6, (0, 0)⟩,
  ⟨Op.imgAppletStop, true, 0, true, .fixed 2, (0, 0)⟩,
  ⟨Op.imgStatus, false, 0, false, .fixed 0, (0, 0)⟩,
  ⟨Op.diagDebugUnlock, true, 0, true, .fixed 8, (1, 3)⟩,
  ⟨Op.diagDebugEnd, false, 0, true, .fixed 0, (0, 0)⟩,
  ⟨Op.diagThreadCtl, false, 0, true, .fixed 4, (3, 1)⟩,
  ⟨Op.diagStrideTrace, false, 0, true, .fixed 3, (0, 0)⟩,
  ⟨Op.diagLoopback, false, 0, false, .fixed 4, (3, 1)⟩,
  ⟨Op.diagReset, true, 0, true, .fixed 4, (0, 0)⟩]

/-- The catalogue (R428). (DEDUCED, entry 105.) -/
def opRows : List OpInfo := opRows0 ++ opRows1 ++ opRows2 ++ opRows3 ++ opRows4 ++ opRows5 ++ opRows6

/-- The row of an opcode: none for an opcode the catalogue does not list (R418). -/
def opInfo (op : Nat) : Option OpInfo := opRows.find? (fun r => r.op == op)

/-- Bytes from an offset are 0. -/
def zeroAt (l : List Byte) (off len : Nat) : Bool := leAt l off len == 0

/-- The bytes of one element after PARAM_ID, INDEX and LEN: VALUE padded to a multiple of 8 of the whole (R424). -/
def elementSize (len : Nat) : Nat := ceilDiv (8 + len) 8 * 8

/-- Splits `n` elements off a payload: (PARAM_ID, INDEX, VALUE); none when they do not fit. -/
def elementsFrom : Nat → List Byte → Option (List (Nat × Nat × List Byte))
  | 0, l => if l.isEmpty then some [] else none
  | n + 1, l =>
    let len := leAt l 6 2
    if 1 ≤ len ∧ len ≤ 128 ∧ elementSize len ≤ l.length ∧ zeroAt l (8 + len) (elementSize len - 8 - len) = true then
      (elementsFrom n (l.drop (elementSize len))).map (fun r => (leAt l 0 2, leAt l 2 4, slice l 8 len) :: r)
    else none

/-- COUNT of a batch command. -/
def batchCount (l : List Byte) : Nat := leAt l 0 2

/-- The entries of a batch of `n`-byte entries. -/
def batchEntries (n : Nat) (l : List Byte) : List (List Byte) :=
  (List.range (batchCount l)).map (fun i => slice l (8 + n * i) n)

/-- Check 1 of R408 on a payload: its length and its reserved fields. -/
def OpInfo.formatOk (r : OpInfo) (l : List Byte) : Bool :=
  match r.form with
  | .fixed n => l.length == n && zeroAt l r.rsv.1 r.rsv.2
  | .batch n => decide (8 ≤ l.length) && zeroAt l 2 6 && l.length == 8 + n * batchCount l
      && (batchEntries n l).all (fun e => zeroAt e r.rsv.1 r.rsv.2)
  | .elements => decide (8 ≤ l.length) && zeroAt l 2 6 && (elementsFrom (batchCount l) (l.drop 8)).isSome
  | .get => decide (8 ≤ l.length) && zeroAt l 1 1 && zeroAt l 4 4 && l.length == 8 + 8 * leAt l 2 2
      && (List.range (leAt l 2 2)).all (fun i => zeroAt l (14 + 8 * i) 2)
  | .words => decide (8 < l.length) && (l.length - 8) % 24 == 0 && zeroAt l 1 3
  | .gate => decide (24 ≤ l.length) && zeroAt l 6 2 && zeroAt l 18 2 && l.length == 24 + 12 * leAt l 4 2
  | .segment n => decide (n ≤ l.length) && zeroAt l r.rsv.1 r.rsv.2
  | .open_ => decide (131 ≤ l.length) && decide (1 ≤ leAt l 129 2) && decide (leAt l 129 2 ≤ 8192)
      && l.length == 131 + leAt l 129 2 + 96

/-- The range of COUNT of a batch command (R428). -/
def batchMax (op : Nat) : Nat :=
  if op = Op.cfgSet then 4096 else if op = Op.ruleInsert then 512 else 2048

/-- A batch result (R422): APPLIED, FAILED, then entry and status of each of the first 16 failures. -/
def batchResult (applied : Nat) (failed : List (Nat × Nat)) : List Byte :=
  leBytes 2 applied ++ leBytes 2 failed.length ++ leBytes 4 0
    ++ (failed.take 16).flatMap (fun f => leBytes 2 f.1 ++ leBytes 2 f.2)

end Sys2Proof.Machine
end

