-- ==== Sys2Proof/Machine/Links.lean ====
section
/-! DEFINITION. What becomes of a port's queues, shapers, timers and relay FIFOs when its link state changes (R56, R61,
R70, R72, R214, R224, R225, R335). -/
namespace Sys2Proof.Machine

/-! ### Ramps (R223 to R225) -/

/-- The queue is in a ramp. -/
def QState.inRamp (q : QState) : Bool := q.startup.isSome || q.recovery.isSome || q.test

/-- A ramp begins: the buckets are set to 0 unless the queue is in one (R225). -/
def QState.ramp (q : QState) (f : QState → QState) : QState := f (if q.inRamp then q else { q with tc := 0, tp := 0 })

/-- The state after a ramp's end: credit is 0 once the last ramp has ended (R225). -/
def QState.settle (was q : QState) : QState := if was.inRamp && !q.inRamp then { q with credit := 0 } else q

/-- Changes the scheduler state of one queue. -/
def State.updQ (s : State) (queue : Nat) (f : QState → QState) : State :=
  { s with sched := { s.sched with q := s.sched.q.upd queue f } }

/-- Every queue of a port begins a ramp. -/
def State.rampPort (s : State) (port : Nat) (f : QState → QState) : State :=
  s.forEach (List.range 16) (fun s c => s.updQ (16 * port + c) (·.ramp f))

/-- The start-up ramp: it ends at order 9 of the 64th boundary after link up (R224). -/
def State.startupRamp (s : State) (port : Nat) : State := s.rampPort port (fun q => { q with startup := some 64 })

/-- The recovery ramp of RECOV_RAMP_LAPS boundaries: the later end applies. -/
def State.recoveryRamp (s : State) (port : Nat) : State :=
  s.rampPort port (fun q => { q with recovery := some (max (q.recovery.getD 0) (s.par P.recovRampLaps)) })

/-- Some queue of the port is in a ramp. -/
def State.portRamp (s : State) (port : Nat) : Bool := (List.range 16).any (fun c => (s.sched.q.at (16 * port + c)).inRamp)

/-! ### Relay transmit FIFOs (R335, R339) -/

/-- Places a copy in the FIFO of the next member of its destination's path set, or discards it when there is none. -/
def State.respray (s : State) (n : Nat) : State :=
  let c := s.cpy.at n
  let voq := c.queue - 8192
  match s.fab.path.at (voq / 8) with
  | [] => (s.count Stat.fabricUnreachable).endCopy n
  | m :: ms =>
    let set := m :: ms
    let port := set.getD (s.fab.ptr.at voq % set.length) m
    let s := { s with fab := { s.fab with ptr := s.fab.ptr.upd voq (· + 1)
                                          txfifo := s.fab.txfifo.upd (8 * port + voq % 8) (· ++ [n]) } }
    s.updCpy n (fun c => { c with rport := port })

/-- R335: a relay port leaves every path set, its adjacency ends, the descriptors in its FIFOs move on in order, and the
frame in transmission is lost by R61, but for the current frame where the MAC stops after it (R72). (DEDUCED, entry 114.) -/
def State.relayDown (s : State) (port : Nat) (finish : Bool) : State :=
  let s := { s with fab := { s.fab with
    path := s.fab.path.mapAll (fun _ l => l.filter (· != port)), adj := s.fab.adj.del port, stale := true, lsaDue := true } }
  let s := s.dropCopies (((s.cpy.filter (fun e => e.2.live && decide (8192 ≤ e.2.queue) && e.2.rport == port && e.2.begun && !(finish && s.onWire e.2))).map
    (·.1))) Stat.txAborted (fun _ => 0)
  let sel := (s.cpy.filter (fun e => e.2.live && decide (8192 ≤ e.2.queue) && e.2.rport == port && decide (e.2.place = .selected))).map (·.1)
  let s := s.forEach sel (fun s n => { s with
    cpy := s.cpy.upd n (fun c => { c with place := .txfifo })
    fab := { s.fab with txfifo := s.fab.txfifo.upd (8 * port + (s.cpy.at n).queue % 8) (n :: ·) } })
  s.forEach (List.range 8) (fun s k =>
    let rc := 7 - k
    let l := s.fab.txfifo.at (8 * port + rc)
    let s := { s with fab := { s.fab with txfifo := s.fab.txfifo.del (8 * port + rc) } }
    s.forEach l (fun s n => s.respray n))

/-! ### Link transitions (R72) -/

/-- What every departure from UP clears: received pause timers (R70), XOFF state, the loss filter, preemption. -/
def Port.closed (p : Port) : Port :=
  { p with pause := [], xoff := 0, resend := [], loss := none, verified := false, attempts := 0, verifyAt := 0 }

/-- Packets that a port is receiving: their tail has not passed. -/
def State.receiving (s : State) (port : Nat) : List Nat :=
  ((s.pkt.filter (fun e => e.2.live && e.2.port == port && !e.2.ended)).map (·.1))

/-- A frame has no more than `len` bytes, and copies of it that have begun end there. -/
def State.endAt (s : State) (n len : Nat) : State :=
  let more := (s.pkt.at n).rx.bytes.length - len
  let s := s.updPkt n (fun p => { p with rx := { p.rx with bytes := p.rx.bytes.take len } })
  s.forEach ((s.copiesOf n).filter (fun k => (s.cpy.at k).begun)) (fun s k => s.updCpy k (fun c => { c with out := c.out.take (c.out.length - more) }))

/-- A frame in reception is cut off by loss of lock: what has arrived of it is all there is (R60). (DEDUCED, entry 137.) -/
def State.cutFrame (s : State) (n : Nat) : State :=
  let p := s.pkt.at n
  (s.endAt n ((s.time.mono - p.arrived) * s.cfg.active.rate p.port / 8)).updPkt n (fun p => { p with rx := { p.rx with cut := true } })

/-- What a link that goes down does with the frames its port is receiving: a partial preemptable frame is discarded and counted (R65),
any other is cut off (R60). -/
def State.loseRx (s : State) (port : Nat) : State :=
  s.forEach (s.receiving port) (fun s n =>
    if (s.pkt.at n).rx.preempt then
      let s := (s.count Stat.rxAssemblyErrors).forEach (s.copiesOf n) State.endCopy
      ((s.updPkt n (fun p => { p with ended := true, bad := true, learn := none })).dropAsks n).drop n
    else if (s.pkt.at n).rx.cut then s else s.cutFrame n)

/-- What a port leaving UP does with the frames it receives and sends, its relay FIFOs and its learned entries (R60, R65, R137, R214, R335).
`flush`: PORT_ENABLE = 0; `finish`: it leaves UP by a commit or a re-initialisation. (DEDUCED, entries 50, 114.) -/
def State.leaveUp (s : State) (port : Nat) (flush finish : Bool) : State :=
  let wasUp := s.isUp port
  let s := (s.loseRx port).updPort port (fun p => { p.closed with link := .acquire })
  let s := if s.parOn P.portRole port then s.relayDown port finish else s.holdPort port flush finish
  if wasUp && s.parOn P.flushOnDown port && !s.learn.flushing.contains port then
    { s with learn := { s.learn with flushing := s.learn.flushing ++ [port] } }
  else s

/-- A port enters DISABLED, with its cause: 0 PORT_ENABLE = 0, 1 the change of R56, 2 a re-initialisation (R72). (DEDUCED, entry 114.) -/
def State.disablePort (s : State) (port cause : Nat) : State :=
  let s := (s.leaveUp port (cause = 0) true).updPort port (fun p => { p with link := .disabled, train := none, advert := none })
  s.ruleEvent 72 port 2 [cause]

/-- A port in ACQUIRE starts to negotiate and to train: it advertises its mode of R55 and FEC_MODE alone, and training is given 500 ms
(R71). -/
def State.negotiate (s : State) (port : Nat) : State :=
  s.updPort port (fun p => { p with
    link := .acquire
    train := if s.parOn P.trainEnable port then some (500000000 + s.time.mono) else none
    advert := if s.parOn P.anEnable port then some (s.par P.portSpeed port, s.par P.laneRate port, s.par P.fecMode port) else none })

/-- A port leaves DISABLED: auto-negotiation, training or CDR acquisition start (R71, R72). -/
def State.acquirePort (s : State) (port : Nat) : State :=
  if s.parOn P.portEnable port && decide ((s.prt port).link = .disabled) then
    (s.updPort port (fun p => { p with locks := 0, remote := false })).negotiate port
  else s

/-- A port goes UP: MAC transmit opens, HOLD ends, the start-up ramp begins, no class is paused, verify begins, and XOFF is
sent for every priority still above its threshold (R63, R70, R72, R215, R224). The first verify mPacket goes out one VERIFY_TIME after
link up. (DEDUCED, entry 50; DESIGN CHOICE, entry 138.) -/
def State.raisePort (s : State) (port : Nat) : State :=
  let s := (s.updPort port Port.closed).updPort port (fun p => { p with
    link := .up, hold := none, beenUp := true, train := none
    verified := !s.parOn P.verifyEnable port
    verifyAt := if s.parOn P.preemptEnable port && s.parOn P.verifyEnable port then s.time.mono + 1000000 * s.par P.verifyTime port else 0 })
  let s := (s.ruleEvent 72 port 0).startupRamp port
  s.forEach (List.range 8) (fun s k => s.pfcCheck port k)

/-- The link of a port goes down after LOSS_FILTER: link down is recorded (R72). (DEDUCED, entry 50.) -/
def State.dropLink (s : State) (port : Nat) : State :=
  ((s.leaveUp port false false).negotiate port).ruleEvent 72 port 1

/-! ### Pipes (R467) -/

/-- Packets in the ingress stages of a pipe. -/
def State.pipePackets (s : State) (pipe : Nat) : List Nat :=
  ((s.pkt.filter (fun e => e.2.live && pipeOf e.2.port == pipe && decide (e.2.stage ≠ .released))).map (·.1))

/-- Enabled ports of a pipe. -/
def State.pipePorts (s : State) (pipe : Nat) : List Nat :=
  ((List.range 32).map (fun i => 32 * pipe + i)).filter (fun p => s.parOn P.portEnable p)

/-- Re-initialisation of a pipe: its packets are lost, its engines, classifier and scheduler are reset, and its enabled
ports enter DISABLED (R467). -/
def State.resetPipe (s : State) (pipe : Nat) : State :=
  let s := s.forEach (s.pipePackets pipe) (fun s n => s.discard n)
  let s := { s with
    learn := { s.learn with fifo := s.learn.fifo.del pipe }
    stride := { s.stride with
      halted := (s.stride.halted.del (2 * pipe)).del (2 * pipe + 1), trace := (s.stride.trace.del (2 * pipe)).del (2 * pipe + 1) }
    sched := { s.sched with
      ptr := s.sched.ptr.del pipe
      q := s.sched.q.mapAll (fun k q => if k / 512 = pipe then { q with credit := 0, dc := 0, tc := 0, tp := 0 } else q) } }
  s.forEach (s.pipePorts pipe) (fun s p => s.disablePort p 2)

end Sys2Proof.Machine
end

