-- ==== Sys2Proof/Machine/Pools.lean ====
section
/-! DEFINITION. Buffer pools of the Pacer: what one request takes, and what a refusal leads to (R385 to R389). -/
namespace Sys2Proof.Machine

/-- The quota of a requester in a pool (R387). -/
def State.quota (s : State) (req pool : Nat) : Nat :=
  match req with
  | 0 => s.par P.quotaSlowPath pool
  | 1 => s.par P.quotaMailbox pool
  | 2 => s.par P.quotaGmu pool
  | 3 => s.par P.quotaRecorder pool
  | _ => s.par P.quotaApplets pool

/-- Buffers a requester holds in a pool. -/
def Pool.heldBy (p : Pool) (req : Nat) : Nat := (p.owner.filter (fun e => e.2 == req + 1)).length

/-- The lowest number missing from a rising list. -/
def firstGap : Nat → List Nat → Nat
  | n, [] => n
  | n, k :: t => if k = n then firstGap (n + 1) t else n

/-- Whether a pool counts as empty for a requester: no buffer is free, or its quota is reached (R387). -/
def State.poolEmptyFor (s : State) (req pool : Nat) : Bool :=
  let p := s.pacer.pool.at pool
  decide (poolBuffers pool ≤ p.owner.length) || decide (s.quota req pool ≤ p.heldBy req)

/-- Takes the lowest-numbered free buffer of a pool (R385). -/
def State.poolTake (s : State) (req pool : Nat) : State × Nat :=
  let p := s.pacer.pool.at pool
  let i := firstGap 0 p.owner.keys
  let p := { p with owner := p.owner.put i (req + 1), ptr := (req + 1) % 5 }
  let p := { p with maxTaken := max p.maxTaken p.owner.length }
  ({ s with pacer := { s.pacer with pool := s.pacer.pool.put pool p } }, i)

/-- The smallest pool whose buffer size is at least n; none above 65,536 B (R386). -/
def poolFor (n : Nat) : Option Nat := (List.range 4).find? (fun p => decide (n ≤ poolBufferSize p))

/-- A request on its own cycle, stepping up while STEP_UP is set: the pool and buffer it takes, or none (R388, R389). -/
def State.poolFrom : Nat → State → Nat → Nat → State × Option (Nat × Nat)
  | 0, s, _, _ => (s, none)
  | k + 1, s, req, pool =>
    if 4 ≤ pool then (s, none)
    else if s.poolEmptyFor req pool then
      (if s.parOn P.stepUp req then State.poolFrom k s req (pool + 1) else (s, none))
    else let (s, i) := s.poolTake req pool; (s, some (pool, i))

/-- One request for n bytes. -/
def State.poolRequest (s : State) (req n : Nat) : State × Option (Nat × Nat) :=
  match poolFor n with
  | some p => State.poolFrom 4 s req p
  | none => (s, none)

end Sys2Proof.Machine
end

