-- ==== Sys2Proof/Machine/Mailbox.lean ====
section
/-! DEFINITION. Mailbox slots, sessions and jobs: posting a response, refusing a request, starting and ending a job, closing
a session (R391 to R417). -/
namespace Sys2Proof.Machine

/-! ### Requests (R397) -/

/-- Fields of the header. -/
def Request.op (r : Request) : Nat := leAt r.head 0 2
def Request.session (r : Request) : Nat := leAt r.head 2 1
def Request.flag (r : Request) (i : Nat) : Bool := bit (leAt r.head 3 1) i
def Request.inlineLen (r : Request) : Nat := leAt r.head 4 2
def Request.seq (r : Request) : Nat := leAt r.head 8 8
def Request.inLen (r : Request) : Nat := leAt r.head 24 4
def Request.outLen (r : Request) : Nat := leAt r.head 28 4
def Request.outAddr (r : Request) : Nat := leAt r.head 32 8
def Request.coSession (r : Request) : Nat := leAt r.head 40 1
def Request.coSeq (r : Request) : Nat := leAt r.head 48 8

/-- The payload: the inline payload followed by the bytes read from IN_ADDR. -/
def Request.payload (r : Request) : List Byte := r.inline ++ r.dma.getD []

/-- What the device keeps of a request. -/
def Request.accepted (r : Request) (gen : Nat) : Accepted :=
  { op := r.op, session := r.session, seq := r.seq, payload := r.payload, outLen := r.outLen, outAddr := r.outAddr, gen := gen }

/-! ### Slots -/

/-- The instance a slot belongs to (R391). A request whose slot a reset of the host interface took goes on under a number of 256 or
more (R510), its slot being the remainder. -/
def slotInst (slot : Nat) : Nat := slot % 256 / 4

/-- The request that waits in a BUSY slot. -/
def State.acc (s : State) (slot : Nat) : Option Accepted := (s.mbx.slot.at slot).acc

/-- Changes one slot. -/
def State.updSlot (s : State) (slot : Nat) (f : Slot → Slot) : State :=
  { s with mbx := { s.mbx with slot := s.mbx.slot.upd slot f } }

/-- The generation of an instance. -/
def State.instGen (s : State) (i : Nat) : Nat := (s.inst.at i).gen.toNat

/-- Progress of a job in thousandths (R399). -/
def progress (done total : Nat) : Nat := if total = 0 then 0 else min 1000 (1000 * done / total)

/-- The response bytes and what goes to OUT_ADDR (R398, R399). The TAG of a request whose session has closed since is open: its K is
gone (R405). (DESIGN CHOICE, entry 121.) -/
def State.response (s : State) (slot : Nat) (a : Accepted) (r : Answer) : List Byte × List Byte :=
  let inline := r.result.take 4048
  let rest := r.result.drop 4048 ++ r.atOut
  let written := rest.take a.outLen
  let head := leBytes 2 a.op ++ leBytes 1 a.session ++ leBytes 1 r.rstate ++ leBytes 2 r.status ++ leBytes 2 inline.length
    ++ leBytes 8 a.seq ++ leBytes 4 written.length ++ leBytes 4 r.stepsDone ++ leBytes 4 r.stepsTotal
    ++ leBytes 2 (progress r.stepsDone r.stepsTotal) ++ leBytes 1 (s.instGen (slotInst slot))
    ++ leBytes 1 (b2n (decide (a.outLen < rest.length)))
  let tag := if r.rstate = 3 ∨ r.untagged = true ∨ 16 ≤ a.session then List.replicate 16 0#8
    else if !((s.mbx.session.at a.session).st == 1 || (s.mbx.session.at a.session).st == 2) then
      beBytes 16 ((Config.freeValue (2 ^ 80 + 256 * a.seq + a.session)).toNat % 2 ^ 128)
    else Crypto.cmac (s.mbx.session.at a.session).key ([0x02#8] ++ head ++ inline ++ written)
  (head ++ tag ++ inline, written)

/-- Step 5 of R394: the result DMA, then the response window, then DONE and the instance's mailbox vector. -/
def State.answer (s : State) (slot : Nat) (a : Accepted) (r : Answer) : State :=
  let (resp, out) := s.response slot a r
  ((s.dmaWrite a.outAddr out).updSlot slot (fun k => { k with st := 2, response := resp, acc := none, held := none })).cause
    (slotInst slot) 0

/-- A slot asks the CMAC unit for `tags` tags, each in a context of its own, and stays BUSY meanwhile (R270, R398). -/
def State.askTag (s : State) (slot tags : Nat) (h : Waiting) : State :=
  let i := slotInst slot
  let ask := fun (s : State) => s.submitCmac { work := .mailbox slot, level := 2, inst := i, gen := s.instGen i }
  let (s, l) := (List.range tags).foldl (fun (acc : State × List Nat) _ => let (s, n) := ask acc.1; (s, acc.2 ++ n.toList)) (s, [])
  s.updSlot slot (fun k => { k with acc := none, held := some (l, h) })

/-- A response carries a tag under K of its session: it is not refused, and not one of R417 (R399). -/
def State.tags (s : State) (a : Accepted) (r : Answer) : Bool :=
  decide (r.rstate ≠ 3) && !r.untagged && decide (a.session < 16)
    && ((s.mbx.session.at a.session).st == 1 || (s.mbx.session.at a.session).st == 2)

/-- The buffer of the DMA payload is freed. -/
def State.freePayload (s : State) (a : Accepted) : State :=
  match a.buf with
  | some (p, b) => s.poolRelease p b
  | none => s

/-- A response is to be posted, and something may follow it: its tag is computed at once, or when its job in the CMAC unit completes. After
a Function Level Reset the result is recorded and not posted (R510). -/
def State.postThen (s : State) (slot : Nat) (a : Accepted) (r : Answer) (what : Sequel) (next : State → State) : State :=
  let s := s.freePayload a
  if a.silent then
    next ((s.updSlot slot (fun k => { k with acc := none })).ruleEvent 510 slot 0 [a.op, a.seq, r.status] (slotInst slot))
  else if s.tags a r && !s.cmacFree then s.askTag slot 1 (.response { a with buf := none } r what)
  else next (s.answer slot a r)

/-- A response is to be posted. -/
def State.post (s : State) (slot : Nat) (a : Accepted) (r : Answer) : State := s.postThen slot a r .nothing id

/-- A refusal: RSTATE REFUSED, TAG 0, counted and recorded (R410). -/
def State.refuse (s : State) (slot : Nat) (a : Accepted) (status : Nat) (result : List Byte := []) : State :=
  let i := slotInst slot
  ((s.count Stat.mbxRefused (256 * i + status)).log 0x020 [slot % 4, a.op, status] [a.seq] i).post slot a
    { rstate := 3, status := status, result := result }

/-! ### Sessions (R405) -/

/-- A session context. -/
def State.sess (s : State) (k : Nat) : Session := s.mbx.session.at k

/-- The context holds a pending or open session. -/
def Session.live (k : Session) : Bool := k.st == 1 || k.st == 2

/-- A debug token ends, and an entry says so (R412). -/
def State.dropToken (s : State) (t : DebugToken) : State :=
  ({ s with mbx := { s.mbx with tokens := s.mbx.tokens.filter (· != t) } }).ruleEvent 412 t.session 1 [t.scope]

/-- Every open token of a session that leaves OPEN ends (R412). -/
def State.endToken (s : State) (session : Nat) : State :=
  s.forEach (s.mbx.tokens.filter (fun t => t.session == session)) (fun s t => s.dropToken t)

/-- A session context is cleared; ended jobs of the session are forgotten, and those in progress run on (R405, R414).
The KIND follows the rows of R405: 0 confirm time elapsed, 1 idle time elapsed, 2 root revoked, instance reset or
deleted, or device reset. A session closed by SESSION.CLOSE is not recorded. -/
def State.closeSession (s : State) (k : Nat) (kind : Option Nat) : State :=
  if !(s.sess k).live then s else
    let i := (s.sess k).inst
    let s := { s with mbx := { s.mbx with
      session := s.mbx.session.del k
      jobs := s.mbx.jobs.filter (fun j => !(j.session == k && j.rstate != 1)) } }
    let s := match kind with
      | some n => s.ruleEvent 405 k n [] i
      | none => s
    s.endToken k

/-! ### Jobs (R413 to R416) -/

/-- A job by session and SEQ. (DEDUCED, entry 71.) -/
def State.job (s : State) (session seq : Nat) : Option Job :=
  s.mbx.jobs.find? (fun j => j.session == session && j.seq == seq)

/-- Changes one job. -/
def State.updJob (s : State) (session seq : Nat) (f : Job → Job) : State :=
  { s with mbx := { s.mbx with jobs := s.mbx.jobs.map (fun j => if j.session == session && j.seq == seq then f j else j) } }

/-- Jobs in progress. -/
def State.running (s : State) : List Job := s.mbx.jobs.filter (fun j => j.rstate == 1)

/-- A job starts; its start is recorded (R413, R506). (DEDUCED, entry 71.) -/
def State.startJob (s : State) (j : Job) : State :=
  ({ s with mbx := { s.mbx with jobs := s.mbx.jobs ++ [j] } }).ruleEvent 506 j.seq 0 [j.op, j.seq] j.inst

/-- A job ends: its result is kept, its end is recorded, and the instance's mailbox vector is raised (R414, R506). A job
whose session has closed is not kept. -/
def State.endJob (s : State) (session seq rstate status : Nat) (result : List Byte := []) (atOut : List Byte := []) : State :=
  match s.job session seq with
  | none => s
  | some j =>
    if j.rstate ≠ 1 then s else
      match j.slot with
      | some k =>
        let s := { s with mbx := { s.mbx with jobs := s.mbx.jobs.filter (fun k => !(k.session == session && k.seq == seq)) } }
        match s.acc k with
        | some a => s.post k a { rstate := rstate, status := status, result := result, atOut := atOut }
        | none => s
      | none =>
      let s := s.dmaWrite j.outAddr (atOut.take j.outLen)
      let s := s.updJob session seq (fun j => { j with
        rstate := rstate, status := status, result := result, waits := false, endAt := s.time.mono
        done := if rstate = 0 then j.total else j.done })
      let s := if (s.sess session).live then s else
        { s with mbx := { s.mbx with jobs := s.mbx.jobs.filter (fun k => !(k.session == session && k.seq == seq)) } }
      (s.ruleEvent 506 seq 1 [j.op, seq, rstate, status] j.inst).cause j.inst 0

/-- A job advances one step. -/
def State.stepJob (s : State) (session seq : Nat) (f : Job → Job) : State :=
  s.updJob session seq (fun j => f { j with done := min j.total (j.done + 1) })

/-! ### Serving a request -/

/-- What a command's own checks and effects come to (check 9 of R408). -/
inductive Reply where
  | refuse (status : Nat)
  /-- a refusal that leaves an entry or reports what it found (R427, R431) -/
  | refuseWith (s : State) (status : Nat) (result : List Byte)
  /-- the effects, the status and the result -/
  | done (s : State) (status : Nat) (result : List Byte) (atOut : List Byte)
  /-- the result is posted, and then something follows (R400, R405, R451, DIAG.RESET), `next` being what `what` names -/
  | after (s : State) (result : List Byte) (what : Sequel) (next : State → State)
  /-- a job with its number of steps -/
  | job (s : State) (kind : JobKind) (total : Nat)
  /-- work that answers DONE if it ends within 2 laps, and is a job otherwise (V of R419) -/
  | maybe (s : State) (kind : JobKind) (total : Nat)
  /-- the answer is not there yet: the command goes on when its row comes again -/
  | wait (s : State)

/-- DONE with status 0. -/
def Reply.ok (s : State) (result : List Byte := []) (atOut : List Byte := []) : Reply := .done s 0 result atOut

/-- Carries out a reply: the response is posted, and a job takes one of the 32 places or is refused (R413). (DEDUCED, entry 105.) -/
def State.reply (slot : Nat) (a : Accepted) (s : State) (r : Reply) : State :=
  match r with
  | .refuse st => s.refuse slot a st
  | .refuseWith s' st result => s'.refuse slot a st result
  | .done s' st result out => s'.post slot a { rstate := 0, status := st, result := result, atOut := out }
  | .wait s' => s'
  | .after s' result what next => s'.postThen slot a { rstate := 0, status := 0, result := result } what next
  | .maybe s' kind total =>
    if 32 ≤ s.running.length then s.refuse slot a E.busy
    else { s' with mbx := { s'.mbx with jobs := s'.mbx.jobs ++ [
      { session := a.session, seq := a.seq, inst := slotInst slot, op := a.op, kind := kind, total := total
        outAddr := a.outAddr, outLen := a.outLen, waits := true, slot := some slot, left := 2 }] } }
  | .job s' kind total =>
    if 32 ≤ s.running.length then s.refuse slot a E.busy
    else
      (s'.startJob { session := a.session, seq := a.seq, inst := slotInst slot, op := a.op, kind := kind, total := total
                     outAddr := a.outAddr, outLen := a.outLen }).post slot a
        { rstate := 1, status := 0, stepsTotal := total }

/-- A command executes once no command that passed check 6 before it still waits (R410); one that a job serves has been executed,
and an unsessioned one passes no check 6. -/
def State.turn (s : State) (a : Accepted) : Bool :=
  a.session == 255 || !s.mbx.slot.any (fun e => match e.2.acc with
    | some b => b.session != 255 && decide (b.order < a.order) && !s.mbx.jobs.any (fun j => j.slot == some e.1)
    | none => false)

/-- The slot holds an accepted request of an opcode whose turn it is, not yet executed, and the Pacer is up. -/
def State.serves (s : State) (slot op : Nat) (a : Accepted) : Bool :=
  a.op == op && !s.pacer.down && s.turn a && !s.mbx.jobs.any (fun j => j.slot == some slot)

/-- The meaning of a mailbox row: it acts when the slot holds a request of its opcode whose turn it is. A command of scope Op in the
slot of another instance is refused (R419). -/
def serve (slot op : Nat) (f : State → Nat → Accepted → Reply) (s : State) : State :=
  match s.acc slot with
  | none => s
  | some a =>
    if s.serves slot op a then
      if (opInfo op).any (·.opOnly) && decide (slotInst slot ≠ 0) then s.refuse slot a E.scope
      else s.reply slot a (f s (slotInst slot) a)
    else s

/-- An instance that R455 freezes, or that is deleted. -/
def State.frozen (s : State) (i : Nat) : Bool := (s.inst.at i).st == 1

/-- A lap named by AT_LAP and LAP (R421, R46): none when the form is wrong; else the lap at which the command takes effect.
A command is accepted when its row runs, at the end of the checks of R408 and R419. (DEDUCED, entry 145.) -/
def State.atLap (s : State) (atLap lap : Nat) : Option Nat :=
  let nxt := (s.lap + 1) % 2 ^ 32
  if atLap = 0 then (if lap = 0 then some nxt else none)
  else if atLap = 1 then some (if later 32 lap s.lap then lap else nxt)
  else none

/-! ### Re-initialisations (R416) and resets (R417) -/

/-- The request of a BUSY slot, wherever it has come to. -/
def State.busyAcc (s : State) (slot : Nat) : Option Accepted :=
  ((s.acc slot).or ((s.mbx.slot.at slot).held.map (·.2.accepted))).or ((s.mbx.rung.find? (fun e => e.1 == slot)).map (fun e => e.2.accepted (s.instGen (slotInst slot))))

/-- Every BUSY slot of the chosen instances receives an ABORTED response. -/
def State.abortSlots (s : State) (status : Nat) (untagged : Bool) (p : Nat → Bool) : State :=
  s.forEach s.mbx.slot.keys (fun s k =>
    match s.busyAcc k with
    | some a =>
      if p (slotInst k) then
        ({ s with mbx := { s.mbx with rung := s.mbx.rung.filter (fun e => e.1 != k) } }).post k a { rstate := 2, status := status, untagged := untagged }
      else s
    | none => s)

/-- Every job in progress that satisfies a test ends ABORTED; a commit that has not been activated leaves Standby in
STAGING (R416, R433, R436). -/
def State.abortJobs (s : State) (status : Nat) (p : Job → Bool) : State :=
  s.forEach (s.running.filter p) (fun s j =>
    if j.slot.isSome then { s with mbx := { s.mbx with jobs := s.mbx.jobs.filter (fun k => !(k.session == j.session && k.seq == j.seq)) } } else
    let s := if j.op = Op.cfgCommit && decide (s.cfg.st = .committing) then
        { s with cfg := { s.cfg with st := .staging, act := none } }
      else if j.op = Op.cfgRollback then { s with cfg := { s.cfg with act := none } } else s
    let s := if j.op = Op.imgStrideLoad then { s with stride := { s.stride with loading := false } } else s
    s.endJob j.session j.seq 2 status)

/-- R384: channels are emptied, pool buffers return, firmware threads are reloaded, threads 6 and 7 are ABSENT. -/
def Pacer.reinit (p : Pacer) : Pacer :=
  { thread := (List.range 32).foldl (fun t k => if k % 8 < 6 then Tab.put t k { st := 1 } else t) []
    pool := p.pool.mapAll (fun _ q => { ptr := q.ptr, maxTaken := q.maxTaken })
    nextAsk := p.nextAsk, down := true, ranInLap := true }

/-- The whole Pacer is re-initialised: jobs and BUSY slots end with E_PACER_RESET (R384, R416). -/
def State.resetPacer (s : State) : State :=
  let s := (s.abortJobs E.pacerReset (fun _ => true)).abortSlots E.pacerReset false (fun _ => true)
  { s with pacer := s.pacer.reinit }

/-- One core is re-initialised: its firmware threads are reloaded, the reservations and waits of its threads are released;
the jobs and BUSY slots it serves end as R416 sets out. Which core serves a slot or a job the manual does not say.
(DESIGN CHOICE, entry 10.) -/
def State.resetCore (s : State) (core : Nat) : State :=
  let s := (s.abortJobs E.pacerReset (fun j => (Config.jobCore (BitVec.ofNat 64 j.seq)).toNat == core))
  let s := s.forEach (s.mbx.slot.keys.filter (fun k => (Config.slotCore k).toNat == core)) (fun s k =>
    match s.busyAcc k with
    | some a => s.post k a { rstate := 2, status := E.pacerReset }
    | none => s)
  let mine := fun t => t / 8 == core
  { s with pacer := { s.pacer with
      thread := (List.range 8).foldl (fun t k => if k < 6 then t.put (8 * core + k) { st := 1 } else t.put (8 * core + k) {}) s.pacer.thread
      channel := s.pacer.channel.mapAll (fun _ c => { c with
        resv := c.resv.filter (fun r => !mine r.thread)
        readers := c.readers.filter (fun t => !mine t)
        writers := c.writers.filter (fun w => !mine w.1) }) } }

end Sys2Proof.Machine
end

