-- ==== Sys2Proof/Machine/Records.lean ====
section
/-! DEFINITION. The recorder ring: the bytes of a record, its place, merging, runs, the power-fail flush (R476 to R484,
R552). -/
namespace Sys2Proof.Machine

/-- Bytes of the ring (R476). -/
def ringBytes : Nat := 4194304

/-- Items of a record: its key items, the PART item of a run, and the others (R552). -/
def Rec.itemsOf (r : Rec) : List Nat := r.ev.keys ++ r.ev.items

/-- Length of a record with `k` items: a multiple of 16 (R476). -/
def recLen (ptp : Bool) (k : Nat) : Nat := ceilDiv (32 + (if ptp then 16 else 0) + 8 * k) 16 * 16

/-- The bytes of a record, with CRC-32C over them computed with the field at 0 (R476). -/
def Rec.bytes (r : Rec) : List Byte :=
  let w0 := (r.len / 16) * 2 ^ 25 + b2n r.ev.ptp.isSome * 2 ^ 24 + r.ev.pwr % 2 ^ 24
  let head := leBytes 4 w0 ++ leBytes 4 r.ev.hours ++ leBytes 4 (r.ev.typ * 2 ^ 22 + r.ev.ms % 2 ^ 22)
  if r.ev.typ = 0 then head ++ leBytes 4 (crc32c (head ++ leBytes 4 0)) else
    let tail := leBytes 4 r.seq ++ leBytes 2 r.rep ++ leBytes 1 r.ev.inst ++ leBytes 1 (r.ev.keys.length * 16)
      ++ leBytes 4 r.ev.lap ++ leBytes 4 0
      ++ (match r.ev.ptp with | some (sec, ns) => leBytes 6 sec ++ leBytes 4 ns ++ leBytes 6 0 | none => [])
      ++ r.itemsOf.flatMap (leBytes 8)
    let body := slice tail 0 (r.len - 16)
    head ++ leBytes 4 (crc32c (head ++ leBytes 4 0 ++ body)) ++ body

/-- A record takes its place at the head, PADs filling the end of the ring, and overwrites the oldest (R476, R480). -/
def Recorder.place (q : Recorder) (e : Event) (run : Bool) : Recorder :=
  let len := recLen e.ptp.isSome (e.keys.length + e.items.length)
  let wrap := decide (ringBytes < q.head + len)
  let padN := if wrap then (ringBytes - q.head) / 16 else 0
  let pads := (List.range padN).map (fun i => { ev := { typ := 0, pwr := e.pwr, hours := e.hours, ms := e.ms }, off := q.head + 16 * i, len := 16, run := true : Rec })
  let kept := if wrap then q.ring.filter (fun r => r.off + r.len ≤ q.head) else q.ring
  let off := if wrap then 0 else q.head
  let kept := kept.filter (fun r => decide (r.off + r.len ≤ off) || decide (off + len ≤ r.off))
  let seq := (q.lastSeq + 1) % 2 ^ 32
  { q with ring := kept ++ pads ++ [{ ev := e, off := off, len := len, seq := seq, run := run }]
           lastSeq := seq, head := (off + len) % ringBytes }

/-- Splits a list into pieces of at most n. -/
def chunks {α : Type} : Nat → Nat → List α → List (List α)
  | 0, _, _ => []
  | k + 1, n, l => l.take n :: chunks k n (l.drop n)

/-- An event is written as one record, or as a run with a PART item after the key items (R552). (DEDUCED, entry 41.) -/
def Recorder.write (q : Recorder) (e : Event) : Recorder :=
  if e.parts ≤ 1 then q.place e false else
    let per := e.capacity - e.keys.length - 1
    (List.zip (List.range e.parts) (chunks e.parts per e.items)).foldl
      (fun q p => q.place { e with keys := e.keys ++ [p.1 + e.parts * 2 ^ 16], items := p.2 } true) q

/-- Whether an event is identical to the last record and may merge into it (R478). -/
def Rec.merges (r : Rec) (e : Event) : Bool :=
  r.ev.typ == e.typ && r.ev.inst == e.inst && r.ev.keys == e.keys && !r.staged && !r.run && decide (r.rep < 0xFFFF)
    && decide (r.ev.typ ≠ 0) && decide (e.parts ≤ 1) && decide (r.ev.items.length = e.items.length)

/-- The event merges into the last record, or opens a new one (R478). (DEDUCED, entry 41.) -/
def Recorder.enter (q : Recorder) (e : Event) : Recorder :=
  match q.ring.getLast? with
  | some r =>
    if r.merges e then
      { q with ring := q.ring.dropLast ++ [{ r with rep := r.rep + 1, ev := { r.ev with lap := e.lap, items := e.items } }] }
    else q.write e
  | none => q.write e

/-- The newest run of records that fits, ending at the newest. -/
def newestFit : Nat → List Rec → List Rec
  | _, [] => []
  | room, r :: older => if r.len ≤ room then newestFit (room - r.len) older ++ [r] else []

/-- R484: a POWER_FAIL record is written and no other is accepted; the newest run that fits in PF_FLUSH_BYTES goes to the
reserved block, unless that block still holds a flush. -/
def State.powerFailFlush (s : State) : State :=
  if !s.recd.accepting then s else
    let q := s.recd.write (s.event 0x050 [] [s.recd.lastSeq])
    let q := { q with accepting := false }
    if q.reserveReady then
      { s with recd := { q with
          reserve := newestFit (s.par P.pfFlushBytes) ((q.ring.filter (fun r => r.ev.typ != 0)).reverse)
          reserveReady := false, flushing := true } }
    else { s with recd := q }

end Sys2Proof.Machine
end

