-- ==== Sys2Proof/Machine/Recover.lean ====
section
/-! DEFINITION. Faults and what the device does about them: the table of sources (R460), raising (R461, R462), leaving the
fault state (R465), the ladder (R467 to R471), and what each kind of reset keeps (R504). -/
namespace Sys2Proof.Machine

/-! ### The sources (R460) -/

/-- A row of R460. Functions: 0 none, 1 port, 2 pipe, 3 quadrant pipes, 4 PC, 5 core, 6 Pacer, 7 CMAC, 8 GMU. -/
structure SourceInfo where
  base : Nat
  count : Nat
  units : Nat
  level : Bool
  severity : Nat
  rung : Nat
  func : Nat
  climbs : Bool
  /-- rung 1 has a retry that takes time: relock, re-read and rewrite, shadow rewrite, restart (R467) -/
  retry : Bool
deriving DecidableEq, Repr, Inhabited

/-- Sources of pipes and clocks. (DESIGN CHOICE, entry 113.) -/
def sourcesA : List SourceInfo := [
  ⟨0, 16, 32, true, 1, 1, 1, true, true⟩, ⟨16, 16, 32, false, 0, 1, 0, false, false⟩,
  ⟨32, 16, 32, false, 0, 1, 0, false, false⟩, ⟨48, 16, 2, false, 2, 1, 2, true, true⟩,
  ⟨64, 16, 1, false, 2, 2, 2, true, true⟩, ⟨80, 16, 1, false, 3, 2, 2, true, true⟩,
  ⟨96, 16, 1, false, 3, 2, 2, true, true⟩, ⟨112, 32, 1, true, 2, 1, 2, true, true⟩]

/-- Sources of quadrants, stacks and cores. -/
def sourcesB : List SourceInfo := [
  ⟨144, 4, 16, false, 1, 1, 3, true, true⟩, ⟨148, 4, 1, false, 1, 1, 3, true, true⟩,
  ⟨152, 4, 8, false, 2, 1, 3, true, true⟩, ⟨156, 4, 1, false, 2, 1, 3, true, true⟩,
  ⟨160, 4, 32, false, 1, 1, 4, true, true⟩, ⟨164, 4, 32, false, 3, 3, 0, true, true⟩,
  ⟨168, 4, 1, true, 1, 1, 0, false, false⟩, ⟨172, 4, 1, false, 2, 2, 5, true, true⟩]

/-- Single sources. -/
def sourcesC : List SourceInfo := [
  ⟨176, 1, 5, false, 1, 1, 0, false, true⟩, ⟨177, 1, 1, false, 3, 1, 0, false, false⟩,
  ⟨178, 1, 1, true, 3, 1, 0, false, true⟩, ⟨179, 1, 2, false, 2, 2, 7, true, true⟩,
  ⟨180, 1, 1, false, 1, 1, 8, true, false⟩, ⟨181, 1, 1, false, 2, 2, 8, true, true⟩,
  ⟨182, 1, 1, false, 2, 2, 6, true, true⟩, ⟨183, 1, 8, false, 1, 1, 0, false, false⟩]

/-- Management sources and those of instances. (DESIGN CHOICE, entry 113.) -/
def sourcesD : List SourceInfo := [
  ⟨184, 1, 1, false, 2, 1, 0, false, false⟩, ⟨185, 1, 1, false, 1, 1, 0, false, false⟩,
  ⟨186, 1, 1, true, 2, 1, 0, false, true⟩, ⟨187, 1, 1, true, 1, 1, 0, false, false⟩,
  ⟨188, 1, 1, true, 1, 1, 0, false, false⟩, ⟨189, 1, 1, true, 4, 4, 0, false, true⟩,
  ⟨190, 1, 1, true, 3, 1, 0, false, false⟩, ⟨191, 1, 1, false, 1, 1, 0, false, false⟩,
  ⟨192, 64, 1, false, 0, 1, 0, false, false⟩, ⟨256, 64, 1, false, 0, 1, 0, false, false⟩,
  ⟨320, 64, 1, false, 1, 1, 0, false, false⟩]

/-- The row of a source. -/
def sourceInfo (src : Nat) : SourceInfo :=
  ((sourcesA ++ sourcesB ++ sourcesC ++ sourcesD).find? (fun r => decide (r.base ≤ src) && decide (src < r.base + r.count))).getD default

/-- The pipe a reference clock pair serves: pair k serves lanes 16k to 16k + 15 (R51). -/
def clockPipe (pair : Nat) : Nat := pair / 2

/-- The function a unit's rung 2 re-initialises, and which one (R460, R467). -/
def funcOf (src unit : Nat) : Nat × Nat :=
  let r := sourceInfo src
  let k := src - r.base
  match r.func with
  | 1 => (1, 32 * k + unit)
  | 2 => (2, if src / 16 = 7 ∨ src / 16 = 8 then clockPipe k else k)
  | 3 => (3, k)
  | 4 => (4, 32 * k + unit)
  | 5 => (5, k)
  | f => (f, 0)

/-- Ports of a unit: one port for a port unit, every port of the pipe, quadrant or clock pair for others (R465). -/
def State.unitPorts (s : State) (src unit : Nat) : List Nat :=
  let on := fun l : List Nat => l.filter (fun p => s.parOn P.portEnable p)
  if src < 48 then on [32 * (src % 16) + unit]
  else if src < 112 then on ((List.range 32).map (fun i => 32 * (src % 16) + i))
  else if src < 144 then on ((List.range 16).map (fun i => 16 * (src - 112) + i))
  else if src < 160 then on ((List.range 128).map (fun i => 128 * (src % 4) + i))
  else []

/-- The instance a source's unit is attributed to (R474): port units by PORT_OWNER, 192 to 383 by their index. -/
def State.sourceInst (s : State) (src unit : Nat) : Option Nat :=
  if src < 48 then some (s.portInst (32 * (src % 16) + unit))
  else if 192 ≤ src then some ((src - 192) % 64) else none

/-! ### State of sources and units -/

/-- The state of a source. -/
def State.fsrc (s : State) (src : Nat) : FaultSrc := s.fault.src.at src

/-- The state of a unit. -/
def State.funit (s : State) (src unit : Nat) : FaultUnit := s.fault.unit.at (64 * src + unit)

/-- Changes the state of a source. -/
def State.updSrc (s : State) (src : Nat) (f : FaultSrc → FaultSrc) : State :=
  { s with fault := { s.fault with src := s.fault.src.upd src f } }

/-- Changes the state of a unit. -/
def State.updUnit (s : State) (src unit : Nat) (f : FaultUnit → FaultUnit) : State :=
  { s with fault := { s.fault with unit := s.fault.unit.upd (64 * src + unit) f } }

/-- Programmed severity (R473). -/
def State.severity (s : State) (src : Nat) : Nat :=
  match (s.fsrc src).policy with
  | some p => p.1
  | none => (sourceInfo src).severity

/-- Programmed entry rung (R473). -/
def State.entryRung (s : State) (src : Nat) : Nat :=
  match (s.fsrc src).policy with
  | some p => p.2
  | none => if src = 112 then 3 else (sourceInfo src).rung

/-- The current rung of a source. -/
def State.rung (s : State) (src : Nat) : Nat := (s.fsrc src).rung.getD (s.entryRung src)

/-- A source is in fault while any of its units is (R459). -/
def State.inFault (s : State) (src : Nat) : Bool := s.fault.unit.any (fun e => e.1 / 64 == src && e.2.inFault)

/-- Sets IRQ_PENDING, which is the FAULT cause of instance 0; when it was 0, the fault vector of the attributed instance is sent too
(R474). (DEDUCED, entry 133.) -/
def State.faultIrq (s : State) (src unit : Nat) : State :=
  let pending := bit (s.host.cause.at 0) 1
  let s := s.cause 0 1
  match s.sourceInst src unit with
  | some i => if i = 0 ∨ pending = true then s else s.cause i 1
  | none => s

/-! ### Resets (R504) -/

/-- Whether a boot is in progress. -/
def Boot.booting (b : Boot) : Bool := b.stage != 0 && b.stage != 15 && !b.ready

/-- A record of R506 of a kind: 0 start, 1 end. -/
def Rec.stepped (r : Rec) (kind : Nat) : Bool := r.ev.typ == 0x0FF && r.ev.keys.head? == some 506 && r.ev.keys.getD 2 2 == kind

/-- Two records of R506 are of one operation: instance, SEQ and opcode agree. -/
def Rec.sameOp (r e : Rec) : Bool :=
  r.ev.inst == e.ev.inst && r.ev.keys.getD 1 0 == e.ev.keys.getD 1 0 && r.ev.items.head? == e.ev.items.head?

/-- Start records that no end record follows (R506). -/
def openStarts : List Rec → List Rec
  | [] => []
  | r :: l => if r.stepped 0 && !l.any (fun e => e.stepped 1 && r.sameOp e) then r :: openStarts l else openStarts l

/-- The steps of a stepped operation that is in progress. -/
def State.stepsOf (s : State) (op seq : Nat) : Option (Nat × Nat) :=
  match s.running.find? (fun j => j.op == op && j.seq == seq) with
  | some j => some (j.done, j.total)
  | none => if op = 0 ∧ (s.cfg.writing.map (·.1.writeSeq)) = some seq then some (0, 1) else none

/-- Stepped operations that a reset leaves without an end record in the records that outlast it (R506). (DEDUCED, entry 32.) -/
def State.cutJobs (s : State) (l : List Rec) : List CutOp :=
  let found := (openStarts l).map (fun r =>
    let op := r.ev.items.headD 0
    let seq := r.ev.keys.getD 1 0
    ({ op := op, seq := seq, inst := r.ev.inst, steps := s.stepsOf op seq } : CutOp))
  s.boot.cut ++ (found.filter (fun c => !s.boot.cut.any (fun d => d.op == c.op && d.seq == c.seq && d.inst == c.inst))).eraseDups

/-- What flash and OTP hold through every reset. (DEDUCED, entry 31.) -/
def Boot.flash (b : Boot) : Boot :=
  { hdr0 := b.hdr0, hdr1 := b.hdr1, per0 := b.per0, per1 := b.per1, pwrCycles := b.pwrCycles, svnFloor := b.svnFloor
    fwLoaded := b.fwLoaded, strideA := b.strideA, strideB := b.strideB }

/-- The window that a reset closes: generations from and to (R443). -/
def Cfg.openWindow (c : Cfg) : Option (Nat × Nat) :=
  match c.window with
  | some _ => some (c.activeGen.toNat, c.lastGood.toNat)
  | none => none

/-- The banks after any reset: only the flash slots stay (R443). (DEDUCED, entry 31.) -/
def Cfg.flash (c : Cfg) : Cfg := { slot0 := c.slot0, slot1 := c.slot1 }

/-- RESET_N low: everything restarts but flash, OTP and the pins (R504). (DEDUCED, entry 31.) -/
def State.coldReset (s : State) : State :=
  { (State.reset) with
    cfg := s.cfg.flash
    boot := { s.boot.flash with powerOn := s.boot.powerOn, cause := if s.boot.powerOn then 0 else 1
                                wasWindow := s.cfg.openWindow, cut := s.cutJobs (s.recd.flash ++ s.recd.reserve) }
    mbx := { root := s.mbx.root }
    recd := { flash := s.recd.flash, flashSeq := s.recd.flashSeq, reserve := s.recd.reserve, reserveReady := s.recd.reserveReady }
    pins := s.pins, out := s.out, free := s.free, pending := s.pending }

/-- The bitwise inverse of the correct FCS of a frame (R60). -/
def stompFcs (l : List Byte) : List Byte := (leBytes 4 (crc32 l)).map (fun b => ~~~b)

/-- The next value above a generation whose bit is clear in the in-use map (R48). -/
def nextGen (gen used : Nat) : Option Nat :=
  ((List.range 255).map (fun k => (gen + k + 1) % 256)).find? (fun g => !bit used g)

/-- Every port has entered DISABLED, which ends the condition of its LINK_FAULT unit; the functions in progress are covered (R460, R465,
R471). -/
def Faults.warmed (f : Faults) (quiet : Nat) : Faults :=
  { f with
    funcs := []
    unit := f.unit.mapAll (fun k u => if k / 64 < 16 ∧ u.cond = true then { u with cond := false, quiet := if u.inFault then some quiet else none } else u) }

/-- A warm reset with its RESET_CAUSE (2 by rung 3, 3 by DIAG.RESET): transmission stops, each port ending its frame with the
inverted FCS; queues, banks, sessions and slots are lost; time, recorder, counters, faults, HBM and the PCIe link stay; each
enabled instance takes the next generation (R504, R469). (DEDUCED, entry 31.) -/
def State.warmReset (s : State) (cause : Nat) : State :=
  let cut := s.cutJobs (s.recd.flash ++ s.recd.ring)
  let begun := (s.cpy.filter (fun e => e.2.live && (e.2.inFlight || e.2.paused))).map (·.2)
  let s := s.forEach begun (fun s c => s.emit (if c.queue < 8192 then .frame (c.queue / 16) (c.queue % 16) (c.out ++ stompFcs c.out) true
    else .relay c.port (c.queue % 8) (c.out ++ stompFcs c.out)))
  let s := s.forEach s.mbx.session.keys (fun s k => s.closeSession k (some 2))
  let inst := (List.range 64).foldl (fun t i =>
    Tab.put t i { gen := (s.inst.at i).gen + (if s.parOn P.instEnable i then 1 else 0) }) ([] : Tab Inst)
  { (State.reset) with
    time := s.time, inst := inst
    cfg := s.cfg.flash
    boot := { s.boot.flash with powerOn := false, cause := cause, wasWindow := s.cfg.openWindow
                                cut := cut, retrain := s.boot.retrain, stage := 1
                                ended := if s.boot.retrain then [] else [4, 5] }
    mbx := { root := s.mbx.root }
    recd := s.recd
    ctr := s.ctr
    fault := s.fault.warmed (s.par P.quietLaps)
    sec := { vault := s.sec.vault, trngFailed := s.sec.trngFailed }
    hbm := { s.hbm with pc := s.hbm.pc.mapAll (fun _ c => { c with reads := [], writes := [], burst := none, batch := false })
                        wait := [], rate := [], spillCells := 0 }
    host := { linkUp := s.host.linkUp }
    nextPkt := s.nextPkt, nextCpy := s.nextCpy
    pins := s.pins, out := s.out, free := s.free, pending := s.pending }

/-- Rung 4: the recorder is flushed as for PFW_N, transmission stops on every port, PWR_CYCLE_REQ_N is driven low (R470). -/
def State.powerCycle (s : State) : State :=
  let s := s.powerFailFlush
  { s with fault := { s.fault with pwrCycleReq := true } }

/-! ### Functions (R467) -/

/-- Open captures of the GMU end complete and flagged GAPPED; windows, accumulators and trigger states restart (R467). -/
def State.resetGmu (s : State) : State :=
  { s with gmu := { s.gmu with
      queue := []
      tap := s.gmu.tap.mapAll (fun _ t => { record := t.record, laps := t.laps })
      trig := s.gmu.trig.mapAll (fun _ t => { fires := t.fires, fireLap := t.fireLap })
      req := []
      capture := s.gmu.capture.mapAll (fun _ c => if c.held && !c.complete then { c with complete := true, gapped := true } else c) } }

/-- Whether a function in progress covers one that falls due (R471). -/
def covers (a b : Nat × Nat) : Bool :=
  a == b || (a.1 == 2 && b.1 == 1 && a.2 == b.2 / 32) || (a.1 == 3 && b.1 == 2 && a.2 == b.2 / 4)
    || (a.1 == 3 && b.1 == 1 && a.2 == b.2 / 128)

/-- The re-initialisation of a function begins; a covered one is not repeated (R467, R471). -/
def State.beginFunc (s : State) (f : Nat × Nat) : State :=
  if s.fault.funcs.any (fun g => covers g f) then s else
    let s := { s with fault := { s.fault with funcs := s.fault.funcs ++ [f] } }
    match f.1 with
    | 1 => if s.parOn P.portEnable f.2 then (s.disablePort f.2 2).acquirePort f.2 else s
    | 2 => s.resetPipe f.2
    | 3 => s.forEach (List.range 4) (fun s k => s.resetPipe (4 * f.2 + k))
    | 4 => { s with hbm := { s.hbm with pc := s.hbm.pc.upd f.2 (fun c => { c with st := 0, burst := none }) } }
    | 5 => s.resetCore f.2
    | 6 => s.resetPacer
    | 7 => s.resetCmac
    | 8 => s.resetGmu
    | _ => s

/-- The function is back in service: ports of a pipe acquire, a PC is READY, the Pacer serves again. -/
def State.endFunc (s : State) (f : Nat × Nat) : State :=
  let s := { s with fault := { s.fault with funcs := s.fault.funcs.filter (· != f) } }
  match f.1 with
  | 2 => s.forEach (s.pipePorts f.2) (fun s p => s.acquirePort p)
  | 3 => s.forEach ((List.range 4).flatMap (fun k => s.pipePorts (4 * f.2 + k))) (fun s p => s.acquirePort p)
  | 4 => s.readyPc f.2
  | 6 => { s with pacer := { s.pacer with down := false } }
  | 7 => s.restartCmac
  | _ => s

/-! ### The ladder (R468, R471) -/

/-- An attempt at a rung on a unit: rung 1 retries, rung 2 re-initialises, rung 3 is a warm reset, rung 4 a power cycle. What a reset, a
power cycle request or a function in progress covers is dropped, and counts as the attempt, as is a warm reset during a boot (R471,
R505). (DEDUCED, entry 38.) -/
def State.attempt (s : State) (src unit : Nat) : State :=
  let rung := s.rung src
  if rung = 4 then (s.updUnit src unit (fun u => { u with attempt := true })).powerCycle
  else if s.fault.warm || s.fault.pwrCycleReq then s
  else if rung = 3 then
    if s.boot.booting then s else
      let s := s.updUnit src unit (fun u => { u with attempt := true })
      let s := if 164 ≤ src ∧ src < 168 then { s with boot := { s.boot with retrain := true } } else s
      ({ s with fault := { s.fault with warm := true } }).warmReset 2
  else if rung = 2 ∧ (sourceInfo src).func ≠ 0 then
    (s.updUnit src unit (fun u => { u with attempt := true })).beginFunc (funcOf src unit)
  else if (sourceInfo src).retry && !s.fault.funcs.any (fun g => covers g (funcOf src unit)) then
    s.updUnit src unit (fun u => { u with attempt := true })
  else s

/-- A failure within 64 laps is noted, and the source climbs at the third (R468). (DEDUCED, entry 38.) -/
def State.noteFailure (s : State) (src unit : Nat) : State :=
  let fails := ((s.fsrc src).fails.filter (fun l => decide ((s.lap + 2 ^ 32 - l) % 2 ^ 32 ≤ 64))) ++ [s.lap]
  let rung := s.rung src
  if (sourceInfo src).climbs && decide (3 ≤ fails.length) && decide (rung < 4) then
    let s := s.updSrc src (fun f => { f with rung := some (rung + 1), fails := [] })
    let s := s.log 0x004 [src] [rung + 1] ((s.sourceInst src unit).getD 255)
    s.faultIrq src unit
  else s.updSrc src (fun f => { f with fails := fails })

/-- The record part of a raise (R462): a record opens, escalates or merges. -/
def State.record (s : State) (src unit : Nat) (prot : Bool) : State :=
  let inst := (s.sourceInst src unit).getD 255
  let irq := fun (s : State) sev => if s.par P.faultIrqMin ≤ sev then s.faultIrq src unit else s
  match (s.fsrc src).record with
  | some r =>
    if r.acked then
      let sev := s.severity src
      let s := s.updSrc src (fun f => { f with record := some { severity := sev, first := s.lap, last := s.lap } })
      irq (s.log 0x001 [src, unit] [sev, 1, b2n prot] inst) sev
    else
      let c := satInc 0xFFFF r.count
      if prot then
        let sev := min 4 (r.severity + 1)
        let s := s.updSrc src (fun f => { f with record := some { r with severity := sev, count := c, last := s.lap } })
        irq (s.log 0x002 [src, unit] [sev, c] inst) sev
      else
        (s.updSrc src (fun f => { f with record := some { r with count := c, last := s.lap } })).log 0x001 [src, unit]
          [r.severity, c, 0] inst
  | none =>
    let sev := s.severity src
    let s := s.updSrc src (fun f => { f with record := some { severity := sev, first := s.lap, last := s.lap } })
    irq (s.log 0x001 [src, unit] [sev, 1, b2n prot] inst) sev

/-- Attribution of a raise (R461): by its packet's class, or FAULT_PATH; management sources are always GENERAL. -/
def State.protection (s : State) (src : Nat) (prot : Bool) : Bool :=
  !(decide (183 ≤ src) && decide (src ≤ 191)) && (prot || s.parOn P.faultPath src)

/-- A raise of a unit of a source (R462, R465, R468): a level source is raised once while its condition holds.
(DESIGN CHOICE, entry 113.) -/
def State.raise (s : State) (src unit : Nat) (prot : Bool := false) : State :=
  let info := sourceInfo src
  if info.level && (s.funit src unit).cond then s else
    let s := s.record src unit (s.protection src prot)
    let u := s.funit src unit
    let s := s.updUnit src unit (fun u => { u with
      inFault := true, cond := info.level, quiet := if info.level then none else some (s.par P.quietLaps) })
    if !u.inFault then s.attempt src unit
    else if !u.attempt then (s.noteFailure src unit).attempt src unit
    else s

/-- The attempt on a unit completes (R468): its function, if any, is back in service, which ends every attempt it served. -/
def State.completeAttempt (s : State) (src unit : Nat) : State :=
  if !(s.funit src unit).attempt then s else
    let f := funcOf src unit
    let s := if s.rung src = 2 ∧ s.fault.funcs.contains f then s.endFunc f else s
    s.updUnit src unit (fun u => { u with attempt := false })

/-- The condition of a level source clears: its quiet period starts (R465). -/
def State.clearCond (s : State) (src unit : Nat) : State :=
  if (s.funit src unit).cond then
    s.updUnit src unit (fun u => { u with cond := false, quiet := if u.inFault then some (s.par P.quietLaps) else none })
  else s

/-- A unit leaves the fault state (R465); with the last unit the source returns to its entry rung and its record closes
(R464). -/
def State.exitFault (s : State) (src unit : Nat) : State :=
  let acked := match (s.fsrc src).record with | some r => r.acked | none => false
  let s := s.updUnit src unit (fun u => { u with inFault := false, quiet := none, attempt := false })
  let s := s.updSrc src (fun f => { f with recoveries := if f.recoveries = BitVec.allOnes 16 then f.recoveries else f.recoveries + 1 })
  let s := s.log 0x003 [src, unit] [(s.fsrc src).recoveries.toNat, b2n acked] ((s.sourceInst src unit).getD 255)
  let s := s.forEach (s.unitPorts src unit) (fun s p => s.recoveryRamp p)
  if s.inFault src then s else
    s.updSrc src (fun f => { f with rung := none, fails := [], closed := f.record, record := none })

/-- The port's unit of LINK_FAULT: its source and unit number. -/
def linkSource (port : Nat) : Nat × Nat := (pipeOf port, port % 32)

/-- A port enters DISABLED at a commit with PORT_ENABLE = 0: the condition of its LINK_FAULT unit clears and an attempt on it
completes (R465). -/
def State.linkDisabled (s : State) (port : Nat) : State :=
  let (src, u) := linkSource port
  let s := (s.clearCond src u).updUnit src u (fun u => { u with attempt := false })
  { s with fault := { s.fault with funcs := s.fault.funcs.filter (· != (1, port)) } }

end Sys2Proof.Machine
end

