-- ==== Sys2Proof/Machine/Tables.lean ====
section
/-! DEFINITION. The metadata word, field selectors, exact-match structures and records: key building (R114), hashes and
lookups (R115 to R126), inserts, parity (R138), records and references (R141, R142, R555). -/
namespace Sys2Proof.Machine

/-! ### The metadata word (R95) -/

/-- A field of the metadata word: lowest bit and width. -/
structure Field where
  lo : Nat
  width : Nat
deriving DecidableEq, Repr

def M.ingressPort : Field := ⟨503, 9⟩
def M.inst : Field := ⟨497, 6⟩
def M.instGen : Field := ⟨489, 8⟩
def M.frameLen : Field := ⟨475, 14⟩
def M.rxStamp : Field := ⟨443, 32⟩
def M.etherType : Field := ⟨427, 16⟩
def M.vidOuter : Field := ⟨415, 12⟩
def M.vidInner : Field := ⟨403, 12⟩
def M.pcp : Field := ⟨400, 3⟩
def M.vlanDepth : Field := ⟨398, 2⟩
def M.mplsDepth : Field := ⟨395, 3⟩
def M.mplsTop : Field := ⟨375, 20⟩
def M.l3Proto : Field := ⟨367, 8⟩
def M.dscp : Field := ⟨361, 6⟩
def M.l3Type : Field := ⟨357, 4⟩
def M.l4Sport : Field := ⟨341, 16⟩
def M.l4Dport : Field := ⟨325, 16⟩
/-- LAYER_OFF of one slot -/
def M.layer (n : Nat) : Field := ⟨261 + 8 * n, 8⟩
def M.flags : Field := ⟨245, 16⟩
def M.appid : Field := ⟨229, 16⟩
def M.ptpMsg : Field := ⟨225, 4⟩
def M.redSeq : Field := ⟨209, 16⟩
def M.redType : Field := ⟨207, 2⟩
def M.redLan : Field := ⟨203, 4⟩
def M.verdict : Field := ⟨201, 2⟩
def M.cause : Field := ⟨195, 6⟩
def M.keyProfile : Field := ⟨191, 4⟩
def M.frontResult : Field := ⟨127, 64⟩
def M.ruleAddr : Field := ⟨110, 17⟩
def M.ruleHit : Field := ⟨109, 1⟩
def M.prefixAddr : Field := ⟨90, 19⟩
def M.prefixHit : Field := ⟨89, 1⟩
def M.frontHit : Field := ⟨88, 1⟩
def M.stationPending : Field := ⟨87, 1⟩
def M.cls : Field := ⟨83, 4⟩
def M.colour : Field := ⟨81, 2⟩
def M.assoc : Field := ⟨65, 16⟩
def M.assocValid : Field := ⟨64, 1⟩
def M.stream : Field := ⟨48, 16⟩
def M.rewrite : Field := ⟨32, 16⟩
def M.queue : Field := ⟨19, 13⟩
def M.egressPort : Field := ⟨10, 9⟩

/-- Reads a field of a word. -/
def Field.get (f : Field) (md : Nat) : Nat := bits md f.lo f.width

/-- Writes a field of a word. -/
def Field.put (f : Field) (v md : Nat) : Nat := setBits md f.lo f.width v

/-- Writes several fields of a word. -/
def putFields (md : Nat) (l : List (Field × Nat)) : Nat := l.foldl (fun m e => e.1.put e.2 m) md

/-! ### Header window and selectors (R82, R114) -/

/-- The header window: the first 256 bytes of the frame; those of a SecTAG are left out (R253). -/
def Packet.window (p : Packet) : List Byte :=
  if p.sectag = 0 then p.rx.bytes.take 256
  else (p.rx.bytes.take 12 ++ p.rx.bytes.drop (12 + p.sectag)).take 256

/-- Bytes of the header window at a layer slot and offset, in network order; 0 beyond the frame or the window. -/
def Packet.header (p : Packet) (slot off len : Nat) : Nat := beAt p.window ((M.layer slot).get p.md + off) len

/-- The field a selector names: its width and value. Header fields are read most significant bit first. -/
def Packet.select (p : Packet) (sel : Nat) : Nat × Nat :=
  let w := sel % 64 + 1
  if bit sel 15 then
    let n := ceilDiv w 8
    (w, p.header (bits sel 12 3) (bits sel 6 6) n / 2 ^ (8 * n - w))
  else (w, bits p.md (bits sel 6 9) w)

/-- Packs fields from bit `top` − 1 downward in their order; the remaining low bits are 0. -/
def packFields : Nat → List (Nat × Nat) → Nat
  | _, [] => 0
  | top, (w, v) :: l => v * 2 ^ (top - w) + packFields (top - w) l

/-- The selectors of a series of a key profile. -/
def Bank.selectors (b : Bank) (p : Param) (per prof n : Nat) : List Nat :=
  (List.range n).map (fun k => b.getN p (per * prof + k))

/-- The front key of a packet under a key profile (R114). -/
def Packet.frontKey (p : Packet) (b : Bank) (prof : Nat) : Nat :=
  b.getN P.kpTable prof * 2 ^ 124
    + packFields 124 ((b.selectors P.kpField 8 prof (b.getN P.kpNfields prof)).map p.select)

/-- The learn key of a packet under a key profile (R113). -/
def Packet.learnKey (p : Packet) (b : Bank) (prof : Nat) : Nat :=
  b.getN P.kpTable prof * 2 ^ 124
    + packFields 124 ((b.selectors P.kpLfield 8 prof (b.getN P.kpNfields prof)).map p.select)

/-- The station key of a key: KEY[127:64]. -/
def stationKey (key : Nat) : Nat := key / 2 ^ 64

/-! ### Results (R121) -/

def R.type : Field := ⟨61, 3⟩
def R.static : Field := ⟨60, 1⟩
def R.pinned : Field := ⟨59, 1⟩
def R.learned : Field := ⟨58, 1⟩
def R.inst : Field := ⟨52, 6⟩
def R.rsv : Field := ⟨48, 4⟩
def R.target : Field := ⟨28, 20⟩
def R.action : Field := ⟨8, 20⟩
def R.user : Field := ⟨0, 8⟩

/-! ### Homes of a key (R115, R125) -/

/-- Bucket of a hash in a structure of `nb` buckets. -/
def bucketOf (h nb : Nat) : Nat := h * nb / 2 ^ 32

/-- Buckets of front table t. -/
def Bank.frontBuckets (b : Bank) (t : Nat) : Nat := b.getN P.ftSegments t * 16384

/-- B1 of a key in table t. -/
def Bank.front1 (b : Bank) (t key : Nat) : Nat :=
  bucketOf (crc32cFrom (b.getN P.ftSeed t) (beBytes 16 key)) (b.frontBuckets t)

/-- B2 of a key in table t, from the bitwise inverse of the seed. -/
def Bank.front2 (b : Bank) (t key : Nat) : Nat :=
  bucketOf (crc32cFrom (0xFFFFFFFF - b.getN P.ftSeed t) (beBytes 16 key)) (b.frontBuckets t)

/-- Bucket of a key in the front overflow store. -/
def Bank.front3 (b : Bank) (key : Nat) : Nat := bucketOf (crc32cFrom (b.getN P.ovfSeed 0) (beBytes 16 key)) 16384

/-- B1 of a station key. -/
def Bank.station1 (b : Bank) (k : Nat) : Nat := bucketOf (crc32cFrom (b.getN P.stSeed 0) (beBytes 8 k)) 8388608

/-- B2 of a station key. -/
def Bank.station2 (b : Bank) (k : Nat) : Nat :=
  bucketOf (crc32cFrom (0xFFFFFFFF - b.getN P.stSeed 0) (beBytes 8 k)) 8388608

/-- Bucket of a station key in the station overflow store. -/
def Bank.station3 (b : Bank) (k : Nat) : Nat :=
  bucketOf (crc32cFrom (b.getN P.stSeed 0 ^^^ 0x0F0F0F0F) (beBytes 8 k)) 65536

/-! ### Entries: structure 0 FRONT, 1 FRONT_OVERFLOW, 2 STATION, 3 STATION_OVERFLOW -/

/-- The entries of a structure. -/
def Tables.store (t : Tables) (kind : Nat) : Tab Entry :=
  match kind with
  | 0 => t.front
  | 1 => t.frontOvf
  | 2 => t.station
  | _ => t.stationOvf

/-- Writes the entries of a structure. -/
def Tables.setStore (t : Tables) (kind : Nat) (l : Tab Entry) : Tables :=
  match kind with
  | 0 => { t with front := l }
  | 1 => { t with frontOvf := l }
  | 2 => { t with station := l }
  | _ => { t with stationOvf := l }

/-! ### Words and side bits (R110, R120, R122) -/

/-- Even parity of `w` bits of a number from bit `lo` up. -/
def parity (x lo w : Nat) : Nat := ((List.range w).filter (fun i => bit x (lo + i))).length % 2

/-- PAR of a pool word: even parity over [191:128], [127:64] and [63:0], in falling order of its bits (R120). (DEDUCED, entry 146.) -/
def poolPar (w : Nat) : Nat := 4 * parity w 128 64 + 2 * parity w 64 64 + parity w 0 64

/-- Station entry fields (R122). -/
def Q.key : Field := ⟨64, 64⟩
def Q.valid : Field := ⟨63, 1⟩
def Q.static : Field := ⟨62, 1⟩
def Q.learned : Field := ⟨61, 1⟩
def Q.hit : Field := ⟨60, 1⟩
def Q.flags : Field := ⟨58, 2⟩
def Q.par : Field := ⟨56, 2⟩
def Q.inst : Field := ⟨50, 6⟩
def Q.type : Field := ⟨48, 2⟩
def Q.body : Field := ⟨0, 48⟩

/-- The 192 bits of a front word. -/
def Entry.word (e : Entry) : Nat := e.key % 2 ^ 128 * 2 ^ 64 + e.result % 2 ^ 64

/-- The five side bits of a front word: VALID, HIT, PAR (R120). -/
def Entry.side (e : Entry) : Nat := 16 * b2n e.valid + 8 * b2n e.hit + e.par % 8

/-- The 128 bits of a station entry; `flags`: ALT and OVF of a bucket, which slot 0 holds (R122). -/
def Entry.stationWord (e : Entry) (flags : Nat) : Nat :=
  putFields 0 [(Q.key, e.key), (Q.valid, b2n e.valid), (Q.static, R.static.get e.result), (Q.learned, R.learned.get e.result), (Q.hit, b2n e.hit),
    (Q.flags, 2 * (flags % 2) + flags / 2), (Q.par, e.par), (Q.inst, R.inst.get e.result), (Q.type, R.type.get e.result), (Q.body, e.result)]

/-- PAR of an entry of a structure: of the front tier as R120 has it, of the station tier over [127:64] and over [55:0] (R122).
(DEDUCED, entry 146.) -/
def Entry.parityIn (e : Entry) (kind : Nat) : Nat :=
  if kind < 2 then poolPar e.word else 2 * parity (e.stationWord 0) 64 64 + parity (e.stationWord 0) 0 56

/-- The 64 bytes of a station bucket: slot k at bytes 16k to 16k + 15 (R122). -/
def Tables.bucketBytes (t : Tables) (kind bucket : Nat) : List Byte :=
  (List.range 4).flatMap (fun k => leBytes 16 (((t.store kind).at (4 * bucket + k)).stationWord
    (if k = 0 ∧ kind = 2 then t.stFlags.at bucket else 0)))

/-- An entry of a structure. -/
def State.entry (s : State) (c : Nat × Nat) : Entry := (s.tbl.store c.1).at c.2

/-- Writes an entry with its PAR. -/
def State.setEntry (s : State) (c : Nat × Nat) (e : Entry) : State :=
  { s with tbl := s.tbl.setStore c.1 (Tab.put (s.tbl.store c.1) c.2 { e with par := e.parityIn c.1 }) }

/-- The code under which an entry is kept as bad. -/
def badCode (kind index : Nat) : Nat := kind * 2 ^ 32 + index

/-- The parity of an entry fails on a read: its bits do not agree with PAR. `bad`: codes of those that this read finds so. (DEDUCED,
entry 66.) -/
def State.parityFails (s : State) (bad : List Nat) (c : Nat × Nat) : Bool :=
  bad.contains (badCode c.1 c.2) || (s.entry c).par != (s.entry c).parityIn c.1

/-- An entry whose parity fails counts as absent until it is rewritten (R138). (DEDUCED, entry 66.) -/
def State.readable (s : State) (bad : List Nat) (c : Nat × Nat) : Bool :=
  !s.parityFails bad c && !s.tbl.bad.contains (badCode c.1 c.2)

/-- The four cells of a bucket. -/
def bucketCells (kind base bucket : Nat) : List (Nat × Nat) :=
  (List.range 4).map (fun k => (kind, base + 4 * bucket + k))

/-- Index of the first cell of front table t. -/
def frontBase (t : Nat) : Nat := t * 2 ^ 24

/-- Cells a front lookup reads: B1, B2 in a CUCKOO2 table, and the overflow bucket (R119). -/
def Bank.frontCells (b : Bank) (t key : Nat) : List (Nat × Nat) :=
  (if b.getN P.ftSegments t = 0 then [] else
    bucketCells 0 (frontBase t) (b.front1 t key)
      ++ (if b.on P.ftForm t then bucketCells 0 (frontBase t) (b.front2 t key) else []))
  ++ bucketCells 1 0 (b.front3 key)

/-- The first valid cell of a list that holds a key. -/
def State.findIn (s : State) (bad : List Nat) (key : Nat) (l : List (Nat × Nat)) : Option (Nat × Nat) :=
  l.find? (fun c => (s.entry c).valid && (s.entry c).key == key && s.readable bad c)

/-- Front lookup: where the key lies. -/
def State.frontFind (s : State) (b : Bank) (bad : List Nat) (t key : Nat) : Option (Nat × Nat) :=
  s.findIn bad key (b.frontCells t key)

/-- Cells of a station lookup's second read, by the flags of B1 (R126). -/
def State.stationMore (s : State) (b : Bank) (k : Nat) : List (Nat × Nat) :=
  let f := s.tbl.stFlags.at (b.station1 k)
  (if bit f 0 then bucketCells 2 0 (b.station2 k) else []) ++ (if bit f 1 then bucketCells 3 0 (b.station3 k) else [])

/-- Station lookup: where the key lies. -/
def State.stationFind (s : State) (b : Bank) (bad : List Nat) (k : Nat) : Option (Nat × Nat) :=
  s.findIn bad k (bucketCells 2 0 (b.station1 k) ++ s.stationMore b k)

/-- Cells a station lookup reads: the second read follows a miss in B1. -/
def State.stationCells (s : State) (b : Bank) (bad : List Nat) (k : Nat) : List (Nat × Nat) :=
  let first := bucketCells 2 0 (b.station1 k)
  if (s.findIn bad k first).isSome then first else first ++ s.stationMore b k

/-- Bucket reads of a station lookup: a second read counts too (R128). -/
def State.stationReads (s : State) (b : Bank) (bad : List Nat) (k : Nat) : Nat :=
  if (s.findIn bad k (bucketCells 2 0 (b.station1 k))).isSome || (s.stationMore b k).isEmpty then 1 else 2

/-! ### Parity (R138, R168) -/

/-- Codes of the entries that a read finds bad. -/
def badCodes (bad : List BadEntry) : List Nat := bad.map (fun e => badCode e.kind e.index)

/-- A bad entry or record is met on a read: it is counted, recorded, raised, and treated as absent until it is cleared.
`prot`: the packet is of a protection class. (DEDUCED, entries 66, 129.) -/
def State.parityError (s : State) (c : Nat × Nat) (prot : Bool) : State :=
  if s.tbl.bad.contains (badCode c.1 c.2) then s else
    let s := (s.count Stat.tableParityErrors).ruleEvent 138 c.2 0 [c.1]
    let s := s.raise 176 c.1 prot
    { s with tbl := { s.tbl with bad := s.tbl.bad ++ [badCode c.1 c.2] } }

/-- Every bad cell among those a lookup reads. (DEDUCED, entry 129.) -/
def State.readCells (s : State) (bad : List Nat) (l : List (Nat × Nat)) (prot : Bool) : State :=
  s.forEach (l.filter (s.parityFails bad)) (fun s c => s.parityError c prot)

/-- A structure's code for a record, or for an entry of the duplicate table, whose kind is 5 (R138, R168). -/
def recordCode (kind index : Nat) : Nat × Nat := (4, kind * 2 ^ 20 + index)

/-- Within the lap the Pacer clears VALID of a bad entry, and rewrites a host-inserted one from its shadow (R138); records are
host-written and so rewritten, entries of the duplicate table are not (R168). (DEDUCED, entry 66.) -/
def State.repairTables (s : State) : State :=
  let s := s.forEach s.tbl.bad (fun s code =>
    let c := (code / 2 ^ 32, code % 2 ^ 32)
    if c.1 < 4 then (if (s.entry c).host then (s.setEntry c (s.entry c)).pacerAsk false else s.setEntry c {})
    else if 5 * 2 ^ 20 ≤ c.2 then { s with tbl := { s.tbl with dup := s.tbl.dup.del (c.2 - 5 * 2 ^ 20) } }
    else s)
  { s with tbl := { s.tbl with bad := [] } }

/-! ### Inserts and deletes (R116 to R118, R125, R126) -/

/-- The lowest free cell of a bucket. -/
def State.freeCell (s : State) (l : List (Nat × Nat)) : Option (Nat × Nat) :=
  l.find? (fun c => !(s.entry c).valid && s.readable [] c)

/-- Outcome of an insert. -/
inductive Placed where
  | ok (s : State)
  /-- the key has no place: what remains is the state with its victim pointers (R117) -/
  | full (s : State)
  /-- its relocation path met a bad entry (R138) -/
  | stopped (s : State)

/-- The other candidate bucket of a key in a CUCKOO2 table. -/
def Bank.otherBucket (b : Bank) (t key bucket : Nat) : Nat :=
  if b.front1 t key = bucket then b.front2 t key else b.front1 t key

/-- Search for a relocation path (R117): the state with its advanced victim pointers, the path so far, and the free cell it
reaches; a bad entry ends it. -/
def State.relocate (b : Bank) (t : Nat) : Nat → State → Nat → List Nat → State × Option (List Nat × Nat) × Bool
  | 0, s, _, _ => (s, none, false)
  | n + 1, s, bucket, path =>
    let v := s.tbl.victim.at (frontBase t + bucket)
    let s := { s with tbl := { s.tbl with victim := s.tbl.victim.put (frontBase t + bucket) ((v + 1) % 4) } }
    let pos := frontBase t + 4 * bucket + v
    if !s.readable [] (0, pos) then (s, none, true) else
      let nb := b.otherBucket t (s.entry (0, pos)).key bucket
      match s.freeCell (bucketCells 0 (frontBase t) nb) with
      | some f => (s, some (path ++ [pos], f.2), false)
      | none => State.relocate b t n s nb (path ++ [pos])

/-- Carries out the moves of a path from the far end; its first cell is then free for the new key (R117, R118). -/
def State.movePath (s : State) (path : List Nat) (free : Nat) : State :=
  (path.reverse.foldl (fun (a : State × Nat) p => (a.1.setEntry (0, a.2) (a.1.entry (0, p)), p)) (s, free)).1

/-- Places a key in its front overflow bucket. -/
def State.placeOverflow (s : State) (b : Bank) (e : Entry) : Placed :=
  match s.freeCell (bucketCells 1 0 (b.front3 e.key)) with
  | some c => .ok (s.setEntry c e)
  | none => .full s

/-- One try to insert a key into front table t (R116, R117). -/
def State.placeFrontOnce (s : State) (b : Bank) (t : Nat) (e : Entry) : Placed :=
  if b.getN P.ftSegments t = 0 then s.placeOverflow b e else
    let b1 := b.front1 t e.key
    let b2 := b.front2 t e.key
    match s.freeCell (bucketCells 0 (frontBase t) b1 ++ (if b.on P.ftForm t then bucketCells 0 (frontBase t) b2 else [])) with
    | some c => .ok (s.setEntry c e)
    | none =>
      if !b.on P.ftForm t then s.placeOverflow b e else
        match State.relocate b t 8 s b1 [] with
        | (s, some (path, f), _) => .ok ((s.movePath path f).setEntry (0, path.headD f) e)
        | (s, none, true) => .stopped s
        | (s, none, false) => s.placeOverflow b e

/-- The state an insert leaves, and whether the key has a place. -/
def Placed.done : Placed → State × Bool
  | .ok s => (s, true)
  | .full s | .stopped s => (s, false)

/-- Inserts a key into front table t; an insert stopped by a bad entry is retried once after the scrub (R138). (DEDUCED, entry 67.) -/
def State.placeFront (s : State) (b : Bank) (t : Nat) (e : Entry) : State × Bool :=
  match s.placeFrontOnce b t e with
  | .stopped s =>
    match s.repairTables.placeFrontOnce b t e with
    | .stopped s => (s.placeOverflow b e).done
    | x => x.done
  | x => x.done

/-- Sets a flag of a station bucket: 0 ALT, 1 OVF. -/
def State.flagStation (s : State) (bucket flag : Nat) : State :=
  { s with tbl := { s.tbl with stFlags := s.tbl.stFlags.upd bucket (fun f => f ||| 2 ^ flag) } }

/-- Inserts a station key (R125). (DEDUCED, entry 67.) -/
def State.placeStation (s : State) (b : Bank) (e : Entry) : Option State :=
  let b1 := b.station1 e.key
  match s.freeCell (bucketCells 2 0 b1) with
  | some c => some (s.setEntry c e)
  | none =>
    match s.freeCell (bucketCells 2 0 (b.station2 e.key)) with
    | some c => some ((s.setEntry c e).flagStation b1 0)
    | none =>
      match s.freeCell (bucketCells 3 0 (b.station3 e.key)) with
      | some c => some ((s.setEntry c e).flagStation b1 1)
      | none => none

/-- Clears the flags of a station bucket of which no key remains in B2 or in the overflow store (R126). -/
def State.clearFlags (s : State) (bucket : Nat) : State :=
  let b := s.cfg.active
  let alt := s.tbl.station.any (fun e => e.2.valid && b.station1 e.2.key == bucket && e.1 / 4 != bucket)
  let ovf := s.tbl.stationOvf.any (fun e => e.2.valid && b.station1 e.2.key == bucket)
  let f := s.tbl.stFlags.at bucket
  { s with tbl := { s.tbl with stFlags := s.tbl.stFlags.put bucket (b2n (bit f 0 && alt) + 2 * b2n (bit f 1 && ovf)) } }

/-- Whether a key profile searches table t with the station table behind it. -/
def Bank.stationTable (b : Bank) (t : Nat) : Bool :=
  (List.range 16).any (fun p => p != 0 && b.on P.kpStation p && b.getN P.kpTable p == t)

/-- The cell of a list that holds a key: a host-inserted entry holds it also while its rewrite is due (R123, R138). -/
def State.findHeld (s : State) (key : Nat) (l : List (Nat × Nat)) : Option (Nat × Nat) :=
  l.find? (fun c => (s.entry c).valid && (s.entry c).key == key && (s.readable [] c || (s.entry c).host))

/-- Where a key lies over both tiers; only a key whose lower half is 0 has a station key (R114, R123). -/
def State.findOver (s : State) (b : Bank) (t key : Nat) (station : Bool) : Option (Nat × Nat) :=
  match s.findHeld key (b.frontCells t key) with
  | some c => some c
  | none =>
    if station && key % 2 ^ 64 == 0 then
      s.findHeld (stationKey key) (bucketCells 2 0 (b.station1 (stationKey key)) ++ s.stationMore b (stationKey key))
    else none

/-- Where a key of table t lies (R123). -/
def State.findKey (s : State) (b : Bank) (t key : Nat) : Option (Nat × Nat) := s.findOver b t key (b.stationTable t)

/-- Valid entries of every structure: cell and entry. -/
def State.allEntries (s : State) : List ((Nat × Nat) × Entry) :=
  [0, 1, 2, 3].flatMap (fun k => ((s.tbl.store k).filter (fun e => e.2.valid)).map (fun e => ((k, e.1), e.2)))

/-! ### Records (R168, R141, R555) -/

def K.nextHop : Nat := 0
def K.rewrite : Nat := 1
def K.action : Nat := 2
def K.stream : Nat := 3
def K.meter : Nat := 4

/-- A record by kind and index. -/
def State.obj (s : State) (kind index : Nat) : ObjRec := s.tbl.obj.at (kind * 2 ^ 20 + index)

/-- Pool words per record (R168). -/
def poolWords (kind : Nat) : Nat := match kind with | 1 => 4 | 3 => 2 | 4 => 2 | _ => 1

/-- PAR side bits of a record of a kind (R110, R168). -/
def recordPar (kind words : Nat) : Nat := ((List.range (poolWords kind)).map (fun k => poolPar (bits words (192 * k) 192) * 8 ^ k)).sum

/-- Writes a record with its side bits. -/
def State.setObj (s : State) (kind index : Nat) (r : ObjRec) : State :=
  { s with tbl := { s.tbl with obj := s.tbl.obj.put (kind * 2 ^ 20 + index) { r with par := recordPar kind r.words } } }

/-- Changes one field of a record's words. -/
def State.putObj (s : State) (kind index : Nat) (l : List (Field × Nat)) : State :=
  let r := s.obj kind index
  s.setObj kind index { r with words := putFields r.words l }

/-- The parity of a record's words fails on this read, or has failed and its rewrite is due (R168). (DEDUCED, entry 66.) -/
def State.recordBad (s : State) (bad : List Nat) (kind index : Nat) : Bool :=
  let code := badCode (recordCode kind index).1 (recordCode kind index).2
  bad.contains code || s.tbl.bad.contains code || (s.obj kind index).par != recordPar kind (s.obj kind index).words

/-- The parameter that sizes a record region. -/
def regionParam (kind : Nat) : Param :=
  match kind with
  | 0 => P.poolNextHop | 1 => P.poolRewrite | 2 => P.poolAction | 3 => P.poolStream | 4 => P.poolMeter | _ => P.poolDuplicate

/-- Records of a region. -/
def Bank.records (b : Bank) (kind : Nat) : Nat := b.getN (regionParam kind) 0 * (65536 / poolWords kind)

/-- A reference that names no record: index 0 of every kind but next hops. -/
def noRecord (kind index : Nat) : Bool := kind != 0 && index == 0

/-- Action record fields (R169). -/
def A.setClass : Field := ⟨191, 1⟩
def A.cls : Field := ⟨187, 4⟩
def A.setColour : Field := ⟨186, 1⟩
def A.colour : Field := ⟨184, 2⟩
def A.redirect : Field := ⟨183, 1⟩
def A.setAssoc : Field := ⟨182, 1⟩
def A.assoc : Field := ⟨166, 16⟩
def A.mustSign : Field := ⟨165, 1⟩
def A.setStream : Field := ⟨164, 1⟩
def A.stream : Field := ⟨148, 16⟩
def A.setRewrite : Field := ⟨147, 1⟩
def A.rewrite : Field := ⟨131, 16⟩
def A.copyPunt : Field := ⟨130, 1⟩
def A.rsv : Field := ⟨0, 130⟩

/-- Next-hop record fields (R170). -/
def N.kind : Field := ⟨189, 3⟩
def N.port : Field := ⟨180, 9⟩
def N.rewrite : Field := ⟨164, 16⟩
def N.base : Field := ⟨144, 20⟩
def N.count : Field := ⟨137, 7⟩
def N.mode : Field := ⟨134, 3⟩
def N.dest : Field := ⟨122, 12⟩
def N.rclass : Field := ⟨119, 3⟩
def N.rsv : Field := ⟨0, 119⟩

/-- Stream record fields (R173). -/
def S.valid : Field := ⟨383, 1⟩
def S.inst : Field := ⟨377, 6⟩
def S.maxSdu : Field := ⟨363, 14⟩
def S.blockOn : Field := ⟨362, 1⟩
def S.blocked : Field := ⟨361, 1⟩
def S.meterEn : Field := ⟨360, 1⟩
def S.meter : Field := ⟨344, 16⟩
def S.dropYellow : Field := ⟨343, 1⟩
def S.recovery : Field := ⟨341, 2⟩
def S.histLen : Field := ⟨334, 7⟩
def S.resetMs : Field := ⟨318, 16⟩
def S.takeNoSeq : Field := ⟨317, 1⟩
def S.seqValid : Field := ⟨316, 1⟩
def S.recovSeq : Field := ⟨300, 16⟩
def S.history : Field := ⟨236, 64⟩
def S.lastAccept : Field := ⟨212, 24⟩
def S.rsv : Field := ⟨192, 20⟩
def S.matched : Field := ⟨152, 40⟩
def S.passed : Field := ⟨112, 40⟩
def S.sduDrops : Field := ⟨80, 32⟩
def S.dupDiscards : Field := ⟨40, 40⟩
def S.rogueDiscards : Field := ⟨8, 32⟩
def S.rsv0 : Field := ⟨0, 8⟩

/-- Meter record fields (R181). -/
def T.valid : Field := ⟨383, 1⟩
def T.mode : Field := ⟨382, 1⟩
def T.aware : Field := ⟨381, 1⟩
def T.redMark : Field := ⟨380, 1⟩
def T.cir : Field := ⟨356, 24⟩
def T.peir : Field := ⟨332, 24⟩
def T.cbs : Field := ⟨306, 26⟩
def T.pebs : Field := ⟨280, 26⟩
def T.tc : Field := ⟨248, 32⟩
def T.tpe : Field := ⟨216, 32⟩
def T.last : Field := ⟨184, 32⟩
def T.green : Field := ⟨136, 48⟩
def T.yellow : Field := ⟨88, 48⟩
def T.red : Field := ⟨40, 48⟩
def T.rsv : Field := ⟨0, 40⟩

/-- References a result makes: (kind, index) (R121). -/
def resultRefs (r : Nat) : List (Nat × Nat) :=
  (if R.type.get r = 1 then [(K.nextHop, R.target.get r)] else [])
    ++ (if R.action.get r = 0 then [] else [(K.action, R.action.get r)])

/-- References a record makes to others: members, rewrite, stream and meter (R446). -/
def recordRefs (kind w : Nat) : List (Nat × Nat) :=
  (match kind with
  | 0 => (if 1 ≤ N.kind.get w ∧ N.kind.get w ≤ 3 then
            (List.range (N.count.get w)).map (fun k => (K.nextHop, N.base.get w + k)) else [])
          ++ [(K.rewrite, N.rewrite.get w)]
  | 2 => (if A.setStream.get w = 1 then [(K.stream, A.stream.get w)] else [])
          ++ (if A.setRewrite.get w = 1 then [(K.rewrite, A.rewrite.get w)] else [])
  | 3 => if S.meterEn.get w = 1 then [(K.meter, S.meter.get w)] else []
  | _ => []).filter (fun r => !noRecord r.1 r.2)

/-- The reference count of a record: entries, rules, prefixes and records that name it (R141). -/
def State.refsOf (s : State) (kind index : Nat) : Nat :=
  let n := fun l : List (Nat × Nat) => (l.filter (fun r => r == (kind, index))).length
  (s.allEntries.map (fun e => n (resultRefs e.2.result))).sum
    + ((s.srch.rule.filter (fun r => r.2.valid)).map (fun r => n (resultRefs r.2.result))).sum
    + ((s.srch.pfx.filter (fun r => r.2.valid)).map (fun r => n (resultRefs r.2.result))).sum
    + ((s.tbl.obj.filter (fun r => r.2.st != 0)).map (fun r => n (recordRefs (r.1 / 2 ^ 20) r.2.words))).sum

/-- Whether a record is live for a packet: draining ones only for packets whose lookup completed before the delete (R555). -/
def State.liveFor (s : State) (p : Packet) (kind index : Nat) : Bool :=
  let r := s.obj kind index
  !noRecord kind index && (r.st == 1 || (r.st == 2 && decide (p.looked ≤ r.del)))

/-- Checks of a reference a host makes: draining or free records fail with E_NOT_FOUND, those of another instance with
E_NOT_OWNER; 0 when it is good (R446). -/
def State.refCheck (s : State) (inst : Nat) (refs : List (Nat × Nat)) : Nat :=
  match refs.find? (fun r => s.obj r.1 r.2 |>.st |> (· != 1)) with
  | some _ => E.notFound
  | none => if refs.any (fun r => (s.obj r.1 r.2).owner != inst) then E.notOwner else 0

end Sys2Proof.Machine
end

