-- ==== Sys2Proof/Machine/Search.lean ====
section
/-! DEFINITION. Rule store and prefix store: keys, pre-filter, searches, ordered insertion, prefix groups, parity (R143 to
R161). -/
namespace Sys2Proof.Machine

/-! ### Rule search (R144 to R151) -/

/-- The 320-bit rule key of a packet under a key profile (R144). -/
def Packet.ruleKey (p : Packet) (b : Bank) (prof : Nat) : Nat :=
  prof * 2 ^ 316 + M.inst.get p.md * 2 ^ 310
    + packFields 310 ((b.selectors P.kpRfield 16 prof (b.getN P.kpRnfields prof)).map p.select)

/-- PF_ANY and PF_TAG of a row (R147). -/
def Bank.preFilter (b : Bank) (prof value mask : Nat) : Bool × Nat :=
  let q := b.getN P.kpPfPos prof
  if q ≠ 511 ∧ bits mask q 8 = 255 then (false, bits value q 8) else (true, 0)

/-- Row enabling (R148), in the copy of a quadrant. -/
def Rule.enabled (r : Rule) (b : Bank) (quad prof key : Nat) : Bool :=
  let q := b.getN P.kpPfPos prof
  r.valid && !bit r.lost quad && bits r.value 316 4 == prof && (r.pfAny || r.pfTag == bits key q 8 || q == 511)

/-- VALUE and MASK match the key. -/
def Rule.hits (r : Rule) (key : Nat) : Bool := (r.value &&& r.mask) == (key &&& r.mask)

/-- PAR of a row: even parity over VALUE, MASK, RESULT and the remaining row fields, in falling order of its bits (R143). (DEDUCED,
entry 146.) -/
def Rule.parityOf (r : Rule) : Nat :=
  8 * parity r.value 0 320 + 4 * parity r.mask 0 320 + 2 * parity r.result 0 64
    + parity (b2n r.valid + 2 * b2n r.pfAny + 4 * r.pfTag + 2 ^ 10 * r.prio + 2 ^ 26 * bits r.value 316 4) 0 30

/-- A row as it is written, with its PAR. -/
def Rule.sealed (r : Rule) : Rule := { r with par := r.parityOf }

/-- Rows a search enables. -/
def State.enabledRows (s : State) (b : Bank) (quad prof key : Nat) : List (Nat × Rule) :=
  s.srch.rule.filter (fun e => e.2.enabled b quad prof key)

/-- The lowest enabled row that matches (R151). -/
def State.ruleSearch (s : State) (b : Bank) (quad prof key : Nat) : Option (Nat × Rule) :=
  (s.enabledRows b quad prof key).find? (fun e => e.2.hits key)

/-! ### Ordered insertion (R152) -/

/-- Rows of the rule store (R143). -/
def ruleRows : Nat := 131072

/-- The row after the last row that must precede a rule of priority `prio`: a + 1. -/
def afterRow (rows : Tab Rule) (prio : Nat) (prepend : Bool) : Nat :=
  rows.foldl (fun a e => if e.2.valid && (if prepend then decide (e.2.prio < prio) else decide (e.2.prio ≤ prio)) then max a (e.1 + 1) else a) 0

/-- The first valid row at or above `lo`; the number of rows if there is none. -/
def firstRow (rows : Tab Rule) (lo : Nat) : Nat :=
  ((rows.find? (fun e => e.2.valid && decide (lo ≤ e.1))).map (·.1)).getD ruleRows

/-- The highest free row below `a1` = a + 1, walking down a falling list of valid rows. -/
def downGap : Nat → List Nat → Option Nat
  | 0, _ => none
  | a + 1, [] => some a
  | a + 1, k :: t => if k = a then downGap a t else if a < k then downGap (a + 1) t else some a

/-- Writes a new rule at its place, moving rows one up or one down where no free row lies there; none: no free row. (DEDUCED, entry 70.) -/
def placeRule (rows : Tab Rule) (r : Rule) (prepend : Bool) : Option (Tab Rule × Nat) :=
  let a1 := afterRow rows r.prio prepend
  let b := firstRow rows a1
  if a1 < b then some (Tab.put rows a1 r, a1) else
    let fu := firstGap b (rows.keys.filter (fun k => decide (b ≤ k)))
    let fd := downGap a1 (rows.keys.reverse.filter (fun k => decide (k < a1)))
    let up := decide (fu < ruleRows)
    let upBest := match fd with
      | some d => up && decide (fu - b + 1 ≤ a1 - d)
      | none => up
    if upBest then
      some (Tab.put (rows.map (fun e => if b ≤ e.1 ∧ e.1 < fu then (e.1 + 1, e.2) else e)) b r, b)
    else match fd with
      | some d => some (Tab.put (rows.map (fun e => if d < e.1 ∧ e.1 < a1 then (e.1 - 1, e.2) else e)) (a1 - 1) r, a1 - 1)
      | none => none

/-- Where the rule of a handle stands. -/
def State.ruleOf (s : State) (handle : Nat) : Option (Nat × Rule) :=
  s.srch.rule.find? (fun e => e.2.valid && e.2.handle == handle)

/-- Rows an instance holds (RKEY[315:310] of a rule that fixes it; every other rule belongs to instance 0). -/
def Rule.inst (r : Rule) : Nat := if bits r.mask 310 6 = 63 then bits r.value 310 6 else 0

/-! ### Prefix store (R156 to R160) -/

/-- Rows of the prefix store (R156). -/
def prefixRows : Nat := 65536

/-- Address width of a family. -/
def addrWidth (family : Nat) : Nat := if family = 4 then 32 else 128

/-- Lanes of a row of a family. -/
def lanesOf (family : Nat) : Nat := if family = 4 then 8 else 1

/-- Rows of a group. -/
def Search.rowsOf (q : Search) (family len : Nat) : Nat := q.groupRows.at (256 * family + len)

/-- Rows all groups hold. -/
def Search.rowsUsed (q : Search) : Nat := (q.groupRows.map (·.2)).sum

/-- First row of a group (R158): IPv6 fills upward from 0, longest first; IPv4 downward from 65,535, length 0 at the top. -/
def Search.firstOf (q : Search) (family len : Nat) : Nat :=
  if family = 4 then prefixRows - ((List.range (len + 1)).map (fun l => q.rowsOf 4 l)).sum
  else ((List.range (128 - len)).map (fun k => q.rowsOf 6 (len + 1 + k))).sum

/-- Parity of a lane: over its VRF and address, its length, its result, and VALID with the row's mode (R156). (DEDUCED, entry 146.) -/
def Prefix.parityOf (p : Prefix) : Nat :=
  8 * parity (p.vrf * 2 ^ 128 + p.addr) 0 136 + 4 * parity p.len 0 8 + 2 * parity p.result 0 64
    + (if p.valid then parity (1 + 2 * p.family) 0 4 else 0)

/-- A lane as it is written, with its parity. -/
def Prefix.sealed (p : Prefix) : Prefix := { p with par := p.parityOf }

/-- Copies a row to another and empties it. -/
def moveRow (t : Tab Prefix) (src dst : Nat) : Tab Prefix :=
  if src = dst then t else
    (List.range 8).foldl (fun t k => Tab.put (Tab.put t (8 * dst + k) (t.at (8 * src + k))) (8 * src + k) {}) t

/-- Groups that move when a group takes or gives up a row, from the far end: shorter ones for IPv6, longer ones for IPv4. -/
def Search.movers (q : Search) (family len : Nat) : List Nat :=
  let l := if family = 4 then ((List.range (32 - len)).map (fun k => 32 - k)) else List.range len
  l.filter (fun n => decide (0 < q.rowsOf family n))

/-- R159: the group takes one more row; its number. None when no free row remains. -/
def Search.grow (q : Search) (family len : Nat) : Option (Search × Nat) :=
  if prefixRows ≤ q.rowsUsed then none else
    let pfx := (q.movers family len).foldl (fun t n =>
      let f := q.firstOf family n
      let last := f + q.rowsOf family n - 1
      if family = 4 then moveRow t last (f - 1) else moveRow t f (last + 1)) q.pfx
    let first := q.firstOf family len
    let row := if family = 4 then first - 1 else first + q.rowsOf family len
    some ({ q with pfx := pfx, groupRows := q.groupRows.upd (256 * family + len) (· + 1) }, row)

/-- R160: an emptied row goes back: the group's edge row fills the hole, and the moves of R159 run in reverse. -/
def Search.shrink (q : Search) (family len row : Nat) : Search :=
  let f := q.firstOf family len
  let last := f + q.rowsOf family len - 1
  let edge := if family = 4 then f else last
  let t := moveRow q.pfx edge row
  let t := (q.movers family len).reverse.foldl (fun t n =>
    let f := q.firstOf family n
    let last := f + q.rowsOf family n - 1
    if family = 4 then moveRow t f (last + 1) else moveRow t last (f - 1)) t
  { q with pfx := t, groupRows := q.groupRows.upd (256 * family + len) (· - 1) }

/-- Where a prefix is stored. -/
def Search.findPrefix (q : Search) (family vrf len addr : Nat) : Option Nat :=
  (q.pfx.find? (fun e => e.2.valid && e.2.family == family && e.2.vrf == vrf && e.2.len == len && e.2.addr == addr)).map (·.1)

/-- A free lane of a group. -/
def Search.freeLane (q : Search) (family len : Nat) : Option Nat :=
  ((List.range (q.rowsOf family len)).flatMap (fun r =>
    (List.range (lanesOf family)).map (fun k => 8 * (q.firstOf family len + r) + k))).find? (fun a => !(q.pfx.at a).valid)

/-- Inserts a prefix (R159). (DEDUCED, entry 70.) -/
def Search.placePrefix (q : Search) (p : Prefix) : Option Search :=
  match q.freeLane p.family p.len with
  | some a => some { q with pfx := Tab.put q.pfx a p }
  | none =>
    match q.grow p.family p.len with
    | some (q, row) => some { q with pfx := Tab.put q.pfx (8 * row) p }
    | none => none

/-- Deletes the prefix at an address (R160). -/
def Search.dropPrefix (q : Search) (a : Nat) : Search :=
  let p := q.pfx.at a
  let q := { q with pfx := Tab.put q.pfx a {} }
  if (List.range 8).any (fun k => (q.pfx.at (8 * (a / 8) + k)).valid) then q else q.shrink p.family p.len (a / 8)

/-- A lane matches (R157), in the copy of a quadrant. -/
def Prefix.hits (p : Prefix) (quad family vrf addr : Nat) : Bool :=
  p.valid && !bit p.lost quad && p.family == family && p.vrf == vrf
    && p.addr / 2 ^ (addrWidth family - p.len) == addr / 2 ^ (addrWidth family - p.len)

/-- The longest match, which is the lowest address (R158). -/
def State.prefixSearch (s : State) (quad family vrf addr : Nat) : Option (Nat × Prefix) :=
  s.srch.pfx.find? (fun e => e.2.hits quad family vrf addr)

/-- The key of a packet's prefix search: family, VRF and address; none when it issues none (R157). -/
def Packet.prefixKey (p : Packet) (b : Bank) (prof : Nat) : Option (Nat × Nat × Nat) :=
  let mode := b.getN P.kpPrefix prof
  let family := M.l3Type.get p.md
  if prof = 0 ∨ mode = 0 ∨ (family ≠ 4 ∧ family ≠ 6) then none else
    let sel := b.getN P.kpVrf prof
    let vrf := if sel = 0 then 0 else (p.select sel).2
    let off := if family = 4 then (if mode = 1 then 16 else 12) else (if mode = 1 then 24 else 8)
    some (family, vrf, p.header 3 off (addrWidth family / 8))

/-! ### Parity (R161) -/

/-- A rewrite from the Pacer's shadow. -/
def Move.isShadow : Move → Bool
  | .shadow .. => true
  | .entry .. => false

/-- The move engine has updates of the host to make. -/
def State.moving (s : State) : Bool := s.srch.moves.any (fun m => !m.isShadow)

/-- A row or lane of one quadrant's copy fails its parity: VALID is cleared there, and the rewrite from the shadow goes to the
move engine ahead of host updates. Store 5 rule, 6 prefix. (DEDUCED, entry 66.) -/
def State.searchParity (s : State) (store address quad : Nat) (prot : Bool) : State :=
  let q := s.srch
  let q := if store = 5 then { q with rule := q.rule.upd address (fun r => if r.valid then { r with lost := r.lost ||| 2 ^ quad } else r) }
    else { q with pfx := q.pfx.upd address (fun p => if p.valid then { p with lost := p.lost ||| 2 ^ quad } else p) }
  let s := { s with srch := { q with moves := q.moves.filter Move.isShadow ++ [Move.shadow store address quad] ++ q.moves.filter (fun m : Move => !m.isShadow) } }
  (s.ruleEvent 161 address 0 [store - 5, quad]).raise (148 + quad) 0 prot

end Sys2Proof.Machine
end

