-- ==== Sys2Proof/Machine/Gates.lean ====
section
/-! DEFINITION. Gate lists as a function of device time (R227 to R232), windows (R236, R239), preemption (R62, R63), shapers and
ramps (R221 to R223). -/
namespace Sys2Proof.Machine

/-! ### Gate entries (R228) -/

def G.states : Field := ⟨80, 16⟩
def G.op : Field := ⟨78, 2⟩
def G.prefetch : Field := ⟨77, 1⟩
def G.assoc : Field := ⟨61, 16⟩
def G.rsv : Field := ⟨32, 29⟩
def G.interval : Field := ⟨0, 32⟩

/-- The entry that a position of the cycle lies in, and the nanoseconds left of it. -/
def entryAt : List Nat → Nat → Nat → Nat × Nat
  | [], i, _ => (i, 0)
  | e :: l, i, pos => if pos < G.interval.get e ∨ l = [] then (i, G.interval.get e - pos) else entryAt l (i + 1) (pos - G.interval.get e)

/-- Entry and time left of an operational list at a device time (R230). (DEDUCED, entry 53.) -/
def GateList.at_ (g : GateList) (t : Nat) : Nat × Nat :=
  entryAt g.entries 0 (if g.start ≤ t then (t - g.start) % g.cycle else 0)

/-- The profile of a port. (DEDUCED, entry 53.) -/
def State.gateProfile (s : State) (port k : Nat) : Profile := s.sched.profile.at (4 * port + k)

/-- The operational list of a port's active profile: none when all gates are open (R227, R228, R233). -/
def State.activeList (s : State) (port : Nat) : Option GateList :=
  if !s.parOn P.gateEnable port then none
  else ((s.gateProfile port (s.sched.sel.at port)).oper).filter (fun g => !g.entries.isEmpty)

/-! ### Preemption (R62, R63) -/

/-- Preemption is active on a port: enabled, and verified or without verification. -/
def State.preemptActive (s : State) (port : Nat) : Bool := s.parOn P.preemptEnable port && s.isUp port && (s.prt port).verified

/-- A class that uses the preemptable MAC. -/
def State.preemptable (s : State) (port cls : Nat) : Bool := s.preemptActive port && bit (s.par P.preemptMap port) cls

/-! ### Gate states (R228, R229) -/

/-- Whether the MAC is held in entry `i`: the nearest HOLD or RELEASE entry at or before it is HOLD. In the first cycle of a list no entry
lies before its first one; later the search goes on round the cycle. (DEDUCED, entry 53.) -/
def GateList.held (g : GateList) (first : Bool) (i : Nat) : Bool :=
  let n := g.entries.length
  match ((List.range (if first then i + 1 else n)).map (fun k => G.op.get (g.entries.getD ((i + n - k) % n) 0))).find? (fun op => op == 1 || op == 2) with
  | some op => op == 1
  | none => false

/-- Effective gate states of entry `i` for a port; `first`: in the first cycle of the list (R229). -/
def State.effStates (s : State) (port : Nat) (g : GateList) (first : Bool) (i : Nat) : Nat :=
  let st := G.states.get (g.entries.getD i 0)
  if s.preemptActive port && g.held first i then maskOf ((onesOf 16 st).filter (fun c => !s.preemptable port c)) else st

/-- A device time lies in the first cycle of a list, or before it. -/
def GateList.first (g : GateList) (t : Nat) : Bool := decide (t < g.start + g.cycle)

/-- Effective gate states of a port at a device time: all open without a list. (DEDUCED, entry 53.) -/
def State.gateStatesAt (s : State) (port t : Nat) : Nat :=
  match s.activeList port with
  | none => 0xFFFF
  | some g => s.effStates port g (g.first t) (g.at_ t).1

/-- Effective gate states of a port now. -/
def State.gateStates (s : State) (port : Nat) : Nat := s.gateStatesAt port s.time.dev

/-- The gate of a class is open now. -/
def State.gateOpen (s : State) (port cls : Nat) : Bool := bit (s.gateStates port) cls

/-- Nanoseconds that the gate of a class stays open over entries from `i`, at most `n` of them; entries count on through the cycles from
one that is the first or a later one. -/
def State.openRun (s : State) (port cls : Nat) (g : GateList) (first : Bool) : Nat → Nat → Nat
  | 0, _ => 0
  | n + 1, i =>
    if bit (s.effStates port g (first && decide (i < g.entries.length)) (i % g.entries.length)) cls then
      G.interval.get (g.entries.getD (i % g.entries.length) 0) + s.openRun port cls g first n (i + 1)
    else 0

/-- The gate of a class is open in every entry of a list. -/
def State.alwaysOpen (s : State) (port cls : Nat) (g : GateList) : Bool :=
  (List.range g.entries.length).all (fun i => bit (s.effStates port g false i) cls)

/-- The window of a class at a device time (R236): none when its gate does not close. -/
def State.windowAt (s : State) (port cls t : Nat) : Option Nat :=
  match s.activeList port with
  | none => none
  | some g =>
    if s.alwaysOpen port cls g then none else
      let (i, left) := g.at_ t
      if bit (s.effStates port g (g.first t) i) cls then some (left + s.openRun port cls g (g.first t) (2 * g.entries.length) (i + 1)) else some 0

/-- The window of a class at the present time (R236). -/
def State.window (s : State) (port cls : Nat) : Option Nat := s.windowAt port cls s.time.dev

/-- W_max of a class in the active list (R239): none without a limit. -/
def State.wMax (s : State) (port cls : Nat) : Option Nat :=
  match s.activeList port with
  | none => none
  | some g =>
    if s.alwaysOpen port cls g then none else
      some (((List.range g.entries.length).map (fun i => s.openRun port cls g false g.entries.length i)).foldl max 0)

/-- Nanoseconds × rate that a frame of B bytes needs of a window (R236): (B + 8) × 8 against window × Gb/s. -/
def fitsWindow (b rate : Nat) (w : Option Nat) : Bool :=
  match w with
  | none => true
  | some ns => decide ((b + 8) * 8 ≤ ns * rate)

/-! ### Shapers and ramps (R221 to R223) -/

/-- One byte in the unit of credits and buckets. -/
def creditUnit : Nat := 2000000

/-- The scheduler state of a queue. -/
def State.qs (s : State) (queue : Nat) : QState := s.sched.q.at queue

/-- The queue is paced by the ramp buckets. -/
def State.ramping (s : State) (queue : Nat) : Bool := (s.qs queue).inRamp && s.parOn P.rampEnable queue

/-- The shaper of a queue allows it (R217, R222, R223). -/
def State.shaperOk (s : State) (queue : Nat) : Bool :=
  let q := s.qs queue
  if s.ramping queue then decide (0 ≤ q.tc) && decide (0 ≤ q.tp)
  else if s.par P.shaperMode queue = 1 then decide (0 ≤ q.credit) else true

/-- A class of a port is paused by a received PAUSE or PFC (R68). -/
def State.paused (s : State) (port cls : Nat) : Bool :=
  let t := fun k => decide (s.time.mono < (s.prt port).pause.at k)
  match s.par P.flowCtrl port with
  | 1 => t 8
  | 2 => let k := s.par P.pfcMap (16 * port + cls); decide (k < 8) && t k
  | _ => false

/-- Nanoseconds that bytes take on the wire of a port. -/
def State.wireNs (s : State) (port n : Nat) : Nat := ceilDiv (n * 8) (s.cfg.active.rate port)

/-- Monotonic times between which the present fragment of a copy and the gap after it are on the wire (R221), if it has one. -/
def State.wireSpan (s : State) (c : Copy) : Option (Nat × Nat) :=
  match c.place with
  | .sending t => if c.paused then none else some (t, t + s.wireNs (c.queue / 16) (24 + c.out.length - c.sent))
  | _ => none

/-- A copy is in transmission: from its first preamble byte to the end of its gap, or for as long as its tail is still to come (R221). -/
def State.sends (s : State) (c : Copy) : Bool :=
  match s.wireSpan c with
  | some (t, e) => decide (t ≤ s.time.mono) && (decide (s.time.mono < e) || (c.own.isEmpty && !(s.pkt.at c.pkt).ended))
  | none => false

/-- A frame of the queue is in transmission. -/
def State.sendingFrom (s : State) (queue : Nat) : Bool := s.cpy.any (fun e => e.2.live && e.2.queue == queue && s.sends e.2)

/-- The credit of a queue after `t` ns in which nothing but time passes (R221). -/
def State.creditAfter (s : State) (queue t : Nat) : Int :=
  let port := queue / 16
  let q := s.qs queue
  let slope : Int := (s.par P.idleSlope queue * 16 : Nat)
  let r : Int := (250000 * s.cfg.active.rate port : Nat)
  let hi : Int := (s.par P.hiCredit queue * creditUnit : Nat)
  let lo : Int := s.parI P.loCredit queue * (creditUnit : Int)
  if !s.gateOpen port (queue % 16) || s.paused port (queue % 16) || !s.isUp port then q.credit
  else if s.sendingFrom queue then max lo (q.credit + (slope - r) * (t : Int))
  else if !s.queueEmpty queue then min hi (q.credit + slope * (t : Int))
  else if 0 < q.credit then 0
  else min 0 (q.credit + slope * (t : Int))

/-- The buckets of a queue after `t` ns (R223). -/
def State.bucketsAfter (s : State) (queue t : Nat) : Int × Int :=
  let q := s.qs queue
  let r := s.cfg.active.rate (queue / 16) * 250
  (min ((s.par P.rampCbs queue * creditUnit : Nat) : Int) (q.tc + ((r * s.par P.rampCir queue * t : Nat) : Int)),
   min ((s.par P.rampPbs queue * creditUnit : Nat) : Int) (q.tp + ((r * s.par P.rampPir queue * t : Nat) : Int)))

/-- Queues with SHAPER_MODE = CBS in the Active bank. -/
def State.cbsQueues (s : State) : List Nat :=
  (s.cfg.active.filter (fun e => e.1 / 2 ^ 32 == P.shaperMode.id && e.2 == 1)).map (fun e => e.1 % 2 ^ 32)

/-- Time passes for every shaper and ramp bucket: no credit moves in a ramp. -/
def State.shape (s : State) (t : Nat) : State :=
  let ramp := (s.sched.q.keys).filter s.ramping
  let cbs := s.cbsQueues.filter (fun k => !ramp.contains k)
  let s1 := s.forEach cbs (fun u k => u.updQ k (fun q => { q with credit := s.creditAfter k t }))
  s1.forEach ramp (fun u k => u.updQ k (fun q => { q with tc := (s.bucketsAfter k t).1, tp := (s.bucketsAfter k t).2 }))

/-- A ramp bucket pays for a frame of B bytes (R223). -/
def State.rampPay (s : State) (queue b : Nat) : State :=
  if s.ramping queue then
    s.updQ queue (fun q => { q with tc := q.tc - (((b + 20) * creditUnit : Nat) : Int), tp := q.tp - (((b + 20) * creditUnit : Nat) : Int) })
  else s

/-- The difference between the length that the buckets paid for and the actual one is settled in them at the tail (R223, R182). -/
def State.rampSettle (s : State) (queue b actual : Nat) : State :=
  if s.ramping queue then
    let d : Int := ((b : Int) - (actual : Int)) * (creditUnit : Int)
    s.updQ queue (fun q => { q with
      tc := min ((s.par P.rampCbs queue * creditUnit : Nat) : Int) (q.tc + d)
      tp := min ((s.par P.rampPbs queue * creditUnit : Nat) : Int) (q.tp + d) })
  else s

end Sys2Proof.Machine
end

