-- ==== Sys2Proof/Machine/Admission.lean ====
section
/-! DEFINITION. Stage 7 and the slow path: the length of a frame (R175), admission (R194 to R202, R449), copies and residue
(R204 to R206), punts and their ring (R385 to R389, R521 to R523), default actions (R99 to R101). -/
namespace Sys2Proof.Machine

/-! ### Lengths (R175, R186) -/

/-- Whether a packet came in on a relay port. -/
def State.fromRelay (s : State) (p : Packet) : Bool := (s.bankOf p.gen).on P.portRole p.port

/-- Bytes before the DA: the relay header of a relay port (R77). -/
def State.headBytes (s : State) (p : Packet) : Nat := if s.fromRelay p then 16 else 0

/-- A field of the relay header a frame arrived with: lowest bit of R331 and width. -/
def Packet.relayField (p : Packet) (f : Field) : Nat := f.get (beAt p.rx.bytes 0 16)

def H.src : Field := ⟨116, 12⟩
def H.dst : Field := ⟨104, 12⟩
def H.rclass : Field := ⟨101, 3⟩
def H.seq : Field := ⟨81, 20⟩
def H.hops : Field := ⟨77, 4⟩
def H.inst : Field := ⟨71, 6⟩
def H.type : Field := ⟨69, 2⟩
def H.len : Field := ⟨55, 14⟩
def H.rsv : Field := ⟨16, 39⟩
def H.check : Field := ⟨0, 16⟩

/-- Length from DA to FCS of the bytes received. -/
def State.actualLen (s : State) (p : Packet) : Nat := p.rx.bytes.length - s.headBytes p

/-- L of R175, and whether it is assumed: FRAME_LEN once the tail has passed, else a parsed length field, else MAX_FRAME. -/
def State.lengthOf (s : State) (p : Packet) : Nat × Bool :=
  let h := s.headBytes p
  if p.ended then (s.actualLen p, false)
  else if s.fromRelay p then (p.relayField H.len, false)
  else
    let l3 := (M.layer 3).get p.md
    let l5 := (M.layer 5).get p.md
    let et := M.etherType.get p.md
    match M.l3Type.get p.md with
    | 4 => (beAt p.window (l3 + 2) 2 + l3 + 4 - h, false)
    | 6 => (beAt p.window (l3 + 4) 2 + 40 + l3 + 4 - h, false)
    | _ =>
      if (et = 0x88B8 ∨ et = 0x88BA) ∧ l5 ≠ 0 then (beAt p.window (l5 + 2) 2 + l5 + 4 - h, false)
      else ((s.bankOf p.gen).getN P.maxFrame p.port, true)

/-- Cells of a frame of `len` bytes toward an egress port, or with its relay header toward a VOQ (R186). -/
def cellsFor (len : Nat) (voq : Bool) : Nat := ceilDiv (len + (if voq then 16 else 0)) 256

/-- Length of the frame of a copy, DA to FCS, and whether it is assumed. -/
def State.copyLength (s : State) (c : Copy) : Nat × Bool :=
  if c.own.isEmpty then s.lengthOf (s.pkt.at c.pkt) else (c.own.length + 4, false)

/-- The port tags a frame: MACSEC_TX_ENABLE, and the frame is neither MAC Control nor EAPOL (R255). (DEDUCED, entry 59.) -/
def State.tagsFrame (s : State) (port : Nat) (l : List Byte) : Bool :=
  s.parOn P.macsecTxEnable port && beAt l 12 2 != 0x8808 && beAt l 12 2 != 0x888E

/-- The first bytes of the frame of a copy, without relay header and SecTAG. -/
def State.copyFront (s : State) (c : Copy) : List Byte :=
  if !c.own.isEmpty then c.own
  else
    let p := s.pkt.at c.pkt
    let l := p.rx.bytes.drop (s.headBytes p)
    l.take 12 ++ l.drop (12 + p.sectag)

/-- Bytes that tagging adds to the frame of a copy (R256). -/
def State.tagBytes (s : State) (c : Copy) : Nat :=
  if s.tagsFrame c.port (s.copyFront c) then (if s.parOn P.macsecTxSci c.port then 32 else 24) else 0

/-- Nanoseconds from now to the first byte of a frame that is selected on a port: a fragment that must end first, or has just ended, takes
its mCRC and gap (R64, R238). -/
def State.startsIn (s : State) (port : Nat) : Nat :=
  max ((s.prt port).txFree - s.time.mono)
    (if s.cpy.any (fun e => e.2.live && decide (e.2.queue < 8192) && e.2.queue / 16 == port && e.2.inFlight) then s.wireNs port 16 else 0)

/-- Whether the window rules let the frame of a copy start in `d` ns (R236 to R238). (DEDUCED, entry 154.) -/
def State.windowOk (s : State) (c : Copy) (d : Nat) : Bool :=
  let port := c.queue / 16
  let cls := c.queue % 16
  let (l, assumed) := s.copyLength c
  let b := (if assumed then s.par P.queueMaxSdu c.queue else l) + s.tagBytes c
  bit (s.gateStatesAt port (s.time.dev + d)) cls
    && (s.preemptable port cls || fitsWindow b (s.cfg.active.rate port) (s.windowAt port cls (s.time.dev + d)))

/-- The remainder of a preempted frame waits on a port. -/
def State.holdsRest (s : State) (port : Nat) : Bool :=
  s.cpy.any (fun e => e.2.live && decide (e.2.queue < 8192) && e.2.queue / 16 == port && e.2.begun && e.2.paused)

/-- A frame of the port is in transmission or selected. -/
def State.portBusy (s : State) (port : Nat) : Bool :=
  s.cpy.any (fun e => e.2.live && e.2.queue / 16 == port && decide (e.2.queue < 8192) && (e.2.inFlight || decide (e.2.place = .selected) || (e.2.begun && !e.2.paused)))

/-! ### Admission (R196, R449) -/

/-- What admission decides for a frame's need. -/
inductive Admit where
  /-- admitted: cells above the minimum, and whether they are drawn from headroom -/
  | ok (above : Nat) (head : Bool)
  | share
  | headroom
  | full
deriving DecidableEq, Repr

/-- x × 2^(−k) ≤ limit for an exponent k. -/
def withinAlpha (k : Int) (x limit : Nat) : Bool :=
  if k < 0 then decide (x * 2 ^ (-k).toNat ≤ limit) else decide (x ≤ 2 ^ k.toNat * limit)

/-- R449 and R196 for an entity of quadrant `quad` with `own` cells, a minimum and an exponent. `pri`: ingress port and priority of a
lossless frame. `spill`: whether SPILL_MAX, in place of the dynamic threshold, admits a frame that is to spill (R208). (DEDUCED, entries 61,
134.) -/
def State.admitCells (s : State) (quad inst n own minimum : Nat) (k : Int) (colour : Nat) (pri : Option (Nat × Nat))
    (spill : Option Bool) : Admit :=
  let need := n - min n (minimum - own)
  if s.par P.instCells inst < s.buf.instCells.at inst + need then .share
  else if need = 0 then .ok 0 false
  else match pri with
  | some (p, pr) =>
    if s.buf.pfcCnt.at (8 * p + pr) + n ≤ s.par P.xoffCells (8 * p + pr) ∧ need ≤ s.sharedFree quad then .ok need false
    else if need ≤ s.headFree p pr then .ok need true
    else .headroom
  | none =>
    let div := if colour = 1 then 2 else if colour = 2 then 4 else 1
    if need ≤ s.sharedFree quad ∧ spill.getD (withinAlpha k (((own - minimum) + need) * div) (s.sharedFree quad)) = true then .ok need false
    else .full

/-- ALPHA_K or VOQ_ALPHA_K of a queue. -/
def State.queueAlpha (s : State) (queue : Nat) : Int :=
  if queue < 8192 then s.parI P.alphaK queue else s.parI P.voqAlphaK (queue % 8)

/-- Cells a queue holds in its middle, written to HBM or not. -/
def State.middleCells (s : State) (queue : Nat) : Nat :=
  ([0, 1, 2, 3].map (fun q => ((s.subq queue q).middle.map (fun n => (s.cpy.at n).cells)).sum)).sum

/-- A new frame of a queue joins the spilled middle: the class may spill, the sub-queue has reached SPILL_ON or has a middle,
and the spill write path can accept it (R207, R208). It stays behind the frames that a tail already holds (R190). (DEDUCED, entry 152.) -/
def State.spills (s : State) (queue quad n : Nat) : Bool :=
  decide (queue < 8192) && decide (queue % 16 < 8) && bit (s.par P.spillEnable (queue / 16)) (queue % 16) && (s.subq queue quad).tail.isEmpty
    && (decide (s.par P.spillOn ≤ (s.subq queue quad).occ) || !(s.subq queue quad).middle.isEmpty)
    && s.hbm.valid && decide (s.hbm.spillCells + n ≤ spillRegion)

/-- A queue holds no cell, on chip or spilled (R190, R199, R201). -/
def State.holdsNone (s : State) (queue : Nat) : Bool := decide (s.queueCells queue = 0) && decide (s.queueSpilled queue = 0)

/-- Cut-through eligibility at admission (R199, R202, R214). -/
def State.eligible (s : State) (p : Packet) (queue : Nat) : Bool :=
  if 8192 ≤ queue then !p.whole else
    !p.whole && (s.prt (queue / 16)).hold.isNone && (match s.par P.fwdMode queue with
      | 0 => true
      | 1 => false
      | _ => decide (s.cfg.active.rate p.port ≤ s.cfg.active.rate (queue / 16)) && s.holdsNone queue)

/-- The copy a packet sends to a queue. -/
def State.newCopy (s : State) (n queue rewrite : Nat) (mc : Bool) : Copy :=
  let p := s.pkt.at n
  { live := true, pkt := n, queue := queue, quad := quadOf p.port
    cells := cellsFor (s.lengthOf p).1 (decide (8192 ≤ queue))
    pri := s.cfg.active.losslessPri p.port (M.cls.get p.md)
    rewrite := rewrite, mc := mc, eligible := s.eligible p queue, inst := p.inst, instGen := p.instGen
    transit := p.relaySrc.isSome && decide (p.relayField H.dst ≠ s.fab.id) }

/-- R196 for a copy. (DEDUCED, entries 61, 122.) -/
def State.admitCopy (s : State) (c : Copy) : Admit :=
  s.admitCells c.quad c.inst c.cells (s.subq c.queue c.quad).occ (s.queueMin c.queue) (s.queueAlpha c.queue)
    (if c.own.isEmpty then M.colour.get (s.pkt.at c.pkt).md else 0) (s.priOf c)
    (if s.spills c.queue c.quad c.cells then some (decide (s.middleCells c.queue + c.cells ≤ s.par P.spillMax)) else none)

/-- Another copy of the frame holds its cells. -/
def State.storedBy (s : State) (k : Nat) (c : Copy) : Bool :=
  c.mc && (s.copiesOf c.pkt).any (fun m => m != k && !(s.cpy.at m).store.isEmpty)

/-- A frame takes its cells, once for all its copies (R204). (DEDUCED, entry 61.) -/
def State.storeCopy (s : State) (k : Nat) (c : Copy) : State :=
  if s.storedBy k c || !c.store.isEmpty then { s with cpy := s.cpy.put k c }
  else { s.drawn with cpy := s.cpy.put k { c with store := s.moreCells c.quad c.cells [] } }

/-- A lossless frame counts in pfc_cnt of its (ingress port, priority) (R211). -/
def State.pfcMore (s : State) (pp : Option (Nat × Nat)) (k : Nat) : State :=
  match pp with
  | some (p, pri) => { s with buf := { s.buf with pfcCnt := s.buf.pfcCnt.upd (8 * p + pri) (· + k) } }
  | none => s

/-- Cells are drawn for a frame beyond a minimum: from headroom, or from the shared pool (R196). -/
def State.drawFor (s : State) (pp : Option (Nat × Nat)) (inst k : Nat) (head : Bool) : State :=
  match head, pp with
  | true, some (p, pri) => s.drawHead p pri inst k
  | _, _ => s.instDraw inst k

/-- Places an admitted copy in its sub-queue, drawing its cells once for all copies of a frame (R204), and re-examines PFC. `above`: its
need beyond the minimum. -/
def State.placeCopy (s : State) (k : Nat) (c : Copy) (above : Nat) (head : Bool) : State :=
  let other := c.mc && (s.copiesOf c.pkt).any (fun m => m != k && (match (s.cpy.at m).place with | .residue _ => false | .spilled => false | _ => true))
  let spill := s.spills c.queue c.quad c.cells
  let more := if other then 0 else above - c.drawn
  let cells := if other || c.pri.isNone then 0 else c.cells - c.pfc
  let c := { c with drawn := c.drawn + more, pfc := c.pfc + cells, fromHead := c.fromHead || head, place := .queue, eligible := c.eligible && !spill }
  let s := ((s.storeCopy k c).pfcMore (s.priOf c) cells).drawFor (s.priOf c) c.inst more head
  (s.joinQueue k spill).pfcQuad c.quad

/-- The parts that `r` cells beyond a minimum come from once their frame has been admitted: headroom where its first cell drew on it, then
the shared pool, then the completion reserve (R197). -/
def State.moreParts (s : State) (k r : Nat) : State :=
  let c := s.cpy.at k
  let h := match c.fromHead, s.priOf c with
    | true, some (p, pri) => min r (s.headFree p pri)
    | _, _ => 0
  let f := min (r - h) (s.sharedFree c.quad)
  let s := ((s.drawFor (s.priOf c) c.inst h true).instDraw c.inst f).drawComp c.quad (r - h - f)
  s.updCpy k (fun c => { c with drawn := c.drawn + h + f, comp := c.comp + (r - h - f) })

/-- A copy takes the cells that its frame needs now that its length is known (R186, R197): more of them are always admitted, and those it
does not need go back. Only the copy that lists the frame's cells draws or returns them. (DEDUCED, entry 61.) -/
def State.fitCopy (s : State) (len k : Nat) : State :=
  let c := s.cpy.at k
  let n := cellsFor len (decide (8192 ≤ c.queue))
  let own := s.subq c.queue c.quad
  let e := n - c.cells
  let d := c.cells - n
  let counted := match c.place with | .residue _ => false | .spilled => false | _ => true
  let holds := !c.store.isEmpty
  if c.cells = 0 ∨ n = c.cells then s else
    let s := if holds && counted then s.moreParts k (e - min e (s.queueMin c.queue - own.occ)) else s
    let s := if holds then s.drawn.updCpy k (fun x => { x with store := (s.moreCells c.quad e c.store).take (c.store.length + e - d) }) else s
    let s := if counted then s.updSub c.queue c.quad (fun q => { q with occ := q.occ + e - d }) else s
    let s := if holds then ((s.giveBack c.inst (s.priOf c) (min d c.drawn)).pfcLess (s.priOf c) (min d c.pfc)).pfcMore (s.priOf c) (if c.pfc = 0 then 0 else e) else s
    let s := s.updCpy k (fun x => { x with
      cells := n
      drawn := if holds then x.drawn - min d c.drawn else x.drawn
      pfc := if holds ∧ c.pfc ≠ 0 then x.pfc + e - d else x.pfc })
    (s.pfcQuad c.quad).noteDepth c.queue

/-- A number for a new copy. -/
def State.takeCpy (s : State) : State × Nat := ({ s with nextCpy := s.nextCpy + 1 }, s.nextCpy)

/-- A residue copy from the same ingress port waits for the same queue (R206). -/
def State.residueAhead (s : State) (port queue : Nat) : Bool :=
  s.buf.residue.any (fun m => (s.cpy.at m).queue == queue && (s.pkt.at (s.cpy.at m).pkt).port == port)

/-- A copy enters the residue list, which holds 16,384 (R205). -/
def State.toResidue (s : State) (c : Copy) : State :=
  if 16384 ≤ s.buf.residue.length then s.count Stat.mcResidueFull else
    let (s, k) := s.takeCpy
    let s := s.storeCopy k { c with place := .residue 0 }
    { s with buf := { s.buf with residue := s.buf.residue ++ [k] } }

/-- Counts the refusal of a copy. -/
def State.refused (s : State) (a : Admit) (c : Copy) : State :=
  match a with
  | .share => (s.count Stat.instShareDrops c.inst).raise (256 + c.inst) 0 (decide (12 ≤ c.queue % 16 ∧ c.queue < 8192))
  | .headroom => s.count Stat.pfcHeadroomOverrun
  | _ => s.count Stat.admitDrops c.queue

/-- The frame takes the express bypass (R201). -/
def State.bypasses (s : State) (c : Copy) : Bool :=
  let p := s.pkt.at c.pkt
  let port := c.queue / 16
  decide (c.queue < 8192) && !c.mc && bit ((s.bankOf p.gen).getN P.classExpress 0) (c.queue % 16) && c.eligible
    && decide (s.cfg.active.rate port ≤ s.cfg.active.rate p.port) && s.holdsNone c.queue && s.isUp port && !s.portBusy port
    && !(s.preemptable port (c.queue % 16) && s.holdsRest port) && s.windowOk c (s.startsIn port) && s.shaperOk c.queue

/-- A bypassing frame holds no buffer cell: it is selected as it arrives. -/
def State.placeBypass (s : State) (k : Nat) (c : Copy) : State :=
  ({ s with cpy := s.cpy.put k { c with cells := 0, pri := none, place := .selected } }).joinQueue k false

/-- One copy is admitted, enters the residue list, or is dropped (R196, R201, R205, R206, R215). -/
def State.sendCopy (s : State) (n queue rewrite : Nat) (mc : Bool) : State :=
  let c := s.newCopy n queue rewrite mc
  let port := queue / 16
  if queue < 8192 ∧ s.isUp port = false ∧ (s.prt port).hold.isNone = true then s.count Stat.portDownDrops
  else if queue < 8192 ∧ s.residueAhead (s.pkt.at n).port queue = true then s.toResidue c
  else if s.bypasses c then
    let (s, k) := s.takeCpy
    s.placeBypass k c
  else match s.admitCopy c with
  | .ok above head =>
    let (s, k) := s.takeCpy
    s.placeCopy k c above head
  | .share => s.refused .share c
  | a => if mc then s.toResidue c else s.refused a c

/-- A frame that no packet carries (injected, or a synchrophasor frame) asks for its egress queue; true when it is admitted.
Its cells lie in the quadrant of its egress port, and its stamp is the present time. -/
def State.sendOwn (s : State) (queue inst : Nat) (bytes : List Byte) : State × Bool :=
  let port := queue / 16
  let c : Copy := { live := true, queue := queue, quad := quadOf port, cells := cellsFor (bytes.length + 4) false, own := bytes
                    stamp := s.time.mono, inst := inst, instGen := s.instGen inst }
  if s.isUp port = false ∧ (s.prt port).hold.isNone = true then (s.count Stat.portDownDrops, false)
  else match s.admitCopy c with
  | .ok above head =>
    let (s, k) := s.takeCpy
    (s.placeCopy k c above head, true)
  | a => (s.refused a c, false)

/-- Stage 7 for a whole packet: the false-start check of R451, the freeze of R455, then its copies; a copy of a multicast is
never made for the ingress port or a port that is not UP (R204). An empty path set refuses the frame (R337). -/
def State.stage7 (s : State) (n : Nat) : State :=
  let p := s.pkt.at n
  let s := s.updPkt n (fun p => { p with stage := .released })
  let s :=
    if s.instGen p.inst ≠ p.instGen then s.count Stat.falseStartDrops p.inst
    else if s.frozen p.inst then s.count Stat.instFrozenDrops
    else match p.relay with
    | some (dest, rc) =>
      if (s.fab.path.at dest).isEmpty then s.count Stat.fabricUnreachable
      else s.sendCopy n (8192 + 8 * dest + rc) ((p.dests.headD (0, 0)).2) false
    | none =>
      if p.mc then
        s.forEach (p.dests.filter (fun d => d.1 != p.port && s.isUp d.1))
          (fun s d => s.sendCopy n (16 * d.1 + M.cls.get p.md) d.2 true)
      else s.forEach p.dests (fun s d => s.sendCopy n (16 * d.1 + M.cls.get p.md) d.2 false)
  s.reap n

/-! ### Slow path (R385 to R389, R521 to R523) -/

/-- The ring page of an instance. -/
def State.page (s : State) (i : Nat) : RingPage := s.host.page.at i

/-- Changes a ring page. -/
def State.updPage (s : State) (i : Nat) (f : RingPage → RingPage) : State :=
  { s with host := { s.host with page := s.host.page.upd i f } }

/-- The token bucket of R521 brought up to the present: 20 tokens per µs, at most 2,048, in units of 1/50 token. (DEDUCED, entry 107.) -/
def State.puntTokens (s : State) : State :=
  { s with host := { s.host with tokens := min 102400 (s.host.tokens + (s.time.mono - s.host.tokensAt)), tokensAt := s.time.mono } }

/-- The bytes of a frame from DA to FCS, as received. -/
def State.frameBytes (s : State) (p : Packet) : List Byte := p.rx.bytes.drop (s.headBytes p)

/-- The data of a frame go to the buffers of its entries once it has arrived (R523). (DEDUCED, entry 107.) -/
def State.issueData (s : State) (n : Nat) : State :=
  if !(s.pkt.at n).ended || !s.host.page.any (fun e => e.2.assigned.any (fun a => a.pkt == n && !a.issued)) then s else
    let l := s.frameBytes (s.pkt.at n)
    let due := s.host.page.flatMap (fun e => (e.2.assigned.filter (fun a => a.pkt == n && !a.issued)).map (·.buf))
    let s := s.forEach due (fun s b => s.dmaWrite b.addr (l.take b.len))
    { s with host := { s.host with page := s.host.page.mapAll (fun _ g => { g with
        assigned := g.assigned.map (fun a => if a.pkt = n then { a with issued := true } else a) }) } }

/-- R521: a punt that holds a buffer is assigned a ring entry, or dropped. -/
def State.deliver (s : State) (n cause : Nat) (copy : Bool) (hold : Nat × Nat) : State :=
  let p := s.pkt.at n
  let g := s.page p.inst
  let next := g.rxDone + BitVec.ofNat 16 g.assigned.length
  if !g.rx.enable || decide (next = g.rxPost) then
    ((s.count Stat.puntRxDrops p.inst).updPage p.inst (fun g => { g with rxDrops := if g.rxDrops = BitVec.allOnes 32 then g.rxDrops else g.rxDrops + 1 })).poolRelease hold.1 hold.2
  else
    let s := s.puntTokens
    if s.host.tokens < 50 then (s.count Stat.puntOverload).poolRelease hold.1 hold.2
    else
      let s := { s with host := { s.host with tokens := s.host.tokens - 50 } }
      (s.updPage p.inst (fun g => { g with assigned := g.assigned ++ [
        { pkt := n, cause := cause, copy := copy, gen := p.instGen, hold := hold
          buf := ((g.bufs.find? (fun b => b.1 == next.toNat)).map (·.2)).getD ⟨0, 0⟩ }] })).issueData n

/-- What a granted slow-path buffer is used for: a frame for the HMAC task, or the delivery of a punt. -/
def State.useBuffer (s : State) (n cause : Nat) (copy hmac : Bool) (hold : Nat × Nat) : State :=
  if hmac then s.updPkt n (fun p => { p with hmac := true, hbuf := some hold })
  else s.deliver n cause copy hold

/-- A packet asks the Pacer for a buffer; without one, or while the Pacer is down, the request waits (R388, R389, R24). -/
def State.slowPath (s : State) (n cause : Nat) (copy hmac : Bool) : State :=
  let len := (s.lengthOf (s.pkt.at n)).1
  match (if s.pacer.down then (s, none) else s.poolRequest 0 len) with
  | (s, some hold) => s.useBuffer n cause copy hmac hold
  | (s, none) =>
    let s := if s.pacer.down then s else s.count Stat.poolEmpty 0
    let a : Ask := { requester := 0, bytes := len, pool := (poolFor len).getD 3, wait := 2, pkt := some n, cause := cause, copy := copy, hmac := hmac }
    { s with pacer := { s.pacer with ask := s.pacer.ask.put s.pacer.nextAsk (some a), nextAsk := s.pacer.nextAsk + 1 } }

/-- The packet leaves the path for the slow path with a cause (R163, R101). (DEDUCED, entry 107.) -/
def State.punt (s : State) (n cause : Nat) : State :=
  let s := s.updPkt n (fun p => { p with stage := .released })
  (s.slowPath n cause false false).reap n

/-- A copy goes to the slow path; the packet itself goes on (R169). -/
def State.puntCopy (s : State) (n : Nat) : State := s.slowPath n 0 true false

/-! ### Default action (R99 to R101) -/

/-- Port default class of R164 step 1. -/
def State.portClass (s : State) (p : Packet) : Nat :=
  let b := s.bankOf p.gen
  if M.vlanDepth.get p.md = 0 then b.getN P.untaggedClass p.port else b.getN P.pcpClass (8 * p.port + M.pcp.get p.md)

/-- Member ports of a VLAN: the manual names them for FLOOD and gives no table of members, so every enabled Ethernet port of
the packet's instance is one; on a shared port membership follows VID_OWNER. (DEDUCED, entry 62.) -/
def State.vlanPorts (s : State) (inst vid : Nat) : List Nat :=
  (List.range 512).filter (fun q => s.cfg.active.ethernet q
    && (s.par P.portOwner q == inst || (s.par P.portOwner q == 64 && s.par P.vidOwner vid == inst)))

/-- DEFAULT_ACTION is DEFAULT_QUEUE or FLOOD: the packet stays in the path. -/
def State.defaultStays (s : State) (p : Packet) : Bool := decide (2 ≤ (s.bankOf p.gen).getN P.defaultAction p.port)

/-- DROP and PUNT of the default action. -/
def State.defaultLeave (s : State) (n : Nat) : State :=
  let p := s.pkt.at n
  let c := M.cause.get p.md
  if (s.bankOf p.gen).getN P.defaultAction p.port = 1 then s.punt n c
  else (s.count Stat.defaultDrops (64 * p.port + c)).drop n

/-- Destinations under DEFAULT_QUEUE and FLOOD. (DEDUCED, entry 62.) -/
def State.defaultRoute (s : State) (n : Nat) : State :=
  let p := s.pkt.at n
  let b := s.bankOf p.gen
  if b.getN P.defaultAction p.port = 2 then
    let q := b.getN P.defaultPort p.port
    let c := b.getN P.defaultClass p.port
    s.updPkt n (fun p => { p with dests := [(q, 0)], mc := false
                                  md := putFields p.md [(M.cls, c), (M.egressPort, q), (M.queue, 16 * q + c)] })
  else
    let vid := if M.vlanDepth.get p.md = 0 then b.getN P.pvid p.port else M.vidOuter.get p.md
    s.updPkt n (fun p => { p with dests := (s.vlanPorts p.inst vid).map (fun q => (q, 0)), mc := true
                                  md := M.cls.put (s.portClass p) p.md })

end Sys2Proof.Machine
end

