-- ==== Sys2Proof/Machine/Auth.lean ====
section
/-! DEFINITION. Frame authentication: which association applies (R248, R253, R257), key slots, use counts and fills (R266,
R267, R276 to R287, R298, R299), the tag check (R253, R258) and what a failed verdict does (R184, R254, R262 to R265). -/
namespace Sys2Proof.Machine

/-! ### Which association applies (R248, R253, R257) -/

/-- Rows of R260 counted from 1. -/
def F.unsigned : Nat := 1
def F.confidential : Nat := 2
def F.noSc : Nat := 3
def F.keyUnknown : Nat := 4
def F.tagMalformed : Nat := 5
def F.replay : Nat := 6
def F.keyExhausted : Nat := 7
def F.cmacOverload : Nat := 8
def F.tagMismatch : Nat := 9
def F.staleGen : Nat := 10

/-- Bytes of the SecTAG a received frame carries on a port with MACSEC_MODE ≠ OFF: 0, 8 or 16 (R253). (DEDUCED, entry 73.) -/
def sectagLen (b : Bank) (port : Nat) (l : List Byte) : Nat :=
  if b.getN P.macsecMode port = 0 ∨ b.on P.portRole port = true then 0
  else if beAt l 12 2 = 0x88E5 then (if bit (leAt l 14 1) 5 then 16 else 8) else 0

/-- What stage 6 finds. -/
inductive Plan where
  /-- nothing is verified -/
  | open_
  /-- it fails at the head: cause, and association, key number and PN where it has them -/
  | fail (cause : Nat) (key : Option (Nat × Nat)) (pn : Nat)
  /-- verified under an association and key number, with the PN as carried -/
  | key (assoc num pn : Nat)
deriving DecidableEq, Repr

/-- An association that verifies exists in a bank (R248, R251). -/
def Bank.verifies (b : Bank) (a : Nat) : Bool := b.on P.asEnable a && !b.on P.asDir a

/-- A key number of an association has a key installed (R249); from the delete of an association to its fence it has none
(R251). -/
def State.installed (s : State) (a k : Nat) : Bool :=
  (s.sec.vault.at (4 * a + k)).valid && (s.sec.assoc.at a).removeAt.isNone

/-- Secure-data length of a frame with a SecTAG (R253). -/
def secureLen (l : List Byte) (tag : Nat) : Nat := l.length - 12 - tag - 16 - 4

/-- The secure channel that a SecTAG selects: its SCI and association (R253). -/
def State.channelOf (s : State) (p : Packet) : Option Nat :=
  let scs := (List.range 8).map (fun k => (s.bankOf p.gen).getN P.macsecSc (8 * p.port + k))
  if bit (leAt p.rx.bytes 14 1) 5 then scs.find? (fun v => v != 0 && v % 2 ^ 64 == beAt p.rx.bytes 20 8)
  else (scs.head?).filter (· != 0)

/-- The association of its secure channel replaces any ASSOC from the action set (R248). -/
def State.latchAssoc (s : State) (n : Nat) : State :=
  let p := s.pkt.at n
  match (s.channelOf p).filter (fun _ => decide (0 < p.sectag) && !s.fromRelay p) with
  | some v => s.updPkt n (fun p => { p with md := putFields p.md [(M.assoc, v / 2 ^ 64), (M.assocValid, 1)] })
  | none => s

/-- The SecTAG of a frame and the secure channel it names (R253). -/
def State.macsecPlan (s : State) (p : Packet) : Plan :=
  let l := p.rx.bytes
  let tci := leAt l 14 1
  let sl := leAt l 15 1
  let pn := beAt l 16 4
  let sd := if p.ended then secureLen l p.sectag else 48
  if bit tci 3 || bit tci 2 then .fail F.confidential none pn
  else if bit tci 7 || (sl % 64 != 0 && !(decide (sd < 48) && sl % 64 == sd)) then .fail F.tagMalformed none pn
  else match s.channelOf p with
    | none => .fail F.noSc none pn
    | some v => if pn = 0 then .fail F.tagMalformed (some (v / 2 ^ 64, tci % 4)) 0 else .key (v / 2 ^ 64) (tci % 4) pn

/-- The in-message security header at HDR_OFFSET (R257). -/
def State.messagePlan (s : State) (p : Packet) (a : Nat) : Plan :=
  let o := (s.bankOf p.gen).getN P.hdrOffset a
  let l := p.rx.bytes
  let pn := beAt l (o + 4) 8
  let key := some (a, leAt l o 1 % 4)
  if l.length < o + 16 then .fail F.tagMalformed key 0
  else if leAt l o 1 / 4 ≠ 0 ∨ leAt l (o + 1) 3 ≠ 0 ∨ pn = 0 then .fail F.tagMalformed key (if pn = 0 then 0 else pn)
  else .key a (leAt l o 1 % 4) pn

/-- Where the tag of an in-message mode lies, once the length is known; none when it lies partly outside the frame or over the
header (R257). -/
def tagAt (b : Bank) (a len : Nat) : Option Nat :=
  let off := b.getN P.tagOffset a
  let h := b.getN P.hdrOffset a
  let pos := if b.on P.tagAnchor a then (if off + 20 ≤ len then some (len - 20 - off) else none)
    else if off + 20 ≤ len then some off else none
  pos.filter (fun t => decide (t + 16 ≤ h) || decide (h + 12 ≤ t))

/-- The tag position is known at the head: it counts from the DA and lies within the header window of 256 bytes (R257, R260). -/
def tagInWindow (b : Bank) (a : Nat) : Bool := !b.on P.tagAnchor a && decide (b.getN P.tagOffset a + 16 ≤ 256)

/-- Modes of R244: GCM 0 to 3 (XPN 2, 3), TAG_GMAC 4, 5, TAG_CMAC 6, 7, HMAC 8. -/
def isGcm (mode : Nat) : Bool := decide (mode < 4)
def isXpn (mode : Nat) : Bool := mode == 2 || mode == 3
def isCmac (mode : Nat) : Bool := mode == 6 || mode == 7
def isHmac (mode : Nat) : Bool := mode == 8

/-- The choice of R248 with the checks of R253 and R257 that need no key; the PN is 64 bits wide only once recovered. -/
def State.authPlan (s : State) (p : Packet) : Plan :=
  let b := s.bankOf p.gen
  if s.fromRelay p then .open_ else
    let named :=
      if 0 < p.sectag then s.macsecPlan p
      else if b.getN P.macsecMode p.port = 2 ∧ beAt p.rx.bytes 12 2 ≠ 0x888E then .fail F.unsigned none 0
      else if M.assocValid.get p.md = 1 then .key (M.assoc.get p.md) 0 0 else .open_
    match named with
    | .open_ => if p.mustSign then .fail F.unsigned none 0 else .open_
    | .fail c k pn => .fail c k pn
    | .key a k pn =>
      if !b.verifies a then .fail F.keyUnknown (some (a, k)) pn
      else
        let mode := b.getN P.asMode a
        let plan := if isGcm mode then (if 0 < p.sectag then .key a k pn else .fail F.tagMalformed (some (a, k)) 0)
          else s.messagePlan p a
        match plan with
        | .key a k pn =>
          if !isGcm mode && (p.ended || tagInWindow b a) && (tagAt b a p.rx.bytes.length).isNone then .fail F.tagMalformed (some (a, k)) pn
          else if !s.installed a k then .fail F.keyUnknown (some (a, k)) pn
          else .key a k pn
        | x => x

/-! ### Slots (R276, R277) -/

/-- The VALID slot of a key. -/
def State.slotOf (s : State) (a k : Nat) : Option Nat :=
  (s.sec.slot.find? (fun e => e.2.st == 2 && e.2.assoc == a && e.2.keyNum == k)).map (·.1)

/-- Changes what an association holds. -/
def State.updAssoc (s : State) (a : Nat) (f : AssocState → AssocState) : State :=
  { s with sec := { s.sec with assoc := s.sec.assoc.upd a f } }

/-- Bytes 0 to 111 of the Vault record of key k of association a (R280). -/
def VaultRec.bytes (r : VaultRec) (a k : Nat) : List Byte :=
  leBytes 2 a ++ leBytes 1 (k * 64 + r.mode * 4 + b2n r.valid * 2) ++ leBytes 1 (r.inst * 4) ++ leBytes 12 0
    ++ slice r.wrapped 0 40 ++ leBytes 8 0 ++ leBytes 4 r.useReserved.toNat ++ leBytes 8 r.nextPn.toNat
    ++ leBytes 8 r.lowestPn.toNat ++ leBytes 8 r.txReserved.toNat ++ leBytes 20 0

/-- STATE_MAC of a record (R280). -/
def VaultRec.stateMac (r : VaultRec) (smk : List Byte) (a k : Nat) : List Byte := Crypto.cmac smk (r.bytes a k)

/-- A record with the STATE_MAC of what it holds. -/
def VaultRec.seal (r : VaultRec) (smk : List Byte) (a k : Nat) : VaultRec := { r with mac := r.stateMac smk a k }

/-- Changes a Vault record, and with it its STATE_MAC. -/
def State.updVault (s : State) (a k : Nat) (f : VaultRec → VaultRec) : State :=
  { s with sec := { s.sec with vault := s.sec.vault.upd (4 * a + k) (fun r => (f r).seal s.sec.keys.smk a k) } }

/-- Address of the Vault record of a key (R279). -/
def vaultAddr (a k : Nat) : Nat := hbmVault + 512 * a + 128 * k

/-- A Vault record is changed by a write of the Vault fetch master, in one burst (R279). -/
def State.writeVault (s : State) (a k tag : Nat) (f : VaultRec → VaultRec) : State :=
  (s.updVault a k f).hbmAsk 1 (vaultAddr a k) 128 true tag

/-- All of the state of a slot goes to its Vault record at its eviction or removal (R283). -/
def State.writeBack (s : State) (slot : Nat) : State :=
  let k := s.sec.slot.at slot
  s.writeVault k.assoc k.keyNum slot (fun r => { r with
    useReserved := k.useCount, nextPn := k.nextPn, lowestPn := k.lowestPn, txReserved := k.txPn })

/-- A fill is asked for, one per key, in a queue of 64; a load or prefetch of a key whose fault is queued gives that fill its
policy. False: the queue is full (R285, R286). -/
def State.requestFill (s : State) (f : Fill) : State × Bool :=
  let same := fun (g : Fill) => g.assoc == f.assoc && g.keyNum == f.keyNum
  if s.sec.fills.any same then
    ({ s with sec := { s.sec with fills := s.sec.fills.map (fun g =>
        if same g && g.policy == 0 then { g with policy := f.policy, holdEnd := f.holdEnd } else g) } }, true)
  else if 64 ≤ s.sec.fills.length then (s, false)
  else ({ s with sec := { s.sec with fills := s.sec.fills ++ [f] } }, true)

/-- A slot's hold with another prefetch hold, which ends at `holdEnd`, or none when its key becomes current: the later end counts (R44). -/
def KeySlot.hold (q : KeySlot) (holdEnd : Option (BitVec 32)) : KeySlot :=
  match holdEnd with
  | none => { q with policy := 2, untilCurrent := true }
  | some t => { q with policy := 2, timed := true, holdEnd := if q.timed = true ∧ later 32 t.toNat q.holdEnd.toNat = false then q.holdEnd else t }

/-- A slot without its timed hold, or without the one until its key is current: it returns to LRU when no hold is left. -/
def KeySlot.unhold (q : KeySlot) (timed : Bool) : KeySlot :=
  let q := if timed then { q with timed := false, holdEnd := 0 } else { q with untilCurrent := false }
  if q.policy = 2 ∧ q.timed = false ∧ q.untilCurrent = false then { q with policy := 0 } else q

/-- A key is loaded pinned, or with a prefetch hold that ends at `holdEnd` or, without one, when the key becomes current: a resident key
takes the policy at once (R295, R298, R299). -/
def State.holdKey (s : State) (a k : Nat) (pinned : Bool) (holdEnd : Option (BitVec 32)) : State :=
  match s.slotOf a k with
  | some t => s.updKey t (fun q => if pinned then { q with policy := 1 } else if q.policy = 1 then { q.hold holdEnd with policy := 1 } else q.hold holdEnd)
  | none =>
    let inst := s.par P.asInstance a
    (s.requestFill { assoc := a, keyNum := k, inst := inst, gen := (s.inst.at inst).gen.toNat, policy := if pinned then 1 else 2
                     holdEnd := holdEnd }).1

/-! ### Use counts (R266 to R268, R283, R299) -/

/-- What follows when USE_COUNT of a key first reaches SOFT_LIMIT (R267, R299). `policy` is that of its slot, 0 for a key in none. -/
def State.softLimit (s : State) (a k count policy : Nat) : State :=
  let b := s.cfg.active
  if bit (s.sec.assoc.at a).soft k || decide (count < b.getN P.softLimit a) then s else
    let inst := b.getN P.asInstance a
    let s := s.updAssoc a (fun x => { x with soft := x.soft ||| 2 ^ k })
    let s := (s.log 0x011 [a, k] [count] inst).raise (192 + inst) 0
    let next := (k + 1) % 4
    if !s.installed a next then s else
      let s := if b.on P.autoAdvance a then
        s.updAssoc a (fun x => { x with change := some (next, (s.lap + 1) % 2 ^ 32) }) else s
      if policy = 0 then s else s.holdKey a next (policy == 1) none

/-- USE_COUNT of a slot's key reaches SOFT_LIMIT. -/
def State.slotLimit (s : State) (slot : Nat) : State :=
  let k := s.sec.slot.at slot
  s.softLimit k.assoc k.keyNum k.useCount.toNat k.policy

/-- USE_COUNT rises by n; USE_RESERVED is written ahead by 2²⁰, capped at HARD_LIMIT, before it is passed (R283). -/
def State.addUse (s : State) (slot n : Nat) : State :=
  let k := s.sec.slot.at slot
  let u := k.useCount.toNat + n
  let res := if k.useReserved.toNat < u then min (s.par P.hardLimit k.assoc) (k.useReserved.toNat + 2 ^ 20) else k.useReserved.toNat
  let s := s.updKey slot (fun k => { k with useCount := BitVec.ofNat 32 u, useReserved := BitVec.ofNat 32 (max res u) })
  let s := if k.useReserved.toNat < u then
    s.writeVault k.assoc k.keyNum slot (fun r => { r with useReserved := BitVec.ofNat 32 (max res u) }) else s
  s.slotLimit slot

/-- A pipe takes one count from its block, or a new block of 1,024; false: the key is exhausted (R266). -/
def State.takeUse (s : State) (pipe slot : Nat) : State × Bool :=
  let i := 32 * pipe + slot
  let left := s.sec.block.at i
  if 0 < left then ({ s with sec := { s.sec with block := s.sec.block.put i (left - 1) } }, true)
  else
    let k := s.sec.slot.at slot
    if k.useCount.toNat + 1024 ≤ s.par P.hardLimit k.assoc then
      let s := s.addUse slot 1024
      ({ s with sec := { s.sec with block := s.sec.block.put i 1023 } }, true)
    else (s, false)

/-! ### The tag (R253, R258) -/

/-- PN of 64 bits recovered from 32 under a key's LOWEST_PN (IEEE 802.1AE-2018). (DEDUCED, entry 73.) -/
def recoverPn (lowest pn : Nat) : Nat :=
  let hi := lowest / 2 ^ 32
  if pn < 2 ^ 31 ∧ 2 ^ 31 ≤ lowest % 2 ^ 32 then (hi + 1) * 2 ^ 32 + pn else hi * 2 ^ 32 + pn

/-- Key bytes of a mode: 16 for 128 bits, else 32. (DEDUCED, entry 73.) -/
def keyBytes (mode : Nat) (key : List Byte) : List Byte := if mode % 2 = 0 ∧ mode < 8 then key.take 16 else key.take 32

/-- The IV of a GCM mode (R253). (DEDUCED, entry 73.) -/
def gcmIv (b : Bank) (a mode sci pn : Nat) : List Byte :=
  if isXpn mode then beBytes 12 ((b.getN P.asSsci a * 2 ^ 64 + pn) ^^^ b.getN P.asSalt a)
  else beBytes 8 sci ++ beBytes 4 pn

/-- What a tag is computed with: a replica of the pipe, the round keys a CMAC context holds, or the Pacer's copy of an HMAC key. -/
inductive TagKey where
  | gmac (r : Replica)
  | cmac (rounds : List (List Byte))
  | hmac (key : List Byte)
deriving DecidableEq, Repr

/-- The tag of a message under a key; the IV serves GMAC. -/
def TagKey.tag (k : TagKey) (iv msg : List Byte) : List Byte :=
  match k with
  | .gmac r => Crypto.gmacWith r.rounds r.h iv msg
  | .cmac rounds => Crypto.cmacWith rounds msg
  | .hmac key => (Crypto.hmac256 key msg).take 16

/-- Whether the tag or ICV a frame carries is the one computed under its key. `pn` is the recovered PN. -/
def tagMatches (b : Bank) (a pn : Nat) (key : TagKey) (p : Packet) : Bool :=
  let mode := b.getN P.asMode a
  let l := p.rx.bytes
  if isGcm mode then
    let sci := if bit (leAt l 14 1) 5 then beAt l 20 8 else b.getN P.macsecSc (8 * p.port) % 2 ^ 64
    decide (36 ≤ l.length) && key.tag (gcmIv b a mode sci pn) (l.take (l.length - 20)) == slice l (l.length - 20) 16
  else
    match tagAt b a l.length with
    | none => false
    | some t =>
      let c := b.getN P.coverStart a
      let body := (l.take (l.length - 4))
      let cover := (body.take t).drop c ++ body.drop (max c (t + 16))
      key.tag (beBytes 4 (b.getN P.asSalt a % 2 ^ 32) ++ beBytes 8 pn) cover == slice l t 16

/-! ### Withdrawal of recovery (R184) -/

/-- Bucket of the duplicate table (R180). -/
def Bank.dupBucket (b : Bank) (sa seq stream : Nat) : Nat :=
  bucketOf (crc32cFrom (Config.deviceSeed 19).toNat (beBytes 6 sa ++ beBytes 2 seq ++ beBytes 2 stream)) (b.records 5 / 4)

/-- Source address of a packet. -/
def Packet.sa (p : Packet) : Nat := p.header 0 6 6

/-- Destination address of a packet. -/
def Packet.da (p : Packet) : Nat := p.header 0 0 6

/-- Slot of a bucket of the duplicate table that holds a key. -/
def State.dupFind (s : State) (sa seq stream : Nat) : Option Nat :=
  let k := s.cfg.active.dupBucket sa seq stream
  ((List.range 4).map (fun i => 4 * k + i)).find? (fun i =>
    let w := s.tbl.dup.at i
    bit w 191 && bits w 143 48 == sa && bits w 127 16 == seq && bits w 111 16 == stream)

/-- An accepted copy that fails at its tail gives its acceptance up (R184). -/
def State.withdraw (s : State) (n : Nat) : State :=
  let p := s.pkt.at n
  match p.accepted with
  | none => s
  | some (st, seq) =>
    let w := (s.obj K.stream st).words
    let s := s.updPkt n (fun p => { p with accepted := none })
    match S.recovery.get w with
    | 1 =>
      let d := (S.recovSeq.get w + 2 ^ 16 - seq) % 2 ^ 16
      if d < S.histLen.get w ∧ bit (S.history.get w) d then s.putObj K.stream st [(S.history, S.history.get w - 2 ^ d)] else s
    | 3 =>
      match s.dupFind p.sa seq st with
      | some i => { s with tbl := { s.tbl with dup := s.tbl.dup.del i } }
      | none => s
    | _ => s

/-! ### Verdicts (R254, R262 to R265) -/

/-- A packet is of a protection class (R166). -/
def Packet.protect (p : Packet) : Bool := decide (12 ≤ M.cls.get p.md)

/-- R264: the recorder entry, the FAILED count and the INST_AUTH raise of one failure. -/
def State.authFail (s : State) (n cause : Nat) (key : Option (Nat × Nat)) (pn : Nat) : State :=
  let p := s.pkt.at n
  let ones := 2 ^ 64 - 1
  let (a, k) := key.getD (ones, ones)
  let s := s.log 0x010 [a, k, cause, p.port] [pn] p.inst
  let s := match key with
    | some (a, _) => (s.count Stat.failed a).updAssoc a (fun x => { x with failed := x.failed + 1 })
    | none => s
  s.raise (320 + p.inst) 0 p.protect

/-- R262 at the head, for every cause but KEY_EXHAUSTED: dropped at stage 6, COPY_PUNT ignored. -/
def State.failHead (s : State) (n cause : Nat) (key : Option (Nat × Nat)) (pn : Nat) : State :=
  let s := if cause = F.unsigned ∧ (s.pkt.at n).mustSign then s.count Stat.unsignedDrops (s.pkt.at n).port else s
  let s := s.updPkt n (fun p => { p with learn := none })
  (((s.count Stat.authDrops cause).authFail n cause key pn).withdraw n).drop n

/-- R262 and R268: a key without counts takes KEY_EXHAUSTED_ACTION of the ingress port; what reaches the host is UNTRUSTED.
(DEDUCED, entry 59.) -/
def State.failExhausted (s : State) (n : Nat) (key : Nat × Nat) (pn : Nat) : State :=
  let s := ((s.count Stat.authFails F.keyExhausted).authFail n F.keyExhausted (some key) pn).withdraw n
  let s := s.updPkt n (fun p => { p with verdict := .fail F.keyExhausted, judged := true, untrusted := true, learn := none })
  let s := s.pktUnref n
  let s := if (s.pkt.at n).copyPunt then s.puntCopy n else s
  if (s.bankOf (s.pkt.at n).gen).on P.keyExhaustedAction (s.pkt.at n).port then s.punt n 0x41 else s.drop n

/-- R262 at the tail: copies that have begun are to be stomped, the others are removed; what is bound for the host is
UNTRUSTED. -/
def State.failTail (s : State) (n cause : Nat) : State :=
  let p := s.pkt.at n
  let s := ((s.authFail n cause (some (p.assoc, p.keyNum)) p.pn).withdraw n).pktUnref n
  let s := s.updPkt n (fun p => { p with verdict := .fail cause, judged := true, untrusted := true, learn := none })
  let s := s.forEach (s.copiesOf n) (fun s k =>
    if (s.cpy.at k).begun then (s.count Stat.authStomped (s.cpy.at k).port).updCpy k (fun c => { c with stomp := true })
    else (s.count Stat.authDrops cause).endCopy k)
  s.reap n

/-- The slot of a packet's key and its state. -/
def State.packetSlot (s : State) (p : Packet) : Option (Nat × KeySlot) := p.slot.map (fun k => (k, s.sec.slot.at k))

/-- R254 at the tail, after the tag has matched: false when the PN is behind LOWEST_PN. -/
def State.replayTail (s : State) (b : Bank) (a slot pn : Nat) : State × Bool :=
  if !b.on P.replayProtect a then (s, true) else
    let k := s.sec.slot.at slot
    if pn < k.lowestPn.toNat then (s, false) else
      let next := max k.nextPn.toNat (pn + 1)
      let low := max k.lowestPn.toNat (next - b.getN P.replayWindow a)
      (s.updKey slot (fun k => { k with nextPn := BitVec.ofNat 64 next, lowestPn := BitVec.ofNat 64 low, dirty := true }), true)

/-- A frame passes: it is counted, the key is the last one verified, and its slot reference is given up. -/
def State.passFrame (s : State) (n : Nat) : State :=
  let p := s.pkt.at n
  let s := (s.count Stat.verified p.assoc).updAssoc p.assoc (fun a => { a with verified := a.verified + 1, lastVerified := p.keyNum })
  (s.updPkt n (fun p => { p with verdict := .pass, judged := true })).pktUnref n

/-- The tail check of a frame whose key is in a slot: its cause of failure, or none. -/
def State.tailCheck (s : State) (n : Nat) : State × Nat :=
  let p := s.pkt.at n
  let b := s.bankOf p.gen
  match s.packetSlot p with
  | none => (s, F.keyUnknown)
  | some (slot, k) =>
    if !isGcm (b.getN P.asMode p.assoc) && (tagAt b p.assoc p.rx.bytes.length).isNone then (s, F.tagMalformed)
    else if !(if isCmac (b.getN P.asMode p.assoc) then p.tagOk.getD false
        else tagMatches b p.assoc p.pn (.gmac (k.replica.at (pipeOf p.port))) p) then (s, F.tagMismatch)
    else
      let (s, ok) := s.replayTail b p.assoc slot p.pn
      (s, if ok then 0 else F.replay)

/-! ### Learn events (R131) -/

/-- The learn event of a packet enters the FIFO of its pipe, once its tail is good and its verdict, if any, is a pass. -/
def State.raiseLearn (s : State) (n : Nat) : State :=
  let p := s.pkt.at n
  match p.learn with
  | none => s
  | some key =>
    if !p.ended || p.bad || !(decide (p.stage = .released) || decide (p.stage = .anchor)) || p.bench.isSome || p.hmac
        || !(decide (p.verdict = .none) || decide (p.verdict = .pass)) then s else
      let s := s.updPkt n (fun p => { p with learn := none })
      if s.frozen p.inst then s else
        let pipe := pipeOf p.port
        let q := s.learn.fifo.at pipe
        if 256 ≤ q.length then s.count Stat.learnFifoDrops
        else
          let e : LearnEvent := { key := key, port := p.port, stamp := p.arrived % 2 ^ 32, inst := p.inst, instGen := p.instGen, station := (s.bankOf p.gen).on P.kpStation (M.keyProfile.get p.md) }
          { s with learn := { s.learn with fifo := s.learn.fifo.put pipe (q ++ [e]) } }

/-- A packet is dropped before it has a verdict: its learn event is still raised (R131). -/
def State.stageDrop (s : State) (n : Nat) : State :=
  ((s.updPkt n (fun p => { p with stage := .released })).raiseLearn n).drop n

/-- A packet is punted before it has a verdict: its learn event is still raised (R131). -/
def State.stagePunt (s : State) (n cause : Nat) : State :=
  ((s.updPkt n (fun p => { p with stage := .released })).raiseLearn n).punt n cause

end Sys2Proof.Machine
end

