-- ==== Sys2Proof/Machine/FlashRecords.lean ====
section
/-! DEFINITION. What the flash holds under a CMAC: boot headers, persistent records and last-good slots (R441, R496 to R498, R542). -/
namespace Sys2Proof.Machine

/-! ### Boot headers (R497, R498) -/

/-- Bytes 0 to 47 of a boot header copy. -/
def BootHdr.bytes (h : BootHdr) : List Byte :=
  [0x58#8, 0x51#8, 0x42#8, 0x48#8] ++ leBytes 2 1 ++ leBytes 1 (b2n h.slotB) ++ leBytes 1 0 ++ leBytes 4 h.writeSeq ++ leBytes 1 h.mhz
    ++ leBytes 1 h.opcode ++ leBytes 1 h.dummy ++ leBytes 1 0 ++ leBytes 4 h.svn ++ leBytes 28 0

/-- A copy with its AES-CMAC under the boot key. -/
def BootHdr.seal (h : BootHdr) (key : List Byte) : BootHdr := { h with mac := Crypto.cmac key h.bytes }

/-- A copy is valid: its values are in range and its CMAC holds. -/
def BootHdr.good (h : BootHdr) (key : List Byte) : Bool :=
  h.valid && decide (25 ≤ h.mhz ∧ h.mhz ≤ 100) && decide (h.dummy ≤ 31) && h.mac == Crypto.cmac key h.bytes

/-- The boot key, where the device holds it (R281). -/
def State.bootKey (s : State) : List Byte := s.sec.keys.boot

/-- Copy 1 is the valid one with the later WRITE_SEQ. -/
def Boot.headerOne (b : Boot) (key : List Byte) : Bool := b.hdr1.good key && !(b.hdr0.good key && later 32 b.hdr0.writeSeq b.hdr1.writeSeq)

/-- The boot header in use; without a valid copy slot A is preferred. -/
def Boot.header (b : Boot) (key : List Byte) : BootHdr := if b.headerOne key then b.hdr1 else if b.hdr0.good key then b.hdr0 else {}

/-- A new header goes into the copy that is invalid, or the one with the earlier WRITE_SEQ, one above the other copy's. -/
def Boot.writeHeader (b : Boot) (key : List Byte) (h : BootHdr) : Boot :=
  let h := ({ h with valid := true, writeSeq := ((b.header key).writeSeq + 1) % 2 ^ 32 } : BootHdr).seal key
  if b.headerOne key || !b.hdr0.good key then { b with hdr0 := h } else { b with hdr1 := h }

/-- How the whole flash is read: as the header in use says, or 25 MHz single-line SDR without one (R497, R542). -/
def Boot.readMode (b : Boot) (key : List Byte) : FlashRead :=
  let h := b.header key
  if h.valid then { dtr := true, mhz := h.mhz, opcode := h.opcode, dummy := h.dummy } else {}

/-! ### Persistent records (R497) -/

/-- An entry of POLICY: severity, entry rung, SET. -/
def Persist.policyWord (p : Persist) (src : Nat) : Nat :=
  match p.policy.at src with
  | some (sev, rung) => sev + 8 * rung + 64
  | none => 0

/-- Bytes 0 to 799 of a persistent record copy. -/
def Persist.bytes (p : Persist) : List Byte :=
  [0x58#8, 0x51#8, 0x50#8, 0x52#8] ++ leBytes 2 1 ++ leBytes 2 0 ++ leBytes 4 p.writeSeq ++ leBytes 4 p.hours ++ leBytes 3 p.pwr
    ++ leBytes 1 p.stridePtr ++ leBytes 12 0 ++ (List.range 384).flatMap (fun k => leBytes 2 (p.policyWord k))

/-- A copy with its AES-CMAC under the boot key. -/
def Persist.seal (p : Persist) (key : List Byte) : Persist := { p with mac := Crypto.cmac key p.bytes }

/-- A copy is valid. (DEDUCED, entry 28.) -/
def Persist.good (p : Persist) (key : List Byte) : Bool := p.valid && p.mac == Crypto.cmac key p.bytes

/-- Copy 1 is the valid one with the later WRITE_SEQ. -/
def Boot.persistOne (b : Boot) (key : List Byte) : Bool := b.per1.good key && !(b.per0.good key && later 32 b.per0.writeSeq b.per1.writeSeq)

/-- The persistent record in use; without a valid copy the defaults stand. (DEDUCED, entry 28.) -/
def Boot.persist (b : Boot) (key : List Byte) : Persist := if b.persistOne key then b.per1 else if b.per0.good key then b.per0 else {}

/-- A new persistent record goes into the other copy. (DEDUCED, entry 28.) -/
def Boot.writePersist (b : Boot) (key : List Byte) (f : Persist → Persist) : Boot :=
  let p := b.persist key
  let r := ({ f p with valid := true, writeSeq := (p.writeSeq + 1) % 2 ^ 32 } : Persist).seal key
  if b.persistOne key then { b with per0 := r } else { b with per1 := r }

/-- The persistent record is written under the boot key of the device. -/
def State.keepPersist (s : State) (f : Persist → Persist) : State := { s with boot := s.boot.writePersist s.bootKey f }

/-! ### Last-good slots (R441). The manual gives the header's fields; the layout of the image is the model's. -/

/-- A list of elements with its length. (DESIGN CHOICE, entry 156.) -/
def counted {α : Type} (f : α → List Byte) (l : List α) : List Byte := leBytes 4 l.length ++ l.flatMap f

/-- The bytes of an image. (DESIGN CHOICE, entry 156.) -/
def LgImage.bytes (g : LgImage) : List Byte :=
  counted (fun (e : Nat × Int) => leBytes 8 e.1 ++ leBytes 136 (unsigned 1088 e.2)) g.bank
    ++ counted (fun (e : Nat × Entry) => leBytes 8 e.1 ++ leBytes 16 e.2.key ++ leBytes 8 e.2.result) (g.front ++ g.frontOvf)
    ++ counted (fun (e : Nat × Nat) => leBytes 16 e.1 ++ leBytes 8 e.2) g.station
    ++ counted (fun (e : Nat × Rule) => leBytes 4 e.1 ++ leBytes 4 e.2.handle ++ leBytes 2 e.2.prio ++ leBytes 40 e.2.value ++ leBytes 40 e.2.mask
      ++ leBytes 8 e.2.result) g.rules
    ++ counted (fun (e : Nat × Prefix) => leBytes 4 e.1 ++ leBytes 1 e.2.family ++ leBytes 1 e.2.vrf ++ leBytes 1 e.2.len ++ leBytes 16 e.2.addr
      ++ leBytes 8 e.2.result) g.pfx
    ++ counted (fun (e : Nat × Nat) => leBytes 4 e.1 ++ leBytes 4 e.2) g.groupRows ++ leBytes 4 g.nextHandle
    ++ counted (fun (e : Nat × ObjRec) => leBytes 4 e.1 ++ leBytes 1 e.2.owner ++ leBytes 96 e.2.words ++ leBytes 96 e.2.init) g.objs
    ++ counted (fun (e : Nat × VaultRec) => leBytes 4 e.1 ++ e.2.bytes (e.1 / 4) (e.1 % 4)) g.vault ++ leBytes 1 (b2n g.rbDisable)

/-- What the CMAC of a slot covers: GEN, WRITE_SEQ, LENGTH and the image. (DESIGN CHOICE, entry 156.) -/
def LgImage.covered (g : LgImage) : List Byte := leBytes 2 g.gen ++ leBytes 4 g.writeSeq ++ leBytes 4 g.length ++ g.bytes

/-- An image with its LENGTH, and its CMAC under the last-good key. (DESIGN CHOICE, entry 156.) -/
def LgImage.seal (g : LgImage) (key : List Byte) : LgImage :=
  let g := { g with length := g.bytes.length }
  { g with mac := Crypto.cmac key g.covered }

/-- The slot is written whole and its CMAC holds (R498). -/
def LgImage.good (g : LgImage) (key : List Byte) : Bool := g.valid && g.mac == Crypto.cmac key g.covered

end Sys2Proof.Machine
end

