-- ==== Sys2Proof/Machine/Bench.lean ====
section
/-! DEFINITION. Stage 6 of a packet, the bench and its release (R248, R262, R266, R285 to R293). -/
namespace Sys2Proof.Machine

/-! ### The bench -/

/-- The list of a packet's ingress port and class. -/
def Packet.benchKey (p : Packet) : Nat := 16 * p.port + M.cls.get p.md

/-- Cells in use on the bench by the packets that satisfy a test. -/
def State.benchCells (s : State) (f : Packet → Bool) : Nat :=
  (s.pkt.map (fun e => if f e.2 then e.2.bench.getD 0 else 0)).sum

/-- KEY_FAULT_ACTION of the ingress port; under PUNT the frame is UNTRUSTED (R288, R291). (DEDUCED, entry 108.) -/
def State.keyFaultAction (s : State) (n : Nat) : State :=
  let p := s.pkt.at n
  if (s.bankOf p.gen).on P.keyFaultAction p.port then (s.updPkt n (fun p => { p with untrusted := true })).stagePunt n 0x40
  else s.stageDrop n

/-- The fault queue is full (R286, R291). -/
def State.faultsFull (s : State) : Bool := decide (64 ≤ s.sec.fills.length)

/-- A frame joins the bench behind the frames of its port and class, or overflows (R290, R291). `full`: the fault queue was full. -/
def State.joinBench (s : State) (n : Nat) (full : Bool) : State :=
  let p := s.pkt.at n
  let c := cellsFor (s.lengthOf p).1 p.relay.isSome
  if full || decide (16384 < s.benchCells (fun _ => true) + c)
      || decide (s.par P.benchPortMax p.port < s.benchCells (fun q => q.port == p.port) + c) then
    (s.count Stat.benchOverflows p.port).keyFaultAction n
  else
    let s := s.updPkt n (fun p => { p with bench := some c, whole := true, stage := .released })
    { s with sec := { s.sec with bench := s.sec.bench.upd p.benchKey (· ++ [n]) } }

/-- A packet leaves the bench. -/
def State.leaveBench (s : State) (n : Nat) : State :=
  let p := s.pkt.at n
  { (s.updPkt n (fun p => { p with bench := none })) with sec := { s.sec with bench := s.sec.bench.upd p.benchKey (·.filter (· != n)) } }

/-- The fill a packet's key fault asks for (R285, R287). (DEDUCED, entries 75, 108.) -/
def State.faultFill (s : State) (n a k : Nat) : State × Bool :=
  let p := s.pkt.at n
  s.requestFill { assoc := a, keyNum := k, inst := p.inst, gen := p.instGen }

/-! ### Stage 6 -/

/-- The frame goes on: its COPY_PUNT copy to the slow path, itself to stage 7, or to the Anchor when it came from the fabric. -/
def State.passStage6 (s : State) (n : Nat) : State :=
  let s := if (s.pkt.at n).copyPunt then s.puntCopy n else s
  let p := s.pkt.at n
  if p.relaySrc.isSome && p.relay.isNone then (s.updPkt n (fun p => { p with stage := .anchor })).raiseLearn n
  else ((s.updPkt n (fun p => { p with stage := .released })).raiseLearn n).stage7 n

/-- Counts and the job a resident key gives a frame; the outcome is its packet with a pending verdict, or its failure (true: it
goes on). -/
def State.takeKey (s : State) (n slot a k pn : Nat) : State × Bool :=
  let p := s.pkt.at n
  let b := s.bankOf p.gen
  let mode := b.getN P.asMode a
  let key := s.sec.slot.at slot
  let pn := if isXpn mode then recoverPn key.lowestPn.toNat pn else pn
  let s := (s.takeRef slot).updPkt n (fun p => { p with slot := some slot, assoc := a, keyNum := k, pn := pn })
  if b.on P.replayProtect a && decide (pn < key.lowestPn.toNat) then (s.failHead n F.replay (some (a, k)) pn, false) else
    let s := s.updPkt n (fun p => { p with verdict := .pending })
    match s.takeUse (pipeOf p.port) slot with
    | (s, false) => (s.failExhausted n (a, k) pn, false)
    | (s, true) =>
      if isCmac mode then
        match s.submitCmac { work := .frame n (pipeOf p.port), level := if p.protect then 1 else 3, inst := p.inst, gen := p.instGen, key := some slot } with
        | (s, none) => (s.failHead n F.cmacOverload (some (a, k)) pn, false)
        | (s, some j) => ((s.takeRef slot).updPkt n (fun p => { p with cmac := some j, whole := true }), true)
      else (s, true)

/-- A frame under HMAC goes to the Pacer, at most 2 per µs (R259), unless its PN lies below LOWEST_PN of its key (R254, R257). The frame's
copy for COPY_PUNT waits for its verdict (R262). -/
def State.toHmac (s : State) (n a k pn : Nat) : State :=
  if (s.bankOf (s.pkt.at n).gen).on P.replayProtect a && decide (pn < (s.sec.vault.at (4 * a + k)).lowestPn.toNat) then
    s.failHead n F.replay (some (a, k)) pn
  else
  let us := s.time.mono / 1000
  let used := if s.sec.hmacAt = us then s.sec.hmacUsed else 0
  if 2 ≤ used then (s.count Stat.hmacOverload).stageDrop n else
    let s := { s with sec := { s.sec with hmacAt := us, hmacUsed := used + 1 } }
    let s := s.updPkt n (fun p => { p with assoc := a, keyNum := k, pn := pn, verdict := .pending, whole := true, stage := .released })
    s.slowPath n 0 false true

/-- Stage 6 of a packet that stage 5 passed on. -/
def State.stage6 (s : State) (n : Nat) : State :=
  let s := s.latchAssoc n
  let p := s.pkt.at n
  let b := s.bankOf p.gen
  let express := bit (b.getN P.classExpress 0) (M.cls.get p.md)
  let blocked := !express && !(s.sec.bench.at p.benchKey).isEmpty
  let full := s.faultsFull
  match s.authPlan p with
  | .fail c key pn => s.failHead n c key pn
  | .open_ => if blocked then s.joinBench n full else s.passStage6 n
  | .key a k pn =>
    if isHmac (b.getN P.asMode a) then (if blocked then s.joinBench n full else s.toHmac n a k pn)
    else match s.slotOf a k with
    | some slot =>
      if blocked then s.joinBench n full
      else match s.takeKey n slot a k pn with
        | (s, true) => s.passStage6 n
        | (s, false) => s
    | none =>
      let s := (s.faultFill n a k).1
      if express then (s.count Stat.expressKeyFaults p.port).keyFaultAction n
      else s.joinBench n full

/-! ### Release (R292, R293) -/

/-- A bench frame whose tag has been checked goes on, or fails before its transmission. -/
def State.releaseJudged (s : State) (n cause : Nat) : State :=
  if cause = 0 then ((s.leaveBench n).passFrame n).passStage6 n
  else (((s.leaveBench n).count Stat.authDrops cause).failTail n cause).drop n

/-- A bench frame stays at the front of its list while the CMAC unit verifies it. -/
def State.stayFirst (s : State) (n cells : Nat) : State :=
  { (s.updPkt n (fun p => { p with bench := some cells })) with sec := { s.sec with bench := s.sec.bench.upd (s.pkt.at n).benchKey (n :: ·) } }

/-- The head frame of a list is verified whole and released, or blocks the frames behind it (false). -/
def State.releaseHead (s : State) (n : Nat) : State × Bool :=
  let p := s.pkt.at n
  if !p.ended || p.cmac.isSome then (s, false)
  else if s.instGen p.inst ≠ p.instGen then (((s.leaveBench n).count Stat.falseStartDrops p.inst).drop n, true)
  else match p.verdict with
  | .fail c => (s.releaseJudged n c, true)
  | .pending => let (s, c) := s.tailCheck n; (s.releaseJudged n c, true)
  | _ =>
    match s.authPlan p with
    | .fail c key pn => ((s.leaveBench n).failHead n c key pn, true)
    | .open_ => ((s.leaveBench n).passStage6 n, true)
    | .key a k pn =>
      if isHmac ((s.bankOf p.gen).getN P.asMode a) then ((s.leaveBench n).toHmac n a k pn, true)
      else match s.slotOf a k with
      | none => ((s.faultFill n a k).1, false)
      | some slot =>
        match (s.leaveBench n).takeKey n slot a k pn with
        | (s, false) => (s, true)
        | (s, true) =>
          if (s.pkt.at n).cmac.isSome then (s.stayFirst n (p.bench.getD 0), false)
          else let (s, c) := s.tailCheck n; (s.releaseJudged n c, true)

/-- Releases the frames of one list in order (R292). -/
def State.releaseList : Nat → State → Nat → State
  | 0, s, _ => s
  | k + 1, s, key =>
    match s.sec.bench.at key with
    | [] => s
    | n :: _ =>
      match s.releaseHead n with
      | (s, true) => State.releaseList k s key
      | (s, false) => s

/-- Releases what one list can release. -/
def State.releaseBench (s : State) (key : Nat) : State := State.releaseList (s.sec.bench.at key).length s key

/-- Releases what every list can release. -/
def State.releaseAll (s : State) : State := s.forEach s.sec.bench.keys (fun s k => s.releaseBench k)

end Sys2Proof.Machine
end

