-- ==== Sys2Proof/Machine/Actions.lean ====
section
/-! DEFINITION. Stages 4 and 5: forwarding result and action set (R162 to R172, R555), stream filter, sequence recovery,
duplicate table and meters (R174 to R183). -/
namespace Sys2Proof.Machine

/-! ### Action set (R164) -/

/-- What the action records of a packet come to. -/
structure ActionSet where
  cls : Nat
  colour : Nat := 0
  assoc : Option Nat := none
  stream : Nat := 0
  rewrite : Nat := 0
  mustSign : Bool := false
  copyPunt : Bool := false
  redirect : Bool := false
  /-- a record it names is not live for the packet (R555) -/
  invalid : Bool := false
deriving DecidableEq, Repr

/-- One action record overrides the fields it sets; MUST_SIGN and COPY_PUNT are ORed. -/
def ActionSet.overlay (a : ActionSet) (w : Nat) : ActionSet :=
  { a with
    cls := if A.setClass.get w = 1 then A.cls.get w else a.cls
    colour := if A.setColour.get w = 1 then A.colour.get w else a.colour
    assoc := if A.setAssoc.get w = 1 then some (A.assoc.get w) else a.assoc
    stream := if A.setStream.get w = 1 then A.stream.get w else a.stream
    rewrite := if A.setRewrite.get w = 1 then A.rewrite.get w else a.rewrite
    mustSign := a.mustSign || A.mustSign.get w == 1
    copyPunt := a.copyPunt || A.copyPunt.get w == 1 }

/-- Applies the record that a result's ACTION_REF names: 0 names none, one that is not live counts as none. -/
def State.applyRef (s : State) (p : Packet) (a : ActionSet) (result : Nat) : ActionSet :=
  let i := R.action.get result
  if i = 0 then a
  else if s.liveFor p K.action i then a.overlay (s.obj K.action i).words
  else { a with invalid := true }

/-- The action set of a packet; `front`: step 3 is taken (R164). -/
def State.actionSet (s : State) (p : Packet) (front : Bool) : ActionSet :=
  let a : ActionSet := { cls := s.portClass p }
  let a := if M.prefixHit.get p.md = 1 then s.applyRef p a p.pfxRes else a
  let a := if front && M.frontHit.get p.md == 1 then s.applyRef p a (M.frontResult.get p.md) else a
  if M.ruleHit.get p.md = 1 then
    let a := s.applyRef p a p.ruleRes
    let i := R.action.get p.ruleRes
    { a with redirect := i != 0 && s.liveFor p K.action i && A.redirect.get (s.obj K.action i).words == 1 }
  else a

/-- The class is marked express in the packet's bank (R167). (DEDUCED, entry 64.) -/
def State.express (s : State) (p : Packet) (cls : Nat) : Bool := bit ((s.bankOf p.gen).getN P.classExpress 0) cls

/-! ### Forwarding result (R162, R163) -/

/-- F, or none (R162). -/
def forwardingResult (p : Packet) (redirect : Bool) : Option Nat :=
  let rule := M.ruleHit.get p.md = 1
  if rule ∧ (R.type.get p.ruleRes = 2 ∨ R.type.get p.ruleRes = 3) then some p.ruleRes
  else if rule ∧ redirect = true then some p.ruleRes
  else if M.frontHit.get p.md = 1 then some (M.frontResult.get p.md)
  else if M.prefixHit.get p.md = 1 then some p.pfxRes
  else if rule then some p.ruleRes
  else none

/-- Where F sends a packet. -/
inductive Route where
  | drop
  | punt
  /-- a next-hop or member record is not live -/
  | invalid
  /-- no member of the group is UP -/
  | noMember
  /-- egress port and rewrite of each copy -/
  | ports (l : List (Nat × Nat)) (mc : Bool)
  | relay (dest rclass rewrite : Nat)
deriving DecidableEq, Repr

/-- First non-zero rewrite (R165). (DEDUCED, entry 118.) -/
def firstRewrite (l : List Nat) : Nat := (l.find? (· != 0)).getD 0

/-- The flow hash of R171. -/
def State.flowHash (s : State) (p : Packet) (mode : Nat) : Nat :=
  let b := s.bankOf p.gen
  let l3 := M.l3Type.get p.md
  let et := M.etherType.get p.md
  let mode := if (mode = 1 ∨ mode = 2) ∧ l3 = 0 then 0 else if mode = 3 ∧ et ≠ 0x88B8 ∧ et ≠ 0x88BA then 0 else mode
  let ip := fun (src : Bool) => if l3 = 4 then beBytes 4 (p.header 3 (if src then 12 else 16) 4)
    else beBytes 16 (p.header 3 (if src then 8 else 24) 16)
  let l3part := beBytes 1 l3 ++ ip true ++ ip false ++ beBytes 1 (M.l3Proto.get p.md)
  let l := match mode with
    | 1 => l3part ++ beBytes 2 (M.l4Sport.get p.md) ++ beBytes 2 (M.l4Dport.get p.md)
    | 2 => l3part
    | 3 => beBytes 6 p.da ++ beBytes 2 (M.appid.get p.md)
    | _ => beBytes 2 (M.vidOuter.get p.md) ++ beBytes 6 p.da ++ beBytes 6 p.sa
  crc32cFrom (b.getN P.hashSeed 0) l

/-- The member of a LAG or ECMP group (R172). -/
def State.groupMember (s : State) (p : Packet) (w : Nat) : Option Nat :=
  let n := N.count.get w
  let m := s.flowHash p (N.mode.get w) * n / 2 ^ 32
  ((List.range n).map (fun i => N.base.get w + (m + i) % n)).find? (fun i =>
    !s.liveFor p K.nextHop i || s.isUp (N.port.get (s.obj K.nextHop i).words))

/-- Resolves a next-hop record (R170, R172, R165). -/
def State.nextHop (s : State) (p : Packet) (i rewrite : Nat) : Route :=
  if !s.liveFor p K.nextHop i then .invalid else
    let w := (s.obj K.nextHop i).words
    match N.kind.get w with
    | 0 => .ports [(N.port.get w, firstRewrite [N.rewrite.get w, rewrite])] false
    | 1 | 2 =>
      match s.groupMember p w with
      | none => .noMember
      | some m =>
        if !s.liveFor p K.nextHop m then .invalid else
          let v := (s.obj K.nextHop m).words
          .ports [(N.port.get v, firstRewrite [N.rewrite.get v, N.rewrite.get w, rewrite])] false
    | 3 =>
      let l := (List.range (N.count.get w)).map (fun k => N.base.get w + k)
      if l.all (s.liveFor p K.nextHop) then
        .ports (l.map (fun m => let v := (s.obj K.nextHop m).words
          (N.port.get v, firstRewrite [N.rewrite.get v, N.rewrite.get w, rewrite]))) true
      else .invalid
    | 4 => .relay (N.dest.get w) (N.rclass.get w) (firstRewrite [N.rewrite.get w, rewrite])
    | _ => .drop

/-- Applies F by its RESULT_TYPE (R163). (DEDUCED, entry 62.) -/
def State.route (s : State) (p : Packet) (f rewrite : Nat) : Route :=
  match R.type.get f with
  | 0 => .ports [(R.target.get f % 512, rewrite)] false
  | 1 => s.nextHop p (R.target.get f) rewrite
  | 3 => .punt
  | _ => .drop

/-- Records a packet reads at stages 4 and 5: (kind, index); entries of the duplicate table apart. (DEDUCED, entry 65.) -/
def State.recordsRead (s : State) (p : Packet) (a : ActionSet) (f : Option Nat) : List (Nat × Nat) :=
  let acts := ((if M.prefixHit.get p.md = 1 then [p.pfxRes] else []) ++ (if M.frontHit.get p.md = 1 then [M.frontResult.get p.md] else [])
    ++ (if M.ruleHit.get p.md = 1 then [p.ruleRes] else [])).map (fun r => (K.action, R.action.get r))
  let nh := match f with
    | some r => if R.type.get r = 1 then
        let w := (s.obj K.nextHop (R.target.get r)).words
        (K.nextHop, R.target.get r) :: (if N.kind.get w = 3 then (List.range (N.count.get w)).map (fun k => (K.nextHop, N.base.get w + k))
          else if N.kind.get w = 1 ∨ N.kind.get w = 2 then ((s.groupMember p w).toList).map (fun m => (K.nextHop, m)) else [])
      else []
    | none => []
  let st := (K.stream, a.stream)
  let mt := (K.meter, if S.meterEn.get (s.obj K.stream a.stream).words = 1 then S.meter.get (s.obj K.stream a.stream).words else 0)
  (acts ++ nh ++ [st, mt]).filter (fun r => !noRecord r.1 r.2)

/-! ### Stream records (R174 to R178) -/

/-- The low 24 bits of the monotonic counter in ms. -/
def State.nowMs (s : State) : Nat := s.time.mono / 1000000 % 2 ^ 24

/-- Age in ms over 24 bits. -/
def State.ageMs (s : State) (stamp : Nat) : Nat := (s.nowMs + 2 ^ 24 - stamp) % 2 ^ 24

/-- A counter of a record gains one and wraps at its width. -/
def State.bump (s : State) (kind index : Nat) (f : Field) : State :=
  s.putObj kind index [(f, f.get (s.obj kind index).words + 1)]

/-- What a step of stage 5 decides. -/
inductive Pass where
  | pass
  | discard
deriving DecidableEq, Repr

/-- R177 and R178: VECTOR or MATCH recovery of a sequence number. -/
def State.recover (s : State) (st seq : Nat) : State × Pass :=
  let w := (s.obj K.stream st).words
  let put := fun l => s.putObj K.stream st (l ++ [(S.lastAccept, s.nowMs)])
  let valid := S.seqValid.get w = 1 ∧ s.ageMs (S.lastAccept.get w) < S.resetMs.get w
  let h := S.histLen.get w
  let d := signed 16 (seq + 2 ^ 16 - S.recovSeq.get w)
  if ¬ valid then (put [(S.recovSeq, seq), (S.history, 1), (S.seqValid, 1)], .pass)
  else if S.recovery.get w = 2 then
    (if d = 0 then (s.bump K.stream st S.dupDiscards, .discard) else (put [(S.recovSeq, seq)], .pass))
  else if (h : Int) ≤ d ∨ d ≤ -(h : Int) then (s.bump K.stream st S.rogueDiscards, .discard)
  else if 0 < d then
    (put [(S.history, (S.history.get w * 2 ^ d.toNat + 1) % 2 ^ h), (S.recovSeq, seq)], .pass)
  else if bit (S.history.get w) (-d).toNat then (s.bump K.stream st S.dupDiscards, .discard)
  else (put [(S.history, S.history.get w + 2 ^ (-d).toNat)], .pass)

/-- A duplicate-table word (R180), with its side bits above (R110). -/
def dupWord (sa seq stream stamp : Nat) : Nat :=
  let w := 2 ^ 191 + sa * 2 ^ 143 + seq * 2 ^ 127 + stream * 2 ^ 111 + stamp * 2 ^ 87
  poolPar w * 2 ^ 192 + w

/-- Entries of a bucket of the duplicate table whose parity fails on this read (R168). (DEDUCED, entry 66.) -/
def State.dupBroken (s : State) (bad : List Nat) (bucket : Nat) : List Nat :=
  ((List.range 4).map (fun i => 4 * bucket + i)).filter (fun i =>
    let code := badCode (recordCode 5 i).1 (recordCode 5 i).2
    bad.contains code || s.tbl.bad.contains code || s.tbl.dup.at i / 2 ^ 192 != poolPar (s.tbl.dup.at i % 2 ^ 192))

/-- R180: a copy is a duplicate, or is accepted and written to a free or expired slot or over the oldest. A packet that reads an entry
whose parity fails is discarded (R168). -/
def State.duplicate (s : State) (sa seq st : Nat) (bad : List Nat) (prot : Bool) : State × Pass :=
  let forget := s.par P.dupForgetMs
  let b := s.cfg.active
  let live := fun (s : State) i => bit (s.tbl.dup.at i) 191 && decide (s.ageMs (bits (s.tbl.dup.at i) 87 24) < forget)
  let put := fun (s : State) i w => { s with tbl := { s.tbl with dup := s.tbl.dup.put i w } }
  let broken := s.dupBroken bad (b.dupBucket sa seq st)
  if !broken.isEmpty then (s.forEach broken (fun s i => s.parityError (recordCode 5 i) prot), .discard) else
  match (s.dupFind sa seq st).filter (live s) with
  | some i => (put (s.bump K.stream st S.dupDiscards) i 0, .discard)
  | none =>
    if b.records 5 = 0 then (s, .pass) else
      let k := b.dupBucket sa seq st
      let cells := (List.range 4).map (fun i => 4 * k + i)
      let w := dupWord sa seq st s.nowMs
      match cells.find? (fun i => !live s i) with
      | some i => (put s i w, .pass)
      | none =>
        let old := cells.foldl (fun o i => if s.ageMs (bits (s.tbl.dup.at o) 87 24) < s.ageMs (bits (s.tbl.dup.at i) 87 24) then i else o) (4 * k)
        (put (s.count Stat.dupEvictions) old w, .pass)

/-! ### Meters (R181, R182) -/

/-- Tokens of a bucket after `ns`: rate in 64 kb/s, burst in bytes, tokens in 1/32 byte; the fraction of 1/32 byte is left out. -/
def bucketRise (tokens : Int) (rate burst ns : Nat) : Int := min ((burst : Int) * 32) (tokens + ((rate * ns * 16 / 62500 : Nat) : Int))

/-- Brings a meter's buckets up to the present. -/
def State.meterUpdate (s : State) (m : Nat) : State :=
  let w := (s.obj K.meter m).words
  let now := s.time.mono % 2 ^ 32
  let e := (now + 2 ^ 32 - T.last.get w) % 2 ^ 32
  s.putObj K.meter m [
    (T.tc, unsigned 32 (bucketRise (signed 32 (T.tc.get w)) (T.cir.get w) (T.cbs.get w) e)),
    (T.tpe, unsigned 32 (bucketRise (signed 32 (T.tpe.get w)) (T.peir.get w) (T.pebs.get w) e)), (T.last, now)]

/-- The mark of R181 for B bytes and an input colour: the colour and the buckets it takes from (1 TC, 2 TPE, 3 both). -/
def meterMark (w b colour : Nat) : Nat × Nat :=
  let tc := signed 32 (T.tc.get w)
  let tpe := signed 32 (T.tpe.get w)
  let need : Int := (b : Int) * 32
  let aware := T.aware.get w = 1
  if T.mode.get w = 0 then
    if tpe < need ∨ (aware ∧ colour = 2) then (2, 0)
    else if tc < need ∨ (aware ∧ colour = 1) then (1, 2)
    else (0, 3)
  else if (¬ aware ∨ colour = 0) ∧ need ≤ tc then (0, 1)
  else if (¬ aware ∨ colour ≠ 2) ∧ need ≤ tpe then (1, 2)
  else (2, 0)

/-- A meter marks a packet of B bytes; its colour and the buckets it drew from. -/
def State.meter (s : State) (m b colour : Nat) : State × Nat × Nat :=
  let s := s.meterUpdate m
  let w := (s.obj K.meter m).words
  let (c, took) := meterMark w b colour
  let take := fun (f : Field) => (f, unsigned 32 (signed 32 (f.get w) - (b : Int) * 32))
  let s := s.putObj K.meter m ((if took % 2 = 1 then [take T.tc] else []) ++ (if 2 ≤ took then [take T.tpe] else []))
  (s.bump K.meter m (if c = 0 then T.green else if c = 1 then T.yellow else T.red), c, took)

/-- R182: the difference between the assumed and the actual length is settled at the tail. -/
def State.meterSettle (s : State) (m b actual took : Nat) : State :=
  let s := s.meterUpdate m
  let w := (s.obj K.meter m).words
  let give := fun (f : Field) (burst : Nat) => (f, unsigned 32 (max (-(2 ^ 31)) (min ((burst : Int) * 32) (signed 32 (f.get w) + ((b : Int) - actual) * 32))))
  s.putObj K.meter m ((if took % 2 = 1 then [give T.tc (T.cbs.get w)] else []) ++ (if 2 ≤ took then [give T.tpe (T.pebs.get w)] else []))

/-! ### Stage 5 (R174) -/

/-- An oversize frame of a stream sets BLOCKED and is recorded, when BLOCK_ON_OVERSIZE says so (R173, R176). -/
def State.oversize (s : State) (st : Nat) : State :=
  let s := s.bump K.stream st S.sduDrops
  if S.blockOn.get (s.obj K.stream st).words = 1 then (s.putObj K.stream st [(S.blocked, 1)]).ruleEvent 176 st 0 else s

/-- Recovery by the mode of the record (step 3 of R174). -/
def State.stageRecovery (s : State) (n st : Nat) (bad : List Nat) : State × Pass :=
  let p := s.pkt.at n
  let w := (s.obj K.stream st).words
  let seq := M.redSeq.get p.md
  let ty := M.redType.get p.md
  let accept := fun (r : State × Pass) =>
    if r.2 = .pass then (r.1.updPkt n (fun p => { p with accepted := some (st, seq) }), Pass.pass) else r
  match S.recovery.get w with
  | 0 => (s, .pass)
  | 3 => if ty = 1 ∨ ty = 2 then accept (s.duplicate p.sa seq st bad p.protect) else (s, .pass)
  | _ =>
    if ty = 0 then (if S.takeNoSeq.get w = 1 then (s, .pass) else (s.bump K.stream st S.rogueDiscards, .discard))
    else accept (s.recover st seq)

/-- The meter of the record (steps 4 and 5 of R174). -/
def State.stageMeter (s : State) (n st : Nat) : State × Pass :=
  let p := s.pkt.at n
  let w := (s.obj K.stream st).words
  let m := S.meter.get w
  if S.meterEn.get w = 0 ∨ s.liveFor p K.meter m = false then (s, .pass) else
    let b := (s.lengthOf p).1
    let (s, c, took) := s.meter m b (M.colour.get p.md)
    let s := s.updPkt n (fun p => { p with md := M.colour.put c p.md, metered := if p.ended then none else some (m, b, took) })
    if c = 2 ∧ T.redMark.get (s.obj K.meter m).words = 0 then (s, .discard)
    else if c = 1 ∧ S.dropYellow.get w = 1 then (s, .discard)
    else (s, .pass)

/-- Stage 5 of a packet that references a live stream record. What the meter discards keeps its acceptance (R184). -/
def State.stage5 (s : State) (n st : Nat) (bad : List Nat) : State × Pass :=
  let p := s.pkt.at n
  let s := s.bump K.stream st S.matched
  let w := (s.obj K.stream st).words
  let (len, assumed) := s.lengthOf p
  if S.blocked.get w = 1 then (s.bump K.stream st S.sduDrops, .discard)
  else if S.maxSdu.get w ≠ 0 ∧ assumed = false ∧ S.maxSdu.get w < len then (s.oversize st, .discard)
  else
    let s := if S.maxSdu.get w ≠ 0 ∧ p.ended = false then s.updPkt n (fun p => { p with sduStream := some st }) else s
    match s.stageRecovery n st bad with
    | (s, .discard) => (s, .discard)
    | (s, .pass) =>
      match s.stageMeter n st with
      | (s, .discard) => (s.updPkt n (fun p => { p with accepted := none }), .discard)
      | (s, .pass) => (s.bump K.stream st S.passed, .pass)

/-! ### The action stage -/

/-- Writes the action fields of the metadata word (R165). (DEDUCED, entries 109, 118.) -/
def State.writeActions (s : State) (n : Nat) (a : ActionSet) (stream rewrite port : Nat) : State :=
  s.updPkt n (fun p => { p with
    mustSign := a.mustSign, copyPunt := a.copyPunt
    md := putFields p.md [(M.cls, a.cls), (M.colour, a.colour), (M.assoc, a.assoc.getD 0), (M.assocValid, b2n a.assoc.isSome),
      (M.stream, stream), (M.rewrite, rewrite), (M.egressPort, port), (M.queue, 16 * port + a.cls)] })

/-- A transit frame: its hop count falls by one and it joins its VOQ (R336). (DEDUCED, entry 109.) -/
def State.transit (s : State) (n : Nat) : State :=
  let p := s.pkt.at n
  let h := p.relayField H.hops - 1
  if h = 0 then (s.count Stat.relayHopDrops).drop n
  else
    let s := s.updPkt n (fun p => { p with relay := some (p.relayField H.dst, p.relayField H.rclass), md := M.cls.put (s.portClass p) p.md })
    s.stage7 n

/-- What F leads to, once stage 5 has passed the packet: it leaves the path, or goes on to stage 6 (R19, R163). -/
def State.depart (s : State) (n : Nat) (rt : Route) : State :=
  match rt with
  | .drop => (s.count Stat.actionDrops (s.pkt.at n).port).stageDrop n
  | .punt => s.stagePunt n 0
  | .invalid => (s.count Stat.nextHopInvalid (s.pkt.at n).port).stageDrop n
  | .noMember => (s.count Stat.lagNoMember).stageDrop n
  | .ports .. | .relay .. => s.stage6 n

/-- The destinations of a packet with the rewrites of each; `ok`: an index whose record is not live counts as 0 (R165, R555). -/
def State.aim (s : State) (n : Nat) (a : ActionSet) (stream : Nat) (rt : Route) (ok : Nat → Nat) : State :=
  match rt with
  | .ports l mc =>
    let l := l.map (fun d => (d.1, ok d.2))
    (s.writeActions n a stream ((l.headD (0, 0)).2) ((l.headD (0, 0)).1)).updPkt n (fun p => { p with dests := l, mc := mc })
  | .relay dest rc rw =>
    (s.writeActions n a stream (ok rw) 0).updPkt n (fun p => { p with dests := [(0, ok rw)], relay := some (dest, rc) })
  | _ => s.writeActions n a stream 0 0

/-- Stages 4 to 7 of a packet (R162 to R174, R248). `bad`: codes of records whose parity fails on this read. -/
def State.actions (s : State) (n : Nat) (bad : List Nat) : State :=
  let p := s.pkt.at n
  if p.relaySrc.isSome && decide (p.relayField H.dst ≠ s.fab.id) then s.transit n
  else if M.verdict.get p.md = 2 then (s.defaultRoute n).stage6 n
  else
    let a := s.actionSet p true
    match forwardingResult p a.redirect with
    | none =>
      let s := s.updPkt n (fun p => { p with md := putFields p.md [(M.cause, 0x20), (M.verdict, 2)] })
      if s.defaultStays p then (s.defaultRoute n).stage6 n
      else if (s.bankOf p.gen).getN P.defaultAction p.port = 1 then s.stagePunt n 0x20
      else (s.count Stat.defaultDrops (64 * p.port + 0x20)).stageDrop n
    | some f =>
      let broken := (s.recordsRead p a (some f)).filter (fun r => s.recordBad bad r.1 r.2)
      if !broken.isEmpty then
        (s.forEach broken (fun s r => s.parityError (recordCode r.1 r.2) (decide (12 ≤ a.cls)))).stageDrop n
      else
        let streamOk := a.stream != 0 && s.liveFor p K.stream a.stream
        let rt := s.route p f a.rewrite
        let rws := match rt with | .ports l _ => l.map (fun d : Nat × Nat => d.2) | .relay _ _ r => [r] | _ => []
        let rwBad := rws.any (fun r => r != 0 && !s.liveFor p K.rewrite r)
        let ok := fun r => if s.liveFor p K.rewrite r then r else 0
        let st := (s.obj K.stream a.stream).words
        let meterBad := streamOk && S.meterEn.get st == 1 && !s.liveFor p K.meter (S.meter.get st)
        let s := if a.invalid || (a.stream != 0 && !streamOk) || rwBad || meterBad then s.count Stat.recordRefInvalid p.port else s
        let stream := if streamOk then a.stream else 0
        let s := s.aim n a stream rt ok
        if stream = 0 then s.depart n rt else
          match s.stage5 n stream bad with
          | (s, .discard) => s.stageDrop n
          | (s, .pass) => s.depart n rt

/-- A packet whose stream record uses the duplicate table waits for the tail of a frame that is not HSR, whose PRP trailer is
read there (R179). -/
def State.waitsTail (s : State) (p : Packet) : Bool :=
  let a := s.actionSet p true
  !p.ended && M.redType.get p.md == 0 && a.stream != 0 && s.liveFor p K.stream a.stream
    && S.recovery.get (s.obj K.stream a.stream).words == 3

end Sys2Proof.Machine
end

