-- ==== Sys2Proof/Machine/Parse.lean ====
section
/-! DEFINITION. The Stride engines: header window and visibility (R82), the microword and its execution (R83 to R92), the edit units
(R102), the default parse graph (R97, R98), the format checks of an image (R104). -/
namespace Sys2Proof.Machine

/-! ### The microword (R83) -/

def W.next : Field := ⟨182, 10⟩
def W.width : Field := ⟨179, 3⟩
/-- COND_SEL of one bit -/
def W.cond (i : Nat) : Field := ⟨155 + 6 * i, 6⟩
def W.waitOn : Field := ⟨152, 3⟩
def W.waitArg : Field := ⟨144, 8⟩
def W.end_ : Field := ⟨142, 2⟩
def W.cause : Field := ⟨136, 6⟩
/-- offset, shift (or edit operation) and destination (or source) of unit 0 or 1 -/
def W.offset (u : Nat) : Field := ⟨110 + 18 * u, 8⟩
def W.shift (u : Nat) : Field := ⟨106 + 18 * u, 4⟩
def W.dest (u : Nat) : Field := ⟨100 + 18 * u, 6⟩
def W.cmpOffset : Field := ⟨92, 8⟩
def W.cmpMask : Field := ⟨76, 16⟩
def W.cmpValue : Field := ⟨60, 16⟩
def W.advBytes : Field := ⟨52, 8⟩
def W.advMode : Field := ⟨50, 2⟩
def W.lenOffset : Field := ⟨42, 8⟩
def W.layerSet : Field := ⟨38, 4⟩
def W.flagSet : Field := ⟨22, 16⟩
def W.issue : Field := ⟨18, 4⟩
def W.pcount : Field := ⟨12, 6⟩
def W.rsv : Field := ⟨9, 3⟩
def W.ecc : Field := ⟨0, 9⟩

/-- Whether the next address is formed, and a condition of the word is of a kind. -/
def usesCond (w : Nat) (k : Nat → Bool) : Bool :=
  W.end_.get w == 0 && (List.range (W.width.get w)).any (fun i => k ((W.cond i).get w))

/-! ### What a context sees (R82) -/

/-- What an engine reads: the header window, the bytes of the frame with its FCS, whether the end has been seen, and which bytes of
the window are visible. -/
structure View where
  win : List Byte
  len : Nat
  ended : Bool
  /-- bytes of the window that are visible -/
  seen : Nat

/-- The core clock at which byte `j` of a frame is visible: the second edge after its last bit, edges 0.625 ns apart (R82).
(DEDUCED, entry 116.) -/
def visibleClock (arrived rate j : Nat) : Nat := 8 * (arrived * rate + 8 * (j + 1)) / (5 * rate) + 2

/-- Byte `i` of a packet's window is visible. (DEDUCED, entry 116.) -/
def State.byteSeen (s : State) (p : Packet) (i : Nat) : Bool :=
  let j := if i < 12 then i else i + p.sectag
  p.ended || decide (5 * visibleClock p.arrived (s.cfg.active.rate p.port) j ≤ 8 * s.time.mono)

/-- Bytes of a packet's window that are visible. -/
def State.seen (s : State) (p : Packet) : Nat := ((List.range 256).find? (fun i => !s.byteSeen p i)).getD 256

/-- The end of a frame has been seen: its tail has passed, or all there is of a frame that loss of lock has cut off (R90). -/
def State.endSeen (s : State) (p : Packet) : Bool :=
  p.ended || (p.rx.cut && decide (p.arrived * s.cfg.active.rate p.port + 8 * p.rx.bytes.length ≤ s.time.mono * s.cfg.active.rate p.port))

/-- What the ingress engine sees of a packet. -/
def State.view (s : State) (p : Packet) : View :=
  { win := p.window, len := p.rx.bytes.length - p.sectag, ended := s.endSeen p, seen := s.seen p }

/-- ACCUM_BYTES of a port as R82 applies it. -/
def Bank.accum (b : Bank) (port : Nat) : Nat :=
  if 5 ≤ b.getN P.portSpeed port ∧ b.on P.preemptEnable port = false then [128, 192, 256].getD (b.getN P.accumBytes port) 256 else 256

/-- Bytes at an offset of the window, in network order; 0 past the frame's end. -/
def View.read (v : View) (off n : Nat) : Nat := beAt v.win off n

/-! ### One word (R84 to R91) -/

/-- Width and place of an extract destination (R87). -/
def extractWidth (d : Nat) : Nat := [0, 16, 16, 20, 8, 6, 16, 16, 16, 4, 16, 16, 3].getD d 0

/-- Writes an extracted value (R87). -/
def extractPut (d v md : Nat) : Nat :=
  match d with
  | 1 => M.etherType.put v md
  | 2 =>
    let n := M.vlanDepth.get md
    let md := if n = 0 then putFields md [(M.vidOuter, v % 4096), (M.pcp, v / 8192)]
      else if n = 1 then M.vidInner.put (v % 4096) md else md
    M.vlanDepth.put (min 3 (n + 1)) md
  | 3 =>
    let n := M.mplsDepth.get md
    let md := if n = 0 then M.mplsTop.put v md else md
    M.mplsDepth.put (min 4 (n + 1)) md
  | 4 => M.l3Proto.put v md
  | 5 => M.dscp.put v md
  | 6 => M.l4Sport.put v md
  | 7 => M.l4Dport.put v md
  | 8 => M.appid.put v md
  | 9 => M.ptpMsg.put v md
  | 10 => putFields md [(M.redSeq, v), (M.redType, 2)]
  | 11 => putFields md [(M.redSeq, v), (M.redType, 3)]
  | 12 => M.pcp.put v md
  | _ => md

/-- Bytes of the window a word reads: offset from the start of the window, and length. `ingress`: the units extract. The bytes at
CMP_OFFSET count as read only where a condition of the word uses them. (DEDUCED, entries 115, 143.) -/
def wordReads (ingress : Bool) (w md cursor : Nat) : List (Nat × Nat) :=
  let ext := fun u => let d := (W.dest u).get w
    if ingress && d != 0 then [(cursor + (W.offset u).get w, ceilDiv (extractWidth d + (W.shift u).get w) 8)] else []
  let l3 := if W.layerSet.get w = 11 then cursor else (M.layer 3).get md
  (if usesCond w (fun c => c == 0x01 || c == 0x13) then [(cursor + W.cmpOffset.get w, 2)]
    else if usesCond w (fun c => (decide (0x06 ≤ c) && decide (c ≤ 0x09)) || (decide (0x28 ≤ c) && decide (c ≤ 0x2F))) then [(cursor + W.cmpOffset.get w, 1)]
    else [])
  ++ ext 0 ++ ext 1
  ++ (if W.layerSet.get w = 11 then [(cursor, 1)] else [])
  ++ (if W.advMode.get w = 1 ∨ W.advMode.get w = 2 then [(cursor + W.lenOffset.get w, 1)] else [])
  ++ (if usesCond w (· == 0x0A) then [(l3 + 6, 2)] else [])
  ++ (if usesCond w (· == 0x0B) then [(l3, 1)] else [])

/-- EtherTypes of ETYPE_KNOWN (R86). -/
def etypeKnown : List Nat := [0x0800, 0x86DD, 0x8100, 0x88A8, 0x8847, 0x8848, 0x88B8, 0x88BA, 0x88F7, 0x892F, 0xF1C1]

/-- A condition source (R86): `past` is PAST_END, `ext` the extension count with this word's own. -/
def condition (b : Bank) (port : Nat) (v : View) (w md cursor ext : Nat) (absent past : Bool) (code : Nat) : Bool :=
  let at1 := v.read (cursor + W.cmpOffset.get w) 1
  let at2 := v.read (cursor + W.cmpOffset.get w) 2
  let l3 := (M.layer 3).get md
  match code with
  | 0x01 => (at2 &&& W.cmpMask.get w) == W.cmpValue.get w
  | 0x02 => past
  | 0x03 => M.vlanDepth.get md == 3
  | 0x04 => M.mplsDepth.get md == 4
  | 0x05 => decide (4 ≤ ext)
  | 0x06 => at1 == 0 || at1 == 43 || at1 == 60
  | 0x07 => at1 == 44
  | 0x08 => at1 == 17
  | 0x09 => at1 == 6
  | 0x0A => v.read (l3 + 6) 2 % 0x4000 != 0
  | 0x0B => decide (5 < v.read l3 1 % 16)
  | 0x0C => absent
  | 0x0D => M.frontHit.get md == 1
  | 0x0E => M.ruleHit.get md == 1
  | 0x0F => M.prefixHit.get md == 1
  | 0x10 => M.stationPending.get md == 1
  | 0x11 => b.on P.mustParse port
  | 0x12 => b.on P.portRole port
  | 0x13 => etypeKnown.contains at2
  | c =>
    if 0x18 ≤ c ∧ c ≤ 0x27 then bit (M.flags.get md) (c - 0x18)
    else if 0x28 ≤ c ∧ c ≤ 0x2F then bit at1 (c - 0x28)
    else false

/-- What a word comes to. -/
inductive WordOut where
  | wait
  /-- the packet leaves by a fault of the word, none of whose effects are committed: verdict and cause -/
  | fault (verdict cause : Nat)
  /-- the metadata word, and the context at the next address -/
  | next (md : Nat) (c : Ctx)
  /-- END: 1 DONE, 2 SLOW_PATH, 3 DEFAULT, with CAUSE -/
  | leave (md : Nat) (c : Ctx) (end_ cause : Nat)

/-- Step 1: the wait (R89). `absent`: the Baton search finds no slot; `lookedUp`: an early lookup has answered. -/
def waitOk (v : View) (w : Nat) (c : Ctx) : Bool :=
  match W.waitOn.get w with
  | 1 => v.ended || decide (c.cursor + W.waitArg.get w < v.seen)
  | 2 => bit c.issued (W.waitArg.get w % 16)
  | _ => true

/-- Executes one word (R84 to R88, R91). `absent`: no slot of ASSOC is VALID. Where both units write one field, unit 1 writes after
unit 0; a word that exceeds the window and reads early leaves by WINDOW_EXCEEDED. (DEDUCED, entries 115, 143.) -/
def runWord (ingress : Bool) (b : Bank) (port : Nat) (v : View) (absent : Bool) (w md : Nat) (c : Ctx) : WordOut :=
  if !waitOk v w c then .wait else
    let reads := wordReads ingress w md c.cursor
    let keyAbsent := if W.waitOn.get w = 3 then absent else c.keyAbsent
    let len1 := v.read (c.cursor + W.lenOffset.get w) 1
    let adv := match W.advMode.get w with
      | 0 => W.advBytes.get w
      | 1 => 4 * (len1 % 16)
      | _ => 8 * (len1 + 1)
    let ls := W.layerSet.get w
    if reads.any (fun r => decide (256 < r.1 + r.2)) || decide (256 < c.cursor + adv) || (bit ls 3 && c.cursor == 256) then .fault 1 0x07
    else if W.waitOn.get w ≠ 1 ∧ v.ended = false ∧ reads.any (fun r => decide (v.seen < r.1 + r.2)) = true then .fault 2 0x12
    else
      let past := v.ended && reads.any (fun r => decide (v.len - 5 < r.1 + r.2))
      let ext := if W.advMode.get w = 2 then c.ext + 1 else c.ext
      let put := fun u (md : Nat) =>
        let d := (W.dest u).get w
        if ingress && d != 0 then
          let n := ceilDiv (extractWidth d + (W.shift u).get w) 8
          extractPut d (v.read (c.cursor + (W.offset u).get w) n / 2 ^ (W.shift u).get w % 2 ^ extractWidth d) md
        else md
      let md := put 1 (put 0 md)
      let md := if bit ls 3 then
          let md := (M.layer (ls % 8)).put c.cursor md
          if ls = 11 then M.l3Type.put (v.read c.cursor 1 / 16) md else md
        else md
      let md := M.flags.put (M.flags.get md ||| W.flagSet.get w) md
      let cond := fun i => condition b port v w md c.cursor ext keyAbsent past ((W.cond i).get w)
      let addr := W.next.get w ||| maskOf ((List.range (W.width.get w)).filter cond)
      let issued := if W.issue.get w = 0 then c.issued else c.issued ||| 2 ^ W.issue.get w
      let c := { c with cursor := c.cursor + adv, addr := addr, words := c.words + 1, waits := none, ext := ext, keyAbsent := keyAbsent, issued := issued }
      if W.end_.get w = 0 then .next md c else .leave md c (W.end_.get w) (W.cause.get w)

/-! ### The default parse graph (R97, R98) -/

/-- A parse in progress. -/
structure Parse where
  md : Nat
  cur : Nat := 0
  /-- one past the last byte read -/
  top : Nat := 0
  /-- verdict and cause -/
  stop : Option (Nat × Nat) := none

/-- Reads `n` bytes at an offset: past the window the packet goes to the slow path, past the frame's end it is a PARSE_ERROR. -/
def Parse.need (p : Parse) (v : View) (off n : Nat) : Parse :=
  if p.stop.isSome then p
  else if 256 < off + n then { p with stop := some (1, 0x07) }
  else if v.len - 4 < off + n then { p with top := max p.top (off + n), stop := some (2, 0x08) }
  else { p with top := max p.top (off + n) }

/-- Ends a parse. -/
def Parse.halt (p : Parse) (verdict cause : Nat) : Parse := if p.stop.isSome then p else { p with stop := some (verdict, cause) }

/-- Moves the cursor to a header's end, which lies in the window and in the frame. -/
def Parse.to (p : Parse) (v : View) (cur : Nat) : Parse :=
  if p.stop.isSome then p
  else if 256 < cur then { p with stop := some (1, 0x07) }
  else if v.len - 4 < cur then { p with top := max p.top cur, stop := some (2, 0x08) }
  else { p with cur := cur }

/-- Changes the metadata of a parse that goes on. -/
def Parse.put (p : Parse) (f : Nat → Nat) : Parse := if p.stop.isSome then p else { p with md := f p.md }

/-- A header begins at the cursor: LAYER_OFF of its slot. -/
def Parse.layer (p : Parse) (slot : Nat) : Parse :=
  if p.cur = 256 then p.halt 1 0x07 else p.put ((M.layer slot).put p.cur)

/-- VLAN tags, HSR tags and R-tags, up to the innermost EtherType. -/
def Parse.tags (v : View) : Nat → Parse → Parse
  | 0, p => p
  | k + 1, p =>
    let p := p.need v p.cur 2
    let et := v.read p.cur 2
    if p.stop.isSome then p
    else if et = 0x8100 ∨ et = 0x88A8 then
      if M.vlanDepth.get p.md = 3 then p.halt 1 0x05
      else
        let q := (p.need v (p.cur + 2) 2).put (extractPut 2 (v.read (p.cur + 2) 2))
        let q := if M.vlanDepth.get p.md = 0 then q.layer 1 else q
        Parse.tags v k (q.to v (q.cur + 4))
    else if et = 0x892F ∨ et = 0xF1C1 then
      let q := (p.need v (p.cur + 4) 2).put (extractPut (if et = 0x892F then 10 else 11) (v.read (p.cur + 4) 2))
      Parse.tags v k (q.to v (q.cur + 6))
    else p.put (M.etherType.put et)

/-- MPLS labels; after the bottom of the stack the type of the next header: 4, 6, or 0. A frame that ends right after the bottom label
ends its parse at MPLS. (DEDUCED, entry 143.) -/
def Parse.labels (v : View) : Nat → Parse → Parse × Nat
  | 0, p => (p, 0)
  | k + 1, p =>
    if M.mplsDepth.get p.md = 4 then (p.halt 1 0x06, 0) else
      let w := v.read p.cur 4
      let q := ((p.need v p.cur 4).put (extractPut 3 (w / 4096))).to v (p.cur + 4)
      if q.stop.isSome then (q, 0)
      else if bit w 8 then
        (if v.len - 4 ≤ q.cur then (q, 0) else let q := q.need v q.cur 1; (q, v.read q.cur 1 / 16))
      else Parse.labels v k q

/-- A PTP header of 34 bytes begins at the cursor. -/
def Parse.ptp (p : Parse) (v : View) : Parse :=
  let p := (p.layer 6).need v p.cur 1
  let p := p.put (M.ptpMsg.put (v.read p.cur 1 % 16))
  if p.stop.isNone && decide (v.len - 4 < p.cur + 34) then { p with top := max p.top (min 256 (p.cur + 34)), stop := some (2, 0x08) } else p

/-- A UDP header begins at the cursor. -/
def Parse.udp (p : Parse) (v : View) : Parse :=
  let q := (p.layer 4).need v p.cur 4
  let q := q.put (fun md => putFields md [(M.l4Sport, v.read p.cur 2), (M.l4Dport, v.read (p.cur + 2) 2)])
  let q := q.to v (p.cur + 8)
  let port := v.read (p.cur + 2) 2
  if q.stop.isNone && (port == 319 || port == 320) then q.ptp v else q

/-- IPv6 extension headers: `proto` is the next header, `n` those seen. -/
def Parse.extensions (v : View) : Nat → Nat → Parse → Parse
  | 0, _, p => p
  | k + 1, proto, p =>
    if p.stop.isSome then p
    else if proto = 0 ∨ proto = 43 ∨ proto = 60 then
      (if k = 0 then p.halt 1 0x03 else
        let q := p.need v p.cur 2
        let next := v.read p.cur 1
        let q := (q.put (M.l3Proto.put next)).to v (p.cur + 8 * (v.read (p.cur + 1) 1 + 1))
        Parse.extensions v k next q)
    else if proto = 17 then p.udp v else p

/-- An IP header of version 4 or 6 begins at the cursor. -/
def Parse.ip (p : Parse) (v : View) (version : Nat) : Parse :=
  let c := p.cur
  let b0 := v.read c 1
  let q := ((p.layer 3).need v c 1).put (M.l3Type.put (b0 / 16))
  let q := if b0 / 16 = version ∧ (version = 6 ∨ 5 ≤ b0 % 16) then q else q.halt 2 0x08
  if version = 4 then
    let q := q.need v (c + 6) 2
    let q := if v.read (c + 6) 2 % 0x4000 = 0 then q else q.halt 1 0x01
    let q := if 5 < b0 % 16 then q.halt 1 0x02 else q
    let q := (q.need v (c + 9) 1).put (fun md => putFields md [(M.dscp, v.read (c + 1) 1 / 4), (M.l3Proto, v.read (c + 9) 1)])
    let q := q.to v (c + 20)
    if q.stop.isNone && v.read (c + 9) 1 == 17 then q.udp v else q
  else
    let q := (q.need v (c + 6) 1).put (fun md => putFields md [(M.dscp, v.read c 2 / 64 % 64), (M.l3Proto, v.read (c + 6) 1)])
    Parse.extensions v 5 (v.read (c + 6) 1) (q.to v (c + 40))

/-- The parse of entry 0 from a cursor: the destination address lies there. -/
def Parse.ethernet (p : Parse) (b : Bank) (port : Nat) (v : View) : Parse :=
  let p := (p.layer 0).to v (p.cur + 12)
  let p := Parse.tags v 64 p
  if p.stop.isSome then p else
    let et := M.etherType.get p.md
    if !etypeKnown.contains et then (if b.on P.mustParse port then p.halt 1 0x04 else p)
    else
      let p := p.to v (p.cur + 2)
      match et with
      | 0x0800 => p.ip v 4
      | 0x86DD => p.ip v 6
      | 0x8847 | 0x8848 =>
        let (q, n) := Parse.labels v 5 (p.layer 2)
        if q.stop.isNone && (n == 4 || n == 6) then q.ip v n else q
      | 0x88F7 => p.ptp v
      | _ => (((p.layer 5).need v p.cur 2).put (M.appid.put (v.read p.cur 2))).to v (p.cur + 8)

/-- The default image from an entry point: 0 Ethernet, 1 the relay header and then entry 0. (DEDUCED, entry 115.) -/
def defaultParse (b : Bank) (port entry md : Nat) (v : View) : Parse :=
  if entry = 1 then ((({ md := md : Parse }).layer 7).to v 16).ethernet b port v
  else ({ md := md : Parse }).ethernet b port v

/-! ### Edit units (R102) -/

/-- Rewrite-record word n (R168): bits [191 − 32m : 160 − 32m] of pool word ⌊n ÷ 6⌋, m = n mod 6; words above 23 read 0. -/
def rewriteWord (words n : Nat) : Nat := if 23 < n then 0 else bits words (192 * (n / 6) + 160 - 32 * (n % 6)) 32

/-- The source of an edit: its width and value. -/
def editSource (md words src : Nat) : Nat × Nat :=
  match src with
  | 0x01 => (16, M.etherType.get md)
  | 0x02 => (16, M.pcp.get md * 8192 + M.vidOuter.get md)
  | 0x03 => (20, M.mplsTop.get md)
  | 0x04 => (8, M.l3Proto.get md)
  | 0x05 => (6, M.dscp.get md)
  | 0x06 => (16, M.l4Sport.get md)
  | 0x07 => (16, M.l4Dport.get md)
  | 0x08 => (16, M.appid.get md)
  | 0x09 => (4, M.ptpMsg.get md)
  | 0x0A => (16, M.redSeq.get md)
  | 0x0B => (12, M.vidInner.get md)
  | 0x0C => (3, M.pcp.get md)
  | 0x0D => (4, M.cls.get md)
  | 0x0E => (2, M.colour.get md)
  | 0x0F => (13, M.queue.get md)
  | 0x10 => (9, M.egressPort.get md)
  | 0x11 => (9, M.ingressPort.get md)
  | 0x12 => (32, M.rxStamp.get md)
  | n => if 0x20 ≤ n ∧ n ≤ 0x37 then (32, rewriteWord words (n - 0x20)) else (32, 0)

/-- One edit on the bytes of a frame. -/
def edit (l : List Byte) (off op src md words : Nat) : List Byte :=
  match op with
  | 1 =>
    let (w, x) := editSource md words src
    let n := ceilDiv w 8
    let old := beAt l off n
    (overlay l off (beBytes n (old / 2 ^ w * 2 ^ w + x))).take (max l.length (off + n))
  | 2 => l.take off ++ beBytes 4 (editSource md words src).2 ++ l.drop off
  | 3 => l.take off ++ l.drop (off + 4)
  | 4 => overlay l off (beBytes 4 (rewriteWord words src))
  | _ => l

/-- The edits of a word: offsets count from the cursor at its start. Unit 1 stands at the higher bits and works after unit 0. -/
def wordEdits (l : List Byte) (w cursor md words : Nat) : List Byte :=
  let one := fun (l : List Byte) u => edit l (cursor + (W.offset u).get w) ((W.shift u).get w) ((W.dest u).get w) md words
  one (one l 0) 1

end Sys2Proof.Machine
end

