-- ==== Sys2Proof/Machine/Classify.lean ====
section
/-! DEFINITION. Stages 1 to 3 of a packet: receive checks (R60), admission to the engine (R79, R445), leaving it (R99, R101, R302), the
lookups (R119 to R128, R144 to R158) and the learn check (R131). -/
namespace Sys2Proof.Machine

/-! ### Receive (R60, R78, R96, R332) -/

/-- Reasons of RX_DISCARDS in their order (R60, R77). -/
def Bank.rxReason (b : Bank) (port : Nat) (f : RxFrame) : Option Nat :=
  let h := if b.on P.portRole port then 16 else 0
  if f.bytes.length < 64 + h then some 0
  else if b.longest port < f.bytes.length then some 1
  else if !f.fcsOk then some 2
  else if f.codeword then some 3
  else if f.cut then some 4
  else none

/-- A device whose ID is settled in the link-state database (R330, R332). -/
def State.known (s : State) (dev : Nat) : Bool := (decide (dev = s.fab.id) && s.fab.settled) || (s.fab.lsdb.at dev).present

/-- The header check, the reserved bits and the destination of a received relay frame (R78, R332). -/
def State.relayHeaderOk (s : State) (l : List Byte) : Bool :=
  let h := beAt l 0 16
  crc16 (slice l 0 14) == H.check.get h && H.rsv.get h == 0 && (H.type.get h != 0 || s.known (H.dst.get h))

/-- Bytes that wait in the receive FIFO of a pipe (R79). -/
def State.fifoBytes (s : State) (pipe : Nat) : Nat :=
  (s.pkt.map (fun e => if e.2.live && pipeOf e.2.port == pipe && decide (e.2.stage = .fifo) then e.2.rx.bytes.length else 0)).sum

/-- The PTP header of a frame, from its DA and without its FCS, when it carries an event message: its offset (R75, R97). -/
def State.ptpEvent (s : State) (port : Nat) (l : List Byte) : Option Nat :=
  let r := defaultParse s.cfg.active port 0 0 { win := l.take 256, len := l.length + 4, ended := true, seen := 256 }
  let o := (M.layer 6).get r.md
  if 0 < o ∧ r.stop.isNone = true ∧ leAt l o 1 % 16 < 4 then some o else none

/-- Device time of the first bit after the SFD at the medium, in ns: the receive timestamp with the receive delay and PTP_TRIM_RX added
(R74, R75). -/
def State.rxStamp (s : State) (p : Packet) : Nat :=
  let ps : Int := ((p.rxTime + (s.cfg.active.pcsDelay p.port).1 : Nat) : Int) * 1000 + s.parI P.ptpTrimRx p.port
  ps.toNat / 1000

/-- A received PTP event message leaves its timestamp with the PTP engine of its port (R40, R75). (DESIGN CHOICE, entry 60.) -/
def State.ptpReceived (s : State) (n : Nat) : State :=
  let p := s.pkt.at n
  let l := p.rx.bytes.take (p.rx.bytes.length - 4)
  if s.parOn P.portRole p.port then s else
    match s.ptpEvent p.port l with
    | none => s
    | some o =>
      let t := s.rxStamp p
      s.updPort p.port (fun q => { q with ptpIn := some (beAt l (o + 30) 2, leAt l o 1 % 16, leAt l (o + 4) 1, t / 1000000000, t % 1000000000) })

/-- A received frame becomes a packet in the FIFO of its pipe, or is discarded whole (R60, R65, R78, R79, R332). A MAC Control
frame and a fabric control frame have commands of their own. A relay frame that R60 discards whole is not examined further, and one that
is still arriving is discarded by its header check alone (R78). (DEDUCED, entries 49, 139.) -/
def State.receive (s : State) (port : Nat) (f : RxFrame) : State :=
  let b := s.cfg.active
  let s := if f.codeword then s.updPort port (fun p => { p with fecUncorrectable := p.fecUncorrectable + 1 }) else s
  if !s.isUp port then s
  else if f.assembly && f.ended then s.count Stat.rxAssemblyErrors
  else match (if f.ended then b.rxReason port f else none) with
  | some r => s.count Stat.rxDiscards (5 * port + r)
  | none =>
    let relay := b.on P.portRole port
    let h := beAt f.bytes 0 16
    if relay && !s.relayHeaderOk f.bytes then s.count Stat.relayHdrErrors
    else if relay && (H.type.get h != 0 || !s.fab.settled) then s
    else if !relay && beAt f.bytes 12 2 == 0x8808 then s
    else if 65536 < s.fifoBytes (pipeOf port) + f.bytes.length then s.count Stat.rxOverrun
    else
      let u := { s with
        nextPkt := s.nextPkt + 1
        pkt := s.pkt.put s.nextPkt {
          live := true, port := port, rx := f, ended := f.ended, arrived := s.time.mono, rxTime := s.time.dev, whole := f.preempt
          relaySrc := if relay then some (H.src.get h, H.seq.get h, s.time.mono % 2 ^ 32) else none } }
      if f.ended then u.ptpReceived s.nextPkt else u

/-- The PRP trailer before the FCS, latched at the tail: sequence number, LAN, and the suffix 0x88FB, which tells a PRP frame (R96).
(PRESUMED, entry 63; DEDUCED, entry 117.) -/
def latchPrp (p : Packet) (md : Nat) : Nat :=
  let o := p.rx.bytes.length - 10
  if 10 ≤ p.rx.bytes.length ∧ beAt p.rx.bytes (o + 4) 2 = 0x88FB ∧ M.redType.get md = 0 then
    putFields md [(M.redSeq, beAt p.rx.bytes o 2), (M.redLan, beAt p.rx.bytes (o + 2) 1 / 16), (M.redType, 1)]
  else md

/-! ### Admission to the ingress engine (R79, R82, R95, R101, R445) -/

/-- Earlier packets of the same port that a test keeps before a packet. -/
def State.behind (s : State) (n : Nat) (f : Stage → Bool) : Bool :=
  s.pkt.any (fun e => decide (e.1 < n) && e.2.live && e.2.port == (s.pkt.at n).port && f e.2.stage)

/-- The packet has not been handed to the lookups (R80). -/
def Stage.beforeLookup : Stage → Bool
  | .fifo | .engine _ | .parsed => true
  | _ => false

/-- The packet has not been released to the action stage (R130). -/
def Stage.beforeRelease : Stage → Bool
  | .fifo | .engine _ | .parsed | .station _ | .classified => true
  | _ => false

/-- Contexts a slot of an engine holds: engine 2 × pipe for ingress, 2 × pipe + 1 for egress (R79). -/
def State.contexts (s : State) (engine slot : Nat) : Nat :=
  if engine % 2 = 0 then
    (s.pkt.filter (fun e => e.2.live && pipeOf e.2.port == engine / 2 && (match e.2.stage with | .engine c => c.slot == slot | _ => false))).length
  else
    (s.cpy.filter (fun e => e.2.live && pipeOf e.2.port == engine / 2 && (match e.2.place with | .egress c => c.slot == slot | _ => false))).length

/-- The core clock on which a slot can next accept a packet: one each clock of 0.625 ns (R79). -/
def State.slotClock (s : State) (engine slot : Nat) : Nat := max (s.stride.took.at (4 * engine + slot)) (ceilDiv (8 * s.time.mono) 5)

/-- The slot that takes a new packet: that with the fewest contexts, the lowest on a tie; none when all 192 are occupied, or when the
slot has accepted one on every clock of this nanosecond (R79). -/
def State.freeSlot (s : State) (engine : Nat) : Option Nat :=
  let k := [0, 1, 2].foldl (fun best i => if s.contexts engine i < s.contexts engine best then i else best) 0
  if s.contexts engine k < 64 ∧ 5 * s.slotClock engine k < 8 * (s.time.mono + 1) then some k else none

/-- A slot accepts a packet. -/
def State.takeSlot (s : State) (engine slot : Nat) : State :=
  { s with stride := { s.stride with took := s.stride.took.put (4 * engine + slot) (s.slotClock engine slot + 1) } }

/-- INSTANCE of R445 as far as admission knows it: the owner of the port, or the relay header's. -/
def State.admitInst (s : State) (p : Packet) : Nat :=
  let b := s.cfg.active
  if b.on P.portRole p.port then p.relayField H.inst
  else let o := b.getN P.portOwner p.port; if o < 64 then o else 0

/-- The image of a bank of the control stores. -/
def Stride.image (r : Stride) (bank : Bool) : Image := if bank then r.bank1 else r.bank0

/-- A packet enters a context: it latches the bank of configuration, the control store and its metadata (R95, R101). -/
def State.enterEngine (s : State) (n slot : Nat) : State :=
  let p := s.pkt.at n
  let b := s.cfg.active
  let i := s.admitInst p
  let g := s.instGen i
  let img := s.stride.image s.stride.cur
  let md := putFields 0 [(M.ingressPort, p.port), (M.inst, i), (M.instGen, g), (M.rxStamp, p.arrived % 2 ^ 32),
    (M.frameLen, if p.ended then s.actualLen { p with gen := s.cfg.activeGen.toNat } else 0)]
  (s.takeSlot (2 * pipeOf p.port) slot).updPkt n (fun p => { p with
    gen := s.cfg.activeGen.toNat, inst := i, instGen := g, sectag := sectagLen b p.port p.rx.bytes
    md := if p.ended && !b.on P.portRole p.port then latchPrp p md else md
    stage := .engine { slot := slot, bank := s.stride.cur, start := s.time.mono, addr := img.entry.getD (b.parseEntryOf p.port) 0 } })

/-- A parse counter counts; 0 names none (R83). -/
def State.parseCount (s : State) (engine k : Nat) : State :=
  if k = 0 then s else { s with stride := { s.stride with pcount := s.stride.pcount.upd (64 * engine + k) (· + 1) } }

/-- The Baton search of ASSOC finds no resident slot (R89). -/
def State.keyAbsent (s : State) (md : Nat) : Bool := !(s.sec.slot.any (fun e => e.2.st == 2 && e.2.assoc == M.assoc.get md))

/-! ### Leaving the engine (R99, R101, R302, R445) -/

/-- A tap matches a packet (R302). -/
def Bank.tapMatches (b : Bank) (p : Packet) (k : Nat) : Bool :=
  b.on P.tapEnable k && M.etherType.get p.md == 0x88BA && M.appid.get p.md == b.getN P.tapAppid k && p.da == b.getN P.tapDa k
    && (b.getN P.tapPort k == 512 || b.getN P.tapPort k == p.port)
    && (b.getN P.tapVid k == 4095 || (if b.getN P.tapVid k = 0 then M.vlanDepth.get p.md == 0
      else M.vlanDepth.get p.md != 0 && M.vidOuter.get p.md == b.getN P.tapVid k))
    && (b.getN P.tapInstance k == 0 || b.getN P.tapInstance k == p.inst)

/-- The copy for the GMU: the lowest enabled tap that matches, in a queue of 4,096 (R302, R303). -/
def State.offerTap (s : State) (n : Nat) : State :=
  let p := s.pkt.at n
  let b := s.bankOf p.gen
  let taps := (b.filter (fun e => e.1 / 2 ^ 32 == P.tapEnable.id && e.2 == 1)).map (fun e => e.1 % 2 ^ 32)
  match taps.find? (b.tapMatches p) with
  | none => s
  | some k => if 4096 ≤ s.gmu.queue.length then s.count Stat.gmuTapOverflow k else { s with gmu := { s.gmu with queue := s.gmu.queue ++ [(k, n)] } }

/-- INSTANCE of a packet of a shared port, from VID_OWNER of its VLAN (R445). -/
def State.sharedInst (s : State) (n : Nat) : State :=
  let p := s.pkt.at n
  let b := s.bankOf p.gen
  if b.getN P.portOwner p.port = 64 ∧ b.on P.portRole p.port = false then
    let i := b.getN P.vidOwner (if M.vlanDepth.get p.md = 0 then b.getN P.pvid p.port else M.vidOuter.get p.md)
    s.updPkt n (fun p => { p with inst := i, instGen := s.instGen i, md := putFields p.md [(M.inst, i), (M.instGen, s.instGen i)] })
  else s

/-- A relay frame for another device (R336). -/
def State.inTransit (s : State) (p : Packet) : Bool := p.relaySrc.isSome && decide (p.relayField H.dst ≠ s.fab.id)

/-- A packet leaves the ingress engine: verdict 0 for the classifier, 1 the slow path, 2 the default action of its port. Its
classifier fields read 0. A transit frame goes on whatever its parse found. (DEDUCED, entry 144.) -/
def State.leaveEngine (s : State) (n md verdict cause : Nat) : State :=
  let s := s.updPkt n (fun p => { p with md := putFields (setBits md 87 104 0) [(M.verdict, verdict), (M.cause, cause)] })
  let s := (s.sharedInst n).offerTap n
  let p := s.pkt.at n
  if verdict = 0 ∨ s.inTransit p = true then s.updPkt n (fun p => { p with stage := .parsed })
  else if verdict = 1 then s.punt n cause
  else if s.defaultStays p then s.updPkt n (fun p => { p with stage := .parsed })
  else s.defaultLeave n

/-! ### Lookups -/

/-- A matching lookup marks its entry: a learned one only by a learn-key lookup from the port in TARGET (R136). -/
def State.hitEntry (s : State) (c : Nat × Nat) (learnPort : Option Nat) : State :=
  let e := s.entry c
  let own := match learnPort with | some p => R.target.get e.result == p && R.type.get e.result == 0 | none => false
  if R.learned.get e.result = 0 ∨ own = true then s.setEntry c { e with hit := true } else s

/-- A hit in an entry of another instance counts as a miss (R445). -/
def State.ownEntry (s : State) (inst : Nat) (c : Option (Nat × Nat)) : Option (Nat × Nat) :=
  c.filter (fun c => R.inst.get (s.entry c).result == inst)

/-- The result of an entry as FRONT_RESULT shows it: PINNED = 0 from the station tier (R122). -/
def State.entryResult (s : State) (c : Nat × Nat) : Nat :=
  let r := (s.entry c).result
  if c.1 < 2 then r else R.pinned.put 0 r

/-- A front lookup of a packet (R119, R138, R445). -/
def State.frontLookup (s : State) (n prof : Nat) (bad : List Nat) : State × Option (Nat × Nat) :=
  let p := s.pkt.at n
  let b := s.bankOf p.gen
  if prof = 0 then (s, none) else
    let key := p.frontKey b prof
    let t := b.getN P.kpTable prof
    let hit := s.ownEntry p.inst (s.frontFind b bad t key)
    let s := s.readCells bad (b.frontCells t key) false
    match hit with
    | some c => (s.hitEntry c none, some c)
    | none => (s, none)

/-- Bucket reads at one nanosecond: 12 device-wide (R128); true when the reads fit. (DEDUCED, entry 64.) -/
def State.stationRead (s : State) (k : Nat) : State × Bool :=
  let used := if s.tbl.stAt = s.time.mono then s.tbl.stReads else 0
  if used + k ≤ 12 then ({ s with tbl := { s.tbl with stAt := s.time.mono, stReads := used + k } }, true) else (s, false)

/-- Packets of a pipe that wait for a station lookup. -/
def State.stationPending (s : State) (pipe : Nat) : Nat :=
  (s.pkt.filter (fun e => e.2.live && pipeOf e.2.port == pipe && (match e.2.stage with | .station _ => true | _ => false))).length

/-- Rule and prefix searches of a packet with the results latched (R144, R148, R151, R157, R158); true when a returned row fails its
parity (R161). `bad`: codes of rows, index 2²⁰ × quadrant + address. -/
def State.searches (s : State) (n prof : Nat) (bad : List Nat) : State × Bool :=
  let p := s.pkt.at n
  let b := s.bankOf p.gen
  let quad := quadOf p.port
  let on := prof != 0 && b.getN P.kpRnfields prof != 0
  let key := p.ruleKey b prof
  let rule := if on then s.ruleSearch b quad prof key else none
  let pfx := match p.prefixKey b prof with
    | some (family, vrf, addr) => s.prefixSearch quad family vrf addr
    | none => none
  let s := if on then { s with srch := { s.srch with rows := s.srch.rows + (s.enabledRows b quad prof key).length, searches := s.srch.searches + 1 } } else s
  let badRule := match rule with | some r => bad.contains (badCode 5 (2 ^ 20 * quad + r.1)) || r.2.par != r.2.parityOf | none => false
  let badPfx := match pfx with | some r => bad.contains (badCode 6 (2 ^ 20 * quad + r.1)) || r.2.par != r.2.parityOf | none => false
  let s := match rule with | some r => if badRule then s.searchParity 5 r.1 quad false else s | none => s
  let s := match pfx with | some r => if badPfx then s.searchParity 6 r.1 quad false else s | none => s
  let s := s.updPkt n (fun p => { p with
    ruleRes := (rule.map (·.2.result)).getD 0, pfxRes := (pfx.map (·.2.result)).getD 0
    md := putFields p.md [(M.ruleHit, b2n rule.isSome), (M.ruleAddr, (rule.map (·.1)).getD 0),
      (M.prefixHit, b2n pfx.isSome), (M.prefixAddr, (pfx.map (·.1)).getD 0)] })
  (s, badRule || badPfx)

/-- Early lookups of a word (R83, R89): what the searches give on the metadata as it stands; only conditions see them. -/
def State.earlyLookup (s : State) (n prof : Nat) (bad : List Nat) : State :=
  let p := s.pkt.at n
  let b := s.bankOf p.gen
  let (s, hit) := s.frontLookup n prof bad
  let (s, _) := s.searches n prof bad
  s.updPkt n (fun p => { p with md := putFields p.md [(M.frontHit, b2n hit.isSome), (M.frontResult, (hit.map s.entryResult).getD 0),
    (M.stationPending, b2n (hit.isNone && b.on P.kpStation prof))] })

/-- Writes a front or station hit, or a miss, into the metadata word. -/
def State.latchHit (s : State) (n : Nat) (c : Option (Nat × Nat)) : State :=
  s.updPkt n (fun p => { p with md := putFields p.md [(M.frontHit, b2n c.isSome), (M.frontResult, (c.map s.entryResult).getD 0), (M.stationPending, 0)] })

/-- The learn check of a packet (R131): the learn key finds no entry, or one with another TARGET or RESULT_TYPE. -/
def State.learnCheck (s : State) (n prof : Nat) (bad : List Nat) : State :=
  let p := s.pkt.at n
  let b := s.bankOf p.gen
  if !(b.on P.learnEnable p.port && b.on P.kpLearn prof && prof != 0) then s else
    let key := p.learnKey b prof
    let s := s.readCells bad (b.frontCells (b.getN P.kpTable prof) key) false
    let raise := fun (s : State) => s.updPkt n (fun p => { p with learn := some key })
    let judge := fun (s : State) (c : Nat × Nat) =>
      let s := s.hitEntry c (some p.port)
      let r := (s.entry c).result
      if R.type.get r = 0 ∧ R.target.get r = p.port then s else raise s
    match s.ownEntry p.inst (s.frontFind b bad (b.getN P.kpTable prof) key) with
    | some c => judge s c
    | none =>
      if !b.on P.kpStation prof then raise s else
        match s.stationRead (s.stationReads b bad (stationKey key)) with
        | (s, false) => s.count Stat.learnCheckSkipped
        | (s, true) =>
          let s := s.readCells bad (s.stationCells b bad (stationKey key)) false
          match s.ownEntry p.inst (s.stationFind b bad (stationKey key)) with
          | some c => judge s c
          | none => raise s

/-- The lookups are done: the packet waits for its turn at the action stage (R130, R555). -/
def State.looked (s : State) (n : Nat) : State := s.updPkt n (fun p => { p with stage := .classified, looked := s.tbl.dels })

/-- What follows the lookups of the first step of stage 3 (R127, R128). -/
inductive Miss where
  /-- no station lookup -/
  | done
  /-- an express packet takes EXPRESS_MISS -/
  | express
  /-- no place or no rate for a station lookup: it counts as a miss -/
  | overload
  /-- the first bucket is read -/
  | reads
deriving DecidableEq, Repr

/-- A front miss on a station-backed profile takes its share of the read rate. The express packets of a transit frame do not take EXPRESS_MISS. -/
def State.onMiss (s : State) (n : Nat) : State × Miss :=
  let p := s.pkt.at n
  if s.express p (s.actionSet p false).cls then (s, if s.inTransit p then .done else .express)
  else if 512 ≤ s.stationPending (pipeOf p.port) then (s, .overload)
  else match s.stationRead 1 with
  | (s, false) => (s, .overload)
  | (s, true) => (s, .reads)

/-- The packet goes on as its station lookup asks (R127 to R129). -/
def State.goOn (s : State) (n : Nat) (f : Miss) : State :=
  let p := s.pkt.at n
  let b := s.bankOf p.gen
  match f with
  | .done => s.looked n
  | .express =>
    let s := s.count Stat.expressMisses
    match b.getN P.expressMiss p.port with
    | 0 => s.stageDrop n
    | 1 => s.stagePunt n 0x42
    | _ => s.looked n
  | .overload => (s.count Stat.stationOverload (pipeOf p.port)).looked n
  | .reads =>
    (s.updPkt n (fun p => { p with stage := .station s.time.mono, md := M.stationPending.put 1 p.md })).hbmAsk 4
      (hbmStation + 64 * b.station1 (stationKey (p.frontKey b (M.keyProfile.get p.md)))) 64 false n

/-- The lookups of a packet (stage 3): a forwarding lookup takes its share of the station rate before the learn check (R131). Those of a
transit frame are made, and what they find is ignored (R19, R336). (DEDUCED, entry 144.) -/
def State.classify (s : State) (n : Nat) (bad : List Nat) : State :=
  let p := s.pkt.at n
  let b := s.bankOf p.gen
  let prof := M.keyProfile.get p.md
  if M.verdict.get p.md ≠ 0 then s.looked n else
    let (s, c) := s.frontLookup n prof bad
    let s := s.latchHit n c
    let (s, failed) := s.searches n prof bad
    let broken := failed && !s.inTransit p
    let (s, f) := if c.isNone && prof != 0 && b.on P.kpStation prof && !broken then s.onMiss n else (s, .done)
    let s := if s.inTransit p then s else s.learnCheck n prof bad
    if broken then (s.count Stat.searchParityDrops).stageDrop n else s.goOn n f

/-- The station lookup of a packet answers (R126, R138, R445). A second read takes its share of the rate. -/
def State.stationAnswer (s : State) (n : Nat) (bad : List Nat) : State :=
  let p := s.pkt.at n
  let b := s.bankOf p.gen
  let key := stationKey (p.frontKey b (M.keyProfile.get p.md))
  let more := s.stationReads b bad key - 1
  match s.stationRead more with
  | (s, false) => ((s.count Stat.stationOverload (pipeOf p.port)).latchHit n none).looked n
  | (s, true) =>
    let hit := s.ownEntry p.inst (s.stationFind b bad key)
    let s := s.readCells bad (s.stationCells b bad key) false
    let s := match hit with | some c => s.hitEntry c none | none => s
    (s.latchHit n hit).looked n

end Sys2Proof.Machine
end

