-- ==== Sys2Proof/Machine/Transmit.lean ====
section
/-! DEFINITION. What an egress port sends: eligibility and selection (R189, R200, R203, R217 to R220, R239, R340), preemption (R64,
R238), the crossbar (R192), the egress engine (R102), tagging (R255, R256) and the frame's end (R21, R60, R75, R240). -/
namespace Sys2Proof.Machine

/-! ### The MAC of a port -/

/-- The copy of a port in a place. -/
def State.atMac (s : State) (port : Nat) (f : Copy → Bool) : Option Nat :=
  (s.cpy.find? (fun e => e.2.live && f e.2 && e.2.port == port)).map (·.1)

/-- The frame selected for a port and not yet admitted by its egress engine. -/
def State.selectedAt (s : State) (port : Nat) : Option Nat := s.atMac port (fun c => decide (c.place = .selected))

/-- The frame in transmission. -/
def State.sendingAt (s : State) (port : Nat) : Option Nat := s.atMac port Copy.inFlight

/-- The frame in a context of the egress engine. -/
def State.engineAt (s : State) (port : Nat) : Option Nat := s.atMac port (fun c => c.begun && !c.inFlight && !c.paused)

/-- The preempted frame whose remainder waits. -/
def State.pausedAt (s : State) (port : Nat) : Option Nat := s.atMac port (fun c => c.begun && c.paused)

/-! ### Preemption (R64, R238) -/

/-- Bytes of a frame, with its FCS, that its present fragment has sent after the preamble. (DEDUCED, entry 54.) -/
def State.fragment (s : State) (c : Copy) : Nat :=
  match c.place with
  | .sending t => min (c.out.length + 4 - c.sent) ((s.time.mono - t) * s.cfg.active.rate c.port / 8 - 8)
  | _ => 0

/-- Clause 99 allows the frame to be cut here: a non-final fragment of at least 64 × (1 + ADD_FRAG_SIZE) bytes, and 64 left.
(DEDUCED, entry 54.) -/
def State.canPreempt (s : State) (c : Copy) : Bool :=
  decide (c.queue < 8192) && c.inFlight && s.preemptable c.port (c.queue % 16)
    && decide (64 * (1 + s.par P.addFragSize c.port) ≤ s.fragment c) && decide (s.fragment c + 64 ≤ c.out.length + 4 - c.sent)

/-- The MAC ends the fragment: 4 bytes of mCRC and a gap of 12 follow. (DEDUCED, entry 54.) -/
def State.preempt (s : State) (k : Nat) : State :=
  let c := s.cpy.at k
  (s.updCpy k (fun c => { c with paused := true, sent := c.sent + s.fragment c })).updPort c.port
    (fun p => { p with txFree := s.time.mono + s.wireNs c.port 16 })

/-- The remainder is sent. -/
def State.resume (s : State) (k : Nat) : State :=
  s.updCpy k (fun c => { c with paused := false, place := .sending (max s.time.mono (s.prt c.port).txFree) })

/-- A frame of an egress queue is on the wire of a port while its gate is closed: a preemptable one is preempted at the first point that
Clause 99 allows, and one of the express MAC has run past the close (R237, R238, R240). -/
def State.macTurns (s : State) (port : Nat) : State :=
  match s.sendingAt port with
  | some k =>
    let c := s.cpy.at k
    if 8192 ≤ c.queue ∨ s.gateOpen port (c.queue % 16) = true then s
    else if s.preemptable port (c.queue % 16) then (if s.canPreempt c then s.preempt k else s)
    else match s.wireSpan c with
      | some (t, e) => if t ≤ s.time.mono ∧ s.time.mono + s.wireNs port 12 < e then s.updCpy k (fun c => { c with late := true }) else s
      | none => s
  | none => s

/-- A gate has closed or opened on a port (R238): the frame in transmission is preempted, or the remainder that waits goes on. -/
def State.gateMoves (s : State) (port : Nat) : State :=
  match s.sendingAt port with
  | some _ => s.macTurns port
  | none =>
    match s.pausedAt port with
    | some k => if s.gateOpen port ((s.cpy.at k).queue % 16) && (s.selectedAt port).isNone && (s.engineAt port).isNone then s.resume k else s
    | none => s

/-! ### Eligibility (R199, R200, R202, R217) -/

/-- Rate of the port a packet came in on. -/
def State.inRate (s : State) (p : Packet) : Nat := (s.bankOf p.gen).rate p.port

/-- An eligible frame is held back for bytes still to arrive (R200). -/
def State.heldBack (s : State) (c : Copy) : Bool :=
  let p := s.pkt.at c.pkt
  let ri := s.inRate p
  let ro := s.cfg.active.rate c.port
  let (l, assumed) := s.lengthOf p
  !p.ended && decide (ri < ro) && (assumed || decide ((s.time.mono - p.arrived) * ri < 8 * (ceilDiv (l * (ro - ri)) ro + 64)))

/-- A frame may start: at once when it is cut-through eligible, else with its tail and its verdict (R199, R202, R247). -/
def State.ready (s : State) (c : Copy) : Bool :=
  let p := s.pkt.at c.pkt
  !c.own.isEmpty || (c.eligible && !p.whole && !s.heldBack c) || (p.ended && decide (p.verdict ≠ .pending))

/-- A queue is eligible (R217). -/
def State.queueOk (s : State) (queue : Nat) : Bool :=
  let port := queue / 16
  s.isUp port && (s.prt port).hold.isNone && !s.paused port (queue % 16) && s.shaperOk queue &&
    (match s.queueHead queue with
     | some k => decide ((s.cpy.at k).place = .queue) && s.windowOk (s.cpy.at k) (s.startsIn port) && s.ready (s.cpy.at k)
     | none => false)

/-- The class that R218 serves next; `express`: only classes of the express MAC may start. -/
def State.pickClass (s : State) (port : Nat) (express : Bool) : Option Nat :=
  let ok := fun c => s.queueOk (16 * port + c) && !(express && s.preemptable port c)
  match ((List.range 16).map (15 - ·)).find? (fun c => s.par P.schedMode (16 * port + c) == 0 && ok c) with
  | some c => some c
  | none => (s.sched.active.at port).find? (fun c => s.par P.schedMode (16 * port + c) == 1 && ok c)

/-- DRR after a queue of a port has sent (R220). -/
def State.drrServe (s : State) (queue k : Nat) : State :=
  if s.par P.schedMode queue = 0 then s else
    let q := s.qs queue
    let dc := (if q.dc = 0 then s.par P.quantum queue else q.dc) - 1
    let more := (s.queueCopies queue).any (fun m => m != k && !(s.cpy.at m).begun)
    let active := (s.sched.active.at (queue / 16)).filter (· != queue % 16)
    let list := fun (s : State) (l : List Nat) => { s with sched := { s.sched with active := s.sched.active.put (queue / 16) l } }
    if !more then list (s.updQ queue (fun q => { q with dc := 0 })) active
    else if dc = 0 then list (s.updQ queue (fun q => { q with dc := 0 })) (active ++ [queue % 16])
    else s.updQ queue (fun q => { q with dc := dc })

/-- The residence of a copy has reached RES_LIMIT of its class (R203). -/
def State.overResident (s : State) (k : Nat) : Bool :=
  decide (s.par P.resLimit ((s.cpy.at k).queue % 16) * 1000 ≤ s.residence (s.stampOf k))

/-- 1.0 s (R43). (DEDUCED, entry 35.) -/
def residenceCap : Nat := 1000000000

/-- The residence of a copy has reached 1.0 s (R43). -/
def State.tooOld (s : State) (k : Nat) : Bool := decide (residenceCap ≤ s.residence (s.stampOf k))

/-- Counts and drops a copy that has stayed 1.0 s outside the egress queues (R43). -/
def State.dropOld (s : State) (k : Nat) : State := (s.count Stat.residenceCapDrops).endCopy k

/-- Counts and drops a copy whose residence has reached its limit (R203). -/
def State.dropResident (s : State) (k : Nat) : State := (s.count Stat.residenceLimitDrops (s.cpy.at k).queue).endCopy k

/-- Its need exceeds W_max of the active list, and its length is known (R239). (DEDUCED, entry 55.) -/
def State.oversized (s : State) (c : Copy) : Bool :=
  let port := c.queue / 16
  let (l, assumed) := s.copyLength c
  !assumed && !s.preemptable port (c.queue % 16) && decide (c.place = .queue)
    && !fitsWindow (l + s.tagBytes c) (s.cfg.active.rate port) (s.wMax port (c.queue % 16))

/-- Drops the head frames of a queue that no window of the active list fits. (DEDUCED, entry 55.) -/
def State.dropOversize : Nat → State → Nat → State
  | 0, s, _ => s
  | n + 1, s, queue =>
    match s.queueHead queue with
    | some k => if s.oversized (s.cpy.at k) then State.dropOversize n ((s.count Stat.oversizeForSchedule queue).endCopy k) queue else s
    | none => s

/-- The frame that a selection on a port takes: head frames that have outlived their limit are discarded on the way. -/
def State.pickFrame : Nat → State → Nat → Bool → State × Option Nat
  | 0, s, _, _ => (s, none)
  | n + 1, s, port, express =>
    match s.pickClass port express with
    | none => (s, none)
    | some c =>
      match s.queueHead (16 * port + c) with
      | none => (s, none)
      | some k =>
        if s.overResident k then State.pickFrame n (s.dropResident k) port express
        else (s.drrServe (16 * port + c) k, some k)

/-- A descriptor leaves the FIFO of a relay port and class; one that gains room releases the VOQs that waited for it (R339). -/
def State.leaveFifo (s : State) (port rc : Nat) : State :=
  { s with fab := { s.fab with
      txfifo := s.fab.txfifo.upd (8 * port + rc) (·.tail)
      blocked := s.fab.blocked.filter (fun v => !(v % 8 == rc && (s.fab.path.at (v / 8)).contains port)) } }

/-- The descriptor that a relay port takes: strict priority from relay class 7 down (R340); frames that have stayed 1.0 s are discarded on
the way (R43). -/
def State.pickRelayFrom (s : State) : Nat → Nat → State × Option Nat
  | 0, _ => (s, none)
  | n + 1, port =>
    match ((List.range 8).map (7 - ·)).find? (fun rc => match s.fab.txfifo.at (8 * port + rc) with
        | k :: _ => s.ready (s.cpy.at k)
        | [] => false) with
    | none => (s, none)
    | some rc =>
      match (s.fab.txfifo.at (8 * port + rc)).head? with
      | none => (s, none)
      | some k => if s.tooOld k then ((s.leaveFifo port rc).dropOld k).pickRelayFrom n port else (s.leaveFifo port rc, some k)

/-- The descriptor that a relay port takes: none before the device's ID is settled (R43, R330, R340). -/
def State.pickRelay (s : State) (port : Nat) : State × Option Nat :=
  if !s.fab.settled then (s, none) else s.pickRelayFrom (1 + ((List.range 8).map (fun rc => (s.fab.txfifo.at (8 * port + rc)).length)).sum) port

/-! ### Selection (R187, R192, R218) -/

/-- Buffer of a quadrant: an uncorrectable error on a frame is counted and raised; the bank is not named by the command. -/
def State.eccDrop (s : State) (quad : Nat) (protect : Bool) : State :=
  ((s.count Stat.bufferEccDrops).raise (144 + quad) (s.freeVal 4) protect).drawn

/-- The class of a copy is a protection class. -/
def Copy.protect (c : Copy) : Bool := decide (c.queue < 8192) && decide (12 ≤ c.queue % 16)

/-- The frame is selected. `ecc`: 1 a corrected bit, 2 an uncorrectable error before the frame has begun, 3 one after that; the
cells are fetched once a crossbar output is free for it. -/
def State.choose (s : State) (k ecc : Nat) : State :=
  let c := s.cpy.at k
  let s := if ecc = 1 then s.count Stat.bufferEccCorrected else s
  if ecc = 2 then (s.eccDrop c.quad c.protect).endCopy k
  else
    let s := if ecc = 3 then s.eccDrop c.quad c.protect else s
    s.updCpy k (fun c => { c with place := .selected, stomp := c.stomp || ecc == 3 })

/-- One port is served: a frame is selected, by preemption where only a preemptable frame stands in the way, or the remainder of
a preempted frame goes on. (DEDUCED, entry 55.) -/
def State.selectPort (s : State) (port ecc : Nat) : State :=
  let take := fun (r : State × Option Nat) => match r with
    | (s, some k) => s.choose k ecc
    | (s, none) => s
  if !s.isUp port || (s.selectedAt port).isSome || (s.engineAt port).isSome || s.fault.pwrCycleReq then s
  else if s.parOn P.portRole port then (if (s.sendingAt port).isSome then s else take (s.pickRelay port))
  else
    let s := s.forEach (List.range 16) (fun s c => State.dropOversize (s.queueCopies (16 * port + c)).length s (16 * port + c))
    let fuel := (s.portCopies port (fun _ => true)).length
    match s.sendingAt port with
    | some f =>
      if s.canPreempt (s.cpy.at f) then
        match State.pickFrame fuel s port true with
        | (s, some k) => (s.preempt f).choose k ecc
        | (s, none) => s
      else s
    | none =>
      if s.time.mono < (s.prt port).txFree then s
      else match s.pausedAt port with
      | some f =>
        match State.pickFrame fuel s port true with
        | (s, some k) => s.choose k ecc
        | (s, none) => if s.gateOpen port ((s.cpy.at f).queue % 16) then s.resume f else s
      | none => take (State.pickFrame fuel s port false)

/-- The MAC of a port can begin a frame: the port is UP, no frame is selected, and none is in transmission that must end first. -/
def State.canBegin (s : State) (port : Nat) : Bool :=
  s.isUp port && (s.selectedAt port).isNone && (s.engineAt port).isNone
    && (match s.sendingAt port with
        | some f => s.canPreempt (s.cpy.at f) && (s.pickClass port true).isSome
        | none => decide ((s.prt port).txFree ≤ s.time.mono)
            && ((s.pausedAt port).isSome || (s.pickClass port false).isSome || (s.pickRelay port).2.isSome
                || (List.range 16).any (fun c => match s.queueHead (16 * port + c) with
                     | some k => s.oversized (s.cpy.at k)
                     | none => false)))

/-! ### The crossbar (R191 to R193) -/

/-- Cells of a chosen frame that its output may ask for: those that have arrived. -/
def State.cellsReady (s : State) (c : Copy) : Nat :=
  let p := s.pkt.at c.pkt
  if !c.own.isEmpty || s.endSeen p then c.cells else min c.cells ((s.time.mono - p.arrived) * s.inRate p / 2048)

/-- A crossbar output serves a frame whose cells have not all crossed (R193). (DEDUCED, entry 46.) -/
def State.outputBusy (s : State) (o : Nat) : Bool := s.cpy.any (fun e => e.2.live && e.2.xout == some o && decide (e.2.crossed < e.2.cells))

/-- Chosen frames without an output take the free ones of their pipes: the lower output first. (DESIGN CHOICE, entry 56.) -/
def State.takeOutputs (s : State) : State :=
  s.forEach ((s.cpy.filter (fun e => e.2.live && decide (e.2.place = .selected) && e.2.xout.isNone && decide (0 < e.2.cells))).map (·.1))
    (fun s k =>
      let p := 2 * pipeOf (s.cpy.at k).port
      match [p, p + 1].find? (fun o => !s.outputBusy o) with
      | some o => s.updCpy k (fun c => { c with xout := some o })
      | none => s)

/-- Outputs that hold a cell to fetch, with the quadrant it lies in and the copy it belongs to. -/
def State.requests (s : State) : List (Nat × Nat × Nat) :=
  s.cpy.filterMap (fun e => match e.2.xout with
    | some o => if e.2.live && decide (e.2.crossed < s.cellsReady e.2) then some (o, e.2.quad, e.1) else none
    | none => none)

/-- The output an input grants in one iteration: among those unmatched, the requesting one at or after its grant pointer (R192). -/
def Buffer.grants (b : Buffer) (reqs : List (Nat × Nat × Nat)) (made : List (Nat × Nat)) (i : Nat) : Option Nat :=
  if made.any (fun m => m.2 == i) then none
  else firstFrom 32 (b.grant.at i) (fun o => !made.any (fun m => m.1 == o) && reqs.any (fun r => r.1 == o && r.2.1 == i / 8))

/-- Matches of one iteration, output and input: each output accepts the granting input at or after its accept pointer (R192). -/
def Buffer.accepts (b : Buffer) (reqs : List (Nat × Nat × Nat)) (made : List (Nat × Nat)) : List (Nat × Nat) :=
  reqs.filterMap (fun r => (firstFrom 32 (b.accept.at r.1) (fun i => b.grants reqs made i == some r.1)).map (fun i => (r.1, i)))

/-- The pointers after the accepts of the first iteration (R192). -/
def Buffer.pointed (b : Buffer) (made : List (Nat × Nat)) : Buffer :=
  made.foldl (fun b m => { b with grant := b.grant.put m.2 ((m.1 + 1) % 32), accept := b.accept.put m.1 ((m.2 + 1) % 32) }) b

/-- One core clock of the crossbar: three iterations, and a cell crosses for each match (R191 to R193). (DESIGN CHOICE, entry 56.) -/
def State.crossbar (s : State) : State :=
  let s := s.takeOutputs
  let reqs := s.requests
  let first := s.buf.accepts reqs []
  let two := first ++ s.buf.accepts reqs first
  let made := two ++ s.buf.accepts reqs two
  let s := { s with buf := s.buf.pointed first }
  s.forEach (reqs.filter (fun r => made.any (fun m => m.1 == r.1))) (fun s r => s.updCpy r.2.2 (fun c => { c with crossed := c.crossed + 1 }))

/-- Core clocks of the crossbar, while an output has a request or a frame waits for one. (DESIGN CHOICE, entry 56.) -/
def State.crossbars (s : State) : Nat → State
  | 0 => s
  | n + 1 => if s.takeOutputs.requests.isEmpty then s.takeOutputs else s.crossbar.crossbars n

/-- SCHEDULER_SELECT (R218): up to three ports of the pipe at or after its pointer. -/
def State.select (s : State) (pipe : Nat) (ports ecc : List Nat) : State :=
  let served := (((List.range 32).map (fun i => 32 * pipe + (s.sched.ptr.at pipe + i) % 32)).filter
    (fun p => ports.contains p && s.canBegin p)).take 3
  let u := s.forEach served (fun s p => s.selectPort p (ecc.getD (ports.idxOf p) 0))
  match served.getLast? with
  | none => s
  | some p => { u.takeOutputs with sched := { u.sched with ptr := u.sched.ptr.put pipe ((p + 1) % 32) } }

/-! ### The egress engine (R102) -/

/-- Bytes that the manual leaves open: `n` of them. (DESIGN CHOICE, entry 57.) -/
def State.freeBytes (s : State) (n : Nat) : List Byte :=
  (List.range n).map (fun i => BitVec.ofNat 8 ((Config.freeValue (s.free + i / 128)).toNat / 2 ^ (8 * (i % 128))))

/-- Metadata of a copy as the egress engine sees it. -/
def State.egressMd (s : State) (c : Copy) : Nat :=
  let md := if c.own.isEmpty then (s.pkt.at c.pkt).md else 0
  if c.queue < 8192 then putFields md [(M.queue, c.queue), (M.egressPort, c.queue / 16), (M.cls, c.queue % 16)] else md

/-- The frame without its FCS, from the DA, with its SecTAG apart; SecTAG and ICV are gone where the ingress port strips them or
the egress port tags the frame (R253, R255). (DEDUCED, entry 58.) -/
def State.egressBase (s : State) (c : Copy) : List Byte × List Byte :=
  if !c.own.isEmpty then (c.own, []) else
    let p := s.pkt.at c.pkt
    let l := p.rx.bytes.drop (s.headBytes p)
    let body := l.take (l.length - 4)
    if p.sectag = 0 then (body, []) else
      let inner := body.take 12 ++ body.drop (12 + p.sectag)
      if (s.bankOf p.gen).on P.macsecStrip p.port || s.tagsFrame c.port inner then (inner.take (inner.length - 16), [])
      else (inner, slice body 12 p.sectag)

/-- What the default image makes of a frame, whose words the manual does not give: with no rewrite record it leaves the frame as it is,
and what it makes of one is a free value otherwise (EGRESS_REWRITE). (DESIGN CHOICE, entry 57.) -/
def State.defaultRewrite (s : State) (c : Copy) : State × List Byte :=
  if c.rewrite = 0 then (s, c.out) else (s.drawn 82, (s.drawn).freeBytes (60 + s.freeVal 64 % 10177))

/-- What an egress engine sees of a copy: the frame as edited so far, of which no more is visible than has arrived (R82, R102). Offsets
count in the edited frame. (DEDUCED, entries 58, 143.) -/
def State.egressView (s : State) (c : Copy) : View :=
  let p := s.pkt.at c.pkt
  let all := !c.own.isEmpty || s.endSeen p
  { win := c.out.take 256, len := c.out.length + 4, ended := all
    seen := if all then 256 else s.seen p + c.out.length - (s.egressBase c).1.length - s.headBytes p }

/-- An early lookup that a word of an egress engine issues: what the searches give on the metadata as the engine has it (R83, R102). -/
def State.egressLookup (s : State) (k prof : Nat) (bad : List Nat) : State :=
  let c := s.cpy.at k
  if !c.own.isEmpty then s else
    let p := s.pkt.at c.pkt
    let u := (s.updPkt c.pkt (fun p => { p with md := c.emd, sectag := 0, rx := { p.rx with bytes := c.out } })).earlyLookup c.pkt prof bad
    ({ u with pkt := u.pkt.put c.pkt p }).updCpy k (fun c => { c with emd := (u.pkt.at c.pkt).md })

/-- PCOUNT and LOOKUP_ISSUE of a word of an egress engine (R83, R102). -/
def State.egressEffects (s : State) (k w : Nat) (bad : List Nat) : State :=
  let s := s.parseCount (2 * pipeOf (s.cpy.at k).port + 1) (W.pcount.get w)
  if W.issue.get w = 0 then s else s.egressLookup k (W.issue.get w) bad

/-! ### Tagging (R255, R256, R266 to R268, R283) -/

/-- What tagging a frame comes to. -/
inductive Tagging where
  /-- the frame with SecTAG and ICV -/
  | tagged (l : List Byte)
  /-- the key is not resident -/
  | absent
  /-- the key has no count left -/
  | exhausted
deriving DecidableEq, Repr

/-- The SecTAG of R255. -/
def secTag (sc : Bool) (an sci pn len : Nat) : List Byte :=
  [0x88#8, 0xE5#8, BitVec.ofNat 8 ((if sc then 32 else 0) + an % 4), BitVec.ofNat 8 (if len < 48 then len else 0)]
    ++ beBytes 4 (pn % 2 ^ 32) ++ (if sc then beBytes 8 sci else [])

/-- The next transmit PN of a slot is assigned; TX_RESERVED is written ahead by 2²⁰ (R255, R283). -/
def State.takePn (s : State) (slot : Nat) : State :=
  let k := s.sec.slot.at slot
  let pn := k.txPn.toNat
  let res := if k.txReserved.toNat ≤ pn then k.txReserved.toNat + 2 ^ 20 else k.txReserved.toNat
  let s := s.updKey slot (fun k => { k with txPn := BitVec.ofNat 64 (pn + 1), txReserved := BitVec.ofNat 64 res })
  if k.txReserved.toNat ≤ pn then s.writeVault k.assoc k.keyNum slot (fun r => { r with txReserved := BitVec.ofNat 64 res }) else s

/-- The key a port tags with: the current one of MACSEC_TX_ASSOC, while the association exists and has it (R251, R255). -/
def State.tagKey (s : State) (port : Nat) : Option (Nat × Nat) :=
  let a := s.cfg.active.getN P.macsecTxAssoc port
  match (s.sec.assoc.at a).current with
  | some an => if s.parOn P.asEnable a && s.installed a an then some (a, an) else none
  | none => none

/-- MACSEC_TAG_INSERT: the frame of a copy is tagged under the key of its port, whose slot it holds until it has left (R255, R277).
(DEDUCED, entry 59.) -/
def State.tagFrame (s : State) (n port : Nat) (l : List Byte) : State × Tagging :=
  let b := s.cfg.active
  match s.tagKey port with
  | none => (s, .absent)
  | some (a, an) =>
    match s.slotOf a an with
    | none =>
      let inst := b.getN P.asInstance a
      ((s.requestFill { assoc := a, keyNum := an, inst := inst, gen := s.instGen inst }).1, .absent)
    | some slot =>
      match ((s.takeRef slot).updCpy n (fun c => { c with tag := some slot })).takeUse (pipeOf port) slot with
      | (s, false) => (s.log 0x012 [a, an] [(s.sec.slot.at slot).useCount.toNat] (b.getN P.asInstance a), .exhausted)
      | (s, true) =>
        let k := s.sec.slot.at slot
        let pn := k.txPn.toNat
        let mode := b.getN P.asMode a
        let sci := b.getN P.asSci a
        let f := l.take 12 ++ secTag (b.on P.macsecTxSci port) an sci pn (l.length - 12) ++ l.drop 12
        let s := ((s.takePn slot).count Stat.tagged a).updAssoc a (fun x => { x with tagged := x.tagged + 1 })
        let r := k.replica.at (pipeOf port)
        (s, .tagged (f ++ Crypto.gmacWith r.rounds r.h (gcmIv b a mode sci pn) f))

/-! ### Admission by the egress engine (R61, R261) -/

/-- A copy leaves with a cause: its packet is punted, or the copy dropped. -/
def State.egressOut (s : State) (k cause : Nat) (punt : Bool) : State :=
  let c := s.cpy.at k
  (if punt && c.own.isEmpty then s.slowPath c.pkt cause false false else s).endCopy k

/-- EGRESS_DEFAULT of the egress port (R102). (DEDUCED, entry 58.) -/
def State.egressDefault (s : State) (k cause : Nat) : State :=
  let c := s.cpy.at k
  let port := if c.own.isEmpty then (s.pkt.at c.pkt).port else c.port
  let punt := s.parOn P.egressDefault c.port
  (if punt && c.own.isEmpty then s else s.count Stat.defaultDrops (64 * port + cause)).egressOut k cause punt

/-- Header of a relay frame (R331). -/
def relayHeader (src dst rc seq hops inst type len : Nat) : List Byte :=
  let h := putFields 0 [(H.src, src), (H.dst, dst), (H.rclass, rc), (H.seq, seq), (H.hops, hops), (H.inst, inst), (H.type, type), (H.len, len)]
  let b := (beBytes 16 h).take 14
  b ++ beBytes 2 (crc16 b)

/-- A DATA frame with its relay header: a transit frame changes its hop count only (R332, R336, R339). -/
def State.relayFrame (s : State) (c : Copy) (l : List Byte) : List Byte :=
  let p := s.pkt.at c.pkt
  let voq := c.queue - 8192
  (if c.transit then
    relayHeader (p.relayField H.src) (p.relayField H.dst) (p.relayField H.rclass) (p.relayField H.seq) (p.relayField H.hops - 1)
      (p.relayField H.inst) 0 (p.relayField H.len)
  else relayHeader s.fab.id (voq / 8) (voq % 8) c.seq (s.par P.hopLimit) c.inst 0 (l.length + 4)) ++ l

/-- Transmission of a copy begins with these bytes. -/
def State.begin_ (s : State) (k : Nat) (l : List Byte) (stomp : Bool) : State :=
  let c := s.cpy.at k
  let t := max s.time.mono (s.prt c.port).txFree
  let b := (s.copyLength c).1 + s.tagBytes c
  let paid := if c.queue < 8192 ∧ s.ramping c.queue = true then b else 0
  let s := if c.queue < 8192 then
      { s.rampPay c.queue b with buf := { s.buf with delay := s.buf.delay.upd c.queue (max (s.residence (s.stampOf k))) } }
    else s
  s.updCpy k (fun c => { c with place := .sending t, out := l, stomp := c.stomp || stomp, paid := paid, ts := s.time.dev + (t - s.time.mono) })

/-- A frame begins unless it is longer than its port sends (R55): then it is dropped when its length is known, else ended at MAX_FRAME and
stomped; R256 counts those that tagging has lengthened. (DEDUCED, entry 140.) -/
def State.beginSized (s : State) (k : Nat) (l : List Byte) (tagged : Bool) : State :=
  let c := s.cpy.at k
  let m := s.cfg.active.longest c.port
  let s' := if tagged then s.count Stat.macsecTxOversize else s
  if l.length + 4 ≤ m then s.begin_ k l false
  else if (s.copyLength c).2 then s'.begin_ k (l.take (m - 4)) true
  else s'.endCopy k

/-- A frame that would now start outside its window is held to a later one: it is back at the head of its queue (R237). (DEDUCED, entry
154.) (DEDUCED, entry 154). -/
def State.holdBack (s : State) (k : Nat) : State :=
  (s.updCpy k (fun c => { c with place := .queue, out := [], emd := 0, xout := none, crossed := 0 })).drrJoin (s.cpy.at k).queue

/-- The egress engine is done with a copy: the frame as it has made it, with its SecTAG in place, begins its transmission. -/
def State.egressDone (s : State) (k : Nat) : State :=
  let c := s.cpy.at k
  let l := c.out.take 12 ++ (s.egressBase c).2 ++ c.out.drop 12
  if c.queue < 8192 ∧ s.windowOk c ((s.prt c.port).txFree - s.time.mono) = false then s.holdBack k
  else if 8192 ≤ c.queue then s.beginSized k (s.relayFrame c l) false
  else if s.tagsFrame c.port l then
    match s.tagFrame k c.port l with
    | (s, .tagged l) => s.beginSized k l true
    | (s, .absent) => s.egressOut k 0x40 (s.parOn P.keyFaultAction c.port)
    | (s, .exhausted) => s.egressOut k 0x41 (s.parOn P.keyExhaustedAction c.port)
  else s.beginSized k l false

/-- EGRESS_STRIDE_ADMIT (R79, R101, R193, R261): a copy whose first cell has crossed takes a context of the egress engine of its port's
pipe. -/
def State.egressAdmit (s : State) (pipe k : Nat) : State :=
  let c := s.cpy.at k
  let engine := 2 * pipe + 1
  if !c.live || decide (pipeOf c.port ≠ pipe) || decide (c.place ≠ .selected) || !s.isUp c.port || s.stride.halted.at engine || (decide (0 < c.cells) && decide (c.crossed = 0)) then s
  else if s.instGen c.inst ≠ c.instGen then (s.count Stat.falseStartDrops c.inst).endCopy k
  else match s.freeSlot engine with
  | none => s
  | some slot =>
    (s.takeSlot engine slot).updCpy k (fun c => { c with
      place := .egress { slot := slot, bank := s.stride.cur, start := s.time.mono }, out := (s.egressBase c).1, emd := s.egressMd c })

/-- A word of an egress engine reads the rewrite template of its frame: by an edit of operation 4, or by a source that names a word of it
(R102, R168). -/
def readsTemplate (w : Nat) : Bool :=
  [0, 1].any (fun u => (W.shift u).get w == 4
    || (((W.shift u).get w == 1 || (W.shift u).get w == 2) && decide (0x20 ≤ (W.dest u).get w) && decide ((W.dest u).get w ≤ 0x37)))

/-- A copy whose rewrite template fails its parity as it is read is dropped (R168). -/
def State.badTemplate (s : State) (k : Nat) : State :=
  let c := s.cpy.at k
  (s.parityError (recordCode K.rewrite c.rewrite) c.protect).endCopy k

/-- One word of an egress context, or the whole of the default image (R84, R102). -/
def State.egressRun (s : State) (k : Nat) (x : Ctx) (bad : List Nat) : State :=
  let c := s.cpy.at k
  let img := s.stride.image x.bank
  if c.rewrite ≠ 0 ∧ s.recordBad bad K.rewrite c.rewrite = true ∧ (img.builtin || readsTemplate (img.egress.getD x.addr 0)) = true then s.badTemplate k
  else if img.builtin then
    let (s, l) := s.defaultRewrite c
    (s.updCpy k (fun c => { c with out := l })).egressDone k
  else
    let w := img.egress.getD x.addr 0
    let words := (s.obj K.rewrite c.rewrite).words
    match runWord false s.cfg.active c.port (s.egressView c) (s.keyAbsent c.emd) w c.emd x with
    | .wait => s.updCpy k (fun c => { c with place := .egress { x with waits := some (x.waits.getD s.time.mono) } })
    | .fault _ cause => s.egressDefault k cause
    | .next md x' =>
      (s.updCpy k (fun c => { c with emd := md, place := .egress x', out := wordEdits c.out w x.cursor md words })).egressEffects k w bad
    | .leave md _ e cause =>
      let s := (s.updCpy k (fun c => { c with emd := md, out := wordEdits c.out w x.cursor md words })).egressEffects k w bad
      if e = 1 then s.egressDone k else s.egressDefault k cause

/-- The context of a packet in an ingress engine, or of a copy in an egress engine. -/
def State.ctxOf (s : State) (x : StrideCtx) : Option Ctx :=
  match x with
  | .ingress n => (match (s.pkt.at n).stage with | .engine c => some c | _ => none)
  | .egress k => (match (s.cpy.at k).place with | .egress c => some c | _ => none)

/-- A context has reached the limit of R92. -/
def State.ctxOver (s : State) (c : Ctx) : Bool := decide (64 ≤ c.words) || decide (c.start + 640 ≤ s.time.mono)

/-- A context has waited 160 ns for its word (R90). -/
def State.ctxLate (s : State) (c : Ctx) : Bool := match c.waits with | some t => decide (t + 160 ≤ s.time.mono) | none => false

/-- A trace capture of the next context that comes to a word boundary (R93). -/
def State.traceCtx (s : State) (engine : Nat) (c : Ctx) (md : Nat) : State :=
  if s.stride.trace.at engine then
    { s with stride := { s.stride with
        trace := s.stride.trace.del engine
        captured := Tab.put s.stride.captured engine (some (c.addr, c.words, (s.time.mono - c.start) * 8 / 5, md)) } }
  else s

/-- One word of an egress context (R84, R92, R94, R102). -/
def State.egressWord (s : State) (k ecc : Nat) (bad : List Nat) : State :=
  let c := s.cpy.at k
  match c.place with
  | .egress x =>
    if s.ctxOver x || s.ctxLate x then s
    else
      let s := s.traceCtx (2 * pipeOf c.port + 1) x c.emd
      if ecc = 2 then (s.raise (48 + pipeOf c.port) 1 c.protect).egressDefault k 0x13
      else (if ecc = 1 then s.count Stat.strideEccCorrected else s).egressRun k x bad
  | _ => s

/-! ### The end of a frame (R21, R60, R75, R240) -/

/-- The frame has been on the wire for its whole length and gap, its tail has come and its verdict is known. -/
def State.mayEnd (s : State) (c : Copy) : Bool :=
  match c.place with
  | .sending t =>
    c.live && !c.paused && decide (t + s.wireNs c.port (24 + c.out.length - c.sent) ≤ s.time.mono)
      && (!c.own.isEmpty || ((s.pkt.at c.pkt).ended && (c.stomp || decide ((s.pkt.at c.pkt).verdict ≠ .pending))))
  | _ => false

/-- Device time of the first bit after the SFD at the medium, in ns (R74, R75). -/
def State.txStamp (s : State) (c : Copy) : Nat :=
  let ps : Int := ((c.ts + 64 / s.cfg.active.rate c.port + (s.cfg.active.pcsDelay c.port).2 : Nat) : Int) * 1000 + s.parI P.ptpTrimTx c.port
  ps.toNat / 1000

/-- The two-step timestamp of a sent event message enters the ring of its port, which holds 64: of a message whose twoStepFlag is
set, and of a request, whose sender keeps the time. (DESIGN CHOICE, entry 60.) -/
def State.ptpSent (s : State) (c : Copy) : State :=
  match s.ptpEvent c.port c.out with
  | none => s
  | some o =>
    let msg := leAt c.out o 1 % 16
    if bit (leAt c.out (o + 6) 1) 1 || msg == 1 || msg == 2 then
      let t := s.txStamp c
      let e := (beAt c.out (o + 30) 2, msg, leAt c.out (o + 4) 1, t / 1000000000, t % 1000000000)
      s.updPort c.port (fun p => { p with ptp := (p.ptp ++ [e]).drop (p.ptp.length - 63) })
    else s

/-- The correctionField of a one-step message, which the engine writes as it sends the frame: the manual does not give its value.
(DESIGN CHOICE, entry 60.) -/
def State.oneStep (s : State) (c : Copy) : State × List Byte :=
  match s.ptpEvent c.port c.out with
  | none => (s, c.out)
  | some o =>
    let msg := leAt c.out o 1 % 16
    if (msg = 0 ∨ msg = 3) ∧ bit (leAt c.out (o + 6) 1) 1 = false then (s.drawn, overlay c.out (o + 8) (beBytes 8 (s.freeVal 64)))
    else (s, c.out)

/-- FCS_SEND: the frame's FCS, inverted for a stomp, is the last of it; under near-end loopback the frame comes back in.
(DEDUCED, entry 54.) -/
def State.fcsSend (s : State) (k : Nat) : State :=
  let c := s.cpy.at k
  if !s.mayEnd c then s else
    let relay := decide (8192 ≤ c.queue)
    let (s, l) := if relay then (s, c.out) else s.oneStep c
    let bytes := l ++ (if c.stomp then stompFcs l else leBytes 4 (crc32 l))
    let s := if relay || c.stomp then s else s.ptpSent c
    let s := if !relay && c.late then s.count Stat.gateOverruns else s
    let s := if (s.prt c.port).loopback = 1 then s.receive c.port { bytes := bytes, fcsOk := !c.stomp }
      else s.emit (if relay then .relay c.port (c.queue % 8) bytes else .frame c.port (c.queue % 16) bytes c.stomp)
    s.endCopy k

end Sys2Proof.Machine
end

