-- ==== Sys2Proof/Machine/Egress.lean ====
section
/-! DEFINITION. The commands of the buffer, the egress scheduler, the egress engine, gate lists and ramps. -/
namespace Sys2Proof.Machine

/-! ### RESIDUE_RETRY, MC_RESIDUE_EXPIRE (R205, R206) -/

/-- A copy leaves the residue list. -/
def State.leaveResidue (s : State) (k : Nat) : State := { s with buf := { s.buf with residue := s.buf.residue.filter (· != k) } }

/-- A residue copy as it asks again: its length and eligibility are those of this time. -/
def State.retried (s : State) (k : Nat) : Copy :=
  let c := s.cpy.at k
  let p := s.pkt.at c.pkt
  { c with cells := cellsFor (s.lengthOf p).1 false, eligible := s.eligible p c.queue }

/-- A residue copy is tried again, the copies for one queue in list order. -/
def State.residueRetry (s : State) (k : Nat) : State :=
  match (s.cpy.at k).place with
  | .residue _ =>
    if !(s.cpy.at k).live || s.buf.residue.find? (fun m => (s.cpy.at m).queue == (s.cpy.at k).queue) != some k then s else
      match s.admitCopy (s.retried k) with
      | .ok above head => (s.leaveResidue k).placeCopy k (s.retried k) above head
      | .share => (s.refused .share (s.retried k)).endCopy k
      | _ => s
  | _ => s

def execResidueRetry (cpy : Nat) (s : State) : Host.Outcome State Fault Refusal := runs (fun s => s.residueRetry cpy) s

/-- A copy that has stayed through MC_RESIDUE_LAPS boundaries is dropped. -/
def State.residueExpire (s : State) (k : Nat) : State :=
  match (s.cpy.at k).place with
  | .residue n => if (s.cpy.at k).live && decide (s.par P.mcResidueLaps ≤ n) then (s.count Stat.mcResidueDrops).endCopy k else s
  | _ => s

def execMcResidueExpire (cpy : Nat) (s : State) : Host.Outcome State Fault Refusal := runs (fun s => s.residueExpire cpy) s

/-! ### SPILL_WRITE, SPILL_REFILL_READ (R208 to R210) -/

/-- Requests at HBM for the cells of a spilled frame, at most 2 KiB each; the cells of the region are not named by the manual. -/
def State.spillTraffic (s : State) (k cells : Nat) (write : Bool) : State :=
  s.forEach (List.range (ceilDiv cells 8)) (fun s i =>
    (s.hbmAsk (if write then 6 else 2) ((hbmSpill + s.freeVal 64 % spillRegion * 256) / 2048 * 2048) (256 * min 8 (cells - 8 * i)) write k).drawn)

/-- The cells of a copy are counted as spilled, no longer as on chip. -/
def State.toSpill (s : State) (k : Nat) : State :=
  let c := s.cpy.at k
  let s := s.updSub c.queue c.quad (fun q => { q with occ := q.occ - c.cells, spilled := q.spilled + c.cells })
  let s := { s with hbm := { s.hbm with spillCells := s.hbm.spillCells + c.cells } }
  s.updCpy k (fun c => { c with place := .spilled, store := [], drawn := 0, comp := 0, pfc := 0, fromHead := false })

/-- A frame of a middle segment goes to HBM after its tail and its verdict: its cells on chip are freed. -/
def State.spillWrite (s : State) (k : Nat) : State :=
  let c := s.cpy.at k
  let p := s.pkt.at c.pkt
  if !c.live || decide (c.place ≠ .queue) || !(s.subq c.queue c.quad).middle.contains k || !s.hbm.valid
      || !(!c.own.isEmpty || (p.ended && decide (p.verdict ≠ .pending))) then s
  else ((((s.undraw k).toSpill k).spillTraffic k c.cells true).pfcQuad c.quad).noteDepth c.queue

def execSpillWrite (cpy : Nat) (s : State) : Host.Outcome State Fault Refusal := runs (fun s => s.spillWrite cpy) s

/-- Cells of the frames in the head segment of a sub-queue. -/
def State.headCells (s : State) (q : SubQueue) : Nat := (q.head.map (fun k => (s.cpy.at k).cells)).sum

/-- The first frame of a middle segment comes back on chip: to the minimum of its sub-queue and then the shared pool (R197). -/
def State.refill (s : State) (k : Nat) : State :=
  let c := s.cpy.at k
  if c.place ≠ .spilled then s else
    let above := c.cells - min c.cells (s.queueMin c.queue - (s.subq c.queue c.quad).occ)
    let cells := if c.pri.isNone then 0 else c.cells
    let s := s.updSub c.queue c.quad (fun q => { q with occ := q.occ + c.cells, spilled := q.spilled - c.cells })
    let s := { s with hbm := { s.hbm with spillCells := s.hbm.spillCells - c.cells } }
    let store := s.moreCells c.quad c.cells []
    let s := ((s.drawn.pfcMore (s.priOf c) cells).instDraw c.inst above).updCpy k
      (fun c => { c with place := .queue, store := store, drawn := above, pfc := cells })
    (s.spillTraffic k c.cells false).pfcQuad c.quad

/-- SPILL_DRAIN_EVENT: the last frame of the middle has come back (R210, R224). -/
def State.spillDrained (s : State) (queue : Nat) : State :=
  (s.ruleEvent 210 queue 0).updQ queue (·.ramp (fun q => { q with recovery := some (max (q.recovery.getD 0) (s.par P.recovRampLaps)) }))

/-- The head has fallen below SPILL_REFILL cells: the middle is read back in order, ahead of the tail. -/
def State.spillRefill (s : State) (queue quad : Nat) : State :=
  let q := s.subq queue quad
  match q.middle with
  | [] => s
  | k :: rest =>
    if s.par P.spillRefill 0 ≤ s.headCells q then s else
      let s := (s.refill k).updSub queue quad (fun q => { q with head := q.head ++ [k], middle := rest })
      if rest.isEmpty then
        (s.updSub queue quad (fun q => { q with head := q.head ++ q.tail, tail := [] })).spillDrained queue
      else s

def execSpillRefillRead (queue quadrant : Nat) (s : State) : Host.Outcome State Fault Refusal :=
  runs (fun s => s.spillRefill queue quadrant) s

/-! ### SCHEDULER_SELECT, RES_LIMIT_EXPIRE -/

def execSchedulerSelect (pipe : Nat) (ports ecc : List Nat) (s : State) : Host.Outcome State Fault Refusal :=
  runs (fun s => s.select pipe ports ecc) s

/-- The continuous check of R203 on a held queue of an express class (R167, R214): frames of a sub-queue from its head. -/
def State.resExpire (s : State) (queue quad : Nat) : State :=
  if (s.prt (queue / 16)).hold.isSome && bit (s.par P.classExpress) (queue % 16) then
    s.forEach ((s.subq queue quad).all.takeWhile s.overResident) (fun s k => s.dropResident k)
  else s

def execResLimitExpire (queue quadrant : Nat) (s : State) : Host.Outcome State Fault Refusal := runs (fun s => s.resExpire queue quadrant) s

/-! ### EGRESS_STRIDE_ADMIT, FCS_SEND -/

def execEgressStrideAdmit (pipe cpy : Nat) (s : State) : Host.Outcome State Fault Refusal := runs (fun s => s.egressAdmit pipe cpy) s

def execFcsSend (cpy : Nat) (s : State) : Host.Outcome State Fault Refusal := runs (fun s => s.fcsSend cpy) s

/-! ### GATE_ENTRY_CHANGE, GATE_LIST_START, RAMP_END -/

/-- Gate states are a function of device time (R230): what an entry's start changes is the frame on the wire. -/
def execGateEntryChange (port : Nat) (s : State) : Host.Outcome State Fault Refusal := runs (fun s => s.gateMoves port) s

/-- A waiting list whose start time has come replaces the operational list of its profile; one that starts on a lap boundary does so at
order 5 of it, when the next boundary has been set (R234). (DEDUCED, entry 53.) -/
def State.startList (s : State) (port k : Nat) : State :=
  match (s.gateProfile port k).wait with
  | some g =>
    if g.start ≤ s.time.dev ∧ g.start ≠ s.time.next then
      ({ s with sched := { s.sched with profile := s.sched.profile.upd (4 * port + k) (fun p => { p with oper := some g, wait := none }) } }).gateMoves port
    else s
  | none => s

def execGateListStart (port profile : Nat) (s : State) : Host.Outcome State Fault Refusal := runs (fun s => s.startList port profile) s

/-- The ramps of a queue that have come to their boundary end; with the last ramp its credit is 0 (R224, R225). (DEDUCED, entry 135.) -/
def State.rampEnd (s : State) (port cls : Nat) : State :=
  s.updQ (16 * port + cls) (fun q => q.settle { q with startup := q.startup.filter (· != 0), recovery := q.recovery.filter (· != 0) })

def execRampEnd (port cls : Nat) (s : State) : Host.Outcome State Fault Refusal := runs (fun s => s.rampEnd port cls) s

end Sys2Proof.Machine
end

