-- ==== Sys2Proof/Machine/Ports.lean ====
section
/-! DEFINITION. The commands of ports and MACs: received flow control, XOFF, verify, FEC, locks and link state, hold, auto-negotiation,
training (R58, R63, R66 to R73, R214, R215). -/
namespace Sys2Proof.Machine

/-! ### Received PAUSE and PFC (R66 to R68) -/

/-- A pause timer restarts with new quanta; quanta 0 releases the priority at once. -/
def State.pauseFor (s : State) (port k quanta : Nat) : State :=
  s.updPort port (fun p => { p with pause := p.pause.put k (if quanta = 0 then 0 else s.time.mono + s.quantaNs port quanta) })

/-- Some class maps to a PFC priority. -/
def State.pfcMapped (s : State) (port pri : Nat) : Bool := (List.range 16).any (fun c => s.par P.pfcMap (16 * port + c) == pri)

/-- One priority of a received PFC frame. -/
def State.pfcReceived (s : State) (port pri quanta : Nat) : State :=
  if s.pfcMapped port pri then s.pauseFor port pri quanta else s.count Stat.pfcUnmapped

/-- MAC_CONTROL_RECEIVE: the frame from its DA, in the formats of R66. FLOW_CTRL says which of the two formats the port obeys. (DEDUCED, entry 49.) -/
def State.macControl (s : State) (port : Nat) (bytes : List Byte) : State :=
  if !s.isUp port || beAt bytes 0 6 != macControlDest || beAt bytes 12 2 != macControlType then s
  else match s.par P.flowCtrl port, beAt bytes 14 2 with
  | 1, 0x0001 => s.pauseFor port 8 (beAt bytes 16 2)
  | 2, 0x0101 => s.forEach (onesOf 8 (beAt bytes 16 2)) (fun s k => s.pfcReceived port k (beAt bytes (18 + 2 * k) 2))
  | _, _ => s

def execMacControlReceive (port : Nat) (bytes : List Byte) (s : State) : Host.Outcome State Fault Refusal := runs (fun s => s.macControl port bytes) s

/-- PAUSE_TIMER_EXPIRE: the timer has run out. Priority 8 is PAUSE. -/
def State.pauseExpire (s : State) (port k : Nat) : State :=
  if (s.prt port).pause.at k ≤ s.time.mono then s.updPort port (fun p => { p with pause := p.pause.put k 0 }) else s

def execPauseTimerExpire (port priority : Nat) (s : State) : Host.Outcome State Fault Refusal := runs (fun s => s.pauseExpire port priority) s

/-- XOFF_RESEND (R69): half of PFC_QUANTA has elapsed and the priority is still held in XOFF. Priority 8 is PAUSE. -/
def State.resendXoff (s : State) (port k : Nat) : State :=
  let p := s.prt port
  let q := s.par P.pfcQuanta port
  if s.isUp port && bit p.xoff k && decide (p.resend.at k ≤ s.time.mono) then
    (s.updPort port (fun p => { p with resend := p.resend.put k (s.time.mono + s.quantaNs port q / 2) })).sendPause port k q
  else s

def execXoffResend (port priority : Nat) (s : State) : Host.Outcome State Fault Refusal := runs (fun s => s.resendXoff port priority) s

/-! ### Verify (R63) -/

/-- Verification is wanted and has not succeeded. -/
def State.verifying (s : State) (port : Nat) : Bool :=
  s.isUp port && s.parOn P.preemptEnable port && s.parOn P.verifyEnable port && !(s.prt port).verified

/-- VERIFY_SEND: every VERIFY_TIME; the event of a third failed attempt is recorded once. (DEDUCED, entry 51.) -/
def State.verifySend (s : State) (port : Nat) : State :=
  if s.verifying port && decide ((s.prt port).verifyAt ≤ s.time.mono) then
    let n := (s.prt port).attempts
    let s := if n = 3 then (s.ruleEvent 63 port 0).raise (32 + pipeOf port) (port % 32) else s
    (s.updPort port (fun p => { p with attempts := min 4 (n + 1), verifyAt := s.time.mono + 1000000 * s.par P.verifyTime port })).emit (.verify port)
  else s

def execVerifySend (port : Nat) (s : State) : Host.Outcome State Fault Refusal := runs (fun s => s.verifySend port) s

/-- VERIFY_RESPONSE: preemption starts. (DEDUCED, entry 51.) -/
def State.verifyDone (s : State) (port : Nat) : State :=
  if s.verifying port && decide (0 < (s.prt port).attempts) then s.updPort port (fun p => { p with verified := true }) else s

def execVerifyResponse (port : Nat) (s : State) : Host.Outcome State Fault Refusal := runs (fun s => s.verifyDone port) s

/-! ### FEC (R58) -/

/-- FEC_DEGRADE_EVENT: `symbols` more are corrected; the event falls when the count of the lap reaches FEC_DEGRADE. (DEDUCED, entry 51.) -/
def State.fecSymbols (s : State) (port symbols : Nat) : State :=
  let p := s.prt port
  let n := p.fecLap + symbols
  let s := s.updPort port (fun p => { p with fecCorrected := p.fecCorrected + BitVec.ofNat 64 symbols, fecLap := n })
  if p.fecLap < s.par P.fecDegrade port ∧ s.par P.fecDegrade port ≤ n then
    (s.ruleEvent 58 port 0).raise (16 + pipeOf port) (port % 32)
  else s

def execFecDegradeEvent (port symbols : Nat) (s : State) : Host.Outcome State Fault Refusal := runs (fun s => s.fecSymbols port symbols) s

/-! ### Link state (R61, R71 to R73) -/

/-- The lock mask of a port whose every lane is locked. -/
def State.allLocks (s : State) (port : Nat) : Nat := 2 ^ s.cfg.active.lanes port - 1

/-- PORT_ALL_LOCKS: UP_DEBOUNCE starts in ACQUIRE; in UP the loss filter stops. -/
def State.locksHold (s : State) (port : Nat) : State :=
  match (s.prt port).link with
  | .disabled => s
  | .acquire =>
    s.updPort port (fun p => { p with
      link := .upPending, locks := s.allLocks port, remote := false, train := none, debounce := s.time.mono + s.par P.upDebounce port * 1000 })
  | _ => s.updPort port (fun p => { p with locks := s.allLocks port, remote := false, loss := none })

def execPortAllLocks (port : Nat) (s : State) : Host.Outcome State Fault Refusal := runs (fun s => s.locksHold port) s

/-- R61: what is in transmission on a port is lost. -/
def State.loseFrames (s : State) (port : Nat) : State :=
  (s.abortTx port false).dropCopies (((s.cpy.filter (fun e => e.2.live && decide (8192 ≤ e.2.queue) && e.2.rport == port && e.2.begun)).map (·.1)))
    Stat.txAborted (fun _ => 0)

/-- R60: frames in reception are cut off when lock is lost; a preemptable frame may go on with its next fragment while the link is not
down (R65). (DEDUCED, entry 137.) -/
def State.cutFrames (s : State) (port : Nat) : State :=
  s.forEach ((s.receiving port).filter (fun n => !(s.pkt.at n).rx.preempt && !(s.pkt.at n).rx.cut)) State.cutFrame

/-- PORT_LOCK_LOSS: a lock of a lane is lost, or a remote fault is received. (DEDUCED, entry 50.) -/
def State.lockLost (s : State) (port lane : Nat) (remote : Bool) : State :=
  let lose := fun (p : Port) => { p with locks := if remote then p.locks else p.locks &&& (2 ^ 8 - 1 - 2 ^ lane), remote := p.remote || remote }
  match (s.prt port).link with
  | .disabled => s
  | .acquire => s.updPort port lose
  | .upPending => ((s.updPort port (fun p => { lose p with flaps := p.flaps + 1 })).negotiate port).count Stat.linkFlaps port
  | .up =>
    let s := if remote then s else (s.loseFrames port).cutFrames port
    s.updPort port (fun p => { lose p with loss := some (p.loss.getD (s.time.mono + s.par P.lossFilter port * 1000)) })

def execPortLockLoss (port lane : Nat) (remote : Bool) (s : State) : Host.Outcome State Fault Refusal := runs (fun s => s.lockLost port lane remote) s

/-- UP_DEBOUNCE_EXPIRE: the port is UP; the condition of its LINK_FAULT unit clears, and the attempt on it is complete. -/
def State.debounced (s : State) (port : Nat) : State :=
  let p := s.prt port
  if p.link = .upPending ∧ p.debounce ≤ s.time.mono then
    let (src, u) := linkSource port
    ((s.raisePort port).completeAttempt src u).clearCond src u
  else s

def execUpDebounceExpire (port : Nat) (s : State) : Host.Outcome State Fault Refusal := runs (fun s => s.debounced port) s

/-- LOSS_FILTER_EXPIRE: the link is down; remote fault is sent and the link fault source raised. -/
def State.linkLost (s : State) (port : Nat) : State :=
  match (s.prt port).loss with
  | some t =>
    if s.isUp port && decide (t ≤ s.time.mono) then
      let (src, u) := linkSource port
      ((s.dropLink port).emit (.remoteFault port)).raise src u
    else s
  | none => s

def execLossFilterExpire (port : Nat) (s : State) : Host.Outcome State Fault Refusal := runs (fun s => s.linkLost port) s

/-- PORT_HOLD_EXPIRE (R215): the hold timer has run down and the queues are flushed. -/
def State.holdExpire (s : State) (port : Nat) : State :=
  if (s.prt port).hold = some 0 then s.flushPort port else s

def execPortHoldExpire (port : Nat) (s : State) : Host.Outcome State Fault Refusal := runs (fun s => s.holdExpire port) s

/-- AN_FAILURE (R71): the partner's offer lacks the mode of the port. -/
def State.anFail (s : State) (port : Nat) : State :=
  if s.parOn P.anEnable port && decide ((s.prt port).link = .acquire) then s.ruleEvent 71 port 0 else s

def execAnFailure (port : Nat) (s : State) : Host.Outcome State Fault Refusal := runs (fun s => s.anFail port) s

/-- TRAINING_TIMEOUT (R71): training that is not complete within 500 ms is restarted. -/
def State.trainAgain (s : State) (port : Nat) : State :=
  match (s.prt port).train with
  | some t =>
    if decide ((s.prt port).link = .acquire) && decide (t ≤ s.time.mono) then
      s.updPort port (fun p => { p with train := some (500000000 + s.time.mono), locks := 0 })
    else s
  | none => s

def execTrainingTimeout (port : Nat) (s : State) : Host.Outcome State Fault Refusal := runs (fun s => s.trainAgain port) s

end Sys2Proof.Machine
end

