-- ==== Sys2Proof/Machine/Learn.lean ====
section
/-! DEFINITION. Learning: the arbiter's contest windows, moves and freezes, writebacks, aging, flushes, the table scrub, record
fences and the sweeps over streams and meters (R131 to R142, R161, R178, R181). -/
namespace Sys2Proof.Machine

/-- Changes the learning state. -/
def State.updLearn (s : State) (f : Learning → Learning) : State := { s with learn := f s.learn }

/-- Changes the tables. -/
def State.updTbl (s : State) (f : Tables → Tables) : State := { s with tbl := f s.tbl }

/-! ### Applying an event (R133) -/

/-- Where the key of an event lies (R123). -/
def State.learnFind (s : State) (e : LearnEvent) : Option (Nat × Nat) :=
  s.findOver s.cfg.active (e.key / 2 ^ 124) e.key e.station

/-- Learned entries whose TARGET is a port. -/
def State.learnedAt (s : State) (port : Nat) : Nat :=
  (s.allEntries.filter (fun e => R.learned.get e.2.result == 1 && R.target.get e.2.result == port)).length

/-- Station entries of an instance. -/
def State.stationCount (s : State) (inst : Nat) : Nat :=
  (s.allEntries.filter (fun e => decide (2 ≤ e.1.1) && R.inst.get e.2.result == inst)).length

/-- ACTION_REF of a learned entry: 0 where the record is not live (R555). -/
def State.learnAction (s : State) (port : Nat) : Nat :=
  let a := s.par P.learnActionRef port
  if (s.obj K.action a).st = 1 then a else 0

/-- A learned entry is written: LEARN_ACTION_REF that names a record which is not live is counted (R555). -/
def State.learnWritten (s : State) (port : Nat) : State :=
  if s.par P.learnActionRef port ≠ 0 ∧ s.learnAction port = 0 then s.count Stat.recordRefInvalid port else s

/-- The result of a learned entry. -/
def LearnEvent.result (e : LearnEvent) (action : Nat) : Nat :=
  putFields 0 [(R.type, 0), (R.learned, 1), (R.inst, e.inst), (R.target, e.port), (R.action, action)]

/-- LEARN_LIMIT has been reached. -/
def State.learnFull (s : State) (port : Nat) : Bool :=
  s.par P.learnLimit port != 0 && decide (s.par P.learnLimit port ≤ s.learnedAt port)

/-- An insert into the station tier. -/
def State.learnStation (s : State) (e : LearnEvent) : State :=
  if s.learnFull e.port then s.count Stat.learnLimitDrops
  else if s.par P.instStationMax e.inst ≤ s.stationCount e.inst then s.count Stat.learnTableFull
  else
    match s.placeStation s.cfg.active { valid := true, key := stationKey e.key, result := e.result (s.learnAction e.port) } with
    | some s => s.learnWritten e.port
    | none => s.count Stat.learnTableFull

/-- An event goes to the Pacer (R135). -/
def State.handOff (s : State) (e : LearnEvent) (move : Bool) : State :=
  if 65536 ≤ s.learn.queue.length then s.count Stat.learnQueueDrops
  else s.updLearn (fun l => { l with queue := l.queue ++ [(e, move)] })

/-- An insert of a new key in the tier that LEARN_TIER names; on a profile without a station table that tier is the front one.
(DEDUCED, entry 128; DESIGN CHOICE, entry 149.) -/
def State.learnInsert (s : State) (e : LearnEvent) : State :=
  if s.par P.learnTier e.port = 1 ∧ e.station then s.handOff e false
  else if s.learnFull e.port then s.count Stat.learnLimitDrops
  else
    match s.placeFront s.cfg.active (e.key / 2 ^ 124) { valid := true, key := e.key, result := e.result (s.learnAction e.port) } with
    | (s, true) => s.learnWritten e.port
    | (s, false) => if e.station then s.handOff e false else s.count Stat.learnTableFull

/-- A move: TARGET becomes the port and RESULT_TYPE becomes PORT; all other fields are kept. -/
def State.moveEntry (s : State) (c : Nat × Nat) (port : Nat) : State :=
  let e := s.entry c
  s.setEntry c { e with result := putFields e.result [(R.type, 0), (R.target, port)] }

/-! ### Moves (R134) -/

/-- A key becomes flapping: 64 boundaries on the freeze list of 1,024 keys. The recorder entry names the upper half of the
key as its subject and carries the lower half. -/
def State.freezeKey (s : State) (key : Nat) : State :=
  if 1024 ≤ s.learn.frozen.length then (s.count Stat.learnTrackFull).ruleEvent 134 (key / 2 ^ 64) 2 [key % 2 ^ 64]
  else (s.updLearn (fun l => { l with frozen := l.frozen ++ [(key, 64)] })).ruleEvent 134 (key / 2 ^ 64) 0 [key % 2 ^ 64]

/-- The tracker counts a move; false: it is not applied. -/
def State.trackMove (s : State) (key : Nat) : State × Bool :=
  match s.learn.moves.find? (fun m => m.1 == key) with
  | some (_, n) =>
    if 8 ≤ n then (s.freezeKey key, false)
    else (s.updLearn (fun l => { l with moves := l.moves.map (fun m => if m.1 = key then (key, n + 1) else m) }), true)
  | none =>
    if 4096 ≤ s.learn.moves.length then (s.count Stat.learnTrackFull, false)
    else (s.updLearn (fun l => { l with moves := l.moves ++ [(key, 1)] }), true)

/-- An event whose key has an entry (R133). An entry of another instance keeps its place: the insert is refused. `tracked`: the move has
been counted. (DEDUCED, entry 72.) -/
def State.learnExisting (s : State) (e : LearnEvent) (c : Nat × Nat) (tracked : Bool) (move : State → State) : State :=
  let r := (s.entry c).result
  if R.inst.get r ≠ e.inst then s.count Stat.learnTableFull
  else if R.static.get r = 1 then s.count Stat.learnStaticHits
  else if R.type.get r = 0 ∧ R.target.get r = e.port then s
  else if tracked then move s
  else if s.learn.frozen.any (fun f => f.1 == e.key) then s.count Stat.learnFrozen
  else match s.trackMove e.key with
    | (s, false) => s
    | (s, true) => move s

/-- An event is applied (R133): the arbiter makes moves of the front tier itself and hands those of the station tier to the Pacer (R135).
(DEDUCED, entry 72.) -/
def State.learnApply (s : State) (e : LearnEvent) : State :=
  match s.learnFind e with
  | none => s.learnInsert e
  | some c => s.learnExisting e c false (fun s => if c.1 < 2 then s.moveEntry c e.port else s.handOff e true)

/-! ### The contest window (R132) -/

/-- Which of two events of one port is kept: the earlier stamp. -/
def LearnEvent.earlier (e w : LearnEvent) : Bool := later 32 w.stamp e.stamp

/-- The photo-finish rule for an event that finds its key held. (DEDUCED, entry 72.) -/
def State.contest (s : State) (e w : LearnEvent) : State :=
  let put := fun (s : State) (x : LearnEvent) => s.updLearn (fun l => { l with window := l.window.map (fun v => if v.key = w.key then x else v) })
  if e.port = w.port then put s (if e.earlier w then { e with expiry := w.expiry } else w)
  else
    let s := s.count Stat.learnContests
    if e.earlier w || (e.stamp == w.stamp && decide (e.port < w.port)) then put s { e with expiry := w.expiry } else s

/-- LEARN_WINDOW_EXPIRE: the held event is applied; one of a port whose flush runs is applied after it (R132, R137). -/
def State.windowExpire (s : State) (key : Nat) : State :=
  match s.learn.window.find? (fun w => w.key == key) with
  | none => s
  | some e =>
    if s.time.mono < e.expiry then s else
      let s := s.updLearn (fun l => { l with window := l.window.filter (fun w => w.key != key) })
      if s.learn.flushing.contains e.port then s.updLearn (fun l => { l with deferred := l.deferred ++ [e] })
      else if s.frozen e.inst then s else s.learnApply e

def execLearnWindowExpire (key : Nat) (s : State) : Host.Outcome State Fault Refusal := runs (fun s => s.windowExpire key) s

/-- An event that the arbiter has taken: an event of a flapping key is discarded, one whose key is held contests, another is held. A
window that has ended is applied first (R132, R134). -/
def State.arrived (s : State) (e : LearnEvent) : State :=
  let s := s.windowExpire e.key
  if s.learn.frozen.any (fun f => f.1 == e.key) then s.count Stat.learnFrozen
  else match s.learn.window.find? (fun w => w.key == e.key) with
  | some w => s.contest e w
  | none => s.updLearn (fun l => { l with window := l.window ++ [{ e with expiry := 1000 + s.time.mono }] })

/-- LEARN_ARBITER_ARRIVAL: the arbiter takes the oldest event of a pipe's FIFO, one per 1.6 core clocks and none while its window is full
(R132). (DEDUCED, entry 72.) -/
def State.learnArrival (s : State) (pipe : Nat) : State :=
  match s.learn.fifo.at pipe with
  | [] => s
  | e :: rest =>
    if 1024 ≤ s.learn.window.length ∨ s.time.mono < s.learn.acceptAt then s
    else (s.updLearn (fun l => { l with fifo := l.fifo.put pipe rest, acceptAt := s.time.mono + 1 })).arrived e

def execLearnArbiterArrival (pipe : Nat) (s : State) : Host.Outcome State Fault Refusal := runs (fun s => s.learnArrival pipe) s

/-- LEARN_FREEZE_END: 64 boundaries have passed (R134). -/
def State.freezeEnd (s : State) (key : Nat) : State :=
  if s.learn.frozen.contains (key, 0) then
    (s.updLearn (fun l => { l with frozen := l.frozen.filter (fun f => f.1 != key) })).ruleEvent 134 (key / 2 ^ 64) 1 [key % 2 ^ 64]
  else s

def execLearnFreezeEnd (key : Nat) (s : State) : Host.Outcome State Fault Refusal := runs (fun s => s.freezeEnd key) s

/-! ### Writebacks (R135) -/

/-- LEARN_WRITEBACK: the Pacer issues the oldest station insert or move under the false-start check; its bucket is read and
written through the HBM (R350). -/
def State.writebackNext (s : State) : State :=
  match s.learn.queue with
  | [] => s
  | (e, move) :: rest =>
    if s.pacer.down || s.learn.flushing.contains e.port then s else
      let s := s.updLearn (fun l => { l with queue := rest })
      if s.instGen e.inst ≠ e.instGen then s.count Stat.falseStartDiscards (6 * e.inst + 5)
      else if s.frozen e.inst then s
      else
        let k := stationKey e.key
        let bucket := hbmStation + 64 * s.cfg.active.station1 k
        let s := (s.hbmAsk 5 bucket 64 false k).hbmAsk 5 bucket 64 true k
        match s.learnFind e with
        | none => s.learnStation e
        | some c => s.learnExisting e c move (fun s => s.moveEntry c e.port)

def execLearnWriteback (s : State) : Host.Outcome State Fault Refusal := runs (fun s => s.writebackNext) s

/-! ### Aging and flushing (R136, R137) -/

/-- Positions of one pass over the entries of both tiers: 2²⁸ a structure. (DESIGN CHOICE, entry 147.) -/
def scanSpan : Nat := 2 ^ 30

/-- The position of a cell. -/
def scanPos (c : Nat × Nat) : Nat := c.1 * 2 ^ 28 + c.2

/-- Cells of a scan: positions from `first` on, `count` of them. -/
def inScan (first count : Nat) (c : Nat × Nat) : Bool := decide (first ≤ scanPos c) && decide (scanPos c < first + count)

/-- Positions that a scan of `span` positions in `period` laps has done by the end of the present lap, at an even pace. (DESIGN CHOICE,
entry 147.) -/
def Scan.due (q : Scan) (span period : Nat) : Nat := min span (span * (q.laps + 1) / period)

/-- A boundary: the scan begins again when it is done and its period is over. -/
def Scan.lap (q : Scan) (span period : Nat) : Scan :=
  if span ≤ q.pos ∧ period ≤ q.laps + 1 then {} else { q with laps := min period (q.laps + 1) }

/-- One part of a pass of the aging scan: learned entries without HIT are deleted, and HIT is cleared in the others (R136); ALT and OVF go
of which no key remains (R126). -/
def State.ageCells (s : State) (first count : Nat) : State :=
  let s := s.forEach (s.allEntries.filter (fun e => inScan first count e.1)) (fun s e =>
    if R.learned.get e.2.result = 1 ∧ R.pinned.get e.2.result = 0 ∧ e.2.hit = false then s.setEntry e.1 {}
    else s.setEntry e.1 { e.2 with hit := false })
  s.forEach (s.tbl.stFlags.keys.filter (fun b => inScan first count (2, 4 * b))) (fun s b => s.clearFlags b)

/-- The next `count` positions of the aging scan, none beyond what is due in this lap: two passes in AGE_LAPS laps (R136). (DESIGN CHOICE,
entry 147.) -/
def State.agePart (s : State) (count : Nat) : State :=
  let q := s.tbl.age
  let n := min count (q.due (2 * scanSpan) (s.par P.ageLaps) - q.pos)
  if s.par P.ageLaps = 0 || s.pacer.down then s else
    let from1 := q.pos % scanSpan
    let s := s.ageCells from1 (min n (scanSpan - from1))
    (s.ageCells 0 (from1 + n - scanSpan)).updTbl (fun t => { t with age := { q with pos := q.pos + n } })

/-- The aging scan ends its part of the lap at the boundary. -/
def State.ageLap (s : State) : State :=
  if s.par P.ageLaps = 0 then s.updTbl (fun t => { t with age := {} })
  else (s.agePart (2 * scanSpan)).updTbl (fun t => { t with age := t.age.lap (2 * scanSpan) (s.par P.ageLaps) })

/-- AGE_SCAN: a step of the aging scan, `count` positions from entry `first` of a tier; the scan goes round in order, so a step begins
where the one before it ended. -/
def State.ageStep (s : State) (tier first count : Nat) : State :=
  if s.tbl.age.pos % scanSpan = scanPos (tier, first) then s.agePart count else s

def execAgeScan (tier first count : Nat) (s : State) : Host.Outcome State Fault Refusal := runs (fun s => s.ageStep tier first count) s

/-- A learned entry that a flush of a port deletes. -/
def flushes (port : Nat) (e : Entry) : Bool :=
  R.learned.get e.result == 1 && R.pinned.get e.result == 0 && R.target.get e.result == port

/-- LEARN_FLUSH: one step of a port's flush, which ends when no entry is left; the events that waited for it are then applied. -/
def State.flushPart (s : State) (port first count : Nat) : State :=
  if !s.learn.flushing.contains port || s.pacer.down then s else
    let s := s.forEach (s.allEntries.filter (fun e => flushes port e.2 && inScan first count e.1)) (fun s e => s.setEntry e.1 {})
    if s.allEntries.any (fun e => flushes port e.2) then s
    else
      let due := s.learn.deferred.filter (fun e => e.port == port)
      let s := s.updLearn (fun l => { l with flushing := l.flushing.filter (· != port), deferred := l.deferred.filter (fun e => e.port != port) })
      s.forEach due (fun s e => if s.frozen e.inst then s else s.learnApply e)

def execLearnFlush (port first count : Nat) (s : State) : Host.Outcome State Fault Refusal := runs (fun s => s.flushPart port first count) s

/-! ### Scrub (R138, R139, R161) -/

/-- The place of a read of the scrub in its pass: entries of the four structures, then rule rows and prefix lanes of every quadrant's copy,
whose index is 2²⁰ × quadrant + address, as it is for a lookup. -/
def scrubPlace (e : BadEntry) : Option Nat :=
  if e.kind < 4 then some (scanPos (e.kind, e.index))
  else if e.kind = 5 ∨ e.kind = 6 then some (scanPos (e.kind - 1, e.index)) else none

/-- The scrub meets a bad entry, row or lane. -/
def State.scrubOne (s : State) (e : BadEntry) : State :=
  if e.kind < 4 then s.parityError (e.kind, e.index) false
  else if e.kind = 5 ∨ e.kind = 6 then s.searchParity e.kind (e.index % 2 ^ 20) (e.index / 2 ^ 20 % 4) false
  else s

/-- Positions of a pass of the scrub. -/
def scrubSpan : Nat := 6 * 2 ^ 28

/-- The scrub reads what is due in this lap: every entry, row and lane once in SCRUB_LAPS laps (R139, R161). `bad`: those that fail their
parity when they are read. (DESIGN CHOICE, entry 147.) -/
def State.scrub (s : State) (bad : List BadEntry) : State :=
  let q := s.tbl.scrub
  let due := q.due scrubSpan (s.par P.scrubLaps)
  if s.pacer.down then s else
    let s := s.forEach (bad.filter (fun e => match scrubPlace e with | some p => decide (q.pos ≤ p) && decide (p < due) | none => false)) State.scrubOne
    s.updTbl (fun t => { t with scrub := { q with pos := max q.pos due } })

/-- The scrub ends its part of the lap at the boundary. -/
def State.scrubLap (s : State) : State :=
  (s.scrub []).updTbl (fun t => { t with scrub := t.scrub.lap scrubSpan (s.par P.scrubLaps) })

/-- TABLE_SCRUB. -/
def execTableScrub (bad : List BadEntry) (s : State) : Host.Outcome State Fault Refusal := runs (fun s => s.scrub bad) s

/-! ### Record fences (R142) -/

/-- Monotonic time of the last lap boundary. -/
def State.boundaryAt (s : State) : Nat := s.time.lapAt

/-- RECORD_FENCE_PASS: at the first boundary past the fence the record is free, and its delete completes. -/
def State.fencePass (s : State) (kind index : Nat) : State :=
  let r := s.obj kind index
  if r.st = 2 ∧ r.fence ≤ s.boundaryAt then
    let s := s.setObj kind index {}
    s.forEach (s.running.filter (fun j => j.kind == .objDelete kind index)) (fun s j => s.endJob j.session j.seq 0 0)
  else s

def execRecordFencePass (kind index : Nat) (s : State) : Host.Outcome State Fault Refusal := runs (fun s => s.fencePass kind index) s

/-! ### Sweeps (R178, R181) -/

/-- STREAM_RESET_SCAN: a stream record past RESET_MS has SEQ_VALID cleared. -/
def State.streamScan (s : State) (index : Nat) : State :=
  let r := s.obj K.stream index
  if r.st ≠ 0 ∧ S.seqValid.get r.words = 1 ∧ S.resetMs.get r.words ≤ s.ageMs (S.lastAccept.get r.words) then
    s.putObj K.stream index [(S.seqValid, 0)]
  else s

def execStreamResetScan (index : Nat) (s : State) : Host.Outcome State Fault Refusal := runs (fun s => s.streamScan index) s

/-- METER_VISIT: the elapsed time's tokens are added (R181). -/
def State.meterVisit (s : State) (index : Nat) : State := if (s.obj K.meter index).st = 0 then s else s.meterUpdate index

def execMeterVisit (index : Nat) (s : State) : Host.Outcome State Fault Refusal := runs (fun s => s.meterVisit index) s

end Sys2Proof.Machine
end

