-- ==== Sys2Proof/Machine/Vault.lean ====
section
/-! DEFINITION. Fills of Baton slots from the Vault, the bench's retries and timeouts, prefetch holds and TRNG health (R274, R283 to
R299). -/
namespace Sys2Proof.Machine

/-- Changes the authentication state. -/
def State.updSec (s : State) (f : Secure → Secure) : State := { s with sec := f s.sec }

/-! ### Choosing a slot (R296) -/

/-- The victim: a FREE slot, or the VALID one under LRU with no reference whose AGE is earliest; the lower number wins a tie. -/
def State.victim (s : State) : Option Nat :=
  match (List.range 32).find? (fun i => (s.sec.slot.at i).st == 0) with
  | some i => some i
  | none =>
    (List.range 32).foldl (fun best i =>
      let k := s.sec.slot.at i
      if k.st = 2 ∧ k.policy = 0 ∧ k.refs = 0 then
        match best with
        | none => some i
        | some j => if later 32 (s.sec.slot.at j).age.toNat k.age.toNat then some i else some j
      else best) none

/-- The counts that pipes hold of a slot's key are lost when it leaves the slot (R266). -/
def State.loseBlocks (s : State) (slot : Nat) : State :=
  s.updSec (fun x => { x with block := x.block.keep (fun i _ => i % 32 != slot) })

/-- A victim gives up its slot: its state is written back by the Vault fetch master (R283, R286). -/
def State.evict (s : State) (slot : Nat) : State :=
  if (s.sec.slot.at slot).st = 2 then (s.writeBack slot).loseBlocks slot else s

/-! ### A fill (R286) -/

/-- Changes the fill of a key. -/
def State.updFill (s : State) (f : Fill) (g : Fill → Fill) : State :=
  s.updSec (fun x => { x with fills := x.fills.map (fun h => if h.assoc = f.assoc ∧ h.keyNum = f.keyNum then g h else h) })

/-- Takes the fill of a key off the queue. -/
def State.endFill (s : State) (f : Fill) : State :=
  s.updSec (fun x => { x with fills := x.fills.filter (fun h => !(h.assoc == f.assoc && h.keyNum == f.keyNum)) })

/-- FILL_REQUEST_POST: the oldest waiting request takes a victim while no more than one request is ahead of it in the engine; a
prefetch that finds no victim is given up and counted (R286, R296, R298). (DEDUCED, entry 75.) -/
def State.postFill (s : State) : State :=
  if 2 ≤ (s.sec.fills.filter (fun f => f.slot.isSome)).length then s else
    match s.sec.fills.find? (fun f => f.slot.isNone) with
    | none => s
    | some f =>
      match s.victim with
      | none => if f.policy = 2 then (s.count Stat.prefetchMisses).endFill f else s
      | some i =>
        let s := (s.evict i).updSec (fun x => { x with
          slot := x.slot.put i { st := 1, policy := f.policy, assoc := f.assoc, keyNum := f.keyNum, gen := f.gen } })
        (s.updFill f (fun h => { h with slot := some i })).hbmAsk 1 (vaultAddr f.assoc f.keyNum) 128 false i

def execFillRequestPost (s : State) : Host.Outcome State Fault Refusal := runs (fun s => s.postFill) s

/-- Frames on the bench that wait for a key, each with the PN it carries. -/
def State.waiters (s : State) (a k : Nat) : List (Nat × Nat) :=
  ((s.pkt.filter (fun e => e.2.live && e.2.bench.isSome)).map (·.1)).filterMap (fun n =>
    match s.authPlan (s.pkt.at n) with
    | .key a' k' pn => if a' == a && k' == k then some (n, pn) else none
    | _ => none)

/-- A fill that yields no key: its slot is FREE again, and the frames that wait for the key fail with KEY_UNKNOWN (R284, R262). -/
def State.failFill (s : State) (f : Fill) : State :=
  let s := (match f.slot with
    | some i => s.updSec (fun x => { x with slot := x.slot.del i })
    | none => s).endFill f
  let s := s.forEach (s.waiters f.assoc f.keyNum) (fun s n => (s.leaveBench n.1).failHead n.1 F.keyUnknown (some (f.assoc, f.keyNum)) n.2)
  s.releaseAll

/-- VAULT_RECORD_RETURN: the record of the fill in progress returns, is checked and unwrapped. `intact`: it has come back as it was written.
(DEDUCED, entry 75.) -/
def State.recordReturn (s : State) (intact : Bool) : State :=
  match s.sec.fills.find? (fun f => f.slot.isSome && !f.read) with
  | none => s
  | some f =>
    let v := s.sec.vault.at (4 * f.assoc + f.keyNum)
    let bad := fun (s : State) => ((s.ruleEvent 284 (4 * f.assoc + f.keyNum) 0 [] f.inst).raise 177 0).failFill f
    if !v.valid then s.failFill f
    else if !intact || v.mac != v.stateMac s.sec.keys.smk f.assoc f.keyNum then bad s
    else match Crypto.kwUnwrap s.sec.keys.kek v.wrapped with
    | none => bad s
    | some key => s.updFill f (fun h => { h with read := true, key := key })

def execVaultRecordReturn (intact : Bool) (s : State) : Host.Outcome State Fault Refusal := runs (fun s => s.recordReturn intact) s

/-- The 16 replicas of a key of a mode: its round keys and H (R275, R286). -/
def replicasOf (mode : Nat) (key : List Byte) : Tab Replica :=
  let r := Crypto.roundKeys (keyBytes mode key)
  (List.range 16).map (fun p => (p, { rounds := r, h := Crypto.hashKey r }))

/-- SLOT_VALID: the round keys and H are expanded, and the 16 replicas written. A stale fill fills no slot (R287, R452); a key removed meanwhile is unknown. The slot
starts with what its record reserves (R283), and the bench is released (R292). -/
def State.slotFilled (s : State) : State :=
  match s.sec.fills.find? (fun f => f.read) with
  | none => s
  | some f =>
    let i := f.slot.getD 0
    let v := s.sec.vault.at (4 * f.assoc + f.keyNum)
    if s.instGen f.inst ≠ f.gen then
      (((s.updSec (fun x => { x with slot := x.slot.del i })).endFill f).count Stat.falseStartDiscards (6 * f.inst + 2)).releaseAll
    else if !v.valid then s.failFill f
    else
      let s := (s.endFill f).updKey i (fun k => { (if f.policy = 2 then k.hold f.holdEnd else k) with
        st := 2, policy := if s.parOn P.asSlotPolicy f.assoc then 1 else f.policy, replica := replicasOf v.mode f.key
        age := BitVec.ofNat 32 s.time.mono, useCount := v.useReserved, useReserved := v.useReserved
        nextPn := v.nextPn, lowestPn := v.lowestPn, txPn := v.txReserved, txReserved := v.txReserved })
      (s.slotLimit i).releaseAll

def execSlotValid (s : State) : Host.Outcome State Fault Refusal := runs (fun s => s.slotFilled) s

/-! ### The bench (R292, R293) -/

/-- BENCH_FAULT_RETRY: the head frame of a list whose key is in no slot raises its fault again; any other is released if it can be. -/
def State.faultRetry (s : State) (key : Nat) : State :=
  match s.sec.bench.at key with
  | [] => s
  | n :: _ =>
    match s.authPlan (s.pkt.at n) with
    | .key a k _ => if isHmac ((s.bankOf (s.pkt.at n).gen).getN P.asMode a) || (s.slotOf a k).isSome then s.releaseBench key else (s.faultFill n a k).1
    | _ => s.releaseBench key

def execBenchFaultRetry (port cls : Nat) (s : State) : Host.Outcome State Fault Refusal := runs (fun s => s.faultRetry (16 * port + cls)) s

/-- BENCH_TIMEOUT: the first frame of a list that has waited BENCH_TIMEOUT is discarded with every frame behind it. -/
def State.benchExpire (s : State) (key : Nat) : State :=
  let l := s.sec.bench.at key
  let late := fun n => decide (s.par P.benchTimeout * 1000 ≤ s.time.mono - (s.pkt.at n).arrived)
  s.forEach (l.dropWhile (fun n => !late n)) (fun s n => ((s.leaveBench n).count Stat.benchTimeoutDrops (s.pkt.at n).port).drop n)

def execBenchTimeout (port cls : Nat) (s : State) : Host.Outcome State Fault Refusal := runs (fun s => s.benchExpire (16 * port + cls)) s

/-! ### Prefetch holds (R298, R299) -/

/-- PREFETCH_HOLD_END: the slot returns to LRU, by R44. -/
def State.holdEnds (s : State) (slot : Nat) : State :=
  let k := s.sec.slot.at slot
  if k.timed = true ∧ later 32 k.holdEnd.toNat s.time.mono = false then s.updKey slot (fun k => k.unhold true) else s

def execPrefetchHoldEnd (slot : Nat) (s : State) : Host.Outcome State Fault Refusal := runs (fun s => s.holdEnds slot) s

/-! ### TRNG (R274) -/

/-- TRNG_HEALTH_FAIL. -/
def State.trngFail (s : State) : State := (s.updSec (fun x => { x with trngFailed := true })).raise 178 0

def execTrngHealthFail (s : State) : Host.Outcome State Fault Refusal := runs (fun s => s.trngFail) s

/-- TRNG_HEALTH_PASS. -/
def State.trngPass (s : State) : State := (s.updSec (fun x => { x with trngFailed := false })).clearCond 178 0

def execTrngHealthPass (s : State) : Host.Outcome State Fault Refusal := runs (fun s => s.trngPass) s

end Sys2Proof.Machine
end

