-- ==== Sys2Proof/Machine/Phasor.lean ====
section
/-! DEFINITION. The arithmetic of the Grid Measurement Unit: IEEE 754 singles, angles, and the phasor, frequency, ROCOF and THD of a
window (R309, R312, R313). Angles are turns × 2^64, sines and the products with them are × 2^62, frequencies are Hz × 2^40. -/
namespace Sys2Proof.Machine

/-! ### IEEE 754 singles -/

/-- Magnitude of a single as numerator and denominator. -/
def singleMag (x : Nat) : Nat × Nat :=
  let e := bits x 23 8
  let m := if e = 0 then bits x 0 23 else 2 ^ 23 + bits x 0 23
  let k := max e 1
  if 150 ≤ k then (m * 2 ^ (k - 150), 1) else (m, 2 ^ (150 - k))

/-- The single nearest to r ÷ 2^200, ties to even; `exact`: r itself was not rounded down. -/
def roundSingle (r : Nat) (exact : Bool) : Nat :=
  let shift := max 51 (Nat.log2 r - 23)
  let m := r / 2 ^ shift
  let rest := r % 2 ^ shift
  let half := 2 ^ (shift - 1)
  let up := decide (half < rest) || (rest == half && (!exact || m % 2 == 1))
  min 0x7F800000 (m + b2n up + (shift - 51) * 2 ^ 23)

/-- The single nearest to √(p ÷ q). -/
def singleSqrt (p q : Nat) : Nat :=
  let r := isqrtFrom 400 (p * 2 ^ 400 / q) 0
  roundSingle r (decide (r * r * q = p * 2 ^ 400))

/-- The single nearest to p ÷ q. -/
def singleOf (p : Int) (q : Nat) : Nat :=
  let r := p.natAbs * 2 ^ 200 / q
  roundSingle r (decide (r * q = p.natAbs * 2 ^ 200)) + (if p < 0 then 2 ^ 31 else 0)

/-! ### Sine, cosine and angle -/

/-- The terms 1 − x²/(a(a+1)) × (1 − …) of the series of sine and cosine. -/
def trigSeries (x2 : Int) : Nat → Nat → Int
  | 0, _ => 2 ^ 62
  | n + 1, a => 2 ^ 62 - x2 * trigSeries x2 n (a + 2) / 2 ^ 62 / (a * (a + 1))

/-- Cosine and sine of r, at most an eighth of a turn. -/
def octant (r : Nat) : Int × Int :=
  let x : Int := r * 0x1921fb54442d1846a / 2 ^ 64
  let x2 := x * x / 2 ^ 62
  (trigSeries x2 11 1, x * trigSeries x2 11 2 / 2 ^ 62)

/-- Cosine and sine of an angle. -/
def cosSin (a : Nat) : Int × Int :=
  let r := a % 2 ^ 62
  let (c, s) := if r ≤ 2 ^ 61 then octant r else let (c, s) := octant (2 ^ 62 - r); (s, c)
  match a / 2 ^ 62 % 4 with
  | 0 => (c, s)
  | 1 => (-s, c)
  | 2 => (-c, -s)
  | _ => (s, -c)

/-- 1 − w²(1/a − w²(…)) with the coefficients of the arc tangent. -/
def atanSeries (w2 : Int) : Nat → Nat → Int
  | 0, _ => 0
  | n + 1, a => 2 ^ 62 / (a : Int) - w2 * atanSeries w2 n (a + 2) / 2 ^ 62

/-- The angle whose tangent is n ÷ d, for 0 ≤ n ≤ d. -/
def atanOf (n d : Nat) : Nat :=
  let turn := fun (p q : Nat) => let w : Int := p * 2 ^ 62 / q; (w * atanSeries (w * w / 2 ^ 62) 32 1 / 2 ^ 62 * 0xa2f9836e4e44153 / 2 ^ 60).toNat
  if d = 0 then 0 else if 2 * n ≤ d then turn n d else 2 ^ 61 - turn (d - n) (d + n)

/-- The angle of a complex number. -/
def argOf (re im : Int) : Nat :=
  let x := re.natAbs
  let y := im.natAbs
  let q := if y ≤ x then atanOf y x else 2 ^ 62 - atanOf x y
  (if re < 0 then (if im < 0 then 2 ^ 63 + q else 2 ^ 63 - q) else (if im < 0 then 2 ^ 64 - q else q)) % 2 ^ 64

/-- The difference of two angles in the half turn on either side of 0. -/
def wrapTurn (a : Int) : Int := let r := a % 2 ^ 64; if r < 2 ^ 63 then r else r - 2 ^ 64

/-! ### Complex numbers -/

/-- Product of two complex numbers of which the second is × 2^62. -/
def cmul (a b : Int × Int) : Int × Int := ((a.1 * b.1 - a.2 * b.2) / 2 ^ 62, (a.1 * b.2 + a.2 * b.1) / 2 ^ 62)

def cadd (a b : Int × Int) : Int × Int := (a.1 + b.1, a.2 + b.2)

/-- The mean of e^(j × angle × k) for k = 0 to n − 1: sin(n × angle ÷ 2) ÷ (n × sin(angle ÷ 2)) at the angle of the middle. -/
def meanTurn (angle : Int) (n : Nat) : Int × Int :=
  let sin := fun (a : Int) => (cosSin (a % 2 ^ 64).toNat).2
  let mag := if angle.natAbs < 2 ^ 40 then 2 ^ 62 else sin (n * angle / 2) * 2 ^ 62 / (n * sin (angle / 2))
  cmul (cosSin ((n - 1 : Nat) * angle / 2 % 2 ^ 64).toNat) (mag, 0)

/-- The angle through which f turns against F_NOMINAL in a time of twelfths of a ns. -/
def driftTurn (f : Int) (hz dt12 : Nat) : Int := (f - hz * 2 ^ 40) * dt12 * 2 ^ 24 / 12000000000

/-- A phasor turned by e^(j2π(f − F_NOMINAL)Δt). -/
def rotated (p : Int × Int) (f : Int) (hz dt12 : Nat) : Int × Int := cmul p (cosSin (driftTurn f hz dt12 % 2 ^ 64).toNat)

/-! ### The outputs of a window (R312) -/

/-- The word x of a window sample times e^(−jω₀t). -/
def basis (hz t : Nat) (x : Int) : Int × Int :=
  let (c, s) := cosSin (hz * t % 1000000000 * 2 ^ 64 / 1000000000)
  (x * c, -(x * s))

/-- P corrected for a frequency f: the droop and the image of a window of n samples in a nominal cycle are undone exactly for a steady
signal of that frequency, as referred to the last sample's time t. (DEDUCED, entry 78.) -/
def corrected (raw : Int × Int) (f : Int) (hz n t : Nat) : Int × Int :=
  if f = hz * 2 ^ 40 then raw else
    let per := fun (x : Int) => x * 2 ^ 24 / (hz * n : Nat)
    let d := meanTurn (-(per (f - hz * 2 ^ 40))) n
    let b := cmul (meanTurn (per (f + hz * 2 ^ 40)) n) (cosSin ((2 ^ 65 - 2 * (hz * t % 1000000000 * 2 ^ 64 / 1000000000)) % 2 ^ 64))
    let e := cadd (cmul raw (d.1, -d.2)) (let x := cmul (raw.1, -raw.2) b; (-x.1, -x.2))
    let q := (d.1 * d.1 + d.2 * d.2 - b.1 * b.1 - b.2 * b.2) / 2 ^ 62
    if q ≤ 0 then raw else (e.1 * 2 ^ 62 / q, e.2 * 2 ^ 62 / q)

/-- (√2 ÷ N_w) × Σ x[k] e^(−jω₀tₖ) over a window. -/
def windowMean (win : List WSample) (n : Nat) : Int × Int :=
  let sum := win.foldl (fun acc w => cadd acc (w.re, w.im)) (0, 0)
  (sum.1 * 0x5a827999fcef3242 / (n * 2 ^ 62 : Nat), sum.2 * 0x5a827999fcef3242 / (n * 2 ^ 62 : Nat))

/-- The phase of a window's signal at its middle, on the turn nearest to `near`, for a steady signal of frequency f. -/
def middlePhase (raw : Int × Int) (near f : Int) (hz n t : Nat) : Int :=
  let p := corrected raw f hz n t
  near + wrapTurn (argOf p.1 p.2 - (f - hz * 2 ^ 40) * 2 ^ 23 * (n - 1 : Nat) / (hz * n : Nat) - near)

/-- A rate of change over Δt ns, per second; open where no time has passed. -/
def perSecond (x : Int) (dt : Int) : Option Int := if dt ≤ 0 then none else some (x * 1000000000 / dt)

/-- Squared magnitude of harmonic h of a window. -/
def harmonic (win : List WSample) (h : Nat) : Nat :=
  let n := win.length
  let t := (List.zip (List.range n) win).foldl (fun acc e => let (c, s) := cosSin (h * e.1 % n * 2 ^ 64 / n); cadd acc (e.2.v * c, e.2.v * s)) (0, 0)
  t.1.natAbs ^ 2 + t.2.natAbs ^ 2

/-- THD of a window in per cent: open without a fundamental. -/
def windowThd (win : List WSample) : Option Nat :=
  let one := harmonic win 1
  if one = 0 then none else some (singleSqrt (10000 * ((List.range 14).map (fun i => harmonic win (i + 2))).sum) one)

/-- A frequency held to 40 to 70 Hz, and whether the clamp applied. -/
def clampHz (f : Int) : Int × Bool :=
  if f < 40 * 2 ^ 40 then (40 * 2 ^ 40, true) else if 70 * 2 ^ 40 < f then (70 * 2 ^ 40, true) else (f, false)

/-- F_NOMINAL + (θₙ − θc) ÷ (2π(tₙ − tc)): both phases are corrected for the frequency they give, which the given number of rounds
finds. -/
def measuredHz (raw : Int × Int) (theta : Int) (t : Nat) (e : CycleEnd) (hz n : Nat) : Nat → Int → Option Int
  | 0, f => some f
  | r + 1, f =>
    let d := middlePhase raw theta f hz n t - middlePhase (e.re, e.im) e.theta f hz n e.t
    (perSecond d ((t : Int) - e.t)).bind (fun x => measuredHz raw theta t e hz n r (hz * 2 ^ 40 + x / 2 ^ 24))

/-- A sample enters the window of a channel of n words: the phasor, frequency and ROCOF at it, and at a cycle end, every n window
samples, what is kept of it. (DEDUCED, entry 78.) -/
def ChanState.push (h : ChanState) (hz n fc rc : Nat) (w : WSample) : ChanState :=
  let pr := basis hz w.t w.v
  let win := ({ w with re := pr.1, im := pr.2 } :: h.win).take n
  let last := decide (n ≤ h.n + 1)
  let back := if last then 1 else 0
  let raw := windowMean win n
  let guess := (h.ends.head?.bind (·.f)).getD (hz * 2 ^ 40)
  let theta := middlePhase raw h.theta guess hz n w.t
  let found := (h.ends[fc - back]?).bind (fun e => measuredHz raw theta w.t e hz n 6 guess)
  let f := found.map (fun x => (clampHz x).1)
  let rocof := (h.ends[rc - back]?).bind (fun e => match f, e.f with
    | some x, some y => perSecond (x - y) ((w.t : Int) - e.t)
    | _, _ => none)
  let p := corrected raw (f.getD guess) hz n w.t
  { h with win := win, theta := theta, n := if last then 0 else h.n + 1
           ends := if last then ({ t := w.t, re := raw.1, im := raw.2, theta := theta, f := f } :: h.ends).take 8 else h.ends
           thd := if last then windowThd win else h.thd
           pts := { t := w.t, re := p.1, im := p.2, f := f, clamped := found.any (fun x => (clampHz x).2), rocof := rocof } :: h.pts }

/-! ### Words of a window in engineering units -/

/-- A value in window words × 2^62 in engineering units × 2^200: CH_FULL_SCALE ÷ 32,767 for each. -/
def engOf (full : Nat) (x : Int) : Int := let (n, d) := singleMag full; x * n * 2 ^ 138 / (32767 * d : Nat)

/-- X₁, X₂ and X₀ of three phasors (R313). -/
def symmetric (a b c : Int × Int) : List (Int × Int) :=
  let r := cosSin (2 ^ 64 / 3)
  let r2 := cosSin (2 ^ 65 / 3)
  [cadd a (cadd (cmul b r) (cmul c r2)), cadd a (cadd (cmul b r2) (cmul c r)), cadd a (cadd b c)].map (fun x => (x.1 / 3, x.2 / 3))

end Sys2Proof.Machine
end

