-- ==== Sys2Proof/Machine/Measure.lean ====
section
/-! DEFINITION. Operations of the Grid Measurement Unit: the savPdu, windows, the capture ring, the close of a lap,
outputs, triggers and synchrophasor frames (R300 to R328). -/
namespace Sys2Proof.Machine

/-- The scaled word of a received value (R309): rounded to nearest, halves away from zero, and whether it saturated. -/
def scaleWord (raw : Int) (scale full : Nat) : Int × Bool :=
  let (sn, sd) := singleMag scale
  let (fn, fd) := singleMag full
  let num := 32767 * raw.natAbs * sn * fd
  let den := sd * fn
  let m := if den = 0 then 32767 else (2 * num + den) / (2 * den)
  let v : Int := (min m 32767 : Nat)
  (if raw < 0 then -v else v, decide (32767 < m))

/-! ### Parameters of a tap (R300, R301) -/

/-- SMP_RATE, F_NOMINAL, N, DECIM and N_w. -/
def Bank.smpHz (b : Bank) (k : Nat) : Nat := [4000, 4800, 12800, 14400, 15360].getD (b.getN P.smpRate k) 4000
def Bank.nominalHz (b : Bank) (k : Nat) : Nat := if b.getN P.fNominal k = 0 then 50 else 60
def Bank.perCycle (b : Bank) (k : Nat) : Nat := b.smpHz k / b.nominalHz k
def Bank.decimation (b : Bank) (k : Nat) : Nat := if b.getN P.decim k = 0 then 1 else 4
def Bank.windowLen (b : Bank) (k : Nat) : Nat := b.perCycle k / b.decimation k

/-- The combinations R301 accepts. -/
def Bank.windowOk (b : Bank) (k : Nat) : Bool :=
  [(4000, 50), (4800, 50), (4800, 60), (12800, 50), (14400, 50), (14400, 60), (15360, 60)].contains (b.smpHz k, b.nominalHz k)
    && (b.decimation k == 1 || decide (12800 ≤ b.smpHz k))

/-- Enabled taps. -/
def Bank.taps (b : Bank) : List Nat :=
  (b.filter (fun e => e.1 / 2 ^ 32 == P.tapEnable.id && e.2 == 1)).map (fun e => e.1 % 2 ^ 32)

/-- Changes one tap. -/
def State.updTap (s : State) (k : Nat) (f : TapState → TapState) : State := { s with gmu := { s.gmu with tap := s.gmu.tap.upd k f } }

/-- Changes one trigger. -/
def State.updTrig (s : State) (k : Nat) (f : Trigger → Trigger) : State := { s with gmu := { s.gmu with trig := s.gmu.trig.upd k f } }

/-! ### The savPdu of IEC 61850-9-2 (R304) -/

/-- A length of the Basic Encoding Rules and what follows it. -/
def berLen (l : List Byte) : Option (Nat × List Byte) :=
  match l with
  | [] => none
  | b :: r =>
    if b.toNat < 0x80 then some (b.toNat, r)
    else if b.toNat = 0x81 ∧ 1 ≤ r.length then some (beAt r 0 1, r.drop 1)
    else if b.toNat = 0x82 ∧ 2 ≤ r.length then some (beAt r 0 2, r.drop 2)
    else none

/-- Elements of a sequence: tag and contents. -/
def berItems : Nat → List Byte → Option (List (Nat × List Byte))
  | _, [] => some []
  | 0, _ :: _ => none
  | n + 1, t :: r =>
    match berLen r with
    | none => none
    | some (len, r) => if len ≤ r.length then (berItems n (r.drop len)).map (fun l => (t.toNat, r.take len) :: l) else none

/-- Contents of the first element with a tag. -/
def berFind (l : List (Nat × List Byte)) (tag : Nat) : Option (List Byte) := (l.find? (fun e => e.1 == tag)).map (·.2)

/-- What the GMU reads of an ASDU: smpCnt, smpSynch, and the value and quality of each channel. -/
structure Asdu where
  cnt : Nat
  synch : Nat
  vals : List (Int × Nat)
deriving DecidableEq, Repr

/-- One ASDU. (DEDUCED, entry 77.) -/
def readAsdu (chans : Nat) (body : List Byte) : Option Asdu :=
  match berItems body.length body with
  | none => none
  | some items =>
    match berFind items 0x82, berFind items 0x85, berFind items 0x87 with
    | some c, some y, some d =>
      if c.length = 2 ∧ y.length = 1 ∧ 8 * chans ≤ d.length then
        some { cnt := beNat c, synch := beNat y
               vals := (List.range chans).map (fun k => (signed 32 (beAt d (8 * k) 4), beAt d (8 * k + 4) 4)) }
      else none
    | _, _, _ => none

/-- The ASDUs of an APDU: at least one and at most 8, as many as noASDU says. (DEDUCED, entry 77.) -/
def readApdu (chans : Nat) (l : List Byte) : Option (List Asdu) :=
  match berItems l.length l with
  | none => none
  | some top =>
    match berFind top 0x60 with
    | none => none
    | some body =>
      match berItems body.length body with
      | none => none
      | some items =>
        match berFind items 0x80, berFind items 0xA2 with
        | some n, some q =>
          match berItems q.length q with
          | none => none
          | some as_ =>
            if as_.length = beNat n ∧ 1 ≤ as_.length ∧ as_.length ≤ 8 ∧ as_.all (fun a => a.1 == 0x30) then
              as_.foldr (fun a acc => match readAsdu chans a.2, acc with
                | some x, some l => some (x :: l)
                | _, _ => none) (some [])
            else none
        | _, _ => none

/-- The bytes of a frame up to its ICV or FCS, without its SecTAG. -/
def Packet.plain (p : Packet) : List Byte :=
  if p.sectag = 0 then p.rx.bytes.take (p.rx.bytes.length - 4)
  else p.rx.bytes.take 12 ++ (p.rx.bytes.take (p.rx.bytes.length - 20)).drop (12 + p.sectag)

/-- The simulated flag and the ASDUs of a frame: the APDU's Length counts from the APPID. -/
def Packet.samples (p : Packet) (chans : Nat) : Option (Bool × List Asdu) :=
  let off := (M.layer 5).get p.md
  let l := p.plain
  let len := beAt l (off + 2) 2
  if len < 8 ∨ l.length < off + len then none
  else (readApdu chans ((l.drop (off + 8)).take (len - 8))).map (fun a => (bit (beAt l (off + 4) 2) 15, a))

/-! ### Time of a sample (R305) -/

/-- t and whether the stream is synchronised. `entry`: entry time in device ns. -/
def State.sampleTime (s : State) (rate entry cnt synch : Nat) : Nat × Bool :=
  let frac := 1000000000 * cnt / rate
  let d := (entry + 1000000000 - frac) % 1000000000
  if synch ≠ 0 ∧ s.time.state = .locked ∧ d < 500000000 ∧ d ≤ entry then (entry - d, true) else (entry, false)

/-! ### Windows (R306, R309, R312) -/

/-- A usable channel value: validity 00, and not a test value unless ACCEPT_TEST. -/
def usable (accept : Bool) (q : Nat) : Bool := q % 4 == 0 && (!bit q 11 || accept)

/-- Enough received samples of a channel exist for a quantity over the given nominal cycles (R312). -/
def Bank.chanValid (b : Bank) (k : Nat) (h : ChanState) (cycles : Nat) : Bool := decide (cycles * b.perCycle k ≤ h.run) && decide (b.windowLen k ≤ h.win.length)

/-- A window sample of a channel, and which of its quantities enough received samples exist for (R312). -/
def Bank.enter (b : Bank) (k : Nat) (h : ChanState) (w : WSample) : ChanState :=
  let fc := b.getN P.freqCycles 0
  let rc := b.getN P.rocofCycles 0
  let h := h.push (b.nominalHz k) (b.windowLen k) fc rc w
  let ok := fun c => b.chanValid k h c
  { h with pts := match h.pts with
    | [] => []
    | p :: l => { p with ok := ok 1, okF := ok (1 + fc), okR := ok (1 + fc + rc) } :: l }

/-- A value enters the window of a channel, through the decimation filter where the tap has one: the filter's output is open, and its
delay is a constant of the rate. -/
def State.pushValue (s : State) (b : Bank) (k c : Nat) (h : ChanState) (raw : Int) (t : Nat) (sim test recv : Bool) : State × ChanState :=
  let h := { h with raw := raw, run := h.run + b2n recv }
  if b.decimation k = 1 then
    let (v, clip) := scaleWord raw (b.getN P.chScale (8 * k + c)) (b.getN P.chFullScale (8 * k + c))
    (s, b.enter k h { t := t, v := v, clip := clip, sim := sim, test := test })
  else if h.phase < 3 then (s, { h with phase := h.phase + 1 })
  else
    let v := signed 16 (s.freeVal 16)
    let w : WSample := { t := t - (Config.filterDelay (b.smpHz k)).toNat, v := v, clip := decide (32767 ≤ v.natAbs), sim := sim, test := test }
    (s.drawn, b.enter k { h with phase := 0 } w)

/-- The last used value of a channel repeated n times, one sample period apart before t. -/
def State.fillValue (b : Bank) (k c : Nat) (t : Nat) : Nat → State → ChanState → State × ChanState
  | 0, s, h => (s, h)
  | n + 1, s, h =>
    let (s, h) := s.pushValue b k c h h.raw (t - 1000000000 * (n + 1) / b.smpHz k) false false false
    State.fillValue b k c t n s h

/-- A window that begins again. -/
def ChanState.restart (h : ChanState) : ChanState := { pts := h.pts }

/-- A sample of one channel under the gap rules: `gap` samples are missing before it. True: a value was repeated. -/
def State.channelSample (s : State) (b : Bank) (k c gap : Nat) (raw : Int) (q t : Nat) (sim : Bool) : State × Bool :=
  let h := (s.gmu.tap.at k).ch.at c
  let put := fun (x : State × ChanState) => x.1.updTap k (fun p => { p with ch := p.ch.put c x.2 })
  let miss := h.miss + gap
  if !usable (b.on P.acceptTest k) q then (put (s, { h with miss := miss + 1 }), false)
  else if h.run = 0 ∨ miss = 0 then (put (s.pushValue b k c { h with miss := 0 } raw t sim (bit q 11) true), false)
  else if miss ≤ b.getN P.gapFill k then
    let (s, h) := State.fillValue b k c t miss s { h with miss := 0 }
    ((put (s.pushValue b k c h raw t sim (bit q 11) true)).count Stat.svFilled k (miss - gap), true)
  else
    let s := if gap < miss then s.count Stat.svJumps k else s
    (put (s.pushValue b k c h.restart raw t sim (bit q 11) true), false)

/-! ### The capture ring (R323, R324) -/

/-- A block holds an entry of an open or completed capture. -/
def State.blockKept (s : State) (block : Nat) : Bool :=
  (s.gmu.block.at block).any (fun e => s.gmu.capture.any (fun c => c.2.held && decide (c.2.start ≤ e.entry) && decide (e.entry ≤ c.2.stop)))

/-- Blocks that the writer skips. -/
def State.keptBlocks (s : State) : Nat := (s.gmu.block.keys.filter s.blockKept).length

/-- The block the writer takes after one that is full. -/
def State.nextBlock (s : State) (block : Nat) : Nat :=
  ((firstFrom 65536 (block + 1) (fun b => !s.blockKept b)).getD ((block + 1) % 65536))

/-- Every open capture is flagged GAPPED. (DEDUCED, entry 80.) -/
def State.gapCaptures (s : State) : State :=
  { s with gmu := { s.gmu with capture := s.gmu.capture.mapAll (fun _ c => if c.held && !c.complete then { c with gapped := true } else c) } }

/-- A used sample is written: a burst of 32 entries asks the HBM for its 2 KiB, and an entry whose burst finds no room is lost.
(DEDUCED, entry 80.) -/
def State.capture (s : State) (e : CapEntry) : State :=
  let block := s.gmu.pos / 512
  let i := s.gmu.pos % 512
  let addr := hbmCapture + 32768 * block + 64 * i
  let room := decide (i % 32 ≠ 0) || decide (((s.hbm.pc.at (pcOf addr)).held 3) < hbmLimit 3)
  if !room then (s.count Stat.captureDrops).gapCaptures else
    let s := if i % 32 = 0 then s.hbmAsk 3 addr 2048 true s.gmu.pos else s
    let l := s.gmu.block.at block
    let old := l[i]?
    let s := { s with gmu := { s.gmu with
      block := s.gmu.block.put block (l.take i ++ [e] ++ l.drop (i + 1))
      overwritten := match old with | some o => some (max o.entry (s.gmu.overwritten.getD 0)) | none => s.gmu.overwritten } }
    { s with gmu := { s.gmu with pos := if i < 511 then s.gmu.pos + 1 else 512 * s.nextBlock block } }

/-! ### A sample enters (R306 to R308) -/

/-- A window that restarts: the stream was lost, enabled, or jumped. -/
def TapState.restart (t : TapState) : TapState := { t with ch := t.ch.mapAll (fun _ h => h.restart), filled := 0 }

/-- A sample in its turn. `gap`: samples missing before it. -/
def State.takeSample (s : State) (k gap entry : Nat) (sim : Bool) (a : Asdu) : State :=
  let b := s.cfg.active
  let (t, sync) := s.sampleTime (b.smpHz k) entry a.cnt a.synch
  let used := a.vals.any (fun v => usable (b.on P.acceptTest k) v.2)
  let step := fun (acc : State × Bool) (cv : Nat × Int × Nat) =>
    let (s, f) := acc.1.channelSample b k cv.1 gap cv.2.1 cv.2.2 t sim
    (s, acc.2 || f)
  let (s, filled) := (List.zip (List.range a.vals.length) a.vals).foldl step (s, false)
  let s := s.updTap k (fun p => { p with last := some a.cnt })
  if !used then s else
    let s := s.updTap k (fun p => { p with
      filled := if filled then b.perCycle k - 1 else p.filled - 1
      unsync := !sync, lost := false, lastUsed := s.time.mono, received := p.received + 1, lastT := t, entry := entry })
    if b.on P.captureEnable k then
      s.capture { tap := k, flags := b2n sim + 2 * b2n (a.synch != 0), cnt := a.cnt, t := t, vals := a.vals.map (·.1)
                  qual := a.vals.map (fun v => v.2 % 4 + 4 * b2n (bit v.2 11) + 8 * b2n (bit v.2 10)), entry := entry }
    else s

/-- The sequence rule of R306 on one sample. (DEDUCED, entry 77.) -/
def State.sample (s : State) (k entry : Nat) (sim : Bool) (a : Asdu) : State :=
  let b := s.cfg.active
  let rate := b.smpHz k
  let fresh := fun (s : State) => (s.updTap k TapState.restart).takeSample k 0 entry sim a
  let t := s.gmu.tap.at k
  match t.last, t.lost with
  | none, _ => fresh s
  | some _, true => fresh s
  | some last, false =>
    let d := (a.cnt + rate - (last + 1) % rate) % rate
    if d = 0 then s.takeSample k 0 entry sim a
    else if rate / 2 ≤ d then s.count Stat.svDuplicates k
    else if d ≤ b.getN P.gapFill k then (s.count Stat.svFilled k d).takeSample k d entry sim a
    else fresh (s.count Stat.svJumps k)

/-! ### Closing a lap (R311, R314) -/

/-- HEALTH of the present window, FREQ_RANGE and TRIGGERED apart. -/
def State.tapHealth (s : State) (k : Nat) : Nat :=
  let b := s.cfg.active
  let t := s.gmu.tap.at k
  let chans := (List.range (b.getN P.channels k)).map (fun c => t.ch.at c)
  let bad := chans.map (fun h => t.lost || !b.chanValid k h 1)
  let any := fun (f : WSample → Bool) => chans.any (fun h => h.win.any f)
  let fc := 1 + b.getN P.freqCycles 0
  let badF := chans.any (fun h => t.lost || !b.chanValid k h fc)
  let badR := chans.any (fun h => t.lost || !b.chanValid k h (fc + b.getN P.rocofCycles 0))
  b2n (decide (0 < t.received)) + 2 * b2n (bad.any id) + 4 * b2n (decide (0 < t.filled)) + 8 * b2n t.lost + 16 * b2n t.unsync
    + 32 * b2n (any (·.sim)) + 64 * b2n (any (·.test)) + 128 * b2n (any (·.clip)) + 512 * b2n badF + 1024 * b2n badR
    + 65536 * maskOf ((List.range bad.length).filter (fun c => bad.getD c false))

/-- The newest record of a tap, published or not. -/
def TapState.newest (t : TapState) : GRecord := (t.closing.getLast?).getD ((t.done.getLast?).getD t.record)

/-- What the finishing engines need of a channel at the close of a lap. -/
def ChanState.closed (h : ChanState) : ChanOut := { sumsq := (h.win.map (fun w => w.v.natAbs ^ 2)).sum, distortion := h.thd, pts := h.pts }

/-- A boundary closes measurement lap `lap` of a tap. (DEDUCED, entry 125.) -/
def State.closeLap (s : State) (k lap : Nat) : State :=
  let b := s.cfg.active
  let t := s.gmu.tap.at k
  let h := s.tapHealth k
  let gen := s.instGen (b.getN P.tapInstance k)
  let r : GRecord :=
    if t.received = 0 then
      let p := t.newest
      let n := b.getN P.channels k
      let kept := (p.health - p.health % 2) - b2n (bit p.health 3) * 8
      { p with lap := lap, gen := gen, received := 0, chans := (List.range n).map (fun c => p.chans.getD c {})
               health := if p.chans.isEmpty then h else if t.lost then kept ||| (2 + 8 + 512 + 1024 + 65536 * (2 ^ n - 1)) else kept }
    else
      { lap := lap, gen := gen, t := t.lastT, cnt := t.last.getD 0, received := t.received, health := h, entry := t.entry
        chans := (List.range (b.getN P.channels k)).map (fun c => (t.ch.at c).closed) }
  s.updTap k (fun t => { t with closing := t.closing ++ [r], received := 0, ch := t.ch.mapAll (fun _ h => { h with pts := h.pts.take 1 }) })

/-! ### Outputs (R312) -/

/-- RMS of a channel in engineering units: √(Σ x² ÷ N_w) × CH_FULL_SCALE ÷ 32,767. -/
def Bank.rms (b : Bank) (k c sumsq : Nat) : Nat :=
  let (fn, fd) := singleMag (b.getN P.chFullScale (8 * k + c))
  singleSqrt (sumsq * fn * fn) (b.windowLen k * 32767 * 32767 * fd * fd)

/-- A value that is given, or else a free one. -/
def State.orFree (s : State) (x : Option Nat) (i w : Nat) : Nat := x.getD ((Config.freeValue (s.free + i)).toNat % 2 ^ w)

/-- The outputs of a closed lap, as singles, from the last window sample of the lap; every value that is INVALID is open, and so is a
quotient over no time or no fundamental. (DEDUCED, entry 78; DESIGN CHOICE, entry 155.) -/
def State.outputs (s : State) (k : Nat) (r : GRecord) : State × GRecord :=
  let b := s.cfg.active
  if !bit r.health 0 then (s, r) else
    (List.range r.chans.length).foldl (fun (acc : State × GRecord) c =>
      let (s, r) := acc
      let o := r.chans.getD c {}
      let p := o.pts.headD { t := 0 }
      let full := b.getN P.chFullScale (8 * k + c)
      let ok := !bit r.health (16 + c)
      let when_ := fun (g : Bool) (x : Option Nat) => if g then x else none
      let o := { o with rms := s.orFree (when_ ok (some (b.rms k c o.sumsq))) 5 32
                        re := s.orFree (when_ ok (some (singleOf (engOf full p.re) (2 ^ 200)))) 0 32
                        im := s.orFree (when_ ok (some (singleOf (engOf full p.im) (2 ^ 200)))) 1 32
                        f := s.orFree (when_ p.okF (p.f.map (fun x => singleOf x (2 ^ 40)))) 2 32
                        rocof := s.orFree (when_ p.okR (p.rocof.map (fun x => singleOf x (2 ^ 40)))) 3 32
                        thd := s.orFree (when_ ok o.distortion) 4 32 }
      (s.drawn 6, { r with chans := r.chans.set c o
                           health := if p.okF && p.clamped && !bit r.health 8 then r.health + 256 else r.health })) (s, r)

/-! ### Sources (R313, R318) -/

/-- Measurement source of a tap channel or triplet (R426). -/
def sourceTap (v : Nat) : Nat := bits v 0 16
def sourceChan (v : Nat) : Nat := bits v 16 8
def sourceTrip (v : Nat) : Bool := bit v 24

/-- The three sources of a triplet. -/
def Bank.tripSrcs (b : Bank) (k : Nat) : List Nat := [b.getN P.tripSrcA k, b.getN P.tripSrcB k, b.getN P.tripSrcC k]

/-- The record that stands for a tap in this lap's evaluation: the one completed last, or the published one. -/
def TapState.latest (t : TapState) : GRecord := (t.done.getLast?).getD t.record

/-- Quantities of a trigger's source. -/
structure Quantity where
  /-- the source's phasor and RMS, its frequency and its ROCOF are valid -/
  ok : Bool
  okF : Bool
  okR : Bool
  /-- squared RMS or |X₁| as a fraction -/
  sq : Nat × Nat
  /-- the phase jump in millidegrees as a fraction, where this lap and the one before it are consecutive evaluated laps -/
  jump : Option (Nat × Nat)
  /-- RMS or |X₁| as the entry of a fire reports it -/
  rms : Nat
  f : Nat
  rocof : Nat
  thd : Nat
  nominal : Nat
  hz : Nat
  health : Nat
  entry : Nat
  lap : Nat

/-- Square of a single as a fraction. -/
def sqOf (x : Nat) : Nat × Nat := let (n, d) := singleMag x; (n * n, d * d)

/-- The phase jump of R318 between the last window samples of two laps, in millidegrees. -/
def phaseJump (p q : Point) (hz : Nat) : Option (Nat × Nat) :=
  match p.f with
  | some f => if p.ok && p.okF && q.ok then
      some ((wrapTurn ((argOf q.re q.im : Int) - argOf p.re p.im - driftTurn f hz (12 * (q.t - p.t)))).natAbs * 360000, 2 ^ 64) else none
  | none => none

/-- Quantities of a tap channel. `prev`: the record of the lap before, where the two are consecutive evaluated laps. -/
def State.channelQty (s : State) (k c : Nat) (prev : Option GRecord) : Quantity :=
  let b := s.cfg.active
  let r := (s.gmu.tap.at k).latest
  let o := r.chans.getD c {}
  let pt := fun (r : GRecord) => (r.chans.getD c {}).pts.headD { t := 0 }
  let (fn, fd) := singleMag (b.getN P.chFullScale (8 * k + c))
  { ok := !bit r.health (16 + c), okF := !bit r.health (16 + c) && !bit r.health 9, okR := !bit r.health (16 + c) && !bit r.health 10
    sq := (o.sumsq * fn * fn, b.windowLen k * 32767 * 32767 * fd * fd), rms := o.rms, f := o.f, rocof := o.rocof, thd := o.thd
    jump := prev.bind (fun q => phaseJump (pt q) (pt r) (b.nominalHz k))
    nominal := b.getN P.chNominal (8 * k + c), hz := b.nominalHz k, health := r.health, entry := r.entry, lap := r.lap }

/-- Quantities of a triplet: |X₁| from its record; the manual gives it no frequency, ROCOF or THD of its own, which are open, and with
them its phase jump. (DESIGN CHOICE, entry 155.) -/
def State.tripletQty (s : State) (k : Nat) (consecutive : Bool) : Quantity :=
  let b := s.cfg.active
  let a := b.getN P.tripSrcA k
  let t := s.gmu.trip.at k
  let (rn, rd) := sqOf (t.parts.getD 0 0)
  let (jn, jd) := sqOf (t.parts.getD 1 0)
  let sq := (rn * jd + jn * rd, rd * jd)
  let hs := (b.tripSrcs k).map (fun v => (s.gmu.tap.at (sourceTap v)).latest.health)
  { ok := t.valid, okF := t.valid && hs.all (fun h => !bit h 9), okR := t.valid && hs.all (fun h => !bit h 10)
    sq := sq, rms := singleSqrt sq.1 sq.2, f := s.orFree none 0 32, rocof := s.orFree none 1 32, thd := s.orFree none 2 32
    jump := if consecutive then some (s.orFree none 3 64 % 180001, 1) else none
    nominal := b.getN P.chNominal (8 * sourceTap a + sourceChan a), hz := b.nominalHz (sourceTap a)
    health := (if hs.all (fun h => bit h 0) then 1 else 0) + 8 * b2n (hs.any (fun h => bit h 3)) + 32 * b2n (hs.any (fun h => bit h 5)) + 64 * b2n (hs.any (fun h => bit h 6))
    entry := (s.gmu.tap.at (sourceTap a)).latest.entry, lap := t.lap }

/-! ### Conditions (R318) -/

/-- Whether x ÷ y (a fraction and a denominator) compares above a whole threshold in thousandths: |x| × scale > t. -/
def above (x : Nat × Nat) (scale t : Nat) : Bool := decide (t * x.2 < x.1 * scale)

/-- |f − F_NOMINAL| as a fraction. -/
def freqDev (f hz : Nat) : Nat × Nat :=
  let (n, d) := singleMag f
  (((n : Int) - (hz * d : Nat)).natAbs, d)

/-- Whether a condition holds and whether its clear condition is met. -/
def trigCondition (typ t h : Nat) (q : Quantity) (lost : Bool) : Bool × Bool :=
  let (nn, nd) := sqOf q.nominal
  let lt := fun (x : Nat) => decide (q.sq.1 * 1000000 * nd < x * x * nn * q.sq.2)
  let gt := fun (x : Nat) => decide (x * x * nn * q.sq.2 < q.sq.1 * 1000000 * nd)
  match typ with
  | 0 => (q.ok && lt t, q.ok && !lt (t + h))
  | 1 => (q.ok && gt t, q.ok && decide (h ≤ t) && !gt (t - h))
  | 2 => let x := freqDev q.f q.hz; (q.okF && above x 1000 t, q.okF && decide (h ≤ t) && !above x 1000 (t - h))
  | 3 => let x := singleMag q.rocof; (q.okR && above x 1000 t, q.okR && decide (h ≤ t) && !above x 1000 (t - h))
  | 4 => match q.jump with
    | some j => (q.ok && above j 1 t, q.ok && decide (h ≤ t) && !above j 1 (t - h))
    | none => (false, q.ok)
  | 5 => let x := singleMag q.thd; (q.ok && above x 100 t, q.ok && decide (h ≤ t) && !above x 100 (t - h))
  | _ => (lost, !lost)

/-! ### Captures (R324) -/

/-- A fire with CAPTURE: it extends the open capture, or takes a place of 16. Refusals are recorded with the reason. (DEDUCED, entry 80.) -/
def State.startCapture (s : State) (trig tf : Nat) (intr : Bool) : State :=
  let pre := 1000000 * s.par P.capturePreMs
  let post := 1000000 * s.par P.capturePostMs
  match s.gmu.capture.find? (fun c => c.2.held && !c.2.complete && decide (tf < c.2.stop)) with
  | some (i, c) =>
    let c' : Capture := { c with stop := max c.stop (min (tf + post) (10000000000 + c.start)), intr := c.intr || intr }
    { s with gmu := { s.gmu with capture := s.gmu.capture.put i c' } }
  | none =>
    let no := fun (s : State) (why : Nat) => (s.count Stat.captureRefused).ruleEvent 324 trig 0 [why]
    match (List.range 16).find? (fun i => !(s.gmu.capture.at i).held) with
    | none => no s 0
    | some i =>
      let start := tf - pre
      let short := match s.gmu.overwritten with | some o => decide (start ≤ o) | none => false
      let c : Capture := { held := true, trig := trig, start := start, stop := tf + post, preShort := short, intr := intr }
      let s' := { s with gmu := { s.gmu with capture := s.gmu.capture.put i c } }
      if 49152 < s'.keptBlocks then no s 1 else s'

/-! ### Triggers (R317 to R321) -/

/-- The tap, or tap of source A, of a trigger. -/
def Bank.trigTap (b : Bank) (k : Nat) : Nat :=
  if b.on P.trigSrc k then sourceTap (b.getN P.tripSrcA (b.getN P.trigIndex k)) else b.getN P.trigIndex k

/-- The measurement source of a trigger in the encoding of R426. -/
def Bank.trigSource (b : Bank) (k : Nat) : Nat :=
  b.getN P.trigIndex k + (if b.on P.trigSrc k then 2 ^ 24 else b.getN P.trigChannel k * 2 ^ 16)

/-- Asks for a profile on the ports of a trigger: ports with GMU_LOCK ignore it, which is recorded (R320). Ranks of R321: fires
3 to 1, clears 0. (DEDUCED, entries 79, 119.) -/
def State.askProfile (s : State) (k rank profile : Nat) : State :=
  s.forEach (onesOf 512 (s.par P.trigPorts k)) (fun s p =>
    if s.parOn P.gmuLock p then s.ruleEvent 320 p 0 [k, profile]
    else { s with gmu := { s.gmu with req := s.gmu.req ++ [(rank, k, p, profile)] } })

/-- Rank of a fire request by its profile: DISTURBANCE (1) above RESTORATION (2) above NORMAL (0). -/
def fireRank (profile : Nat) : Nat := match profile with | 1 => 3 | 2 => 2 | _ => 1

/-- A trigger fires (R319, R320). (DEDUCED, entry 79.) -/
def State.fire (s : State) (k : Nat) (q : Quantity) (value : Nat) : State :=
  let b := s.cfg.active
  let act := b.getN P.trigActions k
  let quiet := bit q.health 5 || bit q.health 6
  let s := s.updTrig k (fun t => { t with st := 2, count := 0, fireLap := q.lap, fires := t.fires + 1, clear := 0, cleared := false, quiet := quiet })
  let s := if bit act 0 then
      (if quiet then s.ruleEvent 319 k 0 [b.getN P.trigProfile k] else s.askProfile k (fireRank (b.getN P.trigProfile k)) (b.getN P.trigProfile k))
    else s
  let s := if bit act 1 then s.startCapture k q.entry (bit act 3) else s
  if bit act 2 || bit act 3 then
    let items := if bit act 2 then [b.getN P.trigType k, b.trigSource k, q.lap, value, b.getN P.trigThreshold k] else []
    { s with gmu := { s.gmu with events := s.gmu.events ++ [(k, items, bit act 3)] } }
  else s

/-- One evaluated lap of a trigger (R319). (DEDUCED, entries 79, 119.) -/
def State.evalTrigger (s : State) (k : Nat) (q : Quantity) (lost : Bool) : State :=
  let b := s.cfg.active
  let typ := b.getN P.trigType k
  let (holds, clear) := trigCondition typ (b.getN P.trigThreshold k) (b.getN P.trigHyst k) q lost
  let value := match typ with
    | 2 => q.f
    | 3 => q.rocof
    | 4 => match q.jump with | some j => singleOf j.1 j.2 | none => 0
    | 5 => q.thd
    | 6 => 0
    | _ => q.rms
  let t := s.gmu.trig.at k
  if t.st = 2 then
    let n := if clear then t.clear + 1 else 0
    let ask := decide (n = b.getN P.clearLaps k) && !t.cleared && !t.quiet && b.getN P.clearProfile k != 0
    let s := s.updTrig k (fun t => { t with clear := n, cleared := t.cleared || ask })
    let s := if ask then s.askProfile k 0 (if b.getN P.clearProfile k = 1 then 0 else 2) else s
    if clear && decide (b.getN P.holdOffLaps k ≤ (q.lap + 2 ^ 32 - t.fireLap) % 2 ^ 32) then s.updTrig k (fun t => { t with st := 0, count := 0, clear := 0 })
    else s
  else if holds then
    let n := t.count + 1
    if n = b.getN P.pickupLaps k then s.fire k q value else s.updTrig k (fun t => { t with st := 1, count := n })
  else s.updTrig k (fun t => { t with st := 0, count := 0 })

/-- Enabled triggers on a source. -/
def Bank.triggersOn (b : Bank) (trip : Bool) (index : Nat) : List Nat :=
  ((b.filter (fun e => e.1 / 2 ^ 32 == P.trigEnable.id && e.2 == 1)).map (fun e => e.1 % 2 ^ 32)).filter (fun k =>
    b.on P.trigSrc k == trip && b.getN P.trigIndex k == index)

/-- Evaluates the triggers of a tap's channels or of a triplet: a lap counts with NEW, and always for LOSS (R318). -/
def State.evalSource (s : State) (trip : Bool) (index : Nat) (prev : Option GRecord) : State :=
  s.forEach (s.cfg.active.triggersOn trip index) (fun s k =>
    let q := if trip then s.tripletQty index prev.isSome else s.channelQty index (s.par P.trigChannel k) prev
    let s := if trip then s.drawn 4 else s
    if bit q.health 0 || s.par P.trigType k == 6 then s.evalTrigger k q (bit q.health 3) else s)

/-- Some trigger on a tap's channels is FIRED. -/
def State.tapFired (s : State) (k : Nat) : Bool := (s.cfg.active.triggersOn false k).any (fun t => (s.gmu.trig.at t).st == 2)

/-- Enabled triplets that name a tap. -/
def Bank.tripletsOf (b : Bank) (k : Nat) : List Nat :=
  ((b.filter (fun e => e.1 / 2 ^ 32 == P.tripEnable.id && e.2 == 1)).map (fun e => e.1 % 2 ^ 32)).filter (fun t =>
    (b.tripSrcs t).any (fun v => sourceTap v == k))

/-- The phasor of a source at a window sample, in engineering units × 2^200, turned to a time in twelfths of a ns. -/
def Bank.turnedTo (b : Bank) (v : Nat) (p : Point) (t12 : Nat) : Int × Int :=
  let k := sourceTap v
  let hz := b.nominalHz k
  let full := b.getN P.chFullScale (8 * k + sourceChan v)
  rotated (engOf full p.re, engOf full p.im) (p.f.getD (hz * 2 ^ 40)) hz (t12 - 12 * p.t)

/-- X₁, X₂ and X₀ of a triplet as singles: its phasors are turned to the latest of their last-sample times (R313). -/
def State.tripParts (s : State) (t : Nat) : List Nat :=
  let b := s.cfg.active
  let pts := (b.tripSrcs t).map (fun v => (v, (((s.gmu.tap.at (sourceTap v)).latest.chans.getD (sourceChan v) {}).pts.headD { t := 0 })))
  let latest := (pts.map (fun e => e.2.t)).foldl max 0
  match pts.map (fun e => b.turnedTo e.1 e.2 (12 * latest)) with
  | [x, y, z] => (symmetric x y z).flatMap (fun x => [singleOf x.1 (2 ^ 200), singleOf x.2 (2 ^ 200)])
  | _ => []

/-- A triplet whose three taps are finished gets its record: valid only with three valid phasors (R313). -/
def State.finishTriplet (s : State) (t : Nat) : State :=
  let b := s.cfg.active
  let srcs := b.tripSrcs t
  if srcs.any (fun v => !(s.gmu.tap.at (sourceTap v)).closing.isEmpty) then s else
    let a := sourceTap (b.getN P.tripSrcA t)
    let ra := (s.gmu.tap.at a).latest
    let valid := srcs.all (fun v => !bit (s.gmu.tap.at (sourceTap v)).latest.health (16 + sourceChan v))
    let r : TripRecord := {
      valid := valid
      lap := ra.lap, gen := s.instGen (b.getN P.tapInstance a)
      parts := (List.range 6).map (fun i => s.orFree (if valid then (s.tripParts t)[i]? else none) i 32) }
    let prev := if (s.gmu.trip.at t).lap + 1 = ra.lap then some ra else none
    (({ s with gmu := { s.gmu with trip := s.gmu.trip.put t r } }).drawn 6).evalSource true t prev

/-- The finishing engines complete the oldest closed lap of a tap (R311). -/
def State.finish (s : State) (k : Nat) : State :=
  match (s.gmu.tap.at k).closing with
  | [] => s
  | r :: rest =>
    let prev := (s.gmu.tap.at k).latest
    let (s, r) := s.outputs k r
    let s := s.updTap k (fun t => { t with closing := rest, done := t.done ++ [r] })
    let s := s.evalSource false k (if bit prev.health 0 && (prev.lap + 1) % 2 ^ 32 == r.lap then some prev else none)
    let fired := s.tapFired k
    let s := s.updTap k (fun t => { t with done := t.done.dropLast ++ [{ r with
      health := r.health - 2048 * b2n (bit r.health 11) + 2048 * b2n fired }] })
    s.forEach (s.cfg.active.tripletsOf k) (fun s t => s.finishTriplet t)

/-! ### Records as bytes (R314) -/

/-- The record of a tap. -/
def GRecord.bytes (r : GRecord) (k : Nat) : List Byte :=
  leBytes 2 k ++ leBytes 1 r.gen ++ leBytes 1 r.chans.length ++ leBytes 4 r.lap ++ leBytes 4 (r.t / 1000000000) ++ leBytes 4 (r.t % 1000000000)
    ++ leBytes 2 r.cnt ++ leBytes 2 r.received ++ leBytes 4 r.health ++ leBytes 8 0
    ++ r.chans.flatMap (fun c => [c.rms, c.re, c.im, c.f, c.rocof, c.thd].flatMap (leBytes 4))

/-- The record of a triplet. -/
def TripRecord.bytes (r : TripRecord) (k : Nat) : List Byte :=
  leBytes 2 k ++ leBytes 1 r.gen ++ leBytes 1 (b2n r.valid) ++ leBytes 4 r.lap ++ (slice (r.parts.flatMap (leBytes 4)) 0 24)

/-- A capture entry (R323). -/
def CapEntry.bytes (e : CapEntry) : List Byte :=
  leBytes 2 e.tap ++ leBytes 1 e.flags ++ leBytes 1 0 ++ leBytes 2 e.cnt ++ leBytes 2 0 ++ leBytes 4 (e.t / 1000000000)
    ++ leBytes 4 (e.t % 1000000000) ++ slice (e.vals.flatMap (fun v => leBytes 4 (unsigned 32 v))) 0 32
    ++ slice (e.qual.flatMap (leBytes 1)) 0 8 ++ leBytes 8 0

/-! ### The report rings (R315, R525) -/

/-- Entries of the GMU ring in use. -/
def RingPage.gmuUsed (p : RingPage) : Nat := (p.gmuTail - p.gmuHead).toNat

/-- Writes one entry of the report ring. -/
def State.reportEntry (s : State) (i kind : Nat) (rec : List Byte) : State :=
  let p := s.host.page.at i
  let e := leBytes 1 kind ++ leBytes 1 0 ++ leBytes 2 rec.length ++ leBytes 4 p.gmuSeq ++ slice rec 0 248
  let s := s.dmaWrite (p.gmu.base + 256 * (p.gmuTail.toNat % 2 ^ p.gmu.log2)) e
  let s := s.updPage i (fun p => { p with gmuTail := p.gmuTail + 1, gmuSeq := (p.gmuSeq + 1) % 2 ^ 32 })
  s.cause i 4

/-- Reports the record of a tap and those of the triplets whose source A it is: dropped together without room, discarded when
their generation is stale, and dropped for want of a pool buffer (R315, R389, R452, R525). -/
def State.report (s : State) (k : Nat) : State :=
  let b := s.cfg.active
  let i := b.getN P.tapInstance k
  let r := (s.gmu.tap.at k).record
  let trips := (b.tripletsOf k).filter (fun t => sourceTap (b.getN P.tripSrcA t) == k)
  let recs := (1, r.bytes k) :: trips.map (fun t => (2, (s.gmu.trip.at t).bytes t))
  if r.gen ≠ s.instGen i then s.count Stat.falseStartDiscards (6 * i + 4) else
    recs.foldl (fun (acc : State × Bool) e =>
      let (s, go) := acc
      let p := s.host.page.at i
      if !go || !p.gmu.enable || decide (2 ^ p.gmu.log2 ≤ p.gmuUsed) then (s.count Stat.gmuReportDrops, go && e.1 == 2)
      else match s.poolRequest 2 e.2.length with
        | (s, none) => (s.count Stat.gmuPoolDrops, go)
        | (s, some (pool, buf)) => ((s.reportEntry i e.1 e.2).poolRelease pool buf, go)) (s, true) |>.1

/-! ### Synchrophasor frames (R325 to R328) -/

/-- NaN of R326. -/
def nan : Nat := 0x7FC00000

/-- The sources of an output: its phasors, then its frequency source. -/
def Bank.pmuSources (b : Bank) (o : Nat) : List Nat :=
  (List.range (b.getN P.pmuNph o)).map (fun i => b.getN P.pmuPh (16 * o + i)) ++ [b.getN P.pmuFreqSrc o]

/-- The taps of a source. -/
def Bank.sourceTaps (b : Bank) (v : Nat) : List Nat := if sourceTrip v then (b.tripSrcs (sourceTap v)).map sourceTap else [sourceTap v]

/-- The tap channels whose samples a source is formed of. -/
def Bank.sourceChans (b : Bank) (v : Nat) : List Nat := if sourceTrip v then b.tripSrcs (sourceTap v) else [v]

/-- The last window sample of a channel up to a time in twelfths of a ns. -/
def State.pointAt (s : State) (v t12 : Nat) : Option Point :=
  ((s.gmu.tap.at (sourceTap v)).record.chans.getD (sourceChan v) {}).pts.find? (fun p => decide (12 * p.t ≤ t12))

/-- A source is INVALID at a time. -/
def State.sourceBad (s : State) (v t12 : Nat) : Bool := (s.cfg.active.sourceChans v).any (fun c => !(s.pointAt c t12).any (·.ok))

/-- The last sample of a source lies more than one nominal cycle before a time. -/
def State.sourceOld (s : State) (v t12 : Nat) : Bool :=
  (s.cfg.active.sourceChans v).any (fun c => (s.pointAt c t12).any (fun p =>
    decide (12000000000 < (t12 - 12 * p.t) * s.cfg.active.nominalHz (sourceTap c))))

/-- The phasor of a source at a time as singles: of a triplet X₁ of its channels' phasors at that time. (DEDUCED, entry 78.) -/
def State.phasorAt (s : State) (v t12 : Nat) : List Nat :=
  let b := s.cfg.active
  let l := (b.sourceChans v).map (fun c => b.turnedTo c ((s.pointAt c t12).getD { t := 0 }) t12)
  let x := match l with | [x, y, z] => (symmetric x y z).headD (0, 0) | [x] => x | _ => (0, 0)
  [singleOf x.1 (2 ^ 200), singleOf x.2 (2 ^ 200)]

/-- The lowest FIRED trigger on the sources of an output. -/
def State.pmuFired (s : State) (srcs : List Nat) : Option Nat :=
  let b := s.cfg.active
  (s.gmu.trig.keys.filter (fun k => (s.gmu.trig.at k).st == 2)).find? (fun k => b.on P.trigEnable k && srcs.contains (b.trigSource k))

/-- Code of a trigger type in STAT. -/
def statCode (typ : Nat) : Nat := [1, 2, 4, 5, 3, 8, 9].getD typ 0

/-- STAT of an output (R327). -/
def State.pmuStat (s : State) (o t12 : Nat) : Nat :=
  let b := s.cfg.active
  let srcs := b.pmuSources o
  let health := (srcs.flatMap b.sourceTaps).map (fun k => (s.gmu.tap.at k).record.health)
  let any := fun i => health.any (fun h => bit h i)
  let err := if srcs.any (fun v => s.sourceBad v t12) then 3 else if any 5 || any 6 then 2 else 0
  let sync := b2n (decide (s.time.state ≠ .locked) || any 4)
  let held := (s.time.mono - s.gmu.holdoverAt) / 1000000000
  let unlocked := match s.time.state with
    | .locked => 0
    | .holdover => if held < 10 then 1 else if held < 100 then 2 else 3
    | .freerun => 3
  let trig := match s.pmuFired srcs with | some k => 2 ^ 11 + statCode (b.getN P.trigType k) | none => 0
  err * 2 ^ 14 + sync * 2 ^ 13 + trig + unlocked * 2 ^ 4

/-- Time quality of FRACSEC. -/
def TimeState.quality (t : TimeState) : Nat := match t with | .locked => 0 | .holdover => 6 | .freerun => 15

/-- Sum of 16-bit words, folded. -/
def onesSum (l : List Byte) : Nat :=
  let t := ((List.range (ceilDiv l.length 2)).map (fun i => beAt l (2 * i) 2)).sum
  let t := t % 65536 + t / 65536
  t % 65536 + t / 65536

/-- A frame from its template and its UDP payload: lengths and checksums are filled in (R328). (DEDUCED, entry 81.) -/
def pmuFrame (hdr payload : List Byte) : List Byte :=
  let n := hdr.length
  let udp := 8 + payload.length
  let v6 := decide (62 ≤ n)
  let ip := n - 8 - (if v6 then 40 else 20)
  let h := overlay hdr (n - 4) (beBytes 2 udp ++ beBytes 2 0)
  let h := if v6 then overlay h (ip + 4) (beBytes 2 udp)
    else overlay (overlay h (ip + 2) (beBytes 2 (20 + udp))) (ip + 10) (beBytes 2 0)
  let h := if v6 then
      let c := 65535 - onesSum (slice h (ip + 8) 32 ++ beBytes 4 udp ++ beBytes 4 17 ++ h.drop (n - 8) ++ payload)
      overlay h (n - 2) (beBytes 2 (if c = 0 then 65535 else c))
    else overlay h (ip + 10) (beBytes 2 (65535 - onesSum (slice h ip 20)))
  h ++ payload

/-- CHK follows the bytes it covers. -/
def withChk (l : List Byte) : List Byte := l ++ beBytes 2 (crc16 l)

/-- The template of an output. -/
def Bank.pmuHdr (b : Bank) (o : Nat) : List Byte := let v := b.getN P.pmuHdr o; leBytes (v / 2 ^ 1024) (v % 2 ^ 1024)

/-- The queue of an output. -/
def Bank.pmuQueue (b : Bank) (o : Nat) : Nat := 16 * b.getN P.pmuPort o + b.getN P.pmuClass o

/-- A data frame for report time T: second and fraction of TIME_BASE 12,000,000 (R326, R327). The manual gives a triplet no frequency and
no ROCOF: they are open. (DEDUCED, entry 78; DESIGN CHOICE, entry 155.) -/
def State.pmuData (s : State) (o sec frac : Nat) : State :=
  let b := s.cfg.active
  let t12 := 12000000000 * sec + 1000 * frac
  let n := b.getN P.pmuNph o
  let gone := fun v => s.sourceBad v t12 || s.sourceOld v t12
  let ph := (List.range n).flatMap (fun i => let v := b.getN P.pmuPh (16 * o + i); if gone v then [nan, nan] else s.phasorAt v t12)
  let fs := b.getN P.pmuFreqSrc o
  let p := (s.pointAt fs t12).getD { t := 0 }
  let rate := fun (i : Nat) (ok : Bool) (x : Option Int) =>
    if gone fs then nan
    else if sourceTrip fs then s.orFree none i 32
    else if ok then s.orFree (x.map (fun x => singleOf x (2 ^ 40))) i 32 else nan
  let body := beBytes 2 0xAA02 ++ beBytes 2 (26 + 8 * n) ++ beBytes 2 (b.getN P.pmuIdcode o) ++ beBytes 4 sec
    ++ beBytes 4 (s.time.state.quality * 2 ^ 24 + frac) ++ beBytes 2 (s.pmuStat o t12)
    ++ (ph ++ [rate 0 p.okF p.f, rate 1 p.okR p.rocof]).flatMap (beBytes 4)
  ((s.drawn 2).sendOwn (b.pmuQueue o) 0 (pmuFrame (b.pmuHdr o) (withChk body))).1

/-- ASCII digits of a number. -/
def digits : Nat → Nat → List Byte
  | 0, _ => []
  | n + 1, x => digits n (x / 10) ++ [BitVec.ofNat 8 (0x30 + x % 10)]

/-- The 16-character name of a source, padded with spaces. -/
def sourceName (v : Nat) : List Byte :=
  let n := if sourceTrip v then [0x54#8, 0x52#8, 0x49#8, 0x50#8] ++ digits 4 (sourceTap v) ++ [0x20#8, 0x58#8, 0x31#8]
    else [0x54#8, 0x41#8, 0x50#8] ++ digits 4 (sourceTap v) ++ [0x20#8, 0x43#8, 0x48#8] ++ digits 1 (sourceChan v)
  n ++ List.replicate (16 - n.length) 0x20#8

/-- PHUNIT of a source, by CH_TYPE of its channel or of source A. -/
def Bank.phUnit (b : Bank) (v : Nat) : Nat :=
  let a := if sourceTrip v then b.getN P.tripSrcA (sourceTap v) else v
  if b.on P.chType (8 * sourceTap a + sourceChan a) then 0 else 0x01000000

/-- A CFG-2 frame without its CHK (R328). (DEDUCED, entry 81.) -/
def State.cfg2Body (s : State) (o : Nat) : List Byte :=
  let b := s.cfg.active
  let n := b.getN P.pmuNph o
  let srcs := (List.range n).map (fun i => b.getN P.pmuPh (16 * o + i))
  let sec := s.time.dev / 1000000000
  let frac := (s.time.dev % 1000000000) * 12 / 1000
  let fnom := match b.sourceTaps (b.getN P.pmuFreqSrc o) with | k :: _ => b.nominalHz k | [] => 50
  beBytes 2 0xAA32 ++ beBytes 2 (54 + 20 * n) ++ beBytes 2 (b.getN P.pmuIdcode o) ++ beBytes 4 sec
    ++ beBytes 4 (s.time.state.quality * 2 ^ 24 + frac) ++ beBytes 4 12000000 ++ beBytes 2 1
    ++ leBytes 16 (b.getN P.pmuStn o) ++ beBytes 2 (b.getN P.pmuIdcode o) ++ beBytes 2 0x000A ++ beBytes 2 n ++ beBytes 2 0 ++ beBytes 2 0
    ++ srcs.flatMap sourceName ++ srcs.flatMap (fun v => beBytes 4 (b.phUnit v))
    ++ beBytes 2 (b2n (fnom == 50)) ++ beBytes 2 (s.gmu.pmu.at o).cfgCnt.toNat ++ beBytes 2 (b.getN P.pmuRate o)

/-- A CFG-2 frame goes to the queue of its output. (DEDUCED, entry 81.) -/
def State.pmuCfg (s : State) (o : Nat) : State :=
  ({ s with gmu := { s.gmu with pmu := s.gmu.pmu.upd o (fun p => { p with sentCfg := true, lastCfg := s.time.mono }) } }).sendOwn
    (s.cfg.active.pmuQueue o) 0 (pmuFrame (s.cfg.active.pmuHdr o) (withChk (s.cfg2Body o))) |>.1

/-! ### Publication (R311, order 10 of R35) -/

/-- Publishes the records a tap has completed, and reports every REPORT_DIV laps. -/
def State.publishTap (s : State) (k : Nat) : State :=
  match (s.gmu.tap.at k).done.getLast? with
  | none => s
  | some r =>
    let s := s.updTap k (fun t => { t with record := r, done := [], laps := t.laps + 1 })
    let div := s.par P.reportDiv k
    if div ≠ 0 ∧ (s.gmu.tap.at k).laps % div = 0 then s.report k else s

/-- The trigger events of the lap: the recorder entry and the interrupt of each fire. -/
def State.publishEvents (s : State) : State :=
  let l := s.gmu.events
  let s := { s with gmu := { s.gmu with events := [] } }
  s.forEach l (fun s (e : Nat × List Nat × Bool) =>
    let inst := s.par P.tapInstance (s.cfg.active.trigTap e.1)
    let s := if e.2.1.isEmpty then s else s.log 0x030 [e.1] e.2.1 inst
    if e.2.2 then s.cause inst 2 else s)

/-- The data frames of an output whose report times lie in the measurement lap [lo, hi). -/
def State.pmuReports (s : State) (o lo hi : Nat) : State :=
  if !s.parOn P.pmuEnable o then s else
    let rate := s.par P.pmuRate o
    let sec := lo / 1000000000
    let k := ceilDiv ((lo % 1000000000) * rate) 1000000000
    let t := 1000000000 * sec + 1000000000 * k / rate
    if t < hi then (if k < rate then s.pmuData o sec (k * (12000000 / rate)) else s.pmuData o (sec + 1) 0) else s

/-- Order 10: records, events and synchrophasor frames of the lap just ended; then the lap that the boundary ends is closed. A lap
whose finishing is not complete raises GMU_OVERRUN (R322). `lap`: the number of the lap that ends. (DEDUCED, entry 79.) -/
def State.publish (s : State) (lap : Nat) : State :=
  let taps := s.cfg.active.taps
  let s := s.forEach taps (fun s k => s.publishTap k)
  let s := s.publishEvents
  let (lo, hi) := s.gmu.bounds
  let s := s.forEach (List.range 8) (fun s o => s.pmuReports o lo hi)
  let late := taps.any (fun k => !(s.gmu.tap.at k).closing.isEmpty)
  let s := if late then s.raise 180 0 else s
  let s := { s with gmu := { s.gmu with bounds := (hi, s.time.dev) } }
  s.forEach taps (fun s k => s.closeLap k lap)

end Sys2Proof.Machine
end

