-- ==== Sys2Proof/Machine/GridCmds.lean ====
section
/-! DEFINITION. The commands of the Grid Measurement Unit (R303 to R308, R311, R324, R328). -/
namespace Sys2Proof.Machine

/-- A copy may enter: its tail has passed and its verdict, if it carries an association, is known (R303). -/
def Packet.gmuReady (p : Packet) : Bool :=
  p.ended && (decide (p.stage = .released) || decide (p.stage = .anchor)) && p.bench.isNone && !p.hmac && p.hbuf.isNone && decide (p.verdict ≠ .pending)

/-- A frame that R60 would discard: its FCS, a codeword, a cut or its length. -/
def Packet.r60 (p : Packet) : Bool := p.bad || !p.rx.fcsOk || p.rx.codeword || p.rx.cut

/-- What becomes of a copy of a tap. -/
def State.gmuCopy (s : State) (k n : Nat) : State :=
  let b := s.cfg.active
  let p := s.pkt.at n
  if !b.on P.tapEnable k then s
  else if p.r60 then s.count Stat.gmuRxErrors k
  else if b.on P.requirePass k && decide (p.verdict ≠ .pass) then s.count Stat.gmuUnverified k
  else match p.samples (b.getN P.channels k) with
  | none => s.count Stat.gmuParseErrors k
  | some (sim, l) =>
    if l.any (fun a => decide (b.smpHz k ≤ a.cnt)) then s.count Stat.gmuParseErrors k
    else if sim && !b.on P.simMode k then s.count Stat.svSimulated k
    else s.forEach l (fun s a => s.sample k s.time.dev sim a)

/-- GMU_COPY_ENTRY: the oldest copy that may enter leaves the input queue. -/
def State.copyEntry (s : State) : State :=
  match s.gmu.queue.find? (fun e => (s.pkt.at e.2).gmuReady) with
  | none => s
  | some (k, n) =>
    let s := s.gmuCopy k n
    let s := { s with gmu := { s.gmu with queue := s.gmu.queue.filter (fun e => e.2 != n) } }
    s.reap n

def execGmuCopyEntry (s : State) : Host.Outcome State Fault Refusal := runs (fun s => s.copyEntry) s

/-- STREAM_LOST: no sample has been used for LOSS_US (R308). -/
def State.streamLost (s : State) (k : Nat) : State :=
  let t := s.gmu.tap.at k
  if s.parOn P.tapEnable k && !t.lost && decide (t.lastUsed + s.par P.lossUs k * 1000 ≤ s.time.mono) then
    s.updTap k (fun t => { t.restart with lost := true, ch := t.ch.mapAll (fun _ h => { pts := { t := s.time.dev } :: h.pts }) })
  else s

def execStreamLost (tap : Nat) (s : State) : Host.Outcome State Fault Refusal := runs (fun s => s.streamLost tap) s

/-- GMU_FINISH. -/
def execGmuFinish (tap : Nat) (s : State) : Host.Outcome State Fault Refusal := runs (fun s => s.finish tap) s

/-- CAPTURE_POST_END: a capture reaches its post end; its record, and its interrupt if the trigger had one (R324). -/
def State.postEnd (s : State) (i : Nat) : State :=
  let c := s.gmu.capture.at i
  if c.held && !c.complete && decide (c.stop ≤ s.time.dev) then
    let s := { s with gmu := { s.gmu with capture := s.gmu.capture.put i { c with complete := true } } }
    let inst := s.par P.tapInstance (s.cfg.active.trigTap c.trig)
    let s := s.ruleEvent 324 c.trig 1 [i] inst
    if c.intr then s.cause inst 2 else s
  else s

def execCapturePostEnd (capture : Nat) (s : State) : Host.Outcome State Fault Refusal := runs (fun s => s.postEnd capture) s

/-- PMU_CFG_SEND: at enable, at each commit that changes the output, and every PMU_CFG_S. -/
def State.cfgSend (s : State) (o : Nat) : State :=
  let u := s.gmu.pmu.at o
  if decide (o < 8) && s.parOn P.pmuEnable o && (!u.sentCfg || decide (u.lastCfg + 1000000000 * s.par P.pmuCfgS o ≤ s.time.mono)) then s.pmuCfg o else s

def execPmuCfgSend (output : Nat) (s : State) : Host.Outcome State Fault Refusal := runs (fun s => s.cfgSend output) s

end Sys2Proof.Machine
end

