-- ==== Sys2Proof/Machine/Fabric.lean ====
section
/-! DEFINITION. The relay fabric: identity, hellos, link states, path sets, the fabric scheduler, credit and the Anchor (R329 to R345). -/
namespace Sys2Proof.Machine

/-- Changes the fabric state. -/
def State.updFab (s : State) (f : Fabric → Fabric) : State := { s with fab := f s.fab }

/-! ### Control frames (R331, R333) -/

/-- A control frame as it leaves a relay port: header, payload padded to the shortest relay frame of 80 B with its FCS (R77). Its
header carries the device's ID, SEQ 0 and the hop limit. (DEDUCED, entry 82.) -/
def State.controlFrame (s : State) (dst type : Nat) (payload : List Byte) : List Byte :=
  let h := relayHeader s.fab.id dst 0 0 (s.par P.hopLimit) 0 type (payload.length + 4)
  let l := h ++ payload
  l ++ List.replicate (76 - l.length) 0#8

/-- Sends a control frame on a relay port, ahead of every data frame. (DEDUCED, entry 82.) -/
def State.sendControl (s : State) (port : Nat) (l : List Byte) : State := s.emit (.relay port 8 (l ++ leBytes 4 (crc32 l)))

/-- A control frame of a type is accepted at a port: its header is good (counted otherwise), the port is UP and the fabric is in
service. `bytes`: from the relay header. -/
def State.controlOk (s : State) (port type : Nat) (bytes : List Byte) : State × Bool :=
  if !s.parOn P.fabricEnable || !s.parOn P.portRole port || !s.isUp port then (s, false)
  else if !s.relayHeaderOk bytes then (s.count Stat.relayHdrErrors, false)
  else (s, H.type.get (beAt bytes 0 16) == type)

/-- DEVICE_SERIAL. -/
def serialNo : Nat := Config.deviceSerial.toNat

/-! ### Identity (R330) -/

/-- A device in the database with a lower DEVICE_SERIAL holds this ID. -/
def State.idTaken (s : State) : Bool :=
  let l := s.fab.lsdb.at s.fab.id
  l.present && decide (l.serial < serialNo)

/-- The database shows this device's ID from another device. -/
def State.idConflict (s : State) : Bool :=
  let l := s.fab.lsdb.at s.fab.id
  l.present && decide (l.serial ≠ serialNo)

/-- A conflict of IDs that was not there before is an event of source 191 (R330, R460). (DEDUCED, entry 40.) -/
def State.noteConflict (s : State) (before : Bool) : State :=
  if !before && s.idConflict then s.raise 191 0 else s

/-- Under DISCOVER, an ID held by a device with a lower serial gives way to the next one the database does not hold, which is
announced. -/
def State.yieldId (s : State) : State :=
  if s.par P.idMode = 1 ∧ s.idTaken then
    let id := (firstFrom 4096 (s.fab.id + 1) (fun i => !(s.fab.lsdb.at i).present)).getD s.fab.id
    (s.updFab (fun f => { f with id := id, settled := false, calm := 0, lsaDue := true })).ruleEvent 330 id 1
  else s

/-- The ID under ID_MODE: DEVICE_ID, or the CRC-32C of DEVICE_SERIAL under FABRIC_SEED, which is a proposal. A change is recorded. -/
def State.proposeId (s : State) : State :=
  let fixed := s.par P.idMode == 0
  let id := if fixed then s.par P.deviceId else crc32cFrom (s.par P.fabricSeed) (beBytes 8 serialNo) % 4096
  let r := s.updFab (fun f => { f with id := id, settled := fixed, calm := 0 })
  let r := (if id = s.fab.id then r else r.ruleEvent 330 id 1).noteConflict false
  if fixed then r else r.yieldId

/-- ID_SETTLE: no conflict for 4 consecutive laps. -/
def State.settleId (s : State) : State :=
  if s.parOn P.fabricEnable && decide (s.par P.idMode = 1) && !s.fab.settled && decide (4 ≤ s.fab.calm) && !s.idConflict then
    (s.updFab (fun f => { f with settled := true })).ruleEvent 330 s.fab.id 0
  else s

def execIdSettle (s : State) : Host.Outcome State Fault Refusal := runs (fun s => s.settleId) s

/-! ### Hellos and adjacencies (R333, R335) -/

/-- Payload of a HELLO. -/
def State.helloPayload (s : State) (port : Nat) : List Byte :=
  beBytes 4 (s.par P.fabricId) ++ beBytes 8 serialNo ++ beBytes 4 s.fab.nonce ++ beBytes 2 port ++ beBytes 2 (s.cfg.active.rate port)
    ++ List.replicate 44 0#8

/-- At a boundary, a HELLO goes out on every relay port that is UP. -/
def State.helloSend (s : State) : State :=
  if !s.parOn P.fabricEnable then s else
    s.forEach (s.port.keys.filter (fun p => s.parOn P.portRole p && s.isUp p)) (fun s p =>
      s.sendControl p (s.controlFrame 0 1 (s.helloPayload p)))

/-- HELLO_RECEIVE: an equal FABRIC_ID forms or refreshes the adjacency; another one forms none, is recorded, and is an event of
source 191 (R460). (DEDUCED, entry 40.) (DEDUCED, entry 82). -/
def State.hello (s : State) (port : Nat) (bytes : List Byte) : State :=
  match s.controlOk port 1 bytes with
  | (s, false) => s
  | (s, true) =>
    let body := bytes.drop 16
    if body.length < 20 then s
    else if beAt body 0 4 ≠ s.par P.fabricId then (s.ruleEvent 333 port 0 [beAt body 0 4]).raise 191 0
    else
      let a := s.fab.adj.at port
      let n : Adjacency := { up := true, peer := H.src.get (beAt bytes 0 16), serial := beAt body 4 8, nonce := beAt body 12 4 }
      let changed := !a.up || a.peer != n.peer || a.serial != n.serial
      s.updFab (fun f => { f with adj := f.adj.put port n, lsaDue := f.lsaDue || changed, stale := f.stale || changed })

def execHelloReceive (port : Nat) (bytes : List Byte) (s : State) : Host.Outcome State Fault Refusal := runs (fun s => s.hello port bytes) s

/-- HELLO_MISS_EXPIRE: the adjacency ends with reroute. -/
def State.helloMiss (s : State) (port : Nat) : State :=
  let a := s.fab.adj.at port
  if a.up && decide (s.par P.helloMiss ≤ a.miss) then s.relayDown port false else s

def execHelloMissExpire (port : Nat) (s : State) : Host.Outcome State Fault Refusal := runs (fun s => s.helloMiss port) s

/-! ### Link states (R333) -/

/-- Ports with an adjacency. -/
def State.adjacent (s : State) : List Nat := (s.fab.adj.filter (fun e => e.2.up)).map (·.1)

/-- Speed code of an LSA entry. -/
def speedCode (gbps : Nat) : Nat := if gbps ≤ 100 then 0 else if gbps ≤ 200 then 1 else if gbps ≤ 400 then 2 else 3

/-- The entries of this device's LSA. -/
def State.lsaEntries (s : State) : List Nat :=
  s.adjacent.map (fun p => (s.fab.adj.at p).peer * 2 ^ 20 + p * 2 ^ 11 + speedCode (s.cfg.active.rate p) * 2 ^ 8 + s.par P.relayCost p)

/-- The payload of this device's LSA. -/
def State.lsaBody (s : State) : List Byte :=
  beBytes 4 (s.par P.fabricId) ++ beBytes 8 serialNo ++ beBytes 4 s.fab.nonce ++ beBytes 4 s.fab.lsaSeq ++ beBytes 2 s.lsaEntries.length
    ++ s.lsaEntries.flatMap (beBytes 4)

/-- LSA_SEND: on a change of adjacencies, and at least once per second. -/
def State.sendLsa (s : State) : State :=
  if s.parOn P.fabricEnable && (s.fab.lsaDue || decide (s.fab.lsaAt + 1000000000 ≤ s.time.mono)) then
    let s := s.updFab (fun f => { f with lsaSeq := (f.lsaSeq + 1) % 2 ^ 32, lsaDue := false, lsaAt := s.time.mono })
    let body := s.lsaBody
    s.forEach s.adjacent (fun s p => s.sendControl p (s.controlFrame 0 3 body))
  else s

def execLsaSend (s : State) : Host.Outcome State Fault Refusal := runs (fun s => s.sendLsa) s

/-- A packet of the Anchor returns its cells to the credit of its source (R341). -/
def State.returnCells (s : State) (x cells : Nat) : State :=
  s.updFab (fun f => { f with returned := f.returned.upd x (fun v => (v + cells) % 2 ^ 24) })

/-- Changes an Anchor context. -/
def State.updAnchor (s : State) (x : Nat) (g : Anchor → Anchor) : State := s.updFab (fun f => { f with anchor := f.anchor.upd x g })

/-- Cells of a packet that the Anchor counts: those of its relay frame (R186). -/
def State.anchorCells (s : State) (n : Nat) : Nat := cellsFor (s.lengthOf (s.pkt.at n)).1 true

/-- A held packet leaves its window: its cells leave the Anchor count. -/
def State.unhold (s : State) (h : Held) : State :=
  let p := s.pkt.at h.pkt
  let q := quadOf p.port
  let s := { s with buf := { s.buf with anchorOcc := s.buf.anchorOcc.upd q (· - h.store.length) } }
  (s.giveBack p.inst none h.drawn).pfcQuad q

/-- The Anchor passes a packet on: it takes its ORDER_STAMP and asks for its egress queue. A packet discarded meanwhile is freed, and one
that has stayed 1.0 s is discarded (R43, R342). -/
def State.passOn (s : State) (x n : Nat) : State :=
  let p := s.pkt.at n
  let s := s.returnCells x (s.anchorCells n)
  if p.stage ≠ .anchor then s.reap n
  else if residenceCap ≤ s.residence p.arrived then (s.count Stat.residenceCapDrops).drop n
  else
    let rx := p.arrived % 2 ^ 32
    let stamp := match (s.fab.anchor.at x).lastStamp with
      | some l => let t := (l + 1) % 2 ^ 32; if later 32 t rx then t else rx
      | none => rx
    let s := s.updAnchor x (fun a => { a with lastStamp := some stamp })
    let s := s.updPkt n (fun p => { p with relaySrc := p.relaySrc.map (fun r => (r.1, r.2.1, stamp)) })
    s.stage7 n

/-- Passes a held packet on: it starts only after its tail (R345). -/
def State.passHeld (s : State) (x : Nat) (h : Held) : State :=
  let s := s.updAnchor x (fun a => { a with held := a.held.filter (fun g => g.pkt != h.pkt) })
  ((s.unhold h).updPkt h.pkt (fun p => { p with whole := true })).passOn x h.pkt

/-- advance(x) of R343; packets held under one number are passed in order of arrival. (DEDUCED, entry 123.) -/
def State.advance : Nat → State → Nat → State
  | 0, s, _ => s
  | k + 1, s, x =>
    let a := s.fab.anchor.at x
    match a.held.find? (fun h => h.seq == a.expect) with
    | some h => State.advance k ((s.passHeld x h).updAnchor x (fun b =>
        if b.held.any (fun g => g.seq == a.expect) then b
        else { b with expect := (b.expect + 1) % 2 ^ 20, lost := b.lost.filter (· != a.expect) })) x
    | none =>
      if a.lost.contains a.expect then
        State.advance k (s.updAnchor x (fun b => { b with expect := (b.expect + 1) % 2 ^ 20, lost := b.lost.filter (· != a.expect) })) x
      else s

/-- advance(x) as far as it goes. -/
def State.advanceAll (s : State) (x : Nat) : State :=
  State.advance ((s.fab.anchor.at x).held.length + (s.fab.anchor.at x).lost.length) s x

/-- Distance of a sequence number from EXPECT. -/
def Anchor.ahead (a : Anchor) (seq : Nat) : Nat := (seq + 2 ^ 20 - a.expect) % 2 ^ 20

/-- Passes on the held packets below a distance in sequence order. (DEDUCED, entry 83.) -/
def State.passUpTo : Nat → State → Nat → Nat → Nat → State
  | 0, s, _, _, _ => s
  | k + 1, s, x, e, d =>
    let a := s.fab.anchor.at x
    let off := fun (h : Held) => (h.seq + 2 ^ 20 - e) % 2 ^ 20
    match (a.held.filter (fun h => decide (off h ≤ d))).foldl (fun best h => match best with
        | some g => if off h < off g then some h else some g
        | none => some h) none with
    | some h => State.passUpTo k (s.passHeld x h) x e d
    | none => s

/-- release_through(x, seq) of R343: every missing number up to seq is lost; the numbers newly lost. (DEDUCED, entry 83.) -/
def State.releaseThrough (s : State) (x seq : Nat) : State × Nat :=
  let a := s.fab.anchor.at x
  let d := a.ahead seq
  let below := fun (n : Nat) => decide (a.ahead n ≤ d)
  let missing := d + 1 - (a.held.filter (fun h => below h.seq)).length - (a.lost.filter below).length
  let s := State.passUpTo a.held.length s x a.expect d
  let s := s.updAnchor x (fun b => { b with expect := (seq + 1) % 2 ^ 20, lost := b.lost.filter (fun n => !below n) })
  (s.advanceAll x, missing)

/-- A context becomes unsynchronised; what it holds is passed on in order first. (DEDUCED, entry 83.) -/
def State.unsync (s : State) (x : Nat) : State :=
  let a := s.fab.anchor.at x
  let far := (a.held.map (fun h => a.ahead h.seq)).foldl max 0
  let s := State.passUpTo a.held.length s x a.expect far
  s.updAnchor x (fun a => { a with sync := false, lost := [] })

/-- A destination that appears for the first time, or whose BOOT_NONCE changes: full credit, sequence numbers from 0; with a new nonce its
counts start again and its contexts lose synchronism (R341, R342). -/
def State.newDevice (s : State) (d : Nat) (nonce : Bool) : State :=
  let s := s.forEach (List.range 8) (fun s k => s.updFab (fun f => { f with
    credit := f.credit.put (8 * d + k) (s.par P.creditInit k), seqctr := f.seqctr.del (8 * d + k)
    lastCum := if nonce then f.lastCum.del (8 * d + k) else f.lastCum }))
  if nonce then s.forEach (List.range 8) (fun s k => s.unsync (8 * d + k)) else s

/-- LSA_RECEIVE: a newer LSA is stored and flooded to every other adjacency. (DEDUCED, entry 82.) -/
def State.lsa (s : State) (port : Nat) (bytes : List Byte) : State :=
  match s.controlOk port 3 bytes with
  | (s, false) => s
  | (s, true) =>
    let body := bytes.drop 16
    let d := H.src.get (beAt bytes 0 16)
    let serial := beAt body 4 8
    let nonce := beAt body 12 4
    let seq := beAt body 16 4
    let n := beAt body 20 2
    let old := s.fab.lsdb.at d
    let before := s.idConflict
    if !(s.fab.adj.at port).up || body.length < 22 + 4 * n || 512 < n || beAt body 0 4 != s.par P.fabricId || serial == serialNo then s
    else if !(!old.present || later 32 seq old.seq || nonce != old.nonce) then s
    else
      let entries := (List.range n).map (fun i => beAt body (22 + 4 * i) 4)
      let s := if !s.fab.lsdb.keys.contains d || nonce != old.nonce then s.newDevice d (nonce != old.nonce) else s
      let s := s.updFab (fun f => { f with
        lsdb := f.lsdb.put d { present := true, serial := serial, nonce := nonce, seq := seq, entries := entries, at_ := s.time.mono }
        stale := f.stale || !old.present || old.entries != entries })
      let s := s.forEach (s.adjacent.filter (· != port)) (fun s p => s.sendControl p (bytes.take (22 + 4 * n + 16) ++ List.replicate (76 - (22 + 4 * n + 16)) 0#8))
      (s.noteConflict before).yieldId

def execLsaReceive (port : Nat) (bytes : List Byte) (s : State) : Host.Outcome State Fault Refusal := runs (fun s => s.lsa port bytes) s

/-- LSA_AGE_OUT: an LSA not refreshed for 3 s is removed; its nonce and sequence number stay known. -/
def State.lsaAge (s : State) (d : Nat) : State :=
  let l := s.fab.lsdb.at d
  if l.present && decide (l.at_ + 3000000000 ≤ s.time.mono) then
    s.updFab (fun f => { f with lsdb := f.lsdb.put d { l with present := false, entries := [] }, stale := true })
  else s

def execLsaAgeOut (device : Nat) (s : State) : Host.Outcome State Fault Refusal := runs (fun s => s.lsaAge device) s

/-! ### Path sets (R334) -/

/-- Links of the fabric: from, to, cost. -/
def State.links (s : State) : List (Nat × Nat × Nat) :=
  s.adjacent.map (fun p => (s.fab.id, (s.fab.adj.at p).peer, s.par P.relayCost p))
    ++ ((s.fab.lsdb.filter (fun e => e.2.present && e.1 != s.fab.id)).flatMap (fun e =>
      e.2.entries.map (fun w => (e.1, bits w 20 12, bits w 0 8))))

/-- One round of relaxation: distance + 1 to the destination by device, 0 where none is known. -/
def relax (links : List (Nat × Nat × Nat)) (dist : Tab Nat) : Tab Nat :=
  links.foldl (fun t l =>
    let via := dist.at l.2.1
    if via = 0 then t else
      let d := via + l.2.2
      if t.at l.1 = 0 ∨ d < t.at l.1 then Tab.put t l.1 d else t) dist

/-- n rounds. -/
def relaxN (links : List (Nat × Nat × Nat)) : Nat → Tab Nat → Tab Nat
  | 0, t => t
  | n + 1, t => relaxN links n (relax links t)

/-- The path set of a destination: ports that begin a least-cost path, of the highest speed among them, at most 64 by number. -/
def State.pathSet (s : State) (links : List (Nat × Nat × Nat)) (rounds d : Nat) : List Nat :=
  let dist := relaxN links rounds [(d, 1)]
  let cost := fun (p : Nat) => let v := dist.at (s.fab.adj.at p).peer; if v = 0 then none else some (v + s.par P.relayCost p)
  let costs := s.adjacent.filterMap cost
  match costs with
  | [] => []
  | c :: cs =>
    let best := cs.foldl min c
    let l := s.adjacent.filter (fun p => cost p == some best)
    let speed := (l.map (fun p => s.cfg.active.rate p)).foldl max 0
    (l.filter (fun p => s.cfg.active.rate p == speed)).take 64

/-- PATHSET_INSTALL. -/
def State.installPaths (s : State) : State :=
  if !s.parOn P.fabricEnable || s.pacer.down || !s.fab.stale then s else
    let dests := (s.fab.lsdb.filter (fun e => e.2.present && e.1 != s.fab.id)).map (·.1)
    let links := s.links
    let path := dests.foldl (fun t d => Tab.put t d (s.pathSet links (dests.length + 1) d)) ([] : Tab (List Nat))
    s.updFab (fun f => { f with path := path, stale := false
                                blocked := f.blocked.filter (fun v => (path.at (v / 8)).all (fun p =>
                                  decide (s.par P.relayTxqDepth ≤ (f.txfifo.at (8 * p + v % 8)).length))) })

def execPathsetInstall (s : State) : Host.Outcome State Fault Refusal := runs (fun s => s.installPaths) s

/-! ### The fabric scheduler (R338, R339) -/

/-- Destinations of a relay class with a waiting frame, rising. -/
def State.voqDests (s : State) (rc : Nat) : List Nat :=
  let l := (s.buf.sub.filter (fun e => decide (8192 ≤ e.1 / 4) && e.1 / 4 % 8 == rc && e.2.first.isSome)).map (fun e => (e.1 / 4 - 8192) / 8)
  l.foldr (fun d acc => if acc.head? = some d then acc else d :: acc) []

/-- A VOQ is eligible: its head frame's need is covered by credit, it does not wait for a FIFO, and the device's ID is settled (R330, R338);
frames without a path are taken to be discarded (R337). -/
def State.voqOk (s : State) (v : Nat) : Bool :=
  match s.queueHead (8192 + v) with
  | some k =>
    let c := s.cpy.at k
    !s.fab.blocked.contains v && (c.transit || decide (c.cells ≤ s.fab.credit.at v)) && (s.fab.settled || (s.fab.path.at (v / 8)).isEmpty)
  | none => false

/-- The VOQ of a class that comes next by destination. -/
def State.voqOf (s : State) (rc : Nat) : Option Nat :=
  let l := (s.voqDests rc).filter (fun d => s.voqOk (8 * d + rc))
  ((l.find? (fun d => decide (s.fab.rr.at rc ≤ d))).or l.head?).map (fun d => 8 * d + rc)

/-- The VOQ that R338 selects. -/
def State.nextVoq (s : State) : Option Nat :=
  match ((List.range 8).map (7 - ·)).find? (fun rc => s.par P.relaySched rc == 0 && (s.voqOf rc).isSome) with
  | some rc => s.voqOf rc
  | none =>
    match s.fab.active.find? (fun rc => s.par P.relaySched rc == 1 && (s.voqOf rc).isSome) with
    | some rc => s.voqOf rc
    | none => none

/-- The member of a path set whose FIFO takes the frame, with the pointer after it. (DEDUCED, entry 120.) -/
def State.sprayTo (s : State) (set : List Nat) (rc : Nat) : Nat → Nat → Option Nat × Nat
  | 0, ptr => (none, ptr)
  | n + 1, ptr =>
    let m := set.getD (ptr % set.length) 0
    if (s.fab.txfifo.at (8 * m + rc)).length < s.par P.relayTxqDepth then (some m, ptr + 1) else s.sprayTo set rc n (ptr + 1)

/-- A frame leaves its VOQ; its cells stay in its quadrant (R340). -/
def State.leaveVoq (s : State) (k : Nat) : State :=
  let c := s.cpy.at k
  s.updSub c.queue c.quad (fun q => { q with head := q.head.filter (· != k), middle := q.middle.filter (· != k), tail := q.tail.filter (· != k) })

/-- The deficit of a relay class under DRR after it has sent. -/
def State.relayDeficit (s : State) (rc : Nat) : State :=
  if s.par P.relaySched rc = 0 then s else
    let dc := (if s.fab.dc.at rc = 0 then s.par P.relayQuantum rc else s.fab.dc.at rc) - 1
    let s := s.updFab (fun f => { f with dc := f.dc.put rc dc })
    if dc = 0 then s.updFab (fun f => { f with active := f.active.filter (· != rc) ++ [rc] }) else s

/-- A frame of a VOQ goes to the FIFO of a relay port: a frame of this device takes the next sequence number and its credit (R339,
R341). -/
def State.sprayFrame (s : State) (v k m : Nat) : State :=
  let rc := v % 8
  let c := s.cpy.at k
  let seq := s.fab.seqctr.at v
  let s := if c.transit then s else s.updFab (fun f => { f with
    seqctr := f.seqctr.put v ((seq + 1) % 2 ^ 20), credit := f.credit.upd v (· - c.cells) })
  let s := (s.leaveVoq k).updCpy k (fun c => { c with place := .txfifo, rport := m, seq := if c.transit then c.seq else seq })
  let s := s.updFab (fun f => { f with txfifo := f.txfifo.upd (8 * m + rc) (· ++ [k]) })
  (s.relayDeficit rc).drrDrop (8192 + v)

/-- VOQ_SELECT: the head frame of the selected VOQ is sprayed; one that has stayed 1.0 s is discarded as it is taken (R43).
(DEDUCED, entry 120.) -/
def State.selectVoq (s : State) : State :=
  match s.nextVoq with
  | none => s
  | some v =>
    match s.queueHead (8192 + v) with
    | none => s
    | some k =>
      if s.tooOld k then s.dropOld k else
      let rc := v % 8
      let s := s.updFab (fun f => { f with rr := f.rr.put rc (v / 8 + 1) })
      let set := s.fab.path.at (v / 8)
      if set.isEmpty then (s.count Stat.fabricUnreachable).endCopy k
      else
        match s.sprayTo set rc set.length (s.fab.ptr.at v) with
        | (none, ptr) => ((s.updFab (fun f => { f with ptr := f.ptr.put v ptr })).count Stat.sprayBlocked).updFab (fun f => { f with blocked := f.blocked ++ [v] })
        | (some m, ptr) => (s.updFab (fun f => { f with ptr := f.ptr.put v ptr })).sprayFrame v k m

def execVoqSelect (s : State) : Host.Outcome State Fault Refusal := runs (fun s => s.selectVoq) s

/-! ### Credit (R341) -/

/-- A control frame toward a device leaves on the first member of its path set. -/
def State.routeControl (s : State) (d : Nat) (l : List Byte) : State :=
  match s.fab.path.at d with
  | p :: _ => s.sendControl p l
  | [] => s.count Stat.fabricUnreachable

/-- CREDIT_SEND: the classes whose counts have changed. -/
def State.sendCredit (s : State) (d : Nat) : State :=
  let due := (List.range 8).filter (fun k => s.fab.returned.at (8 * d + k) != s.fab.sent.at (8 * d + k))
  if s.parOn P.fabricEnable && s.fab.settled && !due.isEmpty && decide (s.fab.creditAt.at d ≤ s.time.mono) && !(s.fab.path.at d).isEmpty then
    let s := s.routeControl d (s.controlFrame d 2 (due.flatMap (fun k => beBytes 4 (k * 2 ^ 29 + s.fab.returned.at (8 * d + k)))))
    s.updFab (fun f => { f with
      sent := due.foldl (fun t k => Tab.put t (8 * d + k) (f.returned.at (8 * d + k))) f.sent
      creditAt := f.creditAt.put d (s.time.mono + s.par P.creditInterval) })
  else s

def execCreditSend (source : Nat) (s : State) : Host.Outcome State Fault Refusal := runs (fun s => s.sendCredit source) s

/-- One entry of a CREDIT frame from a destination: credit never exceeds CREDIT_INIT. -/
def State.addCredit (s : State) (v cum : Nat) : State × Bool :=
  let add := (cum + 2 ^ 24 - s.fab.lastCum.at v) % 2 ^ 24
  let top := s.par P.creditInit (v % 8)
  let sum := s.fab.credit.at v + add
  (s.updFab (fun f => { f with credit := f.credit.put v (min top sum), lastCum := f.lastCum.put v cum }), decide (top < sum))

/-- CREDIT_RECEIVE: for this device, or on its way to another, with one hop less. (DEDUCED, entry 82.) -/
def State.creditIn (s : State) (port : Nat) (bytes : List Byte) : State :=
  match s.controlOk port 2 bytes with
  | (s, false) => s
  | (s, true) =>
    let h := beAt bytes 0 16
    let n := min 8 ((H.len.get h - 4) / 4)
    let body := bytes.drop 16
    if !s.fab.settled then s
    else if H.dst.get h ≠ s.fab.id then
      (if H.hops.get h ≤ 1 then s.count Stat.relayHopDrops
       else s.routeControl (H.dst.get h) (relayHeader (H.src.get h) (H.dst.get h) (H.rclass.get h) (H.seq.get h) (H.hops.get h - 1) (H.inst.get h) 2 (H.len.get h)
          ++ body.take (max 60 (H.len.get h - 4))))
    else
      let r := (List.range n).foldl (fun (a : State × Bool) i =>
        let w := beAt body (4 * i) 4
        let (s, excess) := a.1.addCredit (8 * H.src.get h + w / 2 ^ 29) (w % 2 ^ 24)
        (s, a.2 || excess)) (s, false)
      if r.2 then r.1.count Stat.creditErrors else r.1

def execCreditReceive (port : Nat) (bytes : List Byte) (s : State) : Host.Outcome State Fault Refusal := runs (fun s => s.creditIn port bytes) s

/-! ### The Anchor (R342 to R345) -/

/-- Packets held for a source, and on the whole device. -/
def State.heldOf (s : State) (src : Nat) : Nat := ((List.range 8).map (fun k => (s.fab.anchor.at (8 * src + k)).held.length)).sum
def State.heldAll (s : State) : Nat := (s.fab.anchor.map (fun e => e.2.held.length)).sum

/-- The Anchor discards a packet. -/
def State.anchorDrop (s : State) (x n : Nat) : State := (s.returnCells x (s.anchorCells n)).drop n

/-- The held packet with the lowest number. -/
def Anchor.lowest (a : Anchor) : Option Held :=
  a.held.foldl (fun best h => match best with
    | some g => if a.ahead h.seq < a.ahead g.seq then some h else some g
    | none => some h) none

/-- A packet ahead of EXPECT is held, or is discarded and its number lost. -/
def State.holdPacket (s : State) (x n seq : Nat) : State :=
  let p := s.pkt.at n
  let q := quadOf p.port
  let cells := s.anchorCells n
  let a := s.admitCells q p.inst cells (s.buf.anchorOcc.at q) (s.par P.anchorReserve q) (s.parI P.anchorAlphaK) (M.colour.get p.md) none none
  let room := decide (s.heldOf (x / 8) < 65536) && decide (s.heldAll < 262144)
  match (if room then a else .full) with
  | .ok above _ =>
    let h : Held := { pkt := n, seq := seq, at_ := s.time.mono, store := s.moreCells q cells [], drawn := above }
    let s := (s.drawn.instDraw p.inst above).updAnchor x (fun a => { a with held := a.held ++ [h] })
    ({ s with buf := { s.buf with anchorOcc := s.buf.anchorOcc.upd q (· + cells) } }).pfcQuad q
  | a =>
    let s := if a = .share then (s.count Stat.instShareDrops p.inst).raise (256 + p.inst) 0 p.protect else s
    (((s.updAnchor x (fun a => { a with lost := a.lost ++ [seq] })).count Stat.anchorAdmitDrops).anchorDrop x n).advanceAll x

/-- R343 for a packet of a synchronised context: passed, held or discarded. (DEDUCED, entry 83.) -/
def State.anchorPlace (s : State) (x n seq : Nat) : State :=
  let a := s.fab.anchor.at x
  if seq = a.expect then
    ((s.passOn x n).updAnchor x (fun a => { a with expect := (a.expect + 1) % 2 ^ 20 })).advanceAll x
  else s.holdPacket x n seq

/-- ANCHOR_ARRIVAL: a DATA packet for this device reaches the context of its source and relay class. -/
def State.anchorIn (s : State) (n : Nat) : State :=
  let p := s.pkt.at n
  match p.relaySrc with
  | none => s
  | some (src, seq, _) =>
    let x := 8 * src + p.relayField H.rclass
    if p.live = false ∨ p.stage ≠ .anchor ∨ (s.fab.anchor.at x).held.any (fun h => h.pkt == n) then s else
      let s := if (s.fab.anchor.at x).sync then s else s.updAnchor x (fun a => { a with sync := true, expect := seq, lost := [] })
      let s := s.updAnchor x (fun a => { a with lastArrival := s.time.mono })
      let d := (s.fab.anchor.at x).ahead seq
      if 2 ^ 19 ≤ d then (s.count Stat.anchorLateDrops).anchorDrop x n
      else
        let s := if 65536 ≤ d then ((s.releaseThrough x ((seq + 2 ^ 20 - 65536) % 2 ^ 20)).1).count Stat.anchorForced else s
        let full := decide (65536 ≤ s.heldOf src) || decide (262144 ≤ s.heldAll)
        let s := if seq ≠ (s.fab.anchor.at x).expect ∧ full then
            match (s.fab.anchor.at x).lowest with
            | some h => (s.releaseThrough x h.seq).1
            | none => s
          else s
        if 2 ^ 19 ≤ (s.fab.anchor.at x).ahead seq then (s.count Stat.anchorLateDrops).anchorDrop x n else s.anchorPlace x n seq

def execAnchorArrival (pkt : Nat) (s : State) : Host.Outcome State Fault Refusal := runs (fun s => s.anchorIn pkt) s

/-- ANCHOR_TIMEOUT: the oldest packet has been held for REORDER_TIMEOUT; the gaps below it are lost (R344). -/
def State.anchorTimeout (s : State) (x : Nat) : State :=
  match (s.fab.anchor.at x).held with
  | [] => s
  | h :: _ =>
    if h.at_ + s.par P.reorderTimeout * 1000 ≤ s.time.mono then
      let r := s.releaseThrough x h.seq
      r.1.count Stat.anchorGapsLost 0 r.2
    else s

def execAnchorTimeout (source rclass : Nat) (s : State) : Host.Outcome State Fault Refusal := runs (fun s => s.anchorTimeout (8 * source + rclass % 8)) s

/-- ANCHOR_CONTEXT_IDLE: 1 s without an arrival (R342). (DEDUCED, entry 123.) -/
def State.anchorIdle (s : State) (x : Nat) : State :=
  let a := s.fab.anchor.at x
  if a.sync && decide (a.lastArrival + 1000000000 ≤ s.time.mono) then s.unsync x else s

def execAnchorContextIdle (source rclass : Nat) (s : State) : Host.Outcome State Fault Refusal := runs (fun s => s.anchorIdle (8 * source + rclass % 8)) s

end Sys2Proof.Machine
end

