-- ==== Sys2Proof/Machine/Hbm.lean ====
section
/-! DEFINITION. The HBM controller at work: the pick, bursts and write batches, refresh, power-down, the patrol scrub and what
an uncorrectable read leads to (R346 to R368). -/
namespace Sys2Proof.Machine

/-! ### Urgency and order (R351, R355) -/

/-- Urgency level of a request that has waited `ns` (R351). -/
def hbmLevel (rank ns : Nat) : Nat :=
  match hbmTarget rank with
  | none => 0
  | some t => if hbmRealTime rank && decide (2 * t ≤ ns) then 2 else if t ≤ ns then 1 else 0

/-- Level of a queued request. -/
def State.levelOf (s : State) (r : HReq) : Nat := hbmLevel r.master (s.time.mono - r.at_)

/-- Two requests share a 64 B granule (R355). -/
def HReq.meets (a b : HReq) : Bool :=
  decide (a.addr / 64 * 64 < b.addr + b.bytes) && decide (b.addr / 64 * 64 < a.addr + a.bytes)

/-- Whether request `a` came before `b`. -/
def HReq.before (a b : HReq) : Bool := decide (a.at_ ≤ b.at_)

/-- Requests of a queue that have gone out and that R355 does not hold: a read behind an earlier write of its granule is held, and a write
behind an earlier read or write of its granule. -/
def Pc.free (c : Pc) (now : Nat) (write : Bool) : List HReq :=
  (if write then
    ((List.range c.writes.length).zip c.writes).filterMap (fun e =>
      if (c.reads.any (fun r => r.meets e.2 && decide (r.at_ < e.2.at_))) || (c.writes.take e.1).any (·.meets e.2) then none else some e.2)
  else c.reads.filter (fun r => !c.writes.any (fun w => w.meets r && w.before r))).filter (fun r => decide (r.at_ ≤ now))

/-! ### The pick (R352) -/

/-- The bank of an address. (DESIGN CHOICE, entry 11.) -/
def hbmBankOf (a : Nat) : Nat := (Config.hbmBank (a / 2048)).toNat

/-- The request taken of a list, oldest first, and the bank pointer after it. -/
def State.hbmChoose (s : State) (bank : Nat) (l : List HReq) : Option (HReq × Nat) :=
  let top := l.foldl (fun m r => max m (s.levelOf r)) 0
  if 1 ≤ top then
    ((List.range 10).findSome? (fun rank => l.find? (fun r => r.master == rank && s.levelOf r == top))).map (·, bank)
  else match l.find? (fun r => hbmRealTime r.master) with
    | some r => some (r, bank)
    | none =>
      (firstFrom 32 bank (fun b => l.any (fun r => hbmBankOf r.addr == b))).bind (fun b =>
        (l.find? (fun r => hbmBankOf r.addr == b)).map (·, (b + 1) % 32))

/-- Whether a write batch is in progress for the next command (R356): it starts with 48 writes, with no read queued, or for a late
read that is held on a write; it ends with 16 writes left or for a level 2 read that can be taken. (DEDUCED, entry 86.) -/
def State.hbmBatch (s : State) (c : Pc) : Bool :=
  let free := c.free s.time.mono false
  let urgent := free.any (fun r => s.levelOf r == 2)
  if c.writes.isEmpty || urgent then false
  else if c.batch && decide (16 < c.writes.length) then true
  else decide (48 ≤ c.writes.length) || c.reads.isEmpty
    || c.reads.any (fun r => decide (1 ≤ s.levelOf r) && !free.contains r)

/-! ### Uncorrectable reads (R367) -/

/-- What the requesting master meets; the write of a learn writeback is given up with its read. -/
def State.eccOutcome (s : State) (r : HReq) : State :=
  match r.master with
  | 1 => if s.sec.fills.any (fun f => f.slot == some r.tag && !f.read) then s.recordReturn false else s
  | 2 =>
    let c := s.cpy.at r.tag
    if c.live && !c.begun then (s.count Stat.bufferEccDrops).endCopy r.tag else s
  | 4 | 5 =>
    let ovf := decide (hbmStationOvf ≤ r.addr)
    let s := if r.master = 5 then s.updPc (pcOf r.addr) (fun c => match c.writes.find? (fun w => w.master == 5 && w.addr == r.addr && w.tag == r.tag) with
        | some w => { c with writes := c.writes.erase w }
        | none => c) else s
    s.forEach (bucketCells (if ovf then 3 else 2) 0 ((r.addr - (if ovf then hbmStationOvf else hbmStation)) / 64))
      (fun s c => s.parityError c false)
  | 7 => s.raise (172 + r.tag % 4) 0
  | 8 => s.hbmAsk 8 (r.addr / 64 * 64) 64 true r.tag
  | _ => s

/-- What the check of a read finds: 1 a corrected error, 2 an uncorrectable one, 3 an error the stack corrected itself. -/
def State.hbmChecked (s : State) (pc : Nat) (r : HReq) (ecc : Nat) : State :=
  if r.write then s else
    match ecc with
    | 1 => s.count Stat.hbmEccCorrected
    | 2 => (s.raise (160 + pc / 32) (pc % 32)).eccOutcome r
    | 3 => s.count Stat.hbmOndieCorrected
    | _ => s

/-! ### HBM_PICK -/

/-- The PC in normal operation. -/
def State.hpc (s : State) (pc : Nat) : Pc := s.hbm.pc.at pc

/-- At the end of a burst one postponed refresh is issued, unless a level 2 request waits (R359). (DEDUCED, entry 86.) -/
def State.burstEnd (s : State) (c : Pc) : Pc :=
  let late := (c.reads ++ c.writes).any (fun r => s.levelOf r == 2)
  if c.burst.isSome && decide (0 < c.debt) && !late then { c with burst := none, debt := c.debt - 1, busy := s.time.mono + 380, refEnd := s.time.mono + 380 }
  else { c with burst := none }

/-- A request is taken: its burst occupies the PC, after a turnaround when the direction changes (R349, R356). -/
def Pc.take (c : Pc) (now bank : Nat) (r : HReq) (batch : Bool) : Pc :=
  let turn := if c.lastWrite = r.write then 0 else 20
  let gone := fun l : List HReq => l.erase r
  { c with reads := if r.write then c.reads else gone c.reads, writes := if r.write then gone c.writes else c.writes
           bank := bank, batch := batch, lastWrite := r.write, burst := some r, busy := now + turn + ceilDiv r.bytes 32, idle := now }

/-- HBM_PICK: the PC ends the burst that is over, and then takes the request of R352 out of the queue it serves. (DEDUCED, entry 86.) -/
def State.pick (s : State) (pc ecc : Nat) : State :=
  let c := s.hpc pc
  if c.st ≠ 1 ∨ s.time.mono < c.busy then s else
    let c := s.burstEnd c
    if s.time.mono < c.busy then s.updPc pc (fun _ => c) else
      let batch := s.hbmBatch c
      match s.hbmChoose c.bank (c.free s.time.mono batch) with
      | none => s.updPc pc (fun _ => { c with batch := batch })
      | some (r, bank) => ((s.updPc pc (fun _ => c.take s.time.mono bank r batch)).hbmEnter pc).hbmChecked pc r ecc

def execHbmPick (pc ecc : Nat) (s : State) : Host.Outcome State Fault Refusal := runs (fun s => s.pick pc ecc) s

/-! ### Refresh (R357, R358) -/

/-- The end of the 64 B that the burst in progress is moving, at 32 B/ns (R358). -/
def Pc.splitAt (c : Pc) (now : Nat) : Nat := c.busy - (c.busy - now) / 2 * 2

/-- REFRESH_DUE: one made ahead of time already covers the interval; a real-time burst in progress postpones it or is split; else
it follows the command in progress. It wakes a PC in power-down (R361). (DEDUCED, entry 86.) -/
def State.refreshFalls (s : State) (pc : Nat) : State :=
  let c := s.hpc pc
  if (c.st ≠ 1 ∧ c.st ≠ 2) ∨ s.time.mono < c.refresh then s else
    let c := { c with st := 1, refresh := c.refresh + c.interval }
    if 0 < c.ahead then s.updPc pc (fun _ => { c with ahead := c.ahead - 1 })
    else if (c.burst.any (fun r => hbmRealTime r.master)) && decide (s.time.mono < c.busy) then
      if s.par P.refPostponeMax ≤ c.debt + 1 then
        (s.updPc pc (fun _ => { c with busy := c.busy + 420, refEnd := c.splitAt s.time.mono + 380, splits := if c.splits = BitVec.allOnes 16 then c.splits else c.splits + 1 })).count
          Stat.refSplits pc
      else s.updPc pc (fun _ => { c with debt := c.debt + 1 })
    else s.updPc pc (fun _ => { c with busy := max c.busy s.time.mono + 380, refEnd := max c.busy s.time.mono + 380 })

def execRefreshDue (pc : Nat) (s : State) : Host.Outcome State Fault Refusal := runs (fun s => s.refreshFalls pc) s

/-- Nothing has been queued at the PC for `ns`. -/
def State.hbmIdle (s : State) (c : Pc) (ns : Nat) : Bool :=
  c.reads.isEmpty && c.writes.isEmpty && decide (c.busy ≤ s.time.mono) && decide (ns ≤ s.time.mono - c.idle)

/-- REFRESH_AHEAD_OF_TIME: an idle PC is refreshed by up to two intervals ahead. -/
def State.refreshAhead (s : State) (pc : Nat) : State :=
  let c := s.hpc pc
  if (c.st = 1 ∨ c.st = 2) ∧ s.hbmIdle c 200 = true ∧ c.ahead < 2 then
    s.updPc pc (fun c => { c with ahead := c.ahead + 1, busy := s.time.mono + 380, refEnd := s.time.mono + 380 })
  else s

def execRefreshAheadOfTime (pc : Nat) (s : State) : Host.Outcome State Fault Refusal := runs (fun s => s.refreshAhead pc) s

/-! ### Power-down (R361) -/

/-- HBM_POWER_DOWN: no request for PD_IDLE HBM clocks of 0.25 ns. -/
def State.powerDown (s : State) (pc : Nat) : State :=
  let c := s.hpc pc
  if c.st = 1 ∧ s.hbmIdle c (ceilDiv (s.par P.pdIdle) 4) = true then s.updPc pc (fun c => { c with st := 2, burst := none }) else s

def execHbmPowerDown (pc : Nat) (s : State) : Host.Outcome State Fault Refusal := runs (fun s => s.powerDown pc) s

/-! ### Patrol scrub (R368) -/

/-- Time between two granules of a scrub that reads 64 GiB every HBM_SCRUB_HOURS. (DEDUCED, entry 86.) -/
def State.scrubNs (s : State) : Nat := 3600000000000 * s.par P.hbmScrubHours / 2 ^ 30

/-- PATROL_SCRUB: one granule is read; one with a corrected error is written back, and one that cannot be corrected is rewritten
(R367). -/
def State.patrol (s : State) (addr ecc : Nat) : State :=
  let addr := addr / 64 * 64
  let pc := pcOf addr
  let c := s.hpc pc
  if s.hbm.valid = false ∨ 2 ^ 36 ≤ addr ∨ (c.st ≠ 1 ∧ c.st ≠ 2) ∨ s.time.mono < s.hbm.scrubAt then s else
    let s := { s with hbm := { s.hbm with scrubAt := s.time.mono + s.scrubNs } }
    let r : HReq := { master := 9, addr := addr, bytes := 64, write := false, at_ := s.time.mono }
    let s := s.hbmChecked pc r ecc
    s.hbmAsk 9 addr 64 (decide (ecc = 1) || decide (ecc = 2)) 0

def execPatrolScrub (address ecc : Nat) (s : State) : Host.Outcome State Fault Refusal := runs (fun s => s.patrol address ecc) s

/-! ### HBM.PC_STATUS (R365) -/

/-- The value of HBM.PC_STATUS. -/
def State.pcStatus (s : State) (pc : Nat) : Nat :=
  let c := s.hpc pc
  c.st * 2 ^ 30 + c.debt * 2 ^ 27 + b2n c.hot * 2 ^ 26 + c.splits.toNat

/-- A read of HBM.PC_STATUS returns it and clears REF_SPLITS. -/
def State.readPcStatus (s : State) (pc : Nat) : State :=
  (s.emit (.read (s.pcStatus pc))).updPc pc (fun c => { c with splits := 0 })

def execPcStatusRead (pc : Nat) (s : State) : Host.Outcome State Fault Refusal := runs (fun s => s.readPcStatus pc) s

end Sys2Proof.Machine
end

