-- ==== Sys2Proof/Machine/Pacer.lean ====
section
/-! DEFINITION. The Pacer: channels and the threads that wait on them, applets, deadlock detection, and buffer pools under
contention (R369 to R390). -/
namespace Sys2Proof.Machine

/-! ### Threads, numbered 8 × core + thread -/

/-- A thread. -/
def State.thread (s : State) (t : Nat) : Thread := s.pacer.thread.at t

/-- Changes a thread. -/
def State.updThread (s : State) (t : Nat) (f : Thread → Thread) : State :=
  { s with pacer := { s.pacer with thread := s.pacer.thread.upd t f } }

/-- A channel. -/
def State.chan (s : State) (c : Nat) : Channel := s.pacer.channel.at c

/-- Changes a channel. -/
def State.updChan (s : State) (c : Nat) (f : Channel → Channel) : State :=
  { s with pacer := { s.pacer with channel := s.pacer.channel.upd c f } }

/-- A thread blocks on a channel: a read, or a reservation (R371). -/
def State.block (s : State) (t c dir : Nat) : State := s.updThread t (fun h => { h with st := 2, channel := c, waitDir := dir })

/-- Some thread ran in this lap: what the deadlock detector looks for (R383). -/
def State.ran (s : State) : State := { s with pacer := { s.pacer with ranInLap := true } }

/-- A blocked thread is RUNNABLE again; under a debugger's halt it stays HALTED and will be RUNNABLE at its resume. -/
def State.wake (s : State) (t : Nat) (f : Thread → Thread) : State :=
  (s.updThread t (fun h => f (if h.st = 3 then { h with before := 1 } else { h with st := 1 }))).ran

/-- A thread runs an applet: thread 6 or 7 of a core (R374). -/
def isApplet (t : Nat) : Bool := decide (6 ≤ t % 8)

/-- A thread may reach a channel (R374). -/
def mayReach (t c : Nat) : Bool := decide (c < 256) && (!isApplet t || decide (240 ≤ c))

/-! ### Channels (R376 to R378) -/

/-- Words in committed messages. -/
def Channel.committed (c : Channel) : Nat := (c.msgs.map List.length).sum

/-- Words of the open reservation. -/
def Channel.reserved (c : Channel) : Nat := match c.resv with | some r => r.words | none => 0

/-- Free words of the 16. -/
def Channel.room (c : Channel) : Nat := 16 - c.committed - c.reserved

/-- Blocked readers receive messages in the order they blocked, and the first blocked writer its reservation once no other is open
and its words are free; `n` bounds the steps. -/
def State.serveChan : Nat → State → Nat → State
  | 0, s, _ => s
  | n + 1, s, c =>
    let k := s.chan c
    match k.msgs, k.readers with
    | m :: ms, t :: ts =>
      State.serveChan n ((s.updChan c (fun k => { k with msgs := ms, readers := ts })).wake t (fun h => { h with msg := m })) c
    | _, _ =>
      match k.resv, k.writers with
      | none, (t, w) :: ws =>
        if w ≤ k.room then
          State.serveChan n ((s.updChan c (fun k => { k with resv := some { thread := t, words := w }, writers := ws })).wake t id) c
        else s
      | _, _ => s

/-- Serves a channel until nothing more can be served: a message wakes a reader, and 32 threads can wait. -/
def State.settleChan (s : State) (c : Nat) : State := State.serveChan 64 s c

/-! ### The kill rule (R382) and applets (R375) -/

/-- A thread is killed: its reservation is rolled back, it leaves every list, and it is ABSENT; its buffers stay allocated. -/
def State.killThread (s : State) (t : Nat) : State :=
  let s := { s with pacer := { s.pacer with channel := s.pacer.channel.mapAll (fun _ c => { c with
    resv := c.resv.filter (fun r => r.thread != t)
    readers := c.readers.filter (· != t)
    writers := c.writers.filter (fun w => w.1 != t) }) } }
  (s.updThread t (fun _ => {})).forEach s.pacer.channel.keys (fun s c => s.settleChan c)

/-- An applet breaks its confinement: it is killed, APPLET_FAULT is raised and an entry names core, thread, program counter and
cause. (DEDUCED, entry 87.) -/
def State.violation (s : State) (core thread pc cause : Nat) : State :=
  let t := 8 * core + thread
  if 4 ≤ core ∨ 8 ≤ thread ∨ isApplet t = false ∨ (s.thread t).st = 0 then s else
    (((s.killThread t).raise 183 (2 * core + thread - 6))).ruleEvent 375 t 0 [core, thread, pc, cause]

def execAppletViolation (core thread pc cause : Nat) (s : State) : Host.Outcome State Fault Refusal :=
  runs (fun s => s.violation core thread pc cause) s

/-- An instruction of a running thread on a channel it may reach; an applet that reaches another channel breaks its confinement, with
a cause code the manual does not number. (DEDUCED, entry 87.) -/
def State.onChannel (s : State) (t c : Nat) (f : State → State) : State :=
  if 32 ≤ t ∨ 256 ≤ c ∨ (s.thread t).st ≠ 1 ∨ s.pacer.down = true then s
  else if !mayReach t c then (s.violation (t / 8) (t % 8) (s.thread t).pc (s.freeVal 64)).drawn
  else (f s).ran

/-! ### CH_RESERVE, CH_PUT, CH_COMMIT, CH_READ -/

/-- CH_RESERVE(ch, n): n words are reserved, or the thread blocks behind those that blocked before it. -/
def State.chReserve (s : State) (t c n : Nat) : State :=
  if n = 0 ∨ 16 < n then s else
    s.onChannel t c (fun s =>
      let k := s.chan c
      if k.resv.isNone && k.writers.isEmpty && decide (n ≤ k.room) then s.updChan c (fun k => { k with resv := some { thread := t, words := n } })
      else (s.updChan c (fun k => { k with writers := k.writers ++ [(t, n)] })).block t c 1)

def execChReserve (thread channel words : Nat) (s : State) : Host.Outcome State Fault Refusal :=
  runs (fun s => s.chReserve thread channel words) s

/-- CH_PUT writes the next reserved word. -/
def State.chPut (s : State) (t c w : Nat) : State :=
  s.onChannel t c (fun s =>
    match (s.chan c).resv with
    | some r =>
      if r.thread = t ∧ r.put.length < r.words then
        let r := { r with put := r.put ++ [w % 2 ^ 64] }
        s.updChan c (fun k => { k with resv := some r })
      else s
    | none => s)

def execChPut (thread channel word : Nat) (s : State) : Host.Outcome State Fault Refusal := runs (fun s => s.chPut thread channel word) s

/-- CH_COMMIT: the message is visible to readers; before all its words are written the commit is refused and the thread takes a
firmware exception, which raises PACER_CORE (R460). -/
def State.chCommit (s : State) (t c : Nat) : State :=
  s.onChannel t c (fun s =>
    match (s.chan c).resv with
    | some r =>
      if r.thread ≠ t then s
      else if r.put.length < r.words then s.raise (172 + t / 8) 0
      else (s.updChan c (fun k => { k with msgs := k.msgs ++ [r.put], resv := none })).settleChan c
    | none => s)

def execChCommit (thread channel : Nat) (s : State) : Host.Outcome State Fault Refusal := runs (fun s => s.chCommit thread channel) s

/-- CH_READ: the oldest committed message whole, or the thread blocks. -/
def State.chRead (s : State) (t c : Nat) : State :=
  s.onChannel t c (fun s =>
    match (s.chan c).msgs with
    | m :: ms => ((s.updChan c (fun k => { k with msgs := ms })).updThread t (fun h => { h with msg := m })).settleChan c
    | [] => (s.updChan c (fun k => { k with readers := k.readers ++ [t] })).block t c 0)

def execChRead (thread channel : Nat) (s : State) : Host.Outcome State Fault Refusal := runs (fun s => s.chRead thread channel) s

/-- HW_CHANNEL_PRODUCE: a whole message in one operation, on channels 0 to 47; without room the producer's own overflow rule applies. -/
def State.hwProduce (s : State) (c : Nat) (ws : List Nat) : State :=
  let k := s.chan c
  if 48 ≤ c ∨ ws.isEmpty = true ∨ k.resv.isSome = true ∨ k.room < ws.length then s
  else (s.updChan c (fun k => { k with msgs := k.msgs ++ [ws.map (· % 2 ^ 64)] })).settleChan c

def execHwChannelProduce (channel : Nat) (words : List Nat) (s : State) : Host.Outcome State Fault Refusal :=
  runs (fun s => s.hwProduce channel words) s

/-! ### Deadlock detection (R383) -/

/-- A thread that counts as running for the detector: neither ABSENT nor BLOCKED. -/
def Pacer.anyRuns (p : Pacer) : Bool := p.thread.any (fun e => e.2.st == 1 || e.2.st == 3)

/-- The check of order 9: every thread that is not ABSENT was BLOCKED through the whole lap just ended. (DEDUCED, entry 87.) -/
def State.deadlockCheck (s : State) : State :=
  let stuck := !s.pacer.ranInLap && !s.pacer.anyRuns && s.pacer.thread.any (fun e => e.2.st == 2)
  let s := if stuck then
      (s.raise 182 0).ruleEvent 383 0 0 ((List.range 32).map (fun t => (s.thread t).st))
    else s
  { s with pacer := { s.pacer with ranInLap := s.pacer.anyRuns } }

/-! ### Pools under contention (R388, R389) -/

/-- Changes or ends a request. -/
def State.setAsk (s : State) (n : Nat) (a : Option Ask) : State :=
  { s with pacer := { s.pacer with ask := s.pacer.ask.put n a } }

/-- A request is granted: its packet, if it serves one, goes on with the buffer. -/
def State.granted (s : State) (n : Nat) (a : Ask) (pool : Nat) : State :=
  let (s, b) := (s.setAsk n none).poolTake a.requester pool
  match a.pkt with
  | some k => (s.useBuffer k a.cause a.copy a.hmac (pool, b)).reap k
  | none => s

/-- No pool grants the request: the requester meets its outcome (R389). -/
def State.noPool (s : State) (n : Nat) (a : Ask) : State :=
  let waits := some { a with wait := 2, pool := (poolFor a.bytes).getD 3 }
  match a.requester with
  | 2 => (s.setAsk n none).count Stat.gmuPoolDrops
  | 0 | 3 => (s.setAsk n waits).count Stat.poolEmpty a.requester
  | r => ((s.setAsk n none).count Stat.poolEmpty r).emit (.poolRefused r E.poolEmpty)

/-- A request that its pool refuses: it steps up in the next cycle, or meets its outcome. -/
def State.refusedAsk (s : State) (n : Nat) (a : Ask) : State :=
  if s.parOn P.stepUp a.requester && decide (a.pool < 3) then s.setAsk n (some { a with wait := 1 }) else s.noPool n a

/-- One request alone at its pool. (DEDUCED, entry 88.) -/
def State.askAlone (s : State) (n : Nat) (a : Ask) : State :=
  if s.poolEmptyFor a.requester a.pool then s.refusedAsk n a else s.granted n a a.pool

/-- The request that a pool grants: the first at or after its pointer in the order of R388. (DEDUCED, entry 88.) -/
def State.poolWinner (s : State) (pool : Nat) (l : List (Nat × Ask)) : Option (Nat × Ask) :=
  let l := l.filter (fun e => !s.poolEmptyFor e.2.requester pool)
  ((List.range 5).map (fun i => ((s.pacer.pool.at pool).ptr + i) % 5)).findSome? (fun r => l.find? (fun e => e.2.requester == r))

/-- One cycle of one pool: a grant at most, refusals for which it is empty, and the rest wait for the next cycle. (DEDUCED, entry 88.) -/
def State.poolCycle (s : State) (l : List (Nat × Ask)) (pool : Nat) : State :=
  let l := l.filter (fun e => e.2.pool == pool)
  let w := s.poolWinner pool l
  let rest := l.filter (fun e => some e.1 != w.map (·.1))
  let empty := rest.filter (fun e => s.poolEmptyFor e.2.requester pool)
  let s := match w with | some (n, a) => s.granted n a pool | none => s
  let s := s.forEach (rest.filter (fun e => !empty.contains e)) (fun s e => s.setAsk e.1 (some { e.2 with wait := 0 }))
  s.forEach empty (fun s e => s.refusedAsk e.1 e.2)

/-- POOL_ALLOCATE: the requests of one cycle; one above 65,536 B is refused with E_RANGE (R386). -/
def State.poolAllocate (s : State) (asks : List PoolAsk) : State :=
  if s.pacer.down then s else
    let s := s.forEach (asks.filter (fun a => decide (a.requester < 5) && (poolFor a.bytes).isNone)) (fun s a => s.emit (.poolRefused a.requester E.range))
    let l := (asks.filter (fun a => decide (a.requester < 5) && (poolFor a.bytes).isSome)).map (fun a =>
      ({ requester := a.requester, bytes := a.bytes, pool := (poolFor a.bytes).getD 3 } : Ask))
    let l := (List.range l.length).zip l |>.map (fun e => (s.pacer.nextAsk + e.1, e.2))
    let s := { s with pacer := { s.pacer with nextAsk := s.pacer.nextAsk + l.length } }
    s.forEach (List.range 4) (fun s pool => s.poolCycle l pool)

def execPoolAllocate (asks : List PoolAsk) (s : State) : Host.Outcome State Fault Refusal := runs (fun s => s.poolAllocate asks) s

/-- POOL_STEP_UP: a refused request asks the next larger pool. (DEDUCED, entry 88.) -/
def State.poolStep (s : State) (n : Nat) : State :=
  match s.pacer.ask.at n with
  | some a => if a.wait = 1 ∧ s.pacer.down = false then s.askAlone n { a with pool := a.pool + 1 } else s
  | none => s

def execPoolStepUp (ask : Nat) (s : State) : Host.Outcome State Fault Refusal := runs (fun s => s.poolStep ask) s

/-- POOL_RETRY: a request that lost its cycle, or that has waited one lap, asks again. (DEDUCED, entry 88.) -/
def State.poolAgain (s : State) (n : Nat) : State :=
  match s.pacer.ask.at n with
  | some a => if (a.wait = 0 ∨ a.wait = 3) ∧ s.pacer.down = false then s.askAlone n a else s
  | none => s

def execPoolRetry (ask : Nat) (s : State) : Host.Outcome State Fault Refusal := runs (fun s => s.poolAgain ask) s

/-- At order 9 every request that has waited one lap is tried again; one that is refused again waits on, its lap passed (R389). -/
def State.askLap (s : State) : State :=
  if s.pacer.down then s else
    s.forEach s.pacer.ask.keys (fun s n => match s.pacer.ask.at n with
      | some a =>
        if a.wait = 2 ∨ a.wait = 3 then
          let t := s.askAlone n a
          { t with pacer := { t.pacer with ask := t.pacer.ask.upd n (fun a => a.map (fun a => if a.wait = 2 then { a with wait := 3 } else a)) } }
        else s
      | none => s)

def execPoolFree (pool buffer : Nat) (s : State) : Host.Outcome State Fault Refusal :=
  runs (fun s => if 4 ≤ pool ∨ poolBuffers pool ≤ buffer then s else s.poolRelease pool buffer) s

/-! ### Status registers -/

/-- PACER.THREAD_STATUS (R373): slots 0 to 13 as the default image shares them, 14 and 15 to threads 6 and 7 (R370). (DEDUCED, entry 89.) -/
def State.threadStatus (s : State) (t : Nat) : Nat :=
  let h := s.thread t
  if s.pacer.thread.isEmpty then 0 else
    let k := t % 8
    let slots := if k = 0 then 4 else if k < 6 then 2 else 1
    let blocked := decide (h.st = 2)
    h.st * 2 ^ 30 + b2n h.applet * 2 ^ 29 + (if blocked then h.waitDir * 2 ^ 28 + h.channel * 2 ^ 20 else 0) + slots * 2 ^ 15

/-- PACER.CH_STATUS (R379). (DEDUCED, entry 89.) -/
def State.chStatus (s : State) (c : Nat) : Nat :=
  let k := s.chan c
  k.committed * 2 ^ 27 + k.reserved * 2 ^ 22 + k.readers.length * 2 ^ 16 + k.writers.length * 2 ^ 10

/-- PACER.POOL_STATUS (R390); it reads 0 until the Pacer has been started. (DEDUCED, entry 89.) -/
def State.poolStatus (s : State) (pool : Nat) : Nat :=
  if s.pacer.thread.isEmpty then 0 else
    let p := s.pacer.pool.at pool
    (poolBuffers pool - p.owner.length) * 2 ^ 17 + (poolBuffers pool - p.maxTaken) * 4

/-- A read of PACER.POOL_STATUS restarts MIN_FREE at the current FREE count. -/
def State.readPoolStatus (s : State) (pool : Nat) : State :=
  if 4 ≤ pool then s else
    let s := s.emit (.read (s.poolStatus pool))
    { s with pacer := { s.pacer with pool := s.pacer.pool.upd pool (fun p => { p with maxTaken := p.owner.length }) } }

def execPoolStatusRead (pool : Nat) (s : State) : Host.Outcome State Fault Refusal := runs (fun s => s.readPoolStatus pool) s

end Sys2Proof.Machine
end

