-- ==== Sys2Proof/Machine/Sessions.lean ====
section
/-! DEFINITION. The mailbox handshake and the acceptance of a request, sessions and operator roots, and the commands of group
0x01 (R391 to R415). -/
namespace Sys2Proof.Machine

/-! ### Windows and handshake (R391 to R394) -/

/-- Tequin has been started, so that mailboxes are served (R494 stage 6). -/
def State.tequin (s : State) : Bool := s.boot.ended.contains 6

/-- REQUEST_WINDOW_WRITE: a host write to the slot's page; one while BUSY is discarded. -/
def State.writeWindow (s : State) (slot off : Nat) (bytes : List Byte) : State :=
  if 256 ≤ slot ∨ 4096 < off + bytes.length then s
  else s.updSlot slot (fun k =>
    if k.st = 1 then { k with wrDropped := true } else { k with request := overlay k.request off bytes })

def execRequestWindowWrite (slot offset : Nat) (bytes : List Byte) (s : State) : Host.Outcome State Fault Refusal :=
  runs (fun s => s.writeWindow slot offset bytes) s

/-- MBX_RELEASE. -/
def State.releaseSlot (s : State) (slot : Nat) : State :=
  if 256 ≤ slot then s else s.updSlot slot (fun k => if k.st = 2 then { k with st := 0 } else k)

def execMbxRelease (slot : Nat) (s : State) : Host.Outcome State Fault Refusal := runs (fun s => s.releaseSlot slot) s

def execMbxWrDroppedClear (slot : Nat) (s : State) : Host.Outcome State Fault Refusal :=
  runs (fun s => if 256 ≤ slot then s else s.updSlot slot (fun k => { k with wrDropped := false })) s

/-- HIF.MBX_STATUS (R393). -/
def State.mbxStatus (s : State) (slot : Nat) : Nat :=
  let k := s.mbx.slot.at slot
  k.st * 2 ^ 30 + b2n k.wrDropped * 2 ^ 29

/-! ### The request (R397) -/

/-- The request of a window. -/
def requestOf (window : List Byte) (dma : Option (List Byte)) : Request :=
  let head := slice window 0 96
  { head := head, inline := slice window 96 (leAt head 4 2), dma := if bit (leAt head 3 1) 0 then dma else some [] }

/-- A length that its flag announces. -/
def lenOk (on : Bool) (n : Nat) : Bool := if on then decide (1 ≤ n ∧ n ≤ 65536) else n == 0

/-- Check 1: reserved fields and lengths of the header, and the form of the payload. -/
def Request.formatOk (r : Request) : Bool :=
  leAt r.head 3 1 / 8 == 0 && zeroAt r.head 6 2 && zeroAt r.head 41 7 && zeroAt r.head 56 8
    && decide (r.inlineLen ≤ 4000) && lenOk (r.flag 0) r.inLen && lenOk (r.flag 1) r.outLen
    && (if r.flag 2 then decide (r.coSession < 16) else zeroAt r.head 40 40)
    && (r.dma.isNone || match opInfo r.op with
      | some i => i.formatOk r.payload && (decide (r.op ≠ Op.sessionOpen) || r.flag 0)
      | none => true)

/-- An opcode of R409. -/
def unsessioned (op : Nat) : Bool := op == Op.sessionDeviceId || op == Op.sessionOpen

/-! ### SEQ (R407) -/

/-- The window after SEQ is accepted; none: E_REPLAY. -/
def Session.takeSeq (k : Session) (seq : Nat) : Option Session :=
  if seq = 0 then none
  else if k.high < seq then
    some { k with window := ((k.window * 2 ^ min (seq - k.high) 64) % 2 ^ 64) ||| 1, high := seq }
  else if k.high - seq < 64 ∧ bit k.window (k.high - seq) = false then
    some { k with window := k.window ||| 2 ^ (k.high - seq) }
  else none

/-- SEQ is accepted in a session, whose idle timer starts again (R405). -/
def State.acceptSeq (s : State) (k seq : Nat) : Option State :=
  ((s.sess k).takeSeq seq).map (fun x =>
    { s with mbx := { s.mbx with session := s.mbx.session.put k { x with
        st := 2, deadline := s.time.mono + 1000000000 * s.par P.sessionIdleS } } })

/-! ### Countersignature (R411) -/

/-- The countersignature holds: the state with COSIGN_SEQ accepted. -/
def State.cosigned (s : State) (r : Request) : Option State :=
  let c := s.sess r.coSession
  if r.flag 2 && decide (r.coSession < 16) && c.st == 2 && c.inst == 0 && c.ident != (s.sess r.session).ident
      && Crypto.cmac c.key ([0x03#8] ++ r.head.take 64 ++ r.payload) == slice r.head 64 16 then
    (c.takeSeq r.coSeq).map (fun x => { s with mbx := { s.mbx with session := s.mbx.session.put r.coSession x } })
  else none

/-! ### The checks of R408 -/

/-- Checks 5 to 8: TAG, SEQ, opcode and countersignature. (DEDUCED, entry 90.) -/
def State.verifyTag (s : State) (slot : Nat) (a : Accepted) (r : Request) : State :=
  if Crypto.cmac (s.sess r.session).key ([0x01#8] ++ r.head.take 80 ++ r.payload) ≠ slice r.head 80 16 then s.refuse slot a E.unsigned
  else match s.acceptSeq r.session r.seq with
    | none => s.refuse slot a E.replay
    | some s =>
      let a := { a with order := s.mbx.accepted, at_ := s.time.mono }
      let s := { s with mbx := { s.mbx with accepted := s.mbx.accepted + 1 } }
      match opInfo r.op with
      | none => s.refuse slot a E.opcode
      | some i =>
        if i.critical && (decide (slotInst slot ≠ 0) || (s.sess r.session).inst != 0) then s.refuse slot a E.scope
        else if i.critical || r.flag 2 then
          match s.cosigned r with
          | some s => s.updSlot slot (fun k => { k with acc := some { a with cosign := some r.coSession } })
          | none => s.refuse slot a E.cosign
        else s.updSlot slot (fun k => { k with acc := some a })

/-- A request that has passed checks 1 to 4: an unsessioned one has no TAG; any other is checked as the CMAC unit computes its tags, at
once or when its jobs there complete (R270, R398). (DEDUCED, entry 74.) (DEDUCED, entry 90). -/
def State.verify (s : State) (slot : Nat) (a : Accepted) (r : Request) : State :=
  if r.session = 255 then s.updSlot slot (fun k => { k with acc := some a })
  else
    let tags := if r.flag 2 then 2 else 1
    if s.cmacRoom tags then s.verifyTag slot a r else s.askTag slot tags (.request a r)

/-- Checks 1 to 4, in order. (DEDUCED, entry 90.) -/
def State.checkRequest (s : State) (slot : Nat) (r : Request) : State :=
  let i := slotInst slot
  let a := r.accepted (s.instGen i)
  let k := s.sess r.session
  if !r.formatOk then s.refuse slot a E.format
  else if !(if r.session = 255 then unsessioned r.op else decide (r.session < 16) && k.live && k.inst == i) then s.refuse slot a E.session
  else if !r.flag 0 then s.verify slot a r
  else match s.poolRequest 1 r.inLen with
    | (s, none) => (s.count Stat.poolEmpty 1).refuse slot a E.poolEmpty
    | (s, some b) =>
      let a := { a with buf := some b }
      match r.dma with
      | none => s.refuse slot a E.dma
      | some bytes => if bytes.length ≠ r.inLen then s.refuse slot a E.dma else s.verify slot a r

/-- DOORBELL_RING: a ring while BUSY is discarded; any other submits the request window, which releases a slot in DONE. `dma`: what
the read of the payload returns, none when it fails or times out. While the Pacer is re-initialised the request waits. (DEDUCED, entry 90.) -/
def State.ring (s : State) (slot : Nat) (dma : Option (List Byte)) : State :=
  if 256 ≤ slot ∨ s.tequin = false then s
  else if (s.mbx.slot.at slot).st = 1 then s.updSlot slot (fun k => { k with wrDropped := true })
  else
    let s := s.updSlot slot (fun k => { k with st := 1, acc := none, held := none })
    let r := requestOf (s.mbx.slot.at slot).request dma
    if s.pacer.down then { s with mbx := { s.mbx with rung := s.mbx.rung ++ [(slot, r)] } } else s.checkRequest slot r

/-- Requests that were rung while the Pacer was re-initialised are checked in the order in which they were rung (R24, R395). -/
def State.serveRings (s : State) : State :=
  if s.pacer.down then s else
    ({ s with mbx := { s.mbx with rung := [] } }).forEach s.mbx.rung (fun s e => s.checkRequest e.1 e.2)

def execDoorbellRing (slot : Nat) (dma : Option (List Byte)) (s : State) : Host.Outcome State Fault Refusal :=
  runs (fun s => s.ring slot dma) s

/-! ### Timers (R405, R412, R414, R429) -/

def execSessionConfirmExpire (session : Nat) (s : State) : Host.Outcome State Fault Refusal :=
  runs (fun s => if (s.sess session).st = 1 ∧ (s.sess session).deadline ≤ s.time.mono then s.closeSession session (some 0) else s) s

def execSessionIdleExpire (session : Nat) (s : State) : Host.Outcome State Fault Refusal :=
  runs (fun s => if (s.sess session).st = 2 ∧ (s.sess session).deadline ≤ s.time.mono then s.closeSession session (some 1) else s) s

/-- DEBUG_TOKEN_EXPIRE: DURATION_S has passed. -/
def State.tokenExpire (s : State) : State :=
  s.forEach (s.mbx.tokens.filter (fun t => decide (t.endAt ≤ s.time.mono))) (fun s t => s.dropToken t)

def execDebugTokenExpire (s : State) : Host.Outcome State Fault Refusal := runs State.tokenExpire s

/-- JOB_RETENTION_EXPIRE: an ended job is kept for 60 s. -/
def State.dropJob (s : State) (session seq : Nat) : State :=
  { s with mbx := { s.mbx with jobs := s.mbx.jobs.filter (fun j =>
      !(j.session == session && j.seq == seq && j.rstate != 1 && decide (j.endAt + 60000000000 ≤ s.time.mono))) } }

def execJobRetentionExpire (session seq : Nat) (s : State) : Host.Outcome State Fault Refusal := runs (fun s => s.dropJob session seq) s

/-- TRANSFER_TIMEOUT: a transfer without a segment for 60 s is discarded and recorded. -/
def State.transferExpire (s : State) (target : Nat) : State :=
  let t := s.mbx.transfer.at target
  if t.open_ ∧ t.deadline ≤ s.time.mono then
    ({ s with mbx := { s.mbx with transfer := s.mbx.transfer.del target } }).ruleEvent 429 target 0
  else s

def execTransferTimeout (target : Nat) (s : State) : Host.Outcome State Fault Refusal := runs (fun s => s.transferExpire target) s

/-! ### SESSION.DEVICE_ID (R409) -/

/-- A root entry as SESSION.DEVICE_ID reports it: ROOT_HASH and ROOT_STATE. -/
def Root.report (r : Root) : List Byte :=
  beBytes 48 (r.hash.getD 0) ++ leBytes 1 (if r.revoked then 2 else if r.hash.isSome then 1 else 0)

/-- The public attestation key (R281, R404). (DESIGN CHOICE, entry 7.) -/
def State.attestKey (s : State) : List Byte := beBytes 97 (Config.publicKey s.sec.keys.attest).toNat

/-- The Starting block's signature under the attestation key (R281). (DESIGN CHOICE, entry 7.) -/
def State.attestSign (s : State) (l : List Byte) : List Byte := beBytes 96 (Config.sign s.sec.keys.attest l).toNat

/-- The command's checks and effect (DESIGN CHOICE, entry 7). -/
def State.deviceId (s : State) (_ : Nat) (_ : Accepted) : Reply :=
  .ok s (leBytes 8 Config.deviceSerial.toNat ++ s.attestKey
    ++ (List.range 4).flatMap (fun k => (s.mbx.root.at k).report))

def execSessionDeviceId (slot : Nat) (s : State) : Host.Outcome State Fault Refusal :=
  runs (serve slot Op.sessionDeviceId State.deviceId) s

/-! ### Certificate chains (R401) -/

/-- The last certificate of a chain. (DESIGN CHOICE, entry 12.) -/
def chainRoot (c : Chain) : Option Cert := c.certs.getLast?

/-- The form of a chain: everything R401 asks but the root and the validity periods. (DESIGN CHOICE, entry 12.) -/
def chainForm (c : Chain) : Bool :=
  decide (2 ≤ c.certs.length ∧ c.certs.length ≤ 5) && decide (c.len ≤ 8192)
    && c.certs.all (fun k => k.v3 && k.p384 && k.sha384 && k.sigOk && !k.otherCritical)
    && (c.certs.drop 1).all (fun k => k.ca && k.certSign) && (c.certs.take 1).all (·.digSig)

/-- A programmed root entry of a public key. -/
def State.rootEntry (s : State) (spki : Nat) : Option Root :=
  ((List.range 4).map (s.mbx.root.at ·)).find? (fun r => r.hash == some spki)

/-- What a chain comes to: 0 accepted, E_CERT, or E_ROOT_REVOKED. (DESIGN CHOICE, entry 12; DEDUCED, entry 91.) -/
def State.chainStatus (s : State) (c : Chain) : Nat :=
  let now := s.time.dev / 1000000000
  let timely := s.time.state == .freerun || c.certs.all (fun k => decide (k.notBefore ≤ now ∧ now ≤ k.notAfter))
  match chainRoot c with
  | none => E.cert
  | some r =>
    match s.rootEntry r.spki with
    | none => E.cert
    | some e => if !(chainForm c && timely) then E.cert else if e.revoked then E.rootRevoked else 0

/-- In FREERUN validity periods are not checked, and an entry says so. -/
def State.noteFreerun (s : State) (subject : Nat) : State :=
  if s.time.state = .freerun then s.ruleEvent 401 subject 0 else s

/-! ### SESSION.OPEN (R403 to R406) -/

/-- A free context for an instance: those below OPERATOR_CONTEXTS are the operator's. -/
def State.freeContext (s : State) (inst : Nat) : Option Nat :=
  (List.range 16).find? (fun k => !(s.sess k).live && (inst == 0 || decide (s.par P.operatorContexts ≤ k)))

/-- K: the first 32 bytes of the one-step KDF with SHA-384 over Z and FixedInfo = "XQSESS" ‖ Nh ‖ Nd ‖ DEVICE_SERIAL ‖ instance ‖ session index
(R404). (DEDUCED, entry 8.) -/
def sessionKey (z nh nd : List Byte) (inst k : Nat) : List Byte :=
  (Crypto.sha384 (beBytes 4 1 ++ z ++ [0x58#8, 0x51#8, 0x53#8, 0x45#8, 0x53#8, 0x53#8] ++ nh ++ nd
    ++ leBytes 8 Config.deviceSerial.toNat ++ leBytes 1 inst ++ leBytes 1 k)).take 32

/-- The command's checks and effect: the key pair and the nonce that it draws are free values (DESIGN CHOICE, entry 8; DEDUCED, entry 91). -/
def State.sessionOpen (chain : Chain) (popOk : Bool) (s : State) (inst : Nat) (a : Accepted) : Reply :=
  let status := s.chainStatus chain
  if status = E.cert then .refuse E.cert else
  let s := s.noteFreerun inst
  if !popOk then .refuseWith s E.unsigned []
  else if status ≠ 0 then .refuseWith s status []
  else match s.freeContext inst with
  | none => .refuseWith s E.noContext []
  | some k =>
    if s.sec.trngFailed then .refuseWith s E.entropy [] else
      let d := s.freeVal 384 % (p384Order - 1) + 1
      let qd := beBytes 97 (Config.publicKey d).toNat
      let nd := beBytes 32 ((s.drawn).freeVal 256)
      let x : Session := {
        st := 1, inst := inst, ident := ((chain.certs.head?).map (·.spki)).getD 0, root := ((chainRoot chain).map (·.spki)).getD 0
        deadline := s.time.mono + 1000000000 * s.par P.sessionConfirmS
        key := sessionKey (beBytes 48 (Config.sharedSecret d (slice a.payload 0 97)).toNat) (slice a.payload 97 32) nd inst k }
      let s := s.drawn 2
      let s := { s with mbx := { s.mbx with session := s.mbx.session.put k x } }
      let text := [0x58#8, 0x51#8, 0x41#8, 0x43#8, 0x43#8, 0x45#8, 0x50#8, 0x54#8]
      .ok s (leBytes 1 k ++ qd ++ nd
        ++ s.attestSign (text ++ Crypto.sha384 a.payload ++ qd ++ nd ++ leBytes 1 k))

def execSessionOpen (slot : Nat) (chain : Chain) (popOk : Bool) (s : State) : Host.Outcome State Fault Refusal :=
  runs (serve slot Op.sessionOpen (State.sessionOpen chain popOk)) s

/-! ### SESSION.CLOSE -/

def State.sessionClose (s : State) (_ : Nat) (a : Accepted) : Reply :=
  .after s [] (.closeSession a.session) (fun s => s.closeSession a.session none)

def execSessionClose (slot : Nat) (s : State) : Host.Outcome State Fault Refusal := runs (serve slot Op.sessionClose State.sessionClose) s

/-! ### SESSION.POLL, SESSION.ABORT (R414, R415) -/

/-- The job a command names by TARGET_SEQ: of its own session, or of any session from instance 0. -/
def State.target (s : State) (inst : Nat) (a : Accepted) : Option Job :=
  let seq := leAt a.payload 0 8
  let l := s.mbx.jobs.filter (fun j => j.slot.isNone && j.seq == seq)
  match l.find? (fun j => j.session == a.session) with
  | some j => some j
  | none => if inst = 0 then l.head? else none

/-- The command's checks and effect (DEDUCED, entry 91). -/
def State.sessionPoll (s : State) (inst : Nat) (a : Accepted) : Reply :=
  match s.target inst a with
  | none => .refuse E.noJob
  | some j => .ok s (leBytes 1 j.rstate ++ leBytes 1 0 ++ leBytes 2 j.status ++ leBytes 4 j.done ++ leBytes 4 j.total
      ++ leBytes 2 (progress j.done j.total) ++ (if j.rstate = 1 then [] else j.result))

def execSessionPoll (slot : Nat) (s : State) : Host.Outcome State Fault Refusal := runs (serve slot Op.sessionPoll State.sessionPoll) s

def State.sessionAbort (s : State) (inst : Nat) (a : Accepted) : Reply :=
  match s.target inst a with
  | none => .refuse E.noJob
  | some j => .ok (if j.rstate = 1 then s.updJob j.session j.seq (fun j => { j with abort := true }) else s)

def execSessionAbort (slot : Nat) (s : State) : Host.Outcome State Fault Refusal := runs (serve slot Op.sessionAbort State.sessionAbort) s

/-! ### SESSION.ROOT_PROGRAM, SESSION.ROOT_REVOKE (R400) -/

/-- Writes a root entry in OTP. -/
def State.setRoot (s : State) (k : Nat) (r : Root) : State := { s with mbx := { s.mbx with root := s.mbx.root.put k r } }

def State.rootProgram (s : State) (_ : Nat) (a : Accepted) : Reply :=
  let k := leAt a.payload 0 1
  if 4 ≤ k then .refuse E.range
  else if (s.mbx.root.at k).hash.isSome || (s.mbx.root.at k).revoked then .refuse E.inUse
  else .ok (s.setRoot k { hash := some (beAt a.payload 1 48) })

def execSessionRootProgram (slot : Nat) (s : State) : Host.Outcome State Fault Refusal :=
  runs (serve slot Op.sessionRootProgram State.rootProgram) s

/-- Programmed and unrevoked roots other than entry k. -/
def State.otherRoots (s : State) (k : Nat) : List Nat :=
  (List.range 4).filter (fun i => i != k && (s.mbx.root.at i).hash.isSome && !(s.mbx.root.at i).revoked)

/-- Sessions whose chain ends at a root close (R400). -/
def State.closeRoot (s : State) (hash : Option Nat) : State :=
  s.forEach ((List.range 16).filter (fun c => (s.sess c).live && some (s.sess c).root == hash)) (fun s c => s.closeSession c (some 2))

def State.rootRevoke (s : State) (_ : Nat) (a : Accepted) : Reply :=
  let k := leAt a.payload 0 1
  if 4 ≤ k then .refuse E.range
  else if (s.otherRoots k).isEmpty then .refuse E.lastRoot
  else
    let r := s.mbx.root.at k
    .after (s.setRoot k { r with revoked := true }) [] (.closeRoot r.hash) (fun s => s.closeRoot r.hash)

def execSessionRootRevoke (slot : Nat) (s : State) : Host.Outcome State Fault Refusal :=
  runs (serve slot Op.sessionRootRevoke State.rootRevoke) s

end Sys2Proof.Machine
end

