-- ==== Sys2Proof/Machine/Checks.lean ====
section
/-! DEFINITION. The rules that span several parameters: what the manual calls refusing a stage, checked over the whole Standby bank
(R427). -/
namespace Sys2Proof.Machine

/-- A rule that a bank breaks: its status, with the parameter and the index it is found at. -/
abbrev Broken := Option (Nat × Param × Nat)

/-- Indices a bank lists for a parameter. -/
def Bank.listed (b : Bank) (p : Param) : List Nat := (b.filter (fun e => e.1 / 2 ^ 32 == p.id)).map (fun e => e.1 % 2 ^ 32)

/-- Indices at which a flag is 1, for a flag whose default is 0. -/
def Bank.onAt (b : Bank) (p : Param) : List Nat := (b.listed p).filter (b.on p)

/-- The first index of a list at which a rule is broken. -/
def brokenAt (status : Nat) (p : Param) (l : List Nat) (bad : Nat → Bool) : Broken := (l.find? bad).map (fun i => (status, p, i))

/-- Objects of which a bank lists one of several parameters, `per` indices of a parameter to an object. -/
def Bank.objectsOf (b : Bank) (l : List (Param × Nat)) : List Nat := (l.flatMap (fun e => (b.listed e.1).map (· / e.2))).eraseDups

/-! ### Ports (R52 to R54, R67, R76, R252) -/

/-- Speed, lane rate and FEC that a port may take (R52, R54). -/
def portForms : List (Nat × Nat × Nat) := List.flatten [
  [(0, 0, 0), (1, 1, 0), (2, 2, 0), (2, 2, 1), (3, 3, 2)], [(4, 2, 0), (4, 2, 1), (4, 3, 2), (4, 4, 2)],
  [(5, 3, 2), (5, 4, 2), (6, 3, 2), (6, 4, 2), (7, 4, 2)]]

/-- An enabled port has a grouping of R52: its form, and an offset that is a multiple of its lane count. -/
def Bank.groupingOk (b : Bank) (p : Nat) : Bool :=
  portForms.contains (b.getN P.portSpeed p, b.getN P.laneRate p, b.getN P.fecMode p) && p % 32 % b.lanes p == 0

/-- Two enabled ports share a lane. -/
def Bank.sharesLane (b : Bank) (p : Nat) : Bool := (List.range (b.lanes p - 1)).any (fun k => b.on P.portEnable (p + 1 + k))

/-- A relay port keeps R76. -/
def Bank.relayOk (b : Bank) (p : Nat) : Bool :=
  decide (100 ≤ b.rate p) && b.getN P.fecMode p == 2 && b.getN P.flowCtrl p == 0 && !b.on P.preemptEnable p

def Bank.portRules (b : Bank) : List Broken :=
  let on := b.onAt P.portEnable
  [ brokenAt E.portConflict P.portSpeed on (fun p => !b.groupingOk p),
    brokenAt E.portConflict P.portEnable on b.sharesLane,
    brokenAt E.portConflict P.portRole on (fun p => b.on P.portRole p && !b.relayOk p) ]

/-- Ports that tag under an association. -/
def Bank.taggers (b : Bank) (a : Nat) : List Nat :=
  (b.onAt P.portEnable).filter (fun p => b.on P.macsecTxEnable p && b.getN P.macsecTxAssoc p == a)

def Bank.macsecRules (b : Bank) : List Broken :=
  let on := b.onAt P.portEnable
  [ brokenAt E.portConflict P.macsecMode on (fun p => b.on P.portRole p && (b.getN P.macsecMode p != 0 || b.on P.macsecTxEnable p)),
    brokenAt E.portConflict P.macsecTxAssoc on (fun p =>
      b.on P.macsecTxEnable p && decide (2 ≤ (b.taggers (b.getN P.macsecTxAssoc p)).length)),
    brokenAt E.portConflict P.macsecTxAssoc on (fun p => b.on P.macsecTxEnable p && !b.on P.asDir (b.getN P.macsecTxAssoc p)) ]

/-! ### Pools, tables and keys (R112, R114, R144, R149, R168) -/

/-- The seven POOL_ values. -/
def poolParams : List Param := [P.poolFront, P.poolNextHop, P.poolRewrite, P.poolAction, P.poolStream, P.poolMeter, P.poolDuplicate]

/-- Segments of the front tables. -/
def Bank.frontTotal (b : Bank) : Nat := ((List.range 16).map (fun t => b.getN P.ftSegments t)).sum

/-- First segment of front table t. -/
def Bank.frontStart (b : Bank) (t : Nat) : Nat := ((List.range t).map (fun k => b.getN P.ftSegments k)).sum

/-- First segment of a record region: 0 next hop, 1 rewrite, 2 action, 3 stream, 4 meter, 5 duplicate. -/
def Bank.regionStart (b : Bank) (k : Nat) : Nat := ((poolParams.take (k + 1)).map (fun p => b.getN p 0)).sum

/-- What a segment holds: region (table t of the front is t, the overflow store 16, region k is 17 + k, 99 nothing) and position. -/
def Bank.segment (b : Bank) (s : Nat) : Nat × Nat :=
  let pf := b.getN P.poolFront 0
  if s + 1 = pf then (16, 0)
  else if s < pf then
    match (List.range 16).find? (fun t => decide (b.frontStart t ≤ s) && decide (s < b.frontStart (t + 1))) with
    | some t => (t, s - b.frontStart t)
    | none => (99, 0)
  else match (List.range 6).find? (fun k => decide (b.regionStart k ≤ s) && decide (s < b.regionStart (k + 1))) with
    | some k => (17 + k, s - b.regionStart k)
    | none => (99, 0)

/-- Records of a region in one segment. -/
def perSegment (k : Nat) : Nat := if k = 5 then 65536 else 65536 / poolWords k

/-- A duplicate-table word that R180 has not forgotten. -/
def State.dupLive (s : State) (w : Nat) : Bool := bit w 191 && decide (s.ageMs (bits w 87 24) < s.par P.dupForgetMs)

/-- A region and position of the Active bank hold a valid entry or a live record. -/
def State.segmentUsed (s : State) (c : Nat × Nat) : Bool :=
  if c.1 < 16 then s.tbl.front.any (fun e => e.2.valid && e.1 / 2 ^ 24 == c.1 && e.1 % 2 ^ 24 / 4 / 16384 == c.2)
  else if c.1 = 16 then s.tbl.frontOvf.any (fun e => e.2.valid)
  else if c.1 = 22 then s.tbl.dup.any (fun e => s.dupLive e.2 && e.1 / 65536 == c.2)
  else if c.1 < 22 then s.tbl.obj.any (fun e => e.2.st == 1 && e.1 / 2 ^ 20 == c.1 - 17 && e.1 % 2 ^ 20 / perSegment (c.1 - 17) == c.2)
  else false

def State.poolRules (s : State) (b : Bank) : List Broken :=
  let a := s.cfg.active
  let inUse := fun t => s.tbl.front.any (fun e => e.2.valid && e.1 / 2 ^ 24 == t)
  [ if (poolParams.map (fun p => b.getN p 0)).sum = 64 then none else some (E.range, P.poolFront, 0),
    if b.frontTotal + 1 ≤ b.getN P.poolFront 0 then none else some (E.range, P.ftSegments, 0),
    if (List.range 64).any (fun k => a.segment k != b.segment k && s.segmentUsed (a.segment k)) then some (E.busy, P.poolFront, 0) else none,
    brokenAt E.busy P.ftSegments (List.range 16) (fun t => (a.get P.ftSegments t != b.get P.ftSegments t
      || a.get P.ftSeed t != b.get P.ftSeed t || a.get P.ftForm t != b.get P.ftForm t) && inUse t),
    if a.get P.ovfSeed 0 ≠ b.get P.ovfSeed 0 ∧ s.tbl.frontOvf.any (fun e => e.2.valid) = true then some (E.busy, P.ovfSeed, 0) else none,
    if a.get P.stSeed 0 ≠ b.get P.stSeed 0 ∧ (s.tbl.station.any (fun e => e.2.valid) || s.tbl.stationOvf.any (fun e => e.2.valid)) = true then
      some (E.busy, P.stSeed, 0) else none ]

/-- Width of the fields of a key (R114). -/
def Bank.keyWidth (b : Bank) (p : Param) (per prof n : Nat) : Nat := ((b.selectors p per prof n).map (fun sel => bits sel 0 6 + 1)).sum

/-- Records an index of a region can name (R168). -/
def indexRange (k : Nat) : Nat := if k = 0 ∨ k = 2 then 2 ^ 20 else 2 ^ 16

def State.keyRules (s : State) (b : Bank) : List Broken :=
  let a := s.cfg.active
  let profiles := (List.range 15).map (· + 1)
  let limit := fun p => if b.on P.kpStation p then 60 else 124
  [ brokenAt E.range P.kpField profiles (fun p => decide (limit p < b.keyWidth P.kpField 8 p (b.getN P.kpNfields p))),
    brokenAt E.range P.kpLfield profiles (fun p => b.on P.kpLearn p && decide (limit p < b.keyWidth P.kpLfield 8 p (b.getN P.kpNfields p))),
    brokenAt E.range P.kpRfield profiles (fun p => decide (310 < b.keyWidth P.kpRfield 16 p (b.getN P.kpRnfields p))),
    brokenAt E.busy P.kpPfPos profiles (fun p => a.get P.kpPfPos p != b.get P.kpPfPos p
      && s.srch.rule.any (fun e => e.2.valid && bits e.2.value 316 4 == p)),
    ((List.range 5).find? (fun k => decide (indexRange k < b.records k))).map (fun k => (E.range, regionParam k, 0)) ]

/-! ### Buffer, queues and gates (R194, R207, R219, R228) -/

/-- A gate list as a bank holds it. -/
def Bank.gateEntries (b : Bank) (port k : Nat) : List Nat :=
  (List.range (b.getN P.glLen (4 * port + k))).map (fun i => b.getN P.glEntry (1024 * port + 256 * k + i))

/-- A list keeps R228: its intervals add to its cycle and lie in their range, OP 3 and reserved bits do not occur. -/
def gateListOk (cycle : Nat) (l : List Nat) : Bool :=
  l.isEmpty || ((l.map G.interval.get).sum == cycle
    && l.all (fun e => G.op.get e != 3 && G.rsv.get e == 0 && decide (100 ≤ G.interval.get e ∧ G.interval.get e ≤ 1000000000)))

def Bank.queueRules (b : Bank) : List Broken :=
  let cbs := b.onAt P.shaperMode
  let slope := fun p => ((cbs.filter (fun q => q / 16 == p)).map (fun q => b.getN P.idleSlope q)).sum
  [ brokenAt E.range P.qmin (List.range 4) (fun q => decide (quadCells < b.reserved q + 32768)),
    brokenAt E.range P.idleSlope cbs (fun q => decide (b.rate (q / 16) * 15625 < slope (q / 16))),
    brokenAt E.range P.rampPir (b.objectsOf [(P.rampCir, 1), (P.rampPir, 1)]) (fun q => decide (b.getN P.rampPir q < b.getN P.rampCir q)),
    brokenAt E.range P.glLen (b.listed P.glLen) (fun i => !gateListOk (b.getN P.glCycle i) (b.gateEntries (i / 4) (i % 4))) ]

/-! ### Associations and slots (R250, R297) -/

def Bank.assocRules (b : Bank) : List Broken :=
  let on := b.onAt P.asEnable
  [ brokenAt E.range P.coverStart on (fun a => decide (b.getN P.hdrOffset a < b.getN P.coverStart a)),
    brokenAt E.range P.asDir on (fun a => b.on P.asDir a && !isGcm (b.getN P.asMode a)),
    brokenAt E.range P.softLimit on (fun a => decide (b.getN P.hardLimit a ≤ b.getN P.softLimit a)) ]

/-- Installed keys of associations that a bank pins. -/
def State.pinnedKeys (s : State) (b : Bank) : Nat :=
  ((s.sec.vault.filter (fun e => e.2.valid)).filter (fun e => b.on P.asSlotPolicy (e.1 / 4) && b.on P.asEnable (e.1 / 4))).length

/-- A prefetch of a gate list: port, profile, association, cycle, and the hold's start and length within the cycle. -/
structure Prefetch where
  port : Nat
  profile : Nat
  assoc : Nat
  cycle : Nat
  start : Nat
  len : Nat

/-- Offsets of the entries of a list from its start. -/
def offsets : Nat → List Nat → List (Nat × Nat)
  | _, [] => []
  | t, e :: l => (t, e) :: offsets (t + G.interval.get e) l

/-- The prefetches of a list: each hold begins on the latest boundary at least one lap before its window, and two laps before where
cycle and lap do not keep step (R298). -/
def Bank.prefetches (b : Bank) (lap port k : Nat) : List Prefetch :=
  let cycle := b.getN P.glCycle (4 * port + k)
  let v := b.getN P.glBaseTime (4 * port + k)
  let base := 1000000000 * (v % 2 ^ 48) + v / 2 ^ 48
  ((offsets 0 (b.gateEntries port k)).filter (fun e => G.prefetch.get e.2 == 1)).map (fun e =>
    let w := base + e.1
    let ahead := if cycle % lap = 0 then lap + w % lap else 2 * lap
    { port := port, profile := k, assoc := G.assoc.get e.2, cycle := cycle
      start := (w + cycle * (ahead / cycle + 1) - ahead) % cycle, len := ahead + G.interval.get e.2 })

/-- A hold covers an instant of its cycle. -/
def Prefetch.covers (f : Prefetch) (t : Nat) : Bool := decide (f.cycle ≤ f.len) || decide ((t + f.cycle - f.start) % f.cycle < f.len)

/-- Associations that prefetches hold at an instant: of each port, those of the profile that holds most. -/
def heldAt (l : List Prefetch) (t : Nat) : Nat :=
  let on := l.filter (fun f => f.covers t)
  let ports := (on.map (·.port)).eraseDups
  (ports.map (fun p => ((List.range 4).map (fun k =>
    (((on.filter (fun f => f.port == p && f.profile == k)).map (·.assoc)).eraseDups).length)).foldl max 0)).sum

/-- The largest number of prefetch holds that the gate lists of a bank can produce at once: lists of one cycle are taken together,
and lists of different cycles at their worst. -/
def Bank.mostHolds (b : Bank) (lap : Nat) : Nat :=
  let all := ((b.listed P.glLen).filter (fun i => b.on P.gateEnable (i / 4))).flatMap (fun i => b.prefetches lap (i / 4) (i % 4))
  let cycles := (all.map (·.cycle)).eraseDups
  (cycles.map (fun c =>
    let l := all.filter (fun f => f.cycle == c)
    (l.map (fun f => heldAt l f.start)).foldl max 0)).sum

def State.slotRules (s : State) (b : Bank) : List Broken :=
  let lap := 1000000000 / b.getN P.lapRate 0
  [ if s.pinnedKeys b + b.mostHolds lap ≤ 30 then none else some (E.range, P.asSlotPolicy, 0) ]

/-! ### Grid measurement (R301, R302, R310, R313, R317, R325) -/

/-- Match fields of a tap (R302). -/
def Bank.tapMatch (b : Bank) (k : Nat) : List Nat :=
  [P.tapInstance, P.tapPort, P.tapVid, P.tapAppid, P.tapDa].map (fun p => b.getN p k)

/-- All sources share F_NOMINAL. -/
def Bank.sameHz (b : Bank) (taps : List Nat) : Bool := taps.all (fun k => some (b.getN P.fNominal k) == (taps.head?).map (b.getN P.fNominal))

def Bank.gridRules (b : Bank) : List Broken :=
  let taps := b.taps
  let lap := 1000000000 / b.getN P.lapRate 0
  let words := (taps.map (fun k => b.getN P.channels k * b.windowLen k)).sum
  [ brokenAt E.range P.smpRate (b.objectsOf [(P.smpRate, 1), (P.fNominal, 1), (P.decim, 1)]) (fun k => !b.windowOk k),
    brokenAt E.duplicate P.tapEnable taps (fun k => taps.any (fun j => decide (j < k) && b.tapMatch j == b.tapMatch k)),
    if words ≤ 1048576 then none else some (E.range, P.channels, 0),
    if taps.length ≤ min 1024 (lap / 64) then none else some (E.range, P.tapEnable, 0),
    brokenAt E.range P.tripSrcA (b.onAt P.tripEnable) (fun k => !b.sameHz ((b.tripSrcs k).map sourceTap)),
    brokenAt E.range P.trigPorts (b.onAt P.trigEnable) (fun k =>
      let i := b.getN P.tapInstance (b.trigTap k)
      i != 0 && (onesOf 512 (b.getN P.trigPorts k)).any (fun p => b.getN P.portOwner p != i)),
    brokenAt E.range P.pmuFreqSrc (b.onAt P.pmuEnable) (fun o => !b.sameHz ((b.pmuSources o).flatMap b.sourceTaps)),
    brokenAt E.range P.pmuHdr (b.onAt P.pmuEnable) (fun o => !(([42, 46, 62, 66] : List Nat).contains (b.getN P.pmuHdr o / 2 ^ 1024))) ]

/-! ### Instances (R444) -/

/-- Counter ranges of two enabled instances other than 0 overlap. -/
def Bank.rangesMeet (b : Bank) (i j : Nat) : Bool :=
  let lo := fun k => b.getN P.instCtrBase k
  let hi := fun k => b.getN P.instCtrBase k + b.getN P.instCtrCount k
  decide (max (lo i) (lo j) < min (hi i) (hi j))

/-- Parameters that name an owning instance, and the indices a bank lists for them. -/
def ownerParams : List Param := [P.portOwner, P.vidOwner, P.ftOwner, P.vrfOwner, P.asInstance, P.tapInstance]

def Bank.instRules (b : Bank) : List Broken :=
  let on := (b.onAt P.instEnable).filter (· != 0)
  [ brokenAt E.range P.instCtrBase on (fun i => on.any (fun j => decide (j < i) && b.rangesMeet i j)),
    ownerParams.findSome? (fun p => brokenAt E.range p (b.listed p) (fun i =>
      let o := b.getN p i
      decide (0 < o ∧ o < 64) && !b.on P.instEnable o)) ]

/-! ### The whole bank -/

/-- Every rule over the whole Standby bank, in the order of the chapters: the first that fails (R427). (DEDUCED, entry 93.) -/
def State.bankBroken (s : State) (b : Bank) : Broken :=
  (b.portRules ++ s.poolRules b ++ s.keyRules b ++ b.queueRules ++ b.macsecRules ++ b.assocRules ++ s.slotRules b ++ b.gridRules
    ++ b.instRules).findSome? id

end Sys2Proof.Machine
end

