-- ==== Sys2Proof/Machine/Keys.lean ====
section
/-! DEFINITION. Keys of associations: removal, what becomes current, and the commands of group 0x07 (R249 to R251, R267, R279 to R283,
R295, R297). -/
namespace Sys2Proof.Machine

/-- The number of an association and of a key in a request of group 0x07. -/
def Accepted.assoc (a : Accepted) : Nat := leAt a.payload 0 2
def Accepted.keyNum (a : Accepted) : Nat := leAt a.payload 2 1

/-- Instance i may name an object of instance `owner` (R423). -/
def owns (i owner : Nat) : Bool := i == 0 || i == owner

/-- The slot of a removed key gives up its state to the Vault, which keeps it; it is REMOVING while references are held (R283, R296). -/
def State.emptySlot (s : State) (slot : Nat) : State :=
  let k := s.sec.slot.at slot
  let s := (s.writeBack slot).loseBlocks slot
  if k.refs = 0 then s.updSec (fun x => { x with slot := x.slot.del slot }) else s.updKey slot (fun k => { k with st := 3 })

/-- Removes a key: VALID = 0 in its record; it leaves its slot and the HMAC key store, a fill of it reads the record again, and it is
current no longer (R249, R251). (DEDUCED, entry 76.) -/
def State.removeKey (s : State) (a k : Nat) : State :=
  let s := match s.slotOf a k with
    | some t => s.emptySlot t
    | none => s
  let s := s.writeVault a k 0 (fun r => { r with valid := false, wrapped := [] })
  let s := s.updSec (fun x => { x with
    hmac := x.hmac.filter (fun h => !(h.1 == a && h.2.1 == k))
    fills := x.fills.map (fun f => if f.assoc = a ∧ f.keyNum = k then { f with read := false } else f) })
  s.updAssoc a (fun x => { x with
    current := if x.current = some k then none else x.current
    change := match x.change with | some (n, l) => if n = k then none else some (n, l) | none => none
    soft := if bit x.soft k then x.soft - 2 ^ k else x.soft })

/-- Removes every key of an association. -/
def State.removeKeys (s : State) (a : Nat) : State := s.forEach ((List.range 4).filter (fun k => (s.sec.vault.at (4 * a + k)).valid)) (fun s k => s.removeKey a k)

/-- A key becomes the current one at order 3 of its lap: the old key's state stays, and a hold that lasted until then ends (R267,
R299). -/
def State.makeCurrent (s : State) (a k : Nat) : State :=
  let s := s.updAssoc a (fun x => { x with current := some k, change := none })
  match s.slotOf a k with
  | some t => s.updKey t (fun q => q.unhold false)
  | none => s.updSec (fun x => { x with fills := x.fills.map (fun f =>
      if f.assoc = a ∧ f.keyNum = k ∧ f.policy = 2 ∧ f.holdEnd = none then { f with policy := 0 } else f) })

/-- The change of the current key of an association, where it is due; a key removed meanwhile does not become current. -/
def State.keyChange (s : State) (a : Nat) : State :=
  match (s.sec.assoc.at a).change with
  | some (k, l) =>
    if later 32 l s.lap then s
    else if s.installed a k then s.makeCurrent a k else s.updAssoc a (fun x => { x with change := none })
  | none => s

/-- Order 3 of a lap: every change of a current key that is due. -/
def State.keyChanges (s : State) : State := s.forEach s.sec.assoc.keys (fun s a => s.keyChange a)

/-- Checks of a key command: 0, or its status. `change`: it changes the association. (DEDUCED, entry 76.) -/
def State.keyCheck (s : State) (inst : Nat) (a : Accepted) (change : Bool) : Nat :=
  if 4 ≤ a.keyNum then E.range
  else if !s.parOn P.asEnable a.assoc then E.notFound
  else if !owns inst (s.par P.asInstance a.assoc) then E.notOwner
  else if change && s.frozen (s.par P.asInstance a.assoc) then E.state
  else if (s.sec.assoc.at a.assoc).removeAt.isSome then E.busy
  else 0

/-! ### KEY.INSTALL -/

/-- The record of a new key is written; a first key is current at once, and a key of a pinned association is loaded (R249, R282,
R295). (DEDUCED, entry 76.) -/
def State.installKey (s : State) (a k : Nat) (key : List Byte) : State :=
  let s := s.writeVault a k 0 (fun _ => {
    valid := true, mode := s.par P.asMode a, inst := s.par P.asInstance a, wrapped := Crypto.kwWrap s.sec.keys.kek key
    useReserved := 0, nextPn := 1, lowestPn := 1, txReserved := 1 })
  let s := s.updAssoc a (fun x => { x with
    current := if x.current.isNone then some k else x.current, soft := if bit x.soft k then x.soft - 2 ^ k else x.soft })
  if s.parOn P.asSlotPolicy a && !isHmac (s.par P.asMode a) then s.holdKey a k true none else s

def State.keyInstall (s : State) (inst : Nat) (a : Accepted) : Reply :=
  let st := s.keyCheck inst a true
  if st ≠ 0 then .refuse st
  else if s.installed a.assoc a.keyNum then .refuse E.inUse
  else match Crypto.kwUnwrap (s.sess a.session).key (slice a.payload 8 40) with
  | none => .refuse E.keyWrap
  | some key =>
    let pinned := s.parOn P.asSlotPolicy a.assoc
    if pinned && decide (30 < s.pinnedKeys s.cfg.active + 1 + s.cfg.active.mostHolds s.lapNs) then .refuse E.range
    else .ok (s.installKey a.assoc a.keyNum key)

def execKeyInstall (slot : Nat) (s : State) : Host.Outcome State Fault Refusal := runs (serve slot Op.keyInstall State.keyInstall) s

/-! ### KEY.REMOVE -/

def State.keyRemove (s : State) (inst : Nat) (a : Accepted) : Reply :=
  let st := s.keyCheck inst a true
  if st ≠ 0 then .refuse st
  else if !s.installed a.assoc a.keyNum then .refuse E.notFound
  else if s.parOn P.asDir a.assoc && (s.sec.assoc.at a.assoc).current == some a.keyNum then .refuse E.inUse
  else .ok (s.removeKey a.assoc a.keyNum)

def execKeyRemove (slot : Nat) (s : State) : Host.Outcome State Fault Refusal := runs (serve slot Op.keyRemove State.keyRemove) s

/-! ### KEY.MAKE_CURRENT -/

def State.keyMakeCurrent (s : State) (inst : Nat) (a : Accepted) : Reply :=
  match s.atLap (leAt a.payload 3 1) (leAt a.payload 4 4) with
  | none => .refuse E.format
  | some lap =>
    let st := s.keyCheck inst a true
    if st ≠ 0 then .refuse st
    else if !s.installed a.assoc a.keyNum then .refuse E.notFound
    else .ok (s.updAssoc a.assoc (fun x => { x with change := some (a.keyNum, lap) })) (leBytes 4 lap)

def execKeyMakeCurrent (slot : Nat) (s : State) : Host.Outcome State Fault Refusal := runs (serve slot Op.keyMakeCurrent State.keyMakeCurrent) s

/-! ### KEY.STATUS -/

/-- The result of KEY.STATUS: of a key in no slot, the values its record reserves. (DEDUCED, entry 76.) -/
def State.keyReport (s : State) (a k : Nat) : List Byte :=
  let v := s.sec.vault.at (4 * a + k)
  let cur := b2n ((s.sec.assoc.at a).current == some k)
  match s.slotOf a k with
  | some t =>
    let q := s.sec.slot.at t
    leBytes 1 (b2n v.valid) ++ leBytes 1 cur ++ leBytes 1 t ++ leBytes 1 q.policy ++ leBytes 4 q.useCount.toNat
      ++ leBytes 8 q.nextPn.toNat ++ leBytes 8 q.lowestPn.toNat ++ leBytes 8 q.txPn.toNat
  | none =>
    leBytes 1 (b2n v.valid) ++ leBytes 1 cur ++ leBytes 1 255 ++ leBytes 1 0 ++ leBytes 4 v.useReserved.toNat
      ++ leBytes 8 v.nextPn.toNat ++ leBytes 8 v.lowestPn.toNat ++ leBytes 8 v.txReserved.toNat

def State.keyStatus (s : State) (inst : Nat) (a : Accepted) : Reply :=
  let st := s.keyCheck inst a false
  if st ≠ 0 then .refuse st else .ok s (s.keyReport a.assoc a.keyNum)

def execKeyStatus (slot : Nat) (s : State) : Host.Outcome State Fault Refusal := runs (serve slot Op.keyStatus State.keyStatus) s

end Sys2Proof.Machine
end

