-- ==== Sys2Proof/Machine/Activate.lean ====
section
/-! DEFINITION. What every rule ties to the lap of a commit (R434 step 2), the swap of the banks at order 3 of a boundary, and the
last-good image (R433 to R443). -/
namespace Sys2Proof.Machine

/-! ### What a bank changes -/

/-- Indices at which two banks differ in a parameter. -/
def Bank.changedAt (old new : Bank) (p : Param) : List Nat :=
  ((old.listed p ++ new.listed p).eraseDups).filter (fun i => old.get p i != new.get p i)

/-- Objects of which two banks differ in one of several parameters, `per` indices of a parameter to an object. -/
def Bank.changedIn (old new : Bank) (l : List (Param × Nat)) : List Nat :=
  (l.flatMap (fun e => (old.changedAt new e.1).map (· / e.2))).eraseDups

/-! ### Time (R31, R37) -/

/-- TIME.STATE changes: an entry is written (R37), and TIME_SOURCE holds while it is not LOCKED (R460). (DEDUCED, entry 18.) -/
def State.setTimeState (s : State) (t : TimeState) : State :=
  if s.time.state = t then s else
    ({ s with time := { s.time with state := t } }).timeless (fun s =>
      let s := s.ruleEvent 37 0 0 [t.code]
      if t = TimeState.locked then s.clearCond 187 0 else s.raise 187 0)

/-- A new LAP_RATE waits for a PTP second; TIME_SOURCE = FREERUN stops the discipline. -/
def State.newTime (s : State) (old : Bank) : State :=
  let new := s.cfg.active
  let s := { s with time := { s.time with pendingRate := if new.getN P.lapRate 0 = s.time.lapRate then none else some (new.getN P.lapRate 0) } }
  if new.getN P.timeSource 0 = 2 ∧ old.getN P.timeSource 0 ≠ 2 then
    ({ s with time := { s.time with step := none, slew := 0, freq := 0, ref10 := false } }).setTimeState .freerun
  else s

/-! ### Ports (R56, R63, R69, R72, R198) -/

/-- A port leaves service under the parameters it had until now, and is DISABLED with its cause. -/
def State.disableUnder (s : State) (old : Bank) (port cause : Nat) : State :=
  let new := s.cfg.active
  let s := ({ s with cfg := { s.cfg with active := old } }).disablePort port cause
  { s with cfg := { s.cfg with active := new } }

/-- PORT_ENABLE, and what R56 names. (DEDUCED, entry 94.) -/
def State.newPorts (s : State) (old : Bank) : State :=
  let new := s.cfg.active
  s.forEach (old.changedIn new [(P.portEnable, 1), (P.portSpeed, 1), (P.laneRate, 1), (P.fecMode, 1), (P.portRole, 1)]) (fun s p =>
    if !old.on P.portEnable p then s.acquirePort p
    else if new.on P.portEnable p then (s.disableUnder old p 1).acquirePort p
    else (s.disableUnder old p 0).linkDisabled p)

/-- Preemption is verified anew, flow control starts anew, and the thresholds are looked at again. -/
def State.newMacs (s : State) (old : Bank) : State :=
  let new := s.cfg.active
  let s := s.forEach ((old.changedIn new [(P.preemptEnable, 1), (P.verifyEnable, 1)]).filter s.isUp) (fun s p =>
    s.updPort p (fun x => { x with
      attempts := 0, verified := !new.on P.verifyEnable p
      verifyAt := if new.on P.preemptEnable p && new.on P.verifyEnable p then s.time.mono + 1000000 * new.getN P.verifyTime p else 0 }))
  let s := s.forEach (old.changedIn new [(P.flowCtrl, 1), (P.pfcMap, 16)]) (fun s p =>
    s.updPort p (fun x => { x with pause := [], xoff := 0, resend := [] }))
  s.forEach (List.range 4) (fun s q => s.pfcQuad q)

/-! ### Queues and gates (R220, R226, R234) -/

/-- The parameters of a queue's shaper and ramp. -/
def shaperParams : List Param :=
  [P.shaperMode, P.idleSlope, P.hiCredit, P.loCredit, P.resetTo, P.rampEnable, P.rampCir, P.rampCbs, P.rampPir, P.rampPbs]

/-- The state RESET_TO names: FULL or ZERO. -/
def Bank.resetQueue (b : Bank) (k : Nat) (q : QState) : QState :=
  if b.getN P.resetTo k = 0 then
    { q with credit := (b.getN P.hiCredit k * creditUnit : Nat), tc := (b.getN P.rampCbs k * creditUnit : Nat)
             tp := (b.getN P.rampPbs k * creditUnit : Nat) }
  else { q with credit := 0, tc := 0, tp := 0 }

/-- Changed shapers and ramps are reset, a changed QUANTUM clears the deficit, and a queue that changes its SCHED_MODE enters or
leaves the list of R220. (DEDUCED, entry 94.) -/
def State.newQueues (s : State) (old : Bank) : State :=
  let new := s.cfg.active
  let s := s.forEach (old.changedIn new (shaperParams.map (·, 1))) (fun s k => s.updQ k (new.resetQueue k))
  let s := s.forEach (old.changedAt new P.quantum) (fun s k => s.updQ k (fun q => { q with dc := 0 }))
  let s := s.forEach (old.changedAt new P.schedMode) (fun s k =>
    let rest := (s.sched.active.at (k / 16)).filter (· != k % 16)
    let list := if new.getN P.schedMode k = 1 ∧ s.queueEmpty k = false then rest ++ [k % 16] else rest
    ({ s with sched := { s.sched with active := s.sched.active.put (k / 16) list } }).updQ k (fun q => { q with dc := 0 }))
  let s := s.forEach (old.changedAt new P.relayQuantum) (fun s c => s.updFab (fun f => { f with dc := f.dc.del c }))
  s.forEach (old.changedAt new P.relaySched) (fun s c => s.updFab (fun f => { f with
    dc := f.dc.del c
    active := f.active.filter (· != c) ++ (if new.getN P.relaySched c = 1 ∧ f.active.contains c = false
      ∧ f.txfifo.any (fun e => e.1 % 8 == c && !e.2.isEmpty) = true then [c] else []) }))

/-- A PTP value of a bank in nanoseconds. -/
def ptpNs (v : Nat) : Nat := 1000000000 * (v % 2 ^ 48) + v / 2 ^ 48

/-- Start time of a list committed at Tc, and whether it is late (R234). -/
def startTime (base cycle tc lap : Nat) : Nat × Bool :=
  if tc + lap ≤ base then (base, false) else (base + ceilDiv (tc + lap - base) cycle * cycle, true)

/-- Lists that a commit changes: 4 × port + profile. -/
def Bank.newLists (old new : Bank) : List Nat :=
  (old.changedIn new [(P.glBaseTime, 1), (P.glCycle, 1), (P.glLen, 1), (P.glEntry, 256)]).filter (fun x =>
    old.get P.glBaseTime x != new.get P.glBaseTime x || old.get P.glCycle x != new.get P.glCycle x
      || old.gateEntries (x / 4) (x % 4) != new.gateEntries (x / 4) (x % 4))

/-- Every changed list waits for its start; one that is late although STRICT_START = 1 is recorded (R234, R235). -/
def State.newGates (s : State) (old : Bank) : State :=
  let new := s.cfg.active
  let s := s.forEach (old.newLists new) (fun s x =>
    let (start, late) := startTime (ptpNs (new.getN P.glBaseTime x)) (new.getN P.glCycle x) s.time.dev s.lapNs
    let g : GateList := { entries := new.gateEntries (x / 4) (x % 4), cycle := new.getN P.glCycle x, start := start }
    let s := { s with sched := { s.sched with profile := s.sched.profile.upd x (fun p => { p with wait := some g, late := late }) } }
    if late && new.on P.strictStart x then s.ruleEvent 235 (x / 4) 0 [x % 4] else s)
  s.forEach (old.changedAt new P.gateEnable) (fun s p => s.gateMoves p)

/-- A changed list that is late at a predicted commit boundary although STRICT_START = 1 (R235). -/
def Bank.lateList (old new : Bank) (tc lap : Nat) : Option Nat :=
  (old.newLists new).find? (fun x => new.on P.strictStart x
    && (startTime (ptpNs (new.getN P.glBaseTime x)) (new.getN P.glCycle x) tc lap).2)

/-! ### Associations, measurement, fabric, counters, instances -/

/-- A deleted association loses its keys at the fence; pinned keys are loaded, and a policy back at LRU frees them (R251, R295). -/
def State.newAssocs (s : State) (old : Bank) : State :=
  let new := s.cfg.active
  let s := s.forEach (old.changedAt new P.asEnable) (fun s a =>
    if old.on P.asEnable a then s.updAssoc a (fun x => { x with removeAt := some s.cfg.fence }) else s)
  s.forEach (old.changedIn new [(P.asSlotPolicy, 1), (P.asEnable, 1)]) (fun s a =>
    if new.on P.asSlotPolicy a && new.on P.asEnable a then
      if isHmac (new.getN P.asMode a) then s
      else s.forEach ((List.range 4).filter (s.installed a)) (fun s k => s.holdKey a k true none)
    else s.updSec (fun x => { x with
      slot := x.slot.mapAll (fun _ k => if k.assoc = a ∧ k.policy = 1 then { k with policy := if k.timed || k.untilCurrent then 2 else 0 } else k)
      fills := x.fills.map (fun f => if f.assoc = a ∧ f.policy = 1 then { f with policy := 0 } else f) }))

/-- A tap that is enabled or measures differently starts anew, a trigger that is enabled or looks elsewhere is ARMED, and a changed
output counts a new configuration (R319, R328). (DEDUCED, entries 94, 124.) -/
def State.newGrid (s : State) (old : Bank) : State :=
  let new := s.cfg.active
  let taps := old.changedIn new [(P.tapEnable, 1), (P.smpRate, 1), (P.fNominal, 1), (P.channels, 1), (P.decim, 1)]
  let trigs := old.changedIn new [(P.trigEnable, 1), (P.trigType, 1), (P.trigSrc, 1), (P.trigIndex, 1), (P.trigChannel, 1)]
  let outs := old.changedIn new [(P.pmuEnable, 1), (P.pmuPort, 1), (P.pmuClass, 1), (P.pmuHdr, 1), (P.pmuIdcode, 1), (P.pmuStn, 1),
    (P.pmuRate, 1), (P.pmuNph, 1), (P.pmuPh, 16), (P.pmuFreqSrc, 1), (P.pmuCfgS, 1)]
  let g := s.gmu
  { s with gmu := { g with
    tap := taps.foldl (fun t k => t.upd k (fun x => { record := x.record, laps := x.laps, lastUsed := s.time.mono })) g.tap
    trig := trigs.foldl (fun t k => t.upd k (fun x => { fires := x.fires, fireLap := x.fireLap })) g.trig
    pmu := outs.foldl (fun t k => t.upd k (fun x => { x with cfgCnt := x.cfgCnt + 1, sentCfg := false })) g.pmu } }

/-- A change of the fabric's identity ends every adjacency (R329); a change of a cost is told to the others (R333). -/
def State.newFabric (s : State) (old : Bank) : State :=
  let new := s.cfg.active
  let s := if (old.changedIn new [(P.fabricEnable, 1), (P.idMode, 1), (P.deviceId, 1), (P.fabricId, 1), (P.fabricSeed, 1)]).isEmpty then s
    else
      let s := s.forEach s.adjacent (fun s p => s.relayDown p false)
      if new.on P.fabricEnable 0 then s.proposeId else s.updFab (fun f => { f with settled := false, calm := 0 })
  if (old.changedAt new P.relayCost).isEmpty then s else s.updFab (fun f => { f with lsaDue := true, stale := true })

/-- A counter whose CTR_UNIT changes is cleared (R488). -/
def State.newCounters (s : State) (old : Bank) : State :=
  { s with ctr := { s.ctr with ctr := (old.changedAt s.cfg.active P.ctrUnit).foldl (fun t g =>
      t.upd g (fun c => { c with value := 0, sticky := false, was := [] })) s.ctr.ctr } }

/-- A deleted instance for which INST_ENABLE = 1 was staged runs again (R454). -/
def State.newInsts (s : State) : State :=
  { s with inst := s.inst.mapAll (fun _ x => if x.revive then { x with st := 0, revive := false } else x) }

/-- Everything the manual ties to the lap of a commit, for a bank that has replaced `old` (R434 step 2, R495). (DEDUCED, entries 29, 94.) -/
def State.applyBank (s : State) (old : Bank) : State :=
  let s := ((s.newTime old).newPorts old).newMacs old
  let s := ((s.newQueues old).newGates old).newAssocs old
  (((s.newGrid old).newFabric old).newCounters old).newInsts

/-! ### Activation (R433, R434, R438, R439) -/

/-- The drain fence from now: max(2 laps, 1 s + 1 lap). -/
def State.drainFence (s : State) : Nat := s.time.mono + max (2 * s.lapNs) (1000000000 + s.lapNs)

/-- The banks swap, and the replaced one enters a state. -/
def State.swapBanks (s : State) (st : Standby) : State :=
  let old := s.cfg.active
  ({ s with cfg := { s.cfg with
    active := s.cfg.standby, standby := old, activeGen := s.cfg.standbyGen, standbyGen := s.cfg.activeGen, st := st
    window := none, expired := false, commitLap := s.lap, fence := s.drainFence } }).applyBank old

/-- The Active generation counts as confirmed: an image of it is due unless it is LAST_GOOD_GEN; a write in progress is given up for it
(R437, R439, R442). (DEDUCED, entry 126.) -/
def State.confirmed (s : State) : State :=
  { s with cfg := { s.cfg with window := none, expired := false,
                               lgDue := if s.cfg.activeGen = s.cfg.lastGood ∧ s.cfg.writing.isSome = false then s.cfg.lgDue else some true } }

/-- An activation is forgotten. -/
def State.noAct (s : State) : State := { s with cfg := { s.cfg with act := none } }

/-- A commit is activated: it is confirmed, or its window opens. -/
def State.commitNow (s : State) (a : Activation) : State :=
  let s := s.noAct.swapBanks .draining
  let s := { s with cfg := { s.cfg with fenceJob := (a.session, a.seq) } }
  if a.confirmS = 0 then s.confirmed
  else { s with cfg := { s.cfg with window := some (s.time.mono + 1000000000 * a.confirmS) } }

/-- A rollback: reason 0 HOST, 1 CONFIRM_TIMEOUT. -/
def State.rollBack (s : State) (reason : Nat) : State :=
  let gens := [s.cfg.activeGen.toNat, s.cfg.standbyGen.toNat]
  ((s.swapBanks .retiring).confirmed).log 0x040 [reason] gens

/-- A job of a session that was asked to end. -/
def State.aborting (s : State) (a : Activation) : Bool := ((s.job a.session a.seq).map (·.abort)).getD false

/-- An activation whose lap has come: a commit, or a rollback by the host. -/
def State.activate (s : State) (a : Activation) : State :=
  if s.aborting a then
    let s := s.noAct.endJob a.session a.seq 2 E.aborted
    if a.kind = 0 then { s with cfg := { s.cfg with st := .staging } } else s
  else if a.kind = 0 then s.commitNow a
  else if s.cfg.st = .draining ∨ s.cfg.st = .previous then
    let s := s.noAct.rollBack 0
    { s with cfg := { s.cfg with fenceJob := (a.session, a.seq) } }
  else s.noAct.endJob a.session a.seq 0 E.noRollback

/-- A window that has ended unconfirmed. -/
def State.windowOver (s : State) : Bool := s.cfg.expired || (s.cfg.window.map (fun w => decide (w ≤ s.time.mono))).getD false

/-- Order 3 of a boundary, for the banks: a rollback at the end of a window while the Pacer is up, or an activation due. -/
def State.activation (s : State) : State :=
  if s.windowOver && !s.pacer.down then s.rollBack 1 else
    match s.cfg.act with
    | some a => if later 32 a.lap s.lap then s else s.activate a
    | none => s

/-! ### The fence (R433, R435) -/

/-- Keys of deleted associations whose fence a boundary has reached are removed (R251). -/
def State.dropKeys (s : State) : State :=
  s.forEach (s.sec.assoc.keys.filter (fun a => match (s.sec.assoc.at a).removeAt with
    | some t => decide (t ≤ s.boundaryAt)
    | none => false)) (fun s a => (s.removeKeys a).updAssoc a (fun x => { x with removeAt := none }))

/-- The fence of Standby has passed: its state moves on, what the new generation dropped is freed, and the job ends. -/
def State.fenceOver (s : State) (now next : Standby) : State :=
  if s.cfg.st = now ∧ s.cfg.fence ≤ s.boundaryAt then
    let s := ({ s with cfg := { s.cfg with st := next } }).dropKeys
    let j := s.cfg.fenceJob
    s.endJob j.1 j.2 0 0 (leBytes 2 s.cfg.activeGen.toNat ++ leBytes 2 0 ++ leBytes 4 s.cfg.commitLap
      ++ (if (s.job j.1 j.2).any (fun k => k.op == Op.cfgCommit) then leBytes 6 0 else []))
  else s

def execCommitFencePass (s : State) : Host.Outcome State Fault Refusal := runs (fun s => s.fenceOver .draining .previous) s

def execRollbackFencePass (s : State) : Host.Outcome State Fault Refusal := runs (fun s => s.fenceOver .retiring .retired) s

/-- CONFIRM_WINDOW_EXPIRE: the rollback follows at the first boundary at or after the end, once the Pacer is up (R438). -/
def State.confirmEnds (s : State) : State := if s.windowOver then { s with cfg := { s.cfg with expired := true } } else s

def execConfirmWindowExpire (s : State) : Host.Outcome State Fault Refusal := runs State.confirmEnds s

/-! ### The last-good image (R441, R442) -/

/-- The slot that holds LAST_GOOD_GEN: true for slot 1. -/
def Cfg.goodSlot (c : Cfg) : Bool :=
  c.slot1.valid && c.slot1.gen == c.lastGood.toNat
    && !(c.slot0.valid && c.slot0.gen == c.lastGood.toNat && later 32 c.slot0.writeSeq c.slot1.writeSeq)

/-- The image in a slot. -/
def Cfg.slot (c : Cfg) (k : Bool) : LgImage := if k then c.slot1 else c.slot0

/-- Host-inserted entries where they stand: what the Pacer's shadow of a store holds. -/
def shadowOf (t : Tab Entry) : Tab Entry := (t.filter (fun e => e.2.valid && e.2.host)).map (fun e => (e.1, { e.2 with hit := false }))

/-- Key and result of entries. -/
def keyed (t : Tab Entry) : List (Nat × Nat) := t.map (fun e => (e.2.key, e.2.result))

/-- Host-owned table state at this moment (R441). -/
def State.tableImage (s : State) : LgImage :=
  { front := shadowOf s.tbl.front
    frontOvf := shadowOf s.tbl.frontOvf
    station := keyed (shadowOf s.tbl.station ++ shadowOf s.tbl.stationOvf)
    rules := (s.srch.rule.filter (fun r => r.2.valid)).map (fun r => (r.1, ({ r.2 with lost := 0 } : Rule).sealed))
    pfx := (s.srch.pfx.filter (fun p => p.2.valid)).map (fun p => (p.1, ({ p.2 with lost := 0 } : Prefix).sealed))
    groupRows := s.srch.groupRows
    nextHandle := s.srch.nextHandle
    objs := s.tbl.obj.filter (fun r => r.2.st == 1)
    vault := s.sec.vault
    rbDisable := s.cfg.rbDisable }

/-- The image to be written: of the Active generation when it was confirmed, else keeping GEN (R442). -/
def State.lgImage (s : State) (confirm : Bool) : LgImage :=
  let c := s.cfg
  let good := c.slot c.goodSlot
  let was := match c.writing with
    | some (i, _) => (i.gen, i.bank)
    | none => (c.lastGood.toNat, if c.activeGen = c.lastGood then c.active else good.bank)
  let (gen, bank) := if confirm then (c.activeGen.toNat, c.active) else was
  ({ s.tableImage with gen := gen, bank := bank, writeSeq := (good.writeSeq + 1) % 2 ^ 32, valid := true } : LgImage).seal s.sec.keys.lastGood

/-- Writing of an image begins in the slot that does not hold LAST_GOOD_GEN, which holds no image meanwhile. (DEDUCED, entry 95.) -/
def State.beginImage (s : State) (confirm : Bool) : State :=
  let k := !s.cfg.goodSlot
  let i := s.lgImage confirm
  let s := s.ruleEvent 506 i.writeSeq 0 [0, i.writeSeq]
  { s with cfg := { s.cfg with
    writing := some (i, k), lgDue := none, lgAt := s.time.mono + 1000000000 * s.par P.lgRefreshS
    slot0 := if k then s.cfg.slot0 else { s.cfg.slot0 with valid := false }
    slot1 := if k then { s.cfg.slot1 with valid := false } else s.cfg.slot1 } }

/-- At a boundary the Pacer takes the image that is due from its shadows. -/
def State.imageDue (s : State) : State :=
  match s.cfg.lgDue with
  | some confirm => if s.pacer.down then s else s.beginImage confirm
  | none => s

/-- LAST_GOOD_WRITE: the write has ended; `ok`: the slot was read back and verified. (DEDUCED, entry 95.) -/
def State.lastGoodWrite (s : State) (ok : Bool) : State :=
  match s.cfg.writing with
  | none => s
  | some (i, k) =>
    let s := ({ s with cfg := { s.cfg with writing := none } }).ruleEvent 506 i.writeSeq 1 [0, i.writeSeq]
    if ok then { s with cfg := { s.cfg with
      lastGood := BitVec.ofNat 16 i.gen, slot0 := if k then s.cfg.slot0 else i, slot1 := if k then i else s.cfg.slot1 } }
    else (s.ruleEvent 442 i.gen 0).raise 184 0

def execLastGoodWrite (ok : Bool) (s : State) : Host.Outcome State Fault Refusal := runs (fun s => s.lastGoodWrite ok) s

/-- Two lists hold the same elements. (DEDUCED, entry 95.) -/
def sameSet (a b : List (Nat × Nat)) : Bool := a.length == b.length && a.all b.contains

/-- The host-owned table state of two images is the same, wherever their entries stand. -/
def LgImage.sameTables (a b : LgImage) : Bool :=
  sameSet (keyed (a.front ++ a.frontOvf)) (keyed (b.front ++ b.frontOvf)) && sameSet a.station b.station
    && a.rules.map (·.2) == b.rules.map (·.2) && a.pfx.all (fun e => b.pfx.any (fun f => e.2 == f.2)) && a.pfx.length == b.pfx.length
    && a.objs == b.objs && a.vault == b.vault && a.rbDisable == b.rbDisable

/-- LG_REFRESH_EXPIRE: host-owned table state that differs from the last image is written again. (DEDUCED, entry 95.) -/
def State.lgRefresh (s : State) : State :=
  if s.par P.lgRefreshS = 0 ∨ s.time.mono < s.cfg.lgAt ∨ s.cfg.writing.isSome = true then s else
    let good := s.cfg.slot s.cfg.goodSlot
    let s := { s with cfg := { s.cfg with lgAt := s.time.mono + 1000000000 * s.par P.lgRefreshS } }
    if good.valid && s.tableImage.sameTables good then s
    else { s with cfg := { s.cfg with lgDue := some (s.cfg.lgDue == some true) } }

def execLgRefreshExpire (s : State) : Host.Outcome State Fault Refusal := runs State.lgRefresh s

end Sys2Proof.Machine
end

