-- ==== Sys2Proof/Machine/Staging.lean ====
section
/-! DEFINITION. The commands of groups 0x02 and 0x06: staging into the Standby bank, commit, confirmation, rollback, device time, gate
lists and profiles (R37, R233, R423 to R440, R454). -/
namespace Sys2Proof.Machine

/-! ### Staging commands (R431, R432) -/

/-- Changes the banks. -/
def State.updCfg (s : State) (f : Cfg → Cfg) : State := { s with cfg := f s.cfg }

/-- Standby becomes a copy of Active, with no instance to be revived. -/
def State.copyActive (s : State) : State :=
  { (s.updCfg (fun c => { c with standby := c.active, st := .staging })) with
    inst := s.inst.mapAll (fun _ x => { x with revive := false }) }

/-- What a staging command does first: the state it then stages into, or none with the state after E_BUSY (R431, R432). -/
def State.stagePrelude (s : State) : State × Bool :=
  match s.cfg.st with
  | .staging => (s, s.cfg.window.isNone)
  | .committing | .draining | .retiring => (s, false)
  | _ =>
    if 32766 ≤ (s.cfg.activeGen - s.cfg.lastGood).toNat then
      (s.ruleEvent 431 s.cfg.activeGen.toNat 0 [s.cfg.lastGood.toNat], false)
    else if s.cfg.window.isSome then (s, false)
    else
      let g := if later 16 s.cfg.lastGood.toNat s.cfg.activeGen.toNat then s.cfg.lastGood else s.cfg.activeGen
      (s.copyActive.updCfg (fun c => { c with standbyGen := g + 1 }), true)

/-- A staging command under its prelude. -/
def State.stage (s : State) (f : State → Reply) : Reply :=
  match s.stagePrelude with
  | (s, true) => f s
  | (s, false) => .refuseWith s E.busy []

/-! ### Ownership of parameters (R423, R446) -/

/-- Files whose parameters of 512 indices or a multiple of them are held per port. -/
def portFiles : List Nat := [3, 4, 5, 7, 8, 9, 10, 11]

/-- The tap a grid parameter's object stands on: none for a port or an output. -/
def Bank.gridTap (b : Bank) (p : Param) (i : Nat) : Option Nat :=
  if p.count = 1024 ∧ p.id < P.tripEnable.id then some i
  else if p.count = 8192 then some (i / 8)
  else if p.count = 1024 then some (sourceTap (b.getN P.tripSrcA i))
  else if P.trigEnable.id ≤ p.id ∧ p.id ≤ P.clearLaps.id then some (b.trigTap i)
  else none

/-- The instance that owns the object a parameter is held for. -/
def State.paramOwner (s : State) (p : Param) (i : Nat) : Nat :=
  let file := p.id / 256
  if p.count = 65536 then s.par P.asInstance i
  else if portFiles.contains file && p.count % 512 == 0 then s.portInst (i / (p.count / 512))
  else if p.id = P.gmuLock.id then s.portInst i
  else if file = 12 then (match s.cfg.active.gridTap p i with | some k => s.par P.tapInstance k | none => 0)
  else if p.id = P.ctrUnit.id then s.ctrOwner i
  else 0

/-- Owners of the objects that elements name. -/
def State.owners (s : State) (l : List (Nat × Nat)) : List Nat :=
  l.filterMap (fun e => match findParam e.1 with
    | some p => if e.2 < p.count then some (s.paramOwner p e.2) else none
    | none => none)

/-! ### CFG.SET (R13, R426, R427, R454) -/

/-- What R454 asks of an element while an instance is deleted: its status, or 0. -/
def State.deletedCheck (s : State) (p : Param) (i : Nat) (v : Int) : Nat :=
  let gone := fun k => (s.inst.at k).st == 2 && !(s.inst.at k).revive
  if p.id = P.instEnable.id then (if gone i && v == 0 then E.range else 0)
  else if (ownerParams.map (·.id)).contains p.id && decide (0 < v ∧ v < 64) && gone v.toNat then E.range
  else 0

/-- PFC_MAP of classes 12 to 15 is NONE (R67). -/
def pfcClassOk (p : Param) (i : Nat) (v : Int) : Bool := decide (p.id ≠ P.pfcMap.id) || decide (i % 16 < 12) || v == 8

/-- The status of an element, 0 when it may be staged. -/
def State.elementStatus (s : State) (e : Nat × Nat × List Byte) : Nat :=
  match findParam e.1 with
  | none => E.range
  | some p =>
    if p.count ≤ e.2.1 then E.range
    else if !p.form.lenOk e.2.2.length then E.format
    else
      let v := p.form.decode e.2.2
      if !p.form.rangeOk e.2.1 v || !pfcClassOk p e.2.1 v then E.range else s.deletedCheck p e.2.1 v

/-- Stages one element. -/
def State.stageElement (s : State) (e : Nat × Nat × List Byte) : State :=
  match findParam e.1 with
  | none => s
  | some p =>
    let v := p.form.decode e.2.2
    let s := s.updCfg (fun c => { c with standby := c.standby.set p e.2.1 v })
    if p.id = P.instEnable.id ∧ (s.inst.at e.2.1).st = 2 then
      { s with inst := s.inst.upd e.2.1 (fun x => { x with revive := v == 1 }) }
    else s

/-- Stages elements in order: the state, how many were applied, and the failures by position. -/
def stageAll : Nat → State → List (Nat × Nat × List Byte) → State × Nat × List (Nat × Nat)
  | _, s, [] => (s, 0, [])
  | n, s, e :: l =>
    let st := s.elementStatus e
    if st = 0 then
      let (s, a, f) := stageAll (n + 1) (s.stageElement e) l
      (s, a + 1, f)
    else
      let (s, a, f) := stageAll (n + 1) s l
      (s, a, (n, st) :: f)

/-- The command's checks and effect (DEDUCED, entry 92). -/
def State.cfgSet (s : State) (inst : Nat) (a : Accepted) : Reply :=
  let n := batchCount a.payload
  let l := (elementsFrom n (a.payload.drop 8)).getD []
  let own := s.owners (l.map (fun e => (e.1, e.2.1)))
  if n < 1 ∨ 4096 < n then .refuse E.range
  else if !own.all (owns inst) then .refuse E.notOwner
  else if own.any s.frozen then .refuse E.state
  else s.stage (fun s =>
    let (s, done, failed) := stageAll 0 s l
    .done s (if failed.isEmpty then 0 else E.partial_) (batchResult done failed) [])

def execCfgSet (slot : Nat) (s : State) : Host.Outcome State Fault Refusal := runs (serve slot Op.cfgSet State.cfgSet) s

/-! ### CFG.GET -/

/-- A value as CFG.GET returns it. -/
def Bank.valueOf (b : Bank) (p : Param) (i : Nat) : Int := if p.id = P.parseEntry.id then (b.parseEntryOf i : Int) else b.get p i

/-- An element with a value. -/
def element (id i : Nat) (v : List Byte) : List Byte :=
  leBytes 2 id ++ leBytes 4 i ++ leBytes 2 v.length ++ v ++ List.replicate (elementSize v.length - 8 - v.length) 0#8

/-- Elements of a bank; an EMPTY Standby bank holds nothing, and what is read of it is free. -/
def getAll (bank : Option Bank) : State → List (Nat × Nat) → State × List Byte
  | s, [] => (s, [])
  | s, e :: l =>
    match findParam e.1 with
    | none => getAll bank s l
    | some p =>
      let (v, s) := match bank with
        | some b => (p.form.encode (b.valueOf p e.2), s)
        | none => (leBytes p.form.width (s.freeVal (8 * p.form.width)), s.drawn)
      let (s, r) := getAll bank s l
      (s, element e.1 e.2 v ++ r)

/-- The command's checks and effect (DEDUCED, entry 92). -/
def State.cfgGet (s : State) (inst : Nat) (a : Accepted) : Reply :=
  let bank := leAt a.payload 0 1
  let n := leAt a.payload 2 2
  let l := (List.range n).map (fun i => (leAt a.payload (8 + 8 * i) 2, leAt a.payload (10 + 8 * i) 4))
  if 1 < bank ∨ n < 1 ∨ 256 < n then .refuse E.range
  else if !(s.owners l).all (owns inst) then .refuse E.notOwner
  else if l.any (fun e => match findParam e.1 with | some p => decide (p.count ≤ e.2) | none => true) then .refuse E.range
  else
    let b := if bank = 0 then some s.cfg.active else if s.cfg.st = .empty then none else some s.cfg.standby
    let (s, r) := getAll b s l
    .ok s r

def execCfgGet (slot : Nat) (s : State) : Host.Outcome State Fault Refusal := runs (serve slot Op.cfgGet State.cfgGet) s

/-! ### CFG.RESTAGE, CFG.VALIDATE -/

def State.cfgRestage (s : State) (_ : Nat) (_ : Accepted) : Reply :=
  s.stage (fun s => .ok s.copyActive (leBytes 2 s.cfg.standbyGen.toNat))

def execCfgRestage (slot : Nat) (s : State) : Host.Outcome State Fault Refusal := runs (serve slot Op.cfgRestage State.cfgRestage) s

/-- BAD_PARAM and BAD_INDEX. -/
def badBytes (p : Param) (i : Nat) : List Byte := leBytes 2 p.id ++ leBytes 4 i

def State.cfgValidate (s : State) (_ : Nat) (_ : Accepted) : Reply :=
  match s.bankBroken s.cfg.standby with
  | some (st, p, i) => .refuseWith s st (badBytes p i)
  | none => .ok s (leBytes 6 0)

def execCfgValidate (slot : Nat) (s : State) : Host.Outcome State Fault Refusal := runs (serve slot Op.cfgValidate State.cfgValidate) s

/-! ### CFG.COMMIT (R433 to R436) -/

/-- A commit or rollback job exists. -/
def State.cfgJob (s : State) : Bool := s.running.any (fun j => j.op == Op.cfgCommit || j.op == Op.cfgRollback)

/-- Standby holds a change from Active. -/
def State.staged (s : State) : Bool :=
  s.cfg.st == .staging && (s.cfg.standby != s.cfg.active || s.inst.any (fun e => e.2.revive))

/-- The command's checks and effect (DEDUCED, entry 92). -/
def State.cfgCommit (s : State) (_ : Nat) (a : Accepted) : Reply :=
  let atLap := leAt a.payload 0 1
  let confirm := leAt a.payload 2 2
  let lap := leAt a.payload 4 4
  if (s.atLap atLap lap).isNone then .refuse E.format
  else if 3600 < confirm ∨ (confirm ≠ 0 ∧ s.cfg.rbDisable = true) then .refuse E.range
  else if s.cfgJob || s.cfg.window.isSome then .refuse E.busy
  else if !s.staged then .refuse E.notStaged
  else .job (s.updCfg (fun c => { c with st := .committing })) (.commit confirm (atLap = 1) lap) 2

def execCfgCommit (slot : Nat) (s : State) : Host.Outcome State Fault Refusal := runs (serve slot Op.cfgCommit State.cfgCommit) s

/-- Device time predicted for the boundary of a lap. -/
def State.lapTime (s : State) (lap : Nat) : Nat :=
  s.time.next + ((lap + 2 ^ 32 - (s.lap + 1) % 2 ^ 32) % 2 ^ 32) * s.lapNs

/-- A commit that fails its checks, or is aborted, leaves Standby in STAGING. -/
def State.commitEnds (s : State) (j : Job) (rstate status : Nat) (bad : List Byte) : State :=
  (s.updCfg (fun c => { c with st := .staging, act := none })).endJob j.session j.seq rstate status
    (leBytes 2 s.cfg.standbyGen.toNat ++ leBytes 6 0 ++ bad)

/-- Step 1 of R434, whose end is the acceptance of the commit. -/
def State.commitCheck (s : State) (j : Job) (confirm : Nat) (atLap : Bool) (lap : Nat) : State :=
  let l := (s.atLap (b2n atLap) lap).getD ((s.lap + 1) % 2 ^ 32)
  match s.bankBroken s.cfg.standby with
  | some (st, p, i) => s.commitEnds j 0 st (badBytes p i)
  | none =>
    match s.cfg.active.lateList s.cfg.standby (s.lapTime l) s.lapNs with
    | some x => s.commitEnds j 0 E.gateLate (badBytes P.glBaseTime x)
    | none =>
      (s.updCfg (fun c => { c with act := some { lap := l, kind := 0, confirmS := confirm, session := j.session, seq := j.seq } })).stepJob
        j.session j.seq (fun j => { j with waits := true })

/-- A step of a commit job: its checks, or its abort before the activation. -/
def State.commitStep (s : State) (j : Job) (confirm : Nat) (atLap : Bool) (lap : Nat) : State :=
  if s.cfg.st ≠ .committing then s
  else if j.abort then s.commitEnds j 2 E.aborted (leBytes 6 0)
  else if j.waits then s
  else s.commitCheck j confirm atLap lap

/-! ### CFG.CONFIRM (R437) -/

/-- The command's checks and effect (DEDUCED, entry 92). -/
def State.cfgConfirm (s : State) (_ : Nat) (a : Accepted) : Reply :=
  match s.cfg.window with
  | some w => if leAt a.payload 0 2 = s.cfg.activeGen.toNat ∧ a.at_ < w then .ok s.confirmed else .refuse E.noRollback
  | none => .refuse E.noRollback

def execCfgConfirm (slot : Nat) (s : State) : Host.Outcome State Fault Refusal := runs (serve slot Op.cfgConfirm State.cfgConfirm) s

/-! ### CFG.ROLLBACK (R439) -/

/-- The command's checks and effect (DEDUCED, entry 92). -/
def State.cfgRollback (s : State) (_ : Nat) (a : Accepted) : Reply :=
  match s.atLap (leAt a.payload 0 1) (leAt a.payload 4 4) with
  | none => .refuse E.format
  | some lap =>
    if !(s.cfg.st == .draining || s.cfg.st == .previous) || s.cfg.rbDisable then .refuse E.noRollback
    else if s.cfgJob then .refuse E.busy
    else .job (s.updCfg (fun c => { c with act := some { lap := lap, kind := 1, session := a.session, seq := a.seq } })) .rollback 1

def execCfgRollback (slot : Nat) (s : State) : Host.Outcome State Fault Refusal := runs (serve slot Op.cfgRollback State.cfgRollback) s

/-- A step of a rollback job: its abort before the activation. -/
def State.rollbackStep (s : State) (j : Job) : State :=
  if j.abort && (s.cfg.act.map (fun a => a.kind == 1)).getD false then
    s.noAct.endJob j.session j.seq 2 E.aborted
  else s

/-! ### CFG.ROLLBACK_DISABLE (R440) -/

def State.cfgRollbackDisable (s : State) (_ : Nat) (a : Accepted) : Reply :=
  let v := leAt a.payload 0 1
  if 1 < v then .refuse E.range
  else if v = 1 ∧ s.cfg.window.isSome then .refuse E.busy
  else .ok (s.updCfg (fun c => { c with rbDisable := v == 1, lgDue := some (c.lgDue == some true) }))

def execCfgRollbackDisable (slot : Nat) (s : State) : Host.Outcome State Fault Refusal :=
  runs (serve slot Op.cfgRollbackDisable State.cfgRollbackDisable) s

/-! ### CFG.STATUS -/

def State.cfgStatus (s : State) (_ : Nat) (_ : Accepted) : Reply :=
  let c := s.cfg
  let left := match c.window with | some w => ceilDiv (w - s.time.mono) 1000000000 | none => 0
  .ok s (leBytes 2 c.activeGen.toNat ++ leBytes 2 c.standbyGen.toNat ++ leBytes 2 c.lastGood.toNat ++ leBytes 1 c.st.code
    ++ leBytes 1 0 ++ leBytes 2 left ++ leBytes 2 0 ++ leBytes 4 c.commitLap)

def execCfgStatus (slot : Nat) (s : State) : Host.Outcome State Fault Refusal := runs (serve slot Op.cfgStatus State.cfgStatus) s

/-! ### TIME.SET_SECONDS, TIME.READ -/

def State.timeSetSeconds (s : State) (_ : Nat) (a : Accepted) : Reply :=
  if s.par P.timeSource ≠ 1 then .refuse E.state
  else .ok { s with time := { s.time with setSeconds := some (leAt a.payload 0 6) } }

def execTimeSetSeconds (slot : Nat) (s : State) : Host.Outcome State Fault Refusal :=
  runsTime (serve slot Op.timeSetSeconds State.timeSetSeconds) s

def State.timeRead (s : State) (_ : Nat) (_ : Accepted) : Reply :=
  let t := s.time
  .ok s (leBytes 6 (t.dev / 1000000000) ++ leBytes 2 t.frac.toNat ++ leBytes 4 (t.dev % 1000000000) ++ leBytes 4 s.lap
    ++ leBytes 1 t.state.code)

def execTimeRead (slot : Nat) (s : State) : Host.Outcome State Fault Refusal := runs (serve slot Op.timeRead State.timeRead) s

/-! ### GATE.STAGE, GATE.READ -/

/-- The entries a GATE.STAGE carries. -/
def gatePayload (l : List Byte) : List Nat := (List.range (leAt l 4 2)).map (fun i => leAt l (24 + 12 * i) 12)

/-- The values of a GATE.STAGE keep their Ranges and R228. -/
def gateStageOk (l : List Byte) : Bool :=
  decide (leAt l 0 2 < 512) && decide (leAt l 2 1 < 4) && decide (leAt l 3 1 < 2) && decide (leAt l 4 2 ≤ 256)
    && P.glBaseTime.form.rangeOk 0 (leAt l 8 10) && P.glCycle.form.rangeOk 0 (leAt l 20 4) && gateListOk (leAt l 20 4) (gatePayload l)

/-- Writes the gate parameters of a port and profile into a bank. -/
def Bank.setGate (b : Bank) (x : Nat) (l : List Byte) : Bank :=
  let b := (((b.set P.glBaseTime x (leAt l 8 10)).set P.glCycle x (leAt l 20 4)).set P.glLen x (leAt l 4 2)).set P.strictStart x (leAt l 3 1)
  (List.zip (List.range 256) (gatePayload l)).foldl (fun b e => b.set P.glEntry (256 * x + e.1) e.2) b

def State.gateStage (s : State) (inst : Nat) (a : Accepted) : Reply :=
  let l := a.payload
  let port := leAt l 0 2
  if !gateStageOk l then .refuse E.range
  else if !owns inst (s.portInst port) then .refuse E.notOwner
  else if s.frozen (s.portInst port) then .refuse E.state
  else s.stage (fun s => .ok (s.updCfg (fun c => { c with standby := c.standby.setGate (4 * port + leAt l 2 1) l })))

def execGateStage (slot : Nat) (s : State) : Host.Outcome State Fault Refusal := runs (serve slot Op.gateStage State.gateStage) s

/-- A time as seconds (6) and nanoseconds (4). -/
def timeBytes (ns : Nat) : List Byte := leBytes 6 (ns / 1000000000) ++ leBytes 4 (ns % 1000000000)

/-- OPER, LATE_START and START_TIME of a profile's Active list. -/
def operBytes (p : Profile) : List Byte :=
  match p.wait, p.oper with
  | some g, _ => leBytes 1 1 ++ leBytes 1 (b2n p.late) ++ timeBytes g.start
  | none, some g => leBytes 1 2 ++ leBytes 1 (b2n p.late) ++ timeBytes g.start
  | none, none => leBytes 1 0 ++ leBytes 1 (b2n p.late) ++ timeBytes 0

def State.gateRead (s : State) (inst : Nat) (a : Accepted) : Reply :=
  let port := leAt a.payload 0 2
  let k := leAt a.payload 2 1
  let bank := leAt a.payload 3 1
  if 512 ≤ port ∨ 4 ≤ k ∨ 1 < bank then .refuse E.range
  else if !owns inst (s.portInst port) then .refuse E.notOwner
  else
    let b := if bank = 0 then s.cfg.active else s.cfg.standby
    let x := 4 * port + k
    .ok s (leBytes 2 port ++ leBytes 1 k ++ leBytes 1 (b.getN P.strictStart x) ++ leBytes 2 (b.getN P.glLen x) ++ leBytes 2 0
      ++ leBytes 10 (b.getN P.glBaseTime x) ++ leBytes 2 0 ++ leBytes 4 (b.getN P.glCycle x)
      ++ (b.gateEntries port k).flatMap (leBytes 12)
      ++ (if bank = 0 then operBytes (s.gateProfile port k) else leBytes 12 0))

def execGateRead (slot : Nat) (s : State) : Host.Outcome State Fault Refusal := runs (serve slot Op.gateRead State.gateRead) s

/-! ### SCHED.PROFILE_SELECT (R233) -/

def State.profileSelect (s : State) (inst : Nat) (a : Accepted) : Reply :=
  let k := leAt a.payload 1 1
  let ports := onesOf 512 (leAt a.payload 8 64)
  match s.atLap (leAt a.payload 0 1) (leAt a.payload 4 4) with
  | none => .refuse E.format
  | some lap =>
    if 4 ≤ k then .refuse E.range
    else if !ports.all (fun p => owns inst (s.portInst p)) then .refuse E.notOwner
    else if ports.any (fun p => s.frozen (s.portInst p)) then .refuse E.state
    else .ok { s with sched := { s.sched with host := s.sched.host ++ [(lap, k, ports)] } } (leBytes 4 lap)

def execSchedProfileSelect (slot : Nat) (s : State) : Host.Outcome State Fault Refusal :=
  runs (serve slot Op.schedProfileSelect State.profileSelect) s

end Sys2Proof.Machine
end

