-- ==== Sys2Proof/Machine/TblCmds.lean ====
section
/-! DEFINITION. The commands of group 0x03: exact-match entries and records (R116 to R126, R141, R142, R168 to R173, R422, R423, R446,
R447, R555). -/
namespace Sys2Proof.Machine

/-! ### Results (R121, R446) -/

/-- A result with its reserved bits 0, since reserved fields read as 0 (R13). -/
def cleanResult (r : Nat) : Nat := R.rsv.put 0 r

/-- RESULT_TYPE and TARGET lie in their ranges. -/
def resultOk (r : Nat) : Bool :=
  match R.type.get r with
  | 0 => decide (R.target.get r < 512)
  | 1 => true
  | 2 | 3 => R.target.get r == 0
  | _ => false

/-! ### TBL.INSERT (R116 to R126, R423, R446, R447) -/

/-- The key of an entry: byte 0 is KEY[127:120] (R115). -/
def keyAt (e : List Byte) : Nat := beAt e 8 16

/-- What one entry of TBL.INSERT asks. -/
structure TblEntry where
  table : Nat
  replace : Bool
  station : Bool
  key : Nat
  result : Nat

/-- An entry of TBL.INSERT. FLAGS bits that the catalogue does not list are ignored, here and in RULE.INSERT and PFX.INSERT. (DESIGN CHOICE,
entry 148.) -/
def tblEntry (e : List Byte) : TblEntry :=
  { table := leAt e 0 1, replace := bit (leAt e 1 1) 0, station := bit (leAt e 1 1) 1, key := keyAt e, result := cleanResult (leAt e 24 8) }

/-- Writes a new key, or replaces the entry it has: the state and a status. -/
def State.tblPlace (s : State) (inst : Nat) (e : TblEntry) : State × Nat :=
  let b := s.cfg.active
  let owner := R.inst.get e.result
  match s.findKey b e.table e.key with
  | some c =>
    let was := R.inst.get (s.entry c).result
    if !e.replace then (s, E.duplicate)
    else if !owns inst was then (s, E.notOwner)
    else if 2 ≤ c.1 ∧ R.pinned.get e.result = 1 then (s, E.range)
    else if 2 ≤ c.1 ∧ owner ≠ was ∧ s.par P.instStationMax owner ≤ s.stationCount owner then (s, E.tableFull)
    else (s.setEntry c { (s.entry c) with result := e.result, hit := false, host := true }, 0)
  | none =>
    if e.station then
      if s.par P.instStationMax owner ≤ s.stationCount owner then (s, E.tableFull)
      else match s.placeStation b { valid := true, key := stationKey e.key, result := e.result, host := true } with
        | some s => (s, 0)
        | none => (s, E.tableFull)
    else match s.placeFront b e.table { valid := true, key := e.key, result := e.result, host := true } with
      | (s, true) => (s, 0)
      | (s, false) => (s, E.tableFull)

/-- Applies one entry of TBL.INSERT. (DEDUCED, entry 67.) -/
def State.tblInsertOne (s : State) (inst : Nat) (bytes : List Byte) : State × Nat :=
  let e := tblEntry bytes
  let owner := R.inst.get e.result
  if 16 ≤ e.table ∨ e.key / 2 ^ 124 ≠ e.table ∨ resultOk e.result = false then (s, E.range)
  else if e.station && (!s.cfg.active.stationTable e.table || e.key % 2 ^ 64 != 0 || R.pinned.get e.result == 1) then (s, E.range)
  else if inst ≠ 0 ∧ owner ≠ inst then (s, E.notOwner)
  else
    let st := s.refCheck owner (resultRefs e.result)
    if st ≠ 0 then (s, st) else s.tblPlace inst e

/-- Applies one entry of TBL.DELETE. -/
def State.tblDeleteOne (s : State) (inst : Nat) (e : List Byte) : State × Nat :=
  let key := keyAt e
  if 16 ≤ leAt e 0 1 ∨ key / 2 ^ 124 ≠ leAt e 0 1 then (s, E.range)
  else match s.findKey s.cfg.active (leAt e 0 1) key with
  | none => (s, E.notFound)
  | some c => if owns inst (R.inst.get (s.entry c).result) then (s.setEntry c {}, 0) else (s, E.notOwner)

/-- Host batch entries that may be applied in one lap (R33). -/
def State.batchBudget (s : State) : Nat := min 16384 (16384 * s.lapNs / 250000)

/-- Applies entries of a table batch while the budget of the lap lasts: the state, the entries left, their position, and the results
so far (R34, R422). -/
def runTbl (op inst : Nat) : State → List (List Byte) → Nat → Nat → List (Nat × Nat) → State × List (List Byte) × Nat × Nat × List (Nat × Nat)
  | s, [], pos, done, failed => (s, [], pos, done, failed)
  | s, e :: l, pos, done, failed =>
    if s.batchBudget ≤ s.mbx.batchUsed then (s, e :: l, pos, done, failed) else
      let (s, st) := if op = Op.tblInsert then s.tblInsertOne inst e else s.tblDeleteOne inst e
      let s := { s with mbx := { s.mbx with batchUsed := s.mbx.batchUsed + 1 } }
      if st = 0 then runTbl op inst s l (pos + 1) (done + 1) failed else runTbl op inst s l (pos + 1) done (failed ++ [(pos, st)])

/-- STATUS of a batch. -/
def batchStatus (failed : List (Nat × Nat)) : Nat := if failed.isEmpty then 0 else E.partial_

/-- A table batch: DONE when its last entry is applied in this lap, else the rest waits for the following laps. -/
def State.tblBatch (s : State) (inst op n : Nat) (a : Accepted) : Reply :=
  match runTbl op inst s (batchEntries n a.payload) 0 0 [] with
  | (s, [], _, done, failed) => .done s (batchStatus failed) (batchResult done failed) []
  | (s, rest, pos, done, failed) => .maybe s (.batch op rest pos done failed []) (batchCount a.payload)

/-- A step of a table batch. -/
def State.tblStep (s : State) (j : Job) (op : Nat) (entries : List (List Byte)) (pos done : Nat) (failed : List (Nat × Nat)) : State :=
  if j.abort then s.endJob j.session j.seq 2 E.aborted (batchResult done failed) else
    let (s, rest, pos, done, failed) := runTbl op j.inst (s.pacerAsk true) entries pos done failed
    let s := s.updJob j.session j.seq (fun j => { j with kind := .batch op rest pos done failed [], done := pos })
    if rest.isEmpty then s.endJob j.session j.seq 0 (batchStatus failed) (batchResult done failed) else s

/-- COUNT of a batch lies in its range. -/
def countOk (op : Nat) (a : Accepted) : Bool := decide (1 ≤ batchCount a.payload) && decide (batchCount a.payload ≤ batchMax op)

def State.tblInsert (s : State) (inst : Nat) (a : Accepted) : Reply :=
  let l := (batchEntries 32 a.payload).map tblEntry
  if !countOk Op.tblInsert a then .refuse E.range
  else if inst ≠ 0 ∧ l.any (fun e => !e.station && decide (e.table < 16) && s.par P.ftOwner e.table != inst) = true then .refuse E.notOwner
  else if s.frozen inst || l.any (fun e => s.frozen (R.inst.get e.result)) then .refuse E.state
  else s.tblBatch inst Op.tblInsert 32 a

def execTblInsert (slot : Nat) (s : State) : Host.Outcome State Fault Refusal := runs (serve slot Op.tblInsert State.tblInsert) s

/-- Instances of the entries that a list of keys names. -/
def State.keyOwners (s : State) (l : List (List Byte)) : List Nat :=
  l.filterMap (fun e => (s.findKey s.cfg.active (leAt e 0 1) (keyAt e)).map (fun c => R.inst.get (s.entry c).result))

def State.tblDelete (s : State) (inst : Nat) (a : Accepted) : Reply :=
  let own := s.keyOwners (batchEntries 24 a.payload)
  if !countOk Op.tblDelete a then .refuse E.range
  else if !own.all (owns inst) then .refuse E.notOwner
  else if s.frozen inst || own.any s.frozen then .refuse E.state
  else s.tblBatch inst Op.tblDelete 24 a

def execTblDelete (slot : Nat) (s : State) : Host.Outcome State Fault Refusal := runs (serve slot Op.tblDelete State.tblDelete) s

/-! ### TBL.LOOKUP, TBL.DUMP -/

/-- The place of an entry in its tier: 4 × bucket + slot, of its own table in the front tier. -/
def placeOf (tier index : Nat) : Nat := if tier = 0 then index % 2 ^ 24 else index

def State.tblLookup (s : State) (inst : Nat) (a : Accepted) : Reply :=
  let t := leAt a.payload 0 1
  let key := keyAt a.payload
  if 16 ≤ t ∨ key / 2 ^ 124 ≠ t then .refuse E.range
  else match s.findKey s.cfg.active t key with
  | none => .ok s (leBytes 16 0)
  | some c =>
    let e := s.entry c
    if !owns inst (R.inst.get e.result) then .refuse E.notOwner
    else .ok s (leBytes 1 1 ++ leBytes 1 c.1 ++ leBytes 1 (b2n e.hit) ++ leBytes 1 0 ++ leBytes 4 (placeOf c.1 c.2) ++ leBytes 8 e.result)

def execTblLookup (slot : Nat) (s : State) : Host.Outcome State Fault Refusal := runs (serve slot Op.tblLookup State.tblLookup) s

/-- The 128-bit key of an entry of a tier. -/
def fullKey (tier : Nat) (e : Entry) : Nat := if tier < 2 then e.key else e.key * 2 ^ 64

/-- An entry as TBL.INSERT carries it. -/
def tblBytes (tier : Nat) (e : Entry) : List Byte :=
  let key := fullKey tier e
  leBytes 1 (key / 2 ^ 124) ++ leBytes 1 (if tier < 2 then 0 else 2) ++ leBytes 6 0 ++ beBytes 16 key ++ leBytes 8 e.result

/-- A port that a result leads to. -/
def toPort (r port : Nat) : Bool := R.type.get r == 0 && R.target.get r == port

/-- Entries of a dump from a cursor on; the cursor is the place of an entry in its tier. -/
def State.dumpFrom (s : State) (inst table tier filter port cursor : Nat) : List (Nat × Entry) :=
  (s.tbl.store tier).filter (fun e =>
    e.2.valid && fullKey tier e.2 / 2 ^ 124 == table && decide (cursor ≤ placeOf tier e.1) && owns inst (R.inst.get e.2.result)
      && (!bit filter 0 || R.learned.get e.2.result == 1) && (!bit filter 1 || toPort e.2.result port))

/-- The command's checks and effect (DEDUCED, entry 68). -/
def State.tblDump (s : State) (inst : Nat) (a : Accepted) : Reply :=
  let l := a.payload
  let n := leAt l 6 2
  if 16 ≤ leAt l 0 1 ∨ 4 ≤ leAt l 1 1 ∨ 4 ≤ leAt l 2 1 ∨ 512 ≤ leAt l 4 2 ∨ n < 1 ∨ 2048 < n then .refuse E.range else
    let all := s.dumpFrom inst (leAt l 0 1) (leAt l 1 1) (leAt l 2 1) (leAt l 4 2) (leAt l 8 8)
    let next := match (all.drop n).head? with | some e => placeOf (leAt l 1 1) e.1 | none => 0
    .ok s (leBytes 8 next ++ leBytes 2 (min n all.length) ++ leBytes 6 0) ((all.take n).flatMap (fun e => tblBytes (leAt l 1 1) e.2))

def execTblDump (slot : Nat) (s : State) : Host.Outcome State Fault Refusal := runs (serve slot Op.tblDump State.tblDump) s

/-! ### TBL.FLUSH -/

/-- An entry that a flush selects: every criterion of SELECT holds; an instance other than 0 reaches its own entries only. -/
def flushed (owner select inst port : Nat) (r : Nat) : Bool :=
  owns owner (R.inst.get r) && (!bit select 0 || (R.learned.get r == 1 && R.pinned.get r == 0)) && (!bit select 1 || toPort r port)
    && (!bit select 2 || R.inst.get r == inst)

/-- The command's checks and effect (DEDUCED, entry 68). -/
def State.tblFlush (s : State) (inst : Nat) (a : Accepted) : Reply :=
  let select := leAt a.payload 0 1
  let i := leAt a.payload 1 1
  let port := leAt a.payload 2 2
  if 8 ≤ select ∨ (bit select 1 = true ∧ 512 ≤ port) ∨ (bit select 2 = true ∧ 64 ≤ i) then .refuse E.range
  else if (bit select 1 && !owns inst (s.portInst port)) || (bit select 2 && !owns inst i) then .refuse E.notOwner
  else if s.frozen inst || (bit select 2 && s.frozen i) then .refuse E.state
  else if s.running.any (fun j => j.op == Op.tblFlush) then .refuse E.busy
  else .job s (.flush select i port 0) 4

def execTblFlush (slot : Nat) (s : State) : Host.Outcome State Fault Refusal := runs (serve slot Op.tblFlush State.tblFlush) s

/-- A step of a flush: one structure of entries. (DEDUCED, entry 68.) -/
def State.flushStep (s : State) (j : Job) (select inst port deleted : Nat) : State :=
  if j.abort then s.endJob j.session j.seq 2 E.aborted (leBytes 4 deleted) else
    let gone := (s.tbl.store j.done).filter (fun e => e.2.valid && flushed j.inst select inst port e.2.result)
    let s := s.forEach gone (fun s e => s.setEntry (j.done, e.1) {})
    let n := deleted + gone.length
    let s := s.stepJob j.session j.seq (fun j => { j with kind := .flush select inst port n })
    if 3 ≤ j.done then s.endJob j.session j.seq 0 0 (leBytes 4 n) else s

/-! ### OBJ.WRITE (R141, R168 to R173, R446) -/

/-- The words of a record with its reserved bits 0; VALID says that the record is in use, as it is from its OBJ.WRITE.
(DEDUCED, entry 67.) -/
def cleanWords (kind w : Nat) : Nat :=
  match kind with
  | 0 => N.rsv.put 0 w
  | 2 => A.rsv.put 0 w
  | 3 => S.valid.put 1 (S.rsv.put 0 (S.rsv0.put 0 w))
  | 4 => T.valid.put 1 (T.rsv.put 0 w)
  | _ => w

/-- Members of a group. -/
def groupMembers (w : Nat) : List Nat := (List.range (N.count.get w)).map (fun k => N.base.get w + k)

/-- Fields of a record lie in their ranges; every member of a group has KIND = PORT. -/
def State.wordsOk (s : State) (kind w : Nat) : Bool :=
  match kind with
  | 0 =>
    let k := N.kind.get w
    decide (k ≤ 4) && (decide (k ≠ 1 ∧ k ≠ 2) || decide (N.mode.get w < 4))
      && (decide (k < 1 ∨ 3 < k) || (decide (1 ≤ N.count.get w ∧ N.count.get w ≤ 64)
        && (groupMembers w).all (fun m => (s.obj K.nextHop m).st != 1 || N.kind.get (s.obj K.nextHop m).words == 0)))
  | 2 => decide (A.colour.get w < 3)
  | 3 => (decide (S.recovery.get w ≠ 1) || decide (2 ≤ S.histLen.get w ∧ S.histLen.get w ≤ 64))
      && (decide (S.recovery.get w = 0) || decide (1 ≤ S.resetMs.get w))
  | _ => true

/-- KIND and INDEX of a record command. -/
def Accepted.kind (a : Accepted) : Nat := leAt a.payload 0 1
def Accepted.index (a : Accepted) : Nat := leAt a.payload 4 4

/-- A record that a command may name. -/
def State.recordOk (s : State) (a : Accepted) : Bool := decide (a.kind < 5) && decide (a.index < s.cfg.active.records a.kind)

/-- The WORDS of a request: pool word k is bytes 24k to 24k + 23. -/
def Accepted.words (a : Accepted) : Nat := leNat (a.payload.drop 8)

/-- The command's checks and effect (DEDUCED, entry 69). -/
def State.objWrite (s : State) (inst : Nat) (a : Accepted) : Reply :=
  let w := cleanWords a.kind a.words
  if 5 ≤ a.kind then .refuse E.range
  else if a.payload.length ≠ 8 + 24 * poolWords a.kind then .refuse E.format
  else if !s.recordOk a || noRecord a.kind a.index then .refuse E.range
  else if s.frozen inst then .refuse E.state
  else if (s.obj a.kind a.index).st = 1 then .refuse E.inUse
  else if (s.obj a.kind a.index).st = 2 then .refuse E.busy
  else if !s.wordsOk a.kind w then .refuse E.range
  else if a.kind = K.stream ∧ inst ≠ 0 ∧ S.inst.get w ≠ inst then .refuse E.notOwner
  else
    let st := s.refCheck inst (recordRefs a.kind w)
    if st ≠ 0 then .refuse st
    else .ok (s.setObj a.kind a.index { st := 1, words := w, init := w, owner := inst })

def execObjWrite (slot : Nat) (s : State) : Host.Outcome State Fault Refusal := runs (serve slot Op.objWrite State.objWrite) s

/-! ### OBJ.DELETE (R141, R142, R555) -/

/-- A record is draining from its delete until its fence. -/
def State.drainObj (s : State) (kind index : Nat) : State :=
  let r := s.obj kind index
  (s.setObj kind index { r with st := 2, fence := s.drainFence, del := s.tbl.dels }).updTbl (fun t => { t with dels := t.dels + 1 })

/-- The command's checks and effect (DEDUCED, entry 69). -/
def State.objDelete (s : State) (inst : Nat) (a : Accepted) : Reply :=
  let r := s.obj a.kind a.index
  if !s.recordOk a then .refuse E.range
  else if r.st = 0 then .refuse E.notFound
  else if !owns inst r.owner then .refuse E.notOwner
  else if s.frozen r.owner then .refuse E.state
  else if r.st = 2 then .refuse E.busy
  else if s.refsOf a.kind a.index ≠ 0 then .refuse E.inUse
  else .job (s.drainObj a.kind a.index) (.objDelete a.kind a.index) 1

def execObjDelete (slot : Nat) (s : State) : Host.Outcome State Fault Refusal := runs (serve slot Op.objDelete State.objDelete) s

/-! ### OBJ.READ, STREAM.RESET -/

def State.objRead (s : State) (inst : Nat) (a : Accepted) : Reply :=
  let r := s.obj a.kind a.index
  if !s.recordOk a then .refuse E.range
  else if r.st ≠ 0 ∧ owns inst r.owner = false then .refuse E.notOwner
  else .ok s (leBytes 4 (s.refsOf a.kind a.index) ++ leBytes 1 r.st ++ leBytes 3 0 ++ leBytes (24 * poolWords a.kind) r.words)

def execObjRead (slot : Nat) (s : State) : Host.Outcome State Fault Refusal := runs (serve slot Op.objRead State.objRead) s

/-- Fields of a stream record that the device keeps (R173). -/
def streamState : List Field := [S.blocked, S.seqValid, S.recovSeq, S.history, S.lastAccept]

/-- STREAM.RESET: the State fields are restored to what the host wrote; the counters stay. (DEDUCED, entry 69.) -/
def State.streamReset (s : State) (inst : Nat) (a : Accepted) : Reply :=
  let i := leAt a.payload 0 2
  let r := s.obj K.stream i
  if s.cfg.active.records K.stream ≤ i then .refuse E.range
  else if r.st ≠ 1 then .refuse E.notFound
  else if !owns inst r.owner then .refuse E.notOwner
  else if s.frozen r.owner then .refuse E.state
  else .ok (s.putObj K.stream i (streamState.map (fun f => (f, f.get r.init))))

def execStreamReset (slot : Nat) (s : State) : Host.Outcome State Fault Refusal := runs (serve slot Op.streamReset State.streamReset) s

end Sys2Proof.Machine
end

