-- ==== Sys2Proof/Machine/RuleCmds.lean ====
section
/-! DEFINITION. The move engine and the commands of group 0x04: rules and prefixes (R143 to R160, R422, R423, R446, R447). -/
namespace Sys2Proof.Machine

/-! ### Rules (R143, R146, R147, R152, R155) -/

/-- A rule's or prefix's result: STATIC, PINNED and LEARNED are reserved too (R143, R156). -/
def cleanMatch (r : Nat) : Nat := putFields (cleanResult r) [(R.static, 0), (R.pinned, 0), (R.learned, 0)]

/-- Rows an instance holds. -/
def State.ruleCount (s : State) (inst : Nat) : Nat := (s.srch.rule.filter (fun r => r.2.valid && r.2.inst == inst)).length

/-- The first handle from `n` on that no rule has, round the range 1 to 2³² − 1 (R155). -/
def handleFrom (rows : Tab Rule) : Nat → Nat → Nat
  | 0, n => n
  | k + 1, n => if rows.any (fun r => r.2.valid && r.2.handle == n) then handleFrom rows k (n % (2 ^ 32 - 1) + 1) else n

/-- The handle of the next rule. (DEDUCED, entry 70.) -/
def Search.freeHandle (q : Search) : Nat := handleFrom q.rule q.rule.length q.nextHandle

/-- The rule an entry of RULE.INSERT gives, with the derived pre-filter fields. -/
def State.ruleFrom (s : State) (e : List Byte) : Rule :=
  let value := leAt e 8 40
  let mask := leAt e 48 40
  let (any, tag) := s.cfg.active.preFilter (bits value 316 4) value mask
  ({ valid := true, value := value, mask := mask, prio := leAt e 2 2, result := cleanMatch (leAt e 88 8), handle := s.srch.freeHandle
     pfAny := any, pfTag := tag } : Rule).sealed

/-- A rule keeps R146 and its result is in range. -/
def ruleOk (inst profile : Nat) (r : Rule) : Bool :=
  decide (1 ≤ profile ∧ profile < 16) && bits r.value 316 4 == profile && bits r.mask 316 4 == 15 && resultOk r.result
    && (decide (inst = 0) || (bits r.mask 310 6 == 63 && bits r.value 310 6 == inst))

/-- Applies one entry of RULE.INSERT: the state, a status, and the handle. -/
def State.ruleInsertOne (s : State) (inst : Nat) (e : List Byte) : State × Nat × Nat :=
  let r := s.ruleFrom e
  if !ruleOk inst (leAt e 0 1) r then (s, E.range, 0) else
    let st := s.refCheck r.inst (resultRefs r.result)
    if st ≠ 0 then (s, st, 0)
    else if s.par P.instRuleRows r.inst ≤ s.ruleCount r.inst then (s, E.tableFull, 0)
    else match placeRule s.srch.rule r (bit (leAt e 1 1) 0) with
      | none => (s, E.tableFull, 0)
      | some (rows, _) => ({ s with srch := { s.srch with rule := rows, nextHandle := r.handle % (2 ^ 32 - 1) + 1 } }, 0, r.handle)

/-- Applies one entry of RULE.DELETE. -/
def State.ruleDeleteOne (s : State) (inst : Nat) (e : List Byte) : State × Nat :=
  match s.ruleOf (leAt e 0 4) with
  | none => (s, E.notFound)
  | some (row, r) =>
    if owns inst r.inst then ({ s with srch := { s.srch with rule := s.srch.rule.del row } }, 0) else (s, E.notOwner)

/-! ### Prefixes (R156 to R160) -/

/-- The prefix that 20 bytes of an entry name: FAMILY, VRF, LENGTH and ADDRESS in network order. -/
def prefixFrom (e : List Byte) : Prefix :=
  let family := leAt e 0 1
  { valid := true, family := family, vrf := leAt e 1 1, len := leAt e 2 1, addr := beAt e 8 (addrWidth family / 8) }

/-- FAMILY, LENGTH and ADDRESS are in range: the address bits below LENGTH, and bytes 4 to 15 of an IPv4 address, are 0. -/
def prefixOk (e : List Byte) : Bool :=
  let p := prefixFrom e
  (p.family == 4 || p.family == 6) && decide (p.len ≤ addrWidth p.family) && decide (p.addr % 2 ^ (addrWidth p.family - p.len) = 0)
    && (p.family == 6 || zeroAt e 12 12)

/-- Lanes a prefix takes of its instance's share. -/
def laneCount (family : Nat) : Nat := if family = 4 then 1 else 8

/-- Lanes an instance holds. -/
def State.laneTotal (s : State) (inst : Nat) : Nat :=
  ((s.srch.pfx.filter (fun p => p.2.valid && s.par P.vrfOwner p.2.vrf == inst)).map (fun p => laneCount p.2.family)).sum

/-- The prefix an entry of PFX.INSERT gives. -/
def prefixEntry (e : List Byte) : Prefix := ({ prefixFrom e with result := cleanMatch (leAt e 24 8) } : Prefix).sealed

/-- Applies one entry of PFX.INSERT. -/
def State.pfxInsertOne (s : State) (e : List Byte) : State × Nat :=
  let p := prefixEntry e
  let owner := s.par P.vrfOwner p.vrf
  if !prefixOk e || !resultOk p.result then (s, E.range) else
    let st := s.refCheck owner (resultRefs p.result)
    if st ≠ 0 then (s, st) else
      match s.srch.findPrefix p.family p.vrf p.len p.addr with
      | some a =>
        if bit (leAt e 3 1) 0 then ({ s with srch := { s.srch with pfx := s.srch.pfx.upd a (fun q => ({ q with result := p.result } : Prefix).sealed) } }, 0)
        else (s, E.duplicate)
      | none =>
        if s.par P.instPfxLanes owner < s.laneTotal owner + laneCount p.family then (s, E.tableFull) else
          match s.srch.placePrefix p with
          | some q => ({ s with srch := q }, 0)
          | none => (s, E.tableFull)

/-- Applies one entry of PFX.DELETE. -/
def State.pfxDeleteOne (s : State) (e : List Byte) : State × Nat :=
  let p := prefixFrom e
  if !prefixOk e then (s, E.range) else
    match s.srch.findPrefix p.family p.vrf p.len p.addr with
    | some a => ({ s with srch := s.srch.dropPrefix a }, 0)
    | none => (s, E.notFound)

/-! ### The move engine (R153, R154) -/

/-- Applies one update of a batch. -/
def State.moveOne (s : State) (op inst : Nat) (e : List Byte) : State × Nat × Nat :=
  if op = Op.ruleInsert then s.ruleInsertOne inst e
  else if op = Op.ruleDelete then let (s, st) := s.ruleDeleteOne inst e; (s, st, 0)
  else if op = Op.pfxInsert then let (s, st) := s.pfxInsertOne e; (s, st, 0)
  else let (s, st) := s.pfxDeleteOne e; (s, st, 0)

/-- What a batch of rules or prefixes reports: RULE.INSERT adds the handles. -/
def moveResult (op done : Nat) (failed : List (Nat × Nat)) (handles : List Nat) : List Byte :=
  batchResult done failed ++ (if op = Op.ruleInsert then handles.flatMap (leBytes 4) else [])

/-- Takes the waiting updates of a job off the engine's queue. -/
def State.dropMoves (s : State) (session seq : Nat) : State :=
  { s with srch := { s.srch with moves := s.srch.moves.filter (fun m => match m with
      | .entry a b _ _ _ => !(a == session && b == seq)
      | .shadow .. => true) } }

/-- A batch of updates ends at an abort, with what it has applied (R415). -/
def State.abortMoves (s : State) (j : Job) : State :=
  match j.kind with
  | .batch op _ _ done failed handles => (s.endJob j.session j.seq 2 E.aborted (moveResult op done failed handles)).dropMoves j.session j.seq
  | _ => s

/-- An update of a batch is done, and with its last the batch. -/
def State.moveEntryDone (s : State) (j : Job) (op st handle : Nat) : State :=
  match j.kind with
  | .batch _ _ pos done failed handles =>
    let done := if st = 0 then done + 1 else done
    let failed := if st = 0 then failed else failed ++ [(pos, st)]
    let handles := handles ++ [handle]
    let s := s.updJob j.session j.seq (fun j => { j with kind := .batch op [] (pos + 1) done failed handles, done := pos + 1 })
    if j.total ≤ pos + 1 then s.endJob j.session j.seq 0 (batchStatus failed) (moveResult op done failed handles) else s
  | _ => s

/-- MOVE_ENGINE_UPDATE: the next update, with its moves and its write. A rewrite from the Pacer's shadow restores a row or lane in
the copy that lost it (R161); an entry of a batch waits while the lap's budget is spent (R33), and is dropped when its job is no
longer in progress. -/
def State.moveUpdate (s : State) : State :=
  let took := fun rest => { s with srch := { s.srch with moves := rest } }
  match s.srch.moves with
  | [] => s
  | .shadow store addr quad :: rest =>
    let q := (took rest).srch
    let clear := fun lost => if bit lost quad then lost - 2 ^ quad else lost
    { s.pacerAsk false with srch := if store = 5 then { q with rule := if q.rule.has addr then q.rule.upd addr (fun r => ({ r with lost := clear r.lost } : Rule).sealed) else q.rule }
             else { q with pfx := if q.pfx.has addr then q.pfx.upd addr (fun p => ({ p with lost := clear p.lost } : Prefix).sealed) else q.pfx } }
  | .entry session seq _ op bytes :: rest =>
    match s.job session seq with
    | none => took rest
    | some j =>
      if j.rstate ≠ 1 then took rest
      else if j.abort then s.abortMoves j
      else if s.batchBudget ≤ s.mbx.batchUsed then s
      else
        let (s, st, handle) := (took rest).moveOne op j.inst bytes
        ({ s.pacerAsk true with mbx := { s.mbx with batchUsed := s.mbx.batchUsed + 1 } }).moveEntryDone j op st handle

/-- Rewrites from the shadow that are due by the end of the lap (R161). -/
def State.shadowMoves : Nat → State → State
  | 0, s => s
  | n + 1, s => match s.srch.moves with
    | .shadow .. :: _ => State.shadowMoves n s.moveUpdate
    | _ => s

/-- Every row and lane that lost VALID is rewritten within the lap (R161). (DEDUCED, entry 70.) -/
def State.shadowsAll (s : State) : State := State.shadowMoves s.srch.moves.length s

def execMoveEngineUpdate (s : State) : Host.Outcome State Fault Refusal := runs State.moveUpdate s

/-- A batch enters the queue of the move engine in its order (R154). -/
def State.moveBatch (s : State) (op n : Nat) (a : Accepted) : Reply :=
  let l := (List.zip (List.range (batchCount a.payload)) (batchEntries n a.payload)).map (fun e => Move.entry a.session a.seq e.1 op e.2)
  .maybe { s with srch := { s.srch with moves := s.srch.moves ++ l } } (.batch op [] 0 0 [] []) (batchCount a.payload)

/-! ### RULE.INSERT, RULE.DELETE -/

def State.ruleInsert (s : State) (inst : Nat) (a : Accepted) : Reply :=
  if !countOk Op.ruleInsert a then .refuse E.range
  else if s.frozen inst || (batchEntries 96 a.payload).any (fun e => s.frozen (s.ruleFrom e).inst) then .refuse E.state
  else s.moveBatch Op.ruleInsert 96 a

def execRuleInsert (slot : Nat) (s : State) : Host.Outcome State Fault Refusal := runs (serve slot Op.ruleInsert State.ruleInsert) s

/-- Instances of the rules that a list of handles names. -/
def State.ruleOwners (s : State) (l : List Nat) : List Nat := l.filterMap (fun h => (s.ruleOf h).map (fun r => r.2.inst))

def State.ruleDelete (s : State) (inst : Nat) (a : Accepted) : Reply :=
  let own := s.ruleOwners ((batchEntries 4 a.payload).map (fun e => leAt e 0 4))
  if !countOk Op.ruleDelete a then .refuse E.range
  else if !own.all (owns inst) then .refuse E.notOwner
  else if s.frozen inst || own.any s.frozen then .refuse E.state
  else s.moveBatch Op.ruleDelete 4 a

def execRuleDelete (slot : Nat) (s : State) : Host.Outcome State Fault Refusal := runs (serve slot Op.ruleDelete State.ruleDelete) s

/-! ### RULE.SET_RESULT, RULE.READ -/

/-- RULE.SET_RESULT takes its turn behind the updates that came before it (R154, R155). (DEDUCED, entry 70.) -/
def State.ruleSetResult (s : State) (inst : Nat) (a : Accepted) : Reply :=
  let r := cleanMatch (leAt a.payload 8 8)
  if s.moving then .wait s else
  match s.ruleOf (leAt a.payload 0 4) with
  | none => .refuse E.notFound
  | some (row, was) =>
    if !owns inst was.inst then .refuse E.notOwner
    else if s.frozen was.inst then .refuse E.state
    else if !resultOk r then .refuse E.range
    else
      let st := s.refCheck was.inst (resultRefs r)
      if st ≠ 0 then .refuse st
      else .ok { s with srch := { s.srch with rule := s.srch.rule.upd row (fun x => ({ x with result := r } : Rule).sealed) } }

def execRuleSetResult (slot : Nat) (s : State) : Host.Outcome State Fault Refusal :=
  runs (serve slot Op.ruleSetResult State.ruleSetResult) s

def State.ruleRead (s : State) (inst : Nat) (a : Accepted) : Reply :=
  match s.ruleOf (leAt a.payload 0 4) with
  | none => .refuse E.notFound
  | some (row, r) =>
    if !owns inst r.inst then .refuse E.notOwner
    else .ok s (leBytes 4 row ++ leBytes 1 (bits r.value 316 4) ++ leBytes 1 0 ++ leBytes 2 r.prio ++ leBytes 40 r.value ++ leBytes 40 r.mask
      ++ leBytes 8 r.result)

def execRuleRead (slot : Nat) (s : State) : Host.Outcome State Fault Refusal := runs (serve slot Op.ruleRead State.ruleRead) s

/-! ### PFX.INSERT, PFX.DELETE, PFX.LOOKUP -/

/-- Owners of the VRFs that entries name. -/
def State.vrfOwners (s : State) (l : List (List Byte)) : List Nat := l.map (fun e => s.par P.vrfOwner (leAt e 1 1))

/-- The checks of a batch of prefixes, and its queueing. -/
def State.pfxBatch (s : State) (inst op n : Nat) (a : Accepted) : Reply :=
  let own := s.vrfOwners (batchEntries n a.payload)
  if !countOk op a then .refuse E.range
  else if !own.all (owns inst) then .refuse E.notOwner
  else if s.frozen inst || own.any s.frozen then .refuse E.state
  else s.moveBatch op n a

def execPfxInsert (slot : Nat) (s : State) : Host.Outcome State Fault Refusal :=
  runs (serve slot Op.pfxInsert (fun s i a => s.pfxBatch i Op.pfxInsert 32 a)) s

def execPfxDelete (slot : Nat) (s : State) : Host.Outcome State Fault Refusal :=
  runs (serve slot Op.pfxDelete (fun s i a => s.pfxBatch i Op.pfxDelete 24 a)) s

/-- PFX.LOOKUP: the longest stored prefix, whatever a copy has lost. -/
def State.pfxLookup (s : State) (inst : Nat) (a : Accepted) : Reply :=
  let family := leAt a.payload 0 1
  let vrf := leAt a.payload 1 1
  if (family ≠ 4 ∧ family ≠ 6) ∨ (family = 4 ∧ zeroAt a.payload 12 12 = false) then .refuse E.range
  else if !owns inst (s.par P.vrfOwner vrf) then .refuse E.notOwner
  else
    let addr := beAt a.payload 8 (addrWidth family / 8)
    match s.srch.pfx.find? (fun e => { e.2 with lost := 0 }.hits 0 family vrf addr) with
    | some (i, p) => .ok s (leBytes 1 1 ++ leBytes 1 p.len ++ leBytes 2 0 ++ leBytes 4 i ++ leBytes 8 p.result)
    | none => .ok s (leBytes 16 0)

def execPfxLookup (slot : Nat) (s : State) : Host.Outcome State Fault Refusal := runs (serve slot Op.pfxLookup State.pfxLookup) s

end Sys2Proof.Machine
end

