-- ==== Sys2Proof/Machine/UnitCmds.lean ====
section
/-! DEFINITION. The commands of groups 0x05, 0x08 and 0x09: ports, Grid Measurement Unit and fabric (R72, R75, R314, R319, R323, R324,
R333, R334, R341, R428). -/
namespace Sys2Proof.Machine

/-! ### PORT.STATUS, PORT.PTP_TS_READ -/

/-- Checks of a command that names a port: 0, or its status. -/
def State.portCheck (s : State) (inst port : Nat) : Nat :=
  if 512 ≤ port then E.range else if owns inst (s.portInst port) then 0 else E.notOwner

def State.portStatus (s : State) (inst : Nat) (a : Accepted) : Reply :=
  let port := leAt a.payload 0 2
  let p := s.prt port
  let st := s.portCheck inst port
  if st ≠ 0 then .refuse st
  else .ok s (leBytes 1 p.link.code ++ leBytes 1 (b2n p.hold.isSome) ++ leBytes 1 (b2n (s.portRamp port)) ++ leBytes 1 (b2n p.verified)
    ++ leBytes 1 p.locks ++ leBytes 3 0 ++ leBytes 8 p.fecCorrected.toNat ++ leBytes 8 p.fecUncorrectable.toNat ++ leBytes 4 p.flaps.toNat)

def execPortStatus (slot : Nat) (s : State) : Host.Outcome State Fault Refusal := runs (serve slot Op.portStatus State.portStatus) s

/-- The oldest entries of the timestamp ring leave it (R75). -/
def State.ptpRead (s : State) (inst : Nat) (a : Accepted) : Reply :=
  let port := leAt a.payload 0 2
  let n := leAt a.payload 2 1
  let st := s.portCheck inst port
  if st ≠ 0 then .refuse st
  else if n < 1 ∨ 64 < n then .refuse E.range
  else
    let l := (s.prt port).ptp.take n
    .ok (s.updPort port (fun p => { p with ptp := p.ptp.drop n })) (leBytes 1 l.length ++ leBytes 7 0
      ++ l.flatMap (fun (q, m, d, sec, ns) => leBytes 2 q ++ leBytes 1 m ++ leBytes 1 d ++ leBytes 4 ns ++ leBytes 6 sec ++ leBytes 2 0))

def execPortPtpTsRead (slot : Nat) (s : State) : Host.Outcome State Fault Refusal := runs (serve slot Op.portPtpTsRead State.ptpRead) s

/-! ### GMU.READ, GMU.TRIGGER_STATUS -/

/-- The instance of a tap, and of a triplet: that of its tap A (R446). -/
def State.gridOwner (s : State) (triplet : Bool) (k : Nat) : Nat :=
  s.par P.tapInstance (if triplet then sourceTap (s.par P.tripSrcA k) else k)

/-- The instance of a trigger: that of its tap (R446). -/
def State.trigOwner (s : State) (k : Nat) : Nat := s.par P.tapInstance (s.cfg.active.trigTap k)

def State.gmuRead (s : State) (inst : Nat) (a : Accepted) : Reply :=
  let kind := leAt a.payload 0 1
  let k := leAt a.payload 2 2
  if 2 ≤ kind ∨ 1024 ≤ k then .refuse E.range
  else if !owns inst (s.gridOwner (kind == 1) k) then .refuse E.notOwner
  else if kind = 0 then .ok s (slice ((s.gmu.tap.at k).record.bytes k) 0 (32 + 24 * s.par P.channels k))
  else .ok s ((s.gmu.trip.at k).bytes k)

def execGmuRead (slot : Nat) (s : State) : Host.Outcome State Fault Refusal := runs (serve slot Op.gmuRead State.gmuRead) s

def State.triggerStatus (s : State) (inst : Nat) (a : Accepted) : Reply :=
  let k := leAt a.payload 0 2
  let t := s.gmu.trig.at k
  if 512 ≤ k then .refuse E.range
  else if !owns inst (s.trigOwner k) then .refuse E.notOwner
  else .ok s (leBytes 1 t.st ++ leBytes 1 t.count ++ leBytes 2 0 ++ leBytes 4 t.fireLap ++ leBytes 4 t.fires.toNat)

def execGmuTriggerStatus (slot : Nat) (s : State) : Host.Outcome State Fault Refusal :=
  runs (serve slot Op.gmuTriggerStatus State.triggerStatus) s

/-! ### Captures -/

/-- An entry lies in a capture. -/
def Capture.covers (c : Capture) (e : CapEntry) : Bool := decide (c.start ≤ e.entry) && decide (e.entry ≤ c.stop)

/-- The entries of the capture ring, oldest first: from the writer's place round to it. -/
def Gmu.ring (g : Gmu) : List CapEntry :=
  let b := g.pos / 512
  let i := g.pos % 512
  let cur := g.block.at b
  cur.drop i ++ (g.block.filter (fun e => decide (b < e.1))).flatMap (·.2) ++ (g.block.filter (fun e => decide (e.1 < b))).flatMap (·.2) ++ cur.take i

/-- A capture as GMU.CAPTURE_LIST reports it. -/
def State.captureBytes (s : State) (i : Nat) (c : Capture) : List Byte :=
  leBytes 1 i ++ leBytes 1 (b2n c.complete) ++ leBytes 1 (b2n c.gapped + 2 * b2n c.preShort) ++ leBytes 1 0 ++ leBytes 2 c.trig
    ++ leBytes 2 ((s.gmu.block.filter (fun e => e.2.any c.covers)).length) ++ timeBytes c.start ++ timeBytes c.stop ++ leBytes 4 0

def State.captureList (s : State) (inst : Nat) (_ : Accepted) : Reply :=
  let l := s.gmu.capture.filter (fun e => e.2.held && owns inst (s.trigOwner e.2.trig))
  .ok s (leBytes 1 l.length ++ leBytes 7 0 ++ l.flatMap (fun e => s.captureBytes e.1 e.2))

def execGmuCaptureList (slot : Nat) (s : State) : Host.Outcome State Fault Refusal := runs (serve slot Op.gmuCaptureList State.captureList) s

/-- Checks of a command that names a capture: 0, or its status. -/
def State.captureCheck (s : State) (inst i : Nat) : Nat :=
  let c := s.gmu.capture.at i
  if 16 ≤ i then E.range else if !c.held then E.notFound else if owns inst (s.trigOwner c.trig) then 0 else E.notOwner

def State.captureRead (s : State) (inst : Nat) (a : Accepted) : Reply :=
  let i := leAt a.payload 0 1
  let off := leAt a.payload 4 4
  let n := leAt a.payload 8 4
  let st := s.captureCheck inst i
  if st ≠ 0 then .refuse st
  else if n < 64 ∨ 65536 < n ∨ n % 64 ≠ 0 ∨ off % 64 ≠ 0 then .refuse E.range
  else
    let l := ((s.gmu.ring.filter (s.gmu.capture.at i).covers).drop (off / 64)).take (n / 64)
    .ok s (leBytes 4 (64 * l.length)) (l.flatMap CapEntry.bytes)

def execGmuCaptureRead (slot : Nat) (s : State) : Host.Outcome State Fault Refusal := runs (serve slot Op.gmuCaptureRead State.captureRead) s

def State.captureRelease (s : State) (inst : Nat) (a : Accepted) : Reply :=
  let i := leAt a.payload 0 1
  let c := s.gmu.capture.at i
  let st := s.captureCheck inst i
  if st ≠ 0 then .refuse st
  else if s.frozen (s.trigOwner c.trig) || !c.complete then .refuse E.state
  else .ok { s with gmu := { s.gmu with capture := s.gmu.capture.del i } }

def execGmuCaptureRelease (slot : Nat) (s : State) : Host.Outcome State Fault Refusal :=
  runs (serve slot Op.gmuCaptureRelease State.captureRelease) s

/-! ### Fabric -/

/-- Devices whose LSA the database holds. -/
def State.devices (s : State) : List Nat := (s.fab.lsdb.filter (fun e => e.2.present)).map (·.1)

/-- The command's checks and effect (DEDUCED, entry 84). -/
def State.fabStatus (s : State) (_ : Nat) (_ : Accepted) : Reply :=
  .ok s (leBytes 2 s.fab.id ++ leBytes 1 (b2n s.fab.settled) ++ leBytes 1 0 ++ leBytes 2 s.adjacent.length ++ leBytes 2 s.devices.length)

def execFabStatus (slot : Nat) (s : State) : Host.Outcome State Fault Refusal := runs (serve slot Op.fabStatus State.fabStatus) s

/-- The payload of a stored LSA (R333). -/
def State.lsaPayload (s : State) (l : Lsa) : List Byte :=
  beBytes 4 (s.par P.fabricId) ++ beBytes 8 l.serial ++ beBytes 4 l.nonce ++ beBytes 4 l.seq ++ beBytes 2 l.entries.length
    ++ l.entries.flatMap (beBytes 4)

/-- The command's checks and effect (DEDUCED, entry 84). -/
def State.lsdbRead (s : State) (_ : Nat) (a : Accepted) : Reply :=
  let from_ := leAt a.payload 0 2
  let n := leAt a.payload 2 2
  if 4096 ≤ from_ ∨ n < 1 ∨ 4096 < n then .refuse E.range else
    let l := s.devices.filter (fun d => decide (from_ ≤ d))
    .ok s (leBytes 2 ((l.drop n).head?.getD 0xFFFF) ++ leBytes 2 (min n l.length)) ((l.take n).flatMap (fun d => s.lsaPayload (s.fab.lsdb.at d)))

def execFabLsdbRead (slot : Nat) (s : State) : Host.Outcome State Fault Refusal := runs (serve slot Op.fabLsdbRead State.lsdbRead) s

/-- The command's checks and effect (DEDUCED, entry 84). -/
def State.pathsetRead (s : State) (_ : Nat) (a : Accepted) : Reply :=
  let d := leAt a.payload 0 2
  if 4096 ≤ d then .refuse E.range else
    let l := s.fab.path.at d
    .ok s (leBytes 1 l.length ++ leBytes 1 0 ++ (List.range 64).flatMap (fun k => leBytes 2 (l.getD k 0))
      ++ (List.range 8).flatMap (fun rc => leBytes 4 (s.fab.credit.at (8 * d + rc))))

def execFabPathsetRead (slot : Nat) (s : State) : Host.Outcome State Fault Refusal := runs (serve slot Op.fabPathsetRead State.pathsetRead) s

end Sys2Proof.Machine
end

