-- ==== Sys2Proof/Machine/Instances.lean ====
section
/-! DEFINITION. Virtual instances: generations and retire markers, reset and its flush, delete, freeze and resume (R47, R48, R417, R450 to
R455), and the commands that ask for them. -/
namespace Sys2Proof.Machine

/-- Changes an instance. -/
def State.updInst (s : State) (i : Nat) (f : Inst → Inst) : State := { s with inst := s.inst.upd i f }

/-! ### Generations (R48) -/

/-- The in-use map of an instance: the present generation is always in it. -/
def Inst.inUse (x : Inst) : Nat := x.used ||| 2 ^ x.gen.toNat

/-- The instance takes a generation: markers are queued behind the work of the one it had. (DEDUCED, entry 96.) -/
def State.takeGen (s : State) (i g : Nat) : State :=
  s.updInst i (fun x => { x with
    gen := BitVec.ofNat 8 g, used := x.inUse ||| 2 ^ g, flush := some x.gen.toNat
    markers := x.markers ++ (List.range 6).map (fun e => (x.gen.toNat, e)) })

/-- Work of a generation that an engine may still complete: 0 DMA, 1 mailbox response, 2 Vault fill, 3 CMAC tag, 4 GMU report, 5 learn
writeback. -/
def State.engineWork (s : State) (i g engine : Nat) : Bool :=
  match engine with
  | 0 => (s.host.page.at i).assigned.any (fun e => e.gen == g)
  | 1 => s.mbx.slot.any (fun e => slotInst e.1 == i && (match e.2.held with | some (_, .response a _ _) => a.gen == g | _ => false))
  | 2 => s.sec.fills.any (fun f => f.inst == i && f.gen == g)
  | 3 => s.sec.cmac.any (fun e => match e.2 with | some j => j.inst == i && j.gen == g | none => false)
  | 4 => s.gmu.tap.any (fun e => s.par P.tapInstance e.1 == i && decide (s.par P.reportDiv e.1 ≠ 0) && (e.2.closing ++ e.2.done).any (fun r => r.gen == g))
  | 5 => s.learn.queue.any (fun e => e.1.inst == i && e.1.instGen == g)
  | _ => false

/-- RETIRE_MARKER_RETURN: with the sixth marker the bit of its generation clears. -/
def State.markerReturn (s : State) (i g engine : Nat) : State :=
  if (s.inst.at i).markers.contains (g, engine) && !s.engineWork i g engine then
    s.updInst i (fun x =>
      let m := x.markers.filter (fun e => e != (g, engine))
      { x with markers := m, used := if m.any (fun e => e.1 == g) then x.used else if bit x.used g then x.used - 2 ^ g else x.used })
  else s

def execRetireMarkerReturn (inst gen engine : Nat) (s : State) : Host.Outcome State Fault Refusal :=
  runs (fun s => s.markerReturn inst gen engine) s

/-! ### Reset (R417, R451) -/

/-- The sessions of an instance close, its jobs and BUSY slots end. -/
def State.endWork (s : State) (i : Nat) : State :=
  let s := s.forEach ((List.range 16).filter (fun k => (s.sess k).inst == i)) (fun s k => s.closeSession k (some 2))
  (s.abortJobs E.instanceReset (fun j => j.inst == i)).abortSlots E.instanceReset true (fun k => k == i)

/-- Steps 3 to 5 of a reset. -/
def State.resetInst (s : State) (i g : Nat) : State := (s.takeGen i g).endWork i

/-- A copy whose instance has left its generation, and that has not begun transmission. (DEDUCED, entry 96.) -/
def State.staleCopy (s : State) (i : Nat) (c : Copy) : Bool :=
  c.live && c.inst == i && c.instGen != s.instGen i && !c.begun && (match c.place with
    | .queue | .spilled => true
    | .residue _ => true
    | _ => false)

/-- A packet of a former generation of an instance. -/
def State.stalePkt (s : State) (i : Nat) (p : Packet) : Bool := p.live && p.inst == i && p.instGen != s.instGen i

/-- A held packet is flushed: its number is lost. -/
def State.flushHeld (s : State) (x : Nat) (h : Held) : State :=
  let s := s.updAnchor x (fun a => { a with held := a.held.filter (fun g => g.pkt != h.pkt), lost := a.lost ++ [h.seq] })
  ((s.unhold h).returnCells x (s.anchorCells h.pkt)).discard h.pkt

/-- Order 9 on the first boundary after a reset (step 6): queues, spilled middles, residue, bench and Anchor give up the frames of
former generations. (DEDUCED, entry 96.) -/
def State.flushInst (s : State) (i : Nat) : State :=
  let s := s.forEach ((s.cpy.filter (fun e => s.staleCopy i e.2)).map (·.1)) (fun s n => s.endCopy n)
  let s := (s.forEach ((s.pkt.filter (fun e => e.2.bench.isSome && s.stalePkt i e.2)).map (·.1)) (fun s n => s.discard n)).releaseAll
  let s := s.forEach s.fab.anchor.keys (fun s x =>
    (s.forEach ((s.fab.anchor.at x).held.filter (fun h => s.stalePkt i (s.pkt.at h.pkt))) (fun s h => s.flushHeld x h)).advanceAll x)
  s.updInst i (fun x => { x with flush := none })

/-- Order 9: every instance that was reset in the lap. -/
def State.flushInsts (s : State) : State := s.forEach (s.inst.keys.filter (fun i => (s.inst.at i).flush.isSome)) (fun s i => s.flushInst i)

/-! ### INST.STATUS, INST.RESET -/

def State.instStatus (s : State) (inst : Nat) (a : Accepted) : Reply :=
  let i := leAt a.payload 0 1
  let x := s.inst.at i
  if 64 ≤ i then .refuse E.range
  else if !owns inst i then .refuse E.notOwner
  else .ok s (leBytes 1 x.gen.toNat ++ leBytes 1 x.st ++ leBytes 2 0 ++ leBytes 4 (s.buf.instCells.at i - s.par P.instCells i))

def execInstStatus (slot : Nat) (s : State) : Host.Outcome State Fault Refusal := runs (serve slot Op.instStatus State.instStatus) s

def State.instReset (s : State) (inst : Nat) (a : Accepted) : Reply :=
  let i := leAt a.payload 0 1
  let x := s.inst.at i
  if 64 ≤ i then .refuse E.range
  else if !owns inst i then .refuse E.notOwner
  else if x.st ≠ 0 then .refuse E.state
  else match nextGen x.gen.toNat x.inUse with
  | none => .refuse E.busy
  | some g => .after s (leBytes 1 g) (.resetInst i g) (fun s => s.resetInst i g)

def execInstReset (slot : Nat) (s : State) : Host.Outcome State Fault Refusal := runs (serve slot Op.instReset State.instReset) s

/-! ### INST.DELETE (R454) -/

/-- A job in progress deletes, saves or restores an instance. -/
def State.instBusy (s : State) (i : Nat) : Bool := s.running.any (fun j => match j.kind with
  | .instDelete k _ _ => k == i
  | .instSave k _ => k == i
  | .instRestore k _ => k == i
  | _ => false)

/-- The command's checks and effect (DEDUCED, entry 96). -/
def State.instDelete (s : State) (_ : Nat) (a : Accepted) : Reply :=
  let i := leAt a.payload 0 1
  let x := s.inst.at i
  if i < 1 ∨ 64 ≤ i then .refuse E.range
  else if x.st = 2 then .refuse E.state
  else if s.instBusy i || (nextGen x.gen.toNat x.inUse).isNone then .refuse E.busy
  else .job s (.instDelete i 0 []) 4

def execInstDelete (slot : Nat) (s : State) : Host.Outcome State Fault Refusal := runs (serve slot Op.instDelete State.instDelete) s

/-- Step 2 of a delete: entries, rules and prefixes are deleted, and keys removed. -/
def State.dropTables (s : State) (i : Nat) : State :=
  let s := s.forEach ((s.allEntries.filter (fun e => R.inst.get e.2.result == i)).map (·.1)) (fun s c => s.setEntry c {})
  let s := { s with srch := { s.srch with rule := s.srch.rule.filter (fun r => !(r.2.valid && r.2.inst == i)) } }
  let lanes := (s.srch.pfx.filter (fun p => p.2.valid && s.par P.vrfOwner p.2.vrf == i)).map (·.2)
  let s := s.forEach lanes (fun s p => match s.srch.findPrefix p.family p.vrf p.len p.addr with
    | some a => { s with srch := s.srch.dropPrefix a }
    | none => s)
  let assocs := s.sec.vault.keys.filter (fun k => s.par P.asInstance (k / 4) == i && s.parOn P.asEnable (k / 4))
  s.forEach assocs (fun s k => s.removeKey (k / 4) (k % 4))

/-- Step 3: its records drain under the fence of R142. -/
def State.drainObjs (s : State) (i : Nat) : State :=
  s.forEach ((s.tbl.obj.filter (fun r => r.2.st == 1 && r.2.owner == i)).map (·.1)) (fun s k => s.drainObj (k / 2 ^ 20) (k % 2 ^ 20))

/-- Records of an instance that still drain. -/
def State.draining (s : State) (i : Nat) : List Nat := (s.tbl.obj.filter (fun r => r.2.st == 2 && r.2.owner == i)).map (·.1)

/-- A step of a delete: the one that deletes rules and prefixes takes its turn at the move engine (R154), the last one waits for the last
fence. (DEDUCED, entry 96.) -/
def State.deleteStep (s : State) (j : Job) (i stage : Nat) : State :=
  let next := fun (s : State) (l : List Nat) => s.stepJob j.session j.seq (fun j => { j with kind := .instDelete i (stage + 1) l })
  if j.abort ∧ stage < 3 then s.endJob j.session j.seq 2 E.aborted
  else match stage with
  | 0 => match nextGen (s.inst.at i).gen.toNat (s.inst.at i).inUse with
    | some g => next (s.resetInst i g) []
    | none => s.endJob j.session j.seq 0 E.busy
  | 1 => if s.moving then s else next (s.dropTables i) []
  | 2 => let s := s.drainObjs i; next s (s.draining i)
  | _ =>
    if (s.draining i).isEmpty then
      (s.updInst i (fun x => { x with st := 2, freezeAt := none, resumeAt := none, saved := [] })).endJob j.session j.seq 0 0
    else s

/-! ### INST.FREEZE, INST.RESUME (R455) -/

def State.instFreeze (s : State) (_ : Nat) (a : Accepted) : Reply :=
  let i := leAt a.payload 0 1
  match s.atLap (leAt a.payload 1 1) (leAt a.payload 4 4) with
  | none => .refuse E.format
  | some lap =>
    if 64 ≤ i then .refuse E.range
    else if (s.inst.at i).st = 2 then .refuse E.state
    else .ok (s.updInst i (fun x => { x with freezeAt := some lap })) (leBytes 4 lap)

def execInstFreeze (slot : Nat) (s : State) : Host.Outcome State Fault Refusal := runs (serve slot Op.instFreeze State.instFreeze) s

def State.instResume (s : State) (_ : Nat) (a : Accepted) : Reply :=
  let i := leAt a.payload 0 1
  match s.atLap (leAt a.payload 1 1) (leAt a.payload 4 4) with
  | none => .refuse E.format
  | some lap =>
    if 64 ≤ i then .refuse E.range
    else if (s.inst.at i).st ≠ 1 then .refuse E.state
    else .ok (s.updInst i (fun x => { x with resumeAt := some lap })) (leBytes 4 lap)

def execInstResume (slot : Nat) (s : State) : Host.Outcome State Fault Refusal := runs (serve slot Op.instResume State.instResume) s

end Sys2Proof.Machine
end

