-- ==== Sys2Proof/Machine/Migrate.lean ====
section
/-! DEFINITION. The saved image of an instance: INST.SAVE, INST.RESTORE and segmented transfers (R429, R456 to R458). The manual gives the
header and the order of the sections; the layout of a section's elements is the model's. -/
namespace Sys2Proof.Machine

/-! ### Segmented transfers (R429) -/

/-- Writes the transfer of a target. -/
def State.putTransfer (s : State) (target : Nat) (t : Transfer) : State :=
  { s with mbx := { s.mbx with transfer := s.mbx.transfer.put target t } }

/-- Takes one segment: the state, or the status of its refusal. -/
def State.takeSegment (s : State) (target seg total : Nat) (bytes : List Byte) : Except Nat State :=
  let t := s.mbx.transfer.at target
  let until_ := 60000000000 + s.time.mono
  if total = 0 ∨ total ≤ seg ∨ 65536 < bytes.length then .error E.range
  else if seg = 0 then .ok (s.putTransfer target { next := 1, total := total, bytes := bytes, deadline := until_, open_ := true })
  else if t.open_ = false ∨ t.next ≠ seg ∨ t.total ≠ total then .error E.state
  else .ok (s.putTransfer target { t with next := seg + 1, bytes := t.bytes ++ bytes, deadline := until_ })

/-- The bytes of a transfer leave the mailbox unit with its last command. -/
def State.endTransfer (s : State) (target : Nat) : State := { s with mbx := { s.mbx with transfer := s.mbx.transfer.del target } }

/-! ### The sections of an image -/

/-- A rule as RULE.INSERT carries it. -/
def Rule.bytes (r : Rule) : List Byte :=
  leBytes 1 (bits r.value 316 4) ++ leBytes 1 0 ++ leBytes 2 r.prio ++ leBytes 4 0 ++ leBytes 40 r.value ++ leBytes 40 r.mask ++ leBytes 8 r.result

/-- A prefix as PFX.INSERT carries it. -/
def Prefix.bytes (p : Prefix) : List Byte :=
  let n := addrWidth p.family / 8
  leBytes 1 p.family ++ leBytes 1 p.vrf ++ leBytes 1 p.len ++ leBytes 5 0 ++ beBytes n p.addr ++ leBytes (16 - n) 0 ++ leBytes 8 p.result

/-- Order in which records are saved, so that a record comes after those it refers to: rewrite, meter, stream, next hop (single ports
before groups), action. -/
def saveOrder (kind w : Nat) : Nat :=
  match kind with
  | 1 => 0 | 4 => 1 | 3 => 2 | 0 => if N.kind.get w = 0 ∨ N.kind.get w = 4 then 3 else 4 | _ => 5

/-- A record as OBJ.WRITE carries it: a stream record with the State fields its host wrote. -/
def recordBytes (k : Nat) (r : ObjRec) : List Byte :=
  let kind := k / 2 ^ 20
  leBytes 1 kind ++ leBytes 3 0 ++ leBytes 4 (k % 2 ^ 20) ++ leBytes (24 * poolWords kind) (if kind = K.stream then r.init else r.words)

/-- Live records of an instance. -/
def State.recordsOf (s : State) (i : Nat) : Tab ObjRec := s.tbl.obj.filter (fun r => r.2.st == 1 && r.2.owner == i)

/-- Key numbers of an instance's associations that are installed: 4 × association + key number. -/
def State.keysOf (s : State) (i : Nat) : List Nat :=
  s.sec.vault.keys.filter (fun k => s.parOn P.asEnable (k / 4) && s.par P.asInstance (k / 4) == i && s.installed (k / 4) (k % 4))

/-- The KEY_STATE of a key, with the advance of R457. -/
def State.keyState (s : State) (k : Nat) : List Byte :=
  let v := s.sec.vault.at k
  let (use, next, low, tx) := match s.slotOf (k / 4) (k % 4) with
    | some t =>
      let q := s.sec.slot.at t
      (max q.useCount.toNat q.useReserved.toNat, q.nextPn.toNat, q.lowestPn.toNat, max q.txPn.toNat q.txReserved.toNat)
    | none => (v.useReserved.toNat, v.nextPn.toNat, v.lowestPn.toNat, v.txReserved.toNat)
  leBytes 2 (k / 4) ++ leBytes 1 (k % 4) ++ leBytes 1 0 ++ leBytes 4 (min (s.par P.hardLimit (k / 4)) (use + 2 ^ 20)) ++ leBytes 8 next
    ++ leBytes 8 low ++ leBytes 8 (tx + 2 ^ 20)

/-- Performance counters of an instance. -/
def State.ctrsOf (s : State) (i : Nat) : List Nat := (List.range 2048).filter (fun g => s.ctrOwner g == i)

/-- A counter with what it counts. -/
def ctrBytes (g : Nat) (c : Ctr) : List Byte :=
  leBytes 2 g ++ leBytes 2 c.event ++ leBytes 1 (b2n c.level) ++ leBytes 3 0 ++ leBytes 8 (c.value.toNat + 2 ^ 48 * b2n c.sticky)

/-- The eight sections. (DESIGN CHOICE, entry 97.) -/
def State.sections (s : State) (i : Nat) : List (List Byte) :=
  let own := s.allEntries.filter (fun e => R.inst.get e.2.result == i)
  let recs := s.recordsOf i
  [ (own.filter (fun e => decide (e.1.1 < 2))).flatMap (fun e => tblBytes e.1.1 e.2),
    (own.filter (fun e => decide (2 ≤ e.1.1))).flatMap (fun e => tblBytes e.1.1 e.2),
    (s.srch.rule.filter (fun r => r.2.valid && r.2.inst == i)).flatMap (fun r => r.2.bytes),
    (s.srch.pfx.filter (fun p => p.2.valid && s.par P.vrfOwner p.2.vrf == i)).flatMap (fun p => p.2.bytes),
    (List.range 6).flatMap (fun n => (recs.filter (fun r => saveOrder (r.1 / 2 ^ 20) r.2.words == n)).flatMap (fun r => recordBytes r.1 r.2)),
    (recs.filter (fun r => r.1 / 2 ^ 20 == K.stream)).flatMap (fun r => leBytes 4 (r.1 % 2 ^ 20) ++ leBytes 48 r.2.words),
    (s.keysOf i).flatMap s.keyState,
    (s.ctrsOf i).flatMap (fun g => ctrBytes g (s.ctr.ctr.at g)) ]

/-- The image of R456. (DESIGN CHOICE, entry 97.) -/
def State.instImage (s : State) (i : Nat) : List Byte :=
  let secs := s.sections i
  let body := [0x58#8, 0x51#8, 0x49#8, 0x53#8] ++ leBytes 2 1 ++ leBytes 1 i ++ leBytes 1 (s.instGen i) ++ leBytes 8 Config.deviceSerial.toNat
    ++ leBytes 4 s.lap ++ leBytes 2 s.cfg.activeGen.toNat ++ leBytes 2 0 ++ s.attestKey ++ leBytes 7 0
    ++ secs.flatMap (fun l => leBytes 4 l.length) ++ secs.flatten
  body ++ s.attestSign (Crypto.sha384 body)

/-- The freeze or the resume of an instance, where its lap has come; the image is that of the freeze boundary (R455, R456). -/
def State.freezeOne (s : State) (i : Nat) : State :=
  let x := s.inst.at i
  let due := fun (l : Option Nat) => match l with | some l => !later 32 l s.lap | none => false
  let s := if due x.freezeAt then
      (let s := s.updInst i (fun x => { x with st := if x.st = 2 then 2 else 1, freezeAt := none })
       if x.st = 0 then s.updInst i (fun x => { x with saved := s.instImage i }) else s)
    else s
  if due x.resumeAt then s.updInst i (fun x => { x with st := if x.st = 2 then 2 else 0, resumeAt := none, saved := [] }) else s

/-- Order 6: freezes and resumes that are due. -/
def State.freezes (s : State) : State := s.forEach s.inst.keys (fun s i => s.freezeOne i)

/-! ### INST.SAVE -/

/-- Segments of an image. -/
def segments (l : List Byte) : Nat := ceilDiv l.length 65536

def State.instSave (s : State) (_ : Nat) (a : Accepted) : Reply :=
  let i := leAt a.payload 0 1
  let seg := leAt a.payload 2 2
  if 64 ≤ i then .refuse E.range
  else if (s.inst.at i).st ≠ 1 then .refuse E.state
  else if segments (s.inst.at i).saved ≤ seg then .refuse E.range
  else if s.instBusy i then .refuse E.busy
  else .job s (.instSave i seg) 1

def execInstSave (slot : Nat) (s : State) : Host.Outcome State Fault Refusal := runs (serve slot Op.instSave State.instSave) s

/-- The step of a save: an instance that has been resumed meanwhile has no image. -/
def State.saveStep (s : State) (j : Job) (i seg : Nat) : State :=
  if j.abort then s.endJob j.session j.seq 2 E.aborted
  else if (s.inst.at i).st ≠ 1 then s.endJob j.session j.seq 0 E.state
  else
    let l := (s.inst.at i).saved
    let part := (l.drop (65536 * seg)).take 65536
    s.endJob j.session j.seq 0 0 (leBytes 2 (segments l) ++ leBytes 2 0 ++ leBytes 4 part.length) part

/-! ### INST.RESTORE (R458) -/

/-- Pieces of `n` bytes. -/
def pieces (n : Nat) (l : List Byte) : List (List Byte) := (List.range (l.length / n)).map (fun k => slice l (n * k) n)

/-- Splits the RECORDS section: elements of 8 bytes and the words of their KIND. -/
def recordPieces : Nat → List Byte → Option (List (List Byte))
  | _, [] => some []
  | 0, _ => none
  | k + 1, l =>
    let n := 8 + 24 * poolWords (leAt l 0 1)
    if 5 ≤ leAt l 0 1 ∨ l.length < n then none else (recordPieces k (l.drop n)).map (fun r => l.take n :: r)

/-- The sections of an image, or none where its layout or its lengths are wrong. -/
def imageSections (l : List Byte) : Option (List (List Byte)) :=
  let lens := (List.range 8).map (fun k => leAt l (128 + 4 * k) 4)
  let start := fun k => 160 + (lens.take k).sum
  if l.length ≠ 256 + lens.sum ∨ l.take 4 ≠ [0x58#8, 0x51#8, 0x49#8, 0x53#8] ∨ leAt l 4 2 ≠ 1 ∨ 64 ≤ leAt l 6 1 then none
  else if !(zeroAt l 22 2 && zeroAt l 121 7) then none
  else
    let secs := (List.range 8).map (fun k => slice l (start k) (lens.getD k 0))
    let whole := (List.zip secs [32, 32, 96, 32, 1, 52, 32, 16]).all (fun e => e.1.length % e.2 == 0)
    if whole && (recordPieces l.length (secs.getD 4 [])).isSome then some secs else none

/-- What an image names, for R446. -/
structure SavedImage where
  front : List (List Byte)
  station : List (List Byte)
  rules : List (List Byte)
  prefixes : List (List Byte)
  records : List (List Byte)
  streams : List (List Byte)
  keys : List (List Byte)
  ctrs : List (List Byte)
  gen : Nat

/-- The elements of an image. (DESIGN CHOICE, entry 97.) -/
def savedImage (l : List Byte) : Option SavedImage :=
  (imageSections l).map (fun secs =>
    let sec := fun k => secs.getD k []
    { front := pieces 32 (sec 0), station := pieces 32 (sec 1), rules := pieces 96 (sec 2), prefixes := pieces 32 (sec 3)
      records := (recordPieces l.length (sec 4)).getD [], streams := pieces 52 (sec 5), keys := pieces 32 (sec 6), ctrs := pieces 16 (sec 7)
      gen := leAt l 7 1 })

/-- Every object an image names belongs to the instance in the Active bank. -/
def State.ownsImage (s : State) (i : Nat) (m : SavedImage) : Bool :=
  (m.front ++ m.station).all (fun e => R.inst.get (leAt e 24 8) == i)
    && m.rules.all (fun e => (s.ruleFrom e).inst == i)
    && m.prefixes.all (fun e => s.par P.vrfOwner (leAt e 1 1) == i)
    && m.records.all (fun e => let r := s.obj (leAt e 0 1) (leAt e 4 4); r.st == 0 || r.owner == i)
    && m.records.all (fun e => decide (leAt e 0 1 ≠ K.stream) || decide (i = 0) || S.inst.get (leNat (e.drop 8)) == i)
    && m.keys.all (fun e => s.parOn P.asEnable (leAt e 0 2) && s.par P.asInstance (leAt e 0 2) == i)
    && m.ctrs.all (fun e => decide (leAt e 0 2 < 2048) && s.ctrOwner (leAt e 0 2) == i)

/-- Writes one record of an image. -/
def State.restoreRecord (s : State) (i : Nat) (e : List Byte) : State × Nat :=
  let kind := leAt e 0 1
  let k := leAt e 4 4
  let w := cleanWords kind (leNat (e.drop 8))
  if s.cfg.active.records kind ≤ k || noRecord kind k || !s.wordsOk kind w then (s, E.range)
  else match (s.obj kind k).st with
  | 0 =>
    let st := s.refCheck i (recordRefs kind w)
    if st ≠ 0 then (s, st) else (s.setObj kind k { st := 1, words := w, init := w, owner := i }, 0)
  | 1 => (s, E.inUse)
  | _ => (s, E.busy)

/-- Inserts the elements of a section; the first failure ends it with its status. -/
def insertAll (f : State → List Byte → State × Nat) : State → List (List Byte) → State × Nat
  | s, [] => (s, 0)
  | s, e :: l => match f s e with
    | (s, 0) => insertAll f s l
    | (s, st) => (s, st)

/-- One section after another. -/
def insertSections : State → List ((State → List Byte → State × Nat) × List (List Byte)) → State × Nat
  | s, [] => (s, 0)
  | s, (f, l) :: rest => match insertAll f s l with
    | (s, 0) => insertSections s rest
    | (s, st) => (s, st)

/-- A key's counts and PNs rise to the saved values, never below what they are. -/
def State.raiseKey (s : State) (e : List Byte) : State :=
  let a := leAt e 0 2
  let k := leAt e 2 1
  let up := fun {w : Nat} (x : BitVec w) (off : Nat) => if x.toNat < leAt e off (w / 8) then BitVec.ofNat w (leAt e off (w / 8)) else x
  let s := s.writeVault a k 0 (fun v => { v with
    useReserved := up v.useReserved 4, nextPn := up v.nextPn 8, lowestPn := up v.lowestPn 16, txReserved := up v.txReserved 24 })
  match s.slotOf a k with
  | some t => s.updKey t (fun q => { q with
      useCount := up q.useCount 4, useReserved := up q.useReserved 4, nextPn := up q.nextPn 8, lowestPn := up q.lowestPn 16
      txPn := up q.txPn 24, txReserved := up q.txReserved 24 })
  | none => s

/-- The saved INST_GEN, or the next clear value above it (R458). -/
def restoredGen (x : Inst) (saved : Nat) : Option Nat := if bit x.inUse saved then nextGen saved x.inUse else some saved

/-- The whole restore: the state, and its status. What it added is deleted when an insert fails. -/
def State.restore (s : State) (i : Nat) (m : SavedImage) : State × Nat :=
  let entry := fun (s : State) e => s.tblInsertOne i e
  let rule := fun (s : State) e => let (s, st, _) := s.ruleInsertOne i e; (s, st)
  match insertSections s [(fun s e => s.restoreRecord i e, m.records), (entry, m.front ++ m.station), (rule, m.rules),
      (fun s e => s.pfxInsertOne e, m.prefixes)] with
  | (t, 0) =>
    let t := t.forEach m.streams (fun t e => t.setObj K.stream (leAt e 0 4) { t.obj K.stream (leAt e 0 4) with words := leAt e 4 48 })
    let t := t.forEach m.ctrs (fun t e => { t with ctr := { t.ctr with ctr := t.ctr.ctr.put (leAt e 0 2) {
      event := leAt e 2 2, level := leAt e 4 1 == 1, value := BitVec.ofNat 48 (leAt e 8 8), sticky := bit (leAt e 8 8) 48 } } })
    let t := t.forEach m.keys State.raiseKey
    match restoredGen (t.inst.at i) m.gen with
    | some g => (t.takeGen i g, 0)
    | none => (t, 0)
  | (_, st) => (s, st)

/-- The checks of R458 on the whole transfer, in their order, and the restore. (DESIGN CHOICE, entry 97.) -/
def State.restoreAll (s : State) (i : Nat) (sigOk : Bool) (l : List Byte) : State × Nat :=
  if !sigOk then (s, E.signature)
  else match savedImage l with
  | none => (s, E.imageFormat)
  | some m =>
    if (s.inst.at i).st ≠ 1 then (s, E.state)
    else if !s.ownsImage i m then (s, E.notOwner)
    else if m.keys.any (fun e => !s.installed (leAt e 0 2) (leAt e 2 1)) then (s, E.notFound)
    else s.restore i m

def State.instRestore (sigOk : Bool) (s : State) (_ : Nat) (a : Accepted) : Reply :=
  let i := leAt a.payload 0 1
  let seg := leAt a.payload 2 2
  let total := leAt a.payload 4 2
  if 64 ≤ i then .refuse E.range
  else if (s.inst.at i).st ≠ 1 then .refuse E.state
  else if s.instBusy i then .refuse E.busy
  else match s.takeSegment i seg total (a.payload.drop 6) with
  | .error st => .refuse st
  | .ok s => .job s (.instRestore i sigOk) (if seg + 1 = total then 2 else 1)

def execInstRestore (slot : Nat) (sigOk : Bool) (s : State) : Host.Outcome State Fault Refusal :=
  runs (serve slot Op.instRestore (State.instRestore sigOk)) s

/-- A step of a restore: a segment before the last is only held; the last one verifies and applies the whole, in its turn at the move
engine (R154). -/
def State.restoreStep (s : State) (j : Job) (i : Nat) (sigOk : Bool) : State :=
  if j.abort then (if j.total = 2 then s.endTransfer i else s).endJob j.session j.seq 2 E.aborted
  else if j.total = 1 then s.endJob j.session j.seq 0 0
  else if j.done = 0 then s.stepJob j.session j.seq id
  else if s.moving then s
  else
    let (t, st) := s.restoreAll i sigOk (s.mbx.transfer.at i).bytes
    (t.endTransfer i).endJob j.session j.seq 0 st

end Sys2Proof.Machine
end

