-- ==== Sys2Proof/Machine/FaultCmds.lean ====
section
/-! DEFINITION. The fault unit's own events and the commands FAULT.* (R459 to R475, R497, R554). -/
namespace Sys2Proof.Machine

/-! ### Attempts, conditions and quiet periods (R465, R468) -/

/-- The block still observes the condition of a level source: a link down, no lock to a time source, a temperature, PFW_N, the TRNG. -/
def State.condSeen (s : State) (src unit : Nat) : Bool :=
  if src < 16 then s.parOn P.portEnable (32 * src + unit) && !s.isUp (32 * src + unit) && decide ((s.prt (32 * src + unit)).link ≠ .disabled)
  else if 168 ≤ src ∧ src < 172 then decide (85 < s.hbm.temp.at (src - 168))
  else match src with
  | 178 => s.sec.trngFailed
  | 187 => decide (s.time.state ≠ .locked)
  | 188 => s.pins.temp.any (fun e => decide (105 < e.2))
  | 189 => s.pins.temp.any (fun e => decide (115 < e.2))
  | 190 => s.pins.pfwLow
  | _ => false

/-- RECOVERY_ATTEMPT_COMPLETE: the action of an attempt has ended. A link is back only when its port is UP; a reset under way completes
with the boot, and a power cycle request never does (R468, R470). (DEDUCED, entry 38.) -/
def State.attemptEnds (s : State) (src unit : Nat) : State :=
  if s.fault.warm || (decide (s.rung src = 4) && s.fault.pwrCycleReq) || (decide (src < 16) && s.condSeen src unit) then s
  else (s.completeAttempt src unit).serveRings

def execRecoveryAttemptComplete (source unit : Nat) (s : State) : Host.Outcome State Fault Refusal :=
  runs (fun s => s.attemptEnds source unit) s

/-- FAULT_CONDITION_CLEAR: a reference clock pair is back in range, or the PCIe link is up again, or a condition the block observes has
gone (R465). -/
def State.conditionClears (s : State) (src unit : Nat) : State :=
  if s.condSeen src unit then s else
    let s := if 112 ≤ src ∧ src < 144 then { s with pins := { s.pins with refLost := s.pins.refLost.filter (· != src - 112) } } else s
    let s := if src = 186 then { s with host := { s.host with linkUp := true } } else s
    s.clearCond src unit

def execFaultConditionClear (source unit : Nat) (s : State) : Host.Outcome State Fault Refusal :=
  runs (fun s => s.conditionClears source unit) s

/-- QUIET_PERIOD_EXPIRE: the last boundary of the quiet period has passed. -/
def State.quietEnds (s : State) (src unit : Nat) : State :=
  if (s.funit src unit).inFault && (s.funit src unit).quiet == some 0 then s.exitFault src unit else s

def execQuietPeriodExpire (source unit : Nat) (s : State) : Host.Outcome State Fault Refusal := runs (fun s => s.quietEnds source unit) s

/-- FAULT_IRQ_CLEAR: IRQ_PENDING, which is the FAULT cause of instance 0, is cleared by writing 1 (R475, R516). -/
def State.irqClear (s : State) : State :=
  let c := s.host.cause.at 0
  s.setIrq 0 (if bit c 1 then c - 2 else c) (s.host.mask.at 0)

def execFaultIrqClear (s : State) : Host.Outcome State Fault Refusal := runs State.irqClear s

/-- PIPE_HANG: a stage of the pipe gives no answer for 4,096 core clocks (R460). -/
def execPipeHang (pipe : Nat) (s : State) : Host.Outcome State Fault Refusal := runs (fun s => if pipe < 16 then s.raise (80 + pipe) 0 else s) s

/-! ### FAULT.SUMMARY (R475) -/

/-- Sources in fault. -/
def State.faulty (s : State) : List Nat := (List.range 384).filter s.inFault

/-- Open records. -/
def State.openRecords (s : State) : List FaultRec := s.fault.src.filterMap (fun e => e.2.record)

/-- FAULT.SUMMARY. -/
def State.faultSummary (s : State) : Nat :=
  let l := s.faulty
  b2n (!l.isEmpty) * 2 ^ 31 + ((s.openRecords.map (·.severity)).foldl max 0) * 2 ^ 28 + l.length * 2 ^ 19
    + (s.openRecords.filter (fun r => !r.acked)).length * 2 ^ 10 + ((l.map s.rung).foldl max 0) * 2 ^ 7
    + b2n s.fault.pwrCycleReq * 2 ^ 6 + b2n (bit (s.host.cause.at 0) 1) * 2 ^ 5

/-! ### FAULT.LIST, FAULT.STATUS, FAULT.ACK, FAULT.POLICY_SET -/

/-- Sources attributed to an instance other than 0 (R474). (DEDUCED, entry 39.) -/
def State.attributed (s : State) (inst src : Nat) : Bool :=
  decide (inst = 0) || (decide (192 ≤ src) && (src - 192) % 64 == inst)
    || (decide (src < 48) && (List.range 32).any (fun u => s.portInst (32 * (src % 16) + u) == inst))

/-- The command's checks and effect (DEDUCED, entry 39). -/
def State.faultList (s : State) (_ : Nat) (_ : Accepted) : Reply :=
  let unacked := (List.range 384).filter (fun k => match (s.fsrc k).record with | some r => !r.acked | none => false)
  .ok s (leBytes 48 (maskOf s.faulty) ++ leBytes 48 (maskOf unacked))

def execFaultList (slot : Nat) (s : State) : Host.Outcome State Fault Refusal := runs (serve slot Op.faultList State.faultList) s

/-- Checks of a command that names a source: 0, or its status. -/
def State.sourceCheck (s : State) (inst src : Nat) : Nat :=
  if 384 ≤ src then E.range else if s.attributed inst src then 0 else E.notOwner

/-- The result of FAULT.STATUS (R554). -/
def State.faultReport (s : State) (src : Nat) : List Byte :=
  let f := s.fsrc src
  let r := (f.record.or f.closed).getD { severity := s.severity src, count := 0 }
  leBytes 1 r.severity ++ leBytes 1 (s.rung src) ++ leBytes 1 (s.entryRung src) ++ leBytes 1 (b2n (s.inFault src) + 2 * b2n r.acked)
    ++ leBytes 2 r.count ++ leBytes 2 f.recoveries.toNat ++ leBytes 4 r.first ++ leBytes 4 r.last

def State.faultStatus (s : State) (inst : Nat) (a : Accepted) : Reply :=
  let src := leAt a.payload 0 2
  let st := s.sourceCheck inst src
  if st ≠ 0 then .refuse st else .ok s (s.faultReport src)

def execFaultStatus (slot : Nat) (s : State) : Host.Outcome State Fault Refusal := runs (serve slot Op.faultStatus State.faultStatus) s

/-- The open record is acknowledged, and nothing else changes (R464). -/
def State.faultAck (s : State) (inst : Nat) (a : Accepted) : Reply :=
  let src := leAt a.payload 0 2
  let st := s.sourceCheck inst src
  if st ≠ 0 then .refuse st
  else if !s.inFault src then .refuse E.state
  else .ok (s.updSrc src (fun f => { f with record := f.record.map (fun r => { r with acked := true }) }))

def execFaultAck (slot : Nat) (s : State) : Host.Outcome State Fault Refusal := runs (serve slot Op.faultAck State.faultAck) s

/-- The policy of a source, in force at its next raise and kept in flash before the response (R473). (DEDUCED, entry 39.) -/
def State.policySet (s : State) (_ : Nat) (a : Accepted) : Reply :=
  let src := leAt a.payload 0 2
  let sev := leAt a.payload 2 1
  let rung := leAt a.payload 3 1
  if 384 ≤ src ∨ 4 < sev ∨ rung < 1 ∨ 4 < rung ∨ (rung = 2 ∧ (sourceInfo src).climbs = false) then .refuse E.range
  else
    let now := s.rung src
    let s := s.updSrc src (fun f => { f with policy := some (sev, rung), rung := if s.inFault src then some now else f.rung })
    .ok (s.keepPersist (fun p => { p with policy := p.policy.put src (some (sev, rung)) }))

def execFaultPolicySet (slot : Nat) (s : State) : Host.Outcome State Fault Refusal := runs (serve slot Op.faultPolicySet State.policySet) s

end Sys2Proof.Machine
end

