-- ==== Sys2Proof/Machine/RecorderCmds.lean ====
section
/-! DEFINITION. What the recorder does, its flash log and the power-fail flush, and LOG.READ (R476 to R484, R505, R537, R553). -/
namespace Sys2Proof.Machine

/-! ### The ring (R478 to R480) -/

/-- The recorder continues from flash: after a power-on or cold reset not before stage 6 (R481, R494). -/
def State.restored (s : State) : Bool := decide (2 ≤ s.boot.cause) || s.tequin

/-- RECORDER_ACCEPT: the next record is written: of what was dropped, if anything was, else the oldest event of the input queue.
(DEDUCED, entry 41.) -/
def State.recorderAccept (s : State) : State :=
  let q := s.recd
  if !q.accepting || !s.restored then s
  else if q.dropped ≠ 0 then { s with recd := { q.enter (s.event 0x051 [] [q.dropped]) with dropped := 0 } }
  else match q.queue with
  | [] => s
  | e :: rest => { s with recd := { q with queue := rest }.enter e }

def execRecorderAccept (s : State) : Host.Outcome State Fault Refusal := runs State.recorderAccept s

/-- Records of the ring that are not PAD. -/
def Recorder.records (q : Recorder) : List Rec := q.ring.filter (fun r => r.ev.typ != 0)

/-- RECORDER.OLDEST_SEQ and RECORDER.OLDEST_OFFSET. (DEDUCED, entry 43.) -/
def Recorder.oldestSeq (q : Recorder) : Nat := (q.records.head?.map (·.seq)).getD 0
/-- As R480 gives it (DEDUCED, entry 43). -/
def Recorder.oldestOffset (q : Recorder) : Nat := (q.records.head?.map (·.off)).getD 0

/-! ### Flash copy (R483) -/

/-- Bytes of the staging region. -/
def stagingBytes : Nat := 67108864

/-- Total length of records. -/
def recBytes (l : List Rec) : Nat := (l.map (·.len)).sum

/-- The newest records that fit. (DEDUCED, entry 42.) -/
def keepNewest (room : Nat) (l : List Rec) : List Rec := newestFit room l.reverse

/-- RECORD_STAGE: the oldest record not yet staged is closed to merging and written to HBM by the Recorder copy master (R25); a staged
record that it overwrites is lost from flash. (DEDUCED, entry 42.) -/
def State.recordStage (s : State) : State :=
  match s.recd.records.find? (fun r => !r.staged) with
  | none => s
  | some r =>
    let r' := { r with staged := true }
    let all := s.recd.staging ++ [r']
    let kept := keepNewest stagingBytes all
    let s := { s with recd := { s.recd with
      ring := s.recd.ring.map (fun (x : Rec) => if x.ev.typ ≠ 0 ∧ x.seq = r.seq then r' else x), staging := kept } }
    (s.hbmSpan 8 (hbmRecorder + r.off) r.len true 0).count Stat.recorderFlashLost 0 (all.length - kept.length)

def execRecordStage (s : State) : Host.Outcome State Fault Refusal := runs State.recordStage s

/-- Every record of the lap just ended is staged by its end (R483). (DEDUCED, entry 42.) -/
def State.stageRecords (s : State) : State := s.forEach (s.recd.records.filter (fun r => !r.staged)) (fun s _ => s.recordStage)

/-- Bytes of the flash log that hold records: 64 MiB but for the block erased ahead of the log and the reserve. -/
def flashBytes : Nat := 67108864 - 2 * 65536

/-- Records enter the flash log, the oldest giving way. (DEDUCED, entry 42.) -/
def Recorder.toFlash (q : Recorder) (l : List Rec) : Recorder :=
  let flash := keepNewest flashBytes (q.flash ++ l)
  { q with flash := flash, flashSeq := (flash.getLast?.map (·.seq)).getD q.flashSeq }

/-- FLASH_COPY: every FLASH_COPY_S; a write that fails raises RECORDER_FLASH, and its records stay staged. (DEDUCED, entry 42.) -/
def State.flashCopy (s : State) (ok : Bool) : State :=
  if s.time.mono < s.recd.copyAt ∨ s.recd.accepting = false ∨ s.recd.reserveReady = false then s else
    let s := { s with recd := { s.recd with copyAt := s.time.mono + 1000000000 * s.par P.flashCopyS } }
    if ok then { s with recd := { s.recd.toFlash s.recd.staging with staging := [] } } else s.raise 185 0

def execFlashCopy (ok : Bool) (s : State) : Host.Outcome State Fault Refusal := runs (fun s => s.flashCopy ok) s

/-- HOUR_COMPLETE: OP_HOURS is stored (R481, R497). -/
def State.hourComplete (s : State) : State :=
  if s.time.mono < 3600000000000 + s.recd.hourStart then s else
    let s := { s with recd := { s.recd with opHours := s.recd.opHours + 1, hourStart := 3600000000000 + s.recd.hourStart } }
    s.keepPersist (fun p => { p with hours := s.recd.opHours.toNat })

def execHourComplete (s : State) : Host.Outcome State Fault Refusal := runs State.hourComplete s

/-! ### Power fail (R484, R537) -/

/-- The reserved block is merged into the log in SEQ order, and a new reserve is erased. (DEDUCED, entry 42.) -/
def Recorder.mergeReserve (q : Recorder) : Recorder :=
  let have_ := q.flash.map (·.seq)
  { q.toFlash (q.reserve.filter (fun r => !have_.contains r.seq)) with
    reserve := [], reserveReady := true, staging := q.staging.filter (fun r => !(q.reserve.map (·.seq)).contains r.seq) }

/-- PFW_N_ASSERT. (DEDUCED, entry 135.) -/
def State.pfwAssert (s : State) : State :=
  if s.pins.pfwLow || !s.time.running || !s.restored then { s with pins := { s.pins with pfwLow := true } }
  else (({ s with pins := { s.pins with pfwLow := true } }).raise 190 0).powerFailFlush

def execPfwNAssert (s : State) : Host.Outcome State Fault Refusal := runs State.pfwAssert s

/-- PFW_N_DEASSERT: records are accepted again, unless rung 4 stopped them (R470). -/
def State.pfwDeassert (s : State) : State :=
  if !s.pins.pfwLow then s else
    ({ s with pins := { s.pins with pfwLow := false }, recd := { s.recd with accepting := !s.fault.pwrCycleReq } }).clearCond 190 0

def execPfwNDeassert (s : State) : Host.Outcome State Fault Refusal := runs State.pfwDeassert s

/-- RESERVE_ERASE_END: once PFW_N is high and no flush is in progress, the first flash task merges the reserve; with its erase a later
PFW_N may flush again. -/
def State.reserveErased (s : State) : State :=
  if s.pins.pfwLow || s.recd.flushing || s.recd.reserveReady || !s.recd.accepting then s else { s with recd := s.recd.mergeReserve }

def execReserveEraseEnd (s : State) : Host.Outcome State Fault Refusal := runs State.reserveErased s

/-! ### LOG.READ (R553) -/

/-- Whole records from the front while they fit. -/
def fitFirst : Nat → List Rec → List Rec
  | _, [] => []
  | room, r :: l => if r.len ≤ room then r :: fitFirst (room - r.len) l else []

/-- Records of a source: 0 ring, 1 flash. -/
def Recorder.source (q : Recorder) (k : Nat) : List Rec := if k = 0 then q.records else q.flash

/-- The command's checks and effect (DEDUCED, entry 43). -/
def State.logRead (s : State) (inst : Nat) (a : Accepted) : Reply :=
  let src := leAt a.payload 0 1
  let from_ := leAt a.payload 4 4
  let n := leAt a.payload 8 4
  if 2 ≤ src ∨ n < 1024 ∨ 65536 < n then .refuse E.range else
    let all := s.recd.source src
    let l := fitFirst n (all.filter (fun r => !later 32 from_ r.seq && (decide (inst = 0) || r.ev.inst == inst)))
    .ok s (leBytes 4 ((l.head?.map (·.seq)).getD from_) ++ leBytes 4 ((l.getLast?.map (·.seq)).getD ((from_ + 2 ^ 32 - 1) % 2 ^ 32))
      ++ leBytes 4 ((all.head?.map (·.seq)).getD 0) ++ leBytes 4 (recBytes l)) (l.flatMap Rec.bytes)

def execLogRead (slot : Nat) (s : State) : Host.Outcome State Fault Refusal := runs (serve slot Op.logRead State.logRead) s

end Sys2Proof.Machine
end

