-- ==== Sys2Proof/Machine/CounterCmds.lean ====
section
/-! DEFINITION. Performance counters: conditions, the snapshot and the counter page, histograms, and the commands CTR.* (R242, R243, R485 to
R491). -/
namespace Sys2Proof.Machine

/-! ### Conditions (R486) -/

/-- Units of a condition. (DEDUCED, entry 46.) -/
def conditionUnits (ev : Nat) : Nat :=
  match ev with
  | 0x8006 => 512 | 0x8007 => 16 | 0x8008 => 32 | 0x8009 => 1 | 0x800A => 1 | 0x800B => 128 | 0x800C => 32 | _ => 8192

/-- The instance that owns a unit of a condition (R446). -/
def State.conditionOwner (s : State) (ev u : Nat) : Nat := if ev < 0x8006 then s.portInst (u / 16) else if ev = 0x8006 then s.portInst u else 0

/-- Every context of a pipe's ingress engine is occupied (R79). (DEDUCED, entry 46.) -/
def State.admissionStalled (s : State) (pipe : Nat) : Bool :=
  decide (192 ≤ (s.pkt.filter (fun e => e.2.live && pipeOf e.2.port == pipe && (match e.2.stage with | .engine _ => true | _ => false))).length)

/-- A condition holds for a unit. -/
def State.conditionHolds (s : State) (ev u : Nat) : Bool :=
  match ev with
  | 0x8001 => !s.queueEmpty u
  | 0x8002 => !s.gateOpen (u / 16) (u % 16)
  | 0x8003 => s.paused (u / 16) (u % 16)
  | 0x8004 => (List.range 4).any (fun q => !(s.subq u q).middle.isEmpty)
  | 0x8005 => (s.qs u).inRamp
  | 0x8006 => (s.sendingAt u).isSome
  | 0x8007 => s.admissionStalled u
  | 0x8008 => s.outputBusy u
  | 0x8009 => s.pkt.any (fun e => e.2.bench.isSome)
  | 0x800A => s.sec.fills.any (fun f => f.slot.isSome)
  | 0x800B => decide (s.time.mono < (s.hbm.pc.at u).refEnd) && decide ((s.hbm.pc.at u).refEnd ≤ s.time.mono + 380)
  | 0x800C => (s.thread u).st == 2
  | _ => false

/-- Units a condition counter counts (R488). -/
def State.countedUnits (s : State) (g ev : Nat) : List Nat :=
  let w := s.par P.ctrUnit g
  if w = 0xFFFFFFFF then (let o := s.ctrOwner g; (List.range (conditionUnits ev)).filter (fun u => o == 0 || s.conditionOwner ev u == o))
  else if w < conditionUnits ev then [w] else []

/-- Core clocks up to a monotonic time (R17). (DEDUCED, entry 45.) -/
def clocksAt (ns : Nat) : Nat := ns * 8 / 5

/-- Condition counters count the core clocks up to the monotonic time `t`, over which every condition is as it is now: level mode adds the
clocks in which it held, edge mode a change from false to true. (DEDUCED, entry 45.) -/
def State.countConditions (s : State) (t : Nat) : State :=
  let n := clocksAt t - clocksAt s.ctr.upTo
  { s with ctr := { s.ctr with
      upTo := t
      ctr := s.ctr.ctr.mapAll (fun g c =>
        if c.event < 0x8001 then c else
          let now := (s.countedUnits g c.event).filter (s.conditionHolds c.event)
          let c' := if c.level then c.add (n * min 64 now.length) else c.add (min 64 (now.filter (fun u => !c.was.contains u)).length)
          { c' with was := now }) } }

/-! ### The snapshot and the page (R489, R490) -/

/-- The 64-bit layout of a counter's value. -/
def Ctr.word (c : Ctr) : Nat := c.value.toNat + 2 ^ 48 * b2n c.sticky

/-- Order 8: the buffer that the page does not show takes every counter, and is shown. (DEDUCED, entry 45.) -/
def State.snapshot (s : State) : State :=
  let t := s.ctr.ctr.foldl (fun t e => Tab.put t e.1 e.2.word) ([] : Tab Nat)
  { s with ctr := { s.ctr with
      snapA := if s.ctr.showB then t else s.ctr.snapA, snapB := if s.ctr.showB then s.ctr.snapB else t
      showB := !s.ctr.showB, snapLap := s.lap } }

/-- Counter n of an instance's page, when the page is open to it and holds it. -/
def State.pageCounter (s : State) (inst n : Nat) : Option Nat :=
  if s.parOn P.counterUserRead inst ∧ n < s.par P.instCtrCount inst then some (s.par P.instCtrBase inst + n) else none

/-- A 32-bit word of an instance's counter page, as a read finds it. -/
def State.pageWord (s : State) (inst off : Nat) : Nat :=
  let word := fun (v : Nat) => bits v (8 * (off % 8)) 32
  if !s.parOn P.counterUserRead inst then 0
  else if off = 0 then s.ctr.snapLap
  else if off = 4 then s.ctr.timeSteps.toNat
  else if off = 8 then s.par P.instCtrBase inst + 2 ^ 16 * s.par P.instCtrCount inst
  else if 0x4000 ≤ off ∧ off < 0x8000 then
    (let n := (off - 0x4000) / 8
     match s.pageCounter inst n with
     | some g => if off % 8 = 4 ∧ s.ctr.latch.has (2048 * inst + n) then s.ctr.latch.at (2048 * inst + n) - 1 else word (s.ctr.ctr.at g).word
     | none => 0)
  else if 0x8000 ≤ off ∧ off < 0xC000 then
    match s.pageCounter inst ((off - 0x8000) / 8) with
    | some g => word ((if s.ctr.showB then s.ctr.snapB else s.ctr.snapA).at g)
    | none => 0
  else 0

/-- COUNTER_LOW_READ: the low word of a live value is read, and its high word latched. -/
def State.lowRead (s : State) (inst n : Nat) : State :=
  match s.pageCounter inst n with
  | none => s.emit (.read 0)
  | some g =>
    let w := (s.ctr.ctr.at g).word
    ({ s with ctr := { s.ctr with latch := s.ctr.latch.put (2048 * inst + n) (bits w 32 32 + 1) } }).emit (.read (bits w 0 32))

def execCounterLowRead (inst counter : Nat) (s : State) : Host.Outcome State Fault Refusal := runs (fun s => s.lowRead inst counter) s

/-! ### Histograms (R242, R243) -/

/-- The bin of a depth in cells. -/
def depthBin (n : Nat) : Nat := if n = 0 then 0 else min 15 (Nat.log2 n + 1)

/-- The bin of a delay in ns. -/
def delayBin (n : Nat) : Nat := if n < 128 then 0 else min 15 (Nat.log2 (n / 64))

/-- Adds one sample to a bin: bin 0 needs no entry. -/
def State.addSample (s : State) (queue kind b : Nat) : State :=
  if b = 0 then s else { s with sched := { s.sched with split := s.sched.split.upd (32 * queue + 16 * kind + b) (· + 1) } }

/-- Egress queues whose samples may lie above bin 0. -/
def State.sampled (s : State) : List Nat :=
  let l := s.buf.depth.keys ++ s.buf.delay.keys ++ (s.buf.sub.keys.map (· / 4)).filter (fun q => decide (q < 8192))
  (l.foldl (fun t q => Tab.put t q 1) ([] : Tab Nat)).keys

/-- The frame at the head of a queue that has not begun its transmission (R189, R242). -/
def State.waitingHead (s : State) (queue : Nat) : Option Nat :=
  ([0, 1, 2, 3].filterMap (fun q => (s.subq queue q).all.find? (fun k => !(s.cpy.at k).begun))).foldl (fun best n =>
    match best with
    | none => some n
    | some b => if later 32 (s.orderOf b) (s.orderOf n) then some n else some b) none

/-- Order 8: both samples of every egress queue; the next lap starts from what the queues hold. -/
def State.sampleQueues (s : State) : State :=
  let s := s.forEach s.sampled (fun s q =>
    let cells := s.queueCells q + s.queueSpilled q
    let depth := max (s.buf.depth.at q) cells
    let head := match s.waitingHead q with | some k => s.residence (s.stampOf k) | none => 0
    let s := (s.addSample q 0 (depthBin depth)).addSample q 1 (delayBin (max (s.buf.delay.at q) head))
    { s with buf := { s.buf with depth := s.buf.depth.put q cells } })
  { s with buf := { s.buf with delay := [] }, sched := { s.sched with samples := s.sched.samples + 1 } }

/-- The sixteen bins of a histogram, each saturating at 32 bits. -/
def State.bins (s : State) (queue kind : Nat) : List Nat :=
  let l := (List.range 15).map (fun b => s.sched.split.at (32 * queue + 16 * kind + b + 1))
  ((s.sched.samples - s.sched.splitBase.at (2 * queue + kind) - l.sum) :: l).map (min (2 ^ 32 - 1))

/-! ### CTR.SELECT, CTR.READ, CTR.CLEAR -/

/-- EVENT names nothing, a statistic or a condition (R486). (DEDUCED, entry 47.) -/
def eventOk (ev : Nat) : Bool := ev == 0 || Stat.all.any (fun x => x.id == ev) || (decide (0x8001 ≤ ev) && decide (ev ≤ 0x800C))

/-- Changes a counter. -/
def State.updCtr (s : State) (g : Nat) (f : Ctr → Ctr) : State := { s with ctr := { s.ctr with ctr := s.ctr.ctr.upd g f } }

def State.ctrSelect (s : State) (inst : Nat) (a : Accepted) : Reply :=
  let g := leAt a.payload 0 2
  let ev := leAt a.payload 2 2
  let mode := leAt a.payload 4 1
  if 2048 ≤ g ∨ eventOk ev = false ∨ 1 < mode then .refuse E.range
  else if !owns inst (s.ctrOwner g) then .refuse E.notOwner
  else
    let c : Ctr := { event := ev, level := mode == 1 }
    .ok (s.updCtr g (fun _ => { c with was := if ev < 0x8001 then [] else (s.countedUnits g ev).filter (s.conditionHolds ev) }))

def execCtrSelect (slot : Nat) (s : State) : Host.Outcome State Fault Refusal := runs (serve slot Op.ctrSelect State.ctrSelect) s

/-- Checks of a range of counters: 0, or its status. (DEDUCED, entry 47.) -/
def State.ctrCheck (s : State) (inst first n : Nat) : Nat :=
  if n < 1 ∨ 256 < n ∨ 2048 < first + n then E.range
  else if (List.range n).all (fun k => owns inst (s.ctrOwner (first + k))) then 0 else E.notOwner

def State.ctrRead (s : State) (inst : Nat) (a : Accepted) : Reply :=
  let first := leAt a.payload 0 2
  let n := leAt a.payload 2 2
  let st := s.ctrCheck inst first n
  if st ≠ 0 then .refuse st else .ok s ((List.range n).flatMap (fun k => leBytes 8 (s.ctr.ctr.at (first + k)).word))

def execCtrRead (slot : Nat) (s : State) : Host.Outcome State Fault Refusal := runs (serve slot Op.ctrRead State.ctrRead) s

def State.ctrClear (s : State) (inst : Nat) (a : Accepted) : Reply :=
  let first := leAt a.payload 0 2
  let n := leAt a.payload 2 2
  let st := s.ctrCheck inst first n
  if st ≠ 0 then .refuse st
  else .ok (s.forEach (List.range n) (fun s k => s.updCtr (first + k) (fun c => { c with value := 0, sticky := false })))

def execCtrClear (slot : Nat) (s : State) : Host.Outcome State Fault Refusal := runs (serve slot Op.ctrClear State.ctrClear) s

/-! ### CTR.SPLITS_READ, CTR.STAT_READ -/

/-- A histogram starts again. -/
def State.clearBins (s : State) (queue kind : Nat) : State :=
  { s with sched := { s.sched with
      split := s.sched.split.keep (fun k _ => k / 16 != 2 * queue + kind)
      splitBase := s.sched.splitBase.put (2 * queue + kind) s.sched.samples } }

def State.splitsRead (s : State) (inst : Nat) (a : Accepted) : Reply :=
  let q := leAt a.payload 0 2
  let kind := leAt a.payload 2 1
  let clear := leAt a.payload 3 1
  if 8192 ≤ q ∨ 1 < kind ∨ 1 < clear then .refuse E.range
  else if !owns inst (s.portInst (q / 16)) then .refuse E.notOwner
  else .ok (if clear = 1 then s.clearBins q kind else s) ((s.bins q kind).flatMap (leBytes 4))

def execCtrSplitsRead (slot : Nat) (s : State) : Host.Outcome State Fault Refusal := runs (serve slot Op.ctrSplitsRead State.splitsRead) s

/-- Units of a statistic: none where the manual's row names them by number without a range. -/
def StatUnit.size : StatUnit → Option Nat
  | .device => some 1 | .port => some 512 | .portBy n => some (512 * n) | .queue => some 8192 | .inst => some 64 | .instBy n => some (64 * n)
  | .assoc => some 65536 | .tap => some 1024 | .other => none

/-- The command's checks and effect (DEDUCED, entry 47). -/
def State.statRead (s : State) (inst : Nat) (a : Accepted) : Reply :=
  let id := leAt a.payload 0 2
  let i := leAt a.payload 4 4
  match Stat.all.find? (fun x => x.id == id) with
  | none => .refuse E.range
  | some x =>
    if (match x.unit.size with | some n => decide (n ≤ i) | none => false) then .refuse E.range
    else if !owns inst (s.statOwner x.unit i) then .refuse E.notOwner
    else .ok s (leBytes 8 (s.statVal x i))

def execCtrStatRead (slot : Nat) (s : State) : Host.Outcome State Fault Refusal := runs (serve slot Op.ctrStatRead State.statRead) s

end Sys2Proof.Machine
end

