-- ==== Sys2Proof/Machine/Flags.lean ====
section
/-! DEFINITION. The status registers of BAR0 as the state gives them: R109, R241, R278, R366, R475, R480, R508, R514, R515. Those of
the mailboxes, the HBM and the Pacer stand with their units (R366, R373, R379, R390, R393, R365). -/
namespace Sys2Proof.Machine

/-- HIF.DOORBELL (R392): a write-only register reads as 0 (R14). -/
def State.doorbellReg (_ : State) (_slot : Nat) : Nat := 0

/-- HIF.ID (R514). -/
def hifId : Nat := 0x51200100

/-- TIME.LAP_COUNT, TIME.STATE, TIME.SECONDS_LO, TIME.SECONDS_HI, TIME.NS, TIME.FRAC (R515): the last three as latched. -/
def State.timeReg (s : State) (k : Nat) : Nat :=
  match k with
  | 0 => s.lap
  | 1 => s.time.state.code
  | 2 => s.time.dev / 1000000000 % 2 ^ 32
  | 3 => s.time.latch.1 / 2 ^ 32
  | 4 => s.time.latch.2.1
  | 5 => s.time.latch.2.2
  | _ => 0

/-- The image of the current bank, once the first has been loaded. -/
def State.currentImage (s : State) : Option Image :=
  if s.stride.loaded then some (if s.stride.cur then s.stride.bank1 else s.stride.bank0) else none

/-- STRIDE.UCODE_VERSION (R109). -/
def State.ucodeVersion (s : State) : Nat :=
  match s.currentImage with
  | none => 0
  | some g => g.id * 2 ^ 16 + g.patch * 2 ^ 8 + b2n s.stride.cur * 2 ^ 7 + b2n s.stride.standbyValid * 2 ^ 6
      + b2n s.stride.switchAt.isSome * 2 ^ 5

/-- STRIDE.UCODE_DIGEST (R109): the first four bytes of the digest. -/
def State.ucodeDigest (s : State) : Nat := ((s.currentImage.map (·.digest)).getD 0) / 2 ^ 352 % 2 ^ 32

/-- Some queue of a port is in a ramp. -/
def State.inRamp (s : State) (port : Nat) : Bool :=
  (List.range 16).any (fun c => let q := s.sched.q.at (16 * port + c); q.startup.isSome || q.recovery.isSome || q.test)

/-- LATE_START bits of a port. -/
def State.lateStart (s : State) (port : Nat) : Nat := maskOf ((List.range 4).filter (fun k => (s.gateProfile port k).late))

/-- SCHED.GATE_STATUS (R241): its reset value while the clocks stand still. (DEDUCED, entry 153.) -/
def State.gateStatus (s : State) (port : Nat) : Nat :=
  if !s.time.running then 0 else
  let states := if s.parOn P.gateEnable port then s.gateStates port else 0xFFFF
  let entry := match (s.gateProfile port (s.sched.sel.at port)).oper with
    | some g => (g.at_ s.time.dev).1
    | none => 0
  states * 2 ^ 16 + entry * 2 ^ 8 + s.sched.sel.at port * 2 ^ 6 + s.lateStart port * 2 ^ 2
    + b2n ((List.range 4).any (fun k => (s.gateProfile port k).wait.isSome)) * 2 + b2n (s.inRamp port)

/-- BATON.SLOT_STATUS (R278). -/
def State.slotStatus (s : State) (slot : Nat) : Nat :=
  let k := s.sec.slot.at slot
  k.st * 2 ^ 30 + k.policy * 2 ^ 28 + k.keyNum * 2 ^ 26 + k.assoc * 2 ^ 10 + min 0x3FF k.refs

/-- HBM.TRAIN_LANE (R366). -/
def State.trainLane (s : State) (lane : Nat) : Nat := s.hbm.lane.at lane % 2 ^ 32

/-- RECORDER.OLDEST_SEQ, RECORDER.LAST_SEQ, RECORDER.OLDEST_OFFSET, RECORDER.FLASH_SEQ (R480, R483). -/
def State.recorderReg (s : State) (k : Nat) : Nat :=
  match k with
  | 0 => s.recd.oldestSeq
  | 1 => s.recd.lastSeq
  | 2 => s.recd.oldestOffset
  | 3 => s.recd.flashSeq
  | _ => 0

/-- BOOT.STATUS (R508). (DEDUCED, entry 25.) -/
def State.bootStatus (s : State) : Nat :=
  let b := s.boot
  b.stage * 2 ^ 28 + b2n b.ready * 2 ^ 27 + b.cause * 2 ^ 24 + b2n b.fwSlot * 2 ^ 23 + b2n b.fallback * 2 ^ 22
    + b.ucode * 2 ^ 20 + b.lgSource * 2 ^ 18 + b2n b.rootsBlank * 2 ^ 17 + b2n b.tagExhausted * 2 ^ 16 + b.halt * 2 ^ 12

end Sys2Proof.Machine
end

