-- ==== Sys2Proof/Machine/HostCmds.lean ====
section
/-! DEFINITION. The host's accesses to BAR0 and BAR4 and the rings: interrupts, punt, inject and GMU report rings, Function Level Reset
(R509 to R525). -/
namespace Sys2Proof.Machine

/-! ### Reads with an effect -/

/-- TIME_SECONDS_LO_READ (R515): the other time registers are latched. -/
def State.readSeconds (s : State) : State :=
  let sec := s.time.dev / 1000000000
  { s.emit (.read (sec % 2 ^ 32)) with time := { s.time with latch := (sec, s.time.dev % 1000000000, s.time.frac.toNat) } }

def execTimeSecondsLoRead (s : State) : Host.Outcome State Fault Refusal := runsTime State.readSeconds s

/-- PUNT_RX_DROPS_READ: PUNT.RX_DROPS is returned, then cleared (R520). -/
def State.readRxDrops (s : State) (i : Nat) : State :=
  if i < 64 then (s.emit (.read (s.page i).rxDrops.toNat)).updPage i (fun g => { g with rxDrops := 0 }) else s

def execPuntRxDropsRead (inst : Nat) (s : State) : Host.Outcome State Fault Refusal := runs (fun s => s.readRxDrops inst) s

/-- GATE_LATE_START_CLEAR (R241): each LATE_START bit written as 1 clears. -/
def State.clearLate (s : State) (port mask : Nat) : State :=
  if port < 512 then
    s.forEach (onesOf 4 mask) (fun s k =>
      { s with sched := { s.sched with profile := s.sched.profile.upd (4 * port + k) (fun f => { f with late := false }) } })
  else s

def execGateLateStartClear (port mask : Nat) (s : State) : Host.Outcome State Fault Refusal := runs (fun s => s.clearLate port mask) s

/-! ### Interrupts (R516 to R518) -/

/-- The punt ring of an instance holds a completed descriptor not yet returned: entry k is returned once POST passes k + 2^LOG2_SIZE.
(DEDUCED, entry 102.) -/
def RingPage.puntOwed (g : RingPage) : Bool := g.rx.enable && g.rxAny && decide ((g.rxPost - g.rxDone).toNat < 2 ^ g.rx.log2)

/-- The GMU report ring of an instance holds an entry beyond GMU.RING_HEAD. -/
def RingPage.reportOwed (g : RingPage) : Bool := g.gmu.enable && decide (g.gmuTail ≠ g.gmuHead)

/-- The bits of `cause` that are not in `mask`. -/
def clearBits (cause mask : Nat) : Nat := maskOf ((onesOf 5 cause).filter (fun b => !bit mask b))

/-- IRQ_CAUSE_CLEAR: bits written as 1 clear; PUNT and GMU_REPORT are set again while their condition holds. -/
def State.clearCause (s : State) (i mask : Nat) : State :=
  if 64 ≤ i then s else
    let s := s.setIrq i (clearBits (s.host.cause.at i) mask) (s.host.mask.at i)
    let s := if bit mask 3 && (s.page i).puntOwed then s.cause i 3 else s
    if bit mask 4 && (s.page i).reportOwed then s.cause i 4 else s

def execIrqCauseClear (inst mask : Nat) (s : State) : Host.Outcome State Fault Refusal := runs (fun s => s.clearCause inst mask) s

/-- IRQ_MASK_WRITE. -/
def State.writeMask (s : State) (i value : Nat) : State := if i < 64 then s.setIrq i (s.host.cause.at i) (value % 32) else s

def execIrqMaskWrite (inst value : Nat) (s : State) : Host.Outcome State Fault Refusal := runs (fun s => s.writeMask inst value) s

/-! ### Rings in and out of service (R519) -/

/-- The control register of a ring: 0 punt, 1 inject, 2 GMU report. -/
def RingPage.ctl (g : RingPage) (ring : Nat) : RingCtl := if ring = 0 then g.rx else if ring = 1 then g.tx else g.gmu

/-- Changes the control register of a ring. -/
def RingPage.setCtl (g : RingPage) (ring : Nat) (f : RingCtl → RingCtl) : RingPage :=
  if ring = 0 then { g with rx := f g.rx } else if ring = 1 then { g with tx := f g.tx } else { g with gmu := f g.gmu }

/-- A ring comes into service with both its indices 0. -/
def RingPage.start (g : RingPage) (ring : Nat) : RingPage :=
  match ring with
  | 0 => { g with rxPost := 0, rxDone := 0, rxAny := false, bufs := [] }
  | 1 => { g with txPost := 0, txDone := 0, descs := [] }
  | _ => { g with gmuHead := 0, gmuTail := 0, gmuSeq := 0 }

/-- RING_ENABLE. (DEDUCED, entry 102.) -/
def State.enableRing (s : State) (i ring : Nat) : State :=
  if 64 ≤ i ∨ 3 ≤ ring ∨ ((s.page i).ctl ring).enable = true then s
  else s.updPage i (fun g => (g.start ring).setCtl ring (fun c => { c with enable := true }))

def execRingEnable (inst ring : Nat) (s : State) : Host.Outcome State Fault Refusal := runs (fun s => s.enableRing inst ring) s

/-- A punt entry is given up: its packet is discarded, its buffer goes back, and it counts in PUNT.RX_DROPS. (DEDUCED, entry 102.) -/
def State.dropEntry (s : State) (i : Nat) (e : PuntEntry) : State :=
  let s := (s.count Stat.puntRxDrops i).poolRelease e.hold.1 e.hold.2
  (s.updPage i (fun g => { g with
    assigned := g.assigned.filter (fun x => x != e)
    rxDrops := if g.rxDrops = BitVec.allOnes 32 then g.rxDrops else g.rxDrops + 1 })).reap e.pkt

/-- RING_DISABLE. (DEDUCED, entry 102.) -/
def State.disableRing (s : State) (i ring : Nat) : State :=
  if 64 ≤ i ∨ 3 ≤ ring ∨ ((s.page i).ctl ring).enable = false then s
  else
    let s := s.updPage i (fun g => g.setCtl ring (fun c => { c with enable := false }))
    if ring = 0 then s.forEach (s.page i).assigned (fun s e => s.dropEntry i e) else s

def execRingDisable (inst ring : Nat) (s : State) : Host.Outcome State Fault Refusal := runs (fun s => s.disableRing inst ring) s

/-! ### Indices (R519, R520) -/

/-- Pairs each of the entries from an index on with what the host put there. -/
def posted {α : Type} (from_ : BitVec 16) : List α → List (Nat × α)
  | [] => []
  | x :: l => (from_.toNat, x) :: posted (from_ + 1) l

/-- PUNT_RX_POST_WRITE: ignored where the ring would hold more than 2^LOG2_SIZE entries. `bufs`: the buffers of the entries posted. -/
def State.writeRxPost (s : State) (i index : Nat) (bufs : List PuntBuf) : State :=
  let g := s.page i
  let p := BitVec.ofNat 16 index
  if 64 ≤ i ∨ 2 ^ g.rx.log2 < (p - g.rxDone).toNat then s
  else s.updPage i (fun g => { g with
    rxPost := p
    bufs := (g.bufs.filter (fun b => decide ((BitVec.ofNat 16 b.1 - g.rxDone).toNat < (g.rxPost - g.rxDone).toNat)))
      ++ (posted g.rxPost bufs).take (p - g.rxPost).toNat })

def execPuntRxPostWrite (inst index : Nat) (bufs : List PuntBuf) (s : State) : Host.Outcome State Fault Refusal :=
  runs (fun s => s.writeRxPost inst index bufs) s

/-- PUNT_TX_POST_WRITE, with the descriptors posted. -/
def State.writeTxPost (s : State) (i index : Nat) (descs : List InjectDesc) : State :=
  let g := s.page i
  let p := BitVec.ofNat 16 index
  if 64 ≤ i ∨ 2 ^ g.tx.log2 < (p - g.txDone).toNat then s
  else s.updPage i (fun g => { g with
    txPost := p
    descs := (g.descs.filter (fun b => decide ((BitVec.ofNat 16 b.1 - g.txDone).toNat < (g.txPost - g.txDone).toNat)))
      ++ (posted g.txPost descs).take (p - g.txPost).toNat })

def execPuntTxPostWrite (inst index : Nat) (descs : List InjectDesc) (s : State) : Host.Outcome State Fault Refusal :=
  runs (fun s => s.writeTxPost inst index descs) s

/-- GMU_RING_HEAD_WRITE. -/
def State.writeGmuHead (s : State) (i index : Nat) : State :=
  let g := s.page i
  let p := BitVec.ofNat 16 index
  if 64 ≤ i ∨ 2 ^ g.gmu.log2 < (g.gmuTail - p).toNat then s else s.updPage i (fun g => { g with gmuHead := p })

def execGmuRingHeadWrite (inst index : Nat) (s : State) : Host.Outcome State Fault Refusal := runs (fun s => s.writeGmuHead inst index) s

/-! ### REGISTER_WRITE (R512, R513, R517, R519, R520) -/

/-- A register of BAR `bar` is addressed as bar × 2²⁴ + offset; bar 255 stands for the MSI-X capability in configuration space. -/
def barBase (bar : Nat) : Nat := bar * 2 ^ 24

/-- A message held by a mask is sent once neither mask holds it. -/
def State.releaseMsix (s : State) (v : Nat) : State :=
  if s.host.pba.at v && !(s.host.msix.at v).masked && !s.host.funcMask then
    ({ s with host := { s.host with pba := s.host.pba.del v } }).sendMsix v
  else s

/-- A write to the MSI-X table: word 0 and 1 the address, 2 the data, 3 the mask bit. A message held by the mask is sent when it clears.
(PRESUMED, entry 101.) -/
def State.writeMsix (s : State) (v word value : Nat) : State :=
  let s := { s with host := { s.host with msix := s.host.msix.upd v (fun e => match word with
    | 0 => { e with addr := e.addr / 2 ^ 32 * 2 ^ 32 + value }
    | 1 => { e with addr := value * 2 ^ 32 + e.addr % 2 ^ 32 }
    | 2 => { e with data := value }
    | _ => { e with masked := bit value 0 }) } }
  s.releaseMsix v

/-- A write to the MSI-X Message Control word of configuration space, in the upper half of its double word: bit 14 is Function Mask. Messages
held by it are sent when it clears. (PRESUMED, entry 101.) -/
def State.writeMsixControl (s : State) (value : Nat) : State :=
  let s := { s with host := { s.host with funcMask := bit value 30 } }
  s.forEach s.host.pba.keys State.releaseMsix

/-- A write to a control register of a ring: LOG2_SIZE while ENABLE is 0 and within its range, then ENABLE. -/
def State.writeCtl (s : State) (i ring value : Nat) : State :=
  let k := value % 32
  let s := if ((s.page i).ctl ring).enable = false ∧ 6 ≤ k ∧ k ≤ 15 then
      s.updPage i (fun g => g.setCtl ring (fun c => { c with log2 := k }))
    else s
  if bit value 31 then s.enableRing i ring else s.disableRing i ring

/-- A write to a half of a ring's base: only while ENABLE is 0. -/
def State.writeBase (s : State) (i ring : Nat) (hi : Bool) (value : Nat) : State :=
  if ((s.page i).ctl ring).enable then s
  else s.updPage i (fun g => g.setCtl ring (fun c => { c with
    base := if hi then value * 2 ^ 32 + c.base % 2 ^ 32 else c.base / 2 ^ 32 * 2 ^ 32 + value / 4096 * 4096 }))

/-- A register of a ring page. (DEDUCED, entry 100.) -/
def State.writePage (s : State) (i off value : Nat) : State :=
  match off with
  | 0x00 => s.writeBase i 0 false value
  | 0x04 => s.writeBase i 0 true value
  | 0x08 => s.writeCtl i 0 value
  | 0x20 => s.writeBase i 1 false value
  | 0x24 => s.writeBase i 1 true value
  | 0x28 => s.writeCtl i 1 value
  | 0x40 => s.writeBase i 2 false value
  | 0x44 => s.writeBase i 2 true value
  | 0x48 => s.writeCtl i 2 value
  | 0x4C => s.writeGmuHead i value
  | _ => s

/-- A register of BAR0. (DEDUCED, entry 100.) -/
def State.writeBar0 (s : State) (off value : Nat) : State :=
  if 0x10000 ≤ off ∧ off < 0x10800 then s.writeMsix ((off - 0x10000) / 16) ((off - 0x10000) / 4 % 4) value
  else if 0x11000 ≤ off ∧ off < 0x11100 then s.clearCause ((off - 0x11000) / 4) value
  else if 0x11100 ≤ off ∧ off < 0x11200 then s.writeMask ((off - 0x11100) / 4) value
  else if 0x60000 ≤ off ∧ off < 0x60800 then s.clearLate ((off - 0x60000) / 4) (value / 4 % 16)
  else if off = 0xB0000 then (if bit value 5 then s.irqClear else s)
  else s

/-- A 32-bit write. POST registers and doorbells, whose entries lie in host memory, have commands of their own. -/
def State.writeWord (s : State) (a value : Nat) : State :=
  if a < 2 ^ 20 then s.writeBar0 a value
  else if a = barBase 255 then s.writeMsixControl value
  else if barBase 4 + 0x800000 ≤ a ∧ a < barBase 4 + 0xC00000 then
    s.writePage ((a - barBase 4 - 0x800000) / 65536) ((a - barBase 4 - 0x800000) % 65536) value
  else s

/-- REGISTER_WRITE: `width` in bytes. A poisoned write, one of another width, or one to an address the manual does not name is ignored.
(DEDUCED, entry 100.) -/
def State.writeRegister (s : State) (a width value : Nat) (poisoned : Bool) : State :=
  if poisoned then s
  else if width = 4 ∧ a % 4 = 0 then s.writeWord a (value % 2 ^ 32)
  else if width = 8 ∧ a % 8 = 0 ∧ barBase 4 ≤ a ∧ a < barBase 5 then (s.writeWord a (value % 2 ^ 32)).writeWord (a + 4) (value / 2 ^ 32 % 2 ^ 32)
  else s

def execRegisterWrite (address width value : Nat) (poisoned : Bool) (s : State) : Host.Outcome State Fault Refusal :=
  runs (fun s => s.writeRegister address width value poisoned) s

/-! ### PUNT_COMPLETE (R521 to R523) -/

/-- The tail of the packet has passed and its verdict is final. -/
def Packet.final (p : Packet) : Bool :=
  p.ended && (p.bad || !p.hmac && p.bench.isNone && p.cmac.isNone && (match p.verdict with
    | .pending => false
    | .fail _ => p.judged
    | _ => true))

/-- The row of R260 by which a packet failed. -/
def Packet.authCause (p : Packet) : Nat := match p.verdict with
  | .fail c => c
  | _ => 0

/-- Bytes 10 to 31 of a punt descriptor. -/
def State.puntDesc (s : State) (e : PuntEntry) : List Byte :=
  let p := s.pkt.at e.pkt
  let f := s.frameBytes p
  let flags := 1 + 2 * b2n p.untrusted + 4 * b2n (decide (e.buf.len < f.length)) + 8 * b2n e.copy + 16 * b2n p.bad
  leBytes 2 f.length ++ leBytes 2 p.port ++ leBytes 1 e.cause ++ leBytes 1 flags ++ leBytes 1 p.instGen
    ++ leBytes 1 (M.cls.get p.md + 16 * M.colour.get p.md)
    ++ leBytes 1 (M.frontHit.get p.md + 2 * M.ruleHit.get p.md + 4 * M.prefixHit.get p.md) ++ leBytes 1 p.authCause
    ++ leBytes 4 (M.ruleAddr.get p.md) ++ leBytes 4 (M.prefixAddr.get p.md) ++ leBytes 4 (p.arrived % 2 ^ 32)

/-- The first assigned entry is written, unless its generation is stale (R452); PUNT.RX_DONE advances past it. -/
def State.writeEntry (s : State) (i : Nat) (e : PuntEntry) : State :=
  let p := s.pkt.at e.pkt
  let g := s.page i
  let at_ := g.rx.base + 32 * (g.rxDone.toNat % 2 ^ g.rx.log2) + 10
  let stale := decide (e.gen ≠ s.instGen i)
  let s := if stale then s.count Stat.falseStartDiscards (6 * i)
    else
      let s := (s.issueData e.pkt).dmaWrite at_ (s.puntDesc e)
      if p.authCause = 0 then s else s.count Stat.authUntrusted
  let s := (s.poolRelease e.hold.1 e.hold.2).updPage i (fun g => { g with
    rxDone := g.rxDone + 1, rxAny := g.rxAny || !stale, assigned := g.assigned.drop 1 })
  (if stale then s else s.cause i 3).reap e.pkt

/-- PUNT_COMPLETE: entries complete strictly in the order of assignment, each after the tail and the verdict of its frame. -/
def State.puntComplete (s : State) (i : Nat) : State :=
  match (s.page i).assigned with
  | e :: _ => if (s.page i).rx.enable && (s.pkt.at e.pkt).final then s.writeEntry i e else s
  | [] => s

def execPuntComplete (inst : Nat) (s : State) : Host.Outcome State Fault Refusal := runs (fun s => s.puntComplete inst) s

/-! ### INJECT_TAKE (R524) -/

/-- A frame enters stage 2 as if received on a port, its FCS appended; true when the FIFO of the pipe takes it. (DEDUCED, entry 103.) -/
def State.inject (s : State) (port : Nat) (bytes : List Byte) : State × Bool :=
  let l := bytes ++ leBytes 4 (crc32 bytes)
  let relay := s.cfg.active.on P.portRole port
  let h := beAt l 0 16
  if relay && !s.relayHeaderOk l then (s.count Stat.relayHdrErrors, false)
  else if 65536 < s.fifoBytes (pipeOf port) + l.length then (s.count Stat.rxOverrun, false)
  else ({ s with nextPkt := s.nextPkt + 1
                 pkt := s.pkt.put s.nextPkt { live := true, port := port, rx := { bytes := l }, ended := true, arrived := s.time.mono, whole := true
                                              relaySrc := if relay then some (H.src.get h, H.seq.get h, s.time.mono % 2 ^ 32) else none } }, true)

/-- STATUS of a descriptor, with its effect: 0 sent or admitted, 1 dropped, 2 NOT_OWNER, 3 STALE_GEN, 4 FORMAT. (DEDUCED, entry 103.) -/
def State.injectStatus (s : State) (i : Nat) (d : InjectDesc) : State × Nat :=
  if 512 ≤ d.port ∨ s.portInst d.port ≠ i then (s, 2)
  else if d.gen ≠ s.instGen i then (s.count Stat.falseStartDiscards (6 * i), 3)
  else if d.bytes.length < 60 ∨ 10236 < d.bytes.length ∨ d.reservedZero = false ∨ 16 ≤ d.cls then (s, 4)
  else if d.pipeline then
    match s.inject d.port d.bytes with
    | (s, ok) => (s, if ok then 0 else 1)
  else if i ≠ 0 then (s, 4)
  else match s.sendOwn (16 * d.port + d.cls) i d.bytes with
    | (s, ok) => (s, if ok then 0 else 1)

/-- INJECT_TAKE: the descriptor at PUNT.TX_DONE is taken and completed, and the PUNT cause is set (R516). (DEDUCED, entry 103.) -/
def State.injectTake (s : State) (i : Nat) : State :=
  let g := s.page i
  if g.tx.enable = false ∨ g.txDone = g.txPost then s
  else
    let d := ((g.descs.find? (fun e => e.1 == g.txDone.toNat)).map (·.2)).getD ⟨0, 0, false, 0, [], false⟩
    match s.injectStatus i d with
    | (s, st) =>
      ((s.dmaWrite (g.tx.base + 32 * (g.txDone.toNat % 2 ^ g.tx.log2) + 14) (leBytes 1 st ++ leBytes 1 1)).updPage i (fun g => { g with
        txDone := g.txDone + 1, descs := g.descs.filter (fun e => e.1 != g.txDone.toNat) })).cause i 3

def execInjectTake (inst : Nat) (s : State) : Host.Outcome State Fault Refusal := runs (fun s => s.injectTake inst) s

/-! ### FUNCTION_LEVEL_RESET, PCIE_LINK_DOWN (R510) -/

/-- The number under which the request of a slot goes on once its slot has been taken. (DEDUCED, entry 104.) -/
def State.silentSlot (s : State) (slot : Nat) : Nat :=
  slot + 256 * (((List.range 256).find? (fun k => !s.mbx.slot.has (slot + 256 * (k + 1)))).getD 255 + 1)

/-- A slot returns to IDLE: a request past check 6 goes on without it, a response that waits for its tag is recorded and not posted, and any
other request is given up. -/
def State.idleSlot (s : State) (slot : Nat) : State :=
  let k := s.mbx.slot.at slot
  let s := s.updSlot slot (fun k => { k with st := 0, acc := none, held := none })
  let s := { s with mbx := { s.mbx with rung := s.mbx.rung.filter (fun e => e.1 != slot) } }
  match k.acc with
  | none =>
    match k.held with
    | some (_, .request a _) => s.freePayload a
    | some (_, .response a r _) => s.ruleEvent 510 slot 0 [a.op, a.seq, r.status] (slotInst slot)
    | none => s
  | some a =>
    if a.session = 255 then s.freePayload a
    else
      let n := s.silentSlot slot
      let s := s.updSlot n (fun k => { k with st := 1, acc := some { a with silent := true } })
      { s with mbx := { s.mbx with jobs := s.mbx.jobs.map (fun j => if j.slot = some slot then { j with slot := some n } else j) } }

/-- Data writes not yet issued are discarded and counted; rings stop, registers and slots return to reset.
(DEDUCED, entry 104.) -/
def State.hostReset (s : State) : State :=
  let u := s.timeless (fun s =>
    let s := s.forEach s.host.page.keys (fun s i => (s.count Stat.hifFlrDiscards 0 ((s.page i).assigned.filter (fun e => !e.issued)).length).disableRing i 0)
    s.forEach (s.mbx.slot.keys.filter (fun k => decide (k < 256))) (fun s k => s.idleSlot k))
  { u with host := { tokens := s.host.tokens, tokensAt := s.host.tokensAt, linkUp := s.host.linkUp }
           time := { s.time with latch := (0, 0, 0) } }

def execFunctionLevelReset (s : State) : Host.Outcome State Fault Refusal := runsTime State.hostReset s

/-- PCIE_LINK_DOWN: as a Function Level Reset, with PCIE_LINK raised. (DEDUCED, entry 104.) -/
def State.linkDown (s : State) : State :=
  if s.host.linkUp then
    let s := s.hostReset
    ({ s with host := { s.host with linkUp := false } }).timeless (fun s => s.raise 186 0)
  else s

def execPcieLinkDown (s : State) : Host.Outcome State Fault Refusal := runsTime State.linkDown s

end Sys2Proof.Machine
end

