-- ==== Sys2Proof/Machine/Images.lean ====
section
/-! DEFINITION. Firmware, Stride images and applets: the format checks of an image (R83 to R87, R102 to R104), the bank switch (R106, R107,
R498), and the commands of group 0x0D. -/
namespace Sys2Proof.Machine

/-! ### The format of a Stride image (R103, R104) -/

/-- What R83, R85 and R86 ask of a word of either engine, whose bank holds `n` words: fields of a word with END ≠ 0 that the engine
ignores may hold anything. -/
def wordFormOk (w : Nat) : Bool :=
  decide (W.waitOn.get w < 4) && decide (W.advMode.get w < 3) && W.rsv.get w == 0 && W.ecc.get w == 0
    && (W.end_.get w != 0 || decide (W.width.get w < 5) && W.next.get w % 2 ^ W.width.get w == 0
      && (List.range 4).all (fun i => let c := (W.cond i).get w; decide (c ≤ 0x13) || decide (0x18 ≤ c ∧ c ≤ 0x2F)))

/-- R87: the destinations of an ingress word. -/
def extractOk (w : Nat) : Bool := [0, 1].all (fun u => decide ((W.dest u).get w ≤ 0x0C))

/-- R102: the operations and sources of an egress word. -/
def editOk (w : Nat) : Bool :=
  [0, 1].all (fun u =>
    let op := (W.shift u).get w
    let src := (W.dest u).get w
    decide (op < 5) && (!(op == 1 || op == 2) || decide (src ≤ 0x12) || decide (0x20 ≤ src ∧ src ≤ 0x37)))

/-- Addresses a word may go on to (R85). -/
def wordNext (w : Nat) : List Nat :=
  if W.end_.get w ≠ 0 then [] else (List.range (2 ^ W.width.get w)).map (W.next.get w + ·)

/-- Every address reachable from a list of addresses lies below the word count (R85). -/
def reachOk (words : List Nat) : Nat → List Nat → List Nat → Bool
  | 0, _, _ => true
  | _ + 1, _, [] => true
  | n + 1, seen, a :: rest =>
    if words.length ≤ a then false
    else if seen.contains a then reachOk words n seen rest
    else reachOk words n (a :: seen) (wordNext (words.getD a 0) ++ rest)

/-- Bytes of an image before its signature. -/
def strideBody (l : List Byte) : Nat := 64 + 24 * (leAt l 10 2 + leAt l 12 2)

/-- A word with its check bits, as the device writes it to a control store (R83, R106). -/
def withEcc (w : Nat) : Nat := w / 512 * 512 + (Config.secded (BitVec.ofNat 183 (w / 512))).toNat

/-- The image of R103, when it breaks none of the rules R104 names. -/
def strideImage (l : List Byte) : Option Image :=
  let ni := leAt l 10 2
  let ne := leAt l 12 2
  let n := strideBody l
  let chain := leAt l (n + 96) 4
  let ing := (List.range ni).map (fun k => beAt l (64 + 24 * k) 24)
  let egr := (List.range ne).map (fun k => beAt l (64 + 24 * (ni + k)) 24)
  let entry := (List.range 16).map (fun k => leAt l (16 + 2 * k) 2)
  if slice l 0 4 == [0x58#8, 0x51#8, 0x53#8, 0x55#8] && leAt l 4 2 == 1 && zeroAt l 9 1 && zeroAt l 14 2 && zeroAt l 48 16
      && decide (1 ≤ ni ∧ ni ≤ 1024 ∧ 1 ≤ ne ∧ ne ≤ 1024) && decide (chain ≤ 8192) && decide (l.length = n + 100 + chain)
      && ing.all (fun w => wordFormOk w && extractOk w) && egr.all (fun w => wordFormOk w && editOk w)
      && reachOk ing (17 * ni + 17) [] entry && reachOk egr (17 * ne + 2) [] [0] then
    some { id := leAt l 6 2, patch := leAt l 8 1, ingress := ing.map withEcc, egress := egr.map withEcc, entry := entry
           digest := beNat (Crypto.sha384 (l.take n)), builtin := false }
  else none

/-! ### The bank switch (R106, R107, R498) -/

/-- The image of the standby bank. -/
def Stride.standby (r : Stride) : Image := if r.cur then r.bank0 else r.bank1

/-- A packet of some engine runs from a bank. -/
def State.bankHolds (s : State) (bank : Bool) : Bool :=
  s.pkt.any (fun e => e.2.live && match e.2.stage with | .engine c => c.bank == bank | _ => false)
    || s.cpy.any (fun e => e.2.live && match e.2.place with | .egress c => c.bank == bank | _ => false)

/-- The image current after a switch and the boot pointer are written to flash; when that write fails the former pointer stands. Whether
it fails the block does not decide: it is a free value. (DEDUCED, entry 98.) -/
def State.writePointer (s : State) : State :=
  let img := if s.stride.cur then s.stride.bank1 else s.stride.bank0
  let ok := s.freeVal 1 == 1
  let s := s.drawn
  if !ok then s
  else if img.builtin then s.keepPersist (fun p => { p with stridePtr := 2 })
  else if (s.boot.persist s.bootKey).stridePtr = 0 then
    { s with boot := { s.boot with strideB := some img } }.keepPersist (fun p => { p with stridePtr := 1 })
  else { s with boot := { s.boot with strideA := some img } }.keepPersist (fun p => { p with stridePtr := 0 })

/-- Order 3 of R35: the standby bank becomes current at its lap; the former bank is standby once its last packet has left. -/
def State.switchStride (s : State) : State :=
  match s.stride.switchAt with
  | some lap =>
    if later 32 lap s.lap then s
    else ({ s with stride := { s.stride with cur := !s.stride.cur, switchAt := none, standbyValid := false, draining := true } }).writePointer
  | none => s

/-- STRIDE_BANK_DRAINED. -/
def State.bankDrained (s : State) : State :=
  if s.stride.draining && !s.bankHolds (!s.stride.cur) then { s with stride := { s.stride with draining := false, standbyValid := true } } else s

def execStrideBankDrained (s : State) : Host.Outcome State Fault Refusal := runs State.bankDrained s

/-! ### IMG.STRIDE_LOAD, IMG.STRIDE_SWITCH -/

/-- The command's checks and effect: LAP is read relative to TIME.LAP_COUNT now (R46). (DEDUCED, entry 98.) -/
def State.strideLoad (chain : Chain) (sigOk : Bool) (s : State) (_ : Nat) (a : Accepted) : Reply :=
  match s.atLap (leAt a.payload 0 1) (leAt a.payload 4 4) with
  | none => .refuse E.format
  | some _ =>
    if s.stride.loading ∨ s.stride.draining then .refuse E.busy
    else .job ({ s with stride := { s.stride with loading := true } }.noteFreerun Op.imgStrideLoad)
      (.strideLoad (leAt a.payload 0 1 == 1 && later 32 (leAt a.payload 4 4) s.lap) (leAt a.payload 4 4) (sigOk && s.chainStatus chain == 0) (a.payload.drop 8)) 5

def execImgStrideLoad (slot : Nat) (chain : Chain) (sigOk : Bool) (s : State) : Host.Outcome State Fault Refusal :=
  runs (serve slot Op.imgStrideLoad (State.strideLoad chain sigOk)) s

/-- The load ends, with or without an image. -/
def State.endLoad (s : State) (j : Job) (rstate status : Nat) (result : List Byte) : State :=
  ({ s with stride := { s.stride with loading := false } }).endJob j.session j.seq rstate status result

/-- The digest of a load is in the CMAC unit. -/
def State.digests (s : State) (j : Job) : Bool := s.cmacJobs.any (fun e => e.2.work == .digest j.session j.seq)

/-- The digest of a load that finds no free context asks the CMAC unit for one, once (R106, R270). -/
def State.askDigest (s : State) (j : Job) : State :=
  if s.digests j then s
  else (s.submitCmac { work := .digest j.session j.seq, level := 4, inst := j.inst, gen := s.instGen j.inst }).1

/-- A step of a load (R106): 1 DMA, 2 digest in the CMAC unit, 3 signature, 4 format, 5 the standby bank of every engine. (DEDUCED, entries
74, 98.) (DEDUCED, entry 98). -/
def State.loadStep (s : State) (j : Job) (atLap : Bool) (lap : Nat) (sigOk : Bool) (l : List Byte) : State :=
  if j.abort then s.endLoad j 2 E.aborted []
  else if j.done = 1 ∧ (s.cmacFree = false ∨ s.digests j = true) then s.askDigest j
  else if j.done = 2 ∧ sigOk = false then s.endLoad j 0 E.signature (leBytes 4 0)
  else match strideImage l with
  | none => if j.done = 3 then s.endLoad j 0 E.imageFormat (leBytes 4 0) else s.stepJob j.session j.seq id
  | some img =>
    if j.done < 4 then s.stepJob j.session j.seq id
    else if s.stride.draining then s
    else
      let at_ := if atLap && later 32 lap s.lap then lap else (s.lap + 1) % 2 ^ 32
      let r := if s.stride.cur then { s.stride with bank0 := img } else { s.stride with bank1 := img }
      ({ s with stride := { r with standbyValid := true, switchAt := some at_ } }).endLoad j 0 0 (leBytes 4 at_)

def State.strideSwitch (s : State) (_ : Nat) (a : Accepted) : Reply :=
  match s.atLap (leAt a.payload 0 1) (leAt a.payload 4 4) with
  | none => .refuse E.format
  | some lap =>
    if !s.stride.standbyValid then .refuse E.state
    else .ok { s with stride := { s.stride with switchAt := some lap } } (leBytes 4 lap)

def execImgStrideSwitch (slot : Nat) (s : State) : Host.Outcome State Fault Refusal :=
  runs (serve slot Op.imgStrideSwitch State.strideSwitch) s

/-! ### IMG.FW_LOAD, IMG.FW_ACTIVATE (R429, R497, R498) -/

/-- The transfer targets of firmware and applets. -/
def fwTarget : Nat := 64
def appletTarget (core thread : Nat) : Nat := 65 + 2 * core + thread - 6

/-- The command's checks and effect (DEDUCED, entry 98). -/
def State.fwLoad (sigOk : Bool) (svn : Nat) (s : State) (_ : Nat) (a : Accepted) : Reply :=
  let seg := leAt a.payload 0 2
  let total := leAt a.payload 2 2
  if s.running.any (fun j => j.op == Op.imgFwLoad) then .refuse E.busy
  else match s.takeSegment fwTarget seg total (a.payload.drop 4) with
  | .error st => .refuse st
  | .ok s => .job s (.fwLoad sigOk svn) (if seg + 1 = total then 2 else 1)

def execImgFwLoad (slot : Nat) (sigOk : Bool) (svn : Nat) (s : State) : Host.Outcome State Fault Refusal :=
  runs (serve slot Op.imgFwLoad (State.fwLoad sigOk svn)) s

/-- Size of a firmware slot (R496). -/
def fwSlotBytes : Nat := 8388608

/-- A step of a firmware load: the last segment verifies the whole under the Esras key and SECURITY_VERSION, and writes the slot that is
not running. (DEDUCED, entry 98.) -/
def State.fwStep (s : State) (j : Job) (sigOk : Bool) (svn : Nat) : State :=
  if j.abort then (if j.total = 2 then s.endTransfer fwTarget else s).endJob j.session j.seq 2 E.aborted
  else if j.total = 1 then s.endJob j.session j.seq 0 0
  else if j.done = 0 then s.stepJob j.session j.seq id
  else
    let n := (s.mbx.transfer.at fwTarget).bytes.length
    let s := s.endTransfer fwTarget
    if !sigOk then s.endJob j.session j.seq 0 E.signature
    else if svn < s.boot.svnFloor ∨ fwSlotBytes < n then s.endJob j.session j.seq 0 E.imageFormat
    else ({ s with boot := { s.boot with fwLoaded := some (!s.boot.fwSlot, svn) } }).endJob j.session j.seq 0 0

/-- The flash timing a new boot header names: that of the header in use; free values in their ranges without one. (DESIGN CHOICE, entry
157.) (DESIGN CHOICE, entry 157). -/
def State.headerBase (s : State) : BootHdr :=
  let h := s.boot.header s.bootKey
  if h.valid then h else { mhz := 25 + s.freeVal 32 % 76, opcode := (s.drawn).freeVal 8, dummy := (s.drawn 2).freeVal 5 }

/-- IMG.FW_ACTIVATE: the other copy of the boot header names the slot last loaded, and FW_SVN_FLOOR rises. -/
def State.fwActivate (s : State) (_ : Nat) (_ : Accepted) : Reply :=
  match s.boot.fwLoaded with
  | none => .refuse E.state
  | some (slotB, svn) =>
    let b := s.boot.writeHeader s.bootKey { s.headerBase with slotB := slotB, svn := svn }
    .ok ({ s with boot := { b with svnFloor := max s.boot.svnFloor svn } }.drawn 3)

def execImgFwActivate (slot : Nat) (s : State) : Host.Outcome State Fault Refusal := runs (serve slot Op.imgFwActivate State.fwActivate) s

/-! ### Applets (R374, R382) -/

/-- Core and thread of an applet. -/
def appletOk (core thread : Nat) : Bool := decide (core < 4) && decide (thread = 6 ∨ thread = 7)

/-- The command's checks and effect (DEDUCED, entry 99). -/
def State.appletLoad (chain : Chain) (sigOk : Bool) (s : State) (_ : Nat) (a : Accepted) : Reply :=
  let core := leAt a.payload 0 1
  let thread := leAt a.payload 1 1
  let seg := leAt a.payload 2 2
  let total := leAt a.payload 4 2
  if !appletOk core thread then .refuse E.range
  else if !bit (s.par P.appletEnable core) (thread - 6) then .refuse E.state
  else if s.running.any (fun j => match j.kind with | .appletLoad c t _ => c == core && t == thread | _ => false) then .refuse E.busy
  else match s.takeSegment (appletTarget core thread) seg total (a.payload.drop 6) with
  | .error st => .refuse st
  | .ok s => .job (if seg + 1 = total then s.noteFreerun Op.imgAppletLoad else s)
      (.appletLoad core thread (sigOk && s.chainStatus chain == 0)) (if seg + 1 = total then 2 else 1)

def execImgAppletLoad (slot : Nat) (chain : Chain) (sigOk : Bool) (s : State) : Host.Outcome State Fault Refusal :=
  runs (serve slot Op.imgAppletLoad (State.appletLoad chain sigOk)) s

/-- A step of an applet load: the thread runs the applet, whose number stands in an image the manual does not lay out. -/
def State.appletStep (s : State) (j : Job) (core thread : Nat) (sigOk : Bool) : State :=
  let target := appletTarget core thread
  if j.abort then (if j.total = 2 then s.endTransfer target else s).endJob j.session j.seq 2 E.aborted
  else if j.total = 1 then s.endJob j.session j.seq 0 0
  else if j.done = 0 then s.stepJob j.session j.seq id
  else
    let s := s.endTransfer target
    if !sigOk then s.endJob j.session j.seq 0 E.signature
    else if !bit (s.par P.appletEnable core) (thread - 6) then s.endJob j.session j.seq 0 E.state
    else
      let id := s.freeVal 16
      let s := (s.drawn.killThread (8 * core + thread)).updThread (8 * core + thread) (fun _ => { st := 1, applet := true, appletId := id })
      ({ s with pacer := { s.pacer with ranInLap := true } }).endJob j.session j.seq 0 0

/-- IMG.APPLET_STOP. (DEDUCED, entry 99.) -/
def State.appletStop (s : State) (_ : Nat) (a : Accepted) : Reply :=
  let core := leAt a.payload 0 1
  let thread := leAt a.payload 1 1
  if !appletOk core thread then .refuse E.range else .ok (s.killThread (8 * core + thread))

def execImgAppletStop (slot : Nat) (s : State) : Host.Outcome State Fault Refusal := runs (serve slot Op.imgAppletStop State.appletStop) s

/-! ### IMG.STATUS -/

/-- FW_PENDING: the boot header prefers the slot that is not running. -/
def State.fwPending (s : State) : Bool := let h := s.boot.header s.bootKey; h.valid && h.slotB != s.boot.fwSlot

/-- IMG.STATUS: what the running firmware calls itself is free; FW_PENDING says that the boot header prefers the slot that is not
running. -/
def State.imgStatus (s : State) (_ : Nat) (_ : Accepted) : Reply :=
  let f := s.freeVal 24
  let applet := fun t => if (s.thread t).applet then (s.thread t).appletId else 0
  .ok s.drawn (leBytes 3 f ++ leBytes 1 (b2n s.fwPending) ++ leBytes 4 s.ucodeVersion
    ++ leBytes 4 s.ucodeDigest ++ [6, 7, 14, 15, 22, 23, 30, 31].flatMap (fun t => leBytes 2 (applet t)))

def execImgStatus (slot : Nat) (s : State) : Host.Outcome State Fault Refusal := runs (serve slot Op.imgStatus State.imgStatus) s

end Sys2Proof.Machine
end

