-- ==== Sys2Proof/Machine/DiagCmds.lean ====
section
/-! DEFINITION. Debug tokens and the commands of group 0x0E (R93, R380 to R382, R412). -/
namespace Sys2Proof.Machine

/-! ### DIAG.DEBUG_UNLOCK, DIAG.DEBUG_END (R412) -/

def State.debugUnlock (s : State) (_ : Nat) (a : Accepted) : Reply :=
  let scope := leAt a.payload 0 1
  let dur := leAt a.payload 4 4
  if 8 ≤ scope ∨ dur < 1 ∨ 86400 < dur then .refuse E.range
  else .ok (({ s with mbx := { s.mbx with tokens := s.mbx.tokens ++ [({ session := a.session, scope := scope, endAt := s.time.mono + 1000000000 * dur } : DebugToken)] } }).ruleEvent 412
    a.session 0 [scope, dur])

def execDiagDebugUnlock (slot : Nat) (s : State) : Host.Outcome State Fault Refusal :=
  runs (serve slot Op.diagDebugUnlock State.debugUnlock) s

def State.debugEnd (s : State) (_ : Nat) (a : Accepted) : Reply := .ok (s.endToken a.session)

def execDiagDebugEnd (slot : Nat) (s : State) : Host.Outcome State Fault Refusal := runs (serve slot Op.diagDebugEnd State.debugEnd) s

/-- A token of a session carries a bit of SCOPE. -/
def State.hasToken (s : State) (session b : Nat) : Bool := s.mbx.tokens.any (fun t => t.session == session && bit t.scope b)

/-! ### DIAG.THREAD_CTL (R380 to R382) -/

/-- Halt, step and resume of a thread; where the program stands is free. (DEDUCED, entry 99.) -/
def State.threadCtl (s : State) (t op : Nat) : State :=
  let h := s.thread t
  match op with
  | 0 => if h.st = 3 then s else s.drawn.updThread t (fun h => { h with st := 3, before := h.st, pc := s.freeVal 32 })
  | 1 => s.drawn.updThread t (fun h => { h with pc := s.freeVal 32 })
  | 2 =>
    if h.st = 3 then
      let s := s.updThread t (fun h => { h with st := h.before })
      if h.before = 1 then { s with pacer := { s.pacer with ranInLap := true } } else s
    else s
  | _ => s.killThread t

/-- STATE and PC of a thread: the PC of a thread that is not halted is free. -/
def State.threadReport (s : State) (t : Nat) : State × List Byte :=
  let h := s.thread t
  if h.st = 1 ∨ h.st = 2 then (s.drawn, leBytes 1 h.st ++ leBytes 3 0 ++ leBytes 4 (s.freeVal 32))
  else (s, leBytes 1 h.st ++ leBytes 3 0 ++ leBytes 4 h.pc)

def State.diagThread (s : State) (_ : Nat) (a : Accepted) : Reply :=
  let core := leAt a.payload 0 1
  let thread := leAt a.payload 1 1
  let op := leAt a.payload 2 1
  let t := 8 * core + thread
  if !s.hasToken a.session 0 then .refuse E.noDebug
  else if 4 ≤ core ∨ 8 ≤ thread ∨ 4 ≤ op then .refuse E.range
  else if (s.thread t).st = 0 ∨ (op = 1 ∧ (s.thread t).st ≠ 3) then .refuse E.state
  else
    let (s, r) := (s.threadCtl t op).threadReport t
    .ok s r

def execDiagThreadCtl (slot : Nat) (s : State) : Host.Outcome State Fault Refusal := runs (serve slot Op.diagThreadCtl State.diagThread) s

/-! ### DIAG.STRIDE_TRACE (R93) -/

/-- Sets or clears the halt of an engine's admission. -/
def State.haltEngine (s : State) (e : Nat) (on : Bool) : State := { s with stride := { s.stride with halted := s.stride.halted.put e on } }

/-- The next context of an engine is to be traced, or no longer. -/
def State.armTrace (s : State) (e : Nat) (on : Bool) : State :=
  { s with stride := { s.stride with trace := s.stride.trace.put e on, captured := s.stride.captured.del e } }

/-- ADDRESS, WORDS, CLOCKS, METADATA of a capture. -/
def traceBytes (c : Nat × Nat × Nat × Nat) : List Byte :=
  leBytes 2 c.1 ++ leBytes 1 c.2.1 ++ leBytes 2 c.2.2.1 ++ leBytes 3 0 ++ leBytes 64 c.2.2.2

/-- DIAG.STRIDE_TRACE: with OP 0 the first turn arms the engine; later turns answer with the capture, or with zeros once the two laps of
R396 have passed without a context. (DEDUCED, entry 99.) -/
def State.strideTrace (s : State) (_ : Nat) (a : Accepted) : Reply :=
  let e := 2 * leAt a.payload 0 1 + leAt a.payload 1 1
  let op := leAt a.payload 2 1
  let none_ := traceBytes (0, 0, 0, 0)
  if !s.hasToken a.session 1 then .refuse E.noDebug
  else if 16 ≤ leAt a.payload 0 1 ∨ 2 ≤ leAt a.payload 1 1 ∨ 3 ≤ op then .refuse E.range
  else if op = 1 then .ok (s.haltEngine e true) none_
  else if op = 2 then .ok (s.haltEngine e false) none_
  else match s.stride.captured.at e with
  | some c => .ok (s.armTrace e false) (traceBytes c)
  | none =>
    if !s.stride.trace.at e then .wait (s.armTrace e true)
    else if a.at_ + 2 * s.lapNs ≤ s.time.mono then .ok (s.armTrace e false) none_
    else .wait s

def execDiagStrideTrace (slot : Nat) (s : State) : Host.Outcome State Fault Refusal := runs (serve slot Op.diagStrideTrace State.strideTrace) s

/-! ### DIAG.LOOPBACK -/

/-- DIAG.LOOPBACK takes the port out of UP as a lost link does (R72). (DEDUCED, entry 52.) -/
def State.diagLoopback (s : State) (inst : Nat) (a : Accepted) : Reply :=
  let port := leAt a.payload 0 2
  let mode := leAt a.payload 2 1
  let st := s.portCheck inst port
  if st ≠ 0 then .refuse st
  else if 3 ≤ mode then .refuse E.range
  else
    let s := s.updPort port (fun p => { p with loopback := mode })
    let (src, u) := linkSource port
    .ok (if s.isUp port then (((s.loseFrames port).dropLink port).emit (.remoteFault port)).raise src u else s)

def execDiagLoopback (slot : Nat) (s : State) : Host.Outcome State Fault Refusal := runs (serve slot Op.diagLoopback State.diagLoopback) s

/-! ### DIAG.RESET (R467, R504) -/

/-- Units of each function of R467. -/
def funcUnits (f : Nat) : Nat := [0, 512, 16, 4, 128, 4, 1, 1, 1].getD f 0

/-- A warm reset by DIAG.RESET is dropped while a boot or a warm reset is in progress (R505). -/
def State.diagWarm (s : State) : State := if s.boot.booting || s.fault.warm then s else s.warmReset 3

/-- A function is re-initialised by DIAG.RESET and back in service, unless one in progress covers it. -/
def State.diagFunc (s : State) (f : Nat × Nat) : State :=
  if s.fault.funcs.any (fun g => covers g f) then s else (s.beginFunc f).endFunc f

/-- DIAG.RESET: a warm reset, dropped while a boot or a warm reset is in progress (R505); or a function of R467 by UNIT, re-initialised and back
in service. (DEDUCED, entry 99.) -/
def State.diagReset (s : State) (_ : Nat) (a : Accepted) : Reply :=
  let kind := leAt a.payload 0 1
  let f := (leAt a.payload 1 1, leAt a.payload 2 2)
  if 2 ≤ kind then .refuse E.range
  else if kind = 0 then .after s [] .warmReset State.diagWarm
  else if funcUnits f.1 ≤ f.2 then .refuse E.range
  else .after s [] (.reinit f) (fun s => s.diagFunc f)

def execDiagReset (slot : Nat) (s : State) : Host.Outcome State Fault Refusal := runs (serve slot Op.diagReset State.diagReset) s

end Sys2Proof.Machine
end

