-- ==== Sys2Proof/Machine/JobSteps.lean ====
section
/-! DEFINITION. JOB_STEP: one step of a long command (R33, R34, R413 to R415). -/
namespace Sys2Proof.Machine

/-- The step of a job by what it does. A batch of rules or prefixes advances with the move engine, a delete of a record and a rollback with
their fences: a step only ends them at an abort. -/
def State.jobStep (s : State) (j : Job) : State :=
  match j.kind with
  | .commit confirm atLap lap => s.commitStep j confirm atLap lap
  | .rollback => s.rollbackStep j
  | .batch op entries pos done failed _ =>
    if op = Op.tblInsert ∨ op = Op.tblDelete then s.tblStep j op entries pos done failed
    else if j.abort then s.abortMoves j else s
  | .flush select inst port deleted => s.flushStep j select inst port deleted
  | .objDelete _ _ => if j.abort then s.endJob j.session j.seq 2 E.aborted else s
  | .instDelete inst stage _ => s.deleteStep j inst stage
  | .instSave inst segment => s.saveStep j inst segment
  | .instRestore inst sigOk => s.restoreStep j inst sigOk
  | .fwLoad sigOk svn => s.fwStep j sigOk svn
  | .strideLoad atLap lap sigOk image => s.loadStep j atLap lap sigOk image
  | .appletLoad core thread sigOk => s.appletStep j core thread sigOk

/-- JOB_STEP: a job in progress advances while the Pacer is up. -/
def State.runJob (s : State) (session seq : Nat) : State :=
  match s.job session seq with
  | some j => if j.rstate = 1 ∧ s.pacer.down = false then s.jobStep j else s
  | none => s

def execJobStep (session seq : Nat) (s : State) : Host.Outcome State Fault Refusal := runs (fun s => s.runJob session seq) s

end Sys2Proof.Machine
end

