-- ==== Sys2Proof/Machine/BootCmds.lean ====
section
/-! DEFINITION. Resets and the boot: RESET_N and the supply monitor, the stages of R494, the restore of flash (R481, R493 to R507, R535). -/
namespace Sys2Proof.Machine

/-! ### Start of a boot (R493, R504, R505, R535) -/

/-- Level sources whose condition the pins hold: a lost reference clock pair, a temperature, PFW_N. (DEDUCED, entry 18.) -/
def State.heldConds (s : State) : List Nat :=
  s.pins.refLost.map (112 + ·) ++ [168, 169, 170, 171, 188, 189, 190].filter (fun k => s.condSeen k 0)

/-- Boot begins: the time unit runs from 0 in FREERUN, so that TIME_SOURCE holds, as do the conditions of the pins (R37, R460).
(DEDUCED, entry 18.) -/
def State.startBoot (s : State) : State :=
  let s := { s with time := { running := true }, boot := { s.boot with stage := 1, powerOn := false } }
  s.timeless (fun s => s.forEach (187 :: s.heldConds) (fun s k => s.raise k 0))

/-- The supplies are within range and reference clock pair 0 runs (R493). (DEDUCED, entry 24.) -/
def State.powerGood (s : State) : Bool := s.pins.supplyOk && !s.pins.refLost.contains 0

/-- RESET_N_ASSERT: a cold reset begins, unless a power-fail flush is in progress, which it waits for. (DEDUCED, entry 26.) -/
def State.resetAssert (s : State) : State :=
  if !s.pins.resetHigh then s else
    let s := { s with pins := { s.pins with resetHigh := false } }
    if s.recd.flushing then { s with pins := { s.pins with deferred := true } } else s.coldReset

def execResetNAssert (s : State) : Host.Outcome State Fault Refusal := runsTime State.resetAssert s

/-- RESET_N_RELEASE: GPIO0 is latched; boot begins unless the supply monitor holds the device, reference clock pair 0 is lost or the reset
still waits for a flush. (DEDUCED, entry 24.) -/
def State.resetRelease (s : State) (gpio0 : Bool) : State :=
  if s.pins.resetHigh then s else
    let s := { s with pins := { s.pins with resetHigh := true, gpio0 := gpio0 } }
    if s.powerGood && !s.pins.deferred then s.startBoot else s

def execResetNRelease (gpio0 : Bool) (s : State) : Host.Outcome State Fault Refusal := runsTime (fun s => s.resetRelease gpio0) s

/-- SUPPLY_MONITOR_TRIP: the device is held in cold reset; a power-fail flush in progress is lost. (DEDUCED, entry 26.) -/
def State.supplyTrip (s : State) : State :=
  if !s.pins.supplyOk then s else
    let s := if s.recd.flushing then { s with recd := { s.recd with reserve := [] } } else s
    let s := s.coldReset
    { s with pins := { s.pins with supplyOk := false, deferred := false }, boot := { s.boot with powerOn := false, cause := 1 } }

def execSupplyMonitorTrip (s : State) : Host.Outcome State Fault Refusal := runsTime State.supplyTrip s

/-- SUPPLY_MONITOR_RELEASE: as from a release of RESET_N, which itself may still hold the device. (DEDUCED, entry 26.) -/
def State.supplyBack (s : State) : State :=
  if s.pins.supplyOk then s else
    let s := { s with pins := { s.pins with supplyOk := true } }
    if s.pins.resetHigh && s.powerGood then s.startBoot else s

def execSupplyMonitorRelease (s : State) : Host.Outcome State Fault Refusal := runsTime State.supplyBack s

/-- POWER_FAIL_FLUSH_END: a cold reset that waited for the flush begins; when RESET_N is high again by then, boot follows.
(DEDUCED, entry 26.) -/
def State.flushEnd (s : State) : State :=
  if !s.recd.flushing then s else
    let s := { s with recd := { s.recd with flushing := false } }
    if !s.pins.deferred then s else
      let s := s.coldReset
      let s := { s with pins := { s.pins with deferred := false } }
      if s.pins.resetHigh && s.powerGood then s.startBoot else s

def execPowerFailFlushEnd (s : State) : Host.Outcome State Fault Refusal := runsTime State.flushEnd s

/-! ### Stages (R494) -/

/-- The stages that must have ended before a stage starts. (DEDUCED, entry 25.) -/
def stageNeeds (stage : Nat) : List Nat := [[], [], [1], [1], [2], [4], [2], [5, 6], [3, 7]].getD stage []

/-- A stage is in progress. -/
def Boot.running (b : Boot) (stage : Nat) : Bool :=
  b.booting && !b.ended.contains stage && (stageNeeds stage).all b.ended.contains

/-- The start and the end of stage 7 are recorded, as of every stepped Pacer task: it has no opcode and no SEQ (R506). (DEDUCED, entry 32.) -/
def State.taskEvent (s : State) (kind : Nat) : State := s.ruleEvent 506 0 kind [0, 0]

/-- A stage has ended; BOOT.STATUS shows the lowest of those in progress. (DEDUCED, entry 25.) -/
def State.endStage (s : State) (stage : Nat) : State :=
  let b := { s.boot with ended := stage :: s.boot.ended }
  let t := { s with boot := { b with stage := ((List.range 9).find? (fun k => decide (1 ≤ k) && b.running k)).getD 8 } }
  if b.running 7 && !s.boot.running 7 then t.taskEvent 0 else if stage = 7 then t.taskEvent 1 else t

/-- Boot halts: 1 no valid firmware, 2 HBM training, 3 OTP read (R508). (DEDUCED, entry 27.) -/
def State.haltBoot (s : State) (cause : Nat) : State := { s with boot := { s.boot with stage := 15, halt := cause } }

/-- Stage 2: the preferred slot, else the other one (R498). -/
def State.verifyFirmware (s : State) (f : BootInput) : State :=
  let good := fun (b : Bool) => if b then f.fwB && decide (s.boot.svnFloor ≤ f.svnB) else f.fwA && decide (s.boot.svnFloor ≤ f.svnA)
  let k := (s.boot.header s.bootKey).slotB
  if good k then ({ s with boot := { s.boot with fwSlot := k, fallback := false } }).endStage 2
  else if good (!k) then ({ s with boot := { s.boot with fwSlot := !k, fallback := true } }).endStage 2
  else s.haltBoot 1

/-- Stacks that a boot trains: all of them, or after an HBM_TRAIN raise those with a FAILED pseudo-channel (R503). (DEDUCED, entry 27.) -/
def State.stacksTrained (s : State) : List Nat :=
  (List.range 4).filter (fun k => !s.boot.retrain || s.hbm.pc.any (fun e => e.1 / 32 == k && e.2.st == 3))

/-- Pseudo-channels of the trained stacks. -/
def State.pcsTrained (s : State) : List Nat := (List.range 128).filter (fun pc => s.stacksTrained.contains (pc / 32))

/-- A warm reset has ended, or come to a failed training: with it the attempts at rung 3, and those at rung 2 that it covered, but for
ports, which are yet to come UP (R468, R471, R503). -/
def State.endWarm (s : State) : State :=
  { s with fault := { s.fault with
      warm := false
      unit := s.fault.unit.mapAll (fun k u =>
        if s.rung (k / 64) = 3 ∨ (s.rung (k / 64) = 2 ∧ 16 ≤ k / 64) then { u with attempt := false } else u) } }

/-- Stage 4: the lanes are trained; a pseudo-channel that fails stops the boot and raises HBM_TRAIN (R363, R503). (DEDUCED, entry 27.) -/
def State.trainHbm (s : State) (f : BootInput) : State :=
  let pcs := s.pcsTrained
  let bad := pcs.filter f.failedPcs.contains
  let s := { s with hbm := { s.hbm with
    pc := pcs.foldl (fun t pc => t.upd pc (fun c => { c with st := if bad.contains pc then 3 else 0 })) s.hbm.pc
    lane := f.lanes.foldl (fun t (l : Nat × Nat) => if l.1 < 512 ∧ s.stacksTrained.contains (l.1 / 128) = true then Tab.put t l.1 l.2 else t) s.hbm.lane } }
  if bad.isEmpty then s.endStage 4
  else (s.haltBoot 2).endWarm.forEach bad (fun s pc => s.raise (164 + pc / 32) (pc % 32))

/-- Stage 5: every trained stack holds valid ECC and nothing else, and its pseudo-channels are READY. -/
def State.initHbm (s : State) : State :=
  let pcs := s.pcsTrained.filter (fun pc => (s.hbm.pc.at pc).st != 3)
  let lost := fun (k : Nat) => s.stacksTrained.contains (pcOf (hbmVault + 128 * k) / 32)
  let s := { s with sec := { s.sec with vault := s.sec.vault.filter (fun e => !lost e.1) } }
  let s := s.forEach pcs (fun s pc => s.readyPc pc)
  ({ s with hbm := { s.hbm with valid := true }, boot := { s.boot with retrain := false } }).endStage 5

/-! ### Stage 6 (R481, R483, R498, R506) -/

/-- Fault policies of the persistent record (R473). (DEDUCED, entry 28.) -/
def State.restorePolicy (s : State) : State :=
  s.forEach (s.boot.persist s.bootKey).policy (fun s e => s.updSrc e.1 (fun f => { f with policy := e.2 }))

/-- After a power-on or cold reset the recorder goes on from flash: hours and count from the persistent record, or from the newest record
when neither copy is valid. (DEDUCED, entry 28.) -/
def State.restoreRecorder (s : State) : State :=
  let q := s.recd.mergeReserve
  let p := s.boot.persist s.bootKey
  let newest := (q.flash.getLast?).map (·.ev)
  let hours : Nat := if p.valid then p.hours else (newest.map (·.hours)).getD 0
  let count : Nat := if p.valid then p.pwr else (newest.map (·.pwr)).getD 0
  let last : Nat := (q.flash.map (·.seq)).foldl (fun (a b : Nat) => if later 32 b a then b else a) q.flashSeq
  let count : Nat := if s.boot.cause = 0 then satInc 0xFFFFFF count else count
  let s : State := { s with recd := { q with opHours := BitVec.ofNat 32 hours, hourStart := s.time.mono, lastSeq := last },
                            boot := { s.boot with pwrCycles := count } }
  if s.boot.cause = 0 then s.keepPersist (fun r => { r with hours := hours, pwr := count }) else s

/-- Entries for what the reset interrupted (R443, R506); of an operation that had ended, the steps are free values. (DEDUCED, entry 32.) -/
def State.recordCuts (s : State) : State :=
  let s := match s.boot.wasWindow with
    | some (a, b) => s.log 0x040 [2] [a, b]
    | none => s
  let s := s.forEach s.boot.cut (fun s c => match c.steps with
    | some (d, t) => s.ruleEvent 506 c.seq 2 [c.op, c.seq, d, t] c.inst
    | none => (s.ruleEvent 506 c.seq 2 [c.op, c.seq, s.freeVal 32, s.drawn.freeVal 32] c.inst).drawn 2)
  { s with boot := { s.boot with wasWindow := none, cut := [] } }

/-- The embedded default image: the manual gives neither its words nor its numbers (R97, R109). (DESIGN CHOICE, entry 142.) -/
def defaultImage : Image :=
  { id := Config.defaultImage.1.toNat, patch := Config.defaultImage.2.1.toNat, digest := Config.defaultImage.2.2.toNat }

/-- The Stride image: the slot the boot pointer names, the other slot, or the embedded default (R498). -/
def State.bootStride (s : State) (f : BootInput) : State :=
  let slot := fun (k : Bool) => if k then s.boot.strideB.filter (fun _ => f.strideB) else s.boot.strideA.filter (fun _ => f.strideA)
  let p := (s.boot.persist s.bootKey).stridePtr
  let order := if p = 0 then [false, true] else if p = 1 then [true, false] else []
  let (img, src) := match order.filterMap (fun k => (slot k).map (fun i => (i, b2n k))) with
    | x :: _ => x
    | [] => (defaultImage, 2)
  { s with stride := { bank0 := img, loaded := true }, boot := { s.boot with ucode := src } }

/-- Stage 6: Tequin starts. -/
def State.startTequin (s : State) (f : BootInput) : State :=
  let s := if s.boot.cause < 2 then s.restorePolicy.restoreRecorder else { s with recd := if s.recd.reserve.isEmpty then s.recd else s.recd.mergeReserve }
  let s := s.recordCuts.bootStride f
  let s := { s with recd := { s.recd with copyAt := s.time.mono + 1000000000 * s.par P.flashCopyS }
                    fab := { s.fab with nonce := s.freeVal 32 }
                    pacer := { s.pacer.reinit with down := false } }
  s.drawn.endStage 6

/-! ### Stage 7 (R500 to R502) -/

/-- The valid last-good slot whose WRITE_SEQ is later. -/
def Cfg.bootSlot (c : Cfg) (key : List Byte) : Option Bool :=
  if c.slot0.good key && (!c.slot1.good key || later 32 c.slot0.writeSeq c.slot1.writeSeq) then some false
  else if c.slot1.good key then some true else none

/-- The tables as the image holds them; station entries are inserted (R501). -/
def State.rebuildTables (s : State) (g : LgImage) : State :=
  let s := { s with
    tbl := { front := g.front, frontOvf := g.frontOvf, obj := g.objs }
    srch := { rule := g.rules, pfx := g.pfx, groupRows := g.groupRows, nextHandle := g.nextHandle } }
  s.forEach g.station (fun s e =>
    (s.placeStation s.cfg.active { valid := true, key := e.1, result := e.2, host := true }).getD s)

/-- A Vault record of the image with the later values of its copy in HBM, where that is VALID and passes STATE_MAC (`sound`). -/
def VaultRec.later (r h : VaultRec) (sound : Bool) : VaultRec :=
  if !(h.valid && sound) then r else
    let mx := fun {w : Nat} (a b : BitVec w) => if a.toNat < b.toNat then b else a
    { r with useReserved := mx r.useReserved h.useReserved, nextPn := mx r.nextPn h.nextPn, lowestPn := mx r.lowestPn h.lowestPn
             txReserved := mx r.txReserved h.txReserved }

/-- The Vault: after a power-on or cold reset the keys of TAG associations are exhausted; after a warm reset the later counts stay (R502). -/
def State.restoreVault (s : State) (g : LgImage) : State :=
  let b := s.cfg.active
  if 2 ≤ s.boot.cause then
    { s with sec := { s.sec with vault := g.vault.map (fun e =>
        let h := s.sec.vault.at e.1
        (e.1, (e.2.later h (h.mac == h.stateMac s.sec.keys.smk (e.1 / 4) (e.1 % 4))).seal s.sec.keys.smk (e.1 / 4) (e.1 % 4))) } }
  else
    let tag := fun (k : Nat) => b.on P.asDir (k / 4)
    let hit := (g.vault.filter (fun e => e.2.valid && tag e.1)).map (fun e => e.1 / 4)
    let s := { s with
      sec := { s.sec with vault := g.vault.map (fun e =>
        (e.1, (if tag e.1 then { e.2 with useReserved := BitVec.ofNat 32 (b.getN P.hardLimit (e.1 / 4)) } else e.2).seal s.sec.keys.smk (e.1 / 4) (e.1 % 4))) }
      boot := { s.boot with tagExhausted := !hit.isEmpty } }
    if hit.isEmpty then s else s.ruleEvent 502 0 0 hit.eraseDups

/-- Which installed key of an association is current after a restore the manual does not say: a free one of them.
(DESIGN CHOICE, entry 30.) -/
def State.restoreCurrent (s : State) : State :=
  s.forEach ((s.sec.vault.keys.map (· / 4)).eraseDups) (fun s a =>
    let l := (List.range 4).filter (s.installed a)
    if l.isEmpty then s
    else (s.updAssoc a (fun x => { x with current := some (l.getD (s.freeVal 2 % l.length) 0) })).drawn)

/-- Stage 7: the restored bank is in place, to be applied at stage 8; with no valid slot the reset values are, and CFG_PERSIST is raised.
(DEDUCED, entry 29.) (DEDUCED, entry 32). -/
def State.restoreGood (s : State) : State :=
  match s.cfg.bootSlot s.sec.keys.lastGood with
  | none => (({ s with boot := { s.boot with lgSource := 2 } }).raise 184 0).endStage 7
  | some k =>
    let g := s.cfg.slot k
    let gen := BitVec.ofNat 16 g.gen
    let s := { s with
      cfg := { s.cfg with active := g.bank, activeGen := gen, lastGood := gen, st := .empty, rbDisable := g.rbDisable }
      boot := { s.boot with lgSource := b2n k } }
    (((s.rebuildTables g).restoreVault g).restoreCurrent).endStage 7

/-! ### BOOT_STAGE_COMPLETE -/

/-- A stage in progress ends; stage 8 is a lap boundary. -/
def State.stageEnds (s : State) (stage : Nat) (f : BootInput) : State :=
  if !s.boot.running stage then s else
    match stage with
    | 1 =>
      if f.otpOk then ({ s.deriveKeys with boot := { s.boot with
        flashRead := s.boot.readMode s.deriveKeys.bootKey
        rootsBlank := (List.range 4).all (fun k => (s.mbx.root.at k).hash.isNone && !(s.mbx.root.at k).revoked) } }).endStage 1
      else s.haltBoot 3
    | 2 => s.verifyFirmware f
    | 3 => s.endStage 3
    | 4 => s.trainHbm f
    | 5 => s.initHbm
    | 6 => s.startTequin f
    | 7 => s.restoreGood
    | _ => s

def execBootStageComplete (stage : Nat) (found : BootInput) (s : State) : Host.Outcome State Fault Refusal :=
  runs (fun s => s.stageEnds stage found) s

/-- Stage 8, at the first lap boundary after stages 3 and 7: the bank is applied as a commit would, READY is set, and a reset at rung 3 has
completed (R468, R495). (DEDUCED, entry 29.) -/
def State.goReady (s : State) : State :=
  if !s.boot.running 8 then s else
    let s := { s with boot := { s.boot with stage := 8, ready := true, ended := 8 :: s.boot.ended }
                      cfg := { s.cfg with commitLap := s.lap, lgAt := s.time.mono + 1000000000 * s.par P.lgRefreshS } }
    (s.applyBank []).endWarm

end Sys2Proof.Machine
end

