-- ==== Sys2Proof/Machine/Ingress.lean ====
section
/-! DEFINITION. The commands of stages 1 to 6 of the packet path: arrival and tail of a frame, the ingress Stride engine, the classifier,
the action stage, verdicts. -/
namespace Sys2Proof.Machine

/-! ### FRAME_ARRIVAL, FRAME_TAIL -/

/-- FRAME_ARRIVAL (R60): under far-end loopback the frame goes back on the pins, under near-end loopback none comes in.
(DEDUCED, entry 49.) -/
def State.arrive (s : State) (port : Nat) (f : RxFrame) : State :=
  match (s.prt port).loopback with
  | 2 => s.emit (.frame port 0 f.bytes false)
  | 1 => s
  | _ => s.receive port f

def execFrameArrival (port : Nat) (frame : RxFrame) (s : State) : Host.Outcome State Fault Refusal := runs (fun s => s.arrive port frame) s

/-- Copies of a frame that is given up at its tail: begun ones are stomped and counted, the others removed. -/
def State.cutCopies (s : State) (n : Nat) (st : Stat) : State :=
  s.forEach (s.copiesOf n) (fun s k =>
    if (s.cpy.at k).begun then (s.count st).updCpy k (fun c => { c with stomp := true }) else s.endCopy k)

/-- A frame that R60 discards at its tail: its acceptance is withdrawn, and a punt that has its entry completes it (R523). -/
def State.tailDiscard (s : State) (n : Nat) : State :=
  let s := (s.withdraw n).updPkt n (fun p => { p with bad := true, learn := none })
  (((s.cutCopies n Stat.rxTruncatedStomped).dropAsks n).drop n).releaseBench (s.pkt.at n).benchKey

/-- A frame longer than MAX_SDU at its tail (R176, R184). -/
def State.sduTail (s : State) (n st : Nat) : State :=
  ((((s.withdraw n).oversize st).cutCopies n Stat.streamSduStomped).drop n).releaseBench (s.pkt.at n).benchKey

/-- What the ramp buckets of egress queues are owed by copies in transmission (R223). -/
def State.settleRamps (s : State) (n actual : Nat) : State :=
  s.forEach ((s.copiesOf n).filter (fun k => decide ((s.cpy.at k).paid ≠ 0)))
    (fun s k => (s.rampSettle (s.cpy.at k).queue (s.cpy.at k).paid (actual + s.tagBytes (s.cpy.at k))).updCpy k (fun c => { c with paid := 0 }))

/-- The metadata word of a packet at its tail: FRAME_LEN, and the PRP trailer (R96). -/
def State.endedMd (s : State) (p : Packet) : Nat := M.frameLen.put (s.actualLen p) (if s.fromRelay p then p.md else latchPrp p p.md)

/-- The packet is ended, and its length latched. -/
def State.markTail (s : State) (n : Nat) : State := s.updPkt n (fun p => { p with ended := true, md := s.endedMd p })

/-- The frame is whole: its data go to the punt buffers, and meters, ramp buckets and cells are settled (R182, R197, R223, R523). -/
def State.settleTail (s : State) (n : Nat) : State :=
  let p := s.pkt.at n
  let l := s.actualLen p
  let s := ((s.markTail n).issueData n).settleRamps n l
  let s := s.forEach (s.copiesOf n) (fun s k => s.fitCopy l k)
  match p.metered with
  | some (m, mb, took) => (s.meterSettle m mb l took).updPkt n (fun p => { p with metered := none })
  | none => s

/-- The tail of a frame that R60 does not discard: its learn event is raised, and MAX_SDU is checked (R131, R175, R176). -/
def State.goodTail (s : State) (n : Nat) : State :=
  let s := (s.ptpReceived n).raiseLearn n
  let p := s.pkt.at n
  match p.sduStream.filter (fun st => decide (S.maxSdu.get (s.obj K.stream st).words ≠ 0 ∧ S.maxSdu.get (s.obj K.stream st).words < s.actualLen p)) with
  | some st => s.sduTail n st
  | none => (if p.bench.isSome then s.releaseBench p.benchKey else s).reap n

/-- The tail of a frame (R60, R65, R96): one that exceeds MAX_FRAME has ended at MAX_FRAME bytes. -/
def State.tail (s : State) (n : Nat) : State :=
  let p := s.pkt.at n
  if !p.live || p.ended then s
  else if p.rx.assembly then ((s.settleTail n).count Stat.rxAssemblyErrors).tailDiscard n
  else match s.cfg.active.rxReason p.port p.rx with
    | some r =>
      let s := if r = 1 then s.endAt n (s.cfg.active.longest p.port) else s
      ((s.settleTail n).count Stat.rxDiscards (5 * p.port + r)).tailDiscard n
    | none => (s.settleTail n).goodTail n

def execFrameTail (pkt : Nat) (s : State) : Host.Outcome State Fault Refusal := runs (fun s => s.tail pkt) s

/-! ### The ingress Stride engine -/

/-- STRIDE_ADMIT (R79, R80, R82): the packet is the first of its port in the FIFO, enough of it is visible, and a context is free. -/
def State.strideAdmit (s : State) (n : Nat) : State :=
  let p := s.pkt.at n
  let acc := s.cfg.active.accum p.port
  if p.live && decide (p.stage = .fifo) && !s.behind n (fun t => decide (t = .fifo))
      && !s.stride.halted.at (2 * pipeOf p.port) && (p.ended || s.byteSeen { p with sectag := 0 } (acc - 1)) then
    match s.freeSlot (2 * pipeOf p.port) with
    | some k => s.enterEngine n k
    | none => s
  else s

def execStrideAdmit (pkt : Nat) (s : State) : Host.Outcome State Fault Refusal := runs (fun s => s.strideAdmit pkt) s

/-- The word waits: the clock at which it first does is kept (R90). -/
def State.stay (s : State) (n : Nat) (c : Ctx) : State :=
  s.updPkt n (fun p => { p with stage := .engine { c with waits := some (c.waits.getD s.time.mono) } })

/-- LOOKUP_ISSUE and PCOUNT of a word (R83, R98). -/
def State.wordEffects (s : State) (n w : Nat) (bad : List Nat) : State :=
  let s := s.parseCount (2 * pipeOf (s.pkt.at n).port) (W.pcount.get w)
  if W.issue.get w = 0 then s else s.earlyLookup n (W.issue.get w) bad

/-- One word of a packet's context, or the whole of the default graph. -/
def State.strideRun (s : State) (n : Nat) (c : Ctx) (bad : List Nat) : State :=
  let p := s.pkt.at n
  let b := s.bankOf p.gen
  let img := s.stride.image c.bank
  let v := s.view p
  if img.builtin then
    let entry := b.parseEntryOf p.port
    if 2 ≤ entry then
      let f := s.freeVal 256
      (s.drawn).leaveEngine n (setBits p.md 191 252 f) (f / 2 ^ 252 % 3) (f % 64)
    else
      let r := defaultParse b p.port entry p.md v
      if !v.ended && decide (v.seen < r.top) then s.stay n c
      else match r.stop with
        | some (verdict, cause) => s.leaveEngine n r.md verdict cause
        | none => s.leaveEngine n (M.keyProfile.put 1 r.md) 0 0
  else
    let w := img.ingress.getD c.addr 0
    match runWord true b p.port v (s.keyAbsent p.md) w p.md c with
    | .wait => s.stay n c
    | .fault verdict cause => s.leaveEngine n p.md verdict cause
    | .next md c' => (s.updPkt n (fun p => { p with md := md, stage := .engine c' })).wordEffects n w bad
    | .leave md _ e cause =>
      let s := (s.updPkt n (fun p => { p with md := md })).wordEffects n w bad
      let md := (s.pkt.at n).md
      if e = 1 then s.leaveEngine n (M.keyProfile.put (cause % 16) md) 0 0 else s.leaveEngine n md (e - 1) cause

/-- One word of an ingress context (R84, R92, R94). -/
def State.ingressWord (s : State) (n ecc : Nat) (bad : List Nat) : State :=
  let p := s.pkt.at n
  match p.stage with
  | .engine c =>
    if !p.live || s.ctxOver c || s.ctxLate c then s
    else
      let s := s.traceCtx (2 * pipeOf p.port) c p.md
      if ecc = 2 then (s.raise (48 + pipeOf p.port) 0).leaveEngine n p.md 2 0x13
      else
        let s := if ecc = 1 then s.count Stat.strideEccCorrected else s
        s.strideRun n c bad
  | _ => s

/-- STRIDE_WORD: a context of an ingress or an egress engine comes to its next word. -/
def State.strideWord (s : State) (x : StrideCtx) (r : WordRead) : State :=
  match x with
  | .ingress n => s.ingressWord n r.ecc (badCodes r.bad)
  | .egress n => s.egressWord n r.ecc (badCodes r.bad)

def execStrideWord (ctx : StrideCtx) (read : WordRead) (s : State) : Host.Outcome State Fault Refusal :=
  runs (fun s => s.strideWord ctx read) s

/-- A context leaves its engine with a cause for the default action, EGRESS_DEFAULT in an egress engine (R92, R102). -/
def State.outWith (s : State) (x : StrideCtx) (cause : Nat) : State :=
  match x with
  | .ingress n => s.leaveEngine n (s.pkt.at n).md 2 cause
  | .egress n => s.egressDefault n cause

/-- STRIDE_WAIT_TIMEOUT (R90, R102): 160 ns after the first clock on which the word waited. -/
def State.waitTimeout (s : State) (x : StrideCtx) : State :=
  match s.ctxOf x with
  | some c => if s.ctxLate c then (s.count Stat.strideWaitTimeouts).outWith x 0x10 else s
  | none => s

def execStrideWaitTimeout (ctx : StrideCtx) (s : State) : Host.Outcome State Fault Refusal := runs (fun s => s.waitTimeout ctx) s

/-- STRIDE_STEP_LIMIT (R92, R102): 64 words or 640 ns. -/
def State.stepLimit (s : State) (x : StrideCtx) : State :=
  match s.ctxOf x with
  | some c => if s.ctxOver c then s.outWith x 0x11 else s
  | none => s

def execStrideStepLimit (ctx : StrideCtx) (s : State) : Host.Outcome State Fault Refusal := runs (fun s => s.stepLimit ctx) s

/-! ### The classifier and the action stage -/

/-- CLASSIFIER_HANDOFF (R80): in the order of admission of the port. -/
def State.handoff (s : State) (n : Nat) (bad : List BadEntry) : State :=
  let p := s.pkt.at n
  if p.live && decide (p.stage = .parsed) && !s.behind n Stage.beforeLookup then
    s.classify n (badCodes bad)
  else s

def execClassifierHandoff (pkt : Nat) (bad : List BadEntry) (s : State) : Host.Outcome State Fault Refusal := runs (fun s => s.handoff pkt bad) s

/-- A station lookup that has had no answer for 2 µs is a miss (R128). -/
def State.stationLate (s : State) (n : Nat) : State := ((s.count Stat.stationTimeouts (pipeOf (s.pkt.at n).port)).latchHit n none).looked n

/-- STATION_LOOKUP_COMPLETE (R126, R128): an answer after 2 µs is none. -/
def State.stationDone (s : State) (n : Nat) (bad : List BadEntry) : State :=
  match (s.pkt.at n).stage with
  | .station t =>
    if !(s.pkt.at n).live then s
    else if t + 2000 ≤ s.time.mono then s.stationLate n
    else s.stationAnswer n (badCodes bad)
  | _ => s

def execStationLookupComplete (pkt : Nat) (bad : List BadEntry) (s : State) : Host.Outcome State Fault Refusal :=
  runs (fun s => s.stationDone pkt bad) s

/-- STATION_LOOKUP_ABANDON (R128): 2 µs without an answer count as a miss. -/
def State.stationAbandon (s : State) (n : Nat) : State :=
  let p := s.pkt.at n
  match p.stage with
  | .station t =>
    if p.live && decide (t + 2000 ≤ s.time.mono) then s.stationLate n else s
  | _ => s

def execStationLookupAbandon (pkt : Nat) (s : State) : Host.Outcome State Fault Refusal := runs (fun s => s.stationAbandon pkt) s

/-- The packet may be released to the action stage: in the order of handoff of its port, and with its tail where stage 5 needs it
(R130, R179). -/
def State.releasable (s : State) (n : Nat) : Bool :=
  let p := s.pkt.at n
  p.live && decide (p.stage = .classified) && !s.behind n Stage.beforeRelease && !(M.verdict.get p.md == 0 && s.waitsTail p)

/-- Records that stage 5 updates for a packet: its stream record and its meter. -/
def State.updates (s : State) (p : Packet) : List (Nat × Nat) :=
  let a := (s.actionSet p true).stream
  let w := (s.obj K.stream a).words
  if a = 0 then [] else (K.stream, a) :: (if S.meterEn.get w = 1 then [(K.meter, S.meter.get w)] else [])

/-- Another packet that is ready updates one of the same records first: that of the lower pipe, in a pipe the earlier packet (R183).
(DEDUCED, entry 150.) -/
def State.yields (s : State) (n : Nat) : Bool :=
  let p := s.pkt.at n
  let mine := s.updates p
  !mine.isEmpty && s.pkt.any (fun e =>
    (decide (pipeOf e.2.port < pipeOf p.port) || (pipeOf e.2.port == pipeOf p.port && decide (e.1 < n)))
      && s.releasable e.1 && (s.updates e.2).any mine.contains)

/-- ACTION_RELEASE (R130, R183): then stages 4 to 7. -/
def State.release (s : State) (n : Nat) (bad : List BadEntry) : State :=
  if s.releasable n && !s.yields n then s.actions n (badCodes bad) else s

def execActionRelease (pkt : Nat) (bad : List BadEntry) (s : State) : Host.Outcome State Fault Refusal := runs (fun s => s.release pkt bad) s

/-! ### Verdicts -/

/-- The key of an HMAC association in the Pacer's store, from its Vault record when it is not there: 64 keys, least recently used
replaced (R259). None when the record is not valid, or not `intact`, or does not unwrap (R284). -/
def State.hmacKey (s : State) (a k : Nat) (intact : Bool) : State × Option (List Byte) :=
  match s.sec.hmac.find? (fun e => e.1 == a && e.2.1 == k) with
  | some e => ({ s with sec := { s.sec with hmac := s.sec.hmac.filter (fun x => !(x.1 == a && x.2.1 == k)) ++ [e] } }, some e.2.2)
  | none =>
    let v := s.sec.vault.at (4 * a + k)
    if !v.valid || (s.sec.assoc.at a).removeAt.isSome then (s, none) else
      let s := s.hbmAsk 1 (vaultAddr a k) 128 false 4096
      let sound := intact && v.mac == v.stateMac s.sec.keys.smk a k
      match (Crypto.kwUnwrap s.sec.keys.kek v.wrapped).filter (fun _ => sound) with
      | some key =>
        let l := if 64 ≤ s.sec.hmac.length then s.sec.hmac.drop 1 else s.sec.hmac
        ({ s with sec := { s.sec with hmac := l ++ [(a, k, key)] } }, some key)
      | none => ((s.ruleEvent 284 (4 * a + k) 0 [] (s.par P.asInstance a)).raise 177 0, none)

/-- The Pacer's replay check of a frame under HMAC against the Vault record of its key (R254). -/
def State.hmacReplay (s : State) (b : Bank) (a k pn : Nat) : State × Bool :=
  let v := s.sec.vault.at (4 * a + k)
  if !b.on P.replayProtect a then (s, true)
  else if pn < v.lowestPn.toNat then (s, false)
  else
    let next := max v.nextPn.toNat (pn + 1)
    let low := max v.lowestPn.toNat (next - b.getN P.replayWindow a)
    (s.writeVault a k 0 (fun r => { r with nextPn := BitVec.ofNat 64 next, lowestPn := BitVec.ofNat 64 low }), true)

/-- A frame under HMAC fails as at the head (R259, R262). -/
def State.hmacFail (s : State) (n cause : Nat) : State :=
  let p := s.pkt.at n
  (s.updPkt n (fun p => { p with hmac := false, verdict := .none })).failHead n cause (some (p.assoc, p.keyNum)) p.pn

/-- The use count of a key that no slot holds: its Vault record keeps it, and SOFT_LIMIT acts as for any key (R266, R267, R283). -/
def State.hmacUse (s : State) (a k : Nat) : State × Bool :=
  let u := (s.sec.vault.at (4 * a + k)).useReserved.toNat + 1
  if u ≤ s.par P.hardLimit a then
    ((s.writeVault a k 0 (fun r => { r with useReserved := BitVec.ofNat 32 u })).softLimit a k u 0, true)
  else (s, false)

/-- HMAC_VERIFY (R259): the Pacer verifies a frame once its tail is in; a frame that passes is re-injected with its forwarding
result. `intact`: a Vault record that is read for its key has come back as it was written. (DEDUCED, entry 74.) -/
def State.hmacVerify (s : State) (n : Nat) (intact : Bool) : State :=
  let p := s.pkt.at n
  if !p.live || !p.hmac || !p.ended || s.pacer.down then s else
    let give := fun (s : State) => match (s.pkt.at n).hbuf with
      | some h => (s.poolRelease h.1 h.2).updPkt n (fun p => { p with hbuf := none })
      | none => s
    if s.instGen p.inst ≠ p.instGen then
      ((give s).count Stat.falseStartDrops p.inst).drop n
    else match s.hmacKey p.assoc p.keyNum intact with
    | (s, none) => (give s).hmacFail n F.keyUnknown
    | (s, some key) =>
      match s.hmacUse p.assoc p.keyNum with
      | (s, false) =>
        ((give s).updPkt n (fun p => { p with hmac := false })).failExhausted n (p.assoc, p.keyNum) p.pn
      | (s, true) =>
        let b := s.bankOf p.gen
        if (tagAt b p.assoc p.rx.bytes.length).isNone then (give s).hmacFail n F.tagMalformed
        else if !tagMatches b p.assoc p.pn (.hmac key) p then (give s).hmacFail n F.tagMismatch
        else match s.hmacReplay b p.assoc p.keyNum p.pn with
          | (s, false) => (give s).hmacFail n F.replay
          | (s, true) =>
            let s := (s.count Stat.verified p.assoc).updAssoc p.assoc (fun a => { a with verified := a.verified + 1, lastVerified := p.keyNum })
            let s := (give s).updPkt n (fun p => { p with hmac := false, verdict := .pass, judged := true })
            s.passStage6 n

def execHmacVerify (read : HmacRead) (s : State) : Host.Outcome State Fault Refusal := runs (fun s => s.hmacVerify read.pkt read.intact) s

/-- AUTH_VERDICT (R262): the verdict of a frame at its tail. -/
def State.verdict (s : State) (n : Nat) : State :=
  let p := s.pkt.at n
  if !p.live || !p.ended || p.bad || p.judged || p.hmac || p.bench.isSome || p.cmac.isSome then s else
    match p.verdict with
    | .pending =>
      match s.tailCheck n with
      | (s, 0) => ((s.passFrame n).raiseLearn n).reap n
      | (s, c) => s.failTail n c
    | .fail c => s.failTail n c
    | _ => s

def execAuthVerdict (pkt : Nat) (s : State) : Host.Outcome State Fault Refusal := runs (fun s => s.verdict pkt) s

end Sys2Proof.Machine
end

