-- ==== Sys2Proof/Machine/CmacCmds.lean ====
section
/-! DEFINITION. CMAC_JOB_COMPLETE and CMAC_JOB_RESUME: what the end of a job of the CMAC unit brings to a frame, a mailbox slot or an
image load (R269 to R272, R398, R452). -/
namespace Sys2Proof.Machine

/-! ### Frames -/

/-- The packet of a frame job that still waits for it. -/
def State.jobPacket (s : State) (job pkt : Nat) : Option Packet :=
  let p := s.pkt.at pkt
  if p.live && p.cmac == some job then some p else none

/-- The verdict of a frame job under the round keys of its context; one of a superseded generation fails with STALE_GEN (R272). A frame on
the bench is then released (R292). -/
def State.frameJudged (s : State) (job : Nat) (j : CmacJob) (pkt : Nat) (fresh : Bool) : State :=
  match s.jobPacket job pkt with
  | none => s
  | some p =>
    let ok := tagMatches (s.bankOf p.gen) p.assoc p.pn (.cmac j.rounds) p
    let s := s.updPkt pkt (fun p => { p with
      cmac := none, tagOk := some ok, verdict := if fresh then p.verdict else .fail F.staleGen })
    if p.bench.isSome then s.releaseBench p.benchKey else s

/-! ### Mailboxes -/

/-- What follows a response. -/
def State.andThen (s : State) (what : Sequel) : State :=
  match what with
  | .nothing => s
  | .closeSession k => s.closeSession k none
  | .closeRoot h => s.closeRoot h
  | .resetInst i g => s.resetInst i g
  | .warmReset => s.diagWarm
  | .reinit f => s.diagFunc f

/-- The tags of a slot have been computed: its request goes on to check 5, or its response is posted. Those of a superseded generation
are discarded (R452). -/
def State.mailboxTagged (s : State) (job slot : Nat) (fresh : Bool) : State :=
  match (s.mbx.slot.at slot).held with
  | some (l, h) =>
    if !l.contains job || !fresh then s
    else if l ≠ [job] then s.updSlot slot (fun k => { k with held := some (l.erase job, h) })
    else
      let s := s.updSlot slot (fun k => { k with held := none })
      match h with
      | .request a r => s.verifyTag slot a r
      | .response a r next => (s.answer slot a r).andThen next
  | none => s

/-! ### The commands -/

/-- The digest of an image has been computed: step 2 of its load has ended (R106). -/
def State.digestDone (s : State) (session seq : Nat) : State :=
  match s.job session seq with
  | some j => if j.rstate = 1 ∧ j.op = Op.imgStrideLoad ∧ j.done = 1 then s.stepJob session seq id else s
  | none => s

/-- A job can end: that of a frame not before the tail of the frame. -/
def State.canEnd (s : State) (job : Nat) (j : CmacJob) : Bool :=
  j.st == 1 && (match j.work with
    | .frame pkt _ => (s.jobPacket job pkt).all (·.ended)
    | _ => true)

/-- CMAC_JOB_COMPLETE (R269, R272): the job leaves the unit, its context goes to the next job, and its result takes effect unless its
generation is superseded, which is counted (R47, R452). -/
def State.cmacDone (s : State) (job : Nat) : State :=
  match s.sec.cmac.at job with
  | none => s
  | some j =>
    if !s.canEnd job j then s
    else
      let fresh := s.instGen j.inst == j.gen
      let s := s.leaveCmac job j
      match j.work with
      | .digest session seq => s.digestDone session seq
      | .frame pkt _ =>
        (if fresh then s else s.count Stat.falseStartDiscards (6 * j.inst + 3)).frameJudged job j pkt fresh
      | .mailbox slot =>
        (if fresh then s else s.count Stat.falseStartDiscards (6 * j.inst + 3)).mailboxTagged job slot fresh

def execCmacJobComplete (job : Nat) (s : State) : Host.Outcome State Fault Refusal := runs (fun s => s.cmacDone job) s

/-- CMAC_JOB_RESUME (R271): a suspended job takes a free context in its order. -/
def State.cmacResume (s : State) (job : Nat) : State :=
  match s.sec.cmac.at job with
  | some j =>
    if j.st = 2 ∧ s.cmacFree = true ∧ (s.nextCmac.map (·.1)) = some job then s.startCmac job j else s
  | none => s

def execCmacJobResume (job : Nat) (s : State) : Host.Outcome State Fault Refusal := runs (fun s => s.cmacResume job) s

end Sys2Proof.Machine
end

