-- ==== Sys2Proof/Machine/PinCmds.lean ====
section
/-! DEFINITION. Time sources, clocks, temperatures, PMBus and JTAG (R37, R38, R499, R540, R544 to R546, R548). -/
namespace Sys2Proof.Machine

/-! ### Time sources (R37, R545) -/

/-- A frequency correction in parts per 10⁹: a free value within SLEW_MAX. (DESIGN CHOICE, entry 136.) -/
def State.correction (s : State) : Int :=
  (s.freeVal 32 % (2000 * s.par P.slewMax + 1) : Nat) - (1000 * s.par P.slewMax : Nat)

/-- The selected source is valid with an offset in ns: FREERUN is left by a step; otherwise an offset at or above STEP_THRESHOLD is
stepped and a smaller one slewed. The discipline corrects the frequency; under PPS_10M it comes from REFCLK_10M_IN.
(DEDUCED, entries 13, 14; DESIGN CHOICE, entry 136.) -/
def State.sourceValid (s : State) (offset : Int) : State :=
  if !s.time.running || decide (s.par P.timeSource = 2) then s else
    let stepped := decide (s.time.state = .freerun) || decide (s.par P.stepThreshold ≤ offset.natAbs)
    let t := { s.time with lastValid := s.time.mono, freq := s.correction, ref10 := decide (s.par P.timeSource = 1) }
    let s := s.drawn
    let t := if stepped then { t with step := if offset = 0 then none else some offset, slew := 0 } else { t with step := none, slew := offset }
    ({ s with time := t }).setTimeState .locked

/-- TIME_SOURCE_VALID: under PTP the source is the PTP engine of a port, and that of PTP_PORT alone disciplines device time; under PPS_10M
a valid source whose second the edges of PPS_IN mark. -/
def State.timeSourceValid (s : State) (port : Nat) (offset : Int) : State :=
  if decide (s.par P.timeSource = 0) && decide (s.par P.ptpPort ≠ port) then s else s.sourceValid offset

def execTimeSourceValid (sample : SourceSample) (s : State) : Host.Outcome State Fault Refusal :=
  runsTime (fun s => s.timeSourceValid sample.port sample.offset) s

/-- SOURCE_LOSS_EXPIRE: slewing stops at once, what is left of the offset stays, and the last frequency correction is held, on
REFCLK_10M_IN where it is present: whether that clock is there, which no command says, is a free value. (DESIGN CHOICE, entry 136.) -/
def State.sourceLost (s : State) : State :=
  if decide (s.time.state = .locked) && decide (s.time.lastValid + 1000000000 * s.par P.sourceLoss ≤ s.time.mono) then
    let s := { s with time := { s.time with slew := 0, ref10 := decide (s.freeVal 1 = 1) }, gmu := { s.gmu with holdoverAt := s.time.mono } }
    (s.setTimeState .holdover).drawn
  else s

def execSourceLossExpire (s : State) : Host.Outcome State Fault Refusal := runsTime State.sourceLost s

/-- Offset from device time to the second that an edge of PPS_IN marks: the one TIME.SET_SECONDS names, else the nearest. -/
def TimeUnit.ppsOffset (t : TimeUnit) : Int :=
  match t.setSeconds with
  | some v => ((1000000000 * v : Nat) : Int) - (t.dev : Int)
  | none =>
    let r := t.dev % 1000000000
    if r < 500000000 then - (r : Int) else (1000000000 : Int) - (r : Int)

/-- PPS_IN_EDGE: under TIME_SOURCE = PPS_10M, and not within 0.5 s of the last valid edge. (DEDUCED, entry 14.) -/
def State.ppsEdge (s : State) : State :=
  let early := match s.time.ppsAt with | some t => decide (s.time.mono < t + 500000000) | none => false
  if !s.time.running || decide (s.par P.timeSource ≠ 1) || early then s else
    let offset := s.time.ppsOffset
    ({ s with time := { s.time with ppsAt := some s.time.mono, setSeconds := none } }).sourceValid offset

def execPpsInEdge (s : State) : Host.Outcome State Fault Refusal := runsTime State.ppsEdge s

/-! ### Clocks and temperatures (R540, R548, R357, R460) -/

/-- REFCLK_LOSS: a pair is out of range. (DEDUCED, entry 24.) -/
def State.refLoss (s : State) (pair : Nat) : State :=
  if 32 ≤ pair ∨ s.pins.refLost.contains pair = true then s else
    let s := { s with pins := { s.pins with refLost := pair :: s.pins.refLost } }
    if s.time.running then s.raise (112 + pair) 0 else s

def execRefclkLoss (pair : Nat) (s : State) : Host.Outcome State Fault Refusal := runs (fun s => s.refLoss pair) s

/-- A level source follows its condition. (DESIGN CHOICE, entry 20.) -/
def State.follow (s : State) (src : Nat) : State :=
  if !s.time.running then s else if s.condSeen src 0 then s.raise src 0 else s.clearCond src 0

/-- TEMPERATURE_CROSSING: sensors 0 to 31 are on the die, 32 to 35 those of the HBM stacks. -/
def State.temperature (s : State) (sensor : Nat) (c : Int) : State :=
  if sensor < 32 then
    let s := { s with pins := { s.pins with temp := s.pins.temp.put sensor c } }
    (s.follow 188).follow 189
  else if sensor < 36 then
    let s := { s with hbm := { s.hbm with temp := s.hbm.temp.put (sensor - 32) c } }
    s.follow (168 + (sensor - 32))
  else s

def execTemperatureCrossing (sensor : Nat) (celsius : Int) (s : State) : Host.Outcome State Fault Refusal :=
  runs (fun s => s.temperature sensor celsius) s

/-! ### PMBus (R544) -/

/-- PMB_ALERT_N is low while FAULT.SUMMARY.ANY_FAULT is 1. -/
def State.alertLow (s : State) : Bool := bit s.faultSummary 31

/-- The 7-bit address of the PMBus target. -/
def Pins.pmbusAddress (p : Pins) : Nat := if p.gpio0 then 0x5D else 0x5C

/-- A word goes out on PMBus. -/
def State.pmbusReply (s : State) (value : Nat) : State := s.emit (.pmbus s.pins.pmbusAddress value)

/-- STATUS_WORD: ANY_FAULT, MAX_SEVERITY, MAX_RUNG, READY. -/
def State.statusWord (s : State) : Nat :=
  let f := s.faultSummary
  b2n s.alertLow * 2 ^ 15 + bits f 28 3 * 2 ^ 12 + bits f 7 3 * 2 ^ 9 + b2n s.boot.ready * 2 ^ 8

/-- LINEAR11 with exponent 0: an 11-bit two's complement number. (DESIGN CHOICE, entry 20.) -/
def linear11 (c : Int) : Nat := unsigned 11 c

/-- The highest of the first `n` sensors. (DESIGN CHOICE, entry 20.) -/
def hottest (t : Tab Int) (n : Nat) : Int := ((List.range n).map (fun i => t.at i)).foldl max (t.at 0)

def execPmbusStatusWord (s : State) : Host.Outcome State Fault Refusal := runs (fun s => s.pmbusReply s.statusWord) s

def execPmbusReadTemperature1 (s : State) : Host.Outcome State Fault Refusal :=
  runs (fun s => s.pmbusReply (linear11 (hottest s.pins.temp 32))) s

def execPmbusReadTemperature2 (s : State) : Host.Outcome State Fault Refusal :=
  runs (fun s => s.pmbusReply (linear11 (hottest s.hbm.temp 4))) s

/-! ### JTAG (R499, R546) -/

/-- The instruction connects a register, whose value is read out. (DESIGN CHOICE, entry 21.) -/
def State.tap (s : State) (register value : Nat) : State :=
  ({ s with pins := { s.pins with jtag := register } }).emit (.jtag register value)

/-- BYPASS connects the one-bit register, which captures 0. (DESIGN CHOICE, entry 21.) -/
def State.bypass (s : State) : State := s.tap 1 0

/-- A debug token with SCOPE bit 2 is in force. -/
def State.jtagOpen (s : State) : Bool := s.mbx.tokens.any (fun t => bit t.scope 2)

/-- JTAG_INSTRUCTION: the boundary register's content is a free value; a private instruction is BYPASS without a token, and with one
the manual gives it no effect. (DESIGN CHOICE, entry 23.) -/
def execJtagInstruction (op : JtagOp) (s : State) : Host.Outcome State Fault Refusal :=
  match op with
  | .idcode => runs (fun s => s.tap 0 0x151204F3) s
  | .bypass => runs State.bypass s
  | .boundary _ => runs (fun s => (s.tap 2 (s.freeVal 1024)).drawn) s
  | .privateOp _ => if s.jtagOpen then .refused .jtagPrivate else runs State.bypass s

/-- All four root entries are blank. (DEDUCED, entry 22.) -/
def State.rootsOpen (s : State) : Bool := (List.range 4).all (fun k => (s.mbx.root.at k).hash.isNone && !(s.mbx.root.at k).revoked)

/-- ROOT_PROVISION: root entry 0 takes the 48 bytes; BYPASS once any entry is programmed. (DEDUCED, entry 22.) -/
def State.provision (s : State) (hash : List Byte) : State :=
  if hash.length ≠ 48 then s
  else if !s.rootsOpen then s.bypass
  else
    let s := { s with mbx := { s.mbx with root := s.mbx.root.put 0 { hash := some (beNat hash) } }, boot := { s.boot with rootsBlank := false } }
    s.tap 3 (beNat hash)

def execRootProvision (hash : List Byte) (s : State) : Host.Outcome State Fault Refusal := runs (fun s => s.provision hash) s

end Sys2Proof.Machine
end

