-- ==== Sys2Proof/Machine/LapCmds.lean ====
section
/-! DEFINITION. LAP_BOUNDARY: the ten orders of effects at a boundary (R35), and the nanosecond that passes when nothing is commanded. -/
namespace Sys2Proof.Machine

/-! ### Time passes (R36 to R39, R41) -/

/-- Phase that `ns` of device time may remove while slewing (R37, R39). (DEDUCED, entry 13.) -/
def slewPart (offset : Int) (ns ppm : Nat) : Int := clampInt (-((ns * ppm / 1000000 : Nat) : Int)) ((ns * ppm / 1000000 : Nat) : Int) offset

/-- One nanosecond of the core clock. Both counters gain it under the frequency correction, none of them beyond the next boundary. While a
phase is slewed, the fraction of device time gathers SLEW_MAX, and at each whole nanosecond of it device time gains one more, or one
less. (DESIGN CHOICE, entry 3; DEDUCED, entries 13, 136.) -/
def TimeUnit.tick (t : TimeUnit) (ppm : Nat) : TimeUnit :=
  let k := 65536 * ppm / 1000000
  let g := min (t.next - t.dev) (t.gathered / 1000000000)
  let t := { t with mono := t.mono + g, mfrac := t.gathered % 1000000000 }
  if t.slew = 0 then { t with dev := t.dev + g }
  else if 0 < t.slew then
    if 65536 ≤ t.frac.toNat + k ∧ t.dev + g + 1 ≤ t.next then
      { t with dev := t.dev + g + 1, frac := t.frac + BitVec.ofNat 16 k, slew := t.slew - 1 }
    else { t with dev := t.dev + g, frac := BitVec.ofNat 16 (min 65535 (t.frac.toNat + k)) }
  else if t.frac.toNat < k ∧ 0 < g then { t with dev := t.dev + (g - 1), frac := t.frac - BitVec.ofNat 16 k, slew := t.slew + 1 }
  else { t with dev := t.dev + g, frac := t.frac - BitVec.ofNat 16 k }

/-- Nanoseconds to the next moment at which something that paces a port changes: a gate, a pause timer, the start or end of a frame on the
wire, or the least length of a fragment that Clause 99 allows; at least 1. -/
def State.steady (s : State) (t : Nat) : Nat :=
  let wire : List Copy := (s.cpy.filter (fun e => e.2.live && decide (e.2.queue < 8192) && e.2.inFlight)).map (·.2)
  let ports := ((s.cbsQueues.map (· / 16)) ++ wire.map (fun (c : Copy) => c.queue / 16)).eraseDups
  let gates := ports.filterMap (fun p => (s.activeList p).map (fun (g : GateList) => (g.at_ s.time.dev).2))
  let pauses := ports.flatMap (fun p => (s.prt p).pause.map (fun (e : Nat × Nat) => e.2 - s.time.mono))
  let macs := wire.flatMap (fun (c : Copy) => match s.wireSpan c with
    | some (a, b) => [a - s.time.mono, b - s.time.mono, a + s.wireNs (c.queue / 16) (72 + 64 * s.par P.addFragSize (c.queue / 16)) - s.time.mono]
    | none => [])
  max 1 (((gates ++ pauses ++ macs).filter (fun d => decide (0 < d))).foldl min t)

/-- `t` ns pass for shapers, buckets and frames on the wire, in stretches over which nothing that paces a port changes (R221, R223, R238).
The first argument bounds the stretches. -/
def State.passing (s : State) : Nat → Nat → State
  | 0, _ => s
  | n + 1, t =>
    if t = 0 then s else
      let d := min t (s.steady t)
      let u := s.shape d
      let u := { u with time := { u.time with dev := s.time.dev + d, mono := s.time.mono + d } }
      let u := u.forEach ((u.cpy.filter (fun e => e.2.live && decide (e.2.queue < 8192) && e.2.inFlight)).map (fun e => e.2.queue / 16)) State.macTurns
      u.passing n (t - d)

/-- What the block does when nothing is commanded: a nanosecond passes for the time unit, the shapers and the conditions that counters
count; no time passes before boot or beyond the next lap boundary. (DESIGN CHOICE, entry 3.) -/
def State.tick (s : State) : State :=
  if s.time.running && decide (s.time.dev < s.time.next) then
    let t := s.time.tick (s.par P.slewMax)
    let u := (s.passing (t.mono - s.time.mono) (t.mono - s.time.mono)).countConditions t.mono
    { u with time := t, pending := s.pending }.crossbars (clocksAt t.mono - clocksAt s.time.mono)
  else s

/-- Time passes up to the next lap boundary. (DEDUCED, entry 13.) -/
def State.toBoundary (s : State) : State :=
  let ns := s.time.next - s.time.dev
  let c := slewPart s.time.slew ns (s.par P.slewMax)
  let t := ((ns : Int) - c).toNat
  let u := (s.passing t t).countConditions (s.time.mono + t)
  { u with time := { s.time with dev := max s.time.dev s.time.next, mono := s.time.mono + t, slew := s.time.slew - c } }.crossbars
    (clocksAt (s.time.mono + t) - clocksAt s.time.mono)

/-- The boundary after a device time: the next multiple of the lap length, or the one after where that lap would be shorter than half
a lap length (R29, R38). (DEDUCED, entry 15.) -/
def boundaryAfter (dev lap : Nat) : Nat :=
  let n := (dev / lap + 1) * lap
  if 2 * (n - dev) < lap then n + lap else n

/-! ### Order 1: a time step (R38, R231) -/

/-- Ports with an operational list. -/
def State.listPorts (s : State) : List Nat :=
  ((s.sched.profile.filter (fun e => e.2.oper.isSome)).map (fun e => e.1 / 4)).eraseDups

/-- Every list whose start time has come starts (R234, order 5). -/
def State.startLists (s : State) : State :=
  s.forEach ((s.sched.profile.filter (fun e => e.2.wait.isSome)).map (·.1)) (fun s x => s.startList (x / 4) (x % 4))

/-- A pending step is applied; operational lists take their new position at once. (DEDUCED, entry 15.) -/
def State.timeStep (s : State) : State :=
  match s.time.step with
  | none => s
  | some d =>
    let s := { s with
      time := { s.time with dev := ((s.time.dev : Int) + d).toNat, step := none }
      ctr := { s.ctr with timeSteps := s.ctr.timeSteps + 1 } }
    s.timeless (fun s => (s.forEach s.listPorts (fun s p => (s.count Stat.gateRephases p).gateMoves p)).startLists)

/-! ### Order 2 and the rate of laps (R30, R31) -/

/-- TIME.LAP_COUNT counts the boundary. -/
def State.lapCounted (s : State) : State :=
  { s with time := { s.time with lapCount := s.time.lapCount + 1, lapAt := s.time.mono } }

/-- A committed LAP_RATE takes effect at a second of device time; then the next boundary is set. (DEDUCED, entry 17.) -/
def State.lapLength (s : State) : State :=
  let s := if s.time.dev % 1000000000 = 0 then
      match s.time.pendingRate with
      | some r => { s with time := { s.time with lapRate := r, pendingRate := none } }
      | none => s
    else s
  { s with time := { s.time with next := boundaryAfter s.time.dev s.lapNs } }

/-! ### Order 3 (R35) -/

/-- Activation of a bank, stage 8 of a boot, changes of current keys, the Stride switch, keys whose fence has passed, the last-good
image that is due. (DEDUCED, entries 17, 33.) -/
def State.order3 (s : State) : State :=
  let u := s.activation.goReady.keyChanges.switchStride.dropKeys.imageDue
  { u with time := s.time.activated u.time }

/-! ### Key prefetch (R298) -/

/-- Prefetching entries of a list whose windows begin from `lo` to `hi`: the association and the end of the last such window. -/
def GateList.opens (g : GateList) (lo hi : Nat) : List (Nat × Nat) :=
  (offsets 0 g.entries).filterMap (fun e =>
    let first := g.start + e.1
    if G.prefetch.get e.2 ≠ 1 ∨ g.cycle = 0 ∨ g.cycle ≤ e.1 ∨ hi ≤ first then none else
      let last := first + (hi - 1 - first) / g.cycle * g.cycle
      if lo ≤ last then some (G.assoc.get e.2, last + G.interval.get e.2) else none)

/-- The key a prefetch loads: the current one of a TAG association, the last verified one of a VERIFY association. (DEDUCED, entry 36.) -/
def State.prefetchKey (s : State) (a : Nat) : Option Nat :=
  if !s.parOn P.asEnable a || isHmac (s.par P.asMode a) then none
  else (if s.parOn P.asDir a then (s.sec.assoc.at a).current else some (s.sec.assoc.at a).lastVerified).filter (s.installed a)

/-- Prefetches of the active profile of a port for windows that begin from `lo` to `hi`: those of the operational list up to the start
of the list that waits, and those of that list. (DEDUCED, entry 36.) -/
def State.prefetchPort (s : State) (lo hi port : Nat) : State :=
  if !s.parOn P.gateEnable port then s else
    let p := s.gateProfile port (s.sched.sel.at port)
    let l := match p.oper, p.wait with
      | some g, some w => g.opens lo (min hi w.start) ++ w.opens lo hi
      | some g, none => g.opens lo hi
      | none, some w => w.opens lo hi
      | none, none => []
    s.forEach l (fun s e => match s.prefetchKey e.1 with
      | some k => s.holdKey e.1 k false (some (BitVec.ofNat 32 (s.time.mono + (e.2 - s.time.dev))))
      | none => s)

/-- Order 9: prefetches for windows that begin between one and two laps ahead. (DEDUCED, entry 36.) -/
def State.prefetchAll (s : State) : State :=
  s.forEach ((s.sched.profile.keys.map (· / 4)).eraseDups) (fun s p =>
    s.prefetchPort (s.time.dev + s.lapNs) (s.time.dev + 2 * s.lapNs) p)

/-! ### Order 4: schedule profiles (R232, R233, R320, R321, R224) -/

/-- The active profile of a port becomes another one: gates follow its list, TEST starts or ends its ramp, and windows that begin within
one lap are prefetched (R224, R232, R298). -/
def State.setProfile (s : State) (port k : Nat) : State :=
  let was := s.sched.sel.at port
  if was = k then s else
    let s := { s with sched := { s.sched with sel := s.sched.sel.put port k } }
    let s := if k = 3 then s.rampPort port (fun q => { q with test := true }) else s
    let s := if was = 3 then s.forEach (List.range 16) (fun s c => s.updQ (16 * port + c) (fun q => q.settle { q with test := false })) else s
    (s.gateMoves port).prefetchPort s.time.dev (s.time.dev + s.lapNs) port

/-- Request `a` of the GMU comes before `b`: higher rank, then lower trigger number (R321). -/
def gmuBefore (a b : Nat × Nat × Nat × Nat) : Bool := decide (b.1 < a.1) || (a.1 == b.1 && decide (a.2.1 < b.2.1))

/-- GMU requests: one wins for each port, the others are recorded as superseded. (DEDUCED, entry 34.) -/
def State.gmuProfiles (s : State) : State :=
  let l := s.gmu.req
  let s := { s with gmu := { s.gmu with req := [] } }
  s.forEach l (fun s r =>
    if l.any (fun q => q.2.2.1 == r.2.2.1 && gmuBefore q r) then s.ruleEvent 321 r.2.2.1 0 [r.2.1, r.2.2.2]
    else s.setProfile r.2.2.1 r.2.2.2)

/-- Selections of the host that are due, as (port, profile) in order of acceptance: the last one of a port takes effect unless the GMU
selected for the port (R35, R233). (DEDUCED, entry 34.) -/
def State.hostProfiles (s : State) (gmu : List Nat) : Nat → List (Nat × Nat) → State
  | 0, _ => s
  | _, [] => s
  | n + 1, (p, k) :: l =>
    let s' :=
      if gmu.contains p then s.ruleEvent 35 p 0 [k]
      else if l.any (fun e => e.1 == p) then s.ruleEvent 233 p 0 [k]
      else s.setProfile p k
    s'.hostProfiles gmu n l

/-- Order 4. (DEDUCED, entry 34.) -/
def State.order4 (s : State) : State :=
  let gmu := s.gmu.req.map (·.2.2.1)
  let s := s.gmuProfiles
  let due := s.sched.host.filter (fun e => !later 32 e.1 s.lap)
  let l := due.flatMap (fun e => e.2.2.map (fun p => (p, e.2.1)))
  ({ s with sched := { s.sched with host := s.sched.host.filter (fun e => later 32 e.1 s.lap) } }).hostProfiles gmu l.length l

/-! ### Order 8: residence (R43) and samples -/

/-- Copies at the head of a queue that have stayed to their limit: RES_LIMIT of their class in an egress queue, 1.0 s elsewhere (R43,
R203). (DEDUCED, entry 35.) -/
def State.overdue (s : State) (l : List Nat) : List Nat :=
  (l.filter (fun k => !(s.cpy.at k).begun)).takeWhile (fun k => if (s.cpy.at k).queue < 8192 then s.overResident k else s.tooOld k)

/-- Heads of queues, relay FIFOs and reorder windows are inspected. (DEDUCED, entry 35.) -/
def State.inspect (s : State) : State :=
  let s := s.forEach s.buf.sub.keys (fun s x =>
    s.forEach (s.overdue (s.buf.sub.at x).all) (fun s k =>
      if (s.cpy.at k).queue < 8192 then s.dropResident k else (s.count Stat.residenceCapDrops).endCopy k))
  let s := s.forEach s.fab.txfifo.keys (fun s x =>
    s.forEach (s.overdue (s.fab.txfifo.at x)) (fun s k =>
      (({ s with fab := { s.fab with txfifo := s.fab.txfifo.upd x (·.filter (· != k)) } }).count Stat.residenceCapDrops).endCopy k))
  s.forEach s.fab.anchor.keys (fun s x =>
    (s.forEach ((s.fab.anchor.at x).held.filter (fun h => decide (residenceCap ≤ s.residence (s.pkt.at h.pkt).arrived)))
      (fun s h => (s.count Stat.residenceCapDrops).flushHeld x h)).advanceAll x)

/-- The Pacer gives up every packet of the slow path that has stayed 1.0 s; of a COPY_PUNT only the copy. -/
def State.slowCap (s : State) : State :=
  let old := fun (n : Nat) => decide (residenceCap ≤ s.residence (s.pkt.at n).arrived)
  let asks := s.pacer.ask.filterMap (fun e => e.2.bind (fun a => a.pkt.map (fun n => (n, a.copy))))
  let copies := ((asks.filter (fun e => e.2 && old e.1)).map (·.1)).eraseDups
  let held := (((asks.filter (fun e => !e.2)).map (·.1)) ++ ((s.pkt.filter (fun e => e.2.live && e.2.hmac)).map (·.1))).eraseDups
  let s := s.forEach (copies.filter (fun n => !held.contains n)) (fun s n => (s.count Stat.residenceCapDrops).dropAsks n |>.reap n)
  s.forEach (held.filter old) (fun s n => (s.count Stat.residenceCapDrops).dropAsks n |>.drop n)

/-- RULE_PF_ROWS of the lap just ended, in 1/256 row (R150). -/
def State.pfRows (s : State) : State :=
  let e := if s.srch.searches = 0 then 0 else s.srch.rows * 256 / s.srch.searches
  { s.setStat Stat.rulePfRows 0 e with srch := { s.srch with rows := 0, searches := 0 } }

/-- Order 8. -/
def State.order8 (s : State) : State := s.inspect.slowCap.sampleQueues.snapshot.pfRows

/-! ### Order 9: timers counted in laps -/

/-- One boundary less. -/
def lessOne (n : Option Nat) : Option Nat := n.map (· - 1)

/-- Timers of ports, ramps, residue, flapping keys, adjacencies and quiet periods have one boundary less. (DEDUCED, entry 33.) -/
def State.lapTimers (s : State) : State :=
  { s with
    port := s.port.mapAll (fun _ p => { p with hold := lessOne p.hold, fecLap := 0 })
    sched := { s.sched with q := s.sched.q.mapAll (fun _ q => { q with startup := lessOne q.startup, recovery := lessOne q.recovery }) }
    cpy := s.cpy.mapAll (fun _ c => match c.place with | .residue n => { c with place := .residue (n + 1) } | _ => c)
    learn := { s.learn with moves := [], frozen := s.learn.frozen.map (fun f => (f.1, f.2 - 1)) }
    fab := { s.fab with adj := s.fab.adj.mapAll (fun _ a => { a with miss := a.miss + 1 }) }
    fault := { s.fault with
      unit := s.fault.unit.mapAll (fun _ u => { u with quiet := lessOne u.quiet })
      src := if s.fault.warm then s.fault.src.mapAll (fun _ f => { f with fails := f.fails.map (fun l => (l + 1) % 2 ^ 32) }) else s.fault.src } }

/-- The timers whose last boundary this is act, as the row of each does: port holds, ramps, residue, flapping keys, adjacencies and quiet
periods. A timer that has acted no longer runs. (DEDUCED, entry 33.) -/
def State.timersAct (s : State) : State :=
  let s := s.forEach ((s.port.filter (fun e => e.2.hold == some 0)).map (·.1)) State.holdExpire
  let s := s.forEach ((s.sched.q.filter (fun e => e.2.startup == some 0 || e.2.recovery == some 0)).map (·.1)) (fun s x => s.rampEnd (x / 16) (x % 16))
  let s := s.forEach s.buf.residue State.residueExpire
  let s := s.forEach ((s.learn.frozen.filter (fun f => f.2 == 0)).map (·.1)) State.freezeEnd
  let s := s.forEach s.adjacent State.helloMiss
  s.forEach ((s.fault.unit.filter (fun e => e.2.quiet == some 0)).map (·.1)) (fun s x => s.quietEnds (x / 64) (x % 64))

/-- Laps without a conflict of IDs are counted under DISCOVER (R330). -/
def State.idLap (s : State) : State :=
  if s.parOn P.fabricEnable && decide (s.par P.idMode = 1) && !s.fab.settled then
    s.updFab (fun f => { f with calm := if s.idConflict then 0 else f.calm + 1 })
  else s

/-- A command that a job serves and that has not ended within 2 laps answers IN_PROGRESS (R396, R413, R419). (DEDUCED, entry 37.) -/
def State.announce (s : State) (j : Job) : State :=
  match j.slot with
  | none => s
  | some k =>
    if 1 < j.left then s.updJob j.session j.seq (fun j => { j with left := j.left - 1 })
    else match s.acc k with
      | some a =>
        let s := s.updJob j.session j.seq (fun j => { j with slot := none, left := 0 })
        (s.ruleEvent 506 j.seq 0 [j.op, j.seq] j.inst).post k a { rstate := 1, status := 0, stepsTotal := j.total }
      | none => s

/-- Jobs that still hold a slot. (DEDUCED, entry 37.) -/
def State.announceAll (s : State) : State := s.forEach (s.running.filter (fun j => j.slot.isSome)) (fun s j => s.announce j)

/-- Keys of pinned associations that are neither resident nor asked for are asked for again (R295). -/
def State.loadPinned (s : State) : State :=
  s.forEach ((s.cfg.active.listed P.asSlotPolicy).filter (fun a =>
      s.parOn P.asSlotPolicy a && s.parOn P.asEnable a && !isHmac (s.par P.asMode a) && (s.sec.assoc.at a).removeAt.isNone)) (fun s a =>
    s.forEach ((List.range 4).filter (fun k => s.installed a k && (s.slotOf a k).isNone)) (fun s k => s.holdKey a k true none))

/-- Receive state of every slot that changed in the lap goes to the Vault (R283). -/
def State.pnWriteback (s : State) : State :=
  s.forEach ((s.sec.slot.filter (fun e => e.2.dirty && e.2.st == 2)).map (·.1)) (fun s i =>
    let k := s.sec.slot.at i
    (s.writeVault k.assoc k.keyNum i (fun r => { r with nextPn := k.nextPn, lowestPn := k.lowestPn }))
      |>.updKey i (fun q => { q with dirty := false }))

/-- The TRNG reseeds the CTR_DRBG unless a health test has failed (R273, R274). -/
def State.reseed (s : State) : State :=
  if s.sec.trngFailed then s else { s with sec := { s.sec with reseeds := s.sec.reseeds + 1 } }

/-- The temperature of each stack is read, and with it the refresh interval of its PCs (R357). -/
def State.readStacks (s : State) : State :=
  { s with hbm := { s.hbm with pc := s.hbm.pc.mapAll (fun i c => { c with hot := decide (85 < s.hbm.temp.at (i / 32)) }) } }

/-- Order 9, with what the chapters do once per lap. -/
def State.order9 (s : State) : State :=
  let s := s.lapTimers.timersAct.idLap.settleId.installPaths.sendLsa.announceAll.flushInsts.scrubLap.repairTables.shadowsAll.ageLap
  s.prefetchAll.loadPinned.pnWriteback.reseed.readStacks.askLap.stageRecords.deadlockCheck

/-! ### LAP_BOUNDARY -/

/-- Orders 4 to 10 of R35, and the HELLO frames of the boundary: each effect sees the results of those above it. `lap`: the number of
the lap that ends. (DEDUCED, entry 33.) -/
def State.order4to10 (s : State) (lap : Nat) : State :=
  let s := s.order4.startLists.freezes
  ((({ s with mbx := { s.mbx with batchUsed := 0 } }).order8.order9).publish lap).helloSend

/-- PPS_OUT rises at a second of device time (R545). -/
def State.ppsOut (s : State) : State := if s.time.dev % 1000000000 = 0 then s.emit (.pps (s.time.dev / 1000000000)) else s

/-- LAP_BOUNDARY: time passes up to the boundary, and its effects follow in the order of R35. (DEDUCED, entry 33.) -/
def State.lapBoundary (s : State) : State :=
  if !s.time.running then s else
    (s.toBoundary.timeStep.lapCounted.order3.lapLength.timeless (fun u => u.order4to10 s.lap)).ppsOut

def execLapBoundary (s : State) : Host.Outcome State Fault Refusal := runsTime State.lapBoundary s

end Sys2Proof.Machine
end

