-- ==== Sys2Proof/Machine/Dispatch.lean ====
section
/-! DEFINITION. The dispatcher: one arm per command. -/
namespace Sys2Proof.Machine

def exec (i : Instr) (s : State) : Host.Outcome State Fault Refusal :=
  match i with
  | .lapBoundary => Sys2Proof.Machine.execLapBoundary s
  | .frameArrival port frame => Sys2Proof.Machine.execFrameArrival port frame s
  | .frameTail pkt => Sys2Proof.Machine.execFrameTail pkt s
  | .strideAdmit pkt => Sys2Proof.Machine.execStrideAdmit pkt s
  | .strideWord ctx read => Sys2Proof.Machine.execStrideWord ctx read s
  | .strideWaitTimeout ctx => Sys2Proof.Machine.execStrideWaitTimeout ctx s
  | .strideStepLimit ctx => Sys2Proof.Machine.execStrideStepLimit ctx s
  | .classifierHandoff pkt bad => Sys2Proof.Machine.execClassifierHandoff pkt bad s
  | .stationLookupComplete pkt bad => Sys2Proof.Machine.execStationLookupComplete pkt bad s
  | .stationLookupAbandon pkt => Sys2Proof.Machine.execStationLookupAbandon pkt s
  | .actionRelease pkt bad => Sys2Proof.Machine.execActionRelease pkt bad s
  | .cmacJobComplete job => Sys2Proof.Machine.execCmacJobComplete job s
  | .cmacJobResume job => Sys2Proof.Machine.execCmacJobResume job s
  | .hmacVerify read => Sys2Proof.Machine.execHmacVerify read s
  | .authVerdict pkt => Sys2Proof.Machine.execAuthVerdict pkt s
  | .residueRetry cpy => Sys2Proof.Machine.execResidueRetry cpy s
  | .mcResidueExpire cpy => Sys2Proof.Machine.execMcResidueExpire cpy s
  | .spillWrite cpy => Sys2Proof.Machine.execSpillWrite cpy s
  | .spillRefillRead queue quadrant => Sys2Proof.Machine.execSpillRefillRead queue quadrant s
  | .schedulerSelect pipe ports ecc => Sys2Proof.Machine.execSchedulerSelect pipe ports ecc s
  | .resLimitExpire queue quadrant => Sys2Proof.Machine.execResLimitExpire queue quadrant s
  | .egressStrideAdmit pipe cpy => Sys2Proof.Machine.execEgressStrideAdmit pipe cpy s
  | .fcsSend cpy => Sys2Proof.Machine.execFcsSend cpy s
  | .gateEntryChange port => Sys2Proof.Machine.execGateEntryChange port s
  | .gateListStart port profile => Sys2Proof.Machine.execGateListStart port profile s
  | .rampEnd port cls => Sys2Proof.Machine.execRampEnd port cls s
  | .macControlReceive port bytes => Sys2Proof.Machine.execMacControlReceive port bytes s
  | .pauseTimerExpire port priority => Sys2Proof.Machine.execPauseTimerExpire port priority s
  | .xoffResend port priority => Sys2Proof.Machine.execXoffResend port priority s
  | .verifySend port => Sys2Proof.Machine.execVerifySend port s
  | .verifyResponse port => Sys2Proof.Machine.execVerifyResponse port s
  | .fecDegradeEvent port symbols => Sys2Proof.Machine.execFecDegradeEvent port symbols s
  | .portAllLocks port => Sys2Proof.Machine.execPortAllLocks port s
  | .portLockLoss port lane remote => Sys2Proof.Machine.execPortLockLoss port lane remote s
  | .upDebounceExpire port => Sys2Proof.Machine.execUpDebounceExpire port s
  | .lossFilterExpire port => Sys2Proof.Machine.execLossFilterExpire port s
  | .portHoldExpire port => Sys2Proof.Machine.execPortHoldExpire port s
  | .anFailure port => Sys2Proof.Machine.execAnFailure port s
  | .trainingTimeout port => Sys2Proof.Machine.execTrainingTimeout port s
  | .learnArbiterArrival pipe => Sys2Proof.Machine.execLearnArbiterArrival pipe s
  | .learnWindowExpire key => Sys2Proof.Machine.execLearnWindowExpire key s
  | .learnFreezeEnd key => Sys2Proof.Machine.execLearnFreezeEnd key s
  | .learnWriteback => Sys2Proof.Machine.execLearnWriteback s
  | .ageScan tier first count => Sys2Proof.Machine.execAgeScan tier first count s
  | .learnFlush port first count => Sys2Proof.Machine.execLearnFlush port first count s
  | .tableScrub bad => Sys2Proof.Machine.execTableScrub bad s
  | .recordFencePass kind index => Sys2Proof.Machine.execRecordFencePass kind index s
  | .moveEngineUpdate => Sys2Proof.Machine.execMoveEngineUpdate s
  | .streamResetScan index => Sys2Proof.Machine.execStreamResetScan index s
  | .fillRequestPost => Sys2Proof.Machine.execFillRequestPost s
  | .vaultRecordReturn intact => Sys2Proof.Machine.execVaultRecordReturn intact s
  | .slotValid => Sys2Proof.Machine.execSlotValid s
  | .benchFaultRetry port cls => Sys2Proof.Machine.execBenchFaultRetry port cls s
  | .benchTimeout port cls => Sys2Proof.Machine.execBenchTimeout port cls s
  | .prefetchHoldEnd slot => Sys2Proof.Machine.execPrefetchHoldEnd slot s
  | .trngHealthFail => Sys2Proof.Machine.execTrngHealthFail s
  | .trngHealthPass => Sys2Proof.Machine.execTrngHealthPass s
  | .gmuCopyEntry => Sys2Proof.Machine.execGmuCopyEntry s
  | .streamLost tap => Sys2Proof.Machine.execStreamLost tap s
  | .gmuFinish tap => Sys2Proof.Machine.execGmuFinish tap s
  | .capturePostEnd capture => Sys2Proof.Machine.execCapturePostEnd capture s
  | .pmuCfgSend output => Sys2Proof.Machine.execPmuCfgSend output s
  | .idSettle => Sys2Proof.Machine.execIdSettle s
  | .helloReceive port bytes => Sys2Proof.Machine.execHelloReceive port bytes s
  | .lsaReceive port bytes => Sys2Proof.Machine.execLsaReceive port bytes s
  | .lsaSend => Sys2Proof.Machine.execLsaSend s
  | .lsaAgeOut device => Sys2Proof.Machine.execLsaAgeOut device s
  | .helloMissExpire port => Sys2Proof.Machine.execHelloMissExpire port s
  | .pathsetInstall => Sys2Proof.Machine.execPathsetInstall s
  | .voqSelect => Sys2Proof.Machine.execVoqSelect s
  | .creditSend source => Sys2Proof.Machine.execCreditSend source s
  | .creditReceive port bytes => Sys2Proof.Machine.execCreditReceive port bytes s
  | .anchorArrival pkt => Sys2Proof.Machine.execAnchorArrival pkt s
  | .anchorTimeout source rclass => Sys2Proof.Machine.execAnchorTimeout source rclass s
  | .anchorContextIdle source rclass => Sys2Proof.Machine.execAnchorContextIdle source rclass s
  | .hbmPick pc ecc => Sys2Proof.Machine.execHbmPick pc ecc s
  | .refreshDue pc => Sys2Proof.Machine.execRefreshDue pc s
  | .hbmPowerDown pc => Sys2Proof.Machine.execHbmPowerDown pc s
  | .patrolScrub address ecc => Sys2Proof.Machine.execPatrolScrub address ecc s
  | .chReserve thread channel words => Sys2Proof.Machine.execChReserve thread channel words s
  | .chPut thread channel word => Sys2Proof.Machine.execChPut thread channel word s
  | .chCommit thread channel => Sys2Proof.Machine.execChCommit thread channel s
  | .chRead thread channel => Sys2Proof.Machine.execChRead thread channel s
  | .hwChannelProduce channel words => Sys2Proof.Machine.execHwChannelProduce channel words s
  | .poolAllocate asks => Sys2Proof.Machine.execPoolAllocate asks s
  | .poolStepUp ask => Sys2Proof.Machine.execPoolStepUp ask s
  | .poolRetry ask => Sys2Proof.Machine.execPoolRetry ask s
  | .poolFree pool buffer => Sys2Proof.Machine.execPoolFree pool buffer s
  | .appletViolation core thread pc cause => Sys2Proof.Machine.execAppletViolation core thread pc cause s
  | .requestWindowWrite slot offset bytes => Sys2Proof.Machine.execRequestWindowWrite slot offset bytes s
  | .doorbellRing slot dma => Sys2Proof.Machine.execDoorbellRing slot dma s
  | .mbxRelease slot => Sys2Proof.Machine.execMbxRelease slot s
  | .mbxWrDroppedClear slot => Sys2Proof.Machine.execMbxWrDroppedClear slot s
  | .jobStep session seq => Sys2Proof.Machine.execJobStep session seq s
  | .jobRetentionExpire session seq => Sys2Proof.Machine.execJobRetentionExpire session seq s
  | .sessionConfirmExpire session => Sys2Proof.Machine.execSessionConfirmExpire session s
  | .sessionIdleExpire session => Sys2Proof.Machine.execSessionIdleExpire session s
  | .debugTokenExpire => Sys2Proof.Machine.execDebugTokenExpire s
  | .transferTimeout target => Sys2Proof.Machine.execTransferTimeout target s
  | .sessionDeviceId slot => Sys2Proof.Machine.execSessionDeviceId slot s
  | .sessionOpen slot chain popOk => Sys2Proof.Machine.execSessionOpen slot chain popOk s
  | .sessionClose slot => Sys2Proof.Machine.execSessionClose slot s
  | .sessionPoll slot => Sys2Proof.Machine.execSessionPoll slot s
  | .sessionAbort slot => Sys2Proof.Machine.execSessionAbort slot s
  | .sessionRootProgram slot => Sys2Proof.Machine.execSessionRootProgram slot s
  | .sessionRootRevoke slot => Sys2Proof.Machine.execSessionRootRevoke slot s
  | .cfgSet slot => Sys2Proof.Machine.execCfgSet slot s
  | .cfgGet slot => Sys2Proof.Machine.execCfgGet slot s
  | .cfgRestage slot => Sys2Proof.Machine.execCfgRestage slot s
  | .cfgValidate slot => Sys2Proof.Machine.execCfgValidate slot s
  | .cfgCommit slot => Sys2Proof.Machine.execCfgCommit slot s
  | .cfgConfirm slot => Sys2Proof.Machine.execCfgConfirm slot s
  | .cfgRollback slot => Sys2Proof.Machine.execCfgRollback slot s
  | .cfgRollbackDisable slot => Sys2Proof.Machine.execCfgRollbackDisable slot s
  | .cfgStatus slot => Sys2Proof.Machine.execCfgStatus slot s
  | .timeSetSeconds slot => Sys2Proof.Machine.execTimeSetSeconds slot s
  | .timeRead slot => Sys2Proof.Machine.execTimeRead slot s
  | .tblInsert slot => Sys2Proof.Machine.execTblInsert slot s
  | .tblDelete slot => Sys2Proof.Machine.execTblDelete slot s
  | .tblLookup slot => Sys2Proof.Machine.execTblLookup slot s
  | .tblDump slot => Sys2Proof.Machine.execTblDump slot s
  | .tblFlush slot => Sys2Proof.Machine.execTblFlush slot s
  | .objWrite slot => Sys2Proof.Machine.execObjWrite slot s
  | .objDelete slot => Sys2Proof.Machine.execObjDelete slot s
  | .objRead slot => Sys2Proof.Machine.execObjRead slot s
  | .streamReset slot => Sys2Proof.Machine.execStreamReset slot s
  | .ruleInsert slot => Sys2Proof.Machine.execRuleInsert slot s
  | .ruleDelete slot => Sys2Proof.Machine.execRuleDelete slot s
  | .ruleSetResult slot => Sys2Proof.Machine.execRuleSetResult slot s
  | .ruleRead slot => Sys2Proof.Machine.execRuleRead slot s
  | .pfxInsert slot => Sys2Proof.Machine.execPfxInsert slot s
  | .pfxDelete slot => Sys2Proof.Machine.execPfxDelete slot s
  | .pfxLookup slot => Sys2Proof.Machine.execPfxLookup slot s
  | .portStatus slot => Sys2Proof.Machine.execPortStatus slot s
  | .portPtpTsRead slot => Sys2Proof.Machine.execPortPtpTsRead slot s
  | .gateStage slot => Sys2Proof.Machine.execGateStage slot s
  | .gateRead slot => Sys2Proof.Machine.execGateRead slot s
  | .schedProfileSelect slot => Sys2Proof.Machine.execSchedProfileSelect slot s
  | .keyInstall slot => Sys2Proof.Machine.execKeyInstall slot s
  | .keyRemove slot => Sys2Proof.Machine.execKeyRemove slot s
  | .keyMakeCurrent slot => Sys2Proof.Machine.execKeyMakeCurrent slot s
  | .keyStatus slot => Sys2Proof.Machine.execKeyStatus slot s
  | .gmuRead slot => Sys2Proof.Machine.execGmuRead slot s
  | .gmuTriggerStatus slot => Sys2Proof.Machine.execGmuTriggerStatus slot s
  | .gmuCaptureList slot => Sys2Proof.Machine.execGmuCaptureList slot s
  | .gmuCaptureRead slot => Sys2Proof.Machine.execGmuCaptureRead slot s
  | .gmuCaptureRelease slot => Sys2Proof.Machine.execGmuCaptureRelease slot s
  | .fabStatus slot => Sys2Proof.Machine.execFabStatus slot s
  | .fabLsdbRead slot => Sys2Proof.Machine.execFabLsdbRead slot s
  | .fabPathsetRead slot => Sys2Proof.Machine.execFabPathsetRead slot s
  | .instStatus slot => Sys2Proof.Machine.execInstStatus slot s
  | .instReset slot => Sys2Proof.Machine.execInstReset slot s
  | .instDelete slot => Sys2Proof.Machine.execInstDelete slot s
  | .instFreeze slot => Sys2Proof.Machine.execInstFreeze slot s
  | .instSave slot => Sys2Proof.Machine.execInstSave slot s
  | .instRestore slot sigOk => Sys2Proof.Machine.execInstRestore slot sigOk s
  | .instResume slot => Sys2Proof.Machine.execInstResume slot s
  | .retireMarkerReturn inst gen engine => Sys2Proof.Machine.execRetireMarkerReturn inst gen engine s
  | .faultList slot => Sys2Proof.Machine.execFaultList slot s
  | .faultStatus slot => Sys2Proof.Machine.execFaultStatus slot s
  | .faultAck slot => Sys2Proof.Machine.execFaultAck slot s
  | .faultPolicySet slot => Sys2Proof.Machine.execFaultPolicySet slot s
  | .logRead slot => Sys2Proof.Machine.execLogRead slot s
  | .ctrSelect slot => Sys2Proof.Machine.execCtrSelect slot s
  | .ctrRead slot => Sys2Proof.Machine.execCtrRead slot s
  | .ctrClear slot => Sys2Proof.Machine.execCtrClear slot s
  | .ctrSplitsRead slot => Sys2Proof.Machine.execCtrSplitsRead slot s
  | .ctrStatRead slot => Sys2Proof.Machine.execCtrStatRead slot s
  | .imgFwLoad slot sigOk svn => Sys2Proof.Machine.execImgFwLoad slot sigOk svn s
  | .imgFwActivate slot => Sys2Proof.Machine.execImgFwActivate slot s
  | .imgStrideLoad slot chain sigOk => Sys2Proof.Machine.execImgStrideLoad slot chain sigOk s
  | .imgStrideSwitch slot => Sys2Proof.Machine.execImgStrideSwitch slot s
  | .imgAppletLoad slot chain sigOk => Sys2Proof.Machine.execImgAppletLoad slot chain sigOk s
  | .imgAppletStop slot => Sys2Proof.Machine.execImgAppletStop slot s
  | .imgStatus slot => Sys2Proof.Machine.execImgStatus slot s
  | .strideBankDrained => Sys2Proof.Machine.execStrideBankDrained s
  | .diagDebugUnlock slot => Sys2Proof.Machine.execDiagDebugUnlock slot s
  | .diagDebugEnd slot => Sys2Proof.Machine.execDiagDebugEnd slot s
  | .diagThreadCtl slot => Sys2Proof.Machine.execDiagThreadCtl slot s
  | .diagStrideTrace slot => Sys2Proof.Machine.execDiagStrideTrace slot s
  | .diagLoopback slot => Sys2Proof.Machine.execDiagLoopback slot s
  | .diagReset slot => Sys2Proof.Machine.execDiagReset slot s
  | .commitFencePass => Sys2Proof.Machine.execCommitFencePass s
  | .rollbackFencePass => Sys2Proof.Machine.execRollbackFencePass s
  | .confirmWindowExpire => Sys2Proof.Machine.execConfirmWindowExpire s
  | .lastGoodWrite ok => Sys2Proof.Machine.execLastGoodWrite ok s
  | .lgRefreshExpire => Sys2Proof.Machine.execLgRefreshExpire s
  | .recoveryAttemptComplete source unit => Sys2Proof.Machine.execRecoveryAttemptComplete source unit s
  | .faultConditionClear source unit => Sys2Proof.Machine.execFaultConditionClear source unit s
  | .quietPeriodExpire source unit => Sys2Proof.Machine.execQuietPeriodExpire source unit s
  | .faultIrqClear => Sys2Proof.Machine.execFaultIrqClear s
  | .recorderAccept => Sys2Proof.Machine.execRecorderAccept s
  | .recordStage => Sys2Proof.Machine.execRecordStage s
  | .flashCopy ok => Sys2Proof.Machine.execFlashCopy ok s
  | .hourComplete => Sys2Proof.Machine.execHourComplete s
  | .pfwNAssert => Sys2Proof.Machine.execPfwNAssert s
  | .pfwNDeassert => Sys2Proof.Machine.execPfwNDeassert s
  | .counterLowRead inst counter => Sys2Proof.Machine.execCounterLowRead inst counter s
  | .timeSecondsLoRead => Sys2Proof.Machine.execTimeSecondsLoRead s
  | .pcStatusRead pc => Sys2Proof.Machine.execPcStatusRead pc s
  | .poolStatusRead pool => Sys2Proof.Machine.execPoolStatusRead pool s
  | .puntRxDropsRead inst => Sys2Proof.Machine.execPuntRxDropsRead inst s
  | .gateLateStartClear port mask => Sys2Proof.Machine.execGateLateStartClear port mask s
  | .irqCauseClear inst mask => Sys2Proof.Machine.execIrqCauseClear inst mask s
  | .irqMaskWrite inst value => Sys2Proof.Machine.execIrqMaskWrite inst value s
  | .ringEnable inst ring => Sys2Proof.Machine.execRingEnable inst ring s
  | .ringDisable inst ring => Sys2Proof.Machine.execRingDisable inst ring s
  | .puntRxPostWrite inst index bufs => Sys2Proof.Machine.execPuntRxPostWrite inst index bufs s
  | .puntTxPostWrite inst index descs => Sys2Proof.Machine.execPuntTxPostWrite inst index descs s
  | .gmuRingHeadWrite inst index => Sys2Proof.Machine.execGmuRingHeadWrite inst index s
  | .registerWrite address width value poisoned => Sys2Proof.Machine.execRegisterWrite address width value poisoned s
  | .puntComplete inst => Sys2Proof.Machine.execPuntComplete inst s
  | .injectTake inst => Sys2Proof.Machine.execInjectTake inst s
  | .functionLevelReset => Sys2Proof.Machine.execFunctionLevelReset s
  | .pcieLinkDown => Sys2Proof.Machine.execPcieLinkDown s
  | .resetNAssert => Sys2Proof.Machine.execResetNAssert s
  | .resetNRelease gpio0 => Sys2Proof.Machine.execResetNRelease gpio0 s
  | .supplyMonitorTrip => Sys2Proof.Machine.execSupplyMonitorTrip s
  | .bootStageComplete stage found => Sys2Proof.Machine.execBootStageComplete stage found s
  | .timeSourceValid sample => Sys2Proof.Machine.execTimeSourceValid sample s
  | .sourceLossExpire => Sys2Proof.Machine.execSourceLossExpire s
  | .ppsInEdge => Sys2Proof.Machine.execPpsInEdge s
  | .refclkLoss pair => Sys2Proof.Machine.execRefclkLoss pair s
  | .temperatureCrossing sensor celsius => Sys2Proof.Machine.execTemperatureCrossing sensor celsius s
  | .pmbusStatusWord => Sys2Proof.Machine.execPmbusStatusWord s
  | .pmbusReadTemperature1 => Sys2Proof.Machine.execPmbusReadTemperature1 s
  | .pmbusReadTemperature2 => Sys2Proof.Machine.execPmbusReadTemperature2 s
  | .jtagInstruction op => Sys2Proof.Machine.execJtagInstruction op s
  | .rootProvision hash => Sys2Proof.Machine.execRootProvision hash s
  | .pipeHang pipe => Sys2Proof.Machine.execPipeHang pipe s
  | .meterVisit index => Sys2Proof.Machine.execMeterVisit index s
  | .refreshAheadOfTime pc => Sys2Proof.Machine.execRefreshAheadOfTime pc s
  | .supplyMonitorRelease => Sys2Proof.Machine.execSupplyMonitorRelease s
  | .powerFailFlushEnd => Sys2Proof.Machine.execPowerFailFlushEnd s
  | .reserveEraseEnd => Sys2Proof.Machine.execReserveEraseEnd s

end Sys2Proof.Machine
end

