-- ==== Sys2Proof/Machine/Step.lean ====
section
/-! DEFINITION. One step: the command at the front of the queue, or one nanosecond of idling. -/
namespace Sys2Proof.Machine

/-- The state after nothing is commanded: a nanosecond has passed (the model's choice, entry 3 of the log). -/
def idle (s : State) : State := s.tick

/-- Takes the command at the front of the queue. (DESIGN CHOICE, entry 1.) -/
def step (s : State) : Host.Outcome State Fault Refusal :=
  match s.pending with
  | [] => .next (idle s)
  | c :: rest => exec c { s with pending := rest }

/-- The state with the command a word spells put at the front of its queue: the table spells none. (DESIGN CHOICE, entry 1.) -/
def State.withFetchWord (s : State) (nbits w : Nat) : State :=
  match decodeTableWord nbits w with
  | some c => { s with pending := c :: s.pending }
  | none => s

end Sys2Proof.Machine
end

