-- ==== Sys2Proof/Machine/ReadMap.lean ====
section
/-! DEFINITION. What a host read finds at each address (R391, R482, R489, R509, R511 to R513, R519, R520). No row of the opcode table is a
plain read: the rows are the reads that have an effect. -/
namespace Sys2Proof.Machine

/-- Vendor ID, Device ID and class code of the PCI Express function (R509). -/
def pciFunction : Nat × Nat × Nat := (0x1EA5, 0x5120, 0x028000)

/-- A word of the MSI-X table (R513). (PRESUMED, entry 101.) -/
def State.msixWord (s : State) (v word : Nat) : Nat :=
  let e := s.host.msix.at v
  match word with
  | 0 => e.addr % 2 ^ 32
  | 1 => e.addr / 2 ^ 32
  | 2 => e.data
  | _ => b2n e.masked

/-- A word of the PBA: a bit per vector (R513). -/
def State.pbaWord (s : State) (k : Nat) : Nat := maskOf ((List.range 32).filter (fun b => s.host.pba.at (32 * k + b)))

/-- A 32-bit read of BAR0: 0 at an address that the manual does not name (R512). -/
def State.readBar0 (s : State) (off : Nat) : Nat :=
  let k := fun (base : Nat) => (off - base) / 4
  let at_ := fun (base n : Nat) => decide (base ≤ off) && decide (off < base + 4 * n)
  if off % 4 ≠ 0 then 0
  else if off = 0 then hifId
  else if at_ 0x10000 512 then s.msixWord (k 0x10000 / 4) (k 0x10000 % 4)
  else if at_ 0x10800 4 then s.pbaWord (k 0x10800)
  else if at_ 0x11000 64 then s.host.cause.at (k 0x11000)
  else if at_ 0x11100 64 then s.host.mask.at (k 0x11100)
  else if off = 0x41000 then s.ucodeVersion
  else if off = 0x41004 then s.ucodeDigest
  else if at_ 0x50000 6 then s.timeReg (k 0x50000)
  else if at_ 0x60000 512 then s.gateStatus (k 0x60000)
  else if at_ 0x70000 32 then s.slotStatus (k 0x70000)
  else if at_ 0x80000 128 then s.pcStatus (k 0x80000)
  else if at_ 0x81000 512 then s.trainLane (k 0x81000)
  else if at_ 0x90000 32 then s.threadStatus (k 0x90000)
  else if at_ 0x90400 256 then s.chStatus (k 0x90400)
  else if at_ 0x90800 4 then s.poolStatus (k 0x90800)
  else if at_ 0xA0000 512 then (if k 0xA0000 % 2 = 0 then s.doorbellReg (k 0xA0000 / 2) else s.mbxStatus (k 0xA0000 / 2))
  else if off = 0xB0000 then s.faultSummary
  else if at_ 0xC0000 4 then s.recorderReg (k 0xC0000)
  else if off = 0xD0000 then s.bootStatus
  else 0

/-- A 32-bit read of BAR2 returns the response window of a slot (R391). -/
def State.readBar2 (s : State) (off : Nat) : Nat := leAt (s.mbx.slot.at (off / 4096)).response (off % 4096) 4

/-- A byte of the recorder ring that a record holds. -/
def Recorder.byteAt (q : Recorder) (off : Nat) : Option Byte :=
  (q.ring.find? (fun r => decide (r.off ≤ off) && decide (off < r.off + r.len))).bind (fun r => r.bytes[off - r.off]?)

/-- A word of the recorder window (R482): what lies outside every record is a free value. (DESIGN CHOICE, entry 158.) -/
def State.ringWord (s : State) (off : Nat) : Nat :=
  match (List.range 4).mapM (fun k => s.recd.byteAt (off + k)) with
  | some l => leNat l
  | none => s.freeVal 32

/-- A register of a ring page (R520). -/
def State.readPage (s : State) (i off : Nat) : Nat :=
  let g := s.page i
  let ctl := fun (c : RingCtl) => b2n c.enable * 2 ^ 31 + c.log2
  match off with
  | 0x00 => g.rx.base % 2 ^ 32
  | 0x04 => g.rx.base / 2 ^ 32
  | 0x08 => ctl g.rx
  | 0x0C => g.rxPost.toNat
  | 0x10 => g.rxDone.toNat
  | 0x20 => g.tx.base % 2 ^ 32
  | 0x24 => g.tx.base / 2 ^ 32
  | 0x28 => ctl g.tx
  | 0x2C => g.txPost.toNat
  | 0x30 => g.txDone.toNat
  | 0x40 => g.gmu.base % 2 ^ 32
  | 0x44 => g.gmu.base / 2 ^ 32
  | 0x48 => ctl g.gmu
  | 0x4C => g.gmuHead.toNat
  | 0x50 => g.gmuTail.toNat
  | 0x60 => g.rxDrops.toNat
  | _ => 0

/-- A 32-bit read of BAR4 (R519). -/
def State.readBar4 (s : State) (off : Nat) : Nat :=
  if off < 0x400000 then s.pageWord (off / 65536) (off % 65536)
  else if off < 0x800000 then s.ringWord (off - 0x400000)
  else if off < 0xC00000 then s.readPage ((off - 0x800000) / 65536) (off % 65536)
  else 0

/-- What a read of `width` bytes at an offset of a BAR finds: 0 for a width that the BAR does not take (R512). -/
def State.readAt (s : State) (bar off width : Nat) : Nat :=
  if bar = 0 ∧ width = 4 then s.readBar0 off
  else if bar = 2 ∧ width = 4 then s.readBar2 off
  else if bar = 4 ∧ width = 4 then s.readBar4 off
  else if bar = 4 ∧ width = 8 then s.readBar4 off + 2 ^ 32 * s.readBar4 (off + 4)
  else 0

/-- PPS_OUT is high for 100 ms from each second of device time (R545). -/
def State.ppsHigh (s : State) : Bool := s.time.running && decide (s.time.dev % 1000000000 < 100000000)

end Sys2Proof.Machine
end

