-- ==== Sys2Proof/Safety.lean ====
section
/-! DEFINITION. What the statements speak of: a time unit in order, an accepted request in its slot, a state that differs in named
components only. -/
namespace Sys2Proof.Machine

/-- A time unit in order (R28, R29, R31, R38, R41): its lap rates are accepted ones; while it runs, device time has not passed the next
boundary, which is a whole multiple of the lap length and at most 1.5 lap lengths ahead; no time noted on the monotonic counter lies
ahead of it. -/
structure TimeUnit.inOrder (t : TimeUnit) : Prop where
  rate : lapRateOk t.lapRate = true
  pending : ∀ r, t.pendingRate = some r → lapRateOk r = true
  boundary : t.next % (1000000000 / t.lapRate) = 0
  ahead : t.dev ≤ t.next
  near : 2 * (t.next - t.dev) ≤ 3 * (1000000000 / t.lapRate)
  lap : t.lapAt ≤ t.mono
  valid : t.lastValid ≤ t.mono
  pps : ∀ e, t.ppsAt = some e → e ≤ t.mono

/-- The rows that set the time unit, those that start it anew among them. -/
def timeRow : Instr → Bool
  | .lapBoundary | .resetNAssert | .resetNRelease _ | .supplyMonitorTrip | .supplyMonitorRelease | .powerFailFlushEnd => true
  | .timeSourceValid .. | .sourceLossExpire | .ppsInEdge | .timeSecondsLoRead | .timeSetSeconds _ => true
  | .functionLevelReset | .pcieLinkDown => true
  | _ => false

/-- The state `t`, with the time unit and the queue of `s`: those an effect on the rest leaves alone. -/
def State.keeping (s t : State) : State := { t with time := s.time, pending := s.pending }

/-- The state without what the packet path works on: ports, packets, copies, cells, queues, fabric lists, keys in use, counters,
recorder and outputs. -/
def State.offPath (s : State) : State :=
  { s with port := [], pkt := [], cpy := [], buf := {}, sched := {}, sec := {}, fab := {}, hbm := {}, ctr := {}, recd := {}, out := [] }

/-- Exact-match structures in canonical form: indices strictly rising, no entry equal to an empty one. -/
def Tables.wf (t : Tables) : Prop := ∀ k, k ≤ 3 → Tab.wf (t.store k) = true

/-- A slot holds an accepted request of an opcode that is served now, from a slot of the operator where the opcode is his alone. -/
def State.grants (s : State) (slot op : Nat) (a : Accepted) : Prop :=
  s.acc slot = some a ∧ s.serves slot op a = true ∧ ((opInfo op).any (·.opOnly) = true → slotInst slot = 0)

/-- DONE with status 0 and a result. -/
def State.answers (s : State) (slot : Nat) (a : Accepted) (result : List Byte := []) : State :=
  s.post slot a { rstate := 0, status := 0, result := result }

/-- A job takes a place, and IN_PROGRESS with its number of steps is answered (R413). -/
def State.begins (s : State) (slot : Nat) (a : Accepted) (kind : JobKind) (total : Nat) : State :=
  (s.startJob { session := a.session, seq := a.seq, inst := slotInst slot, op := a.op, kind := kind, total := total
                outAddr := a.outAddr, outLen := a.outLen }).post slot a { rstate := 1, status := 0, stepsTotal := total }

/-- Work that answers DONE if it ends within 2 laps takes a place, and its answer waits (R413, R419). -/
def State.defers (s : State) (slot : Nat) (a : Accepted) (kind : JobKind) (total : Nat) : State :=
  { s with mbx := { s.mbx with jobs := s.mbx.jobs ++ [
    { session := a.session, seq := a.seq, inst := slotInst slot, op := a.op, kind := kind, total := total
      outAddr := a.outAddr, outLen := a.outLen, waits := true, slot := some slot, left := 2 }] } }

end Sys2Proof.Machine
end

