-- ==== Sys2Proof/Certificates/Slice0/Obligations.lean ====
section
/-! DEFINITION. The statements for the provers: what the block's commands do, family by family of the opcode table. -/
open Sys2Proof Sys2Proof.Machine

/-- For every command c and every state s, a step of s with c put at the front of its queue is exec of c on s, whose queue is the rest (the model's form of a block, entry 1 of the log). -/
def Obligations.StepRunsTheFrontCommand : Prop :=
  ∀ (c : Instr) (s : State), step { s with pending := c :: s.pending } = exec c s

/-- The model's choice (entries 3 and 136 of the log): with an empty queue a step answers a next state. While the time unit runs and device time stands before the next boundary, one nanosecond of the core clock passes: the monotonic counter gains it under the frequency correction, none of it beyond the boundary, and exactly 1 ns without a correction; device time does not pass the boundary; and beside the time unit only ports, copies, cells, shapers and performance counters may change. Else nothing changes. -/
def Obligations.IdleStepIsOneNanosecond : Prop :=
  (∀ s : State, s.pending = [] → s.time.running = true → s.time.dev < s.time.next →
    ∃ u p c b q k, step s = .next { s with time := u, port := p, cpy := c, buf := b, sched := q, ctr := k } ∧
      u.mono = s.time.mono + min (s.time.next - s.time.dev) (((1000000000 + s.time.freq).toNat + s.time.mfrac) / 1000000000) ∧
      (s.time.freq = 0 → s.time.mfrac = 0 → u.mono = s.time.mono + 1 ∧ u.mfrac = 0) ∧
      s.time.dev ≤ u.dev ∧ u.dev ≤ s.time.next ∧ u.lapCount = s.time.lapCount ∧ u.next = s.time.next)
  ∧ (∀ s : State, s.pending = [] → s.time.running = false ∨ s.time.next ≤ s.time.dev → step s = .next s)

/-- In every state every command answers a next state with the same queue, but for a private JTAG instruction under a debug token; and only the rows that timeRow names change the time unit. -/
def Obligations.EveryCommandAnswers : Prop :=
  ∀ (c : Instr) (s : State), (∀ op, c = .jtagInstruction (.privateOp op) → s.jtagOpen = false) →
    ∃ t, exec c s = .next t ∧ t.pending = s.pending ∧ (timeRow c = false → t.time = s.time)

/-- Before the first release of RESET_N: TIME.STATE is FREERUN at 0 s with lap rate 4,000 and LAP_COUNT 0; every port is DISABLED; every key slot reads 0; every mailbox slot is IDLE and its windows hold nothing; no session, job or token exists; Standby is EMPTY; no source is in fault; every cause and mask bit is 0; the queue is empty. Memory that flash holds is blank (the model's choice, entry 19 of the log). -/
def Obligations.PowerOnState : Prop :=
  let s := State.reset
  s.time.state = .freerun ∧ s.time.dev = 0 ∧ s.time.lapCount = 0 ∧ s.time.lapRate = 4000 ∧ s.time.running = false
  ∧ (∀ p, (s.prt p).link = .disabled) ∧ (∀ k, s.sec.slot.at k = default)
  ∧ (∀ k, (s.mbx.slot.at k).st = 0 ∧ (s.mbx.slot.at k).request = [] ∧ (s.mbx.slot.at k).response = [])
  ∧ (∀ k, (s.mbx.session.at k).st = 0) ∧ s.mbx.jobs = [] ∧ s.mbx.tokens = []
  ∧ s.cfg.st = .empty ∧ s.cfg.activeGen = 0 ∧ (∀ src, s.inFault src = false)
  ∧ (∀ i, s.host.cause.at i = 0 ∧ s.host.mask.at i = 0) ∧ s.boot.ready = false ∧ s.pending = []

/-- At reset the time unit is in order: an accepted lap rate, and a next boundary that is a multiple of the lap length within 1.5 lap lengths. -/
def Obligations.TimeUnitInOrderAtReset : Prop := State.reset.time.inOrder

/-- From every state whose time unit is in order, every step that answers a next state leaves it in order: the lap rate in force and the one that waits are accepted rates, device time does not pass the next boundary, which is a whole multiple of the lap length at most 1.5 lap lengths ahead, and no noted time lies ahead of the monotonic counter. -/
def Obligations.TimeUnitStaysInOrder : Prop := ∀ s t : State, s.time.inOrder → step s = .next t → t.time.inOrder

/-- TIME.LAP_COUNT, 32 bits wide, increases by exactly 1 (modulo 2³²) at each lap boundary of a running time unit, time step or none, and no other step changes it, unless the step starts the time unit anew or stops it, which leaves it 0. -/
def Obligations.LapCountCountsBoundaries : Prop :=
  (∀ (s : State) rest, s.pending = .lapBoundary :: rest → s.time.running = true →
    ∃ t, step s = .next t ∧ t.time.lapCount = s.time.lapCount + 1)
  ∧ (∀ s t : State, step s = .next t → (∀ rest, s.pending ≠ .lapBoundary :: rest) →
    t.time.lapCount = s.time.lapCount ∨ t.time = { running := t.time.running })

/-- No step lowers the monotonic counter, unless it starts the time unit anew or stops it; a lap boundary advances it by the device time to the boundary less the part slewed, at most SLEW_MAX of that time, whatever time step is pending. -/
def Obligations.MonotonicCounterNeverStepped : Prop :=
  (∀ s t : State, step s = .next t → s.time.mono ≤ t.time.mono ∨ t.time = { running := t.time.running })
  ∧ (∀ s : State, s.time.running = true → s.par P.slewMax ≤ 500 → ∃ t, exec .lapBoundary s = .next t ∧
      let d := s.time.next - s.time.dev
      s.time.mono + d ≤ t.time.mono + d * s.par P.slewMax / 1000000 ∧
      t.time.mono ≤ s.time.mono + d + d * s.par P.slewMax / 1000000)

/-- With the time unit running, TIME_SOURCE not FREERUN and, under PTP, the source at PTP_PORT: a valid source in LOCKED with an offset below STEP_THRESHOLD is slewed and one at or above it waits as a step for the boundary; in FREERUN the offset is always stepped, and the state becomes LOCKED with its recorder entry and with the condition of TIME_SOURCE cleared. With each, the discipline sets a frequency correction of at most SLEW_MAX (a free value, entry 136) and the frequency comes from REFCLK_10M_IN under PPS_10M alone. Under PTP the engine of another port disciplines nothing. In LOCKED with no valid input for SOURCE_LOSS, slewing stops at once, what is left of the offset and the last correction stay, and the state becomes HOLDOVER, its entry written and TIME_SOURCE raised; whether REFCLK_10M_IN is present is a free value. Under PPS_10M an edge of PPS_IN marks the second that TIME.SET_SECONDS named, which no longer waits, and an edge within 0.5 s of the last valid one changes nothing. A read of TIME.SECONDS_LO returns the low 32 bits of the seconds, latches all three fields and changes nothing else. -/
def Obligations.TimeSourcesDisciplineDeviceTime : Prop :=
  (∀ (s : State) (p : Nat) (o : Int), s.time.running = true → s.par P.timeSource ≠ 2 → (s.par P.timeSource = 0 → s.par P.ptpPort = p) →
    s.time.state = .locked → o.natAbs < s.par P.stepThreshold →
    ∃ f : Int, f.natAbs ≤ 1000 * s.par P.slewMax ∧ exec (.timeSourceValid ⟨p, o⟩) s = .next { s with
      time := { s.time with lastValid := s.time.mono, step := none, slew := o, freq := f, ref10 := decide (s.par P.timeSource = 1) }, free := s.free + 1 })
  ∧ (∀ (s : State) (p : Nat) (o : Int), s.time.running = true → s.par P.timeSource ≠ 2 → (s.par P.timeSource = 0 → s.par P.ptpPort = p) →
    s.time.state = .locked → s.par P.stepThreshold ≤ o.natAbs → o ≠ 0 →
    ∃ f : Int, f.natAbs ≤ 1000 * s.par P.slewMax ∧ exec (.timeSourceValid ⟨p, o⟩) s = .next { s with
      time := { s.time with lastValid := s.time.mono, step := some o, slew := 0, freq := f, ref10 := decide (s.par P.timeSource = 1) }, free := s.free + 1 })
  ∧ (∀ (s : State) (p : Nat) (o : Int), s.time.running = true → s.par P.timeSource ≠ 2 → (s.par P.timeSource = 0 → s.par P.ptpPort = p) →
    s.time.state = .freerun → o ≠ 0 →
    ∃ f : Int, f.natAbs ≤ 1000 * s.par P.slewMax ∧ exec (.timeSourceValid ⟨p, o⟩) s = .next
      ((({ s with
        time := { s.time with state := .locked, lastValid := s.time.mono, step := some o, slew := 0, freq := f, ref10 := decide (s.par P.timeSource = 1) }
        free := s.free + 1 }).ruleEvent 37 0 0 [1]).clearCond 187 0))
  ∧ (∀ (s : State) (p : Nat) (o : Int), s.par P.timeSource = 0 → s.par P.ptpPort ≠ p → exec (.timeSourceValid ⟨p, o⟩) s = .next s)
  ∧ (∀ s : State, s.time.state = .locked → s.time.lastValid + 1000000000 * s.par P.sourceLoss ≤ s.time.mono →
    ∃ r, let w : TimeUnit := { s.time with state := .holdover, slew := 0, ref10 := r }
      exec .sourceLossExpire s = .next
        { ((({ s with time := w, gmu := { s.gmu with holdoverAt := s.time.mono } }).ruleEvent 37 0 0 [2]).raise 187 0).drawn with
          time := w, pending := s.pending })
  ∧ (∀ (s : State) (v : Nat), s.time.running = true → s.par P.timeSource = 1 → s.time.ppsAt = none → s.time.state = .locked →
    s.time.setSeconds = some v → (1000000000 * v : Int) - s.time.dev ≠ 0 →
    s.par P.stepThreshold ≤ ((1000000000 * v : Int) - s.time.dev).natAbs →
    ∃ f : Int, f.natAbs ≤ 1000 * s.par P.slewMax ∧ exec .ppsInEdge s = .next { s with
      time := { s.time with ppsAt := some s.time.mono, setSeconds := none, lastValid := s.time.mono,
                            step := some ((1000000000 * v : Int) - s.time.dev), slew := 0, freq := f, ref10 := true }
      free := s.free + 1 })
  ∧ (∀ (s : State) (e : Nat), s.time.ppsAt = some e → s.time.mono < e + 500000000 → exec .ppsInEdge s = .next s)
  ∧ (∀ s : State, exec .timeSecondsLoRead s = .next
      { s.emit (.read (s.time.dev / 1000000000 % 2 ^ 32)) with
        time := { s.time with latch := (s.time.dev / 1000000000, s.time.dev % 1000000000, s.time.frac.toNat) } })

/-- REFCLK_LOSS of a pair raises REFCLK_LOSS[pair]. TEMPERATURE_CROSSING sets the sensor, a die sensor above 105 °C raises source 188, 189 following its own threshold in the same way, and with no sensor above its threshold nothing is raised. Each PMBus command sends one word from address 0x5C, or 0x5D with GPIO0 high at the release of RESET_N: STATUS_WORD of FAULT.SUMMARY and READY, the highest die sensor, the highest stack sensor. JTAG: IDCODE is 0x151204F3; BYPASS connects the bypass register; an instruction of the boundary register connects it, its content a free value; a private instruction is BYPASS without a debug token of SCOPE bit 2 and has no stated effect with one. ROOT_PROVISION programs root entry 0 while every entry is blank and is BYPASS after that. -/
def Obligations.PinsClocksAndTestPort : Prop :=
  (∀ (s : State) (k : Nat), k < 32 → k ∉ s.pins.refLost → s.time.running = true →
    exec (.refclkLoss k) s = .next (s.keeping (({ s with pins := { s.pins with refLost := k :: s.pins.refLost } }).raise (112 + k) 0)))
  ∧ (∀ (s : State) (k : Nat) (c : Int), k < 32 → s.time.running = true →
    (∀ e ∈ s.pins.temp.put k c, e.2 ≤ 105) → (s.funit 188 0).cond = false → (s.funit 189 0).cond = false →
    exec (.temperatureCrossing k c) s = .next { s with pins := { s.pins with temp := s.pins.temp.put k c } })
  ∧ (∀ (s : State) (k : Nat) (c : Int), k < 32 → s.time.running = true → 105 < c →
    exec (.temperatureCrossing k c) s = .next (s.keeping
      ((({ s with pins := { s.pins with temp := s.pins.temp.put k c } }).raise 188 0).follow 189)))
  ∧ (∀ (s : State) (k : Nat) (c : Int), k < 4 → s.time.running = true → c ≤ 85 → (s.funit (168 + k) 0).cond = false →
    exec (.temperatureCrossing (32 + k) c) s = .next { s with hbm := { s.hbm with temp := s.hbm.temp.put k c } })
  ∧ (∀ s : State,
    exec .pmbusStatusWord s = .next (s.emit (.pmbus (if s.pins.gpio0 then 0x5D else 0x5C)
      (b2n (bit s.faultSummary 31) * 2 ^ 15 + bits s.faultSummary 28 3 * 2 ^ 12 + bits s.faultSummary 7 3 * 2 ^ 9 + b2n s.boot.ready * 2 ^ 8)))
    ∧ exec .pmbusReadTemperature1 s = .next (s.emit (.pmbus (if s.pins.gpio0 then 0x5D else 0x5C) (linear11 (hottest s.pins.temp 32))))
    ∧ exec .pmbusReadTemperature2 s = .next (s.emit (.pmbus (if s.pins.gpio0 then 0x5D else 0x5C) (linear11 (hottest s.hbm.temp 4)))))
  ∧ (∀ s : State,
    exec (.jtagInstruction .idcode) s = .next (({ s with pins := { s.pins with jtag := 0 } }).emit (.jtag 0 0x151204F3))
    ∧ exec (.jtagInstruction .bypass) s = .next (({ s with pins := { s.pins with jtag := 1 } }).emit (.jtag 1 0))
    ∧ (∀ k, ∃ v, exec (.jtagInstruction (.boundary k)) s = .next { ({ s with pins := { s.pins with jtag := 2 } }).emit (.jtag 2 v) with free := s.free + 1 })
    ∧ (∀ k, (∀ t ∈ s.mbx.tokens, bit t.scope 2 = false) →
      exec (.jtagInstruction (.privateOp k)) s = exec (.jtagInstruction .bypass) s)
    ∧ (∀ k, (∃ t ∈ s.mbx.tokens, bit t.scope 2 = true) → exec (.jtagInstruction (.privateOp k)) s = .refused .jtagPrivate))
  ∧ (∀ (s : State) (h : List Byte), h.length = 48 → (∀ k < 4, s.mbx.root.at k = {}) →
    exec (.rootProvision h) s = .next (({ s with
      mbx := { s.mbx with root := s.mbx.root.put 0 { hash := some (beNat h) } }, boot := { s.boot with rootsBlank := false }
      pins := { s.pins with jtag := 3 } }).emit (.jtag 3 (beNat h))))
  ∧ (∀ (s : State) (h : List Byte), h.length = 48 → (∃ k < 4, (s.mbx.root.at k).hash.isSome = true) →
    exec (.rootProvision h) s = exec (.jtagInstruction .bypass) s)

/-- RESET_N going low outside a power-fail flush is a cold reset: the time unit stops at 0, every port is DISABLED, the fault unit, sessions, slots, counters, queues and tables are cleared; flash, the root entries and the pins stay, and RESET_CAUSE is 1 unless the reset follows the ramp of the supplies. During a flush the reset waits for its end. RESET_N going high latches GPIO0; with the supplies within range and reference clock pair 0 running, boot begins at stage 1 with the time unit at 0 s in FREERUN and its held level conditions raised. The supply monitor holds the device in cold reset from its trip to its release, which begins a boot when RESET_N is high. When a flush ends, a reset that waited for it begins; else only the flush ends. -/
def Obligations.ResetsHoldAndReleaseTheDevice : Prop :=
  (∀ s : State, s.pins.resetHigh = true → s.recd.flushing = false →
    ∃ t, exec .resetNAssert s = .next t ∧ t.pins = { s.pins with resetHigh := false } ∧ t.time = {} ∧
      t.port = [] ∧ t.pkt = [] ∧ t.cpy = [] ∧ t.fault = {} ∧ t.ctr = {} ∧ t.host = {} ∧ t.tbl = {} ∧ t.sec = {} ∧ t.hbm = {} ∧ t.inst = [] ∧
      t.mbx = { root := s.mbx.root } ∧ t.cfg = { slot0 := s.cfg.slot0, slot1 := s.cfg.slot1 } ∧ t.recd.ring = [] ∧
      t.recd.flash = s.recd.flash ∧ t.recd.reserve = s.recd.reserve ∧ t.boot.stage = 0 ∧ t.boot.ready = false ∧
      t.boot.cause = (if s.boot.powerOn then 0 else 1) ∧ t.boot.hdr0 = s.boot.hdr0 ∧ t.boot.hdr1 = s.boot.hdr1 ∧
      t.boot.per0 = s.boot.per0 ∧ t.boot.per1 = s.boot.per1 ∧ t.boot.svnFloor = s.boot.svnFloor ∧ t.out = s.out)
  ∧ (∀ s : State, s.pins.resetHigh = true → s.recd.flushing = true →
    exec .resetNAssert s = .next { s with pins := { s.pins with resetHigh := false, deferred := true } })
  ∧ (∀ (s : State) (g : Bool), s.pins.resetHigh = false → s.pins.supplyOk = true → 0 ∉ s.pins.refLost → s.pins.deferred = false →
    exec (.resetNRelease g) s = .next { (({ s with
      pins := { s.pins with resetHigh := true, gpio0 := g }, time := { running := true }
      boot := { s.boot with stage := 1, powerOn := false } }).timeless (fun u => u.forEach (187 :: u.heldConds) (fun u k => u.raise k 0))) with
        pending := s.pending })
  ∧ (∀ (s : State) (g : Bool), s.pins.resetHigh = false → s.pins.supplyOk = false ∨ 0 ∈ s.pins.refLost →
    exec (.resetNRelease g) s = .next { s with pins := { s.pins with resetHigh := true, gpio0 := g } })
  ∧ (∀ s : State, s.pins.supplyOk = true → s.recd.flushing = false →
    exec .supplyMonitorTrip s = .next { s.coldReset with
      pins := { s.pins with supplyOk := false, deferred := false }, boot := { s.coldReset.boot with powerOn := false, cause := 1 } })
  ∧ (∀ s : State, s.pins.supplyOk = false → s.pins.resetHigh = false →
    exec .supplyMonitorRelease s = .next { s with pins := { s.pins with supplyOk := true } })
  ∧ (∀ s : State, s.pins.supplyOk = false → s.pins.resetHigh = true → 0 ∉ s.pins.refLost →
    ∃ t, exec .supplyMonitorRelease s = .next t ∧ t.time = { running := true } ∧ t.pending = s.pending)
  ∧ (∀ s : State, s.recd.flushing = true → s.pins.deferred = false →
    exec .powerFailFlushEnd s = .next { s with recd := { s.recd with flushing := false } })
  ∧ (∀ s : State, s.recd.flushing = true → s.pins.deferred = true → s.pins.resetHigh = false →
    exec .powerFailFlushEnd s = .next { (({ s with recd := { s.recd with flushing := false } }).coldReset) with
      pins := { s.pins with deferred := false } })

/-- Stage 1 ends with the OTP read, which says whether every root entry is blank, with the keys of R281 derived and the flash read as the boot header in use says, or halts with cause 3. Stage 2 takes the preferred firmware slot when its image verifies and its version is not below the floor, else the other one as a fallback, else halts with cause 1. Stage 3 only ends. Stage 4 marks every trained pseudo-channel that did not fail, and one that fails halts the boot with cause 2. Stage 7 with no last-good slot whose CMAC holds sets LG_SOURCE to 2 and raises CFG_PERSIST. A stage that is not in progress changes nothing. Which stage is in progress follows the table of R494. -/
def Obligations.BootStagesFollowTheirOrder : Prop :=
  (∀ (b : Boot) (k : Nat), b.running k = true ↔ (b.stage ≠ 0 ∧ b.stage ≠ 15 ∧ b.ready = false ∧ k ∉ b.ended ∧
    ∀ n ∈ ([[], [], [1], [1], [2], [4], [2], [5, 6], [3, 7]] : List (List Nat)).getD k [], n ∈ b.ended))
  ∧ (∀ (s : State) (f : BootInput), s.boot.running 1 = true → f.otpOk = true →
    ∃ t, exec (.bootStageComplete 1 f) s = .next t ∧ t = { s with boot := t.boot, sec := { s.sec with keys := DeviceKeys.of (beBytes 32 (Config.vaultKey 0).toNat) } } ∧
      t.boot.ended = 1 :: s.boot.ended ∧ t.boot.flashRead = s.boot.readMode t.sec.keys.boot ∧
      t.boot.rootsBlank = (List.range 4).all (fun k => (s.mbx.root.at k).hash.isNone && !(s.mbx.root.at k).revoked))
  ∧ (∀ (s : State) (f : BootInput), s.boot.running 1 = true → f.otpOk = false →
    exec (.bootStageComplete 1 f) s = .next { s with boot := { s.boot with stage := 15, halt := 3 } })
  ∧ (∀ (s : State) (f : BootInput), s.boot.running 2 = true → (s.boot.header s.bootKey).slotB = false → f.fwA = true → s.boot.svnFloor ≤ f.svnA →
    ∃ t, exec (.bootStageComplete 2 f) s = .next t ∧ t = { s with boot := t.boot } ∧ t.boot.ended = 2 :: s.boot.ended ∧
      t.boot.fwSlot = false ∧ t.boot.fallback = false)
  ∧ (∀ (s : State) (f : BootInput), s.boot.running 2 = true → (s.boot.header s.bootKey).slotB = false → f.fwA = false → f.fwB = true →
    s.boot.svnFloor ≤ f.svnB →
    ∃ t, exec (.bootStageComplete 2 f) s = .next t ∧ t = { s with boot := t.boot } ∧ t.boot.ended = 2 :: s.boot.ended ∧
      t.boot.fwSlot = true ∧ t.boot.fallback = true)
  ∧ (∀ (s : State) (f : BootInput), s.boot.running 2 = true → f.fwA = false → f.fwB = false →
    exec (.bootStageComplete 2 f) s = .next { s with boot := { s.boot with stage := 15, halt := 1 } })
  ∧ (∀ (s : State) (f : BootInput), s.boot.running 3 = true →
    ∃ t, exec (.bootStageComplete 3 f) s = .next t ∧ t = { s with boot := t.boot } ∧ t.boot.ended = 3 :: s.boot.ended)
  ∧ (∀ (s : State) (f : BootInput), s.boot.running 4 = true → f.failedPcs = [] →
    ∃ t, exec (.bootStageComplete 4 f) s = .next t ∧ t = { s with boot := t.boot, hbm := { s.hbm with pc := t.hbm.pc, lane := t.hbm.lane } } ∧
      t.boot.ended = 4 :: s.boot.ended)
  ∧ (∀ (s : State) (f : BootInput), s.boot.running 7 = true → s.cfg.slot0.good s.sec.keys.lastGood = false →
    s.cfg.slot1.good s.sec.keys.lastGood = false →
    exec (.bootStageComplete 7 f) s = .next (s.keeping ((({ s with boot := { s.boot with lgSource := 2 } }).raise 184 0).endStage 7)))
  ∧ (∀ (s : State) (f : BootInput) (k : Nat), s.boot.running k = false → exec (.bootStageComplete k f) s = .next s)

/-- A raise with no open record opens one with the source's severity, COUNT 1 and the present lap as first and last, and so does one whose record is acknowledged; a GENERAL raise of an open record counts, COUNT saturating at 65,535, and a PROTECTION raise counts and moves the severity up by one, at most to 4. Records of other sources stay. A level source whose condition already holds is not raised again. PIPE_HANG raises source 80 + pipe. -/
def Obligations.RaisesOpenMergeAndEscalateRecords : Prop :=
  (∀ (s : State) (src unit : Nat) (prot : Bool), (s.fsrc src).record = none →
    ((s.record src unit prot).fsrc src).record = some { severity := s.severity src, count := 1, first := s.lap, last := s.lap, acked := false }
    ∧ ∀ k, k ≠ src → (s.record src unit prot).fsrc k = s.fsrc k)
  ∧ (∀ (s : State) (src unit : Nat) (prot : Bool) (r : FaultRec), (s.fsrc src).record = some r → r.acked = true →
    ((s.record src unit prot).fsrc src).record = some { severity := s.severity src, count := 1, first := s.lap, last := s.lap, acked := false })
  ∧ (∀ (s : State) (src unit : Nat) (r : FaultRec), (s.fsrc src).record = some r → r.acked = false →
    ((s.record src unit false).fsrc src).record = some { r with count := if r.count < 65535 then r.count + 1 else r.count, last := s.lap }
    ∧ ((s.record src unit true).fsrc src).record = some { r with
      severity := min 4 (r.severity + 1), count := if r.count < 65535 then r.count + 1 else r.count, last := s.lap })
  ∧ (∀ (s : State) (src unit : Nat) (prot : Bool), (sourceInfo src).level = true → (s.funit src unit).cond = true →
    s.raise src unit prot = s)
  ∧ (∀ (s : State) (p : Nat), p < 16 → exec (.pipeHang p) s = .next (s.keeping (s.raise (80 + p) 0)))

/-- When the quiet period of a unit in fault has run out the unit leaves the fault state, RECOVERIES counts up to 65,535, entry 0x003 is recorded and, with no port to ramp and no other unit of the source in fault, its rung returns to the entry rung, its failures are forgotten and its record closes; before that nothing changes. When the condition of a level source clears, its unit's quiet period of QUIET_LAPS starts. A recovery attempt that completes outside a warm reset on rung 1 is over, and the requests rung while the Pacer was down are checked then. Writing 1 to IRQ_PENDING clears the FAULT cause of instance 0 and changes no other cause. -/
def Obligations.FaultsAreLeftAfterTheirQuietPeriod : Prop :=
  (∀ (s : State) (src unit : Nat), (s.funit src unit).inFault = true → (s.funit src unit).quiet = some 0 → s.unitPorts src unit = [] →
    (s.updUnit src unit (fun u => { u with inFault := false, quiet := none, attempt := false })).inFault src = false →
    ∃ t, exec (.quietPeriodExpire src unit) s = .next t ∧ t = { s with fault := t.fault, recd := t.recd } ∧
      (t.funit src unit).inFault = false ∧ (t.funit src unit).attempt = false ∧ (t.funit src unit).quiet = none ∧
      (t.fsrc src).recoveries.toNat = min 65535 ((s.fsrc src).recoveries.toNat + 1) ∧
      (t.fsrc src).rung = none ∧ (t.fsrc src).fails = [] ∧ (t.fsrc src).record = none ∧ (t.fsrc src).closed = (s.fsrc src).record)
  ∧ (∀ (s : State) (src unit : Nat), (s.funit src unit).inFault = false ∨ (s.funit src unit).quiet ≠ some 0 →
    exec (.quietPeriodExpire src unit) s = .next s)
  ∧ (∀ (s : State) (src unit : Nat), s.condSeen src unit = false → src < 112 ∨ 144 ≤ src → src ≠ 186 →
    (s.funit src unit).cond = true → (s.funit src unit).inFault = true →
    exec (.faultConditionClear src unit) s =
      .next (s.updUnit src unit (fun u => { u with cond := false, quiet := some (s.par P.quietLaps) })))
  ∧ (∀ (s : State) (src unit : Nat), s.condSeen src unit = true → exec (.faultConditionClear src unit) s = .next s)
  ∧ (∀ (s : State) (src unit : Nat), s.fault.warm = false → s.rung src = 1 → 16 ≤ src ∨ s.condSeen src unit = false →
    (s.funit src unit).attempt = true →
    exec (.recoveryAttemptComplete src unit) s = .next (s.keeping ((s.updUnit src unit (fun u => { u with attempt := false })).serveRings))
    ∧ (s.pacer.down = true ∨ s.mbx.rung = [] →
      exec (.recoveryAttemptComplete src unit) s = .next (s.updUnit src unit (fun u => { u with attempt := false }))))
  ∧ (∀ (s : State) (src unit : Nat), s.fault.warm = true → exec (.recoveryAttemptComplete src unit) s = .next s)
  ∧ (∀ s : State, exec .faultIrqClear s =
    .next (s.setIrq 0 (if bit (s.host.cause.at 0) 1 then s.host.cause.at 0 - 2 else s.host.cause.at 0) (s.host.mask.at 0)))
  ∧ (∀ (s : State) (c m : Nat), (s.setIrq 0 c m).host.cause.at 0 = c ∧ ∀ i, i ≠ 0 → (s.setIrq 0 c m).host.cause.at i = s.host.cause.at i)

/-- An event enters the input queue whole while records are accepted and it fits in 256 records, and counts as dropped otherwise. RECORDER_ACCEPT writes the oldest event of the queue as the next record, or what was dropped as a RECORDER_DROPPED record before it; an event identical to the last record, neither staged nor full, merges into it. A record placed takes the next SEQ, counted from LAST_SEQ modulo 2³². RECORD_STAGE marks the oldest record not yet staged and requests its write to HBM. FLASH_COPY, when due and verified, moves the staged records to flash, and one that fails raises RECORDER_FLASH. HOUR_COMPLETE adds one to OP_HOURS and stores it in the persistent record that is then in use. PFW_N going low raises PFW and stops the recorder; PFW_N going high lets records in again and clears the condition. The erase of a reserve that held a flush merges it into flash and makes the reserve ready. -/
def Obligations.EventsReachTheRingAndFlash : Prop :=
  (∀ (s : State) (typ : Nat) (keys items : List Nat) (i : Nat),
    (s.recd.accepting = true ∧ (s.recd.queue.map Event.parts).sum + (s.event typ keys items i).parts ≤ 256 →
      s.log typ keys items i = { s with recd := { s.recd with queue := s.recd.queue ++ [s.event typ keys items i] } })
    ∧ (s.recd.accepting = false ∨ 256 < (s.recd.queue.map Event.parts).sum + (s.event typ keys items i).parts →
      s.log typ keys items i = { s with recd := { s.recd with dropped := s.recd.dropped + (s.event typ keys items i).parts } }))
  ∧ (∀ (s : State) (e : Event) (rest : List Event), s.recd.accepting = true → s.restored = true → s.recd.dropped = 0 →
    s.recd.queue = e :: rest →
    exec .recorderAccept s = .next { s with recd := Recorder.enter { s.recd with queue := rest } e })
  ∧ (∀ s : State, s.recd.accepting = true → s.restored = true → s.recd.dropped ≠ 0 →
    exec .recorderAccept s = .next { s with recd := { s.recd.enter (s.event 0x051 [] [s.recd.dropped]) with dropped := 0 } })
  ∧ (∀ (q : Recorder) (e : Event) (l : List Rec) (r : Rec), q.ring = l ++ [r] → r.ev.typ = e.typ → r.ev.inst = e.inst → r.ev.keys = e.keys →
    r.staged = false → r.run = false → r.rep < 0xFFFF → e.typ ≠ 0 → e.parts = 1 → r.ev.items.length = e.items.length →
    q.enter e = { q with ring := l ++ [{ r with rep := r.rep + 1, ev := { r.ev with lap := e.lap, items := e.items } }] })
  ∧ (∀ (q : Recorder) (e : Event), q.ring = [] → e.parts = 1 → (q.enter e).lastSeq = (q.lastSeq + 1) % 2 ^ 32)
  ∧ (∀ (s : State) (r : Rec) (l : List Rec), s.recd.ring = r :: l → r.ev.typ ≠ 0 → r.staged = false → recBytes s.recd.staging + r.len ≤ stagingBytes →
    ∃ t, exec .recordStage s = .next t ∧ t = { s with recd := { s.recd with ring := t.recd.ring, staging := s.recd.staging ++ [{ r with staged := true }] }, hbm := t.hbm } ∧
      t.recd.ring = s.recd.ring.map (fun x => if x.ev.typ ≠ 0 ∧ x.seq = r.seq then { r with staged := true } else x) ∧
      t.hbm = (s.hbmSpan 8 (hbmRecorder + r.off) r.len true 0).hbm)
  ∧ (∀ s : State, s.recd.copyAt ≤ s.time.mono → s.recd.accepting = true → s.recd.reserveReady = true →
    exec (.flashCopy true) s = .next { s with recd := { ({ s.recd with copyAt := s.time.mono + 1000000000 * s.par P.flashCopyS } : Recorder).toFlash s.recd.staging with staging := [] } }
    ∧ exec (.flashCopy false) s = .next (s.keeping (({ s with recd := { s.recd with copyAt := s.time.mono + 1000000000 * s.par P.flashCopyS } }).raise 185 0)))
  ∧ (∀ s : State, 3600000000000 + s.recd.hourStart ≤ s.time.mono →
    ∃ t, exec .hourComplete s = .next t ∧ t = { s with recd := { s.recd with opHours := s.recd.opHours + 1, hourStart := 3600000000000 + s.recd.hourStart }, boot := t.boot } ∧
      (t.boot.persist s.bootKey).hours = (s.recd.opHours + 1).toNat)
  ∧ (∀ s : State, s.pins.pfwLow = false → s.time.running = true → s.restored = true →
    exec .pfwNAssert s = .next (s.keeping ((({ s with pins := { s.pins with pfwLow := true } }).raise 190 0).powerFailFlush)))
  ∧ (∀ s : State, s.recd.accepting = true → s.powerFailFlush.recd.accepting = false)
  ∧ (∀ s : State, s.pins.pfwLow = true →
    exec .pfwNDeassert s = .next (({ s with pins := { s.pins with pfwLow := false }, recd := { s.recd with accepting := !s.fault.pwrCycleReq } }).clearCond 190 0))
  ∧ (∀ s : State, s.pins.pfwLow = false → s.recd.flushing = false → s.recd.reserveReady = false → s.recd.accepting = true →
    ∃ t, exec .reserveEraseEnd s = .next t ∧ t = { s with recd := t.recd } ∧ t.recd.reserve = [] ∧ t.recd.reserveReady = true ∧ t.recd.ring = s.recd.ring)

/-- COUNTER_LOW_READ of a counter of an open page returns the low 32 bits of its value with its sticky bit above bit 47, and latches the high word; of any other offset it returns 0. PC_STATUS_READ returns the PC's state, refresh debt, HOT and REF_SPLITS and clears REF_SPLITS. POOL_STATUS_READ returns the free and least free counts and restarts MIN_FREE. PUNT_RX_DROPS_READ returns PUNT.RX_DROPS and clears it. Nothing else changes. -/
def Obligations.HostReadsWithAnEffect : Prop :=
  (∀ (s : State) (i n : Nat), s.parOn P.counterUserRead i = true → n < s.par P.instCtrCount i →
    let w := (s.ctr.ctr.at (s.par P.instCtrBase i + n)).value.toNat + 2 ^ 48 * b2n (s.ctr.ctr.at (s.par P.instCtrBase i + n)).sticky
    exec (.counterLowRead i n) s = .next (({ s with ctr := { s.ctr with latch := s.ctr.latch.put (2048 * i + n) (bits w 32 32 + 1) } }).emit (.read (bits w 0 32))))
  ∧ (∀ (s : State) (i n : Nat), s.parOn P.counterUserRead i = false ∨ s.par P.instCtrCount i ≤ n →
    exec (.counterLowRead i n) s = .next (s.emit (.read 0)))
  ∧ (∀ (s : State) (pc : Nat), exec (.pcStatusRead pc) s = .next ((s.emit (.read
      ((s.hpc pc).st * 2 ^ 30 + (s.hpc pc).debt * 2 ^ 27 + b2n (s.hpc pc).hot * 2 ^ 26 + (s.hpc pc).splits.toNat))).updPc pc (fun c => { c with splits := 0 })))
  ∧ (∀ (s : State) (p : Nat), p < 4 → s.pacer.thread ≠ [] →
    exec (.poolStatusRead p) s = .next { (s.emit (.read
      ((poolBuffers p - (s.pacer.pool.at p).owner.length) * 2 ^ 17 + (poolBuffers p - (s.pacer.pool.at p).maxTaken) * 4))) with
      pacer := { s.pacer with pool := s.pacer.pool.upd p (fun q => { q with maxTaken := q.owner.length }) } })
  ∧ (∀ (s : State) (i : Nat), i < 64 →
    exec (.puntRxDropsRead i) s = .next ((s.emit (.read (s.page i).rxDrops.toNat)).updPage i (fun g => { g with rxDrops := 0 })))

/-- A new cause and mask of an instance are stored, no other instance's change, and a vector whose unmasked causes go from none to some sends one message, or sets its pending bit while the vector or the whole function is masked. IRQ_CAUSE_CLEAR clears the bits written as 1, PUNT and GMU_REPORT being set again while their ring owes an entry; IRQ_MASK_WRITE stores the five mask bits. GATE_LATE_START_CLEAR clears each LATE_START bit written as 1 and no gate list changes. -/
def Obligations.InterruptCausesAndMasks : Prop :=
  (∀ (s : State) (i c m : Nat), (s.setIrq i c m).host.cause = s.host.cause.put i c ∧ (s.setIrq i c m).host.mask = s.host.mask.put i m)
  ∧ (∀ (s : State) (i c m : Nat), irqLine c m 0 = true → irqLine (s.host.cause.at i) (s.host.mask.at i) 0 = false → irqLine c m 1 = false →
    (s.host.msix.at (2 * i)).masked = false → s.host.funcMask = false → s.host.linkUp = true →
    (s.setIrq i c m).out = .msix (2 * i) (s.host.msix.at (2 * i)).addr (s.host.msix.at (2 * i)).data :: s.out)
  ∧ (∀ (s : State) (i c m : Nat), irqLine c m 0 = true → irqLine (s.host.cause.at i) (s.host.mask.at i) 0 = false → irqLine c m 1 = false →
    (s.host.msix.at (2 * i)).masked = true ∨ s.host.funcMask = true → (s.setIrq i c m).out = s.out ∧ (s.setIrq i c m).host.pba.at (2 * i) = true)
  ∧ (∀ (s : State) (i c m : Nat), (irqLine c m 0 = true → irqLine (s.host.cause.at i) (s.host.mask.at i) 0 = true) →
    (irqLine c m 1 = true → irqLine (s.host.cause.at i) (s.host.mask.at i) 1 = true) → (s.setIrq i c m).out = s.out)
  ∧ (∀ (s : State) (i m : Nat), i < 64 → bit m 3 = false ∨ (s.page i).puntOwed = false → bit m 4 = false ∨ (s.page i).reportOwed = false →
    exec (.irqCauseClear i m) s = .next (s.setIrq i (maskOf ((onesOf 5 (s.host.cause.at i)).filter (fun b => !bit m b))) (s.host.mask.at i)))
  ∧ (∀ (s : State) (i v : Nat), i < 64 → exec (.irqMaskWrite i v) s = .next (s.setIrq i (s.host.cause.at i) (v % 32)))
  ∧ (∀ (s : State) (p m : Nat), p < 512 →
    ∃ t, exec (.gateLateStartClear p m) s = .next t ∧ t = { s with sched := { s.sched with profile := t.sched.profile } } ∧
      (∀ k, k < 4 → (t.gateProfile p k).late = ((s.gateProfile p k).late && !bit m k) ∧ (t.gateProfile p k).oper = (s.gateProfile p k).oper) ∧
      (∀ x, x / 4 ≠ p → t.sched.profile.at x = s.sched.profile.at x))

/-- Enabling a ring clears its two indices and sets its ENABLE; disabling a ring with nothing assigned clears ENABLE alone. A write of PUNT.RX_POST or PUNT.TX_POST that leaves at most 2^LOG2_SIZE entries posted is taken with its buffers or descriptors, and one that would leave more is ignored, as is a GMU.RING_HEAD that would leave more entries than the ring has. PUNT_COMPLETE waits for the frame's tail and verdict; the data of a frame that has arrived go to the buffer of its entry, once; INJECT_TAKE with nothing posted does nothing. -/
def Obligations.RingsComeIntoServiceAndAdvance : Prop :=
  (∀ (s : State) (i : Nat), i < 64 → (s.page i).rx.enable = false →
    exec (.ringEnable i 0) s = .next (s.updPage i (fun g => { g with rxPost := 0, rxDone := 0, rxAny := false, bufs := [], rx := { g.rx with enable := true } })))
  ∧ (∀ (s : State) (i : Nat), i < 64 → (s.page i).tx.enable = false →
    exec (.ringEnable i 1) s = .next (s.updPage i (fun g => { g with txPost := 0, txDone := 0, descs := [], tx := { g.tx with enable := true } })))
  ∧ (∀ (s : State) (i : Nat), i < 64 → (s.page i).gmu.enable = false →
    exec (.ringEnable i 2) s = .next (s.updPage i (fun g => { g with gmuHead := 0, gmuTail := 0, gmuSeq := 0, gmu := { g.gmu with enable := true } })))
  ∧ (∀ (s : State) (i : Nat), i < 64 → (s.page i).rx.enable = true → (s.page i).assigned = [] →
    exec (.ringDisable i 0) s = .next (s.updPage i (fun g => { g with rx := { g.rx with enable := false } })))
  ∧ (∀ (s : State) (i n : Nat) (l : List PuntBuf), i < 64 → (BitVec.ofNat 16 n - (s.page i).rxDone).toNat ≤ 2 ^ (s.page i).rx.log2 →
    ∃ t, exec (.puntRxPostWrite i n l) s = .next t ∧ (t.page i).rxPost = BitVec.ofNat 16 n ∧ (t.page i).rxDone = (s.page i).rxDone ∧ t = { s with host := { s.host with page := t.host.page } })
  ∧ (∀ (s : State) (i n : Nat) (l : List PuntBuf), 2 ^ (s.page i).rx.log2 < (BitVec.ofNat 16 n - (s.page i).rxDone).toNat →
    exec (.puntRxPostWrite i n l) s = .next s)
  ∧ (∀ (s : State) (i n : Nat) (l : List InjectDesc), i < 64 → (BitVec.ofNat 16 n - (s.page i).txDone).toNat ≤ 2 ^ (s.page i).tx.log2 →
    ∃ t, exec (.puntTxPostWrite i n l) s = .next t ∧ (t.page i).txPost = BitVec.ofNat 16 n ∧ (t.page i).txDone = (s.page i).txDone ∧ t = { s with host := { s.host with page := t.host.page } })
  ∧ (∀ (s : State) (i n : Nat), i < 64 → ((s.page i).gmuTail - BitVec.ofNat 16 n).toNat ≤ 2 ^ (s.page i).gmu.log2 →
    exec (.gmuRingHeadWrite i n) s = .next (s.updPage i (fun g => { g with gmuHead := BitVec.ofNat 16 n })))
  ∧ (∀ (s : State) (i n : Nat), 2 ^ (s.page i).gmu.log2 < ((s.page i).gmuTail - BitVec.ofNat 16 n).toNat → exec (.gmuRingHeadWrite i n) s = .next s)
  ∧ (∀ (s : State) (i : Nat) (e : PuntEntry) (l : List PuntEntry), (s.page i).assigned = e :: l → (s.page i).rx.enable = true →
    ((s.pkt.at e.pkt).final = false → exec (.puntComplete i) s = .next s)
    ∧ ((s.pkt.at e.pkt).final = true → e.gen = s.instGen i → s.host.linkUp = true → (s.pkt.at e.pkt).authCause = 0 →
      exec (.puntComplete i) s = .next (s.keeping ((((((s.issueData e.pkt).dmaWrite
        ((s.page i).rx.base + 32 * ((s.page i).rxDone.toNat % 2 ^ (s.page i).rx.log2) + 10) (s.puntDesc e)).poolRelease e.hold.1 e.hold.2).updPage i
          (fun g => { g with rxDone := g.rxDone + 1, rxAny := true, assigned := g.assigned.drop 1 })).cause i 3).reap e.pkt))))
  ∧ (∀ (s : State) (i : Nat) (g : RingPage) (e : PuntEntry), s.host.page = [(i, g)] → g.assigned = [e] → (s.pkt.at e.pkt).ended = true →
    s.issueData e.pkt = if e.issued then s else
      { (s.dmaWrite e.buf.addr ((s.frameBytes (s.pkt.at e.pkt)).take e.buf.len)) with
        host := { s.host with page := [(i, { g with assigned := [{ e with issued := true }] })] } })
  ∧ (∀ (s : State) (n : Nat), (s.pkt.at n).ended = false → s.issueData n = s)
  ∧ (∀ (s : State) (i : Nat), (s.page i).tx.enable = false ∨ (s.page i).txDone = (s.page i).txPost → exec (.injectTake i) s = .next s)
  ∧ (∀ (s : State) (i : Nat) (d : InjectDesc) (l : List (Nat × InjectDesc)), (s.page i).tx.enable = true → (s.page i).txDone ≠ (s.page i).txPost →
    (s.page i).descs = ((s.page i).txDone.toNat, d) :: l → d.port < 512 → s.portInst d.port = i → d.gen ≠ s.instGen i →
    ∃ t, exec (.injectTake i) s = .next t ∧ (t.page i).txDone = (s.page i).txDone + 1 ∧ t.pkt = s.pkt ∧ t.cpy = s.cpy ∧
      t.statVal Stat.falseStartDiscards (6 * i) = min (2 ^ 64 - 1) (s.statVal Stat.falseStartDiscards (6 * i) + 1))

/-- A poisoned register write, one that is not 4 bytes wide and aligned or 8 bytes in BAR4, and one to an address the manual does not name change nothing; one to HIF.IRQ_MASK or HIF.IRQ_CAUSE of an instance acts as its own row does. A Function Level Reset stops every ring, returns every cause, mask and ring register to reset and keeps the link's state; with no ring page in use and no mailbox slot busy it changes nothing else. PCIE_LINK_DOWN does the same and marks the link down, and while it is down does nothing. -/
def Obligations.RegisterWritesAndHostResets : Prop :=
  (∀ (s : State) (a w v : Nat), exec (.registerWrite a w v true) s = .next s)
  ∧ (∀ (s : State) (a w v : Nat), w ≠ 4 → w ≠ 8 → exec (.registerWrite a w v false) s = .next s)
  ∧ (∀ (s : State) (a v : Nat), a % 4 ≠ 0 → exec (.registerWrite a 4 v false) s = .next s)
  ∧ (∀ (s : State) (i v : Nat), i < 64 → v < 2 ^ 32 →
    exec (.registerWrite (0x11000 + 4 * i) 4 v false) s = exec (.irqCauseClear i v) s
    ∧ exec (.registerWrite (0x11100 + 4 * i) 4 v false) s = exec (.irqMaskWrite i v) s)
  ∧ (∀ s : State, ∃ t, exec .functionLevelReset s = .next t ∧
      t.host = { tokens := s.host.tokens, tokensAt := s.host.tokensAt, linkUp := s.host.linkUp } ∧ t.time = { s.time with latch := (0, 0, 0) })
  ∧ (∀ s : State, s.host.page = [] → s.mbx.slot = [] → exec .functionLevelReset s = .next { s with
      host := { tokens := s.host.tokens, tokensAt := s.host.tokensAt, linkUp := s.host.linkUp }, time := { s.time with latch := (0, 0, 0) } })
  ∧ (∀ s : State, s.host.linkUp = true → ∃ t, exec .pcieLinkDown s = .next t ∧ t.time = { s.time with latch := (0, 0, 0) } ∧
      t = { (({ s.hostReset with host := { s.hostReset.host with linkUp := false } }).raise 186 0) with time := s.hostReset.time, pending := s.pending })
  ∧ (∀ s : State, s.host.linkUp = false → exec .pcieLinkDown s = .next s)

/-- Of an UP port, for MAC Control frames to 01-80-C2-00-00-01: a PAUSE frame restarts the port's pause timer, and a PFC frame the timer of each enabled priority, to QUANTA quanta of 512 bit times from now, or to 0 for quanta 0; a PFC priority that no class maps to is counted in PFC_UNMAPPED; a frame of the format that FLOW_CTRL does not select, or to another destination, changes nothing. A timer that has run out is cleared. A priority held in XOFF whose half quanta have elapsed sends XOFF again and restarts. A verify mPacket that is due is sent and counted, and a response before it lets preemption start. Corrected symbols are counted; below FEC_DEGRADE nothing else happens, and at the crossing one event and one raise follow. -/
def Obligations.FlowControlAndVerify : Prop :=
  (∀ (s : State) (p : Nat) (b : List Byte), s.isUp p = true → s.par P.flowCtrl p = 1 → beAt b 0 6 = 0x0180C2000001 → beAt b 12 2 = 0x8808 →
    beAt b 14 2 = 0x0001 →
    exec (.macControlReceive p b) s = .next (s.updPort p (fun q => { q with
      pause := q.pause.put 8 (if beAt b 16 2 = 0 then 0 else s.time.mono + beAt b 16 2 * 512 / s.cfg.active.rate p) })))
  ∧ (∀ (s : State) (p : Nat) (b : List Byte), s.isUp p = true → s.par P.flowCtrl p = 2 → beAt b 0 6 = 0x0180C2000001 → beAt b 12 2 = 0x8808 →
    beAt b 14 2 = 0x0101 →
    ∃ t, exec (.macControlReceive p b) s = .next t ∧ t = { s with port := t.port, ctr := t.ctr } ∧
      (∀ k, k < 8 → (bit (beAt b 16 2) k = true ∧ s.pfcMapped p k = true →
          (t.prt p).pause.at k = if beAt b (18 + 2 * k) 2 = 0 then 0 else s.time.mono + beAt b (18 + 2 * k) 2 * 512 / s.cfg.active.rate p)
        ∧ (bit (beAt b 16 2) k = false ∨ s.pfcMapped p k = false → (t.prt p).pause.at k = (s.prt p).pause.at k)))
  ∧ (∀ (s : State) (p k q : Nat), s.pfcMapped p k = false → s.pfcReceived p k q = s.count Stat.pfcUnmapped)
  ∧ (∀ (s : State) (p : Nat) (b : List Byte), s.isUp p = false ∨ s.par P.flowCtrl p = 0 → exec (.macControlReceive p b) s = .next s)
  ∧ (∀ (s : State) (p : Nat) (b : List Byte), s.par P.flowCtrl p = 2 → beAt b 14 2 = 0x0001 → exec (.macControlReceive p b) s = .next s)
  ∧ (∀ (s : State) (p : Nat) (b : List Byte), beAt b 0 6 ≠ 0x0180C2000001 → exec (.macControlReceive p b) s = .next s)
  ∧ (∀ (s : State) (p k : Nat), (s.prt p).pause.at k ≤ s.time.mono →
    exec (.pauseTimerExpire p k) s = .next (s.updPort p (fun q => { q with pause := q.pause.put k 0 })))
  ∧ (∀ (s : State) (p k : Nat), s.isUp p = true → bit (s.prt p).xoff k = true → (s.prt p).resend.at k ≤ s.time.mono →
    exec (.xoffResend p k) s = .next ((s.updPort p (fun q => { q with
      resend := q.resend.put k (s.time.mono + s.quantaNs p (s.par P.pfcQuanta p) / 2) })).sendPause p k (s.par P.pfcQuanta p)))
  ∧ (∀ (s : State) (p : Nat), s.verifying p = true → (s.prt p).verifyAt ≤ s.time.mono → (s.prt p).attempts ≠ 3 →
    exec (.verifySend p) s = .next ((s.updPort p (fun q => { q with
      attempts := min 4 ((s.prt p).attempts + 1), verifyAt := s.time.mono + 1000000 * s.par P.verifyTime p })).emit (.verify p)))
  ∧ (∀ (s : State) (p : Nat), s.verifying p = true → 0 < (s.prt p).attempts →
    exec (.verifyResponse p) s = .next (s.updPort p (fun q => { q with verified := true })))
  ∧ (∀ (s : State) (p n : Nat), (s.prt p).fecLap + n < s.par P.fecDegrade p ∨ s.par P.fecDegrade p ≤ (s.prt p).fecLap →
    exec (.fecDegradeEvent p n) s = .next (s.updPort p (fun q => { q with
      fecCorrected := (s.prt p).fecCorrected + BitVec.ofNat 64 n, fecLap := (s.prt p).fecLap + n })))
  ∧ (∀ (s : State) (p n : Nat), (s.prt p).fecLap < s.par P.fecDegrade p → s.par P.fecDegrade p ≤ (s.prt p).fecLap + n →
    exec (.fecDegradeEvent p n) s = .next (s.keeping (((s.updPort p (fun q => { q with
      fecCorrected := (s.prt p).fecCorrected + BitVec.ofNat 64 n, fecLap := (s.prt p).fecLap + n })).ruleEvent 58 p 0).raise (16 + p / 32) (p % 32))))

/-- All locks in ACQUIRE start UP_DEBOUNCE and the port is UP_PENDING; in UP they end LOSS_FILTER. A lock lost in ACQUIRE is noted; in UP_PENDING it returns the port to ACQUIRE, where it negotiates and trains again, and counts in LINK_FLAPS; in UP it starts LOSS_FILTER and loses the frames the port sends and receives, while a remote fault starts it without losing a frame. A port that negotiates advertises its speed, its lane rate and FEC_MODE with AN_ENABLE, nothing without it, and with TRAIN_ENABLE gives training 500 ms. The end of UP_DEBOUNCE raises the port, completes the attempt on its LINK_FAULT unit and clears the condition; the end of LOSS_FILTER drops the link, sends remote fault and raises LINK_FAULT. The end of HOLD flushes the port's queues. A failed negotiation is recorded; training past 500 ms restarts. In DISABLED the lock rows change nothing. -/
def Obligations.LinkStateFollowsItsLocks : Prop :=
  (∀ (s : State) (p : Nat), (s.prt p).link = .acquire → exec (.portAllLocks p) s = .next (s.updPort p (fun q => { q with
    link := .upPending, locks := 2 ^ s.cfg.active.lanes p - 1, remote := false, train := none, debounce := s.time.mono + s.par P.upDebounce p * 1000 })))
  ∧ (∀ (s : State) (p : Nat), (s.prt p).link = .up →
    exec (.portAllLocks p) s = .next (s.updPort p (fun q => { q with locks := 2 ^ s.cfg.active.lanes p - 1, remote := false, loss := none })))
  ∧ (∀ (s : State) (p l : Nat) (r : Bool), (s.prt p).link = .acquire → exec (.portLockLoss p l r) s = .next (s.updPort p (fun q => { q with
    locks := if r then q.locks else q.locks &&& (255 - 2 ^ l), remote := q.remote || r })))
  ∧ (∀ (s : State) (p l : Nat) (r : Bool), (s.prt p).link = .upPending →
    exec (.portLockLoss p l r) s = .next (((s.updPort p (fun q => { q with
      locks := if r then q.locks else q.locks &&& (255 - 2 ^ l), remote := q.remote || r, flaps := q.flaps + 1 })).updPort p (fun q => { q with
      link := .acquire
      train := if s.parOn P.trainEnable p then some (500000000 + s.time.mono) else none
      advert := if s.parOn P.anEnable p then some (s.par P.portSpeed p, s.par P.laneRate p, s.par P.fecMode p) else none })).count Stat.linkFlaps p))
  ∧ (∀ (s : State) (p l : Nat), (s.prt p).link = .up → exec (.portLockLoss p l true) s = .next (s.updPort p (fun q => { q with
    remote := true, loss := some (q.loss.getD (s.time.mono + s.par P.lossFilter p * 1000)) })))
  ∧ (∀ (s : State) (p l : Nat), (s.prt p).link = .up → ∃ t, exec (.portLockLoss p l false) s = .next t ∧ t.offPath = s.offPath ∧
      t = ((s.loseFrames p).cutFrames p).updPort p (fun q => { q with
        locks := q.locks &&& (255 - 2 ^ l), loss := some (q.loss.getD (s.time.mono + s.par P.lossFilter p * 1000)) }))
  ∧ (∀ (s : State) (p : Nat), (s.prt p).link = .upPending → (s.prt p).debounce ≤ s.time.mono →
    exec (.upDebounceExpire p) s = .next (s.keeping (((s.raisePort p).completeAttempt (p / 32) (p % 32)).clearCond (p / 32) (p % 32))))
  ∧ (∀ (s : State) (p : Nat), ((s.raisePort p).prt p).link = .up ∧ ((s.raisePort p).prt p).hold = none ∧ ((s.raisePort p).prt p).pause = [] ∧
    ((s.raisePort p).prt p).beenUp = true ∧ ((s.raisePort p).prt p).verified = !s.parOn P.verifyEnable p)
  ∧ (∀ (s : State) (p e : Nat), (s.prt p).link = .up → (s.prt p).loss = some e → e ≤ s.time.mono →
    exec (.lossFilterExpire p) s = .next (s.keeping (((s.dropLink p).emit (.remoteFault p)).raise (p / 32) (p % 32))))
  ∧ (∀ (s : State) (p : Nat), ((s.dropLink p).prt p).link = .acquire ∧ ((s.dropLink p).prt p).pause = [] ∧ ((s.dropLink p).prt p).xoff = 0)
  ∧ (∀ (s : State) (p : Nat), (s.prt p).hold = some 0 → ∃ t, exec (.portHoldExpire p) s = .next t ∧ t.offPath = s.offPath ∧
      t = s.flushPort p ∧ (t.prt p).hold = none ∧ (t.prt p).beenUp = false)
  ∧ (∀ (s : State) (p : Nat), s.parOn P.anEnable p = true → (s.prt p).link = .acquire → exec (.anFailure p) s = .next (s.ruleEvent 71 p 0))
  ∧ (∀ (s : State) (p e : Nat), (s.prt p).link = .acquire → (s.prt p).train = some e → e ≤ s.time.mono →
    exec (.trainingTimeout p) s = .next (s.updPort p (fun q => { q with train := some (500000000 + s.time.mono), locks := 0 })))
  ∧ (∀ (s : State) (p l : Nat) (r : Bool), (s.prt p).link = .disabled → exec (.portAllLocks p) s = .next s ∧ exec (.portLockLoss p l r) s = .next s)

/-- At an UP Ethernet port with no loopback: a whole frame with a reason of R60 is counted in RX_DISCARDS[5 × port + reason] and nothing else changes. A good one that fits its pipe's FIFO becomes the next packet, in the FIFO, stamped with device time, and a PTP event message leaves its timestamp with its port, with the receive delay and PTP_TRIM_RX added. One that would pass 65,536 bytes counts in RX_OVERRUN, a reassembly error in RX_ASSEMBLY_ERRORS. A frame is good exactly when its length lies from 64 to MAX_FRAME, its FCS is good, no uncorrectable codeword overlaps it and it was not cut off. At a port that is not UP nothing is received; under loopback the frame goes back or is not taken. At the tail of a live packet without a fault and with nothing that waits for its tail, the packet is ended with its length as FRAME_LEN; at a faulty tail, one that exceeds MAX_FRAME ending at MAX_FRAME bytes, meters and cells are settled, the discard is counted and the packet discarded. A packet that has ended has no second tail. -/
def Obligations.FramesAreReceivedWhole : Prop :=
  (∀ (s : State) (p r : Nat) (f : RxFrame), s.isUp p = true → (s.prt p).loopback = 0 → f.codeword = false → f.assembly = false → f.ended = true →
    s.cfg.active.rxReason p f = some r → exec (.frameArrival p f) s = .next (s.count Stat.rxDiscards (5 * p + r)))
  ∧ (∀ (s u : State) (p : Nat) (f : RxFrame) (l : List Byte), s.isUp p = true → (s.prt p).loopback = 0 → f.codeword = false → f.assembly = false → f.ended = true →
    s.parOn P.portRole p = false → s.cfg.active.rxReason p f = none → beAt f.bytes 12 2 ≠ 0x8808 → s.fifoBytes (pipeOf p) + f.bytes.length ≤ 65536 →
    l = f.bytes.take (f.bytes.length - 4) → u = { s with nextPkt := s.nextPkt + 1, pkt := s.pkt.put s.nextPkt (
      { live := true, port := p, rx := f, ended := true, arrived := s.time.mono, rxTime := s.time.dev, whole := f.preempt, stage := .fifo } : Packet) } →
    (s.ptpEvent p l = none → exec (.frameArrival p f) s = .next u)
    ∧ (∀ o t, s.ptpEvent p l = some o → t = (((s.time.dev + (s.cfg.active.pcsDelay p).1 : Nat) : Int) * 1000 + s.parI P.ptpTrimRx p).toNat / 1000 →
      exec (.frameArrival p f) s = .next (u.updPort p (fun q =>
        { q with ptpIn := some (beAt l (o + 30) 2, leAt l o 1 % 16, leAt l (o + 4) 1, t / 1000000000, t % 1000000000) }))))
  ∧ (∀ (s : State) (p : Nat) (f : RxFrame), s.isUp p = true → (s.prt p).loopback = 0 → f.codeword = false → f.assembly = false → f.ended = true →
    s.parOn P.portRole p = false → s.cfg.active.rxReason p f = none → beAt f.bytes 12 2 ≠ 0x8808 → 65536 < s.fifoBytes (pipeOf p) + f.bytes.length →
    exec (.frameArrival p f) s = .next (s.count Stat.rxOverrun))
  ∧ (∀ (s : State) (p : Nat) (f : RxFrame), s.isUp p = true → (s.prt p).loopback = 0 → f.codeword = false → f.assembly = true → f.ended = true →
    exec (.frameArrival p f) s = .next (s.count Stat.rxAssemblyErrors))
  ∧ (∀ (s : State) (p : Nat) (f : RxFrame), s.isUp p = false → f.codeword = false → (s.prt p).loopback = 0 → exec (.frameArrival p f) s = .next s)
  ∧ (∀ (s : State) (p : Nat) (f : RxFrame), ((s.prt p).loopback = 1 → exec (.frameArrival p f) s = .next s)
    ∧ ((s.prt p).loopback = 2 → exec (.frameArrival p f) s = .next (s.emit (.frame p 0 f.bytes false))))
  ∧ (∀ (b : Bank) (p : Nat) (f : RxFrame), b.on P.portRole p = false → (b.rxReason p f = none ↔
    64 ≤ f.bytes.length ∧ f.bytes.length ≤ b.getN P.maxFrame p ∧ f.fcsOk = true ∧ f.codeword = false ∧ f.cut = false))
  ∧ (∀ (s : State) (n : Nat) (p : Packet), p = s.pkt.at n → p.live = true → p.ended = false → p.rx.assembly = false →
    s.cfg.active.rxReason p.port p.rx = none → p.metered = none → p.sduStream = none → p.learn = none → p.bench = none → p.stage = .fifo →
    s.copiesOf n = [] → s.pktWanted n = false → s.ptpEvent p.port (p.rx.bytes.take (p.rx.bytes.length - 4)) = none →
    exec (.frameTail n) s = .next (s.updPkt n (fun p => { p with ended := true, md := s.endedMd p })))
  ∧ (∀ (s : State) (p : Packet), s.fromRelay p = false → M.frameLen.get (s.endedMd p) = p.rx.bytes.length % 2 ^ 14)
  ∧ (∀ (s u : State) (n : Nat) (p : Packet), p = s.pkt.at n → p.live = true → p.ended = false →
    (p.rx.assembly = true → exec (.frameTail n) s = .next (s.keeping (((s.settleTail n).count Stat.rxAssemblyErrors).tailDiscard n)))
    ∧ (∀ r, p.rx.assembly = false → s.cfg.active.rxReason p.port p.rx = some r → u = (if r = 1 then s.endAt n (s.cfg.active.longest p.port) else s) →
      exec (.frameTail n) s = .next (s.keeping (((u.settleTail n).count Stat.rxDiscards (5 * p.port + r)).tailDiscard n))))
  ∧ (∀ (s : State) (n : Nat), (s.pkt.at n).live = false ∨ (s.pkt.at n).ended = true → exec (.frameTail n) s = .next s)

/-- STRIDE_ADMIT: the first packet of its port in the FIFO, whole, enters the slot with the fewest contexts: it latches the Active generation, its instance and the instance's generation, its context starts at the entry word of the image in force, at this time, and the slot takes no other on this clock. With no free context, a packet of its port before it, or the engine halted, nothing happens. STRIDE_WORD: a word of a loaded image that goes on leaves the metadata and context of R83 to R89, and then has its effects; one that waits notes the time of its first wait; a multi-bit error raises the engine's source and leaves with cause 0x13; past 64 words or 640 ns no word runs. STRIDE_WAIT_TIMEOUT counts and leaves with cause 0x10 once a word has waited 160 ns; STRIDE_STEP_LIMIT leaves with cause 0x11 after 64 words or 640 ns; in an egress engine both lead to EGRESS_DEFAULT. What leaves for the classifier with no tap and no shared port is parsed, its classifier fields 0. -/
def Obligations.StrideEngineRuns : Prop :=
  (∀ (s : State) (n k : Nat), (s.pkt.at n).live = true → (s.pkt.at n).stage = .fifo → (s.pkt.at n).ended = true → s.behind n (fun t => decide (t = .fifo)) = false →
    s.stride.halted.at (2 * pipeOf (s.pkt.at n).port) = false → s.freeSlot (2 * pipeOf (s.pkt.at n).port) = some k →
    ∃ t, exec (.strideAdmit n) s = .next t ∧ t = { s with pkt := t.pkt, stride := { s.stride with took := s.stride.took.put (8 * pipeOf (s.pkt.at n).port + k) (s.slotClock (2 * pipeOf (s.pkt.at n).port) k + 1) } } ∧ (∀ m, m ≠ n → t.pkt.at m = s.pkt.at m) ∧
      (t.pkt.at n).gen = s.cfg.activeGen.toNat ∧ (t.pkt.at n).inst = s.admitInst (s.pkt.at n) ∧
      (t.pkt.at n).instGen = s.instGen (s.admitInst (s.pkt.at n)) ∧
      (t.pkt.at n).stage = .engine { slot := k, bank := s.stride.cur, start := s.time.mono
                                     addr := (s.stride.image s.stride.cur).entry.getD (s.cfg.active.parseEntryOf (s.pkt.at n).port) 0 })
  ∧ (∀ (s : State) (n : Nat), s.behind n (fun t => decide (t = .fifo)) = true ∨ s.freeSlot (2 * pipeOf (s.pkt.at n).port) = none ∨
    s.stride.halted.at (2 * pipeOf (s.pkt.at n).port) = true → exec (.strideAdmit n) s = .next s)
  ∧ (∀ (s : State) (engine k : Nat), s.freeSlot engine = some k →
    k < 3 ∧ s.contexts engine k < 64 ∧ ∀ j, j < 3 → s.contexts engine k ≤ s.contexts engine j ∧ (j < k → s.contexts engine k < s.contexts engine j))
  ∧ (∀ (s : State) (n : Nat) (c : Ctx) (bad : List BadEntry), (s.pkt.at n).live = true → (s.pkt.at n).stage = .engine c → c.words < 64 → s.time.mono < c.start + 640 →
    c.waits = none → s.stride.trace.at (2 * pipeOf (s.pkt.at n).port) = false →
    (exec (.strideWord (.ingress n) ⟨2, bad⟩) s = .next (s.keeping ((s.raise (48 + pipeOf (s.pkt.at n).port) 0).leaveEngine n (s.pkt.at n).md 2 0x13))
    ∧ ((s.stride.image c.bank).builtin = false →
      runWord true (s.bankOf (s.pkt.at n).gen) (s.pkt.at n).port (s.view (s.pkt.at n))
        (!(s.sec.slot.any (fun e => e.2.st == 2 && e.2.assoc == M.assoc.get (s.pkt.at n).md))) ((s.stride.image c.bank).ingress.getD c.addr 0)
        (s.pkt.at n).md c = .wait →
      exec (.strideWord (.ingress n) ⟨0, bad⟩) s = .next (s.updPkt n (fun p => { p with stage := .engine { c with waits := some s.time.mono } })))
    ∧ (∀ md c', (s.stride.image c.bank).builtin = false →
      runWord true (s.bankOf (s.pkt.at n).gen) (s.pkt.at n).port (s.view (s.pkt.at n))
        (!(s.sec.slot.any (fun e => e.2.st == 2 && e.2.assoc == M.assoc.get (s.pkt.at n).md))) ((s.stride.image c.bank).ingress.getD c.addr 0)
        (s.pkt.at n).md c = .next md c' →
      exec (.strideWord (.ingress n) ⟨0, bad⟩) s = .next (s.keeping ((s.updPkt n (fun p => { p with md := md, stage := .engine c' })).wordEffects n
        ((s.stride.image c.bank).ingress.getD c.addr 0) (badCodes bad))))))
  ∧ (∀ (s : State) (n : Nat) (r : WordRead) (c : Ctx), (s.pkt.at n).stage = .engine c → 64 ≤ c.words ∨ c.start + 640 ≤ s.time.mono →
    exec (.strideWord (.ingress n) r) s = .next s)
  ∧ (∀ (s : State) (n w : Nat) (c : Ctx), (s.pkt.at n).stage = .engine c → c.waits = some w →
    (s.time.mono < w + 160 → exec (.strideWaitTimeout (.ingress n)) s = .next s) ∧ (w + 160 ≤ s.time.mono →
    exec (.strideWaitTimeout (.ingress n)) s = .next (s.keeping ((s.count Stat.strideWaitTimeouts).leaveEngine n (s.pkt.at n).md 2 0x10))))
  ∧ (∀ (s : State) (n : Nat) (c : Ctx), (s.pkt.at n).stage = .engine c → 64 ≤ c.words ∨ c.start + 640 ≤ s.time.mono →
    exec (.strideStepLimit (.ingress n)) s = .next (s.keeping (s.leaveEngine n (s.pkt.at n).md 2 0x11)))
  ∧ (∀ (s : State) (k : Nat) (c : Ctx), (s.cpy.at k).place = .egress c →
    (∀ w, c.waits = some w → w + 160 ≤ s.time.mono →
      exec (.strideWaitTimeout (.egress k)) s = .next (s.keeping ((s.count Stat.strideWaitTimeouts).egressDefault k 0x10)))
    ∧ (64 ≤ c.words ∨ c.start + 640 ≤ s.time.mono → exec (.strideStepLimit (.egress k)) s = .next (s.keeping (s.egressDefault k 0x11))))
  ∧ (∀ (s : State) (n md c : Nat), (s.bankOf (s.pkt.at n).gen).getN P.portOwner (s.pkt.at n).port ≠ 64 →
    ((s.bankOf (s.pkt.at n).gen).filter (fun e => e.1 / 2 ^ 32 == P.tapEnable.id && e.2 == 1)) = [] →
    (s.leaveEngine n md 0 c).pkt.at n = { s.pkt.at n with stage := .parsed, md := putFields (setBits md 87 104 0) [(M.verdict, 0), (M.cause, c)] } ∧
    s.leaveEngine n md 0 c = { s with pkt := (s.leaveEngine n md 0 c).pkt } ∧ ∀ m, m ≠ n → (s.leaveEngine n md 0 c).pkt.at m = s.pkt.at m)

/-- CLASSIFIER_HANDOFF passes a packet that no earlier packet of its port precedes to the lookups, and leaves another alone. One with a verdict has none: it waits for the action stage, with the deletes made so far; one of profile 0 misses all. Without searches and learning, a front hit latches its RESULT, and sets HIT of an entry not learned; a miss off the station tier latches none. A front miss of a station-backed profile is EXPRESS for an express packet; else, with 512 lookups of the pipe pending or 12 buckets read at this time, an overload; else it reads: it waits, with its time, and asks HBM. An overload counts in STATION_OVERLOAD and is a miss; an express packet is counted and dropped, punted with cause 0x42 or goes on, by EXPRESS_MISS. STATION_LOOKUP_COMPLETE within 2 µs latches the entry found, PINNED 0, or a miss, or without the rate for its further reads counts in STATION_OVERLOAD; after 2 µs it counts in STATION_TIMEOUTS and is a miss, as STATION_LOOKUP_ABANDON makes of a lookup that has waited 2 µs. ACTION_RELEASE takes a packet whose turn it is, and to whose records no lower pipe has a claim, through stages 4 to 7: a transit frame loses a hop, and is counted and dropped or goes to stage 7; under a verdict of the default action the packet takes its route; one with no forwarding result gets cause 0x20 and leaves, dropped or punted, or takes the default route, by DEFAULT_ACTION. A record read with bad parity counts, and drops the packet. A packet without a stream whose records are live is aimed and departs: to the port of its result, counted and dropped, punted, or as its next hop says. -/
def Obligations.LookupsAndActionsInOrder : Prop :=
  (∀ (s : State) (n : Nat) (bad : List BadEntry) (p : Packet), p = s.pkt.at n → p.live = true → p.stage = .parsed → s.behind n Stage.beforeLookup = false →
    (M.verdict.get p.md ≠ 0 → exec (.classifierHandoff n bad) s = .next (s.updPkt n (fun p => { p with stage := .classified, looked := s.tbl.dels })))
    ∧ (M.verdict.get p.md = 0 → M.keyProfile.get p.md = 0 → ∃ t, exec (.classifierHandoff n bad) s = .next t ∧ t = { s with pkt := t.pkt } ∧
      (∀ m, m ≠ n → t.pkt.at m = s.pkt.at m) ∧ t.pkt.at n = { p with
        ruleRes := 0, pfxRes := 0, stage := .classified, looked := s.tbl.dels
        md := putFields p.md [(M.frontHit, 0), (M.frontResult, 0), (M.stationPending, 0), (M.ruleHit, 0), (M.ruleAddr, 0), (M.prefixHit, 0), (M.prefixAddr, 0)] })
    ∧ exec (.classifierHandoff n bad) s = .next (s.keeping (s.classify n (badCodes bad))))
  ∧ (∀ (s : State) (n : Nat) (bad : List BadEntry), s.behind n Stage.beforeLookup = true →
    exec (.classifierHandoff n bad) s = .next s)
  ∧ (∀ (s : State) (n used : Nat) (p : Packet), p = s.pkt.at n → used = (if s.tbl.stAt = s.time.mono then s.tbl.stReads else 0) →
    (s.express p (s.actionSet p false).cls = true → s.onMiss n = (s, if s.inTransit p = true then .done else .express))
    ∧ (s.express p (s.actionSet p false).cls = false →
      (512 ≤ s.stationPending (pipeOf p.port) ∨ 12 ≤ used → s.onMiss n = (s, .overload))
      ∧ (s.stationPending (pipeOf p.port) < 512 → used < 12 →
        s.onMiss n = ({ s with tbl := { s.tbl with stAt := s.time.mono, stReads := used + 1 } }, .reads))))
  ∧ (∀ (s : State) (n : Nat) (p : Packet) (b : Bank), p = s.pkt.at n → b = s.bankOf p.gen →
    s.goOn n .overload = (s.count Stat.stationOverload (pipeOf p.port)).updPkt n (fun p => { p with stage := .classified, looked := s.tbl.dels })
    ∧ s.goOn n .reads = (s.updPkt n (fun p => { p with stage := .station s.time.mono, md := M.stationPending.put 1 p.md })).hbmAsk 4
        (hbmStation + 64 * b.station1 (stationKey (p.frontKey b (M.keyProfile.get p.md)))) 64 false n
    ∧ (b.getN P.expressMiss p.port = 0 → s.goOn n .express = (s.count Stat.expressMisses).stageDrop n)
    ∧ (b.getN P.expressMiss p.port = 1 → s.goOn n .express = (s.count Stat.expressMisses).stagePunt n 0x42)
    ∧ (2 ≤ b.getN P.expressMiss p.port → s.goOn n .express = (s.count Stat.expressMisses).updPkt n (fun p => { p with stage := .classified, looked := s.tbl.dels })))
  ∧ (∀ (s : State) (n w used more : Nat) (bad : List BadEntry) (p : Packet) (b : Bank) (key : Nat), p = s.pkt.at n → p.live = true → p.stage = .station w →
    b = s.bankOf p.gen → key = stationKey (p.frontKey b (M.keyProfile.get p.md)) → used = (if s.tbl.stAt = s.time.mono then s.tbl.stReads else 0) →
    more = s.stationReads b (badCodes bad) key - 1 →
    (w + 2000 ≤ s.time.mono → ∃ t, t = { s.count Stat.stationTimeouts (pipeOf p.port) with pkt := t.pkt } ∧
      exec (.stationLookupComplete n bad) s = .next t ∧ exec (.stationLookupAbandon n) s = .next t ∧
      t.pkt.at n = { p with md := putFields p.md [(M.frontHit, 0), (M.frontResult, 0), (M.stationPending, 0)], stage := .classified, looked := s.tbl.dels })
    ∧ (s.time.mono < w + 2000 → exec (.stationLookupAbandon n) s = .next s
      ∧ (12 < used + more → ∃ t, exec (.stationLookupComplete n bad) s = .next t ∧ t = { s.count Stat.stationOverload (pipeOf p.port) with pkt := t.pkt } ∧
        t.pkt.at n = { p with md := putFields p.md [(M.frontHit, 0), (M.frontResult, 0), (M.stationPending, 0)], stage := .classified, looked := s.tbl.dels })
      ∧ (used + more ≤ 12 → (∀ c ∈ s.stationCells b (badCodes bad) key, s.parityFails (badCodes bad) c = false) →
        ∃ u, exec (.stationLookupComplete n bad) s = .next (s.keeping u) ∧ u.ctr = s.ctr ∧ (u.pkt.at n).stage = .classified ∧
        ((s.stationFind b (badCodes bad) key).filter (fun c => R.inst.get (s.entry c).result == p.inst) = none →
          (u.pkt.at n).md = putFields p.md [(M.frontHit, 0), (M.frontResult, 0), (M.stationPending, 0)])
        ∧ ∀ c, (s.stationFind b (badCodes bad) key).filter (fun c => R.inst.get (s.entry c).result == p.inst) = some c → 2 ≤ c.1 → c.1 ≤ 3 →
          (u.pkt.at n).md = putFields p.md [(M.frontHit, 1), (M.frontResult, R.pinned.put 0 (s.entry c).result), (M.stationPending, 0)])))
  ∧ (∀ (s : State) (n : Nat) (bad : List BadEntry) (p : Packet), p = s.pkt.at n → p.live = true → p.stage = .classified → s.behind n Stage.beforeRelease = false →
    M.verdict.get p.md ≠ 0 ∨ s.waitsTail p = false → s.yields n = false →
    exec (.actionRelease n bad) s = .next (s.keeping (s.actions n (badCodes bad))))
  ∧ (∀ (s : State) (n : Nat) (bad : List BadEntry), s.behind n Stage.beforeRelease = true ∨ s.yields n = true → exec (.actionRelease n bad) s = .next s)
  ∧ (∀ (s : State) (n : Nat) (bad : List BadEntry) (p : Packet), p = s.pkt.at n → p.live = true → p.stage = .classified → s.behind n Stage.beforeRelease = false →
    M.verdict.get p.md ≠ 0 ∨ s.waitsTail p = false → s.yields n = false →
    (p.relaySrc ≠ none → p.relayField H.dst ≠ s.fab.id →
      (p.relayField H.hops ≤ 1 → exec (.actionRelease n bad) s = .next (s.keeping ((s.count Stat.relayHopDrops).drop n)))
      ∧ (1 < p.relayField H.hops → exec (.actionRelease n bad) s = .next (s.keeping ((s.updPkt n (fun p =>
        { p with relay := some (p.relayField H.dst, p.relayField H.rclass), md := M.cls.put (s.portClass p) p.md })).stage7 n))))
    ∧ (p.relaySrc = none ∨ p.relayField H.dst = s.fab.id →
      (M.verdict.get p.md = 2 → exec (.actionRelease n bad) s = .next (s.keeping ((s.defaultRoute n).stage6 n)))
      ∧ (∀ u, M.verdict.get p.md ≠ 2 → M.frontHit.get p.md ≠ 1 → M.prefixHit.get p.md ≠ 1 → M.ruleHit.get p.md ≠ 1 →
        u = s.updPkt n (fun p => { p with md := putFields p.md [(M.cause, 0x20), (M.verdict, 2)] }) →
        ((s.bankOf p.gen).getN P.defaultAction p.port = 0 →
          exec (.actionRelease n bad) s = .next (s.keeping ((u.count Stat.defaultDrops (64 * p.port + 0x20)).stageDrop n)))
        ∧ ((s.bankOf p.gen).getN P.defaultAction p.port = 1 → exec (.actionRelease n bad) s = .next (s.keeping (u.stagePunt n 0x20)))
        ∧ (2 ≤ (s.bankOf p.gen).getN P.defaultAction p.port → exec (.actionRelease n bad) s = .next (s.keeping ((u.defaultRoute n).stage6 n))))
      ∧ (∀ (a : ActionSet) (f : Nat) (broken : List (Nat × Nat)), M.verdict.get p.md ≠ 2 → a = s.actionSet p true → forwardingResult p a.redirect = some f →
        broken = (s.recordsRead p a (some f)).filter (fun r => s.recordBad (badCodes bad) r.1 r.2) →
        (broken ≠ [] → exec (.actionRelease n bad) s = .next (s.keeping
          ((s.forEach broken (fun s r => s.parityError (recordCode r.1 r.2) (decide (12 ≤ a.cls)))).stageDrop n)))
        ∧ (broken = [] → a.stream = 0 → a.invalid = false →
          (R.type.get f = 0 → a.rewrite = 0 ∨ s.liveFor p K.rewrite a.rewrite = true → exec (.actionRelease n bad) s = .next (s.keeping
            (((s.writeActions n a 0 a.rewrite (R.target.get f % 512)).updPkt n (fun p => { p with dests := [(R.target.get f % 512, a.rewrite)], mc := false })).stage6 n)))
          ∧ (R.type.get f = 2 → exec (.actionRelease n bad) s = .next (s.keeping
            (((s.writeActions n a 0 0 0).count Stat.actionDrops ((s.writeActions n a 0 0 0).pkt.at n).port).stageDrop n)))
          ∧ (R.type.get f = 3 → exec (.actionRelease n bad) s = .next (s.keeping ((s.writeActions n a 0 0 0).stagePunt n 0)))
          ∧ ∀ rt, R.type.get f = 1 → rt = s.nextHop p (R.target.get f) a.rewrite →
            (∀ l mc, rt = .ports l mc → ∀ d ∈ l, d.2 = 0 ∨ s.liveFor p K.rewrite d.2 = true) →
            (∀ d c r, rt = .relay d c r → r = 0 ∨ s.liveFor p K.rewrite r = true) →
            exec (.actionRelease n bad) s = .next (s.keeping ((s.aim n a 0 rt id).depart n rt))))))
  ∧ (∀ (s : State) (n prof key : Nat) (bad : List BadEntry) (p : Packet) (b : Bank) (hit : Option (Nat × Nat)), p = s.pkt.at n → p.live = true → p.stage = .parsed →
    s.behind n Stage.beforeLookup = false → M.verdict.get p.md = 0 → prof = M.keyProfile.get p.md → prof ≠ 0 → b = s.bankOf p.gen → key = p.frontKey b prof →
    b.getN P.kpRnfields prof = 0 → b.getN P.kpPrefix prof = 0 → b.on P.learnEnable p.port = false ∨ b.on P.kpLearn prof = false →
    (∀ c ∈ b.frontCells (b.getN P.kpTable prof) key, s.parityFails (badCodes bad) c = false) →
    hit = (s.frontFind b (badCodes bad) (b.getN P.kpTable prof) key).filter (fun c => R.inst.get (s.entry c).result == p.inst) →
    (hit = none → b.on P.kpStation prof = false → ∃ t, exec (.classifierHandoff n bad) s = .next t ∧ t = { s with pkt := t.pkt } ∧
      (∀ m, m ≠ n → t.pkt.at m = s.pkt.at m) ∧ t.pkt.at n = { p with
        ruleRes := 0, pfxRes := 0, stage := .classified, looked := s.tbl.dels
        md := putFields p.md [(M.frontHit, 0), (M.frontResult, 0), (M.stationPending, 0), (M.ruleHit, 0), (M.ruleAddr, 0), (M.prefixHit, 0), (M.prefixAddr, 0)] })
    ∧ (∀ c, hit = some c → c.1 < 2 → ∃ u, exec (.classifierHandoff n bad) s = .next (s.keeping u) ∧ u.ctr = s.ctr
      ∧ (∀ m, m ≠ n → u.pkt.at m = s.pkt.at m) ∧ (R.learned.get (s.entry c).result = 0 → (u.entry c).hit = true) ∧ u.pkt.at n = { p with
        ruleRes := 0, pfxRes := 0, stage := .classified, looked := s.tbl.dels
        md := putFields p.md [(M.frontHit, 1), (M.frontResult, (s.entry c).result), (M.stationPending, 0),
          (M.ruleHit, 0), (M.ruleAddr, 0), (M.prefixHit, 0), (M.prefixAddr, 0)] }))

/-- CMAC_JOB_COMPLETE of a running job takes it out of the unit: its slot reference is given up and a free context goes to the next job. A job whose generation is current leaves its frame the outcome of the tag check under its round keys; that of a superseded generation fails the frame with STALE_GENERATION and counts in FALSE_START_DISCARDS. A frame job does not end before its frame has. CMAC_JOB_RESUME starts a suspended job whose turn it is when a context is free, in the engine with more free ones. HMAC_VERIFY of a frame of a past generation is a false start: dropped and counted; it waits for the frame's tail and the Pacer. AUTH_VERDICT of an ended frame with an outcome pending: one that fails the tail check fails at the tail with its cause; one that passes counts in VERIFIED of its association, is judged, and its learn event is raised; a frame already failed takes its cause. A frame without a pending outcome or one still waiting is left alone. -/
def Obligations.VerdictsReachTheirFrames : Prop :=
  (∀ (s : State) (j n pipe : Nat) (c : CmacJob) (p : Packet), s.sec.cmac.at j = some c → c.st = 1 → c.work = .frame n pipe → p = s.pkt.at n → p.live = true → p.cmac = some j →
    (p.ended = false → exec (.cmacJobComplete j) s = .next s)
    ∧ (p.ended = true → p.bench = none →
      (s.instGen c.inst = c.gen → exec (.cmacJobComplete j) s = .next (s.keeping ((s.leaveCmac j c).updPkt n (fun q =>
        { q with cmac := none, tagOk := some (tagMatches (s.bankOf p.gen) p.assoc p.pn (.cmac c.rounds) p) }))))
      ∧ (s.instGen c.inst ≠ c.gen → ∃ ok, exec (.cmacJobComplete j) s = .next (s.keeping (((s.leaveCmac j c).count Stat.falseStartDiscards (6 * c.inst + 3)).updPkt n (fun q =>
        { q with cmac := none, tagOk := some ok, verdict := .fail F.staleGen }))))))
  ∧ (∀ (s u : State) (j : Nat) (c : CmacJob), u = (match c.key with
      | some k => State.slotUnref { s with sec := { s.sec with cmac := s.sec.cmac.put j none } } k
      | none => { s with sec := { s.sec with cmac := s.sec.cmac.put j none } }) →
    (u.cmacFree = false ∨ u.nextCmac = none → s.leaveCmac j c = u)
    ∧ (∀ m v, u.cmacFree = true → u.nextCmac = some (m, v) → s.leaveCmac j c = u.startCmac m v))
  ∧ (∀ (s : State) (j : Nat) (c v : CmacJob), s.sec.cmac.at j = some c → c.st = 2 → s.cmacFree = true → s.nextCmac = some (j, v) →
    exec (.cmacJobResume j) s = .next (s.startCmac j c) ∧
    (c.rounds ≠ [] → (s.startCmac j c).sec.cmac.at j = some { c with st := 1, engine := if s.cmacBusy 1 < s.cmacBusy 0 then 1 else 0, order := s.sec.nextJob }))
  ∧ (∀ (s : State) (n : Nat) (ok : Bool), (s.pkt.at n).live = true → (s.pkt.at n).hmac = true → (s.pkt.at n).ended = true → s.pacer.down = false →
    s.instGen (s.pkt.at n).inst ≠ (s.pkt.at n).instGen → (s.pkt.at n).hbuf = none →
    exec (.hmacVerify ⟨n, ok⟩) s = .next (s.keeping ((s.count Stat.falseStartDrops (s.pkt.at n).inst).drop n)))
  ∧ (∀ (s u : State) (n : Nat) (ok : Bool) (key : List Byte) (p : Packet), p = s.pkt.at n → p.live = true → p.hmac = true → p.ended = true → s.pacer.down = false →
    s.instGen p.inst = p.instGen → p.hbuf = none →
    (s.hmacKey p.assoc p.keyNum ok = (u, none) → exec (.hmacVerify ⟨n, ok⟩) s = .next (s.keeping (u.hmacFail n F.keyUnknown)))
    ∧ (∀ v w, s.hmacKey p.assoc p.keyNum ok = (u, some key) → u.hmacUse p.assoc p.keyNum = (v, true) → v.pkt = s.pkt → (tagAt (v.bankOf p.gen) p.assoc p.rx.bytes.length).isSome = true →
      (tagMatches (v.bankOf p.gen) p.assoc p.pn (.hmac key) p = false → exec (.hmacVerify ⟨n, ok⟩) s = .next (s.keeping (v.hmacFail n F.tagMismatch)))
      ∧ (tagMatches (v.bankOf p.gen) p.assoc p.pn (.hmac key) p = true → v.hmacReplay (v.bankOf p.gen) p.assoc p.keyNum p.pn = (w, true) → w.pkt = s.pkt →
        exec (.hmacVerify ⟨n, ok⟩) s = .next (s.keeping ((((w.count Stat.verified p.assoc).updAssoc p.assoc (fun a => { a with verified := a.verified + 1, lastVerified := p.keyNum })).updPkt n
          (fun p => { p with hmac := false, verdict := .pass, judged := true })).passStage6 n)))))
  ∧ (∀ (s : State) (n : Nat) (ok : Bool), (s.pkt.at n).ended = false ∨ s.pacer.down = true → exec (.hmacVerify ⟨n, ok⟩) s = .next s)
  ∧ (∀ (s t : State) (n c : Nat), (s.pkt.at n).live = true → (s.pkt.at n).ended = true → (s.pkt.at n).bad = false → (s.pkt.at n).judged = false →
    (s.pkt.at n).hmac = false → (s.pkt.at n).bench = none → (s.pkt.at n).cmac = none →
    ((s.pkt.at n).verdict = .pending → s.tailCheck n = (t, 0) → exec (.authVerdict n) s = .next (s.keeping (((t.passFrame n).raiseLearn n).reap n)))
    ∧ ((s.pkt.at n).verdict = .pending → s.tailCheck n = (t, c) → c ≠ 0 → exec (.authVerdict n) s = .next (s.keeping (t.failTail n c)))
    ∧ ((s.pkt.at n).verdict = .fail c → exec (.authVerdict n) s = .next (s.keeping (s.failTail n c))))
  ∧ (∀ (s : State) (n : Nat), ((s.passFrame n).pkt.at n).verdict = .pass ∧ ((s.passFrame n).pkt.at n).judged = true ∧
    (s.passFrame n).statVal Stat.verified (s.pkt.at n).assoc = min (2 ^ 64 - 1) (s.statVal Stat.verified (s.pkt.at n).assoc + 1))
  ∧ (∀ (s : State) (n : Nat), (s.pkt.at n).ended = false ∨ (s.pkt.at n).judged = true ∨ (s.pkt.at n).verdict = .none → exec (.authVerdict n) s = .next s)

/-- A residue copy that is the first of its queue is tried again with its length of now: admitted, it leaves the list and takes its place; refused for its instance's share, it ends; otherwise it stays. One that has stayed MC_RESIDUE_LAPS boundaries is counted in MC_RESIDUE_DROPS and ends. A frame of a middle segment whose tail and verdict have come is written to HBM: it is spilled, and its cells on chip are counted as spilled. When the head of a sub-queue has fallen below SPILL_REFILL, the first frame of its middle comes back to the head; the last one drains the middle and the tail follows. On a held port, frames of an express class at the front of a sub-queue that have outlived RES_LIMIT are dropped; elsewhere none. Only the packet path changes, and free values are drawn for the cells taken. -/
def Obligations.BufferRowsMoveCopies : Prop :=
  (∀ (s : State) (k l : Nat), (s.cpy.at k).live = true → (s.cpy.at k).place = .residue l →
    s.buf.residue.find? (fun m => (s.cpy.at m).queue == (s.cpy.at k).queue) = some k →
    (∀ above head, s.admitCopy (s.retried k) = .ok above head → ∃ t, exec (.residueRetry k) s = .next t ∧ t = (s.leaveResidue k).placeCopy k (s.retried k) above head ∧ t.offPath = { s.offPath with free := t.free })
    ∧ (s.admitCopy (s.retried k) = .share → exec (.residueRetry k) s = .next (s.keeping ((s.refused .share (s.retried k)).endCopy k)))
    ∧ (s.admitCopy (s.retried k) = .full ∨ s.admitCopy (s.retried k) = .headroom → exec (.residueRetry k) s = .next s))
  ∧ (∀ (s : State) (k : Nat), s.retried k = { s.cpy.at k with cells := cellsFor (s.lengthOf (s.pkt.at (s.cpy.at k).pkt)).1 false, eligible := s.eligible (s.pkt.at (s.cpy.at k).pkt) (s.cpy.at k).queue })
  ∧ (∀ (s : State) (k l : Nat), (s.cpy.at k).live = true → (s.cpy.at k).place = .residue l →
    (s.par P.mcResidueLaps ≤ l → ∃ t, exec (.mcResidueExpire k) s = .next t ∧ t = (s.count Stat.mcResidueDrops).endCopy k ∧ t.offPath = s.offPath)
    ∧ (l < s.par P.mcResidueLaps → exec (.mcResidueExpire k) s = .next s))
  ∧ (∀ (s : State) (k : Nat), (s.cpy.at k).live = true → (s.cpy.at k).place = .queue → s.hbm.valid = true →
    (s.subq (s.cpy.at k).queue (s.cpy.at k).quad).middle.contains k = true → (s.cpy.at k).own ≠ [] ∨
      ((s.pkt.at (s.cpy.at k).pkt).ended = true ∧ (s.pkt.at (s.cpy.at k).pkt).verdict ≠ .pending) →
    ∃ t, exec (.spillWrite k) s = .next t ∧ (t.cpy.at k).place = .spilled ∧ (t.cpy.at k).drawn = 0 ∧
      t.hbm.spillCells = s.hbm.spillCells + (s.cpy.at k).cells ∧
      (t.subq (s.cpy.at k).queue (s.cpy.at k).quad).spilled = (s.subq (s.cpy.at k).queue (s.cpy.at k).quad).spilled + (s.cpy.at k).cells ∧
      (t.subq (s.cpy.at k).queue (s.cpy.at k).quad).occ = (s.subq (s.cpy.at k).queue (s.cpy.at k).quad).occ - (s.cpy.at k).cells)
  ∧ (∀ (s : State) (k : Nat), s.hbm.valid = false ∨ (s.cpy.at k).place ≠ .queue → exec (.spillWrite k) s = .next s)
  ∧ (∀ (s : State) (q d k : Nat) (l : List Nat), (s.subq q d).middle = k :: l → s.headCells (s.subq q d) < s.par P.spillRefill →
    (l ≠ [] → exec (.spillRefillRead q d) s = .next (s.keeping ((s.refill k).updSub q d (fun u => { u with head := u.head ++ [k], middle := l }))))
    ∧ (l = [] → exec (.spillRefillRead q d) s = .next (s.keeping ((((s.refill k).updSub q d (fun u => { u with head := u.head ++ [k], middle := l })).updSub q d
      (fun u => { u with head := u.head ++ u.tail, tail := [] })).spillDrained q))))
  ∧ (∀ (s : State) (q d : Nat), (s.subq q d).middle = [] → exec (.spillRefillRead q d) s = .next s)
  ∧ (∀ (s : State) (q d h : Nat), (s.prt (q / 16)).hold = some h → bit (s.par P.classExpress) (q % 16) = true →
    ∃ t, exec (.resLimitExpire q d) s = .next t ∧ t.offPath = s.offPath ∧
      t = s.dropCopies ((s.subq q d).all.takeWhile s.overResident) Stat.residenceLimitDrops (fun c => c.queue))
  ∧ (∀ (s : State) (q d : Nat), (s.prt (q / 16)).hold = none ∨ bit (s.par P.classExpress) (q % 16) = false → exec (.resLimitExpire q d) s = .next s)

/-- A need is the cells above what the entity's minimum still leaves. Past its instance's share it is refused; a need of 0 is admitted and draws nothing; a lossless frame draws from the shared pool while its count stays within XOFF and the pool has room, then from its headroom, and otherwise is refused for headroom; another frame draws from the shared pool while the pool has room and its entity's cells above the minimum, with the need, doubled for yellow and quadrupled for red, stay within ALPHA times the free pool, or, for a frame that spills, while SPILL_MAX allows; otherwise the queue is full. Drawing changes headroom and the instance's count by exactly what is drawn; what comes back goes to headroom first. Cells beyond the length a frame was admitted for come from the shared pool, and what that lacks from the completion reserve. -/
def Obligations.AdmissionFollowsItsThresholds : Prop :=
  (∀ (s : State) (quad inst n own mini : Nat) (k : Int) (col : Nat) (pri : Option (Nat × Nat)) (sp : Option Bool),
    s.par P.instCells inst < s.buf.instCells.at inst + (n - (mini - own)) → s.admitCells quad inst n own mini k col pri sp = .share)
  ∧ (∀ (s : State) (quad inst n own mini : Nat) (k : Int) (col : Nat) (pri : Option (Nat × Nat)) (sp : Option Bool),
    own + n ≤ mini → s.buf.instCells.at inst ≤ s.par P.instCells inst → s.admitCells quad inst n own mini k col pri sp = .ok 0 false)
  ∧ (∀ (s : State) (quad inst n own mini p r : Nat) (k : Int) (col : Nat) (sp : Option Bool), mini < own + n → 0 < n →
    s.buf.instCells.at inst + (n - (mini - own)) ≤ s.par P.instCells inst →
    s.admitCells quad inst n own mini k col (some (p, r)) sp =
      if s.buf.pfcCnt.at (8 * p + r) + n ≤ s.par P.xoffCells (8 * p + r) ∧ n - (mini - own) ≤ s.sharedFree quad then .ok (n - (mini - own)) false
      else if n - (mini - own) ≤ s.headFree p r then .ok (n - (mini - own)) true else .headroom)
  ∧ (∀ (s : State) (quad inst n own mini : Nat) (k : Int) (col : Nat), mini < own + n → 0 < n →
    s.buf.instCells.at inst + (n - (mini - own)) ≤ s.par P.instCells inst →
    (s.admitCells quad inst n own mini k col none none =
      if n - (mini - own) ≤ s.sharedFree quad ∧
        withinAlpha k ((own - mini + (n - (mini - own))) * (if col = 1 then 2 else if col = 2 then 4 else 1)) (s.sharedFree quad) = true
      then .ok (n - (mini - own)) false else .full)
    ∧ ∀ room, s.admitCells quad inst n own mini k col none (some room) =
      if n - (mini - own) ≤ s.sharedFree quad ∧ room = true then .ok (n - (mini - own)) false else .full)
  ∧ (∀ (k x limit : Nat), (withinAlpha k x limit = true ↔ x ≤ 2 ^ k * limit) ∧ (0 < k → (withinAlpha (-(k : Int)) x limit = true ↔ x * 2 ^ k ≤ limit)))
  ∧ (∀ (s : State) (p r inst k : Nat), (s.drawHead p r inst k).buf.headUsed.at (8 * p + r) = s.buf.headUsed.at (8 * p + r) + k ∧
    (s.drawHead p r inst k).buf.instCells.at inst = s.buf.instCells.at inst + k ∧
    (s.giveBack inst (some (p, r)) k).buf.headUsed.at (8 * p + r) = s.buf.headUsed.at (8 * p + r) - min k (s.buf.headUsed.at (8 * p + r)) ∧
    (s.giveBack inst (some (p, r)) k).buf.instCells.at inst = s.buf.instCells.at inst - k)
  ∧ (∀ (s : State) (k r : Nat) (c : Copy), c = s.cpy.at k → c.fromHead = false →
    ((s.moreParts k r).cpy.at k).drawn = c.drawn + min r (s.sharedFree c.quad) ∧
    ((s.moreParts k r).cpy.at k).comp = c.comp + (r - min r (s.sharedFree c.quad)) ∧
    (s.moreParts k r).buf.compUsed.at c.quad = s.buf.compUsed.at c.quad + (r - min r (s.sharedFree c.quad)))

/-- SCHEDULER_SELECT with no port of the pipe that can begin changes nothing; with one port it serves that port, frames without a crossbar output take the free ones, and the pipe's pointer moves past the port. A chosen frame without an error is selected; one with an uncorrectable error before it began is counted, raised and dropped, one that has begun is to be stomped. EGRESS_STRIDE_ADMIT of the port's pipe, once the first cell has crossed, drops and counts a copy of a past generation; else the copy takes a context of the slot with the fewest, with its bytes and metadata, or waits for one. The default image leaves a frame with no rewrite record as it is. FCS_SEND of an own frame that has been on the wire for its length and gap sends it with its FCS, or the inverted FCS for a stomp, counts a gate overrun, and ends the copy. A copy not selected, of another pipe, or not at its end, is left alone. -/
def Obligations.EgressRowsSendFrames : Prop :=
  (∀ (s : State) (pipe : Nat) (ports e : List Nat), (∀ p, p ∈ ports → s.canBegin p = false) → exec (.schedulerSelect pipe ports e) s = .next s)
  ∧ (∀ (s u : State) (pipe p e : Nat), pipe < 16 → p / 32 = pipe → s.canBegin p = true → u = s.selectPort p e →
    exec (.schedulerSelect pipe [p] [e]) s = .next (s.keeping { u.takeOutputs with
      sched := { u.sched with ptr := u.sched.ptr.put pipe ((p + 1) % 32) } }))
  ∧ (∀ (s : State) (k : Nat) (c : Copy), c = s.cpy.at k → s.choose k 0 = s.updCpy k (fun c => { c with place := .selected, stomp := c.stomp || false })
    ∧ s.choose k 2 = (((s.count Stat.bufferEccDrops).raise (144 + c.quad) (s.freeVal 4) c.protect).drawn).endCopy k
    ∧ ((s.choose k 3).cpy.at k).place = .selected ∧ ((s.choose k 3).cpy.at k).stomp = true)
  ∧ (∀ (s : State) (k pipe : Nat) (c : Copy), c = s.cpy.at k → c.live = true → pipeOf c.port = pipe → c.place = .selected → s.isUp c.port = true →
    s.stride.halted.at (2 * pipe + 1) = false → c.cells = 0 ∨ c.crossed ≠ 0 →
    (s.instGen c.inst ≠ c.instGen →
      ∃ t, exec (.egressStrideAdmit pipe k) s = .next t ∧ t = (s.count Stat.falseStartDrops c.inst).endCopy k ∧ t.offPath = s.offPath)
    ∧ (s.instGen c.inst = c.instGen → s.freeSlot (2 * pipe + 1) = none → exec (.egressStrideAdmit pipe k) s = .next s)
    ∧ (∀ slot, s.instGen c.inst = c.instGen → s.freeSlot (2 * pipe + 1) = some slot →
      ∃ t, exec (.egressStrideAdmit pipe k) s = .next t ∧ t = { s with cpy := t.cpy, stride := { s.stride with took := s.stride.took.put (4 * (2 * pipe + 1) + slot) (s.slotClock (2 * pipe + 1) slot + 1) } } ∧
        (∀ m, m ≠ k → t.cpy.at m = s.cpy.at m) ∧
        (t.cpy.at k) = { c with place := .egress { slot := slot, bank := s.stride.cur, start := s.time.mono }, out := (s.egressBase c).1, emd := s.egressMd c }))
  ∧ (∀ (s : State) (k pipe : Nat), (s.cpy.at k).live = false ∨ (s.cpy.at k).place ≠ .selected ∨ pipeOf (s.cpy.at k).port ≠ pipe ∨
    (0 < (s.cpy.at k).cells ∧ (s.cpy.at k).crossed = 0) → exec (.egressStrideAdmit pipe k) s = .next s)
  ∧ (∀ (s : State) (k : Nat) (x : Ctx) (bad : List BadEntry), (s.cpy.at k).place = .egress x → x.words < 64 → s.time.mono < x.start + 640 → x.waits = none →
    s.stride.trace.at (2 * pipeOf (s.cpy.at k).port + 1) = false → (s.stride.image x.bank).builtin = true → (s.cpy.at k).rewrite = 0 →
    exec (.strideWord (.egress k) ⟨0, bad⟩) s = .next (s.keeping ((s.updCpy k (fun c => { c with out := (s.cpy.at k).out })).egressDone k)))
  ∧ (∀ (s : State) (k : Nat) (l : List Byte) (x : Bool), ((s.begin_ k l x).cpy.at k).out = l ∧
    ((s.begin_ k l x).cpy.at k).place = .sending (max s.time.mono (s.prt (s.cpy.at k).port).txFree) ∧
    ((s.begin_ k l x).cpy.at k).stomp = ((s.cpy.at k).stomp || x))
  ∧ (∀ (s : State) (k : Nat) (c : Copy) (b : List Byte), c = s.cpy.at k → s.mayEnd c = true → c.queue < 8192 →
    (s.prt c.port).loopback = 0 → s.ptpEvent c.port c.out = none → b = c.out ++ (if c.stomp then stompFcs c.out else leBytes 4 (crc32 c.out)) →
    (c.late = false → exec (.fcsSend k) s = .next ((s.emit (.frame c.port (c.queue % 16) b c.stomp)).endCopy k))
    ∧ (c.late = true → exec (.fcsSend k) s = .next (((s.count Stat.gateOverruns).emit (.frame c.port (c.queue % 16) b c.stomp)).endCopy k)))
  ∧ (∀ (s : State) (k : Nat), s.mayEnd (s.cpy.at k) = false → exec (.fcsSend k) s = .next s)

/-- Without GATE_ENABLE or an operational list every gate of a port is open and no window closes. The entry at a position is the one whose interval it falls in. A frame fits a window when its bytes and 8 more pass at the port's rate. GATE_ENTRY_CHANGE changes nothing while no frame is in transmission and none waits preempted; it preempts a frame whose gate closes when a fragment may end there, marks an express frame that runs past its close, and resumes a remainder whose gate opens. GATE_LIST_START puts a waiting list whose start has come in force, one that starts on a lap boundary only past it; before its start, or with none waiting, nothing changes. -/
def Obligations.GateListsFollowDeviceTime : Prop :=
  (∀ (s : State) (p c : Nat), s.activeList p = none → s.gateOpen p c = decide (c < 16) ∧ s.window p c = none ∧ s.wMax p c = none)
  ∧ (∀ (e : Nat) (l : List Nat) (i pos : Nat), pos < G.interval.get e → entryAt (e :: l) i pos = (i, G.interval.get e - pos))
  ∧ (∀ (e : Nat) (l : List Nat) (i pos : Nat), l ≠ [] → G.interval.get e ≤ pos → entryAt (e :: l) i pos = entryAt l (i + 1) (pos - G.interval.get e))
  ∧ (∀ (b rate : Nat), fitsWindow b rate none = true ∧ ∀ w, (fitsWindow b rate (some w) = true ↔ (b + 8) * 8 ≤ w * rate))
  ∧ (∀ (s : State) (p : Nat), s.sendingAt p = none → s.pausedAt p = none → exec (.gateEntryChange p) s = .next s)
  ∧ (∀ (s : State) (p k : Nat), s.sendingAt p = some k → (s.cpy.at k).port = p → s.canPreempt (s.cpy.at k) = true → s.gateOpen p ((s.cpy.at k).queue % 16) = false →
    ∃ t, exec (.gateEntryChange p) s = .next t ∧ t.offPath = s.offPath ∧ (t.cpy.at k).paused = true ∧
      (t.cpy.at k).sent = (s.cpy.at k).sent + s.fragment (s.cpy.at k) ∧ (t.prt (s.cpy.at k).port).txFree = s.time.mono + s.wireNs (s.cpy.at k).port 16)
  ∧ (∀ (s : State) (p k : Nat), s.sendingAt p = some k → s.gateOpen p ((s.cpy.at k).queue % 16) = true → exec (.gateEntryChange p) s = .next s)
  ∧ (∀ (s : State) (p k t e : Nat), s.sendingAt p = some k → (s.cpy.at k).queue < 8192 → s.gateOpen p ((s.cpy.at k).queue % 16) = false →
    s.preemptable p ((s.cpy.at k).queue % 16) = false → s.wireSpan (s.cpy.at k) = some (t, e) → t ≤ s.time.mono →
    exec (.gateEntryChange p) s = .next (if s.time.mono + s.wireNs p 12 < e then s.updCpy k (fun c => { c with late := true }) else s))
  ∧ (∀ (s : State) (p k : Nat), s.sendingAt p = none → s.pausedAt p = some k → s.selectedAt p = none → s.engineAt p = none → s.gateOpen p ((s.cpy.at k).queue % 16) = true →
    exec (.gateEntryChange p) s = .next (s.updCpy k (fun c => { c with paused := false, place := .sending (max s.time.mono (s.prt (s.cpy.at k).port).txFree) })))
  ∧ (∀ (s : State) (p k : Nat) (g : GateList), (s.gateProfile p k).wait = some g → g.start ≤ s.time.dev → g.start ≠ s.time.next →
    exec (.gateListStart p k) s = .next (({ s with sched := { s.sched with profile := s.sched.profile.upd (4 * p + k) (fun r => { r with oper := some g, wait := none }) } }).gateMoves p))
  ∧ (∀ (s : State) (p k : Nat), (s.gateProfile p k).wait = none ∨ (∃ g, (s.gateProfile p k).wait = some g ∧ (s.time.dev < g.start ∨ g.start = s.time.next)) →
    exec (.gateListStart p k) s = .next s)

/-- A queue that enters a ramp has TC and TP at 0; one already in a ramp keeps its buckets. Of two recovery ramps the later end applies. RAMP_END ends the ramps of the class that have come to their boundary; when with them the last ramp of the queue ends its credit is 0, and then the queue is no longer paced by its buckets; no other queue changes. -/
def Obligations.RampsBeginAndEnd : Prop :=
  (∀ (q : QState) (r : Option Nat), q.inRamp = false → (q.ramp (fun q => { q with recovery := r })).tc = 0 ∧ (q.ramp (fun q => { q with recovery := r })).tp = 0)
  ∧ (∀ (q : QState) (r : Option Nat), q.inRamp = true →
    (q.ramp (fun q => { q with recovery := r })).tc = q.tc ∧ (q.ramp (fun q => { q with recovery := r })).tp = q.tp)
  ∧ (∀ (s : State) (p c l : Nat), c < 16 → (s.qs (16 * p + c)).recovery = some l → ((s.recoveryRamp p).qs (16 * p + c)).recovery = some (max l (s.par P.recovRampLaps)))
  ∧ (∀ (s : State) (p c : Nat), ∃ t, exec (.rampEnd p c) s = .next t ∧ t = { s with sched := { s.sched with q := t.sched.q } } ∧
    (∀ k, k ≠ 16 * p + c → t.qs k = s.qs k) ∧
    (t.qs (16 * p + c)).startup = (s.qs (16 * p + c)).startup.filter (· != 0) ∧
    (t.qs (16 * p + c)).recovery = (s.qs (16 * p + c)).recovery.filter (· != 0) ∧
    ((s.qs (16 * p + c)).inRamp = true → (t.qs (16 * p + c)).inRamp = false → (t.qs (16 * p + c)).credit = 0 ∧ t.ramping (16 * p + c) = false) ∧
    ((t.qs (16 * p + c)).inRamp = true → (t.qs (16 * p + c)).credit = (s.qs (16 * p + c)).credit))

/-- With the time unit running, LAP_BOUNDARY carries time to the boundary, applies a pending step (order 1), counts the lap (order 2), activates what is due (order 3), sets the rate and the next boundary, and then runs orders 4 to 10, which do not touch the time unit; PPS_OUT rises at a second. With no phase to slew, device time reaches the boundary and the monotonic counter advances by the same nanoseconds. A step of d moves device time by d, counts TIME_STEPS and waits no longer. A committed LAP_RATE takes effect only at a second of device time. The next boundary is a multiple of the lap length in force, after device time, from half a lap to 1.5 laps ahead. -/
def Obligations.LapBoundaryFollowsItsOrders : Prop :=
  (∀ s : State, s.time.running = true → ∃ u : State, u = s.toBoundary.timeStep.lapCounted.order3.lapLength ∧
    ∃ t, exec .lapBoundary s = .next t ∧ t.time = u.time ∧ t.pending = s.pending ∧
      t = ({ u.order4to10 s.lap with time := u.time, pending := s.pending } : State).ppsOut)
  ∧ (∀ s : State, s.time.running = false → exec .lapBoundary s = .next s)
  ∧ (∀ s : State, s.time.slew = 0 → s.time.dev ≤ s.time.next →
    s.toBoundary.time = { s.time with dev := s.time.next, mono := s.time.mono + (s.time.next - s.time.dev) })
  ∧ (∀ (s : State) (d : Int), s.time.step = some d →
    s.timeStep.time = { s.time with dev := ((s.time.dev : Int) + d).toNat, step := none } ∧ s.timeStep.ctr.timeSteps = s.ctr.timeSteps + 1)
  ∧ (∀ s : State, s.time.step = none → s.timeStep = s)
  ∧ (∀ (s : State) (r : Nat), s.time.pendingRate = some r →
    (s.time.dev % 1000000000 = 0 → s.lapLength.time.lapRate = r ∧ s.lapLength.time.pendingRate = none)
    ∧ (s.time.dev % 1000000000 ≠ 0 → s.lapLength.time.lapRate = s.time.lapRate ∧ s.lapLength.time.pendingRate = some r))
  ∧ (∀ dev lap : Nat, 0 < lap → boundaryAfter dev lap % lap = 0 ∧ dev < boundaryAfter dev lap ∧
    lap ≤ 2 * (boundaryAfter dev lap - dev) ∧ 2 * (boundaryAfter dev lap - dev) ≤ 3 * lap)
  ∧ (∀ s : State, s.lapLength.time.next = boundaryAfter s.time.dev (1000000000 / s.lapLength.time.lapRate))
  ∧ (∀ s : State, (s.time.dev % 1000000000 = 0 → s.ppsOut = s.emit (.pps (s.time.dev / 1000000000))) ∧ (s.time.dev % 1000000000 ≠ 0 → s.ppsOut = s))

/-- A selection makes the profile active on its port and leaves the selection of every other port; the active profile selected again changes nothing. Of the host selections that are due, one for a port on which the GMU selected, and one followed by another for its port, is recorded with its rule and has no effect; the last one takes effect. Of two GMU requests for a port the one of lower rank, or of equal rank and higher trigger number, is recorded with R321. Each boundary takes one from the timers of HOLD, of both ramps and of the freeze list, adds one to the missed HELLOs of an adjacency, and starts new move and FEC counts. -/
def Obligations.ProfilesAndTimersAtTheBoundary : Prop :=
  (∀ (s : State) (p k : Nat), (s.setProfile p k).sched.sel.at p = k ∧ (s.sched.sel.at p = k → s.setProfile p k = s) ∧
    ∀ q, q ≠ p → (s.setProfile p k).sched.sel.at q = s.sched.sel.at q)
  ∧ (∀ (s : State) (gmu : List Nat) (n p k : Nat) (l : List (Nat × Nat)),
    (p ∈ gmu → s.hostProfiles gmu (n + 1) ((p, k) :: l) = (s.ruleEvent 35 p 0 [k]).hostProfiles gmu n l)
    ∧ (p ∉ gmu → (∃ e ∈ l, e.1 = p) → s.hostProfiles gmu (n + 1) ((p, k) :: l) = (s.ruleEvent 233 p 0 [k]).hostProfiles gmu n l)
    ∧ (p ∉ gmu → (∀ e ∈ l, e.1 ≠ p) → s.hostProfiles gmu (n + 1) ((p, k) :: l) = (s.setProfile p k).hostProfiles gmu n l))
  ∧ (∀ (s : State) (r t p k : Nat), s.gmu.req = [(r, t, p, k)] → s.gmuProfiles.sched.sel.at p = k ∧ s.gmuProfiles.gmu.req = [])
  ∧ (∀ (s : State) (r r' t t' p k k' : Nat), s.gmu.req = [(r, t, p, k), (r', t', p, k')] → r' < r ∨ (r' = r ∧ t < t') →
    s.gmuProfiles = (({ s with gmu := { s.gmu with req := [] } }).setProfile p k).ruleEvent 321 p 0 [t', k'])
  ∧ (∀ (s : State) (p n : Nat), s.port.wf = true → (s.prt p).hold = some (n + 1) →
    (s.lapTimers.prt p) = { s.prt p with hold := some n, fecLap := 0 })
  ∧ (∀ (s : State) (q n : Nat), s.sched.q.wf = true →
    ((s.qs q).startup = some (n + 1) → (s.lapTimers.qs q).startup = some n) ∧ ((s.qs q).recovery = some (n + 1) → (s.lapTimers.qs q).recovery = some n) ∧
    ((s.qs q).startup = none → (s.lapTimers.qs q).startup = none) ∧ ((s.qs q).recovery = none → (s.lapTimers.qs q).recovery = none))
  ∧ (∀ s : State, s.lapTimers.learn = { s.learn with moves := [], frozen := s.learn.frozen.map (fun f => (f.1, f.2 - 1)) } ∧
    s.lapTimers.tbl = s.tbl ∧ s.lapTimers.buf = s.buf ∧ s.lapTimers.sec = s.sec ∧ s.lapTimers.mbx = s.mbx)

/-- The arbiter takes the oldest event of a pipe's FIFO, at most one in a nanosecond and none while 1,024 windows are open: a window of its key that has ended is applied first. An event whose key is frozen is counted; one whose key a window holds contests; one whose key no window holds opens a window of 1,000 ns. Of two events of one port the earlier is kept, of two ports the earlier, then the lower port, and the contest is counted. A window that has ended is applied, or put aside while its port is being flushed. An entry of another instance is left and counted, a static one is counted, one that says the same stays, one of a frozen key is counted, and a move of a front entry sets TARGET and RESULT_TYPE; a move of a station entry goes to the Pacer. The move tracker counts the moves of a key in a lap; the ninth freezes it for 64 boundaries. A freeze whose boundaries are over ends, recorded. A writeback of a past generation is discarded and counted; another inserts the key into the station tier or moves its entry, a move the arbiter has not counted only as far as the tracker lets it. -/
def Obligations.LearnedKeysFollowTheirEvents : Prop :=
  (∀ (s u : State) (pipe : Nat) (e : LearnEvent) (rest : List LearnEvent), s.learn.fifo.at pipe = e :: rest →
    (1024 ≤ s.learn.window.length ∨ s.time.mono < s.learn.acceptAt → exec (.learnArbiterArrival pipe) s = .next s)
    ∧ (s.learn.window.length < 1024 → s.learn.acceptAt ≤ s.time.mono →
      u = { s with learn := { s.learn with fifo := s.learn.fifo.put pipe rest, acceptAt := s.time.mono + 1 } } →
      (∀ v : State, v = u.windowExpire e.key →
        (v.learn.frozen.any (fun f => f.1 == e.key) = true → exec (.learnArbiterArrival pipe) s = .next (s.keeping (v.count Stat.learnFrozen)))
        ∧ (v.learn.frozen.any (fun f => f.1 == e.key) = false →
          (∀ w, v.learn.window.find? (fun w => w.key == e.key) = some w → exec (.learnArbiterArrival pipe) s = .next (s.keeping (v.contest e w)))
          ∧ (v.learn.window.find? (fun w => w.key == e.key) = none → exec (.learnArbiterArrival pipe) s =
              .next (s.keeping { v with learn := { v.learn with window := v.learn.window ++ [{ e with expiry := 1000 + v.time.mono }] } }))))
      ∧ ((∀ w, s.learn.window.find? (fun w => w.key == e.key) = some w → s.time.mono < w.expiry) →
        (s.learn.frozen.any (fun f => f.1 == e.key) = true → exec (.learnArbiterArrival pipe) s = .next (u.count Stat.learnFrozen))
        ∧ (s.learn.frozen.any (fun f => f.1 == e.key) = false →
          (∀ w, s.learn.window.find? (fun w => w.key == e.key) = some w → exec (.learnArbiterArrival pipe) s = .next (s.keeping (u.contest e w)))
          ∧ ((∀ w ∈ s.learn.window, w.key ≠ e.key) → exec (.learnArbiterArrival pipe) s =
              .next { u with learn := { u.learn with window := s.learn.window ++ [{ e with expiry := 1000 + s.time.mono }] } })))))
  ∧ (∀ (s : State) (pipe : Nat), s.learn.fifo.at pipe = [] → exec (.learnArbiterArrival pipe) s = .next s)
  ∧ (∀ (s : State) (e w : LearnEvent),
    (e.port = w.port → later 32 w.stamp e.stamp = false → (s.contest e w).learn.window = s.learn.window.map (fun v => if v.key = w.key then w else v))
    ∧ (later 32 w.stamp e.stamp = true → (s.contest e w).learn.window = s.learn.window.map (fun v => if v.key = w.key then { e with expiry := w.expiry } else v))
    ∧ (e.port < w.port → e.stamp = w.stamp → s.contest e w =
      (s.count Stat.learnContests).updLearn (fun l => { l with window := l.window.map (fun v => if v.key = w.key then { e with expiry := w.expiry } else v) }))
    ∧ (w.port < e.port → e.stamp = w.stamp → s.contest e w = s.count Stat.learnContests))
  ∧ (∀ (s u : State) (key : Nat) (e : LearnEvent), s.learn.window.find? (fun w => w.key == key) = some e →
    u = { s with learn := { s.learn with window := s.learn.window.filter (fun w => w.key != key) } } →
    (e.expiry ≤ s.time.mono → e.port ∉ s.learn.flushing → s.frozen e.inst = false → exec (.learnWindowExpire key) s =
      .next (s.keeping (u.learnApply e)))
    ∧ (e.expiry ≤ s.time.mono → e.port ∈ s.learn.flushing → exec (.learnWindowExpire key) s =
      .next { u with learn := { u.learn with deferred := s.learn.deferred ++ [e] } })
    ∧ (s.time.mono < e.expiry → exec (.learnWindowExpire key) s = .next s))
  ∧ (∀ (s : State) (key : Nat), (∀ w ∈ s.learn.window, w.key ≠ key) → exec (.learnWindowExpire key) s = .next s)
  ∧ (∀ (s : State) (e : LearnEvent) (c : Nat × Nat) (r : Nat), s.learnFind e = some c → r = (s.entry c).result →
    (R.inst.get r ≠ e.inst → s.learnApply e = s.count Stat.learnTableFull)
    ∧ (R.inst.get r = e.inst → R.static.get r = 1 → s.learnApply e = s.count Stat.learnStaticHits)
    ∧ (R.inst.get r = e.inst → R.static.get r ≠ 1 → R.type.get r = 0 → R.target.get r = e.port → s.learnApply e = s)
    ∧ (R.inst.get r = e.inst → R.static.get r ≠ 1 → (R.type.get r ≠ 0 ∨ R.target.get r ≠ e.port) →
      (s.learn.frozen.any (fun f => f.1 == e.key) = true → s.learnApply e = s.count Stat.learnFrozen)
      ∧ (s.learn.frozen.any (fun f => f.1 == e.key) = false → ∀ u, u = (s.trackMove e.key).1 →
        ((s.trackMove e.key).2 = false → s.learnApply e = u)
        ∧ ((s.trackMove e.key).2 = true → c.1 < 2 → s.learnApply e =
            u.setEntry c { u.entry c with result := putFields (u.entry c).result [(R.type, 0), (R.target, e.port)] })
        ∧ ((s.trackMove e.key).2 = true → 2 ≤ c.1 → u.learn.queue.length < 65536 → s.learnApply e =
            { u with learn := { u.learn with queue := u.learn.queue ++ [(e, true)] } }))))
  ∧ (∀ (s : State) (key : Nat), s.learn.moves.find? (fun m => m.1 == key) = none → s.learn.moves.length < 4096 →
    s.trackMove key = ({ s with learn := { s.learn with moves := s.learn.moves ++ [(key, 1)] } }, true))
  ∧ (∀ (s : State) (key n : Nat), s.learn.moves.find? (fun m => m.1 == key) = some (key, n) →
    (n < 8 → s.trackMove key = (s.updLearn (fun l => { l with moves := l.moves.map (fun m => if m.1 = key then (key, n + 1) else m) }), true))
    ∧ (8 ≤ n → s.learn.frozen.length < 1024 → s.trackMove key =
      ((s.updLearn (fun l => { l with frozen := l.frozen ++ [(key, 64)] })).ruleEvent 134 (key / 2 ^ 64) 0 [key % 2 ^ 64], false)))
  ∧ (∀ (s : State) (key : Nat),
    ((key, 0) ∈ s.learn.frozen → exec (.learnFreezeEnd key) s =
      .next ((s.updLearn (fun l => { l with frozen := l.frozen.filter (fun f => f.1 != key) })).ruleEvent 134 (key / 2 ^ 64) 1 [key % 2 ^ 64]))
    ∧ ((key, 0) ∉ s.learn.frozen → exec (.learnFreezeEnd key) s = .next s))
  ∧ (∀ (s : State), s.learn.queue = [] ∨ s.pacer.down = true → exec .learnWriteback s = .next s)
  ∧ (∀ (s u : State) (e : LearnEvent) (m : Bool) (rest : List (LearnEvent × Bool)), s.learn.queue = (e, m) :: rest → s.pacer.down = false →
    u = s.updLearn (fun l => { l with queue := rest }) →
    (e.port ∈ s.learn.flushing → exec .learnWriteback s = .next s)
    ∧ (e.port ∉ s.learn.flushing →
    (s.instGen e.inst ≠ e.instGen → exec .learnWriteback s = .next (u.count Stat.falseStartDiscards (6 * e.inst + 5)))
      ∧ (s.instGen e.inst = e.instGen → s.frozen e.inst = false →
      (∀ v, v = (u.hbmAsk 5 (hbmStation + 64 * s.cfg.active.station1 (stationKey e.key)) 64 false (stationKey e.key)).hbmAsk 5
        (hbmStation + 64 * s.cfg.active.station1 (stationKey e.key)) 64 true (stationKey e.key) →
        (v.learnFind e = none → exec .learnWriteback s = .next (s.keeping (v.learnStation e)))
        ∧ (∀ c, v.learnFind e = some c → R.inst.get (v.entry c).result = e.inst → R.static.get (v.entry c).result ≠ 1 →
          (R.type.get (v.entry c).result ≠ 0 ∨ R.target.get (v.entry c).result ≠ e.port) →
          (m = true → exec .learnWriteback s = .next (s.keeping (v.moveEntry c e.port)))
          ∧ (m = false → v.learn.frozen.any (fun f => f.1 == e.key) = false → exec .learnWriteback s =
            .next (s.keeping (if (v.trackMove e.key).2 then (v.trackMove e.key).1.moveEntry c e.port else (v.trackMove e.key).1))))))))

/-- A step of the aging scan that begins where the last one ended takes its count of positions, none beyond what is due in the lap, and goes on from the front after the last of them: it removes each valid learned and unpinned entry there that was not hit, clears HIT of every other valid one, and leaves all other entries; any other step, and every one with AGE_LAPS 0, changes nothing. A flush step removes the learned and unpinned entries of its port within its range and no other; the flush ends with the last of them, and an event that waited for it is applied. The scrub meets, in its due part, a bad entry, which it counts, records and raises and keeps as bad, or a bad row or lane, which loses VALID in the copy of its quadrant, and it moves on to the end of that part. The move engine rewrites a row from the shadow in the copy that lost it. A draining record is free at the first boundary past its fence. A stream past RESET_MS has SEQ_VALID cleared, and its other fields kept. A visit of a meter brings both buckets up to the present and changes no other field. (The pace and the position of the aging scan and the scrub are the model's choice, log entry 147.) -/
def Obligations.ScansReachEveryEntry : Prop :=
  (∀ (s : State) (tier first count n : Nat), s.par P.ageLaps ≠ 0 → s.pacer.down = false → s.tbl.wf → s.tbl.age.pos % scanSpan = scanPos (tier, first) →
    n = min count (s.tbl.age.due (2 * scanSpan) (s.par P.ageLaps) - s.tbl.age.pos) →
    ∃ t, exec (.ageScan tier first count) s = .next t ∧ t = { s with tbl := t.tbl } ∧ t.tbl.age = { s.tbl.age with pos := s.tbl.age.pos + n } ∧
      ∀ (c : Nat × Nat) (visit : Nat → Nat → Entry → Entry), c.1 ≤ 3 →
        (∀ a k e, visit a k e = if e.valid = true ∧ inScan a k c = true then
          (if R.learned.get e.result = 1 ∧ R.pinned.get e.result = 0 ∧ e.hit = false then {}
            else { e with hit := false, par := ({ e with hit := false } : Entry).parityIn c.1 })
          else e) →
        t.entry c = visit 0 (scanPos (tier, first) + n - scanSpan) (visit (scanPos (tier, first)) (min n (scanSpan - scanPos (tier, first))) (s.entry c)))
  ∧ (∀ (s : State) (tier first count : Nat), s.par P.ageLaps = 0 ∨ s.pacer.down = true ∨ s.tbl.age.pos % scanSpan ≠ scanPos (tier, first) →
    exec (.ageScan tier first count) s = .next s)
  ∧ (∀ (s : State) (port first count : Nat), port ∈ s.learn.flushing → s.pacer.down = false → s.tbl.wf →
    ∃ u : State, u = { s with tbl := u.tbl } ∧
      (∀ c : Nat × Nat, c.1 ≤ 3 → u.entry c =
        if (s.entry c).valid = true ∧ flushes port (s.entry c) = true ∧ inScan first count c = true then {} else s.entry c) ∧
      (u.allEntries.any (fun e => flushes port e.2) = true → exec (.learnFlush port first count) s = .next u) ∧
      (u.allEntries.any (fun e => flushes port e.2) = false → ∀ v : State, v = { u with learn := { s.learn with
          flushing := s.learn.flushing.filter (· != port), deferred := s.learn.deferred.filter (fun e => e.port != port) } } →
        ((∀ e ∈ s.learn.deferred, e.port ≠ port) → exec (.learnFlush port first count) s = .next v) ∧
        (∀ e, s.learn.deferred.filter (fun e => e.port == port) = [e] → s.frozen e.inst = false →
          exec (.learnFlush port first count) s = .next (s.keeping (v.learnApply e)))))
  ∧ (∀ (s : State) (port first count : Nat), port ∉ s.learn.flushing ∨ s.pacer.down = true → exec (.learnFlush port first count) s = .next s)
  ∧ (∀ (s : State) (e : BadEntry) (p due : Nat), s.pacer.down = false → due = s.tbl.scrub.due scrubSpan (s.par P.scrubLaps) →
    scrubPlace e = some p → s.tbl.scrub.pos ≤ p → p < due →
    (e.kind < 4 → badCode e.kind e.index ∉ s.tbl.bad → ∃ u : State,
      u = ((s.count Stat.tableParityErrors).ruleEvent 138 e.index 0 [e.kind]).raise 176 e.kind ∧
      exec (.tableScrub [e]) s = .next (s.keeping { u with tbl := { u.tbl with
        bad := u.tbl.bad ++ [badCode e.kind e.index], scrub := { s.tbl.scrub with pos := max s.tbl.scrub.pos due } } }))
    ∧ (e.kind = 6 → ∀ addr quad : Nat, addr = e.index % 2 ^ 20 → quad = e.index / 2 ^ 20 % 4 → ∃ u : State,
      u = { s with srch := { s.srch with
        pfx := s.srch.pfx.upd addr (fun p => if p.valid then { p with lost := p.lost ||| 2 ^ quad } else p)
        moves := s.srch.moves.filter Move.isShadow ++ [Move.shadow 6 addr quad] ++ s.srch.moves.filter (fun m : Move => !m.isShadow) } } ∧
      ∃ v : State, v = (u.ruleEvent 161 addr 0 [1, quad]).raise (148 + quad) 0 ∧
        exec (.tableScrub [e]) s = .next (s.keeping { v with tbl := { v.tbl with scrub := { s.tbl.scrub with pos := max s.tbl.scrub.pos due } } })))
  ∧ (∀ (s : State) (addr quad : Nat) (rest : List Move), s.srch.moves = .shadow 5 addr quad :: rest → s.srch.rule.has addr = true →
    bit (s.srch.rule.at addr).lost quad = true → exec .moveEngineUpdate s = .next (s.keeping { s.pacerAsk false with srch := { s.srch with
      moves := rest, rule := s.srch.rule.put addr ({ s.srch.rule.at addr with lost := (s.srch.rule.at addr).lost - 2 ^ quad } : Rule).sealed } }))
  ∧ (∀ (s : State) (session seq pos op : Nat) (bytes : List Byte) (rest : List Move) (j : Job), s.srch.moves = .entry session seq pos op bytes :: rest →
    s.job session seq = some j → j.rstate = 1 → j.abort = false →
    (s.mbx.batchUsed < s.batchBudget → ∀ u r, ({ s with srch := { s.srch with moves := rest } }).moveOne op j.inst bytes = (u, r) →
      exec .moveEngineUpdate s = .next (s.keeping (({ u.pacerAsk true with mbx := { u.mbx with batchUsed := u.mbx.batchUsed + 1 } }).moveEntryDone j op r.1 r.2)))
    ∧ (s.batchBudget ≤ s.mbx.batchUsed → exec .moveEngineUpdate s = .next s))
  ∧ (∀ (s : State), s.srch.moves = [] → exec .moveEngineUpdate s = .next s)
  ∧ (∀ (s : State) (kind index : Nat), (s.obj kind index).st = 2 → (s.obj kind index).fence ≤ s.time.lapAt →
    (∀ j ∈ s.running, j.kind ≠ .objDelete kind index) → exec (.recordFencePass kind index) s = .next (s.setObj kind index {}))
  ∧ (∀ (s : State) (kind index : Nat), (s.obj kind index).st ≠ 2 ∨ s.time.lapAt < (s.obj kind index).fence → exec (.recordFencePass kind index) s = .next s)
  ∧ (∀ (s : State) (index : Nat), (s.obj K.stream index).st ≠ 0 → S.seqValid.get (s.obj K.stream index).words = 1 →
    S.resetMs.get (s.obj K.stream index).words ≤ s.ageMs (S.lastAccept.get (s.obj K.stream index).words) →
    ∃ t, exec (.streamResetScan index) s = .next t ∧ S.seqValid.get (t.obj K.stream index).words = 0 ∧
      S.recovSeq.get (t.obj K.stream index).words = S.recovSeq.get (s.obj K.stream index).words ∧
      S.takeNoSeq.get (t.obj K.stream index).words = S.takeNoSeq.get (s.obj K.stream index).words ∧
      ∀ k, k ≠ K.stream * 2 ^ 20 + index → t.tbl.obj.at k = s.tbl.obj.at k)
  ∧ (∀ (s : State) (m e : Nat), (s.obj K.meter m).st ≠ 0 → e = (s.time.mono % 2 ^ 32 + 2 ^ 32 - T.last.get (s.obj K.meter m).words) % 2 ^ 32 →
    ∃ t, exec (.meterVisit m) s = .next t ∧ T.last.get (t.obj K.meter m).words = s.time.mono % 2 ^ 32 ∧
      T.tc.get (t.obj K.meter m).words = unsigned 32 (min ((T.cbs.get (s.obj K.meter m).words : Int) * 32)
        (signed 32 (T.tc.get (s.obj K.meter m).words) + ((T.cir.get (s.obj K.meter m).words * e * 16 / 62500 : Nat) : Int))) ∧
      T.tpe.get (t.obj K.meter m).words = unsigned 32 (min ((T.pebs.get (s.obj K.meter m).words : Int) * 32)
        (signed 32 (T.tpe.get (s.obj K.meter m).words) + ((T.peir.get (s.obj K.meter m).words * e * 16 / 62500 : Nat) : Int))) ∧
      T.green.get (t.obj K.meter m).words = T.green.get (s.obj K.meter m).words ∧ T.cbs.get (t.obj K.meter m).words = T.cbs.get (s.obj K.meter m).words ∧
      ∀ k, k ≠ K.meter * 2 ^ 20 + m → t.tbl.obj.at k = s.tbl.obj.at k)

/-- The victim of a fill is a FREE slot, or a VALID one under LRU without a reference. The oldest waiting fill takes it, and asks for the record of its key; at most two fills are in the engine, and a prefetch without a victim is given up and counted. A record that has changed, or whose STATE_MAC does not fit it, is recorded with R284, raised, and its fill ends without a key; a sound one is unwrapped under the KEK. A fill of a past generation frees its slot and is counted; another makes its slot VALID with the 16 replicas of its round keys and the counts its record reserves, and releases the bench. A head frame of the bench whose key no slot holds asks again; one still arriving, or still in the CMAC unit, stays; a whole one of a past generation is counted and dropped. No frame leaves the bench before BENCH_TIMEOUT; a frame past it is counted and dropped. A timed hold that has ended is given up, and its prefetched slot returns to LRU unless it is also held until its key is current. TRNG health is raised and cleared. -/
def Obligations.KeysComeFromTheVault : Prop :=
  (∀ (s : State) (i : Nat), s.victim = some i → i < 32 ∧ ((s.sec.slot.at i).st = 0 ∨
    ((s.sec.slot.at i).st = 2 ∧ (s.sec.slot.at i).policy = 0 ∧ (s.sec.slot.at i).refs = 0 ∧ ∀ j < 32, (s.sec.slot.at j).st ≠ 0)))
  ∧ (∀ (s : State) (f : Fill), (s.sec.fills.filter (fun f => f.slot.isSome)).length < 2 → s.sec.fills.find? (fun f => f.slot.isNone) = some f →
    (∀ i, s.victim = some i → ∃ u : State, u = (s.evict i).updSec (fun x => { x with
        slot := x.slot.put i { st := 1, policy := f.policy, assoc := f.assoc, keyNum := f.keyNum, gen := f.gen } }) ∧
      exec .fillRequestPost s = .next (s.keeping ((u.updFill f (fun h => { h with slot := some i })).hbmAsk 1 (vaultAddr f.assoc f.keyNum) 128 false i)))
    ∧ (s.victim = none → f.policy = 2 → exec .fillRequestPost s = .next (s.keeping ((s.count Stat.prefetchMisses).endFill f)))
    ∧ (s.victim = none → f.policy ≠ 2 → exec .fillRequestPost s = .next s))
  ∧ (∀ s : State, 2 ≤ (s.sec.fills.filter (fun f => f.slot.isSome)).length → exec .fillRequestPost s = .next s)
  ∧ (∀ (s : State) (f : Fill) (v : VaultRec) (intact : Bool), s.sec.fills.find? (fun f => f.slot.isSome && !f.read) = some f → v = s.sec.vault.at (4 * f.assoc + f.keyNum) →
    (v.valid = false → exec (.vaultRecordReturn intact) s = .next (s.keeping (s.failFill f)))
    ∧ (v.valid = true → (intact = false ∨ v.mac ≠ v.stateMac s.sec.keys.smk f.assoc f.keyNum ∨ Crypto.kwUnwrap s.sec.keys.kek v.wrapped = none) →
      exec (.vaultRecordReturn intact) s = .next (s.keeping (((s.ruleEvent 284 (4 * f.assoc + f.keyNum) 0 [] f.inst).raise 177 0).failFill f)))
    ∧ (∀ key, v.valid = true → v.mac = v.stateMac s.sec.keys.smk f.assoc f.keyNum → Crypto.kwUnwrap s.sec.keys.kek v.wrapped = some key →
      exec (.vaultRecordReturn true) s = .next (s.updFill f (fun h => { h with read := true, key := key }))))
  ∧ (∀ (s : State) (f : Fill) (v : VaultRec) (i : Nat), s.sec.fills.find? (fun f => f.read) = some f → v = s.sec.vault.at (4 * f.assoc + f.keyNum) → f.slot = some i →
    (s.instGen f.inst ≠ f.gen → exec .slotValid s = .next (s.keeping
      (((s.updSec (fun x => { x with slot := x.slot.del i })).endFill f).count Stat.falseStartDiscards (6 * f.inst + 2)).releaseAll))
    ∧ (s.instGen f.inst = f.gen → v.valid = false → exec .slotValid s = .next (s.keeping (s.failFill f)))
    ∧ (s.instGen f.inst = f.gen → v.valid = true → ∀ (u : State) (k : KeySlot), k = s.sec.slot.at i → u = s.endFill f →
      exec .slotValid s = .next (s.keeping ((({ u with sec := { u.sec with slot := u.sec.slot.put i { k with
        st := 2, policy := if s.parOn P.asSlotPolicy f.assoc then 1 else f.policy, age := BitVec.ofNat 32 s.time.mono
        timed := if f.policy = 2 ∧ f.holdEnd.isSome then true else k.timed
        untilCurrent := if f.policy = 2 ∧ f.holdEnd = none then true else k.untilCurrent
        holdEnd := if f.policy = 2 then (k.hold f.holdEnd).holdEnd else k.holdEnd
        replica := (List.range 16).map (fun p => (p, { rounds := Crypto.roundKeys (keyBytes v.mode f.key), h := Crypto.hashKey (Crypto.roundKeys (keyBytes v.mode f.key)) }))
        useCount := v.useReserved, useReserved := v.useReserved, nextPn := v.nextPn, lowestPn := v.lowestPn
        txPn := v.txReserved, txReserved := v.txReserved } } } : State).slotLimit i).releaseAll))))
  ∧ (∀ (s : State) (port cls n a k pn : Nat) (l : List Nat), s.sec.bench.at (16 * port + cls) = n :: l → s.authPlan (s.pkt.at n) = .key a k pn →
    isHmac ((s.bankOf (s.pkt.at n).gen).getN P.asMode a) = false →
    (s.slotOf a k = none → s.sec.fills.length < 64 → (∀ g ∈ s.sec.fills, g.assoc ≠ a ∨ g.keyNum ≠ k) →
      exec (.benchFaultRetry port cls) s = .next { s with sec := { s.sec with
        fills := s.sec.fills ++ [{ assoc := a, keyNum := k, inst := (s.pkt.at n).inst, gen := (s.pkt.at n).instGen }] } })
    ∧ (∀ i, s.slotOf a k = some i →
      ((s.pkt.at n).ended = false ∨ (s.pkt.at n).cmac ≠ none → exec (.benchFaultRetry port cls) s = .next s)
      ∧ ((s.pkt.at n).ended = true → (s.pkt.at n).cmac = none → s.instGen (s.pkt.at n).inst ≠ (s.pkt.at n).instGen → l = [] →
        exec (.benchFaultRetry port cls) s = .next (s.keeping (((s.leaveBench n).count Stat.falseStartDrops (s.pkt.at n).inst).drop n)))))
  ∧ (∀ (s : State) (port cls : Nat), s.sec.bench.at (16 * port + cls) = [] → exec (.benchFaultRetry port cls) s = .next s)
  ∧ (∀ (s : State) (port cls : Nat), (∀ n ∈ s.sec.bench.at (16 * port + cls), s.time.mono - (s.pkt.at n).arrived < s.par P.benchTimeout * 1000) →
    exec (.benchTimeout port cls) s = .next s)
  ∧ (∀ (s : State) (port cls n : Nat), s.sec.bench.at (16 * port + cls) = [n] → s.par P.benchTimeout * 1000 ≤ s.time.mono - (s.pkt.at n).arrived →
    exec (.benchTimeout port cls) s = .next (s.keeping (((s.leaveBench n).count Stat.benchTimeoutDrops (s.pkt.at n).port).drop n)))
  ∧ (∀ (s : State) (i : Nat) (k : KeySlot), k = s.sec.slot.at i →
    (k.timed = true → later 32 k.holdEnd.toNat s.time.mono = false → exec (.prefetchHoldEnd i) s = .next (s.updKey i (fun _ =>
      { k with timed := false, holdEnd := 0, policy := if k.policy = 2 ∧ k.untilCurrent = false then 0 else k.policy })))
    ∧ (k.timed = false ∨ later 32 k.holdEnd.toNat s.time.mono = true → exec (.prefetchHoldEnd i) s = .next s))
  ∧ (∀ s : State, exec .trngHealthFail s = .next (s.keeping (({ s with sec := { s.sec with trngFailed := true } }).raise 178 0)) ∧
    exec .trngHealthPass s = .next (({ s with sec := { s.sec with trngFailed := false } }).clearCond 178 0))

/-- The oldest copy whose tail and verdict are known leaves the input queue, in the order of the queue: one of a disabled tap has no effect, one that R60 would discard, one without the required verdict and one without a savPdu are counted. A stream without a sample for LOSS_US is lost and its windows restart. The oldest closed lap of a tap completes and no other. A trigger whose condition holds for PICKUP_LAPS evaluated laps fires and counts it, and one whose condition does not hold is ARMED; under- and overvoltage compare the square of the quantity with the square of the threshold in thousandths of the nominal value. A finished channel has its RMS, its phasor and, where they are valid, its frequency and ROCOF as singles in engineering units. A capture past its post end is complete and recorded, and its interrupt follows if its trigger had one. A CFG-2 frame goes out at enable and every PMU_CFG_S. -/
def Obligations.GridRowsMeasure : Prop :=
  (∀ (s : State) (l m : List (Nat × Nat)) (k n : Nat), s.gmu.queue = l ++ (k, n) :: m → (∀ e ∈ l, (s.pkt.at e.2).gmuReady = false) →
    (s.pkt.at n).gmuReady = true → ∃ u : State, u = s.gmuCopy k n ∧
      exec .gmuCopyEntry s = .next (s.keeping (({ u with gmu := { u.gmu with queue := u.gmu.queue.filter (fun e => e.2 != n) } }).reap n)))
  ∧ (∀ s : State, (∀ e ∈ s.gmu.queue, (s.pkt.at e.2).gmuReady = false) → exec .gmuCopyEntry s = .next s)
  ∧ (∀ (s : State) (k n : Nat),
    (s.parOn P.tapEnable k = false → s.gmuCopy k n = s)
    ∧ (s.parOn P.tapEnable k = true → ((s.pkt.at n).r60 = true → s.gmuCopy k n = s.count Stat.gmuRxErrors k)
      ∧ ((s.pkt.at n).r60 = false → s.parOn P.requirePass k = true → (s.pkt.at n).verdict ≠ .pass → s.gmuCopy k n = s.count Stat.gmuUnverified k)
      ∧ ((s.pkt.at n).r60 = false → s.parOn P.requirePass k = false → (s.pkt.at n).samples (s.par P.channels k) = none →
        s.gmuCopy k n = s.count Stat.gmuParseErrors k)))
  ∧ (∀ (s : State) (k : Nat), s.parOn P.tapEnable k = true → (s.gmu.tap.at k).lost = false →
    ((s.gmu.tap.at k).lastUsed + s.par P.lossUs k * 1000 ≤ s.time.mono → exec (.streamLost k) s =
      .next (s.updTap k (fun t => { t.restart with lost := true, ch := t.ch.mapAll (fun _ h => { pts := { t := s.time.dev } :: h.pts }) })))
    ∧ (s.time.mono < (s.gmu.tap.at k).lastUsed + s.par P.lossUs k * 1000 → exec (.streamLost k) s = .next s))
  ∧ (∀ (s : State) (k : Nat) (r : GRecord) (rest : List GRecord), (s.gmu.tap.at k).closing = r :: rest → bit r.health 0 = false → bit r.health 11 = false →
    s.cfg.active.triggersOn false k = [] → s.cfg.active.tripletsOf k = [] →
    ∃ t, exec (.gmuFinish k) s = .next t ∧ t = { s with gmu := { s.gmu with tap := t.gmu.tap } } ∧
      t.gmu.tap.at k = { s.gmu.tap.at k with closing := rest, done := (s.gmu.tap.at k).done ++ [r] } ∧ ∀ j, j ≠ k → t.gmu.tap.at j = s.gmu.tap.at j)
  ∧ (∀ (s : State) (k : Nat), (s.gmu.tap.at k).closing = [] → exec (.gmuFinish k) s = .next s)
  ∧ (∀ (s : State) (k : Nat) (r : GRecord) (o : ChanOut) (p : Point) (l : List Point), bit r.health 0 = true → bit r.health 16 = false →
    r.chans = [o] → o.pts = p :: l → ∃ o' : ChanOut, (s.outputs k r).2.chans = [o'] ∧ o'.rms = s.cfg.active.rms k 0 o.sumsq ∧
      o'.re = singleOf (engOf (s.par P.chFullScale (8 * k)) p.re) (2 ^ 200) ∧ o'.im = singleOf (engOf (s.par P.chFullScale (8 * k)) p.im) (2 ^ 200) ∧
      (∀ f, p.okF = true → p.f = some f → o'.f = singleOf f (2 ^ 40)) ∧ (∀ f, p.okR = true → p.rocof = some f → o'.rocof = singleOf f (2 ^ 40)) ∧
      o'.sumsq = o.sumsq)
  ∧ (∀ (s : State) (k : Nat) (q : Quantity) (lost : Bool) (u : State), u = s.evalTrigger k q lost → (s.gmu.trig.at k).st ≠ 2 →
    ((trigCondition (s.par P.trigType k) (s.par P.trigThreshold k) (s.par P.trigHyst k) q lost).1 = true →
      ((s.gmu.trig.at k).count + 1 ≠ s.par P.pickupLaps k → (u.gmu.trig.at k).st = 1 ∧ (u.gmu.trig.at k).count = (s.gmu.trig.at k).count + 1)
      ∧ ((s.gmu.trig.at k).count + 1 = s.par P.pickupLaps k → (u.gmu.trig.at k).st = 2 ∧ (u.gmu.trig.at k).fires = (s.gmu.trig.at k).fires + 1 ∧
        (u.gmu.trig.at k).fireLap = q.lap))
    ∧ ((trigCondition (s.par P.trigType k) (s.par P.trigThreshold k) (s.par P.trigHyst k) q lost).1 = false →
      (u.gmu.trig.at k).st = 0 ∧ (u.gmu.trig.at k).count = 0))
  ∧ (∀ (t h : Nat) (q : Quantity) (lost : Bool),
    (trigCondition 0 t h q lost).1 = (q.ok && decide (q.sq.1 * 1000000 * (sqOf q.nominal).2 < t * t * (sqOf q.nominal).1 * q.sq.2))
    ∧ (trigCondition 1 t h q lost).1 = (q.ok && decide (t * t * (sqOf q.nominal).1 * q.sq.2 < q.sq.1 * 1000000 * (sqOf q.nominal).2))
    ∧ trigCondition 6 t h q lost = (lost, !lost))
  ∧ (∀ (s : State) (i : Nat) (c : Capture) (inst : Nat), c = s.gmu.capture.at i → c.held = true → c.complete = false →
    inst = s.par P.tapInstance (s.cfg.active.trigTap c.trig) →
    (c.stop ≤ s.time.dev → c.intr = false → exec (.capturePostEnd i) s = .next (({ s with gmu := { s.gmu with
      capture := s.gmu.capture.put i { c with complete := true } } }).ruleEvent 324 c.trig 1 [i] inst))
    ∧ (c.stop ≤ s.time.dev → c.intr = true → exec (.capturePostEnd i) s = .next ((({ s with gmu := { s.gmu with
      capture := s.gmu.capture.put i { c with complete := true } } }).ruleEvent 324 c.trig 1 [i] inst).cause inst 2))
    ∧ (s.time.dev < c.stop → exec (.capturePostEnd i) s = .next s))
  ∧ (∀ (s : State) (o : Nat), o < 8 → s.parOn P.pmuEnable o = true →
    ((s.gmu.pmu.at o).sentCfg = false ∨ (s.gmu.pmu.at o).lastCfg + 1000000000 * s.par P.pmuCfgS o ≤ s.time.mono →
      (s.cfg2Body o).take 4 = beBytes 2 0xAA32 ++ beBytes 2 (54 + 20 * s.par P.pmuNph o) ∧ ∃ u : State, u = { s with gmu := { s.gmu with pmu := s.gmu.pmu.upd o (fun p => { p with sentCfg := true, lastCfg := s.time.mono }) } } ∧
        exec (.pmuCfgSend o) s = .next (s.keeping (u.sendOwn (16 * s.par P.pmuPort o + s.par P.pmuClass o) 0 (pmuFrame (s.cfg.active.pmuHdr o) (withChk (s.cfg2Body o)))).1))
    ∧ ((s.gmu.pmu.at o).sentCfg = true → s.time.mono < (s.gmu.pmu.at o).lastCfg + 1000000000 * s.par P.pmuCfgS o → exec (.pmuCfgSend o) s = .next s))

/-- Under DISCOVER an ID without a conflict for 4 laps is settled and recorded. A HELLO of the same FABRIC_ID forms or refreshes the adjacency of its port, one of another is recorded, forms none and raises source 191, and a frame with a bad relay header is counted. An adjacency that has missed HELLO_MISS hellos ends with reroute. A device in fabric service sends its LSA with the next sequence number on every adjacency, on a change and once per second. An LSA that is neither newer nor of a new device changes nothing; a newer one is stored; one of a device never seen before gives it full credit and starts its sequence numbers at 0. One not refreshed for 3 s is removed. When the database has changed, every other device in it gets its path set, of at most 64 ports with an adjacency. -/
def Obligations.FabricLearnsItsDevices : Prop :=
  (∀ s : State, s.parOn P.fabricEnable = true → s.par P.idMode = 1 → s.fab.settled = false → s.idConflict = false →
    (4 ≤ s.fab.calm → exec .idSettle s = .next (({ s with fab := { s.fab with settled := true } }).ruleEvent 330 s.fab.id 0))
    ∧ (s.fab.calm < 4 → exec .idSettle s = .next s))
  ∧ (∀ (s : State) (port : Nat) (bytes : List Byte), s.parOn P.fabricEnable = true → s.parOn P.portRole port = true → s.isUp port = true →
    (s.relayHeaderOk bytes = false → exec (.helloReceive port bytes) s = .next (s.count Stat.relayHdrErrors))
    ∧ (s.relayHeaderOk bytes = true → H.type.get (beAt bytes 0 16) = 1 → 20 ≤ (bytes.drop 16).length →
      (beAt (bytes.drop 16) 0 4 ≠ s.par P.fabricId → exec (.helloReceive port bytes) s = .next (s.keeping ((s.ruleEvent 333 port 0 [beAt (bytes.drop 16) 0 4]).raise 191 0)))
      ∧ (beAt (bytes.drop 16) 0 4 = s.par P.fabricId → ∃ t, exec (.helloReceive port bytes) s = .next t ∧ t = { s with fab := t.fab } ∧
        t.fab.adj.at port = { up := true, peer := H.src.get (beAt bytes 0 16), serial := beAt (bytes.drop 16) 4 8, nonce := beAt (bytes.drop 16) 12 4 } ∧
        (∀ p, p ≠ port → t.fab.adj.at p = s.fab.adj.at p) ∧ t.fab.lsdb = s.fab.lsdb ∧
        ((s.fab.adj.at port).up = false → t.fab.lsaDue = true ∧ t.fab.stale = true))))
  ∧ (∀ (s : State) (port : Nat), (s.fab.adj.at port).up = true →
    (s.par P.helloMiss ≤ (s.fab.adj.at port).miss → exec (.helloMissExpire port) s = .next (s.keeping (s.relayDown port false)))
    ∧ ((s.fab.adj.at port).miss < s.par P.helloMiss → exec (.helloMissExpire port) s = .next s))
  ∧ (∀ s : State, s.parOn P.fabricEnable = true →
    (s.fab.lsaDue = true ∨ s.fab.lsaAt + 1000000000 ≤ s.time.mono → ∃ u : State,
      u = { s with fab := { s.fab with lsaSeq := (s.fab.lsaSeq + 1) % 2 ^ 32, lsaDue := false, lsaAt := s.time.mono } } ∧
      exec .lsaSend s = .next (s.keeping (u.forEach s.adjacent (fun v p => v.sendControl p (v.controlFrame 0 3 u.lsaBody)))))
    ∧ (s.fab.lsaDue = false → s.time.mono < s.fab.lsaAt + 1000000000 → exec .lsaSend s = .next s))
  ∧ (∀ (s : State) (port d n : Nat) (bytes body : List Byte) (old : Lsa), s.parOn P.fabricEnable = true → s.parOn P.portRole port = true → s.isUp port = true →
    s.relayHeaderOk bytes = true → H.type.get (beAt bytes 0 16) = 3 → body = bytes.drop 16 → d = H.src.get (beAt bytes 0 16) → n = beAt body 20 2 → n ≤ 512 →
    22 + 4 * n ≤ body.length → beAt body 0 4 = s.par P.fabricId → beAt body 4 8 ≠ serialNo → (s.fab.adj.at port).up = true →
    old = s.fab.lsdb.at d → old.present = true → beAt body 12 4 = old.nonce →
    (later 32 (beAt body 16 4) old.seq = false → exec (.lsaReceive port bytes) s = .next s)
    ∧ (later 32 (beAt body 16 4) old.seq = true → s.adjacent = [port] → s.par P.idMode = 0 → d ≠ s.fab.id → ∃ t, exec (.lsaReceive port bytes) s = .next t ∧
      t = { s with fab := t.fab } ∧ t.fab.adj = s.fab.adj ∧ (∀ k, k ≠ d → t.fab.lsdb.at k = s.fab.lsdb.at k) ∧
      t.fab.lsdb.at d = { present := true, serial := beAt body 4 8, nonce := beAt body 12 4, seq := beAt body 16 4, at_ := s.time.mono
                          entries := (List.range n).map (fun i => beAt body (22 + 4 * i) 4) }))
  ∧ (∀ (s : State) (port d n : Nat) (bytes body : List Byte), s.parOn P.fabricEnable = true → s.parOn P.portRole port = true → s.isUp port = true →
    s.relayHeaderOk bytes = true → H.type.get (beAt bytes 0 16) = 3 → body = bytes.drop 16 → d = H.src.get (beAt bytes 0 16) → n = beAt body 20 2 → n ≤ 512 →
    22 + 4 * n ≤ body.length → beAt body 0 4 = s.par P.fabricId → beAt body 4 8 ≠ serialNo → (s.fab.adj.at port).up = true →
    d ∉ s.fab.lsdb.keys → s.adjacent = [port] → s.par P.idMode = 0 → d ≠ s.fab.id → (∀ k < 8, (s.fab.anchor.at (8 * d + k)).held = []) →
    ∃ t, exec (.lsaReceive port bytes) s = .next t ∧ t = { s with fab := t.fab } ∧ t.fab.stale = true ∧
      (∀ k < 8, t.fab.credit.at (8 * d + k) = s.par P.creditInit k ∧ t.fab.seqctr.at (8 * d + k) = 0) ∧
      t.fab.lsdb.at d = { present := true, serial := beAt body 4 8, nonce := beAt body 12 4, seq := beAt body 16 4, at_ := s.time.mono
                          entries := (List.range n).map (fun i => beAt body (22 + 4 * i) 4) })
  ∧ (∀ (s : State) (d : Nat), (s.fab.lsdb.at d).present = true →
    ((s.fab.lsdb.at d).at_ + 3000000000 ≤ s.time.mono → exec (.lsaAgeOut d) s = .next { s with fab := { s.fab with
      lsdb := s.fab.lsdb.put d { s.fab.lsdb.at d with present := false, entries := [] }, stale := true } })
    ∧ (s.time.mono < (s.fab.lsdb.at d).at_ + 3000000000 → exec (.lsaAgeOut d) s = .next s))
  ∧ (∀ s : State, s.parOn P.fabricEnable = true → s.pacer.down = false → s.fab.stale = true → ∃ t, exec .pathsetInstall s = .next t ∧
    t = { s with fab := t.fab } ∧ t.fab.stale = false ∧ t.fab.lsdb = s.fab.lsdb ∧ t.fab.adj = s.fab.adj ∧
    ∀ d, t.fab.path.at d = if d ∈ (s.fab.lsdb.filter (fun e => e.2.present && e.1 != s.fab.id)).map (·.1)
      then s.pathSet s.links ((s.fab.lsdb.filter (fun e => e.2.present && e.1 != s.fab.id)).length + 1) d else [])
  ∧ (∀ s : State, s.fab.stale = false → exec .pathsetInstall s = .next s)
  ∧ (∀ (s : State) (l : List (Nat × Nat × Nat)) (r d : Nat), (s.pathSet l r d).length ≤ 64 ∧ ∀ p ∈ s.pathSet l r d, p ∈ s.adjacent)

/-- The selected VOQ's head frame goes to the first member of its path set, from its pointer on, whose FIFO has room, with the next sequence number of its destination and class, and takes its cells from the credit; a head frame that has stayed 1.0 s is discarded; with no path set it ends, counted, and with every FIFO full the VOQ is blocked and counted. A CREDIT frame carries the counts that have changed since the last one, no more often than CREDIT_INTERVAL. A received count gives back what it grew by, modulo 2^24; credit never exceeds CREDIT_INIT, and more is counted as an error. A packet with the expected number passes on and EXPECT moves on; one behind it is discarded and counted; one ahead is held; an unsynchronised context takes the number of its first packet. A packet held for REORDER_TIMEOUT is released with those below it, and the gaps are counted. A context idle for 1 s loses synchronism. -/
def Obligations.FabricMovesFrames : Prop :=
  (∀ s : State, s.nextVoq = none → exec .voqSelect s = .next s)
  ∧ (∀ (s u : State) (v k : Nat), s.nextVoq = some v → s.queueHead (8192 + v) = some k →
    u = { s with fab := { s.fab with rr := s.fab.rr.put (v % 8) (v / 8 + 1) } } →
    (s.tooOld k = true → exec .voqSelect s = .next (s.keeping (s.dropOld k)))
    ∧ (s.tooOld k = false → (s.fab.path.at (v / 8) = [] → exec .voqSelect s = .next (s.keeping ((u.count Stat.fabricUnreachable).endCopy k)))
    ∧ (∀ (m : Nat), s.fab.path.at (v / 8) = [m] → s.par P.relayTxqDepth ≤ (s.fab.txfifo.at (8 * m + v % 8)).length →
      exec .voqSelect s = .next (s.keeping ((({ u with fab := { u.fab with ptr := u.fab.ptr.put v (u.fab.ptr.at v + 1) } }).count Stat.sprayBlocked).updFab
        (fun f => { f with blocked := f.blocked ++ [v] }))))
    ∧ (∀ (m : Nat) (l : List Nat), s.fab.path.at (v / 8) = l → l ≠ [] → l.getD (s.fab.ptr.at v % l.length) 0 = m →
      (s.fab.txfifo.at (8 * m + v % 8)).length < s.par P.relayTxqDepth → exec .voqSelect s =
        .next (s.keeping (({ u with fab := { u.fab with ptr := u.fab.ptr.put v (u.fab.ptr.at v + 1) } }).sprayFrame v k m)))))
  ∧ (∀ (s : State) (v k m : Nat), (s.cpy.at k).transit = false → s.par P.relaySched (v % 8) = 0 →
      (s.sprayFrame v k m).cpy.at k = { s.cpy.at k with place := .txfifo, rport := m, seq := s.fab.seqctr.at v } ∧
      (s.sprayFrame v k m).fab.seqctr.at v = (s.fab.seqctr.at v + 1) % 2 ^ 20 ∧
      (s.sprayFrame v k m).fab.credit.at v = s.fab.credit.at v - (s.cpy.at k).cells ∧
      (s.sprayFrame v k m).fab.txfifo.at (8 * m + v % 8) = s.fab.txfifo.at (8 * m + v % 8) ++ [k] ∧
      ∀ j, j ≠ v → (s.sprayFrame v k m).fab.credit.at j = s.fab.credit.at j ∧ (s.sprayFrame v k m).fab.seqctr.at j = s.fab.seqctr.at j)
  ∧ (∀ (s : State) (d p : Nat) (l due : List Nat), s.parOn P.fabricEnable = true → s.fab.settled = true → s.fab.path.at d = p :: l →
    due = (List.range 8).filter (fun k => s.fab.returned.at (8 * d + k) != s.fab.sent.at (8 * d + k)) →
    (due ≠ [] → s.fab.creditAt.at d ≤ s.time.mono → ∃ t, exec (.creditSend d) s = .next t ∧
      t.out = (s.sendControl p (s.controlFrame d 2 (due.flatMap (fun k => beBytes 4 (k * 2 ^ 29 + s.fab.returned.at (8 * d + k)))))).out ∧
      t.fab.creditAt.at d = s.time.mono + s.par P.creditInterval ∧ (∀ k < 8, t.fab.sent.at (8 * d + k) = s.fab.returned.at (8 * d + k)))
    ∧ (due = [] ∨ s.time.mono < s.fab.creditAt.at d → exec (.creditSend d) s = .next s))
  ∧ (∀ (s : State) (port h w v : Nat) (bytes : List Byte), s.parOn P.fabricEnable = true → s.parOn P.portRole port = true → s.isUp port = true →
    s.relayHeaderOk bytes = true → h = beAt bytes 0 16 → H.type.get h = 2 → s.fab.settled = true → H.dst.get h = s.fab.id → H.len.get h = 8 →
    w = beAt (bytes.drop 16) 0 4 → v = 8 * H.src.get h + w / 2 ^ 29 →
    ∀ (sum top : Nat) (u : State), sum = s.fab.credit.at v + (w % 2 ^ 24 + 2 ^ 24 - s.fab.lastCum.at v) % 2 ^ 24 → top = s.par P.creditInit (v % 8) →
    u = { s with fab := { s.fab with credit := s.fab.credit.put v (min top sum), lastCum := s.fab.lastCum.put v (w % 2 ^ 24) } } →
    (sum ≤ top → exec (.creditReceive port bytes) s = .next u) ∧ (top < sum → exec (.creditReceive port bytes) s = .next (u.count Stat.creditErrors)))
  ∧ (∀ (s : State) (port h : Nat) (bytes : List Byte), s.parOn P.fabricEnable = true → s.parOn P.portRole port = true → s.isUp port = true →
    s.relayHeaderOk bytes = true → h = beAt bytes 0 16 → H.type.get h = 2 → s.fab.settled = true → H.dst.get h ≠ s.fab.id →
    H.hops.get h ≤ 1 → exec (.creditReceive port bytes) s = .next (s.count Stat.relayHopDrops))
  ∧ (∀ (s u : State) (n x src seq st : Nat), (s.pkt.at n).relaySrc = some (src, seq, st) → x = 8 * src + (s.pkt.at n).relayField H.rclass →
    (s.pkt.at n).live = true → (s.pkt.at n).stage = .anchor → (∀ h ∈ (s.fab.anchor.at x).held, h.pkt ≠ n) →
    u = s.updAnchor x (fun a => { a with lastArrival := s.time.mono }) → (s.fab.anchor.at x).sync = true →
    (seq = (s.fab.anchor.at x).expect → exec (.anchorArrival n) s = .next (s.keeping
      (((u.passOn x n).updAnchor x (fun a => { a with expect := (a.expect + 1) % 2 ^ 20 })).advanceAll x)))
    ∧ (2 ^ 19 ≤ (s.fab.anchor.at x).ahead seq → exec (.anchorArrival n) s = .next (s.keeping ((u.count Stat.anchorLateDrops).anchorDrop x n)))
    ∧ (0 < (s.fab.anchor.at x).ahead seq → (s.fab.anchor.at x).ahead seq < 65536 → u.heldOf src < 65536 → u.heldAll < 262144 →
      exec (.anchorArrival n) s = .next (s.keeping (u.holdPacket x n seq))))
  ∧ (∀ (s : State) (n x src seq st : Nat), (s.pkt.at n).relaySrc = some (src, seq, st) → x = 8 * src + (s.pkt.at n).relayField H.rclass →
    (s.pkt.at n).live = true → (s.pkt.at n).stage = .anchor → (s.fab.anchor.at x).held = [] → (s.fab.anchor.at x).sync = false →
    ∃ u : State, u = (s.updAnchor x (fun a => { a with sync := true, expect := seq, lost := [] })).updAnchor x (fun a => { a with lastArrival := s.time.mono }) ∧
    exec (.anchorArrival n) s = .next (s.keeping (((u.passOn x n).updAnchor x (fun a => { a with expect := (a.expect + 1) % 2 ^ 20 })).advanceAll x)))
  ∧ (∀ (s : State) (src rc : Nat) (h : Held) (l : List Held), rc < 8 → (s.fab.anchor.at (8 * src + rc)).held = h :: l →
    (h.at_ + s.par P.reorderTimeout * 1000 ≤ s.time.mono → exec (.anchorTimeout src rc) s = .next (s.keeping
      ((s.releaseThrough (8 * src + rc) h.seq).1.count Stat.anchorGapsLost 0 (s.releaseThrough (8 * src + rc) h.seq).2)))
    ∧ (s.time.mono < h.at_ + s.par P.reorderTimeout * 1000 → exec (.anchorTimeout src rc) s = .next s))
  ∧ (∀ (s : State) (src rc : Nat), rc < 8 → (s.fab.anchor.at (8 * src + rc)).sync = true →
    ((s.fab.anchor.at (8 * src + rc)).held = [] → (s.fab.anchor.at (8 * src + rc)).lastArrival + 1000000000 ≤ s.time.mono →
      exec (.anchorContextIdle src rc) s = .next (s.updAnchor (8 * src + rc) (fun a => { a with sync := false, lost := [] })))
    ∧ (s.time.mono < (s.fab.anchor.at (8 * src + rc)).lastArrival + 1000000000 → exec (.anchorContextIdle src rc) s = .next s))

/-- A request at a channel in service counts from the moment its master's rate limit lets it go, and moves that limit on. While its master and the queue have room and no request of its master waits there, it enters a queue of its channel, in order, and wakes a channel in power-down; otherwise it waits at its master. At a channel out of service it does nothing. A request is at level 1 from its target on, and a real-time one at level 2 from twice its target on. The pick takes a request of the list it serves, one of the highest level where any is late, occupies the channel for its burst, and lets the first request that waits for the channel enter; it does not take during a burst. At the end of a burst one postponed refresh is made unless a level 2 request waits. A corrected read is counted, an uncorrectable one raises its source. A refresh that falls due is covered by one made ahead, postponed or split behind a real-time burst, and otherwise follows the command in progress. An idle channel is refreshed ahead by at most two intervals, and sleeps after PD_IDLE. The patrol scrub reads one granule per interval, and writes back what it corrected. -/
def Obligations.HbmServesItsMasters : Prop :=
  (∀ (s t : State) (rank addr bytes tag : Nat) (write : Bool) (c : Pc) (r : HReq), c = s.hbm.pc.at (pcOf addr) → t = s.hbmAsk rank addr bytes write tag →
    r = { master := rank, addr := addr, bytes := bytes, write := write, at_ := ceilDiv (max (3000 * s.time.mono) (s.hbm.rate.at rank)) 3000, tag := tag } →
    (c.st ≠ 1 → c.st ≠ 2 → t = s)
    ∧ (c.st = 1 ∨ c.st = 2 → t.hbm.rate.at rank = (if hbmCost rank bytes = 0 then s.hbm.rate.at rank else max (3000 * s.time.mono) (s.hbm.rate.at rank) + hbmCost rank bytes)
      ∧ (c.held rank < hbmLimit rank → (if write then c.writes else c.reads).length < 64 → (∀ q ∈ s.hbm.wait, q.master = rank → pcOf q.addr ≠ pcOf addr) →
        t.hbm.pc.at (pcOf addr) = c.enter s.time.mono r ∧ t.hbm.wait = s.hbm.wait)
      ∧ (hbmLimit rank ≤ c.held rank ∨ 64 ≤ (if write then c.writes else c.reads).length ∨ (∃ q ∈ s.hbm.wait, q.master = rank ∧ pcOf q.addr = pcOf addr) →
        t.hbm.pc.at (pcOf addr) = c ∧ t.hbm.wait = s.hbm.wait ++ [r]))
    ∧ (∀ k, k ≠ pcOf addr → t.hbm.pc.at k = s.hbm.pc.at k) ∧ t = { s with hbm := t.hbm })
  ∧ (∀ (c : Pc) (now : Nat) (r : HReq), now ≤ r.at_ → (∀ q ∈ c.reads ++ c.writes, q.at_ ≤ r.at_) →
    c.enter now r = { c with st := 1, writes := if r.write then c.writes ++ [r] else c.writes, reads := if r.write then c.reads else c.reads ++ [r] })
  ∧ (∀ rank ns t : Nat, hbmTarget rank = some t →
    (ns < t → hbmLevel rank ns = 0) ∧ (t ≤ ns → ns < 2 * t → hbmLevel rank ns = 1)
    ∧ (0 < t → 2 * t ≤ ns → hbmLevel rank ns = if 1 ≤ rank ∧ rank ≤ 3 then 2 else 1))
  ∧ (∀ (s : State) (bank b : Nat) (l : List HReq) (r : HReq), s.hbmChoose bank l = some (r, b) →
    r ∈ l ∧ ((∃ q ∈ l, 1 ≤ s.levelOf q) → ∀ q ∈ l, s.levelOf q ≤ s.levelOf r))
  ∧ (∀ (s : State) (pc ecc b : Nat) (c : Pc) (r : HReq), c = s.hbm.pc.at pc → c.st = 1 → c.burst = none →
    (s.time.mono < c.busy → exec (.hbmPick pc ecc) s = .next s)
    ∧ (c.busy ≤ s.time.mono → s.hbmChoose c.bank (c.free s.time.mono (s.hbmBatch c)) = none → exec (.hbmPick pc ecc) s =
        .next (s.updPc pc (fun _ => { c with batch := s.hbmBatch c })))
    ∧ (c.busy ≤ s.time.mono → s.hbmChoose c.bank (c.free s.time.mono (s.hbmBatch c)) = some (r, b) →
      ∀ u : State, u = (s.updPc pc (fun _ => c.take s.time.mono b r (s.hbmBatch c))).hbmEnter pc →
      (r.write = true ∨ ecc = 0 → exec (.hbmPick pc ecc) s = .next u)
      ∧ (r.write = false → ecc = 1 → exec (.hbmPick pc ecc) s = .next (u.count Stat.hbmEccCorrected))
      ∧ (r.write = false → ecc = 2 → exec (.hbmPick pc ecc) s = .next (s.keeping ((u.raise (160 + pc / 32) (pc % 32)).eccOutcome r)))))
  ∧ (∀ (s : State) (pc ecc : Nat) (c : Pc) (r : HReq), c = s.hbm.pc.at pc → c.st = 1 → c.burst = some r → c.busy ≤ s.time.mono → 0 < c.debt →
    (∀ q ∈ c.reads ++ c.writes, s.levelOf q ≠ 2) → exec (.hbmPick pc ecc) s =
      .next (s.updPc pc (fun _ => { c with burst := none, debt := c.debt - 1, busy := s.time.mono + 380, refEnd := s.time.mono + 380 })))
  ∧ (∀ (s : State) (pc : Nat),
    (s.hbm.wait.find? (fun r => pcOf r.addr == pc && (s.hbm.pc.at pc).room r) = none → s.hbmEnter pc = s)
    ∧ (∀ r, s.hbm.wait.find? (fun r => pcOf r.addr == pc && (s.hbm.pc.at pc).room r) = some r → s.hbmEnter pc =
      ({ s with hbm := { s.hbm with wait := s.hbm.wait.erase r } }).updPc pc (fun c => c.enter s.time.mono r)))
  ∧ (∀ (c : Pc) (now b : Nat) (r : HReq) (batch : Bool), (c.take now b r batch).burst = some r ∧
    (c.take now b r batch).busy = now + (if c.lastWrite = r.write then 0 else 20) + ceilDiv r.bytes 32 ∧
    (c.take now b r batch).reads = (if r.write then c.reads else c.reads.erase r) ∧ (c.take now b r batch).writes = (if r.write then c.writes.erase r else c.writes))
  ∧ (∀ (s : State) (pc : Nat) (c : Pc), c = s.hbm.pc.at pc → c.st = 1 → c.refresh ≤ s.time.mono →
    (0 < c.ahead → exec (.refreshDue pc) s = .next (s.updPc pc (fun c => { c with st := 1, refresh := c.refresh + c.interval, ahead := c.ahead - 1 })))
    ∧ (∀ r, c.ahead = 0 → c.burst = some r → hbmRealTime r.master = true → s.time.mono < c.busy → c.debt + 1 < s.par P.refPostponeMax →
      exec (.refreshDue pc) s = .next (s.updPc pc (fun c => { c with st := 1, refresh := c.refresh + c.interval, debt := c.debt + 1 })))
    ∧ (∀ r, c.ahead = 0 → c.burst = some r → hbmRealTime r.master = true → s.time.mono < c.busy → s.par P.refPostponeMax ≤ c.debt + 1 →
      ∃ t, exec (.refreshDue pc) s = .next t ∧ (t.hbm.pc.at pc).busy = c.busy + 420 ∧ (t.hbm.pc.at pc).refEnd = c.busy - (c.busy - s.time.mono) / 2 * 2 + 380 ∧ (t.hbm.pc.at pc).debt = c.debt ∧ t = { s with hbm := t.hbm, ctr := (s.count Stat.refSplits pc).ctr })
    ∧ (c.ahead = 0 → c.burst = none → exec (.refreshDue pc) s = .next (s.updPc pc (fun c =>
        { c with st := 1, refresh := c.refresh + c.interval, busy := max c.busy s.time.mono + 380, refEnd := max c.busy s.time.mono + 380 }))))
  ∧ (∀ (s : State) (pc : Nat), s.time.mono < (s.hbm.pc.at pc).refresh → exec (.refreshDue pc) s = .next s)
  ∧ (∀ (s : State) (pc : Nat) (c : Pc), c = s.hbm.pc.at pc → c.st = 1 →
    (s.hbmIdle c 200 = true → c.ahead < 2 → exec (.refreshAheadOfTime pc) s =
      .next (s.updPc pc (fun c => { c with ahead := c.ahead + 1, busy := s.time.mono + 380, refEnd := s.time.mono + 380 })))
    ∧ (2 ≤ c.ahead → exec (.refreshAheadOfTime pc) s = .next s)
    ∧ (s.hbmIdle c (ceilDiv (s.par P.pdIdle) 4) = true → exec (.hbmPowerDown pc) s = .next (s.updPc pc (fun c => { c with st := 2, burst := none })))
    ∧ (c.reads ≠ [] ∨ c.writes ≠ [] → exec (.hbmPowerDown pc) s = .next s))
  ∧ (∀ (s : State) (addr : Nat), s.hbm.valid = true → addr < 2 ^ 36 → (s.hbm.pc.at (pcOf (addr / 64 * 64))).st = 1 → s.hbm.scrubAt ≤ s.time.mono →
    ∃ u : State, u = { s with hbm := { s.hbm with scrubAt := s.time.mono + s.scrubNs } } ∧
    exec (.patrolScrub addr 0) s = .next (u.hbmAsk 9 (addr / 64 * 64) 64 false 0) ∧
    exec (.patrolScrub addr 1) s = .next ((u.count Stat.hbmEccCorrected).hbmAsk 9 (addr / 64 * 64) 64 true 0))
  ∧ (∀ (s : State) (addr ecc : Nat), s.hbm.valid = false ∨ s.time.mono < s.hbm.scrubAt → exec (.patrolScrub addr ecc) s = .next s)

/-- A RUNNABLE thread, on a channel it may reach, reserves words that are free while no other reservation is open and none waits, and else blocks behind those that blocked before it; CH_PUT writes the next reserved word; CH_COMMIT makes the whole message visible, and before all its words are written raises PACER_CORE instead; CH_READ takes the oldest message, or blocks the thread. A message goes to the reader that blocked first; the writer that blocked first gets its reservation once its words are free. A producer of the hardware writes its message whole, on channels 0 to 47, or not at all. An applet that reaches another channel than 240 to 255, or breaks its confinement otherwise, is killed, raises APPLET_FAULT and leaves an entry; a killed thread leaves every list and its reservation is rolled back. That the deadlock detector counts such a thread as running in the lap, and that a premature commit raises PACER_CORE, are the model's choices. -/
def Obligations.ChannelsCarryMessages : Prop :=
  (∀ (s : State) (t c : Nat) (k : Channel), t < 32 → mayReach t c = true → (s.thread t).st = 1 → s.pacer.down = false → k = s.chan c →
    (∀ n, 1 ≤ n → n ≤ 16 →
      (k.resv = none → k.writers = [] → k.committed + n ≤ 16 →
        exec (.chReserve t c n) s = .next (s.updChan c (fun k => { k with resv := some { thread := t, words := n } })).ran)
      ∧ (k.resv ≠ none ∨ k.writers ≠ [] ∨ 16 < k.committed + n →
        exec (.chReserve t c n) s = .next ((s.updChan c (fun k => { k with writers := k.writers ++ [(t, n)] })).block t c 1).ran))
    ∧ (∀ w r, k.resv = some r → r.thread = t →
      (r.put.length < r.words → exec (.chPut t c w) s =
        .next (s.updChan c (fun k => { k with resv := some { r with put := r.put ++ [w % 2 ^ 64] } })).ran)
      ∧ (r.words ≤ r.put.length → exec (.chCommit t c) s =
        .next (s.keeping ((s.updChan c (fun k => { k with msgs := k.msgs ++ [r.put], resv := none })).settleChan c).ran))
      ∧ (r.put.length < r.words → exec (.chCommit t c) s = .next (s.keeping (s.raise (172 + t / 8) 0).ran)))
    ∧ (∀ m ms, k.msgs = m :: ms → exec (.chRead t c) s =
      .next (s.keeping (((s.updChan c (fun k => { k with msgs := ms })).updThread t (fun h => { h with msg := m })).settleChan c).ran))
    ∧ (k.msgs = [] → exec (.chRead t c) s = .next ((s.updChan c (fun k => { k with readers := k.readers ++ [t] })).block t c 0).ran))
  ∧ (∀ (s : State) (t c n : Nat), (s.thread t).st ≠ 1 → exec (.chReserve t c n) s = .next s ∧ exec (.chCommit t c) s = .next s ∧ exec (.chRead t c) s = .next s)
  ∧ (∀ (n : Nat) (s : State) (c t : Nat) (m : List Nat) (ms : List (List Nat)) (ts : List Nat), (s.chan c).msgs = m :: ms → (s.chan c).readers = t :: ts →
    State.serveChan (n + 1) s c = State.serveChan n ((s.updChan c (fun k => { k with msgs := ms, readers := ts })).wake t (fun h => { h with msg := m })) c)
  ∧ (∀ (n : Nat) (s : State) (c t w : Nat) (ws : List (Nat × Nat)), (s.chan c).msgs = [] ∨ (s.chan c).readers = [] → (s.chan c).resv = none →
    (s.chan c).writers = (t, w) :: ws →
    State.serveChan (n + 1) s c = if w ≤ 16 - (s.chan c).committed then
      State.serveChan n ((s.updChan c (fun k => { k with resv := some { thread := t, words := w }, writers := ws })).wake t id) c else s)
  ∧ (∀ (s : State) (c : Nat) (ws : List Nat),
    (c < 48 → ws ≠ [] → (s.chan c).resv = none → (s.chan c).committed + ws.length ≤ 16 → exec (.hwChannelProduce c ws) s =
      .next (s.keeping ((s.updChan c (fun k => { k with msgs := k.msgs ++ [ws.map (· % 2 ^ 64)] })).settleChan c)))
    ∧ (48 ≤ c ∨ (s.chan c).resv ≠ none ∨ 16 < (s.chan c).committed + ws.length → exec (.hwChannelProduce c ws) s = .next s))
  ∧ (∀ (s : State) (t c n : Nat), t < 32 → 6 ≤ t % 8 → c < 240 → (s.thread t).st = 1 → s.pacer.down = false → 1 ≤ n → n ≤ 16 →
    exec (.chReserve t c n) s = .next (s.keeping (s.violation (t / 8) (t % 8) (s.thread t).pc (s.freeVal 64)).drawn))
  ∧ (∀ (s : State) (core thread pc cause : Nat), core < 4 → thread = 6 ∨ thread = 7 → (s.thread (8 * core + thread)).st ≠ 0 →
    exec (.appletViolation core thread pc cause) s = .next (s.keeping
      (((s.killThread (8 * core + thread)).raise 183 (2 * core + thread - 6)).ruleEvent 375 (8 * core + thread) 0 [core, thread, pc, cause])))
/-- A request goes to the smallest pool whose buffers hold it and takes the lowest-numbered free buffer. A pool is empty for a requester when no buffer is free or its quota is reached. Of the requests of a cycle the pool serves one it is not empty for, the first at or after its pointer, which then stands behind that requester. A request refused steps up to the next larger pool while STEP_UP allows it; else the slow path and the recorder wait one lap, the measurement unit drops its data and counts it, and the others are counted and get E_POOL_EMPTY; a request above 65,536 B gets E_RANGE; nothing is served while the Pacer is down. POOL_RETRY and POOL_STEP_UP ask again, alone in their cycle. POOL_FREE frees a taken buffer; one that is free is counted and recorded. -/
def Obligations.PoolsServeTheirRequesters : Prop :=
  (∀ n p : Nat, poolFor n = some p ↔ p < 4 ∧ n ≤ poolBufferSize p ∧ ∀ q, q < p → poolBufferSize q < n)
  ∧ (∀ (s u : State) (req pool i : Nat), Tab.wf (s.pacer.pool.at pool).owner = true → s.poolTake req pool = (u, i) →
    (s.pacer.pool.at pool).owner.at i = 0 ∧ (∀ j, j < i → (s.pacer.pool.at pool).owner.at j ≠ 0)
    ∧ (u.pacer.pool.at pool).owner = (s.pacer.pool.at pool).owner.put i (req + 1) ∧ (u.pacer.pool.at pool).ptr = (req + 1) % 5)
  ∧ (∀ (s : State) (req pool : Nat), s.poolEmptyFor req pool = true ↔ poolBuffers pool ≤ (s.pacer.pool.at pool).owner.length ∨ s.quota req pool ≤ (s.pacer.pool.at pool).heldBy req)
  ∧ (∀ (s : State) (pool n i : Nat) (a : Ask) (l : List (Nat × Ask)), s.poolWinner pool l = some (n, a) →
    (n, a) ∈ l ∧ s.poolEmptyFor a.requester pool = false ∧ (a.requester = ((s.pacer.pool.at pool).ptr + i) % 5 → i < 5 →
      ∀ j, j < i → ∀ e ∈ l, e.2.requester = ((s.pacer.pool.at pool).ptr + j) % 5 → s.poolEmptyFor e.2.requester pool = true))
  ∧ (∀ (s : State) (req bytes p : Nat) (a : Ask), s.pacer.down = false → req < 5 → poolFor bytes = some p → a = { requester := req, bytes := bytes, pool := p } →
    exec (.poolAllocate [{ requester := req, bytes := bytes }]) s = .next (s.keeping
      (State.askAlone { s with pacer := { s.pacer with nextAsk := s.pacer.nextAsk + 1 } } s.pacer.nextAsk a)))
  ∧ (∀ (s : State) (req bytes : Nat), 65536 < bytes → req < 5 → s.pacer.down = false →
    exec (.poolAllocate [{ requester := req, bytes := bytes }]) s = .next (s.emit (.poolRefused req E.range)))
  ∧ (∀ (s : State) (asks : List PoolAsk) (n : Nat), s.pacer.down = true →
    exec (.poolAllocate asks) s = .next s ∧ exec (.poolStepUp n) s = .next s ∧ exec (.poolRetry n) s = .next s)
  ∧ (∀ (s : State) (n : Nat) (a : Ask), s.pacer.ask.at n = some a → s.pacer.down = false →
    (a.wait = 1 → exec (.poolStepUp n) s = .next (s.keeping (s.askAlone n { a with pool := a.pool + 1 })))
    ∧ (a.wait = 0 ∨ a.wait = 3 → exec (.poolRetry n) s = .next (s.keeping (s.askAlone n a)))
    ∧ (a.wait = 2 → exec (.poolStepUp n) s = .next s ∧ exec (.poolRetry n) s = .next s))
  ∧ (∀ (s : State) (n : Nat) (a : Ask),
    (s.poolEmptyFor a.requester a.pool = true →
      (s.parOn P.stepUp a.requester = true → a.pool < 3 → s.askAlone n a = s.setAsk n (some { a with wait := 1 }))
      ∧ (s.parOn P.stepUp a.requester = false ∨ 3 ≤ a.pool →
        (a.requester = 2 → s.askAlone n a = (s.setAsk n none).count Stat.gmuPoolDrops)
        ∧ (a.requester = 0 ∨ a.requester = 3 → s.askAlone n a =
          (s.setAsk n (some { a with wait := 2, pool := (poolFor a.bytes).getD 3 })).count Stat.poolEmpty a.requester)
        ∧ (a.requester = 1 ∨ a.requester = 4 → s.askAlone n a =
          ((s.setAsk n none).count Stat.poolEmpty a.requester).emit (.poolRefused a.requester E.poolEmpty))))
    ∧ (s.poolEmptyFor a.requester a.pool = false → a.pkt = none → s.askAlone n a = ((s.setAsk n none).poolTake a.requester a.pool).1))
  ∧ (∀ (s : State) (pool b : Nat), pool < 4 → b < poolBuffers pool →
    ((s.pacer.pool.at pool).owner.has b = true → exec (.poolFree pool b) s = .next
      { s with pacer := { s.pacer with pool := s.pacer.pool.put pool { s.pacer.pool.at pool with owner := (s.pacer.pool.at pool).owner.del b } } })
    ∧ ((s.pacer.pool.at pool).owner.has b = false → exec (.poolFree pool b) s = .next ((s.count Stat.poolDoubleFrees).ruleEvent 386 pool 0 [b])))

/-- A write to a slot's window is taken unless the slot is BUSY, when it is dropped and noted; a ring submits the window unless the slot is BUSY, and the request waits while the Pacer is re-initialised; MBX_RELEASE returns a DONE slot to IDLE. A submitted request is checked in order: form, session, TAG, SEQ, opcode, scope and countersignature; the first that fails refuses it, and one that passes waits in its slot for its command; the tags wait for a context of the CMAC unit when it has no room. SEQ is taken once: above the highest accepted, or within the 63 below it and not seen; what is refused once is refused ever after in that session. A ring before Tequin has been started, and a window write past the page, have no effect: the model's reading. -/
def Obligations.MailboxesTakeRequests : Prop :=
  (∀ (s : State) (slot off : Nat) (l : List Byte), slot < 256 →
    (4096 < off + l.length → exec (.requestWindowWrite slot off l) s = .next s)
    ∧ (off + l.length ≤ 4096 → (s.mbx.slot.at slot).st ≠ 1 →
      exec (.requestWindowWrite slot off l) s = .next (s.updSlot slot (fun k => { k with request := overlay k.request off l })))
    ∧ (off + l.length ≤ 4096 → (s.mbx.slot.at slot).st = 1 →
      exec (.requestWindowWrite slot off l) s = .next (s.updSlot slot (fun k => { k with wrDropped := true })))
    ∧ ((s.mbx.slot.at slot).st = 2 → exec (.mbxRelease slot) s = .next (s.updSlot slot (fun k => { k with st := 0 })))
    ∧ exec (.mbxWrDroppedClear slot) s = .next (s.updSlot slot (fun k => { k with wrDropped := false }))
    ∧ ∀ dma, (s.tequin = false → exec (.doorbellRing slot dma) s = .next s) ∧ (s.tequin = true →
      ((s.mbx.slot.at slot).st = 1 → exec (.doorbellRing slot dma) s = .next (s.updSlot slot (fun k => { k with wrDropped := true })))
      ∧ ((s.mbx.slot.at slot).st ≠ 1 → ∀ u : State, u = s.updSlot slot (fun k => { k with st := 1, acc := none, held := none }) →
        (s.pacer.down = false → exec (.doorbellRing slot dma) s = .next (s.keeping (u.checkRequest slot (requestOf (s.mbx.slot.at slot).request dma))))
        ∧ (s.pacer.down = true → exec (.doorbellRing slot dma) s = .next { u with mbx := { u.mbx with
          rung := s.mbx.rung ++ [(slot, requestOf (s.mbx.slot.at slot).request dma)] } }))))
  ∧ (∀ (s : State) (slot : Nat) (r : Request) (a : Accepted), r.flag 0 = false →
    a = { op := r.op, session := r.session, seq := r.seq, payload := r.payload, outLen := r.outLen, outAddr := r.outAddr, gen := s.instGen (slotInst slot) } →
    (r.formatOk = false → s.checkRequest slot r = s.refuse slot a E.format)
    ∧ (r.formatOk = true → r.session < 16 → (s.sess r.session).live = false ∨ (s.sess r.session).inst ≠ slotInst slot →
      s.checkRequest slot r = s.refuse slot a E.session)
    ∧ (r.formatOk = true → r.session = 255 → unsessioned r.op = true → s.checkRequest slot r = s.updSlot slot (fun k => { k with acc := some a }))
    ∧ (r.formatOk = true → r.session < 16 → (s.sess r.session).live = true → (s.sess r.session).inst = slotInst slot →
      s.checkRequest slot r = s.verify slot a r))
  ∧ (∀ (s : State) (slot : Nat) (r : Request) (a : Accepted), r.session < 16 → s.cmacRoom (if r.flag 2 = true then 2 else 1) = false →
    s.verify slot a r = s.askTag slot (if r.flag 2 = true then 2 else 1) (.request a r))
  ∧ (∀ (s : State) (slot : Nat) (r : Request) (a : Accepted), r.session < 16 → s.cmacRoom (if r.flag 2 = true then 2 else 1) = true →
    (Crypto.cmac (s.sess r.session).key ([0x01#8] ++ r.head.take 80 ++ r.payload) ≠ slice r.head 80 16 → s.verify slot a r = s.refuse slot a E.unsigned)
    ∧ (Crypto.cmac (s.sess r.session).key ([0x01#8] ++ r.head.take 80 ++ r.payload) = slice r.head 80 16 →
      ((s.sess r.session).takeSeq r.seq = none → s.verify slot a r = s.refuse slot a E.replay)
      ∧ ∀ u i, s.acceptSeq r.session r.seq = some u → opInfo r.op = some i → i.critical = false → r.flag 2 = false →
        s.verify slot a r = State.updSlot { u with mbx := { u.mbx with accepted := u.mbx.accepted + 1 } } slot
          (fun k => { k with acc := some { a with order := u.mbx.accepted, at_ := u.time.mono } })))
  ∧ (∀ (s u : State) (c seq : Nat), s.acceptSeq c seq = some u → (u.sess c).st = 2 ∧ (u.sess c).deadline = s.time.mono + 1000000000 * s.par P.sessionIdleS)
  ∧ (∀ (k : Session) (q : Nat), k.takeSeq q = none ↔ q = 0 ∨ (q ≤ k.high ∧ (64 ≤ k.high - q ∨ bit k.window (k.high - q) = true)))
  ∧ (∀ (k j : Session) (q : Nat), k.takeSeq q = some j → j.takeSeq q = none)
  ∧ (∀ (k j : Session) (q x : Nat), k.takeSeq q = none → k.takeSeq x = some j → j.takeSeq q = none)
  ∧ (∀ (s : State) (slot st : Nat) (a : Accepted), s.refuse slot a st =
    ((s.count Stat.mbxRefused (256 * slotInst slot + st)).log 0x020 [slot % 4, a.op, st] [a.seq] (slotInst slot)).post slot a { rstate := 3, status := st })
/-- A pending session ends at its confirm deadline and an open one at its idle deadline, with an entry, and with it its ended jobs and its debug tokens; a token ends at its time; a transfer without a segment for 60 s is discarded with an entry; an ended job is forgotten 60 s after its end. None of it happens before its time. JOB_STEP advances a job in progress while the Pacer is up, and no other. A job that ends keeps its status and result, notes its end, leaves an entry and sets the mailbox cause. -/
def Obligations.SessionsAndJobsEnd : Prop :=
  (∀ (s : State) (k : Nat), (s.sess k).deadline ≤ s.time.mono →
    ((s.sess k).st = 1 → exec (.sessionConfirmExpire k) s = .next (s.keeping (s.closeSession k (some 0))))
    ∧ ((s.sess k).st = 2 → exec (.sessionIdleExpire k) s = .next (s.keeping (s.closeSession k (some 1)))))
  ∧ (∀ (s : State) (k : Nat), s.time.mono < (s.sess k).deadline → exec (.sessionConfirmExpire k) s = .next s ∧ exec (.sessionIdleExpire k) s = .next s)
  ∧ (∀ (s : State) (k n : Nat), (s.sess k).live = true → ∃ r, s.closeSession k (some n) = { s with
      mbx := { s.mbx with session := s.mbx.session.del k, jobs := s.mbx.jobs.filter (fun j => !(j.session == k && j.rstate != 1)),
                          tokens := s.mbx.tokens.filter (fun t => t.session != k) }, recd := r })
  ∧ (∀ s : State, ∃ r, exec .debugTokenExpire s = .next { s with
      mbx := { s.mbx with tokens := s.mbx.tokens.filter (fun t => !decide (t.endAt ≤ s.time.mono)) }, recd := r })
  ∧ (∀ (s : State) (k q : Nat), exec (.jobRetentionExpire k q) s = .next { s with mbx := { s.mbx with jobs := s.mbx.jobs.filter (fun j =>
      !(j.session == k && j.seq == q && j.rstate != 1 && decide (j.endAt + 60000000000 ≤ s.time.mono))) } })
  ∧ (∀ (s : State) (k : Nat),
    ((s.mbx.transfer.at k).open_ = true → (s.mbx.transfer.at k).deadline ≤ s.time.mono →
      exec (.transferTimeout k) s = .next (State.ruleEvent { s with mbx := { s.mbx with transfer := s.mbx.transfer.del k } } 429 k 0))
    ∧ (s.time.mono < (s.mbx.transfer.at k).deadline → exec (.transferTimeout k) s = .next s))
  ∧ (∀ (s : State) (k q : Nat) (j : Job), s.job k q = some j →
    (j.rstate = 1 → s.pacer.down = false → exec (.jobStep k q) s = .next (s.keeping (s.jobStep j)))
    ∧ (j.rstate ≠ 1 ∨ s.pacer.down = true → exec (.jobStep k q) s = .next s))
  ∧ (∀ (s : State) (k q st : Nat) (l : List Byte) (j : Job), s.job k q = some j → j.rstate = 1 → j.slot = none → (s.sess k).live = true →
    s.endJob k q 0 st l = ((s.updJob k q (fun j => { j with rstate := 0, status := st, result := l, waits := false, endAt := s.time.mono, done := j.total })).ruleEvent
      506 q 1 [j.op, q, 0, st] j.inst).cause j.inst 0)
/-- SESSION.DEVICE_ID answers serial, attestation key and the four root entries. SESSION.OPEN refuses in order a chain not accepted, a proof that does not verify, a revoked root, no free context and a failed entropy source; else it opens a pending session in the lowest free context the instance may take and answers its context, key share, nonce and signature; the key pair and the nonce are free values. In FREERUN an entry says that validity periods were not checked. SESSION.CLOSE answers, once its tag is computed, and then closes. POLL answers what is kept of the job named, ABORT asks its end, and both refuse where there is none. ROOT_PROGRAM writes an unwritten entry; ROOT_REVOKE refuses the last root, and else revokes, answers, and closes the sessions under it. -/
def Obligations.SessionCommands : Prop :=
  (∀ (s : State) (slot : Nat) (a : Accepted), s.grants slot Op.sessionDeviceId a → exec (.sessionDeviceId slot) s = .next (s.keeping (s.answers slot a
    (leBytes 8 Config.deviceSerial.toNat ++ beBytes 97 (Config.publicKey s.sec.keys.attest).toNat ++ (List.range 4).flatMap (fun k => (s.mbx.root.at k).report)))))
  ∧ (∀ (s v : State) (slot : Nat) (a : Accepted) (c : Chain) (ok : Bool), s.grants slot Op.sessionOpen a →
    v = (if s.time.state = .freerun then s.ruleEvent 401 (slotInst slot) 0 else s) →
    (s.chainStatus c = E.cert → exec (.sessionOpen slot c ok) s = .next (s.keeping (s.refuse slot a E.cert)))
    ∧ (s.chainStatus c = 0 ∨ s.chainStatus c = E.rootRevoked → ok = false → exec (.sessionOpen slot c ok) s = .next (s.keeping (v.refuse slot a E.unsigned)))
    ∧ (s.chainStatus c = E.rootRevoked → ok = true → exec (.sessionOpen slot c ok) s = .next (s.keeping (v.refuse slot a E.rootRevoked)))
    ∧ (s.chainStatus c = 0 → ok = true → s.freeContext (slotInst slot) = none → exec (.sessionOpen slot c ok) s = .next (s.keeping (v.refuse slot a E.noContext)))
    ∧ (∀ k, s.chainStatus c = 0 → ok = true → s.freeContext (slotInst slot) = some k →
      (s.sec.trngFailed = true → exec (.sessionOpen slot c ok) s = .next (s.keeping (v.refuse slot a E.entropy)))
      ∧ (s.sec.trngFailed = false → ∀ (d : Nat) (qd nd : List Byte), d = s.freeVal 384 % (p384Order - 1) + 1 → qd = beBytes 97 (Config.publicKey d).toNat →
        nd = beBytes 32 (s.drawn.freeVal 256) → ∃ (u : State) (sig : List Byte), u = { v with mbx := { s.mbx with session := u.mbx.session }, free := s.free + 2 } ∧
        exec (.sessionOpen slot c ok) s = .next (s.keeping (u.answers slot a (leBytes 1 k ++ qd ++ nd ++ sig))) ∧ sig.length = 96 ∧
        u.sess k = { st := 1, inst := slotInst slot, deadline := s.time.mono + 1000000000 * s.par P.sessionConfirmS,
                     ident := ((c.certs.head?).map (·.spki)).getD 0, root := ((chainRoot c).map (·.spki)).getD 0,
                     key := sessionKey (beBytes 48 (Config.sharedSecret d (slice a.payload 0 97)).toNat) (slice a.payload 97 32) nd (slotInst slot) k } ∧
        ∀ j, j ≠ k → u.sess j = s.sess j)))
  ∧ (∀ (s : State) (i k : Nat), s.freeContext i = some k → k < 16 ∧ (s.sess k).live = false ∧ (i ≠ 0 → s.par P.operatorContexts ≤ k))
  ∧ (∀ (s : State) (slot : Nat) (a : Accepted), s.grants slot Op.sessionClose a →
    ((s.tags a { rstate := 0, status := 0 } && !s.cmacFree) = false → exec (.sessionClose slot) s = .next (s.keeping ((s.answers slot a).closeSession a.session none)))
    ∧ ((s.tags a { rstate := 0, status := 0 } && !s.cmacFree) = true → a.silent = false → a.buf = none → exec (.sessionClose slot) s =
      .next (s.keeping (s.askTag slot 1 (.response a { rstate := 0, status := 0 } (.closeSession a.session))))))
  ∧ (∀ (s : State) (slot : Nat) (a : Accepted), s.grants slot Op.sessionPoll a →
    (s.target (slotInst slot) a = none → exec (.sessionPoll slot) s = .next (s.keeping (s.refuse slot a E.noJob)))
    ∧ ∀ j, s.target (slotInst slot) a = some j → exec (.sessionPoll slot) s = .next (s.keeping (s.answers slot a
      (leBytes 1 j.rstate ++ leBytes 1 0 ++ leBytes 2 j.status ++ leBytes 4 j.done ++ leBytes 4 j.total ++ leBytes 2 (progress j.done j.total)
        ++ (if j.rstate = 1 then [] else j.result)))))
  ∧ (∀ (s : State) (slot : Nat) (a : Accepted), s.grants slot Op.sessionAbort a →
    (s.target (slotInst slot) a = none → exec (.sessionAbort slot) s = .next (s.keeping (s.refuse slot a E.noJob)))
    ∧ ∀ j, s.target (slotInst slot) a = some j →
      (j.rstate = 1 → exec (.sessionAbort slot) s = .next (s.keeping ((s.updJob j.session j.seq (fun j => { j with abort := true })).answers slot a)))
      ∧ (j.rstate ≠ 1 → exec (.sessionAbort slot) s = .next (s.keeping (s.answers slot a))))
  ∧ (∀ (s : State) (i : Nat) (a : Accepted) (j : Job), s.target i a = some j → j ∈ s.mbx.jobs ∧ j.seq = leAt a.payload 0 8 ∧ (i ≠ 0 → j.session = a.session))
  ∧ (∀ (s : State) (slot k : Nat) (a : Accepted), s.grants slot Op.sessionRootProgram a → k = leAt a.payload 0 1 →
    (4 ≤ k → exec (.sessionRootProgram slot) s = .next (s.keeping (s.refuse slot a E.range)))
    ∧ (k < 4 → (s.mbx.root.at k).hash = none → (s.mbx.root.at k).revoked = false →
      exec (.sessionRootProgram slot) s = .next (s.keeping ((s.setRoot k { hash := some (beAt a.payload 1 48) }).answers slot a)))
    ∧ (k < 4 → (s.mbx.root.at k).hash ≠ none ∨ (s.mbx.root.at k).revoked = true →
      exec (.sessionRootProgram slot) s = .next (s.keeping (s.refuse slot a E.inUse))))
  ∧ (∀ (s : State) (slot k : Nat) (a : Accepted), s.grants slot Op.sessionRootRevoke a → k = leAt a.payload 0 1 → k < 4 →
    (s.otherRoots k = [] → exec (.sessionRootRevoke slot) s = .next (s.keeping (s.refuse slot a E.lastRoot)))
    ∧ (s.otherRoots k ≠ [] → (s.tags a { rstate := 0, status := 0 } && !s.cmacFree) = false → exec (.sessionRootRevoke slot) s = .next (s.keeping
      (((s.setRoot k { s.mbx.root.at k with revoked := true }).answers slot a).closeRoot (s.mbx.root.at k).hash))))

/-- A bank gives back what was set, and setting one parameter changes no other. A staging command works in a Standby bank that is STAGING and outside a confirm window; in EMPTY, PREVIOUS and RETIRED Standby first becomes a copy of Active under a new generation, unless Active is 32,766 or more generations past the last good one, which leaves an entry; else E_BUSY. CFG.SET refuses counts outside 1 to 4,096, parameters of others, and those of frozen instances; it stages each element that passes its checks in order, and answers how many, with the failures. CFG.GET answers the elements of the Active bank, or of Standby, and changes nothing. CFG.RESTAGE makes Standby a copy of Active. CFG.VALIDATE answers the first rule that Standby breaks, or none. That generations are compared in that order, and that nothing is staged by a refused CFG.SET, is the model's reading. -/
def Obligations.ConfigurationIsStaged : Prop :=
  (∀ (b : Bank) (p : Param) (i : Nat) (v : Int), (b.set p i v).get p i = v
    ∧ ∀ q j, q.id * 2 ^ 32 + j ≠ p.id * 2 ^ 32 + i → (b.set p i v).get q j = b.get q j)
  ∧ (∀ s : State,
    (s.cfg.st = .staging → s.cfg.window = none → s.stagePrelude = (s, true))
    ∧ (s.cfg.st = .committing ∨ s.cfg.st = .draining ∨ s.cfg.st = .retiring ∨ (s.cfg.st = .staging ∧ s.cfg.window ≠ none) → s.stagePrelude = (s, false))
    ∧ (s.cfg.st = .empty ∨ s.cfg.st = .previous ∨ s.cfg.st = .retired →
      (32766 ≤ (s.cfg.activeGen - s.cfg.lastGood).toNat →
        s.stagePrelude = (s.ruleEvent 431 s.cfg.activeGen.toNat 0 [s.cfg.lastGood.toNat], false))
      ∧ ((s.cfg.activeGen - s.cfg.lastGood).toNat < 32766 → s.cfg.window ≠ none → s.stagePrelude = (s, false))
      ∧ ((s.cfg.activeGen - s.cfg.lastGood).toNat < 32766 → s.cfg.window = none → ∃ u, s.stagePrelude = (u, true) ∧ u.cfg.standby = s.cfg.active ∧ u.cfg.active = s.cfg.active
        ∧ u.cfg.st = .staging ∧ (u.cfg.standbyGen = s.cfg.activeGen + 1 ∨ u.cfg.standbyGen = s.cfg.lastGood + 1) ∧ u = { s with cfg := u.cfg, inst := u.inst })))
  ∧ (∀ (s : State) (e : Nat × Nat × List Byte) (p : Param), s.elementStatus e = 0 → findParam e.1 = some p →
    (s.stageElement e).cfg = { s.cfg with standby := s.cfg.standby.set p e.2.1 (p.form.decode e.2.2) }
    ∧ e.2.1 < p.count ∧ p.form.lenOk e.2.2.length = true ∧ p.form.rangeOk e.2.1 (p.form.decode e.2.2) = true)
  ∧ (∀ (s : State) (slot : Nat) (a : Accepted) (l : List (Nat × Nat × List Byte)), s.grants slot Op.cfgSet a →
    elementsFrom (batchCount a.payload) (a.payload.drop 8) = some l →
    (batchCount a.payload < 1 ∨ 4096 < batchCount a.payload → exec (.cfgSet slot) s = .next (s.keeping (s.refuse slot a E.range)))
    ∧ (1 ≤ batchCount a.payload → batchCount a.payload ≤ 4096 →
      (∀ o ∈ s.owners (l.map (fun e => (e.1, e.2.1))), owns (slotInst slot) o = false → exec (.cfgSet slot) s = .next (s.keeping (s.refuse slot a E.notOwner)))
      ∧ ((∀ o ∈ s.owners (l.map (fun e => (e.1, e.2.1))), owns (slotInst slot) o = true ∧ s.frozen o = false) → ∀ u : State,
        (s.stagePrelude = (u, false) → exec (.cfgSet slot) s = .next (s.keeping (u.refuse slot a E.busy)))
        ∧ ∀ (t : State) (n : Nat) (failed : List (Nat × Nat)), s.stagePrelude = (u, true) → stageAll 0 u l = (t, n, failed) →
          exec (.cfgSet slot) s = .next (s.keeping (t.post slot a
            { rstate := 0, status := if failed.isEmpty then 0 else E.partial_, result := batchResult n failed })))))
  ∧ (∀ (s : State) (n : Nat) (e : Nat × Nat × List Byte) (l : List (Nat × Nat × List Byte)),
    (s.elementStatus e = 0 → stageAll n s (e :: l) =
      ((stageAll (n + 1) (s.stageElement e) l).1, (stageAll (n + 1) (s.stageElement e) l).2.1 + 1, (stageAll (n + 1) (s.stageElement e) l).2.2))
    ∧ (s.elementStatus e ≠ 0 → stageAll n s (e :: l) =
      ((stageAll (n + 1) s l).1, (stageAll (n + 1) s l).2.1, (n, s.elementStatus e) :: (stageAll (n + 1) s l).2.2)))
  ∧ (∀ (b : Bank) (s : State) (l : List (Nat × Nat)), (getAll (some b) s l).1 = s
    ∧ (getAll (some b) s l).2 = l.flatMap (fun e => match findParam e.1 with | some p => element e.1 e.2 (p.form.encode (b.valueOf p e.2)) | none => []))
  ∧ (∀ (s : State) (slot n : Nat) (a : Accepted) (l : List (Nat × Nat)), s.grants slot Op.cfgGet a → n = leAt a.payload 2 2 →
    l = (List.range n).map (fun i => (leAt a.payload (8 + 8 * i) 2, leAt a.payload (10 + 8 * i) 4)) → 1 ≤ n → n ≤ 256 →
    (∀ o ∈ s.owners l, owns (slotInst slot) o = true) → (∀ e ∈ l, ∃ p, findParam e.1 = some p ∧ e.2 < p.count) →
    (leAt a.payload 0 1 = 0 → exec (.cfgGet slot) s = .next (s.keeping (s.answers slot a (getAll (some s.cfg.active) s l).2)))
    ∧ (leAt a.payload 0 1 = 1 → s.cfg.st ≠ .empty → exec (.cfgGet slot) s = .next (s.keeping (s.answers slot a (getAll (some s.cfg.standby) s l).2))))
  ∧ (∀ (s u : State) (slot : Nat) (a : Accepted), s.grants slot Op.cfgRestage a →
    (s.stagePrelude = (u, true) → exec (.cfgRestage slot) s = .next (s.keeping (u.copyActive.answers slot a (leBytes 2 u.cfg.standbyGen.toNat))))
    ∧ (s.stagePrelude = (u, false) → exec (.cfgRestage slot) s = .next (s.keeping (u.refuse slot a E.busy))))
  ∧ (∀ (s : State) (slot : Nat) (a : Accepted), s.grants slot Op.cfgValidate a →
    (s.bankBroken s.cfg.standby = none → exec (.cfgValidate slot) s = .next (s.keeping (s.answers slot a (leBytes 6 0))))
    ∧ ∀ st p i, s.bankBroken s.cfg.standby = some (st, p, i) →
      exec (.cfgValidate slot) s = .next (s.keeping (s.refuse slot a st (leBytes 2 p.id ++ leBytes 4 i))))
/-- CFG.COMMIT refuses a wrong lap form, a window over 3,600 s or under ROLLBACK_DISABLE, a commit or rollback in progress or a window open, and a Standby without a change; else a job of 2 steps begins in COMMITTING. Its first step checks the bank and gives the activation its lap. At that boundary the banks swap, and Standby is DRAINING until its fence passes, when it is PREVIOUS; without a window the generation is confirmed at once. CFG.CONFIRM confirms the named generation inside its window. A window that ends is noted, and the boundary rolls back. CFG.ROLLBACK begins a job in DRAINING and PREVIOUS; its fence leaves RETIRED. ROLLBACK_DISABLE is refused inside a window; CFG.STATUS answers generations, state, time left and commit lap. -/
def Obligations.ConfigurationIsActivated : Prop :=
  (∀ (s : State) (slot confirm l : Nat) (a : Accepted), s.grants slot Op.cfgCommit a → confirm = leAt a.payload 2 2 →
    (s.atLap (leAt a.payload 0 1) (leAt a.payload 4 4) = none → exec (.cfgCommit slot) s = .next (s.keeping (s.refuse slot a E.format)))
    ∧ (s.atLap (leAt a.payload 0 1) (leAt a.payload 4 4) = some l →
      (3600 < confirm ∨ (confirm ≠ 0 ∧ s.cfg.rbDisable = true) → exec (.cfgCommit slot) s = .next (s.keeping (s.refuse slot a E.range)))
      ∧ (confirm ≤ 3600 → confirm = 0 ∨ s.cfg.rbDisable = false →
        (s.cfgJob = true ∨ s.cfg.window ≠ none → exec (.cfgCommit slot) s = .next (s.keeping (s.refuse slot a E.busy)))
        ∧ (s.cfgJob = false → s.cfg.window = none →
          (s.staged = false → exec (.cfgCommit slot) s = .next (s.keeping (s.refuse slot a E.notStaged)))
          ∧ (s.staged = true → s.running.length < 32 → exec (.cfgCommit slot) s = .next (s.keeping
            (State.begins { s with cfg := { s.cfg with st := .committing } } slot a (.commit confirm (leAt a.payload 0 1 = 1) (leAt a.payload 4 4)) 2)))))))
  ∧ (∀ (s : State) (n l : Nat), (n = 0 → s.atLap n 0 = some ((s.lap + 1) % 2 ^ 32)) ∧ (n = 1 → later 32 l s.lap = true → s.atLap n l = some l)
    ∧ (n = 1 → later 32 l s.lap = false → s.atLap n l = some ((s.lap + 1) % 2 ^ 32)) ∧ (2 ≤ n → s.atLap n l = none))
  ∧ (∀ (s : State) (j : Job) (confirm lap l : Nat) (atLap : Bool), s.cfg.st = .committing → j.abort = false → j.waits = false →
    s.atLap (b2n atLap) lap = some l → s.bankBroken s.cfg.standby = none → s.cfg.active.lateList s.cfg.standby (s.lapTime l) s.lapNs = none →
    s.commitStep j confirm atLap lap = State.stepJob
      { s with cfg := { s.cfg with act := some { lap := l, kind := 0, confirmS := confirm, session := j.session, seq := j.seq } } } j.session j.seq (fun j => { j with waits := true }))
  ∧ (∀ (s : State) (j : Job) (confirm lap : Nat) (atLap : Bool), s.cfg.st = .committing → j.abort = true →
    s.commitStep j confirm atLap lap = State.endJob { s with cfg := { s.cfg with st := .staging, act := none } } j.session j.seq 2 E.aborted
      (leBytes 2 s.cfg.standbyGen.toNat ++ leBytes 6 0 ++ leBytes 6 0))
  ∧ (∀ (s : State) (a : Activation), s.cfg.act = some a → s.windowOver = false → s.aborting a = false →
    (later 32 a.lap s.lap = true → s.activation = s)
    ∧ (later 32 a.lap s.lap = false → a.kind = 0 → s.activation = s.commitNow a)
    ∧ (later 32 a.lap s.lap = false → a.kind ≠ 0 → s.cfg.st = .draining ∨ s.cfg.st = .previous →
      s.activation = { s.noAct.rollBack 0 with cfg := { (s.noAct.rollBack 0).cfg with fenceJob := (a.session, a.seq) } }))
  ∧ (∀ s : State, s.windowOver = true → s.pacer.down = false → s.activation = s.rollBack 1)
  ∧ (∀ (s : State) (st : Standby), s.swapBanks st = State.applyBank { s with cfg := { s.cfg with
      active := s.cfg.standby, standby := s.cfg.active, activeGen := s.cfg.standbyGen, standbyGen := s.cfg.activeGen, st := st, window := none, expired := false,
      commitLap := s.lap, fence := s.time.mono + max (2 * s.lapNs) (1000000000 + s.lapNs) } } s.cfg.active)
  ∧ (∀ s : State,
    (s.cfg.st = .draining → s.cfg.fence ≤ s.boundaryAt → ∃ u l, u = State.dropKeys { s with cfg := { s.cfg with st := .previous } } ∧
      exec .commitFencePass s = .next (s.keeping (u.endJob u.cfg.fenceJob.1 u.cfg.fenceJob.2 0 0 (leBytes 2 u.cfg.activeGen.toNat ++ leBytes 2 0 ++ leBytes 4 u.cfg.commitLap ++ l))))
    ∧ (s.cfg.st = .retiring → s.cfg.fence ≤ s.boundaryAt → ∃ u l, u = State.dropKeys { s with cfg := { s.cfg with st := .retired } } ∧
      exec .rollbackFencePass s = .next (s.keeping (u.endJob u.cfg.fenceJob.1 u.cfg.fenceJob.2 0 0 (leBytes 2 u.cfg.activeGen.toNat ++ leBytes 2 0 ++ leBytes 4 u.cfg.commitLap ++ l))))
    ∧ (s.boundaryAt < s.cfg.fence → exec .commitFencePass s = .next s ∧ exec .rollbackFencePass s = .next s))
  ∧ (∀ (s : State) (w : Nat), s.cfg.window = some w →
    (w ≤ s.time.mono → exec .confirmWindowExpire s = .next { s with cfg := { s.cfg with expired := true } })
    ∧ (s.time.mono < w → s.cfg.expired = false → exec .confirmWindowExpire s = .next s)
    ∧ ∀ slot a, s.grants slot Op.cfgConfirm a →
      (leAt a.payload 0 2 = s.cfg.activeGen.toNat → a.at_ < w → exec (.cfgConfirm slot) s = .next (s.keeping (s.confirmed.answers slot a)))
      ∧ (leAt a.payload 0 2 ≠ s.cfg.activeGen.toNat ∨ w ≤ a.at_ → exec (.cfgConfirm slot) s = .next (s.keeping (s.refuse slot a E.noRollback))))
  ∧ (∀ s : State, s.confirmed = { s with cfg := { s.cfg with window := none, expired := false, lgDue := (if s.cfg.activeGen = s.cfg.lastGood ∧ s.cfg.writing = none then s.cfg.lgDue else some true) } })
  ∧ (∀ (s : State) (slot l : Nat) (a : Accepted), s.grants slot Op.cfgRollback a → s.atLap (leAt a.payload 0 1) (leAt a.payload 4 4) = some l →
    ((s.cfg.st ≠ .draining ∧ s.cfg.st ≠ .previous) ∨ s.cfg.rbDisable = true → exec (.cfgRollback slot) s = .next (s.keeping (s.refuse slot a E.noRollback)))
    ∧ (s.cfg.st = .draining ∨ s.cfg.st = .previous → s.cfg.rbDisable = false →
      (s.cfgJob = true → exec (.cfgRollback slot) s = .next (s.keeping (s.refuse slot a E.busy)))
      ∧ (s.cfgJob = false → s.running.length < 32 → exec (.cfgRollback slot) s = .next (s.keeping
        (State.begins { s with cfg := { s.cfg with act := some { lap := l, kind := 1, session := a.session, seq := a.seq } } } slot a .rollback 1)))))
  ∧ (∀ (s : State) (slot v : Nat) (a : Accepted), s.grants slot Op.cfgRollbackDisable a → v = leAt a.payload 0 1 →
    (v = 0 ∨ (v = 1 ∧ s.cfg.window = none) → exec (.cfgRollbackDisable slot) s = .next (s.keeping
      (State.answers { s with cfg := { s.cfg with rbDisable := v == 1, lgDue := some (s.cfg.lgDue == some true) } } slot a)))
    ∧ (v = 1 → s.cfg.window ≠ none → exec (.cfgRollbackDisable slot) s = .next (s.keeping (s.refuse slot a E.busy))))
  ∧ (∀ (s : State) (slot : Nat) (a : Accepted), s.grants slot Op.cfgStatus a → s.cfg.window = none → exec (.cfgStatus slot) s = .next (s.keeping (s.answers slot a
    (leBytes 2 s.cfg.activeGen.toNat ++ leBytes 2 s.cfg.standbyGen.toNat ++ leBytes 2 s.cfg.lastGood.toNat ++ leBytes 1 s.cfg.st.code
      ++ leBytes 1 0 ++ leBytes 2 0 ++ leBytes 2 0 ++ leBytes 4 s.cfg.commitLap))))

/-- TIME.SET_SECONDS is refused unless TIME_SOURCE is PPS_10M, and else gives the seconds to be taken; TIME.READ answers device time, lap and state. PORT.STATUS answers the state, counts and flags of a port; PTP_TS_READ answers its oldest timestamps and removes them. GATE.STAGE refuses values outside their Ranges, and else stages the list; GATE.READ answers the list of a bank and, for Active, whether it runs. SCHED.PROFILE_SELECT notes a selection for a lap, and answers the lap. A port of another instance is refused, and changes to a frozen one are too. -/
def Obligations.TimeAndGateCommands : Prop :=
  (∀ (s : State) (slot : Nat) (a : Accepted), s.grants slot Op.timeSetSeconds a →
    (s.par P.timeSource ≠ 1 → exec (.timeSetSeconds slot) s = .next (s.refuse slot a E.state))
    ∧ (s.par P.timeSource = 1 → exec (.timeSetSeconds slot) s =
      .next (State.answers { s with time := { s.time with setSeconds := some (leAt a.payload 0 6) } } slot a)))
  ∧ (∀ (s : State) (slot : Nat) (a : Accepted), s.grants slot Op.timeRead a → exec (.timeRead slot) s = .next (s.keeping (s.answers slot a
    (leBytes 6 (s.time.dev / 1000000000) ++ leBytes 2 s.time.frac.toNat ++ leBytes 4 (s.time.dev % 1000000000) ++ leBytes 4 s.lap ++ leBytes 1 s.time.state.code))))
  ∧ (∀ (s : State) (i p : Nat), s.portCheck i p = if 512 ≤ p then E.range else if i = 0 ∨ i = s.portInst p then 0 else E.notOwner)
  ∧ (∀ (s : State) (slot p : Nat) (a : Accepted), s.grants slot Op.portStatus a → p = leAt a.payload 0 2 →
    (s.portCheck (slotInst slot) p ≠ 0 → exec (.portStatus slot) s = .next (s.keeping (s.refuse slot a (s.portCheck (slotInst slot) p))))
    ∧ (s.portCheck (slotInst slot) p = 0 → exec (.portStatus slot) s = .next (s.keeping (s.answers slot a
      (leBytes 1 (s.prt p).link.code ++ leBytes 1 (b2n (s.prt p).hold.isSome) ++ leBytes 1 (b2n (s.portRamp p)) ++ leBytes 1 (b2n (s.prt p).verified)
        ++ leBytes 1 (s.prt p).locks ++ leBytes 3 0 ++ leBytes 8 (s.prt p).fecCorrected.toNat ++ leBytes 8 (s.prt p).fecUncorrectable.toNat
        ++ leBytes 4 (s.prt p).flaps.toNat)))))
  ∧ (∀ (s : State) (slot p n : Nat) (a : Accepted), s.grants slot Op.portPtpTsRead a → p = leAt a.payload 0 2 → n = leAt a.payload 2 1 →
    s.portCheck (slotInst slot) p = 0 →
    (1 ≤ n → n ≤ 64 → exec (.portPtpTsRead slot) s = .next (s.keeping ((s.updPort p (fun x => { x with ptp := x.ptp.drop n })).answers slot a
      (leBytes 1 (min n (s.prt p).ptp.length) ++ (leBytes 7 0 ++ ((s.prt p).ptp.take n).flatMap
        (fun (q, m, d, sec, ns) => leBytes 2 q ++ leBytes 1 m ++ leBytes 1 d ++ leBytes 4 ns ++ leBytes 6 sec ++ leBytes 2 0))))))
    ∧ (n < 1 ∨ 64 < n → exec (.portPtpTsRead slot) s = .next (s.keeping (s.refuse slot a E.range))))
  ∧ (∀ (s u : State) (slot p : Nat) (a : Accepted), s.grants slot Op.gateStage a → p = leAt a.payload 0 2 →
    (gateStageOk a.payload = false → exec (.gateStage slot) s = .next (s.keeping (s.refuse slot a E.range)))
    ∧ (gateStageOk a.payload = true →
      (owns (slotInst slot) (s.portInst p) = false → exec (.gateStage slot) s = .next (s.keeping (s.refuse slot a E.notOwner)))
      ∧ (owns (slotInst slot) (s.portInst p) = true →
        (s.frozen (s.portInst p) = true → exec (.gateStage slot) s = .next (s.keeping (s.refuse slot a E.state)))
        ∧ (s.frozen (s.portInst p) = false →
          (s.stagePrelude = (u, true) → exec (.gateStage slot) s = .next (s.keeping
            (State.answers { u with cfg := { u.cfg with standby := u.cfg.standby.setGate (4 * p + leAt a.payload 2 1) a.payload } } slot a)))
          ∧ (s.stagePrelude = (u, false) → exec (.gateStage slot) s = .next (s.keeping (u.refuse slot a E.busy)))))))
  ∧ (∀ (s : State) (slot p k : Nat) (a : Accepted), s.grants slot Op.gateRead a → p = leAt a.payload 0 2 → k = leAt a.payload 2 1 →
    (512 ≤ p ∨ 4 ≤ k ∨ 1 < leAt a.payload 3 1 → exec (.gateRead slot) s = .next (s.keeping (s.refuse slot a E.range)))
    ∧ (p < 512 → k < 4 → leAt a.payload 3 1 ≤ 1 → owns (slotInst slot) (s.portInst p) = false → exec (.gateRead slot) s = .next (s.keeping (s.refuse slot a E.notOwner))))
  ∧ (∀ (s : State) (slot p k : Nat) (a : Accepted) (b : Bank), s.grants slot Op.gateRead a → p = leAt a.payload 0 2 → k = leAt a.payload 2 1 → p < 512 → k < 4 →
    owns (slotInst slot) (s.portInst p) = true → leAt a.payload 3 1 = 0 ∧ b = s.cfg.active ∨ leAt a.payload 3 1 = 1 ∧ b = s.cfg.standby →
    exec (.gateRead slot) s = .next (s.keeping (s.answers slot a
      (leBytes 2 p ++ leBytes 1 k ++ leBytes 1 (b.getN P.strictStart (4 * p + k)) ++ leBytes 2 (b.getN P.glLen (4 * p + k)) ++ leBytes 2 0
        ++ leBytes 10 (b.getN P.glBaseTime (4 * p + k)) ++ leBytes 2 0 ++ leBytes 4 (b.getN P.glCycle (4 * p + k)) ++ (b.gateEntries p k).flatMap (leBytes 12)
        ++ (if leAt a.payload 3 1 = 0 then operBytes (s.gateProfile p k) else leBytes 12 0)))))
  ∧ (∀ (s : State) (slot k lap : Nat) (a : Accepted) (l : List Nat), s.grants slot Op.schedProfileSelect a → k = leAt a.payload 1 1 → l = onesOf 512 (leAt a.payload 8 64) →
    (s.atLap (leAt a.payload 0 1) (leAt a.payload 4 4) = none → exec (.schedProfileSelect slot) s = .next (s.keeping (s.refuse slot a E.format)))
    ∧ (s.atLap (leAt a.payload 0 1) (leAt a.payload 4 4) = some lap →
      (4 ≤ k → exec (.schedProfileSelect slot) s = .next (s.keeping (s.refuse slot a E.range)))
      ∧ (k < 4 → (∃ p ∈ l, owns (slotInst slot) (s.portInst p) = false) → exec (.schedProfileSelect slot) s = .next (s.keeping (s.refuse slot a E.notOwner)))
      ∧ (k < 4 → (∀ p ∈ l, owns (slotInst slot) (s.portInst p) = true) → (∃ p ∈ l, s.frozen (s.portInst p) = true) →
        exec (.schedProfileSelect slot) s = .next (s.keeping (s.refuse slot a E.state)))
      ∧ (k < 4 → (∀ p ∈ l, owns (slotInst slot) (s.portInst p) = true ∧ s.frozen (s.portInst p) = false) → exec (.schedProfileSelect slot) s =
        .next (s.keeping (State.answers { s with sched := { s.sched with host := s.sched.host ++ [(lap, k, l)] } } slot a (leBytes 4 lap))))))
/-- An image that is due is built at a boundary while the Pacer is up, in the slot that does not hold the last good generation, which is not valid meanwhile; it holds the bank and the host-owned tables of that moment under the next WRITE_SEQ and a CMAC that holds; an image that was not confirmed keeps the last good generation and its bank. A write that verifies makes its slot valid and its generation the last good one; one that does not raises FLASH_MIRROR and leaves the other slot. The refresh, when its time has come and no image is being written, makes an image due only where the tables differ from the image kept. -/
def Obligations.LastGoodImagesAreWritten : Prop :=
  (∀ (s : State) (c : Bool), s.cfg.lgDue = some c → (s.pacer.down = true → s.imageDue = s) ∧ (s.pacer.down = false → s.imageDue = s.beginImage c))
  ∧ (∀ s : State, s.cfg.lgDue = none → s.imageDue = s)
  ∧ (∀ (s : State) (c : Bool), ∃ r, s.beginImage c = { s with recd := r, cfg := { s.cfg with
      writing := some (s.lgImage c, !s.cfg.goodSlot), lgDue := none, lgAt := s.time.mono + 1000000000 * s.par P.lgRefreshS
      slot0 := if s.cfg.goodSlot then { s.cfg.slot0 with valid := false } else s.cfg.slot0
      slot1 := if s.cfg.goodSlot then s.cfg.slot1 else { s.cfg.slot1 with valid := false } } })
  ∧ (∀ s : State, (s.lgImage true).gen = s.cfg.activeGen.toNat ∧ (s.lgImage true).bank = s.cfg.active ∧ (s.lgImage true).valid = true
    ∧ (s.lgImage true).writeSeq = ((s.cfg.slot s.cfg.goodSlot).writeSeq + 1) % 2 ^ 32 ∧ (s.lgImage true).vault = s.sec.vault
    ∧ (s.lgImage true).front = shadowOf s.tbl.front ∧ (s.lgImage true).good s.sec.keys.lastGood = true)
  ∧ (∀ s : State, s.cfg.writing = none → (s.lgImage false).gen = s.cfg.lastGood.toNat ∧ (s.lgImage false).good s.sec.keys.lastGood = true
    ∧ (s.lgImage false).bank = (if s.cfg.activeGen = s.cfg.lastGood then s.cfg.active else (s.cfg.slot s.cfg.goodSlot).bank) ∧ (s.lgImage false).front = shadowOf s.tbl.front)
  ∧ (∀ (s : State) (i : LgImage) (k : Bool), s.cfg.writing = some (i, k) →
    (∃ r, exec (.lastGoodWrite true) s = .next { s with recd := r, cfg := { s.cfg with writing := none, lastGood := BitVec.ofNat 16 i.gen
                                                                                       slot0 := if k then s.cfg.slot0 else i, slot1 := if k then i else s.cfg.slot1 } })
    ∧ exec (.lastGoodWrite false) s = .next (s.keeping (State.raise
      ((State.ruleEvent { s with cfg := { s.cfg with writing := none } } 506 i.writeSeq 1 [0, i.writeSeq]).ruleEvent 442 i.gen 0) 184 0)))
  ∧ (∀ (s : State) (ok : Bool), s.cfg.writing = none → exec (.lastGoodWrite ok) s = .next s)
  ∧ (∀ (s : State) (n : Nat), n = s.par P.lgRefreshS →
    (n = 0 ∨ s.time.mono < s.cfg.lgAt ∨ s.cfg.writing ≠ none → exec .lgRefreshExpire s = .next s)
    ∧ (n ≠ 0 → s.cfg.lgAt ≤ s.time.mono → s.cfg.writing = none →
      ((s.cfg.slot s.cfg.goodSlot).valid = true → s.tableImage.sameTables (s.cfg.slot s.cfg.goodSlot) = true →
        exec .lgRefreshExpire s = .next { s with cfg := { s.cfg with lgAt := s.time.mono + 1000000000 * n } })
      ∧ ((s.cfg.slot s.cfg.goodSlot).valid = false ∨ s.tableImage.sameTables (s.cfg.slot s.cfg.goodSlot) = false →
        exec .lgRefreshExpire s = .next { s with cfg := { s.cfg with lgAt := s.time.mono + 1000000000 * n, lgDue := some (s.cfg.lgDue == some true) } })))
/-- GMU.READ answers the record of a tap or a triplet, TRIGGER_STATUS the state of a trigger, CAPTURE_LIST the captures held, CAPTURE_READ its entries from an offset on, and CAPTURE_RELEASE gives up a complete one; numbers out of range, a capture not held, and what another instance owns are refused. FAB.STATUS answers the identity and the counts, LSDB_READ the stored link states from an identity on, and PATHSET_READ a path set with its credit. None but CAPTURE_RELEASE changes anything. -/
def Obligations.GridAndFabricCommands : Prop :=
  (∀ (s : State) (slot kind k : Nat) (a : Accepted), s.grants slot Op.gmuRead a → kind = leAt a.payload 0 1 → k = leAt a.payload 2 2 →
    (2 ≤ kind ∨ 1024 ≤ k → exec (.gmuRead slot) s = .next (s.keeping (s.refuse slot a E.range)))
    ∧ (kind < 2 → k < 1024 → owns (slotInst slot) (s.gridOwner (kind == 1) k) = false → exec (.gmuRead slot) s = .next (s.keeping (s.refuse slot a E.notOwner)))
    ∧ (kind = 0 → k < 1024 → owns (slotInst slot) (s.gridOwner false k) = true → exec (.gmuRead slot) s =
      .next (s.keeping (s.answers slot a (slice ((s.gmu.tap.at k).record.bytes k) 0 (32 + 24 * s.par P.channels k)))))
    ∧ (kind = 1 → k < 1024 → owns (slotInst slot) (s.gridOwner true k) = true → exec (.gmuRead slot) s = .next (s.keeping (s.answers slot a ((s.gmu.trip.at k).bytes k)))))
  ∧ (∀ (s : State) (slot k : Nat) (a : Accepted) (t : Trigger), s.grants slot Op.gmuTriggerStatus a → k = leAt a.payload 0 2 → t = s.gmu.trig.at k →
    (512 ≤ k → exec (.gmuTriggerStatus slot) s = .next (s.keeping (s.refuse slot a E.range)))
    ∧ (k < 512 → owns (slotInst slot) (s.trigOwner k) = true → exec (.gmuTriggerStatus slot) s = .next (s.keeping (s.answers slot a
      (leBytes 1 t.st ++ leBytes 1 t.count ++ leBytes 2 0 ++ leBytes 4 t.fireLap ++ leBytes 4 t.fires.toNat)))))
  ∧ (∀ (s : State) (slot : Nat) (a : Accepted) (l : List (Nat × Capture)), s.grants slot Op.gmuCaptureList a →
    l = s.gmu.capture.filter (fun e => e.2.held && owns (slotInst slot) (s.trigOwner e.2.trig)) →
    exec (.gmuCaptureList slot) s = .next (s.keeping (s.answers slot a (leBytes 1 l.length ++ leBytes 7 0 ++ l.flatMap (fun e => s.captureBytes e.1 e.2)))))
  ∧ (∀ (s : State) (slot i : Nat) (a : Accepted) (c : Capture), i = leAt a.payload 0 1 → c = s.gmu.capture.at i →
    (s.captureCheck (slotInst slot) i = if 16 ≤ i then E.range else if c.held = false then E.notFound else if owns (slotInst slot) (s.trigOwner c.trig) then 0 else E.notOwner)
    ∧ (s.grants slot Op.gmuCaptureRead a →
      (s.captureCheck (slotInst slot) i ≠ 0 → exec (.gmuCaptureRead slot) s = .next (s.keeping (s.refuse slot a (s.captureCheck (slotInst slot) i))))
      ∧ ∀ off n l, s.captureCheck (slotInst slot) i = 0 → off = leAt a.payload 4 4 → n = leAt a.payload 8 4 → 64 ≤ n → n ≤ 65536 → n % 64 = 0 → off % 64 = 0 →
        l = ((s.gmu.ring.filter c.covers).drop (off / 64)).take (n / 64) →
        exec (.gmuCaptureRead slot) s = .next (s.keeping (s.post slot a { rstate := 0, status := 0, result := leBytes 4 (64 * l.length), atOut := l.flatMap CapEntry.bytes })))
    ∧ (s.grants slot Op.gmuCaptureRelease a → s.captureCheck (slotInst slot) i = 0 →
      (s.frozen (s.trigOwner c.trig) = true ∨ c.complete = false → exec (.gmuCaptureRelease slot) s = .next (s.keeping (s.refuse slot a E.state)))
      ∧ (s.frozen (s.trigOwner c.trig) = false → c.complete = true → exec (.gmuCaptureRelease slot) s =
        .next (s.keeping (State.answers { s with gmu := { s.gmu with capture := s.gmu.capture.del i } } slot a)))))
  ∧ (∀ (s : State) (slot : Nat) (a : Accepted), s.grants slot Op.fabStatus a → exec (.fabStatus slot) s = .next (s.keeping (s.answers slot a
    (leBytes 2 s.fab.id ++ leBytes 1 (b2n s.fab.settled) ++ leBytes 1 0 ++ leBytes 2 s.adjacent.length ++ leBytes 2 s.devices.length))))
  ∧ (∀ (s : State) (slot f n : Nat) (a : Accepted) (l : List Nat), s.grants slot Op.fabLsdbRead a → f = leAt a.payload 0 2 → n = leAt a.payload 2 2 →
    l = s.devices.filter (fun d => decide (f ≤ d)) →
    (4096 ≤ f ∨ n < 1 ∨ 4096 < n → exec (.fabLsdbRead slot) s = .next (s.keeping (s.refuse slot a E.range)))
    ∧ (f < 4096 → 1 ≤ n → n ≤ 4096 → exec (.fabLsdbRead slot) s = .next (s.keeping (s.post slot a
      { rstate := 0, status := 0, result := leBytes 2 ((l.drop n).head?.getD 0xFFFF) ++ leBytes 2 (min n l.length), atOut := (l.take n).flatMap (fun d => s.lsaPayload (s.fab.lsdb.at d)) }))))
  ∧ (∀ (s : State) (slot d : Nat) (a : Accepted), s.grants slot Op.fabPathsetRead a → d = leAt a.payload 0 2 →
    (4096 ≤ d → exec (.fabPathsetRead slot) s = .next (s.keeping (s.refuse slot a E.range)))
    ∧ (d < 4096 → exec (.fabPathsetRead slot) s = .next (s.keeping (s.answers slot a
      (leBytes 1 (s.fab.path.at d).length ++ leBytes 1 0 ++ (List.range 64).flatMap (fun k => leBytes 2 ((s.fab.path.at d).getD k 0))
        ++ (List.range 8).flatMap (fun rc => leBytes 4 (s.fab.credit.at (8 * d + rc))))))))

/-- A batch of TBL.INSERT or TBL.DELETE refuses a count out of range, tables or entries of others, and frozen instances. Else its entries are applied in order while the budget of the lap lasts; the last one applied in this lap answers DONE with the counts and failures, and a rest waits for the laps that follow, as a job. An entry that is inserted is written in the front tier or, as a station, in the station table, where there is room; a key that exists is a duplicate unless it is to be replaced. TBL.DELETE clears the entry of a key. TBL.LOOKUP answers the entry of a key or zeros, TBL.DUMP the entries of a tier from a cursor on. TBL.FLUSH begins a job of 4 steps, one for each structure, which clears the entries that meet every criterion. -/
def Obligations.TableCommandsChangeEntries : Prop :=
  (∀ (s : State) (slot : Nat) (a : Accepted),
    (s.grants slot Op.tblInsert a → countOk Op.tblInsert a = false → exec (.tblInsert slot) s = .next (s.keeping (s.refuse slot a E.range)))
    ∧ (s.grants slot Op.tblDelete a → countOk Op.tblDelete a = false → exec (.tblDelete slot) s = .next (s.keeping (s.refuse slot a E.range))))
  ∧ (∀ (s : State) (slot : Nat) (a : Accepted) (l : List (List Byte)), s.grants slot Op.tblInsert a → countOk Op.tblInsert a = true → l = batchEntries 32 a.payload →
    (slotInst slot ≠ 0 → (∃ e ∈ l, (tblEntry e).station = false ∧ (tblEntry e).table < 16 ∧ s.par P.ftOwner (tblEntry e).table ≠ slotInst slot) →
      exec (.tblInsert slot) s = .next (s.keeping (s.refuse slot a E.notOwner)))
    ∧ ((∀ e ∈ l, slotInst slot = 0 ∨ (tblEntry e).station = true ∨ 16 ≤ (tblEntry e).table ∨ s.par P.ftOwner (tblEntry e).table = slotInst slot) →
      s.frozen (slotInst slot) = true ∨ (∃ e ∈ l, s.frozen (R.inst.get (tblEntry e).result) = true) →
      exec (.tblInsert slot) s = .next (s.keeping (s.refuse slot a E.state))))
  ∧ (∀ (s : State) (slot : Nat) (a : Accepted) (l : List (List Byte)), s.grants slot Op.tblDelete a → countOk Op.tblDelete a = true → l = batchEntries 24 a.payload →
    ((∃ o ∈ s.keyOwners l, owns (slotInst slot) o = false) → exec (.tblDelete slot) s = .next (s.keeping (s.refuse slot a E.notOwner)))
    ∧ ((∀ o ∈ s.keyOwners l, owns (slotInst slot) o = true) → s.frozen (slotInst slot) = true ∨ (∃ o ∈ s.keyOwners l, s.frozen o = true) →
      exec (.tblDelete slot) s = .next (s.keeping (s.refuse slot a E.state))))
  ∧ (∀ (s t : State) (slot pos done : Nat) (a : Accepted) (l rest : List (List Byte)) (failed : List (Nat × Nat)), s.grants slot Op.tblInsert a →
    countOk Op.tblInsert a = true → l = batchEntries 32 a.payload →
    (∀ e ∈ l, slotInst slot = 0 ∨ (tblEntry e).station = true ∨ 16 ≤ (tblEntry e).table ∨ s.par P.ftOwner (tblEntry e).table = slotInst slot) →
    s.frozen (slotInst slot) = false → (∀ e ∈ l, s.frozen (R.inst.get (tblEntry e).result) = false) →
    runTbl Op.tblInsert (slotInst slot) s l 0 0 [] = (t, rest, pos, done, failed) →
    (rest = [] → exec (.tblInsert slot) s = .next (s.keeping (t.post slot a { rstate := 0, status := batchStatus failed, result := batchResult done failed })))
    ∧ (rest ≠ [] → s.running.length < 32 →
      exec (.tblInsert slot) s = .next (s.keeping (t.defers slot a (.batch Op.tblInsert rest pos done failed []) (batchCount a.payload)))))
  ∧ (∀ (s t : State) (slot pos done : Nat) (a : Accepted) (l rest : List (List Byte)) (failed : List (Nat × Nat)), s.grants slot Op.tblDelete a →
    countOk Op.tblDelete a = true → l = batchEntries 24 a.payload → s.frozen (slotInst slot) = false →
    (∀ o ∈ s.keyOwners l, owns (slotInst slot) o = true ∧ s.frozen o = false) → runTbl Op.tblDelete (slotInst slot) s l 0 0 [] = (t, rest, pos, done, failed) →
    (rest = [] → exec (.tblDelete slot) s = .next (s.keeping (t.post slot a { rstate := 0, status := batchStatus failed, result := batchResult done failed })))
    ∧ (rest ≠ [] → s.running.length < 32 →
      exec (.tblDelete slot) s = .next (s.keeping (t.defers slot a (.batch Op.tblDelete rest pos done failed []) (batchCount a.payload)))))
  ∧ (∀ (op i pos done : Nat) (s : State) (e : List Byte) (l : List (List Byte)) (failed : List (Nat × Nat)) (r : State × Nat) (u : State),
    r = (if op = Op.tblInsert then s.tblInsertOne i e else s.tblDeleteOne i e) → u = { r.1 with mbx := { r.1.mbx with batchUsed := r.1.mbx.batchUsed + 1 } } →
    (s.batchBudget ≤ s.mbx.batchUsed → runTbl op i s (e :: l) pos done failed = (s, e :: l, pos, done, failed))
    ∧ (s.mbx.batchUsed < s.batchBudget → runTbl op i s (e :: l) pos done failed =
      if r.2 = 0 then runTbl op i u l (pos + 1) (done + 1) failed else runTbl op i u l (pos + 1) done (failed ++ [(pos, r.2)])))
  ∧ (∀ (s : State) (i : Nat) (e : TblEntry), s.findKey s.cfg.active e.table e.key = none →
    (e.station = false → ∀ u, s.placeFront s.cfg.active e.table { valid := true, key := e.key, result := e.result, host := true } = (u, true) → s.tblPlace i e = (u, 0))
    ∧ (e.station = false → ∀ u, s.placeFront s.cfg.active e.table { valid := true, key := e.key, result := e.result, host := true } = (u, false) → s.tblPlace i e = (u, E.tableFull))
    ∧ (e.station = true → s.par P.instStationMax (R.inst.get e.result) ≤ s.stationCount (R.inst.get e.result) → s.tblPlace i e = (s, E.tableFull))
    ∧ (e.station = true → s.stationCount (R.inst.get e.result) < s.par P.instStationMax (R.inst.get e.result) →
      (∀ u, s.placeStation s.cfg.active { valid := true, key := stationKey e.key, result := e.result, host := true } = some u → s.tblPlace i e = (u, 0))
      ∧ (s.placeStation s.cfg.active { valid := true, key := stationKey e.key, result := e.result, host := true } = none → s.tblPlace i e = (s, E.tableFull))))
  ∧ (∀ (s : State) (b : Bank) (t : Nat) (e : Entry) (c : Nat × Nat),
    (b.getN P.ftSegments t ≠ 0 → s.freeCell (bucketCells 0 (frontBase t) (b.front1 t e.key) ++ (if b.on P.ftForm t then bucketCells 0 (frontBase t) (b.front2 t e.key) else [])) = some c →
      s.placeFront b t e = (s.setEntry c e, true))
    ∧ (b.getN P.ftSegments t = 0 ∨ b.on P.ftForm t = false ∧ s.freeCell (bucketCells 0 (frontBase t) (b.front1 t e.key)) = none →
      (s.freeCell (bucketCells 1 0 (b.front3 e.key)) = some c → s.placeFront b t e = (s.setEntry c e, true))
      ∧ (s.freeCell (bucketCells 1 0 (b.front3 e.key)) = none → s.placeFront b t e = (s, false)))
    ∧ (s.freeCell (bucketCells 2 0 (b.station1 e.key)) = some c → s.placeStation b e = some (s.setEntry c e)))
  ∧ (∀ (s : State) (i o : Nat) (x : List Byte) (e : TblEntry), e = tblEntry x → o = R.inst.get e.result →
    (16 ≤ e.table ∨ e.key / 2 ^ 124 ≠ e.table ∨ resultOk e.result = false → s.tblInsertOne i x = (s, E.range))
    ∧ (e.table < 16 → e.key / 2 ^ 124 = e.table → resultOk e.result = true →
      (e.station = true → s.cfg.active.stationTable e.table = false ∨ e.key % 2 ^ 64 ≠ 0 ∨ R.pinned.get e.result = 1 → s.tblInsertOne i x = (s, E.range))
      ∧ (e.station = false ∨ (s.cfg.active.stationTable e.table = true ∧ e.key % 2 ^ 64 = 0 ∧ R.pinned.get e.result ≠ 1) →
        (i ≠ 0 → o ≠ i → s.tblInsertOne i x = (s, E.notOwner))
        ∧ (i = 0 ∨ o = i → (s.refCheck o (resultRefs e.result) ≠ 0 → s.tblInsertOne i x = (s, s.refCheck o (resultRefs e.result)))
          ∧ (s.refCheck o (resultRefs e.result) = 0 → s.tblInsertOne i x = s.tblPlace i e)))))
  ∧ (∀ (s : State) (i : Nat) (e : TblEntry) (c : Nat × Nat), s.findKey s.cfg.active e.table e.key = some c →
    (e.replace = false → s.tblPlace i e = (s, E.duplicate))
    ∧ (e.replace = true → owns i (R.inst.get (s.entry c).result) = false → s.tblPlace i e = (s, E.notOwner))
    ∧ (e.replace = true → owns i (R.inst.get (s.entry c).result) = true → c.1 < 2 →
      s.tblPlace i e = (s.setEntry c { (s.entry c) with result := e.result, hit := false, host := true }, 0)))
  ∧ (∀ (s : State) (i : Nat) (e : List Byte) (c : Nat × Nat), leAt e 0 1 < 16 → keyAt e / 2 ^ 124 = leAt e 0 1 →
    (s.findKey s.cfg.active (leAt e 0 1) (keyAt e) = none → s.tblDeleteOne i e = (s, E.notFound))
    ∧ (s.findKey s.cfg.active (leAt e 0 1) (keyAt e) = some c → owns i (R.inst.get (s.entry c).result) = true → s.tblDeleteOne i e = (s.setEntry c {}, 0)))
  ∧ (∀ (s : State) (slot t : Nat) (a : Accepted) (c : Nat × Nat), s.grants slot Op.tblLookup a → t = leAt a.payload 0 1 → t < 16 → keyAt a.payload / 2 ^ 124 = t →
    (s.findKey s.cfg.active t (keyAt a.payload) = none → exec (.tblLookup slot) s = .next (s.keeping (s.answers slot a (leBytes 16 0))))
    ∧ (s.findKey s.cfg.active t (keyAt a.payload) = some c → owns (slotInst slot) (R.inst.get (s.entry c).result) = true →
      exec (.tblLookup slot) s = .next (s.keeping (s.answers slot a (leBytes 1 1 ++ leBytes 1 c.1 ++ leBytes 1 (b2n (s.entry c).hit) ++ leBytes 1 0
        ++ leBytes 4 (placeOf c.1 c.2) ++ leBytes 8 (s.entry c).result)))))
  ∧ (∀ (s : State) (slot tier n : Nat) (a : Accepted) (l : List (Nat × Entry)), s.grants slot Op.tblDump a → tier = leAt a.payload 1 1 → n = leAt a.payload 6 2 →
    leAt a.payload 0 1 < 16 → tier < 4 → leAt a.payload 2 1 < 4 → leAt a.payload 4 2 < 512 → 1 ≤ n → n ≤ 2048 →
    l = s.dumpFrom (slotInst slot) (leAt a.payload 0 1) tier (leAt a.payload 2 1) (leAt a.payload 4 2) (leAt a.payload 8 8) →
    ∃ next, exec (.tblDump slot) s = .next (s.keeping (s.post slot a
      { rstate := 0, status := 0, result := leBytes 8 next ++ leBytes 2 (min n l.length) ++ leBytes 6 0, atOut := (l.take n).flatMap (fun e => tblBytes tier e.2) }))
      ∧ (l.length ≤ n → next = 0))
  ∧ (∀ (s : State) (slot sel i p : Nat) (a : Accepted), s.grants slot Op.tblFlush a → sel = leAt a.payload 0 1 → i = leAt a.payload 1 1 → p = leAt a.payload 2 2 →
    (8 ≤ sel → exec (.tblFlush slot) s = .next (s.keeping (s.refuse slot a E.range)))
    ∧ (sel < 8 → (bit sel 1 = true ∧ 512 ≤ p) ∨ (bit sel 2 = true ∧ 64 ≤ i) → exec (.tblFlush slot) s = .next (s.keeping (s.refuse slot a E.range)))
    ∧ (sel < 8 → bit sel 1 = false ∨ p < 512 → bit sel 2 = false ∨ i < 64 → bit sel 1 = false ∨ owns (slotInst slot) (s.portInst p) = true → bit sel 2 = false ∨ owns (slotInst slot) i = true →
      s.frozen (slotInst slot) = false → bit sel 2 = false ∨ s.frozen i = false →
      ((∃ j ∈ s.running, j.op = Op.tblFlush) → exec (.tblFlush slot) s = .next (s.keeping (s.refuse slot a E.busy)))
      ∧ ((∀ j ∈ s.running, j.op ≠ Op.tblFlush) → s.running.length < 32 → exec (.tblFlush slot) s = .next (s.keeping (s.begins slot a (.flush sel i p 0) 4)))))
  ∧ (∀ (s : State) (j : Job) (sel i p n m : Nat) (l : List (Nat × Entry)), j.kind = .flush sel i p n → j.abort = false →
    l = (s.tbl.store j.done).filter (fun e => e.2.valid && flushed j.inst sel i p e.2.result) → m = n + l.length →
    (j.done < 3 → s.jobStep j = (s.forEach l (fun s e => s.setEntry (j.done, e.1) {})).stepJob j.session j.seq (fun j => { j with kind := .flush sel i p m }))
    ∧ (3 ≤ j.done → s.jobStep j =
      ((s.forEach l (fun s e => s.setEntry (j.done, e.1) {})).stepJob j.session j.seq (fun j => { j with kind := .flush sel i p m })).endJob j.session j.seq 0 0 (leBytes 4 m)))
/-- OBJ.WRITE refuses in order a kind or a payload that is wrong, an index that does not exist, a record in use or draining, words out of range, another's stream, and references that may not be; else the record is in use with its words and its owner. OBJ.DELETE refuses a record that is not in use or is referred to, and else lets it drain to its fence, as a job of one step. OBJ.READ answers the references, the state and the words. STREAM.RESET gives the state fields what the host wrote, and leaves the counters. The order of these checks is the model's. -/
def Obligations.RecordsAreWrittenAndDeleted : Prop :=
  (∀ (s : State) (slot k i w : Nat) (a : Accepted), s.grants slot Op.objWrite a → k = a.kind → i = a.index → w = cleanWords k a.words →
    (5 ≤ k → exec (.objWrite slot) s = .next (s.keeping (s.refuse slot a E.range)))
    ∧ (k < 5 → a.payload.length ≠ 8 + 24 * poolWords k → exec (.objWrite slot) s = .next (s.keeping (s.refuse slot a E.format)))
    ∧ (k < 5 → a.payload.length = 8 + 24 * poolWords k →
      (s.recordOk a = false ∨ noRecord k i = true → exec (.objWrite slot) s = .next (s.keeping (s.refuse slot a E.range)))
      ∧ (s.recordOk a = true → noRecord k i = false → s.frozen (slotInst slot) = true → exec (.objWrite slot) s = .next (s.keeping (s.refuse slot a E.state))))
    ∧ (k < 5 → a.payload.length = 8 + 24 * poolWords k → s.recordOk a = true → noRecord k i = false → s.frozen (slotInst slot) = false →
      ((s.obj k i).st = 1 → exec (.objWrite slot) s = .next (s.keeping (s.refuse slot a E.inUse)))
      ∧ ((s.obj k i).st = 2 → exec (.objWrite slot) s = .next (s.keeping (s.refuse slot a E.busy)))
      ∧ ((s.obj k i).st = 0 → s.wordsOk k w = false → exec (.objWrite slot) s = .next (s.keeping (s.refuse slot a E.range)))
      ∧ ((s.obj k i).st = 0 → s.wordsOk k w = true → k = K.stream → slotInst slot ≠ 0 → S.inst.get w ≠ slotInst slot →
        exec (.objWrite slot) s = .next (s.keeping (s.refuse slot a E.notOwner)))
      ∧ ((s.obj k i).st = 0 → s.wordsOk k w = true → k ≠ K.stream ∨ slotInst slot = 0 ∨ S.inst.get w = slotInst slot →
        s.refCheck (slotInst slot) (recordRefs k w) ≠ 0 →
        exec (.objWrite slot) s = .next (s.keeping (s.refuse slot a (s.refCheck (slotInst slot) (recordRefs k w)))))
      ∧ ((s.obj k i).st = 0 → s.wordsOk k w = true → k ≠ K.stream ∨ slotInst slot = 0 ∨ S.inst.get w = slotInst slot →
        s.refCheck (slotInst slot) (recordRefs k w) = 0 →
        exec (.objWrite slot) s = .next (s.keeping ((s.setObj k i { st := 1, words := w, init := w, owner := slotInst slot }).answers slot a)))))
  ∧ (∀ (s : State) (slot k i : Nat) (a : Accepted), s.grants slot Op.objDelete a → k = a.kind → i = a.index →
    (s.recordOk a = false → exec (.objDelete slot) s = .next (s.keeping (s.refuse slot a E.range)))
    ∧ (s.recordOk a = true → (s.obj k i).st = 0 → exec (.objDelete slot) s = .next (s.keeping (s.refuse slot a E.notFound)))
    ∧ (s.recordOk a = true → (s.obj k i).st ≠ 0 → owns (slotInst slot) (s.obj k i).owner = false → exec (.objDelete slot) s = .next (s.keeping (s.refuse slot a E.notOwner)))
    ∧ (s.recordOk a = true → (s.obj k i).st ≠ 0 → owns (slotInst slot) (s.obj k i).owner = true →
      (s.frozen (s.obj k i).owner = true → exec (.objDelete slot) s = .next (s.keeping (s.refuse slot a E.state)))
      ∧ (s.frozen (s.obj k i).owner = false → (s.obj k i).st = 2 → exec (.objDelete slot) s = .next (s.keeping (s.refuse slot a E.busy))))
    ∧ (s.recordOk a = true → (s.obj k i).st = 1 → owns (slotInst slot) (s.obj k i).owner = true → s.frozen (s.obj k i).owner = false →
      (s.refsOf k i ≠ 0 → exec (.objDelete slot) s = .next (s.keeping (s.refuse slot a E.inUse)))
      ∧ (s.refsOf k i = 0 → s.running.length < 32 → exec (.objDelete slot) s = .next (s.keeping ((s.drainObj k i).begins slot a (.objDelete k i) 1)))))
  ∧ (∀ (s : State) (k i : Nat), (s.drainObj k i).obj k i = { s.obj k i with st := 2, fence := s.drainFence, del := s.tbl.dels, par := recordPar k (s.obj k i).words })
  ∧ (∀ (s : State) (k i : Nat) (r : ObjRec), (s.setObj k i r).obj k i = { r with par := recordPar k r.words })
  ∧ (∀ (s : State) (slot k i : Nat) (a : Accepted), s.grants slot Op.objRead a → k = a.kind → i = a.index →
    (s.recordOk a = false → exec (.objRead slot) s = .next (s.keeping (s.refuse slot a E.range)))
    ∧ (s.recordOk a = true → (s.obj k i).st ≠ 0 → owns (slotInst slot) (s.obj k i).owner = false → exec (.objRead slot) s = .next (s.keeping (s.refuse slot a E.notOwner))))
  ∧ (∀ (s : State) (slot k i : Nat) (a : Accepted), s.grants slot Op.objRead a → k = a.kind → i = a.index → s.recordOk a = true →
    (s.obj k i).st = 0 ∨ owns (slotInst slot) (s.obj k i).owner = true →
    exec (.objRead slot) s = .next (s.keeping (s.answers slot a
      (leBytes 4 (s.refsOf k i) ++ leBytes 1 (s.obj k i).st ++ leBytes 3 0 ++ leBytes (24 * poolWords k) (s.obj k i).words))))
  ∧ (∀ (s : State) (slot : Nat) (a : Accepted), s.grants slot Op.streamReset a → s.cfg.active.records K.stream ≤ leAt a.payload 0 2 →
    exec (.streamReset slot) s = .next (s.keeping (s.refuse slot a E.range)))
  ∧ (∀ (s : State) (slot i : Nat) (a : Accepted) (r : ObjRec), s.grants slot Op.streamReset a → i = leAt a.payload 0 2 → r = s.obj K.stream i →
    i < s.cfg.active.records K.stream →
    (r.st ≠ 1 → exec (.streamReset slot) s = .next (s.keeping (s.refuse slot a E.notFound)))
    ∧ (r.st = 1 → owns (slotInst slot) r.owner = false → exec (.streamReset slot) s = .next (s.keeping (s.refuse slot a E.notOwner)))
    ∧ (r.st = 1 → owns (slotInst slot) r.owner = true → s.frozen r.owner = true → exec (.streamReset slot) s = .next (s.keeping (s.refuse slot a E.state)))
    ∧ (r.st = 1 → owns (slotInst slot) r.owner = true → s.frozen r.owner = false → ∃ u : State, exec (.streamReset slot) s = .next (s.keeping (u.answers slot a))
      ∧ u = s.putObj K.stream i [(S.blocked, S.blocked.get r.init), (S.seqValid, S.seqValid.get r.init), (S.recovSeq, S.recovSeq.get r.init),
        (S.history, S.history.get r.init), (S.lastAccept, S.lastAccept.get r.init)]
      ∧ S.lastAccept.get (u.obj K.stream i).words = S.lastAccept.get r.init ∧ S.seqValid.get (u.obj K.stream i).words = S.seqValid.get r.init
      ∧ S.blocked.get (u.obj K.stream i).words = S.blocked.get r.init ∧ S.recovSeq.get (u.obj K.stream i).words = S.recovSeq.get r.init
      ∧ S.history.get (u.obj K.stream i).words = S.history.get r.init ∧ S.passed.get (u.obj K.stream i).words = S.passed.get r.words
      ∧ S.dupDiscards.get (u.obj K.stream i).words = S.dupDiscards.get r.words))
/-- A batch of rules or prefixes refuses a count out of range, entries of others and frozen instances, and else enters the queue of the move engine in its order, as work of as many steps as it has entries. A rule is inserted under the next handle, in a row the order of its priority allows, or TABLE_FULL; a prefix in a bucket its address may take, or DUPLICATE or TABLE_FULL. A handle is never one that a rule has. RULE.SET_RESULT waits while the move engine has updates, and else replaces the result of the rule of a handle; RULE.READ answers it, and an unknown handle is NOT_FOUND. PFX.LOOKUP answers the prefix that hits an address first in the order of the store, or zeros. -/
def Obligations.RulesAndPrefixesAreSearched : Prop :=
  (∀ (s : State) (op n : Nat) (a : Accepted) (l : List Move),
    l = (List.zip (List.range (batchCount a.payload)) (batchEntries n a.payload)).map (fun e => Move.entry a.session a.seq e.1 op e.2) →
    s.moveBatch op n a = .maybe { s with srch := { s.srch with moves := s.srch.moves ++ l } } (.batch op [] 0 0 [] []) (batchCount a.payload))
  ∧ (∀ (s u : State) (slot n : Nat) (a : Accepted) (k : JobKind), s.running.length < 32 →
    (s.grants slot Op.ruleInsert a → countOk Op.ruleInsert a = true → s.frozen (slotInst slot) = false →
      (∀ e ∈ batchEntries 96 a.payload, s.frozen (s.ruleFrom e).inst = false) → s.moveBatch Op.ruleInsert 96 a = .maybe u k n →
      exec (.ruleInsert slot) s = .next (s.keeping (u.defers slot a k n)))
    ∧ (s.grants slot Op.ruleDelete a → countOk Op.ruleDelete a = true → s.frozen (slotInst slot) = false →
      (∀ o ∈ s.ruleOwners ((batchEntries 4 a.payload).map (fun e => leAt e 0 4)), owns (slotInst slot) o = true ∧ s.frozen o = false) →
      s.moveBatch Op.ruleDelete 4 a = .maybe u k n → exec (.ruleDelete slot) s = .next (s.keeping (u.defers slot a k n)))
    ∧ (s.grants slot Op.pfxInsert a → countOk Op.pfxInsert a = true → s.frozen (slotInst slot) = false →
      (∀ o ∈ s.vrfOwners (batchEntries 32 a.payload), owns (slotInst slot) o = true ∧ s.frozen o = false) → s.moveBatch Op.pfxInsert 32 a = .maybe u k n →
      exec (.pfxInsert slot) s = .next (s.keeping (u.defers slot a k n)))
    ∧ (s.grants slot Op.pfxDelete a → countOk Op.pfxDelete a = true → s.frozen (slotInst slot) = false →
      (∀ o ∈ s.vrfOwners (batchEntries 24 a.payload), owns (slotInst slot) o = true ∧ s.frozen o = false) → s.moveBatch Op.pfxDelete 24 a = .maybe u k n →
      exec (.pfxDelete slot) s = .next (s.keeping (u.defers slot a k n))))
  ∧ (∀ (s : State) (slot : Nat) (a : Accepted),
    (s.grants slot Op.ruleInsert a → countOk Op.ruleInsert a = false → exec (.ruleInsert slot) s = .next (s.keeping (s.refuse slot a E.range)))
    ∧ (s.grants slot Op.ruleDelete a → countOk Op.ruleDelete a = false → exec (.ruleDelete slot) s = .next (s.keeping (s.refuse slot a E.range)))
    ∧ (s.grants slot Op.pfxInsert a → countOk Op.pfxInsert a = false → exec (.pfxInsert slot) s = .next (s.keeping (s.refuse slot a E.range)))
    ∧ (s.grants slot Op.pfxDelete a → countOk Op.pfxDelete a = false → exec (.pfxDelete slot) s = .next (s.keeping (s.refuse slot a E.range))))
  ∧ (∀ (s : State) (slot : Nat) (a : Accepted),
    (s.grants slot Op.ruleInsert a → countOk Op.ruleInsert a = true → s.frozen (slotInst slot) = true ∨ (∃ e ∈ batchEntries 96 a.payload, s.frozen (s.ruleFrom e).inst = true) →
      exec (.ruleInsert slot) s = .next (s.keeping (s.refuse slot a E.state)))
    ∧ (s.grants slot Op.ruleDelete a → countOk Op.ruleDelete a = true →
      (∃ o ∈ s.ruleOwners ((batchEntries 4 a.payload).map (fun e => leAt e 0 4)), owns (slotInst slot) o = false) →
      exec (.ruleDelete slot) s = .next (s.keeping (s.refuse slot a E.notOwner)))
    ∧ (s.grants slot Op.pfxInsert a → countOk Op.pfxInsert a = true → (∃ o ∈ s.vrfOwners (batchEntries 32 a.payload), owns (slotInst slot) o = false) →
      exec (.pfxInsert slot) s = .next (s.keeping (s.refuse slot a E.notOwner)))
    ∧ (s.grants slot Op.pfxDelete a → countOk Op.pfxDelete a = true → (∃ o ∈ s.vrfOwners (batchEntries 24 a.payload), owns (slotInst slot) o = false) →
      exec (.pfxDelete slot) s = .next (s.keeping (s.refuse slot a E.notOwner))))
  ∧ (∀ (s : State) (i : Nat) (e : List Byte), ruleOk i (leAt e 0 1) (s.ruleFrom e) = true →
    s.refCheck (s.ruleFrom e).inst (resultRefs (s.ruleFrom e).result) = 0 →
    (s.par P.instRuleRows (s.ruleFrom e).inst ≤ s.ruleCount (s.ruleFrom e).inst → s.ruleInsertOne i e = (s, E.tableFull, 0))
    ∧ ∀ rows n, s.ruleCount (s.ruleFrom e).inst < s.par P.instRuleRows (s.ruleFrom e).inst →
      placeRule s.srch.rule (s.ruleFrom e) (bit (leAt e 1 1) 0) = some (rows, n) →
      s.ruleInsertOne i e = ({ s with srch := { s.srch with rule := rows, nextHandle := s.srch.freeHandle % (2 ^ 32 - 1) + 1 } }, 0, s.srch.freeHandle))
  ∧ (∀ q : Search, (q.rule.any (fun r => r.2.valid && r.2.handle == q.nextHandle) = false → q.freeHandle = q.nextHandle)
    ∧ (1 ≤ q.nextHandle → q.nextHandle < 2 ^ 32 → q.rule.length < 2 ^ 32 - 1 → 1 ≤ q.freeHandle ∧ q.freeHandle < 2 ^ 32
      ∧ ∀ r ∈ q.rule, r.2.valid = true → r.2.handle ≠ q.freeHandle))
  ∧ (∀ (s : State) (i row : Nat) (e : List Byte) (r : Rule),
    (s.ruleOf (leAt e 0 4) = none → s.ruleDeleteOne i e = (s, E.notFound))
    ∧ (s.ruleOf (leAt e 0 4) = some (row, r) → owns i r.inst = true → s.ruleDeleteOne i e = ({ s with srch := { s.srch with rule := s.srch.rule.del row } }, 0)))
  ∧ (∀ (s : State) (slot row : Nat) (a : Accepted) (r : Rule),
    (s.moving = true → s.grants slot Op.ruleSetResult a → exec (.ruleSetResult slot) s = .next (s.keeping s))
    ∧ (s.ruleOf (leAt a.payload 0 4) = none →
      (s.moving = false → s.grants slot Op.ruleSetResult a → exec (.ruleSetResult slot) s = .next (s.keeping (s.refuse slot a E.notFound)))
      ∧ (s.grants slot Op.ruleRead a → exec (.ruleRead slot) s = .next (s.keeping (s.refuse slot a E.notFound))))
    ∧ (s.ruleOf (leAt a.payload 0 4) = some (row, r) → owns (slotInst slot) r.inst = true →
      (s.moving = false → s.grants slot Op.ruleSetResult a → s.frozen r.inst = false → resultOk (cleanMatch (leAt a.payload 8 8)) = true →
        s.refCheck r.inst (resultRefs (cleanMatch (leAt a.payload 8 8))) = 0 → exec (.ruleSetResult slot) s = .next (s.keeping
          (State.answers { s with srch := { s.srch with rule := s.srch.rule.upd row (fun x => Rule.sealed { x with result := cleanMatch (leAt a.payload 8 8) }) } } slot a)))
      ∧ (s.grants slot Op.ruleRead a → exec (.ruleRead slot) s = .next (s.keeping (s.answers slot a (leBytes 4 row ++ leBytes 1 (bits r.value 316 4) ++ leBytes 1 0
        ++ leBytes 2 r.prio ++ leBytes 40 r.value ++ leBytes 40 r.mask ++ leBytes 8 r.result))))))
  ∧ (∀ (s : State) (e : List Byte) (p : Prefix), p = prefixEntry e → prefixOk e = true → resultOk p.result = true →
    s.refCheck (s.par P.vrfOwner p.vrf) (resultRefs p.result) = 0 →
    (∀ k, s.srch.findPrefix p.family p.vrf p.len p.addr = some k → bit (leAt e 3 1) 0 = false → s.pfxInsertOne e = (s, E.duplicate))
    ∧ (∀ k, s.srch.findPrefix p.family p.vrf p.len p.addr = some k → bit (leAt e 3 1) 0 = true →
      s.pfxInsertOne e = ({ s with srch := { s.srch with pfx := s.srch.pfx.upd k (fun q => Prefix.sealed { q with result := p.result }) } }, 0))
    ∧ (s.srch.findPrefix p.family p.vrf p.len p.addr = none →
      (s.par P.instPfxLanes (s.par P.vrfOwner p.vrf) < s.laneTotal (s.par P.vrfOwner p.vrf) + laneCount p.family → s.pfxInsertOne e = (s, E.tableFull))
      ∧ ∀ q, s.laneTotal (s.par P.vrfOwner p.vrf) + laneCount p.family ≤ s.par P.instPfxLanes (s.par P.vrfOwner p.vrf) → s.srch.placePrefix p = some q →
        s.pfxInsertOne e = ({ s with srch := q }, 0)))
  ∧ (∀ (s : State) (e : List Byte) (p : Prefix), p = prefixFrom e →
    (prefixOk e = false → s.pfxDeleteOne e = (s, E.range))
    ∧ (prefixOk e = true → s.srch.findPrefix p.family p.vrf p.len p.addr = none → s.pfxDeleteOne e = (s, E.notFound))
    ∧ ∀ k, prefixOk e = true → s.srch.findPrefix p.family p.vrf p.len p.addr = some k → s.pfxDeleteOne e = ({ s with srch := s.srch.dropPrefix k }, 0))
  ∧ (∀ (s : State) (slot f v : Nat) (a : Accepted), s.grants slot Op.pfxLookup a → f = leAt a.payload 0 1 → v = leAt a.payload 1 1 →
    f = 6 ∨ (f = 4 ∧ zeroAt a.payload 12 12 = true) → owns (slotInst slot) (s.par P.vrfOwner v) = true →
    ((∀ e ∈ s.srch.pfx, Prefix.hits { e.2 with lost := 0 } 0 f v (beAt a.payload 8 (addrWidth f / 8)) = false) →
      exec (.pfxLookup slot) s = .next (s.keeping (s.answers slot a (leBytes 16 0))))
    ∧ ∀ i p, s.srch.pfx.find? (fun e => { e.2 with lost := 0 }.hits 0 f v (beAt a.payload 8 (addrWidth f / 8))) = some (i, p) →
      exec (.pfxLookup slot) s = .next (s.keeping (s.answers slot a (leBytes 1 1 ++ leBytes 1 p.len ++ leBytes 2 0 ++ leBytes 4 i ++ leBytes 8 p.result))))

/-- A key command refuses in order a key number above 3, an association not enabled, one of another instance, a change while frozen, and one whose keys are to be removed. KEY.INSTALL refuses a key that is installed, a key that does not unwrap under the session key, and a pinned key beyond the slots; else the Vault record is written, valid, with counts and packet numbers at their start, and a first key is current. KEY.REMOVE refuses a key not installed and the current key of a transmit association; else the record is valid no longer, and the key is not current. KEY.MAKE_CURRENT notes the key for a lap, and answers the lap; at order 3 of that lap it is current, unless it was removed meanwhile. KEY.STATUS answers the state of a key in a slot, or what its record reserves. The order of the first checks is the model's. -/
def Obligations.KeysAreInstalledAndRemoved : Prop :=
  (∀ (s : State) (i : Nat) (a : Accepted) (c : Bool), s.keyCheck i a c =
    if 4 ≤ a.keyNum then E.range else if s.parOn P.asEnable a.assoc = false then E.notFound
    else if i ≠ 0 ∧ i ≠ s.par P.asInstance a.assoc then E.notOwner
    else if c = true ∧ s.frozen (s.par P.asInstance a.assoc) = true then E.state
    else if (s.sec.assoc.at a.assoc).removeAt ≠ none then E.busy else 0)
  ∧ (∀ (s : State) (slot n k : Nat) (a : Accepted), s.grants slot Op.keyInstall a → n = a.assoc → k = a.keyNum →
    (s.keyCheck (slotInst slot) a true ≠ 0 → exec (.keyInstall slot) s = .next (s.keeping (s.refuse slot a (s.keyCheck (slotInst slot) a true))))
    ∧ (s.keyCheck (slotInst slot) a true = 0 →
      (s.installed n k = true → exec (.keyInstall slot) s = .next (s.keeping (s.refuse slot a E.inUse)))
      ∧ (s.installed n k = false →
        (Crypto.kwUnwrap (s.sess a.session).key (slice a.payload 8 40) = none → exec (.keyInstall slot) s = .next (s.keeping (s.refuse slot a E.keyWrap)))
        ∧ ∀ key, Crypto.kwUnwrap (s.sess a.session).key (slice a.payload 8 40) = some key →
          (s.parOn P.asSlotPolicy n = true → 30 < s.pinnedKeys s.cfg.active + 1 + s.cfg.active.mostHolds s.lapNs →
            exec (.keyInstall slot) s = .next (s.keeping (s.refuse slot a E.range)))
          ∧ (s.parOn P.asSlotPolicy n = false ∨ s.pinnedKeys s.cfg.active + 1 + s.cfg.active.mostHolds s.lapNs ≤ 30 →
            exec (.keyInstall slot) s = .next (s.keeping ((s.installKey n k key).answers slot a))))))
  ∧ (∀ (s : State) (n k : Nat) (key : List Byte), s.parOn P.asSlotPolicy n = false →
    (s.installKey n k key).sec.vault.at (4 * n + k) = VaultRec.seal { valid := true, mode := s.par P.asMode n, inst := s.par P.asInstance n, wrapped := Crypto.kwWrap s.sec.keys.kek key, useReserved := 0, nextPn := 1, lowestPn := 1, txReserved := 1 } s.sec.keys.smk n k
    ∧ ((s.sec.assoc.at n).current = none → ((s.installKey n k key).sec.assoc.at n).current = some k)
    ∧ ((s.sec.assoc.at n).current ≠ none → ((s.installKey n k key).sec.assoc.at n).current = (s.sec.assoc.at n).current))
  ∧ (∀ (s : State) (slot n k : Nat) (a : Accepted), s.grants slot Op.keyRemove a → n = a.assoc → k = a.keyNum → s.keyCheck (slotInst slot) a true = 0 →
    (s.installed n k = false → exec (.keyRemove slot) s = .next (s.keeping (s.refuse slot a E.notFound)))
    ∧ (s.installed n k = true → s.parOn P.asDir n = true → (s.sec.assoc.at n).current = some k →
      exec (.keyRemove slot) s = .next (s.keeping (s.refuse slot a E.inUse)))
    ∧ (s.installed n k = true → s.parOn P.asDir n = false ∨ (s.sec.assoc.at n).current ≠ some k →
      exec (.keyRemove slot) s = .next (s.keeping ((s.removeKey n k).answers slot a))))
  ∧ (∀ (s : State) (slot : Nat) (a : Accepted), s.grants slot Op.keyRemove a → s.keyCheck (slotInst slot) a true ≠ 0 →
    exec (.keyRemove slot) s = .next (s.keeping (s.refuse slot a (s.keyCheck (slotInst slot) a true))))
  ∧ (∀ (s : State) (n k : Nat), ((s.removeKey n k).sec.vault.at (4 * n + k)).valid = false ∧ ((s.removeKey n k).sec.assoc.at n).current ≠ some k
    ∧ ((s.sec.assoc.at n).current ≠ some k → ((s.removeKey n k).sec.assoc.at n).current = (s.sec.assoc.at n).current))
  ∧ (∀ (s : State) (slot n k lap : Nat) (a : Accepted), s.grants slot Op.keyMakeCurrent a → n = a.assoc → k = a.keyNum →
    (s.atLap (leAt a.payload 3 1) (leAt a.payload 4 4) = none → exec (.keyMakeCurrent slot) s = .next (s.keeping (s.refuse slot a E.format)))
    ∧ (s.atLap (leAt a.payload 3 1) (leAt a.payload 4 4) = some lap → s.keyCheck (slotInst slot) a true = 0 →
      (s.installed n k = false → exec (.keyMakeCurrent slot) s = .next (s.keeping (s.refuse slot a E.notFound)))
      ∧ (s.installed n k = true → exec (.keyMakeCurrent slot) s =
        .next (s.keeping ((s.updAssoc n (fun x => { x with change := some (k, lap) })).answers slot a (leBytes 4 lap))))))
  ∧ (∀ (s : State) (slot lap : Nat) (a : Accepted), s.grants slot Op.keyMakeCurrent a → s.atLap (leAt a.payload 3 1) (leAt a.payload 4 4) = some lap →
    s.keyCheck (slotInst slot) a true ≠ 0 → exec (.keyMakeCurrent slot) s = .next (s.keeping (s.refuse slot a (s.keyCheck (slotInst slot) a true))))
  ∧ (∀ s : State, s.keyChanges = s.forEach s.sec.assoc.keys (fun s n => s.keyChange n))
  ∧ (∀ (s : State) (n k lap : Nat), (s.sec.assoc.at n).change = some (k, lap) →
    (later 32 lap s.lap = true → s.keyChange n = s)
    ∧ (later 32 lap s.lap = false → s.installed n k = true → s.keyChange n = s.makeCurrent n k)
    ∧ (later 32 lap s.lap = false → s.installed n k = false → s.keyChange n = s.updAssoc n (fun x => { x with change := none })))
  ∧ (∀ (s : State) (n k : Nat), ((s.makeCurrent n k).sec.assoc.at n).current = some k ∧ ((s.makeCurrent n k).sec.assoc.at n).change = none)
  ∧ (∀ (s : State) (slot : Nat) (a : Accepted), s.grants slot Op.keyStatus a →
    (s.keyCheck (slotInst slot) a false ≠ 0 → exec (.keyStatus slot) s = .next (s.keeping (s.refuse slot a (s.keyCheck (slotInst slot) a false))))
    ∧ (s.keyCheck (slotInst slot) a false = 0 → exec (.keyStatus slot) s = .next (s.keeping (s.answers slot a (s.keyReport a.assoc a.keyNum)))))
  ∧ (∀ (s : State) (n k t : Nat) (v : VaultRec) (q : KeySlot), v = s.sec.vault.at (4 * n + k) → s.slotOf n k = some t → q = s.sec.slot.at t →
    s.keyReport n k = leBytes 1 (b2n v.valid) ++ leBytes 1 (b2n ((s.sec.assoc.at n).current == some k)) ++ leBytes 1 t ++ leBytes 1 q.policy
      ++ leBytes 4 q.useCount.toNat ++ leBytes 8 q.nextPn.toNat ++ leBytes 8 q.lowestPn.toNat ++ leBytes 8 q.txPn.toNat)
  ∧ (∀ (s : State) (n k : Nat) (v : VaultRec), v = s.sec.vault.at (4 * n + k) → s.slotOf n k = none →
    s.keyReport n k = leBytes 1 (b2n v.valid) ++ leBytes 1 (b2n ((s.sec.assoc.at n).current == some k)) ++ leBytes 1 255 ++ leBytes 1 0
      ++ leBytes 4 v.useReserved.toNat ++ leBytes 8 v.nextPn.toNat ++ leBytes 8 v.lowestPn.toNat ++ leBytes 8 v.txReserved.toNat)
/-- INST.STATUS answers generation, state and shared cells. INST.RESET takes the next clear generation, answers it and ends the instance's sessions, jobs and slots; where no generation is clear it is BUSY. A generation stays in use until the sixth of its markers has returned, and a marker returns once its engine has no work of that generation. INST.DELETE begins a job of 4 steps. FREEZE and RESUME note a lap and answer it; at its boundary the instance is frozen, with its image taken, or runs again. INST.SAVE begins the job that answers a segment of the image, INST.RESTORE takes a segment in its order and begins a job, whose second step verifies and applies the whole. -/
def Obligations.InstancesAreResetFrozenAndSaved : Prop :=
  (∀ (s : State) (slot i : Nat) (a : Accepted) (x : Inst), i = leAt a.payload 0 1 → x = s.inst.at i →
    (s.grants slot Op.instStatus a → 64 ≤ i → exec (.instStatus slot) s = .next (s.keeping (s.refuse slot a E.range)))
    ∧ (s.grants slot Op.instStatus a → i < 64 → owns (slotInst slot) i = true → exec (.instStatus slot) s = .next (s.keeping (s.answers slot a
      (leBytes 1 x.gen.toNat ++ leBytes 1 x.st ++ leBytes 2 0 ++ leBytes 4 (s.buf.instCells.at i - s.par P.instCells i)))))
    ∧ (s.grants slot Op.instReset a → i < 64 → owns (slotInst slot) i = true →
      (x.st ≠ 0 → exec (.instReset slot) s = .next (s.keeping (s.refuse slot a E.state)))
      ∧ (x.st = 0 → nextGen x.gen.toNat x.inUse = none → exec (.instReset slot) s = .next (s.keeping (s.refuse slot a E.busy)))
      ∧ ∀ g, x.st = 0 → nextGen x.gen.toNat x.inUse = some g →
        ((s.tags a { rstate := 0, status := 0, result := leBytes 1 g } && !s.cmacFree) = false →
          exec (.instReset slot) s = .next (s.keeping (((s.answers slot a (leBytes 1 g)).takeGen i g).endWork i)))
        ∧ ((s.tags a { rstate := 0, status := 0, result := leBytes 1 g } && !s.cmacFree) = true → a.silent = false → a.buf = none →
          exec (.instReset slot) s = .next (s.keeping (s.askTag slot 1 (.response a { rstate := 0, status := 0, result := leBytes 1 g } (.resetInst i g))))))
    ∧ (s.grants slot Op.instDelete a →
      (i < 1 ∨ 64 ≤ i → exec (.instDelete slot) s = .next (s.keeping (s.refuse slot a E.range)))
      ∧ (1 ≤ i → i < 64 → x.st = 2 → exec (.instDelete slot) s = .next (s.keeping (s.refuse slot a E.state)))
      ∧ (1 ≤ i → i < 64 → x.st ≠ 2 → s.instBusy i = true → exec (.instDelete slot) s = .next (s.keeping (s.refuse slot a E.busy)))
      ∧ ∀ g, 1 ≤ i → i < 64 → x.st ≠ 2 → s.instBusy i = false → nextGen x.gen.toNat x.inUse = some g → s.running.length < 32 →
        exec (.instDelete slot) s = .next (s.keeping (s.begins slot a (.instDelete i 0 []) 4))))
  ∧ (∀ (s : State) (j : Job) (i g : Nat) (l : List Nat), j.kind = .instDelete i 0 l → j.abort = false → nextGen (s.inst.at i).gen.toNat (s.inst.at i).inUse = some g →
    s.jobStep j = (s.resetInst i g).stepJob j.session j.seq (fun j => { j with kind := .instDelete i 1 [] }))
  ∧ (∀ (s : State) (j : Job) (i : Nat) (l : List Nat), j.abort = false →
    (j.kind = .instDelete i 1 l →
      (s.moving = true → s.jobStep j = s) ∧ (s.moving = false → s.jobStep j = (s.dropTables i).stepJob j.session j.seq (fun j => { j with kind := .instDelete i 2 [] })))
    ∧ (j.kind = .instDelete i 2 l →
      s.jobStep j = (s.drainObjs i).stepJob j.session j.seq (fun j => { j with kind := .instDelete i 3 ((s.drainObjs i).draining i) }))
    ∧ (j.kind = .instDelete i 3 l →
      (s.draining i ≠ [] → s.jobStep j = s)
      ∧ (s.draining i = [] → s.jobStep j = (s.updInst i (fun x => { x with st := 2, freezeAt := none, resumeAt := none, saved := [] })).endJob j.session j.seq 0 0)))
  ∧ (∀ s : State, s.freezes = s.forEach s.inst.keys (fun s i => s.freezeOne i))
  ∧ (∀ (s u : State) (i lap : Nat) (x : Inst), x = s.inst.at i → u = s.updInst i (fun x => { x with st := 1, freezeAt := none }) →
    (x.st = 0 → x.freezeAt = some lap → later 32 lap s.lap = false → x.resumeAt = none → s.freezeOne i = u.updInst i (fun x => { x with saved := u.instImage i }))
    ∧ (x.st = 1 → x.resumeAt = some lap → later 32 lap s.lap = false → x.freezeAt = none →
      s.freezeOne i = s.updInst i (fun x => { x with st := 0, resumeAt := none, saved := [] }))
    ∧ ((∀ l, x.freezeAt = some l ∨ x.resumeAt = some l → later 32 l s.lap = true) → s.freezeOne i = s))
  ∧ (∀ (s : State) (slot i lap : Nat) (a : Accepted), i = leAt a.payload 0 1 → s.atLap (leAt a.payload 1 1) (leAt a.payload 4 4) = some lap → i < 64 →
    (s.grants slot Op.instFreeze a →
      ((s.inst.at i).st = 2 → exec (.instFreeze slot) s = .next (s.keeping (s.refuse slot a E.state)))
      ∧ ((s.inst.at i).st ≠ 2 → exec (.instFreeze slot) s =
        .next (s.keeping ((s.updInst i (fun x => { x with freezeAt := some lap })).answers slot a (leBytes 4 lap)))))
    ∧ (s.grants slot Op.instResume a →
      ((s.inst.at i).st ≠ 1 → exec (.instResume slot) s = .next (s.keeping (s.refuse slot a E.state)))
      ∧ ((s.inst.at i).st = 1 → exec (.instResume slot) s =
        .next (s.keeping ((s.updInst i (fun x => { x with resumeAt := some lap })).answers slot a (leBytes 4 lap))))))
  ∧ (∀ (s : State) (i g e : Nat) (x : Inst) (m : List (Nat × Nat)), x = s.inst.at i → m = x.markers.filter (fun k => k != (g, e)) →
    ((g, e) ∈ x.markers → s.engineWork i g e = false →
      ((∃ k ∈ m, k.1 = g) → exec (.retireMarkerReturn i g e) s = .next (s.updInst i (fun y => { y with markers := m })))
      ∧ ((∀ k ∈ m, k.1 ≠ g) → bit x.used g = true → exec (.retireMarkerReturn i g e) s = .next (s.updInst i (fun y => { y with markers := m, used := y.used - 2 ^ g }))))
    ∧ ((g, e) ∉ x.markers ∨ s.engineWork i g e = true → exec (.retireMarkerReturn i g e) s = .next s))
  ∧ (∀ (s : State) (i g : Nat), ((s.takeGen i g).inst.at i).gen = BitVec.ofNat 8 g
    ∧ ((s.takeGen i g).inst.at i).markers = (s.inst.at i).markers ++ (List.range 6).map (fun e => ((s.inst.at i).gen.toNat, e))
    ∧ ((s.takeGen i g).inst.at i).flush = some (s.inst.at i).gen.toNat)
  ∧ (∀ (s : State) (slot i seg : Nat) (a : Accepted), s.grants slot Op.instSave a → i = leAt a.payload 0 1 → seg = leAt a.payload 2 2 → i < 64 →
    ((s.inst.at i).st ≠ 1 → exec (.instSave slot) s = .next (s.keeping (s.refuse slot a E.state)))
    ∧ ((s.inst.at i).st = 1 → segments (s.inst.at i).saved ≤ seg → exec (.instSave slot) s = .next (s.keeping (s.refuse slot a E.range)))
    ∧ ((s.inst.at i).st = 1 → seg < segments (s.inst.at i).saved → s.instBusy i = false → s.running.length < 32 →
      exec (.instSave slot) s = .next (s.keeping (s.begins slot a (.instSave i seg) 1))))
  ∧ (∀ (s : State) (j : Job) (i seg : Nat) (l part : List Byte), j.kind = .instSave i seg → j.abort = false → (s.inst.at i).st = 1 → l = (s.inst.at i).saved →
    part = (l.drop (65536 * seg)).take 65536 →
    s.jobStep j = s.endJob j.session j.seq 0 0 (leBytes 2 (segments l) ++ leBytes 2 0 ++ leBytes 4 part.length) part)
  ∧ (∀ (s : State) (slot i seg total : Nat) (a : Accepted) (ok : Bool), s.grants slot Op.instRestore a → i = leAt a.payload 0 1 → seg = leAt a.payload 2 2 →
    total = leAt a.payload 4 2 → i < 64 →
    ((s.inst.at i).st ≠ 1 → exec (.instRestore slot ok) s = .next (s.keeping (s.refuse slot a E.state)))
    ∧ ((s.inst.at i).st = 1 → s.instBusy i = false →
      (∀ st, s.takeSegment i seg total (a.payload.drop 6) = .error st → exec (.instRestore slot ok) s = .next (s.keeping (s.refuse slot a st)))
      ∧ ∀ u, s.takeSegment i seg total (a.payload.drop 6) = .ok u → s.running.length < 32 →
        exec (.instRestore slot ok) s = .next (s.keeping (u.begins slot a (.instRestore i ok) (if seg + 1 = total then 2 else 1)))))
  ∧ (∀ (s : State) (t seg total : Nat) (l : List Byte),
    (total = 0 ∨ total ≤ seg ∨ 65536 < l.length → s.takeSegment t seg total l = .error E.range)
    ∧ (0 < total → l.length ≤ 65536 → s.takeSegment t 0 total l =
      .ok (s.putTransfer t { next := 1, total := total, bytes := l, deadline := 60000000000 + s.time.mono, open_ := true }))
    ∧ (0 < seg → seg < total → l.length ≤ 65536 →
      ((s.mbx.transfer.at t).open_ = true → (s.mbx.transfer.at t).next = seg → (s.mbx.transfer.at t).total = total →
        s.takeSegment t seg total l = .ok (s.putTransfer t { s.mbx.transfer.at t with next := seg + 1, bytes := (s.mbx.transfer.at t).bytes ++ l, deadline := 60000000000 + s.time.mono }))
      ∧ ((s.mbx.transfer.at t).open_ = false ∨ (s.mbx.transfer.at t).next ≠ seg → s.takeSegment t seg total l = .error E.state)))
  ∧ (∀ (s u : State) (j : Job) (i st : Nat) (ok : Bool), j.kind = .instRestore i ok → j.abort = false → j.total = 2 →
    (j.done = 0 → s.jobStep j = s.stepJob j.session j.seq id)
    ∧ (j.done ≠ 0 → s.moving = true → s.jobStep j = s)
    ∧ (j.done ≠ 0 → s.moving = false → s.restoreAll i ok (s.mbx.transfer.at i).bytes = (u, st) → s.jobStep j = (u.endTransfer i).endJob j.session j.seq 0 st))
  ∧ (∀ (s : State) (i : Nat) (l : List Byte), s.restoreAll i false l = (s, E.signature) ∧ (savedImage l = none → s.restoreAll i true l = (s, E.imageFormat)))

/-- FAULT.LIST answers the sources in fault and those not acknowledged. FAULT.STATUS, FAULT.ACK and their source: out of range, or of another instance, it is refused; STATUS answers severity, rungs, flags, counts and times; ACK is refused of a source not in fault, and else marks its record and changes nothing else. FAULT.POLICY_SET refuses values out of range, rung 2 of a source that does not climb among them, and else notes severity and rung, in flash too. LOG.READ answers records of a source from a SEQ on, in order, as many as fit, to an instance its own only. -/
def Obligations.FaultAndLogCommands : Prop :=
  (∀ (s : State) (slot : Nat) (a : Accepted), s.grants slot Op.faultList a → ∃ l, exec (.faultList slot) s = .next (s.keeping (s.answers slot a
    (leBytes 48 (maskOf s.faulty) ++ leBytes 48 (maskOf l)))) ∧ ∀ k, k ∈ l ↔ k < 384 ∧ ∃ r, (s.fsrc k).record = some r ∧ r.acked = false)
  ∧ (∀ (s : State) (i k : Nat), s.sourceCheck i k = if 384 ≤ k then E.range else if s.attributed i k = true then 0 else E.notOwner)
  ∧ (∀ (s : State) (slot k : Nat) (a : Accepted), k = leAt a.payload 0 2 →
    (s.sourceCheck (slotInst slot) k ≠ 0 →
      (s.grants slot Op.faultStatus a → exec (.faultStatus slot) s = .next (s.keeping (s.refuse slot a (s.sourceCheck (slotInst slot) k))))
      ∧ (s.grants slot Op.faultAck a → exec (.faultAck slot) s = .next (s.keeping (s.refuse slot a (s.sourceCheck (slotInst slot) k)))))
    ∧ (s.sourceCheck (slotInst slot) k = 0 →
      (s.grants slot Op.faultStatus a → exec (.faultStatus slot) s = .next (s.keeping (s.answers slot a (s.faultReport k))))
      ∧ (s.grants slot Op.faultAck a → s.inFault k = false → exec (.faultAck slot) s = .next (s.keeping (s.refuse slot a E.state)))
      ∧ (s.grants slot Op.faultAck a → s.inFault k = true → exec (.faultAck slot) s = .next (s.keeping
        ((s.updSrc k (fun f => { f with record := f.record.map (fun r => { r with acked := true }) })).answers slot a)))))
  ∧ (∀ (s : State) (slot k sev rung : Nat) (a : Accepted), s.grants slot Op.faultPolicySet a → k = leAt a.payload 0 2 → sev = leAt a.payload 2 1 → rung = leAt a.payload 3 1 →
    (384 ≤ k ∨ 4 < sev ∨ rung < 1 ∨ 4 < rung ∨ (rung = 2 ∧ (sourceInfo k).climbs = false) →
      exec (.faultPolicySet slot) s = .next (s.keeping (s.refuse slot a E.range)))
    ∧ (k < 384 → sev ≤ 4 → 1 ≤ rung → rung ≤ 4 → rung ≠ 2 ∨ (sourceInfo k).climbs = true → ∃ (u : State) (b : Boot),
      exec (.faultPolicySet slot) s = .next (s.keeping (State.answers { u with boot := b } slot a)) ∧ u = s.updSrc k (fun f =>
        { f with policy := some (sev, rung), rung := if s.inFault k then some (s.rung k) else f.rung })
      ∧ b = s.boot.writePersist s.sec.keys.boot (fun p => { p with policy := p.policy.put k (some (sev, rung)) })))
  ∧ (∀ (b : Boot) (key : List Byte) (f : Persist → Persist) (r : Persist),
    r = Persist.seal { f (b.persist key) with valid := true, writeSeq := ((b.persist key).writeSeq + 1) % 2 ^ 32 } key →
    (b.persistOne key = true → b.writePersist key f = { b with per0 := r }) ∧ (b.persistOne key = false → b.writePersist key f = { b with per1 := r }))
  ∧ (∀ (s : State) (k : Nat) (f : FaultSrc) (r : FaultRec), f = s.fsrc k → r = (f.record.or f.closed).getD { severity := s.severity k, count := 0 } →
    s.faultReport k = leBytes 1 r.severity ++ leBytes 1 (s.rung k) ++ leBytes 1 (s.entryRung k) ++ leBytes 1 (b2n (s.inFault k) + 2 * b2n r.acked)
      ++ leBytes 2 r.count ++ leBytes 2 f.recoveries.toNat ++ leBytes 4 r.first ++ leBytes 4 r.last)
  ∧ (∀ (s : State) (slot src n f : Nat) (a : Accepted), s.grants slot Op.logRead a → src = leAt a.payload 0 1 → f = leAt a.payload 4 4 → n = leAt a.payload 8 4 →
    (2 ≤ src ∨ n < 1024 ∨ 65536 < n → exec (.logRead slot) s = .next (s.keeping (s.refuse slot a E.range)))
    ∧ (src < 2 → 1024 ≤ n → n ≤ 65536 → ∃ (l rest : List Rec), exec (.logRead slot) s = .next (s.keeping (s.post slot a
        { rstate := 0, status := 0, atOut := l.flatMap Rec.bytes
          result := leBytes 4 ((l.head?.map (·.seq)).getD f) ++ leBytes 4 ((l.getLast?.map (·.seq)).getD ((f + 2 ^ 32 - 1) % 2 ^ 32))
            ++ leBytes 4 (((s.recd.source src).head?.map (·.seq)).getD 0) ++ leBytes 4 (recBytes l) }))
      ∧ (s.recd.source src).filter (fun r => !later 32 f r.seq && (decide (slotInst slot = 0) || r.ev.inst == slotInst slot)) = l ++ rest
      ∧ (l.map Rec.len).sum ≤ n ∧ ∀ r, rest.head? = some r → n < (l.map Rec.len).sum + r.len))
/-- CTR.SELECT refuses a counter, event or mode out of range and a counter of another instance; else the counter counts that event in that mode from 0. CTR.READ answers the values of a range of counters with their sticky bits, CTR.CLEAR sets them to 0 and keeps what they count. CTR.SPLITS_READ answers the sixteen bins of a queue's histogram, and starts it anew where CLEAR asks. CTR.STAT_READ answers a statistic. A counter wraps at 48 bits, and then is sticky. What another instance owns is refused. -/
def Obligations.CountersAreSelectedAndRead : Prop :=
  (∀ (s : State) (slot g ev m : Nat) (a : Accepted), s.grants slot Op.ctrSelect a → g = leAt a.payload 0 2 → ev = leAt a.payload 2 2 → m = leAt a.payload 4 1 →
    (2048 ≤ g ∨ eventOk ev = false ∨ 1 < m → exec (.ctrSelect slot) s = .next (s.keeping (s.refuse slot a E.range)))
    ∧ (g < 2048 → eventOk ev = true → m ≤ 1 →
      (owns (slotInst slot) (s.ctrOwner g) = false → exec (.ctrSelect slot) s = .next (s.keeping (s.refuse slot a E.notOwner)))
      ∧ (owns (slotInst slot) (s.ctrOwner g) = true → exec (.ctrSelect slot) s = .next (s.keeping ((s.updCtr g (fun _ =>
        { event := ev, level := m == 1, was := if ev < 0x8001 then [] else (s.countedUnits g ev).filter (s.conditionHolds ev) })).answers slot a)))))
  ∧ (∀ (s : State) (i f n : Nat), s.ctrCheck i f n = 0 ↔ 1 ≤ n ∧ n ≤ 256 ∧ f + n ≤ 2048 ∧ ∀ k, k < n → owns i (s.ctrOwner (f + k)) = true)
  ∧ (∀ (s : State) (slot f n : Nat) (a : Accepted), f = leAt a.payload 0 2 → n = leAt a.payload 2 2 →
    (s.ctrCheck (slotInst slot) f n ≠ 0 →
      (s.grants slot Op.ctrRead a → exec (.ctrRead slot) s = .next (s.keeping (s.refuse slot a (s.ctrCheck (slotInst slot) f n))))
      ∧ (s.grants slot Op.ctrClear a → exec (.ctrClear slot) s = .next (s.keeping (s.refuse slot a (s.ctrCheck (slotInst slot) f n)))))
    ∧ (s.ctrCheck (slotInst slot) f n = 0 →
      (s.grants slot Op.ctrRead a → exec (.ctrRead slot) s = .next (s.keeping (s.answers slot a
        ((List.range n).flatMap (fun k => leBytes 8 ((s.ctr.ctr.at (f + k)).value.toNat + 2 ^ 48 * b2n (s.ctr.ctr.at (f + k)).sticky))))))
      ∧ (s.grants slot Op.ctrClear a → ∃ u : State, exec (.ctrClear slot) s = .next (s.keeping (u.answers slot a)) ∧ u = { s with ctr := { s.ctr with ctr := u.ctr.ctr } }
        ∧ (∀ k, k < n → u.ctr.ctr.at (f + k) = { s.ctr.ctr.at (f + k) with value := 0, sticky := false })
        ∧ ∀ g, g < f ∨ f + n ≤ g → u.ctr.ctr.at g = s.ctr.ctr.at g)))
  ∧ (∀ (s : State) (slot q k c : Nat) (a : Accepted), s.grants slot Op.ctrSplitsRead a → q = leAt a.payload 0 2 → k = leAt a.payload 2 1 → c = leAt a.payload 3 1 →
    (8192 ≤ q ∨ 1 < k ∨ 1 < c → exec (.ctrSplitsRead slot) s = .next (s.keeping (s.refuse slot a E.range)))
    ∧ (q < 8192 → k ≤ 1 → c ≤ 1 → owns (slotInst slot) (s.portInst (q / 16)) = false → exec (.ctrSplitsRead slot) s = .next (s.keeping (s.refuse slot a E.notOwner)))
    ∧ (q < 8192 → k ≤ 1 → owns (slotInst slot) (s.portInst (q / 16)) = true →
      (c = 0 → exec (.ctrSplitsRead slot) s = .next (s.keeping (s.answers slot a ((s.bins q k).flatMap (leBytes 4)))))
      ∧ (c = 1 → exec (.ctrSplitsRead slot) s = .next (s.keeping ((s.clearBins q k).answers slot a ((s.bins q k).flatMap (leBytes 4)))))))
  ∧ (∀ (s : State) (slot i : Nat) (a : Accepted), s.grants slot Op.ctrStatRead a → i = leAt a.payload 4 4 →
    (Stat.all.find? (fun x => x.id == leAt a.payload 0 2) = none → exec (.ctrStatRead slot) s = .next (s.keeping (s.refuse slot a E.range)))
    ∧ (∀ x n, Stat.all.find? (fun x => x.id == leAt a.payload 0 2) = some x → x.unit.size = some n → n ≤ i →
      exec (.ctrStatRead slot) s = .next (s.keeping (s.refuse slot a E.range)))
    ∧ ∀ x, Stat.all.find? (fun x => x.id == leAt a.payload 0 2) = some x → (∀ n, x.unit.size = some n → i < n) →
      (owns (slotInst slot) (s.statOwner x.unit i) = false → exec (.ctrStatRead slot) s = .next (s.keeping (s.refuse slot a E.notOwner)))
      ∧ (owns (slotInst slot) (s.statOwner x.unit i) = true → exec (.ctrStatRead slot) s = .next (s.keeping (s.answers slot a (leBytes 8 (s.statVal x i))))))
  ∧ (∀ (c : Ctr) (n : Nat), (c.add n).value.toNat = (c.value.toNat + n) % 2 ^ 48 ∧ ((c.add n).sticky = true ↔ c.sticky = true ∨ 2 ^ 48 ≤ c.value.toNat + n))
/-- IMG.STRIDE_LOAD is BUSY while a load runs or the former bank drains, and else begins a job of 5 steps: a wrong signature ends it at its third, a wrong format at its fourth, and the last writes the standby bank and names its lap. IMG.STRIDE_SWITCH needs a valid standby bank. At the lap the banks change, and the former one drains until its last packet has left. FW_LOAD and APPLET_LOAD take a segment in its order and begin a job, whose second step judges the whole. FW_ACTIVATE writes the other copy of the boot header and raises the floor; with nothing loaded it is refused. APPLET_STOP kills the applet. IMG.STATUS answers what runs; the firmware's own identity is a free value. -/
def Obligations.ImagesAreLoadedAndSwitched : Prop :=
  (∀ (s : State) (slot lap n : Nat) (a : Accepted) (c : Chain) (ok : Bool), s.grants slot Op.imgStrideLoad a → n = leAt a.payload 0 1 →
    (s.atLap n (leAt a.payload 4 4) = none → exec (.imgStrideLoad slot c ok) s = .next (s.keeping (s.refuse slot a E.format)))
    ∧ (s.atLap n (leAt a.payload 4 4) = some lap →
      (s.stride.loading = true ∨ s.stride.draining = true → exec (.imgStrideLoad slot c ok) s = .next (s.keeping (s.refuse slot a E.busy)))
      ∧ (s.stride.loading = false → s.stride.draining = false → s.running.length < 32 → exec (.imgStrideLoad slot c ok) s = .next (s.keeping
        ((State.noteFreerun { s with stride := { s.stride with loading := true } } Op.imgStrideLoad).begins slot a
          (.strideLoad (n == 1 && later 32 (leAt a.payload 4 4) s.lap) (leAt a.payload 4 4) (ok && s.chainStatus c == 0) (a.payload.drop 8)) 5)))))
  ∧ (∀ (s : State) (j : Job) (at_ ok : Bool) (lap : Nat) (l : List Byte), j.kind = .strideLoad at_ lap ok l → j.abort = false →
    (j.done = 0 ∨ (j.done = 1 ∧ s.cmacFree = true ∧ s.digests j = false) ∨ (j.done = 2 ∧ ok = true) ∨ (j.done = 3 ∧ strideImage l ≠ none) →
      s.jobStep j = s.stepJob j.session j.seq id)
    ∧ (j.done = 1 → s.cmacFree = false ∨ s.digests j = true → s.jobStep j =
      if s.digests j = true then s else (s.submitCmac { work := .digest j.session j.seq, level := 4, inst := j.inst, gen := s.instGen j.inst }).1)
    ∧ (j.done = 2 → ok = false → s.jobStep j = s.endLoad j 0 E.signature (leBytes 4 0))
    ∧ (j.done = 3 → strideImage l = none → s.jobStep j = s.endLoad j 0 E.imageFormat (leBytes 4 0))
    ∧ (∀ img, j.done = 4 → strideImage l = some img → s.stride.draining = false → ∃ u n, s.jobStep j = State.endLoad { s with stride := u } j 0 0 (leBytes 4 n)
      ∧ u.standby = img ∧ u.standbyValid = true ∧ u.switchAt = some n ∧ u.cur = s.stride.cur ∧ (if u.cur then u.bank1 else u.bank0) = (if u.cur then s.stride.bank1 else s.stride.bank0)))
  ∧ (∀ (s : State) (slot lap : Nat) (a : Accepted), s.grants slot Op.imgStrideSwitch a → s.atLap (leAt a.payload 0 1) (leAt a.payload 4 4) = some lap →
    (s.stride.standbyValid = false → exec (.imgStrideSwitch slot) s = .next (s.keeping (s.refuse slot a E.state)))
    ∧ (s.stride.standbyValid = true → exec (.imgStrideSwitch slot) s =
      .next (s.keeping (State.answers { s with stride := { s.stride with switchAt := some lap } } slot a (leBytes 4 lap)))))
  ∧ (∀ (s : State) (lap : Nat), s.stride.switchAt = some lap →
    (later 32 lap s.lap = true → s.switchStride = s)
    ∧ (later 32 lap s.lap = false → s.switchStride =
      State.writePointer { s with stride := { s.stride with cur := !s.stride.cur, switchAt := none, standbyValid := false, draining := true } }))
  ∧ (∀ (s u : State) (g : Image), g = (if s.stride.cur then s.stride.bank1 else s.stride.bank0) → u = s.drawn →
    (g.builtin = true → s.writePointer = if s.freeVal 1 = 1 then u.keepPersist (fun p => { p with stridePtr := 2 }) else u)
    ∧ (g.builtin = false →
      ((u.boot.persist u.bootKey).stridePtr = 0 → s.writePointer =
        if s.freeVal 1 = 1 then State.keepPersist { u with boot := { u.boot with strideB := some g } } (fun p => { p with stridePtr := 1 }) else u)
      ∧ ((u.boot.persist u.bootKey).stridePtr ≠ 0 → s.writePointer =
        if s.freeVal 1 = 1 then State.keepPersist { u with boot := { u.boot with strideA := some g } } (fun p => { p with stridePtr := 0 }) else u)))
  ∧ (∀ s : State, s.stride.draining = true →
    (s.bankHolds (!s.stride.cur) = true → exec .strideBankDrained s = .next s)
    ∧ (s.bankHolds (!s.stride.cur) = false → exec .strideBankDrained s = .next { s with stride := { s.stride with draining := false, standbyValid := true } }))
  ∧ (∀ (s u : State) (slot svn seg total : Nat) (a : Accepted) (ok : Bool), s.grants slot Op.imgFwLoad a → seg = leAt a.payload 0 2 → total = leAt a.payload 2 2 →
    ((∃ j ∈ s.running, j.op = Op.imgFwLoad) → exec (.imgFwLoad slot ok svn) s = .next (s.keeping (s.refuse slot a E.busy)))
    ∧ ((∀ j ∈ s.running, j.op ≠ Op.imgFwLoad) → s.takeSegment fwTarget seg total (a.payload.drop 4) = .ok u → s.running.length < 32 →
      exec (.imgFwLoad slot ok svn) s = .next (s.keeping (u.begins slot a (.fwLoad ok svn) (if seg + 1 = total then 2 else 1)))))
  ∧ (∀ (s : State) (j : Job) (svn : Nat) (ok : Bool) (u : State), j.kind = .fwLoad ok svn → j.abort = false → j.total = 2 → j.done = 1 → u = s.endTransfer fwTarget →
    (ok = false → s.jobStep j = u.endJob j.session j.seq 0 E.signature)
    ∧ (ok = true → svn < s.boot.svnFloor ∨ fwSlotBytes < (s.mbx.transfer.at fwTarget).bytes.length → s.jobStep j = u.endJob j.session j.seq 0 E.imageFormat)
    ∧ (ok = true → s.boot.svnFloor ≤ svn → (s.mbx.transfer.at fwTarget).bytes.length ≤ fwSlotBytes →
      s.jobStep j = State.endJob { u with boot := { u.boot with fwLoaded := some (!s.boot.fwSlot, svn) } } j.session j.seq 0 0))
  ∧ (∀ (s : State) (slot : Nat) (a : Accepted), s.grants slot Op.imgFwActivate a →
    (s.boot.fwLoaded = none → exec (.imgFwActivate slot) s = .next (s.keeping (s.refuse slot a E.state)))
    ∧ ∀ b svn, s.boot.fwLoaded = some (b, svn) → exec (.imgFwActivate slot) s = .next (s.keeping (State.answers
      (State.drawn { s with boot := { s.boot.writeHeader s.sec.keys.boot { s.headerBase with slotB := b, svn := svn } with svnFloor := max s.boot.svnFloor svn } } 3) slot a)))
  ∧ (∀ (b : Boot) (key : List Byte) (h r : BootHdr), r = BootHdr.seal { h with valid := true, writeSeq := ((b.header key).writeSeq + 1) % 2 ^ 32 } key →
    (b.headerOne key = true ∨ b.hdr0.good key = false → b.writeHeader key h = { b with hdr0 := r })
    ∧ (b.headerOne key = false → b.hdr0.good key = true → b.writeHeader key h = { b with hdr1 := r }))
  ∧ (∀ s : State, (s.boot.header s.sec.keys.boot).valid = true → s.headerBase = s.boot.header s.sec.keys.boot)
  ∧ (∀ (s : State) (slot core t : Nat) (a : Accepted), core = leAt a.payload 0 1 → t = leAt a.payload 1 1 → appletOk core t = true →
    (s.grants slot Op.imgAppletStop a → exec (.imgAppletStop slot) s = .next (s.keeping ((s.killThread (8 * core + t)).answers slot a)))
    ∧ ∀ (u : State) (seg total : Nat) (c : Chain) (ok : Bool), s.grants slot Op.imgAppletLoad a → seg = leAt a.payload 2 2 → total = leAt a.payload 4 2 →
      (bit (s.par P.appletEnable core) (t - 6) = false → exec (.imgAppletLoad slot c ok) s = .next (s.keeping (s.refuse slot a E.state)))
      ∧ (bit (s.par P.appletEnable core) (t - 6) = true →
        (∀ j ∈ s.running, ∀ b, j.kind ≠ .appletLoad core t b) → s.takeSegment (appletTarget core t) seg total (a.payload.drop 6) = .ok u → s.running.length < 32 → seg + 1 ≠ total →
        exec (.imgAppletLoad slot c ok) s = .next (s.keeping (u.begins slot a (.appletLoad core t (ok && u.chainStatus c == 0)) 1)))
      ∧ (bit (s.par P.appletEnable core) (t - 6) = true →
        (∀ j ∈ s.running, ∀ b, j.kind ≠ .appletLoad core t b) → s.takeSegment (appletTarget core t) seg total (a.payload.drop 6) = .ok u → s.running.length < 32 → seg + 1 = total →
        exec (.imgAppletLoad slot c ok) s = .next (s.keeping ((u.noteFreerun Op.imgAppletLoad).begins slot a (.appletLoad core t (ok && u.chainStatus c == 0)) 2))))
  ∧ (∀ (s u : State) (j : Job) (core t : Nat) (ok : Bool), j.kind = .appletLoad core t ok → j.abort = false → j.total = 2 → j.done = 1 → u = s.endTransfer (appletTarget core t) →
    (ok = false → s.jobStep j = u.endJob j.session j.seq 0 E.signature)
    ∧ (ok = true → bit (s.par P.appletEnable core) (t - 6) = false → s.jobStep j = u.endJob j.session j.seq 0 E.state)
    ∧ (ok = true → bit (s.par P.appletEnable core) (t - 6) = true → ∃ v : State, s.jobStep j = v.endJob j.session j.seq 0 0
      ∧ v.thread (8 * core + t) = { st := 1, applet := true, appletId := s.freeVal 16 }
      ∧ v = State.updThread { u.drawn.killThread (8 * core + t) with pacer := { (u.drawn.killThread (8 * core + t)).pacer with ranInLap := true } }
        (8 * core + t) (fun _ => { st := 1, applet := true, appletId := s.freeVal 16 })))
  ∧ (∀ (s : State) (slot : Nat) (a : Accepted), s.grants slot Op.imgStatus a → exec (.imgStatus slot) s = .next (s.keeping (s.drawn.answers slot a
      (leBytes 3 (s.freeVal 24) ++ leBytes 1 (b2n ((s.boot.header s.sec.keys.boot).valid && (s.boot.header s.sec.keys.boot).slotB != s.boot.fwSlot))
        ++ leBytes 4 s.ucodeVersion ++ leBytes 4 s.ucodeDigest
        ++ [6, 7, 14, 15, 22, 23, 30, 31].flatMap (fun t => leBytes 2 (if (s.thread t).applet then (s.thread t).appletId else 0))))))
/-- DIAG.DEBUG_UNLOCK refuses scopes and durations out of range, and else opens a token of the session until its time, with an entry; DEBUG_END ends the tokens of the session. THREAD_CTL and STRIDE_TRACE are refused without their bit of a token. THREAD_CTL halts, steps, resumes or kills a thread that is not ABSENT, and answers its state; where its program stands is a free value. STRIDE_TRACE arms an engine and answers the capture once it is there, or zeros after two laps; it also halts and releases the admission of an engine. LOOPBACK sets the mode of a port, and takes one that is UP out of service. DIAG.RESET answers, and then begins a warm reset, unless one or a boot is in progress, or initialises a function. -/
def Obligations.DiagnosticsNeedTheirToken : Prop :=
  (∀ (s : State) (slot sc d : Nat) (a : Accepted), s.grants slot Op.diagDebugUnlock a → sc = leAt a.payload 0 1 → d = leAt a.payload 4 4 →
    (8 ≤ sc ∨ d < 1 ∨ 86400 < d → exec (.diagDebugUnlock slot) s = .next (s.keeping (s.refuse slot a E.range)))
    ∧ (sc < 8 → 1 ≤ d → d ≤ 86400 → ∃ (u : State) (t : DebugToken), exec (.diagDebugUnlock slot) s = .next (s.keeping ((u.ruleEvent 412 a.session 0 [sc, d]).answers slot a))
      ∧ t = { session := a.session, scope := sc, endAt := s.time.mono + 1000000000 * d } ∧ u = { s with mbx := { s.mbx with tokens := s.mbx.tokens ++ [t] } }))
  ∧ (∀ (s : State) (slot : Nat) (a : Accepted), s.grants slot Op.diagDebugEnd a → exec (.diagDebugEnd slot) s = .next (s.keeping ((s.endToken a.session).answers slot a)))
  ∧ (∀ (s : State) (slot : Nat) (a : Accepted),
    (s.grants slot Op.diagThreadCtl a → s.hasToken a.session 0 = false → exec (.diagThreadCtl slot) s = .next (s.keeping (s.refuse slot a E.noDebug)))
    ∧ (s.grants slot Op.diagStrideTrace a → s.hasToken a.session 1 = false → exec (.diagStrideTrace slot) s = .next (s.keeping (s.refuse slot a E.noDebug))))
  ∧ (∀ (s : State) (slot core th op t : Nat) (a : Accepted), s.grants slot Op.diagThreadCtl a → s.hasToken a.session 0 = true → core = leAt a.payload 0 1 → th = leAt a.payload 1 1 →
    op = leAt a.payload 2 1 → core < 4 → th < 8 → op < 4 → t = 8 * core + th →
    ((s.thread t).st = 0 ∨ (op = 1 ∧ (s.thread t).st ≠ 3) → exec (.diagThreadCtl slot) s = .next (s.keeping (s.refuse slot a E.state)))
    ∧ (op = 0 → (s.thread t).st = 3 → exec (.diagThreadCtl slot) s = .next (s.keeping (s.answers slot a (leBytes 1 3 ++ leBytes 3 0 ++ leBytes 4 (s.thread t).pc))))
    ∧ (op = 1 → (s.thread t).st = 3 → exec (.diagThreadCtl slot) s = .next (s.keeping
      ((s.drawn.updThread t (fun h => { h with pc := s.freeVal 32 })).answers slot a (leBytes 1 3 ++ leBytes 3 0 ++ leBytes 4 (s.freeVal 32)))))
    ∧ (op = 3 → (s.thread t).st ≠ 0 → exec (.diagThreadCtl slot) s = .next (s.keeping
      (((s.killThread t).threadReport t).1.answers slot a ((s.killThread t).threadReport t).2)))
    ∧ (op = 0 → (s.thread t).st = 1 ∨ (s.thread t).st = 2 → exec (.diagThreadCtl slot) s = .next (s.keeping
      ((s.drawn.updThread t (fun h => { h with st := 3, before := h.st, pc := s.freeVal 32 })).answers slot a (leBytes 1 3 ++ leBytes 3 0 ++ leBytes 4 (s.freeVal 32)))))
    ∧ (op = 2 → (s.thread t).st = 3 → (s.thread t).before = 2 → exec (.diagThreadCtl slot) s = .next (s.keeping
      ((s.updThread t (fun h => { h with st := 2 })).drawn.answers slot a (leBytes 1 2 ++ leBytes 3 0 ++ leBytes 4 (s.freeVal 32)))))
    ∧ (op = 2 → (s.thread t).st = 3 → (s.thread t).before = 1 → ∃ u : State, exec (.diagThreadCtl slot) s = .next (s.keeping
        (u.drawn.answers slot a (leBytes 1 1 ++ leBytes 3 0 ++ leBytes 4 (s.freeVal 32))))
      ∧ u = { s with pacer := { (s.updThread t (fun h => { h with st := 1 })).pacer with ranInLap := true } })
    ∧ (op = 2 → (s.thread t).st = 1 ∨ (s.thread t).st = 2 → exec (.diagThreadCtl slot) s = .next (s.keeping
      (s.drawn.answers slot a (leBytes 1 (s.thread t).st ++ leBytes 3 0 ++ leBytes 4 (s.freeVal 32))))))
  ∧ (∀ (s : State) (slot : Nat) (a : Accepted),
    (s.grants slot Op.diagThreadCtl a → s.hasToken a.session 0 = true → 4 ≤ leAt a.payload 0 1 ∨ 8 ≤ leAt a.payload 1 1 ∨ 4 ≤ leAt a.payload 2 1 →
      exec (.diagThreadCtl slot) s = .next (s.keeping (s.refuse slot a E.range)))
    ∧ (s.grants slot Op.diagStrideTrace a → s.hasToken a.session 1 = true → 16 ≤ leAt a.payload 0 1 ∨ 2 ≤ leAt a.payload 1 1 ∨ 3 ≤ leAt a.payload 2 1 →
      exec (.diagStrideTrace slot) s = .next (s.keeping (s.refuse slot a E.range))))
  ∧ (∀ (s : State) (slot e p g op : Nat) (a : Accepted), s.grants slot Op.diagStrideTrace a → s.hasToken a.session 1 = true → p = leAt a.payload 0 1 → g = leAt a.payload 1 1 →
    op = leAt a.payload 2 1 → p < 16 → g < 2 → e = 2 * p + g →
    (op = 1 → exec (.diagStrideTrace slot) s = .next (s.keeping ((s.haltEngine e true).answers slot a (traceBytes (0, 0, 0, 0)))))
    ∧ (op = 2 → exec (.diagStrideTrace slot) s = .next (s.keeping ((s.haltEngine e false).answers slot a (traceBytes (0, 0, 0, 0)))))
    ∧ (op = 0 → s.stride.captured.at e = none → s.stride.trace.at e = false → exec (.diagStrideTrace slot) s = .next (s.armTrace e true))
    ∧ (∀ c, op = 0 → s.stride.captured.at e = some c → exec (.diagStrideTrace slot) s = .next (s.keeping ((s.armTrace e false).answers slot a (traceBytes c))))
    ∧ (op = 0 → s.stride.captured.at e = none → s.stride.trace.at e = true →
      (s.time.mono < a.at_ + 2 * s.lapNs → exec (.diagStrideTrace slot) s = .next s)
      ∧ (a.at_ + 2 * s.lapNs ≤ s.time.mono → exec (.diagStrideTrace slot) s = .next (s.keeping ((s.armTrace e false).answers slot a (traceBytes (0, 0, 0, 0)))))))
  ∧ (∀ (s : State) (slot p m : Nat) (a : Accepted) (u : State), s.grants slot Op.diagLoopback a → p = leAt a.payload 0 2 → m = leAt a.payload 2 1 →
    s.portCheck (slotInst slot) p = 0 → u = s.updPort p (fun x => { x with loopback := m }) →
    (3 ≤ m → exec (.diagLoopback slot) s = .next (s.keeping (s.refuse slot a E.range)))
    ∧ (m < 3 → u.isUp p = false → exec (.diagLoopback slot) s = .next (s.keeping (u.answers slot a)))
    ∧ (m < 3 → u.isUp p = true → exec (.diagLoopback slot) s = .next (s.keeping
      (((((u.loseFrames p).dropLink p).emit (.remoteFault p)).raise (linkSource p).1 (linkSource p).2).answers slot a))))
  ∧ (∀ (s u : State) (slot : Nat) (a : Accepted), s.grants slot Op.diagReset a → u = s.answers slot a →
    (2 ≤ leAt a.payload 0 1 → exec (.diagReset slot) s = .next (s.keeping (s.refuse slot a E.range)))
    ∧ (leAt a.payload 0 1 = 0 →
      ((s.tags a { rstate := 0, status := 0 } && !s.cmacFree) = false →
        (u.boot.booting = true ∨ u.fault.warm = true → exec (.diagReset slot) s = .next (s.keeping u))
        ∧ (u.boot.booting = false → u.fault.warm = false → exec (.diagReset slot) s = .next (s.keeping (u.warmReset 3))))
      ∧ ((s.tags a { rstate := 0, status := 0 } && !s.cmacFree) = true → a.silent = false → a.buf = none →
        exec (.diagReset slot) s = .next (s.keeping (s.askTag slot 1 (.response a { rstate := 0, status := 0 } .warmReset)))))
    ∧ ∀ f k, leAt a.payload 0 1 = 1 → f = leAt a.payload 1 1 → k = leAt a.payload 2 2 →
      (funcUnits f ≤ k → exec (.diagReset slot) s = .next (s.keeping (s.refuse slot a E.range)))
      ∧ (k < funcUnits f →
        ((s.tags a { rstate := 0, status := 0 } && !s.cmacFree) = false →
          ((∀ g ∈ u.fault.funcs, covers g (f, k) = false) → exec (.diagReset slot) s = .next (s.keeping ((u.beginFunc (f, k)).endFunc (f, k))))
          ∧ ((∃ g ∈ u.fault.funcs, covers g (f, k) = true) → exec (.diagReset slot) s = .next (s.keeping u)))
        ∧ ((s.tags a { rstate := 0, status := 0 } && !s.cmacFree) = true → a.silent = false → a.buf = none →
          exec (.diagReset slot) s = .next (s.keeping (s.askTag slot 1 (.response a { rstate := 0, status := 0 } (.reinit (f, k))))))))

/-- A read of a width its BAR does not take finds 0, and so does one at an address the manual does not name: between HIF.ID and the MSI-X table, past BOOT.STATUS, past the ring pages, or off a word of BAR0. In BAR0 HIF.ID reads 0x51200100, HIF.DOORBELL reads 0, and each word of the groups of R513 finds its register: the MSI-X table and PBA, causes and masks, TIME, GATE_STATUS, SLOT_STATUS, PC_STATUS, TRAIN_LANE, the three Pacer groups, MBX_STATUS, FAULT.SUMMARY, RECORDER and BOOT.STATUS. BAR2 finds the response window of a slot. BAR4 finds counter pages, the recorder window and ring pages, where an 8-byte read finds two words; CONTROL and the indices of a ring page are those the page holds. -/
def Obligations.RegistersReadWhereTheyStand : Prop :=
  (∀ (s : State) (off width : Nat),
    (width ≠ 4 → s.readAt 0 off width = 0 ∧ s.readAt 2 off width = 0)
    ∧ (width ≠ 4 → width ≠ 8 → s.readAt 4 off width = 0)
    ∧ s.readAt 4 off 8 = s.readAt 4 off 4 + 2 ^ 32 * s.readAt 4 (off + 4) 4)
  ∧ (∀ (s : State) (off : Nat), off % 4 ≠ 0 ∨ (0 < off ∧ off < 0x10000) ∨ 0xD0004 ≤ off → s.readAt 0 off 4 = 0)
  ∧ (∀ s : State, s.readAt 0 0 4 = 0x51200100 ∧ s.readAt 0 0x41000 4 = s.ucodeVersion ∧ s.readAt 0 0x41004 4 = s.ucodeDigest
    ∧ s.readAt 0 0xB0000 4 = s.faultSummary ∧ s.readAt 0 0xD0000 4 = s.bootStatus)
  ∧ (∀ (s : State) (k : Nat),
    (k < 512 → s.readAt 0 (0x10000 + 4 * k) 4 = s.msixWord (k / 4) (k % 4) ∧ s.readAt 0 (0x60000 + 4 * k) 4 = s.gateStatus k
      ∧ s.readAt 0 (0x81000 + 4 * k) 4 = s.trainLane k)
    ∧ (k < 256 → s.readAt 0 (0x90400 + 4 * k) 4 = s.chStatus k ∧ s.readAt 0 (0xA0000 + 8 * k) 4 = 0 ∧ s.readAt 0 (0xA0004 + 8 * k) 4 = s.mbxStatus k)
    ∧ (k < 128 → s.readAt 0 (0x80000 + 4 * k) 4 = s.pcStatus k)
    ∧ (k < 64 → s.readAt 0 (0x11000 + 4 * k) 4 = s.host.cause.at k ∧ s.readAt 0 (0x11100 + 4 * k) 4 = s.host.mask.at k)
    ∧ (k < 32 → s.readAt 0 (0x70000 + 4 * k) 4 = s.slotStatus k ∧ s.readAt 0 (0x90000 + 4 * k) 4 = s.threadStatus k)
    ∧ (k < 6 → s.readAt 0 (0x50000 + 4 * k) 4 = s.timeReg k)
    ∧ (k < 4 → s.readAt 0 (0x10800 + 4 * k) 4 = s.pbaWord k ∧ s.readAt 0 (0x90800 + 4 * k) 4 = s.poolStatus k ∧ s.readAt 0 (0xC0000 + 4 * k) 4 = s.recorderReg k))
  ∧ (∀ (s : State) (slot off : Nat), off < 4096 → s.readAt 2 (4096 * slot + off) 4 = leAt (s.mbx.slot.at slot).response off 4)
  ∧ (∀ (s : State) (i off : Nat), i < 64 → off < 65536 →
    s.readAt 4 (65536 * i + off) 4 = s.pageWord i off ∧ s.readAt 4 (0x800000 + 65536 * i + off) 4 = s.readPage i off)
  ∧ (∀ (s : State) (off : Nat),
    (off < 0x400000 → s.readAt 4 (0x400000 + off) 4 = s.ringWord off)
    ∧ (0xC00000 ≤ off → s.readAt 4 off 4 = 0))
  ∧ (∀ (s : State) (i : Nat), s.readPage i 0x08 = b2n (s.page i).rx.enable * 2 ^ 31 + (s.page i).rx.log2 ∧ s.readPage i 0x0C = (s.page i).rxPost.toNat
    ∧ s.readPage i 0x10 = (s.page i).rxDone.toNat ∧ s.readPage i 0x2C = (s.page i).txPost.toNat ∧ s.readPage i 0x30 = (s.page i).txDone.toNat
    ∧ s.readPage i 0x4C = (s.page i).gmuHead.toNat ∧ s.readPage i 0x50 = (s.page i).gmuTail.toNat ∧ s.readPage i 0x60 = (s.page i).rxDrops.toNat)
end

