-- ==== Sys2Proof/Laws/Crypto.lean ====
section
/-! SUPPORT. AES decryption undoes encryption, and unwrapping undoes wrapping (FIPS 197, RFC 3394), for keys whose round keys are blocks. -/
namespace Sys2Proof.Crypto
theorem xorBytes_length (a b : List Byte) : (xorBytes a b).length = min a.length b.length := by simp [xorBytes]
theorem shiftRows_length (l : List Byte) : (shiftRows l).length = 16 := by simp [shiftRows]
theorem mixWith_length (a b c d : Byte) (l : List Byte) : (mixWith a b c d l).length = 16 := by simp [mixWith]

theorem gmulFrom_xor (n : Nat) : ∀ a b b' acc acc' : Byte, gmulFrom n a (b ^^^ b') (acc ^^^ acc') = gmulFrom n a b acc ^^^ gmulFrom n a b' acc' := by
  induction n with
  | zero => intros; rfl
  | succ n ih =>
    intro a b b' acc acc'
    simp only [gmulFrom]
    rw [BitVec.ushiftRight_xor_distrib, ← ih]
    congr 1
    rw [BitVec.getLsbD_xor]
    have h : acc ^^^ a ^^^ (acc' ^^^ a) = acc ^^^ acc' := by
      rw [BitVec.xor_assoc, BitVec.xor_comm acc', ← BitVec.xor_assoc a a, BitVec.xor_self, BitVec.zero_xor]
    cases b.getLsbD 0 <;> cases b'.getLsbD 0 <;> simp [h] <;> ac_rfl

theorem gmul_xor (a b c : Byte) : gmul a (b ^^^ c) = gmul a b ^^^ gmul a c := by
  unfold gmul; rw [← gmulFrom_xor]; simp

theorem mix_eqs : ∀ x : Byte,
    gmul 14#8 (gmul 2#8 x) ^^^ gmul 11#8 (gmul 1#8 x) ^^^ gmul 13#8 (gmul 1#8 x) ^^^ gmul 9#8 (gmul 3#8 x) = x ∧
    gmul 14#8 (gmul 3#8 x) ^^^ gmul 11#8 (gmul 2#8 x) ^^^ gmul 13#8 (gmul 1#8 x) ^^^ gmul 9#8 (gmul 1#8 x) = 0#8 ∧
    gmul 14#8 (gmul 1#8 x) ^^^ gmul 11#8 (gmul 3#8 x) ^^^ gmul 13#8 (gmul 2#8 x) ^^^ gmul 9#8 (gmul 1#8 x) = 0#8 ∧
    gmul 14#8 (gmul 1#8 x) ^^^ gmul 11#8 (gmul 1#8 x) ^^^ gmul 13#8 (gmul 3#8 x) ^^^ gmul 9#8 (gmul 2#8 x) = 0#8 := by decide +kernel

theorem sboxInv_sbox : ∀ x : Byte, sboxInv (sbox x) = x := by decide +kernel

/-- One output byte of a column mixed and mixed back. -/
theorem mix_byte (a b c d : Byte) :
    gmul 14#8 (gmul 2#8 a ^^^ gmul 3#8 b ^^^ gmul 1#8 c ^^^ gmul 1#8 d) ^^^ gmul 11#8 (gmul 2#8 b ^^^ gmul 3#8 c ^^^ gmul 1#8 d ^^^ gmul 1#8 a)
      ^^^ gmul 13#8 (gmul 2#8 c ^^^ gmul 3#8 d ^^^ gmul 1#8 a ^^^ gmul 1#8 b) ^^^ gmul 9#8 (gmul 2#8 d ^^^ gmul 3#8 a ^^^ gmul 1#8 b ^^^ gmul 1#8 c) = a := by
  simp only [gmul_xor]
  have ha := (mix_eqs a).1
  have hb := (mix_eqs b).2.1
  have hc := (mix_eqs c).2.2.1
  have hd := (mix_eqs d).2.2.2
  have : ∀ x y z w : Byte, x = a → y = 0#8 → z = 0#8 → w = 0#8 → x ^^^ y ^^^ z ^^^ w = a := by rintro _ _ _ _ rfl rfl rfl rfl; simp
  refine Eq.trans ?_ (this _ _ _ _ ha hb hc hd)
  ac_rfl

theorem list16 (l : List Byte) (h : l.length = 16) : ∃ a b c d e f g i j k m n o p q r, l = [a, b, c, d, e, f, g, i, j, k, m, n, o, p, q, r] := by
  match l, h with
  | [a, b, c, d, e, f, g, i, j, k, m, n, o, p, q, r], _ => exact ⟨a, b, c, d, e, f, g, i, j, k, m, n, o, p, q, r, rfl⟩

theorem mix_inv (l : List Byte) (h : l.length = 16) : mixWith 14#8 11#8 13#8 9#8 (mixWith 2#8 3#8 1#8 1#8 l) = l := by
  obtain ⟨a, b, c, d, e, f, g, i, j, k, m, n, o, p, q, r, rfl⟩ := list16 l h
  simp only [mixWith, byteAt, List.range, List.range.loop, List.map]
  simp [mix_byte]

theorem shiftRows_inv (l : List Byte) (h : l.length = 16) : shiftRowsInv (shiftRows l) = l := by
  obtain ⟨a, b, c, d, e, f, g, i, j, k, m, n, o, p, q, r, rfl⟩ := list16 l h
  rfl

theorem xorBytes_self (a k : List Byte) (h : a.length = k.length) : xorBytes (xorBytes a k) k = a := by
  induction a generalizing k with
  | nil => rfl
  | cons x a ih =>
    cases k with
    | nil => simp at h
    | cons y k =>
      have := ih k (by simpa using h)
      simp only [xorBytes, List.zipWith] at *
      rw [this, BitVec.xor_assoc, BitVec.xor_self, BitVec.xor_zero]

/-- A round forward and its undoing. -/
theorem round_inv (b : List Byte) (h : b.length = 16) : (shiftRowsInv (shiftRows (b.map sbox))).map sboxInv = b := by
  rw [shiftRows_inv _ (by simpa using h), List.map_map]
  have : sboxInv ∘ sbox = id := funext sboxInv_sbox
  rw [this, List.map_id]

/-- The rounds of AES before the last, forward. -/
def rounds (b : List Byte) (mid : List (List Byte)) : List Byte :=
  mid.foldl (fun b k => xorBytes (mixWith 2#8 3#8 1#8 1#8 (shiftRows (b.map sbox))) k) b

theorem rounds_length (mid : List (List Byte)) (hm : ∀ k ∈ mid, k.length = 16) (b : List Byte) (h : b.length = 16) : (rounds b mid).length = 16 := by
  induction mid generalizing b with
  | nil => exact h
  | cons k mid ih =>
    exact ih (fun k h => hm k (List.mem_cons_of_mem _ h)) _ (by rw [xorBytes_length, mixWith_length, hm k (List.mem_cons_self ..)]; rfl)

theorem rounds_inv (mid : List (List Byte)) (hm : ∀ k ∈ mid, k.length = 16) (b : List Byte) (h : b.length = 16) :
    mid.reverse.foldl (fun b k => mixWith 14#8 11#8 13#8 9#8 (xorBytes ((shiftRowsInv b).map sboxInv) k)) (shiftRows ((rounds b mid).map sbox))
      = shiftRows (b.map sbox) := by
  induction mid generalizing b with
  | nil => rfl
  | cons k mid ih =>
    have hk := hm k (List.mem_cons_self ..)
    have hb : (xorBytes (mixWith 2#8 3#8 1#8 1#8 (shiftRows (b.map sbox))) k).length = 16 := by rw [xorBytes_length, mixWith_length, hk]; rfl
    have := ih (fun k h => hm k (List.mem_cons_of_mem _ h)) _ hb
    rw [List.reverse_cons, List.foldl_append]
    show List.foldl _ (mid.reverse.foldl _ (shiftRows ((rounds _ mid).map sbox))) [k] = _
    rw [this]
    simp only [List.foldl]
    rw [round_inv _ hb, xorBytes_self _ _ (by rw [mixWith_length, hk]), mix_inv _ (shiftRows_length _)]

variable {key : List Byte} (hr : (roundKeys key).all (·.length == 16) = true) (hn : 2 ≤ (roundKeys key).length)
include hr hn

theorem keys_shape : ∃ k0 mid kN, roundKeys key = k0 :: (mid ++ [kN]) ∧ k0.length = 16 ∧ kN.length = 16 ∧ ∀ k ∈ mid, k.length = 16 := by
  match e : roundKeys key, hr, hn with
  | k0 :: ks, hr, hn =>
    have hne : ks ≠ [] := by intro h; subst h; simp at hn
    simp only [List.all_cons, Bool.and_eq_true, beq_iff_eq, List.all_eq_true] at hr
    refine ⟨k0, ks.dropLast, ks.getLast hne, by rw [List.dropLast_concat_getLast], hr.1, hr.2 _ (List.getLast_mem hne), fun k hk => hr.2 k (List.dropLast_subset _ hk)⟩

theorem aes_length (b : List Byte) : (aes key b).length = 16 := by
  obtain ⟨k0, mid, kN, h, h0, hN, hm⟩ := keys_shape hr hn
  unfold aes aesWith; rw [h]
  simp only []
  rw [List.dropLast_concat, List.getLastD_concat, xorBytes_length, shiftRows_length, hN]; rfl

/-- AES decryption undoes AES encryption. -/
theorem aesInv_aes (b : List Byte) (hb : b.length = 16) : aesInv key (aes key b) = b := by
  obtain ⟨k0, mid, kN, h, h0, hN, hm⟩ := keys_shape hr hn
  unfold aes aesWith aesInv; rw [h]
  simp only [List.reverse_cons, List.reverse_append, List.reverse_nil, List.nil_append, List.cons_append,
    List.dropLast_concat, List.getLastD_concat]
  have hx : (xorBytes b k0).length = 16 := by rw [xorBytes_length, hb, h0]; rfl
  have h1 : (rounds (xorBytes b k0) mid).length = 16 := rounds_length mid hm _ hx
  rw [xorBytes_self _ _ (by rw [shiftRows_length, hN])]
  have hi := rounds_inv mid hm _ hx
  unfold rounds at hi h1
  rw [hi, round_inv _ hx, xorBytes_self _ _ (by rw [hb, h0])]

omit hr hn in
theorem foldl_undo {σ : Type} (P : σ → Prop) (f g : σ → Nat → σ) : ∀ (l : List Nat) (x : σ), P x →
    (∀ x t, t ∈ l → P x → P (f x t) ∧ g (f x t) t = x) → P (l.foldl f x) ∧ l.reverse.foldl g (l.foldl f x) = x := by
  intro l
  induction l with
  | nil => exact fun x hp _ => ⟨hp, rfl⟩
  | cons t l ih =>
    intro x hp h
    obtain ⟨h1, h2⟩ := h x t (List.mem_cons_self ..) hp
    obtain ⟨h3, h4⟩ := ih (f x t) h1 (fun x t ht => h x t (List.mem_cons_of_mem _ ht))
    refine ⟨h3, ?_⟩
    rw [List.reverse_cons, List.foldl_append]
    show g (l.reverse.foldl g (l.foldl f (f x t))) t = x
    rw [h4, h2]

omit hr hn in
theorem slice_inside (l : List Byte) (off len : Nat) (h : off + len ≤ l.length) : slice l off len = (l.drop off).take len := by
  unfold slice
  simp only []
  rw [List.length_take, List.length_drop, Nat.min_eq_left (by omega)]; simp

omit hr hn in
theorem beBytes_length (n x : Nat) : (beBytes n x).length = n := by
  have : ∀ n x, (leBytes n x).length = n := by
    intro n
    induction n with
    | zero => intro x; rfl
    | succ n ih => intro x; simp [leBytes, ih]
  simp [beBytes, this]

omit hr hn in
theorem flatten_length (r : List (List Byte)) (h : ∀ x ∈ r, x.length = 8) : r.flatten.length = 8 * r.length := by
  induction r with
  | nil => rfl
  | cons x r ih =>
    rw [List.flatten_cons, List.length_append, ih (fun y hy => h y (List.mem_cons_of_mem _ hy)), h x (List.mem_cons_self ..), List.length_cons]; omega

omit hr hn in
theorem chunks_flatten (r : List (List Byte)) (h : ∀ x ∈ r, x.length = 8) :
    (List.range r.length).map (fun i => slice r.flatten (8 * i) 8) = r := by
  induction r with
  | nil => rfl
  | cons x r ih =>
    have hx := h x (List.mem_cons_self ..)
    have hr := fun y hy => h y (List.mem_cons_of_mem _ hy)
    have hf := flatten_length r hr
    rw [List.length_cons, List.range_succ_eq_map, List.map_cons, List.map_map]
    congr 1
    · rw [slice_inside _ _ _ (by rw [List.flatten_cons, List.length_append, hx]; omega), List.flatten_cons]
      simp [hx]
    · conv => rhs; rw [← ih hr]
      apply List.map_congr_left
      intro i hi
      have hi := List.mem_range.mp hi
      show slice (x :: r).flatten (8 * (i + 1)) 8 = slice r.flatten (8 * i) 8
      rw [slice_inside _ _ _ (by rw [List.flatten_cons, List.length_append, hx, hf]; omega), slice_inside _ _ _ (by rw [hf]; omega), List.flatten_cons]
      congr 1
      rw [show 8 * (i + 1) = x.length + 8 * i by omega, ← List.drop_drop, List.drop_left]

omit hr hn in
theorem flatten_chunks : ∀ (n : Nat) (p : List Byte), p.length = 8 * n → ((List.range n).map (fun i => slice p (8 * i) 8)).flatten = p := by
  intro n
  induction n with
  | zero => intro p h; have := List.length_eq_zero_iff.mp h; subst this; rfl
  | succ n ih =>
    intro p h
    have hd : (p.drop 8).length = 8 * n := by rw [List.length_drop]; omega
    rw [List.range_succ_eq_map, List.map_cons, List.map_map, List.flatten_cons]
    have : (List.range n).map ((fun i => slice p (8 * i) 8) ∘ Nat.succ) = (List.range n).map (fun i => slice (p.drop 8) (8 * i) 8) := by
      apply List.map_congr_left
      intro i hi
      have hi := List.mem_range.mp hi
      show slice p (8 * (i + 1)) 8 = _
      rw [slice_inside _ _ _ (by omega), slice_inside _ _ _ (by omega), List.drop_drop]
      congr 2; omega
    rw [this, ih _ hd, slice_inside _ _ _ (by omega)]
    simp

/-- Eight-byte halves: A and the n blocks R. -/
def Halves (n : Nat) (x : List Byte × List (List Byte)) : Prop := x.1.length = 8 ∧ x.2.length = n ∧ ∀ y ∈ x.2, y.length = 8

theorem kwStep_undo {n : Nat} (h0 : 0 < n) (x : List Byte × List (List Byte)) (t : Nat) (hx : Halves n x) :
    Halves n (kwStep key n x t) ∧ kwStepInv key n (kwStep key n x t) t = x := by
  obtain ⟨a, r⟩ := x
  obtain ⟨ha, hl, hy⟩ := hx
  simp only at ha hl hy
  have hi : (t - 1) % n < r.length := by rw [hl]; exact Nat.mod_lt _ h0
  have hg : r.getD ((t - 1) % n) [] = r[(t - 1) % n] := by rw [List.getD_eq_getElem?_getD, List.getElem?_eq_getElem hi]; rfl
  have hri : (r[(t - 1) % n]).length = 8 := hy _ (List.getElem_mem hi)
  have hb := aes_length hr hn (a ++ r[(t - 1) % n])
  have hA : (a ++ r[(t - 1) % n]).length = 16 := by rw [List.length_append, ha, hri]
  unfold kwStep kwStepInv
  simp only [hg]
  have hd : ∀ v : List Byte, (r.set ((t - 1) % n) v).getD ((t - 1) % n) [] = v := by
    intro v; rw [List.getD_eq_getElem?_getD, List.getElem?_set_self hi]; rfl
  refine ⟨⟨?_, ?_, ?_⟩, ?_⟩
  · show (xorBytes _ _).length = 8
    rw [xorBytes_length, List.length_take, hb, beBytes_length]; rfl
  · show (r.set _ _).length = n
    rw [List.length_set, hl]
  · intro y h
    rcases List.mem_or_eq_of_mem_set h with h | h
    · exact hy y h
    · rw [h, List.length_drop, hb]
  · rw [hd, xorBytes_self _ _ (by rw [List.length_take, hb, beBytes_length]; rfl), List.take_append_drop, aesInv_aes hr hn _ hA]
    rw [List.take_left' ha, List.drop_left' ha]
    rw [List.set_set, List.set_getElem_self]

omit hr hn in
/-- The halves with which wrapping begins. -/
theorem halves_start {p : List Byte} {n : Nat} (hp : p.length = 8 * n) : Halves n (kwIv, (List.range n).map (fun i => slice p (8 * i) 8)) := by
  refine ⟨rfl, by simp, ?_⟩
  intro y hy
  obtain ⟨i, hi, rfl⟩ := List.mem_map.mp hy
  have := List.mem_range.mp hi
  rw [slice_inside _ _ _ (by omega), List.length_take, List.length_drop]; omega

/-- A wrapped key is 8 bytes longer. -/
theorem kwWrap_length {p : List Byte} {n : Nat} (h0 : 0 < n) (hp : p.length = 8 * n) : (kwWrap key p).length = 8 * n + 8 := by
  obtain ⟨⟨hA, hl, hy⟩, -⟩ := foldl_undo (Halves n) (kwStep key n) (kwStepInv key n) ((List.range (6 * n)).map (· + 1)) _ (halves_start hp)
    (fun x t _ hx => kwStep_undo hr hn h0 x t hx)
  unfold kwWrap
  simp only [show p.length / 8 = n by omega]
  rw [List.length_append, hA, flatten_length _ hy, hl]; omega

/-- Unwrapping undoes wrapping (RFC 3394). -/
theorem kwUnwrap_kwWrap {p : List Byte} {n : Nat} (h0 : 0 < n) (hp : p.length = 8 * n) : kwUnwrap key (kwWrap key p) = some p := by
  have hn8 : p.length / 8 = n := by omega
  obtain ⟨⟨hA, hl, hy⟩, hu⟩ := foldl_undo (Halves n) (kwStep key n) (kwStepInv key n) ((List.range (6 * n)).map (· + 1)) _ (halves_start hp)
    (fun x t _ hx => kwStep_undo hr hn h0 x t hx)
  unfold kwWrap kwUnwrap
  simp only [hn8]
  generalize List.foldl (kwStep key n) _ _ = o at hA hl hy hu
  have hf := flatten_length o.2 hy
  rw [show (o.1 ++ o.2.flatten).length / 8 - 1 = n by rw [List.length_append, hA, hf, hl]; omega]
  have hr' : (List.range n).map (fun i => slice (o.1 ++ o.2.flatten) (8 * i + 8) 8) = o.2 := by
    conv => rhs; rw [← chunks_flatten o.2 hy, hl]
    apply List.map_congr_left
    intro i hi
    have hi := List.mem_range.mp hi
    rw [slice_inside _ _ _ (by rw [List.length_append, hA, hf, hl]; omega), slice_inside _ _ _ (by rw [hf, hl]; omega)]
    congr 1
    rw [show 8 * i + 8 = o.1.length + 8 * i by omega, ← List.drop_drop, List.drop_left]
  rw [hr', List.take_left' hA, hu]
  simp only [if_true]
  rw [flatten_chunks n p hp]

end Sys2Proof.Crypto
end

