-- ==== Sys2Proof/Laws/Tab.lean ====
section
/-! SUPPORT. Sparse tables: reading after writing, and the canonical form that every table operation keeps. -/
namespace Sys2Proof

/-! ### Bounds on indices -/

section bounds
variable {α : Type}

/-- Every index of a table lies above a bound. -/
def Tab.above (n : Nat) (t : Tab α) : Prop := ∀ e ∈ t, n < e.1

theorem Tab.above_del (t : Tab α) (n k : Nat) (h : Tab.above n t) : Tab.above n (Tab.del t k) := by
  induction t with
  | nil => exact h
  | cons e t ih =>
    obtain ⟨k', v⟩ := e
    have ht : Tab.above n t := fun e he => h e (List.mem_cons_of_mem _ he)
    simp only [Tab.del]; split
    · exact ih ht
    · intro e he
      rcases List.mem_cons.1 he with rfl | he
      · exact h _ (by simp)
      · exact ih ht e he

theorem Tab.above_ins (t : Tab α) (n k : Nat) (v : α) (hk : n < k) (h : Tab.above n t) : Tab.above n (Tab.ins t k v) := by
  induction t with
  | nil => intro e he; simp only [Tab.ins, List.mem_singleton] at he; subst he; exact hk
  | cons e t ih =>
    obtain ⟨k', v'⟩ := e
    have ht : Tab.above n t := fun e he => h e (List.mem_cons_of_mem _ he)
    simp only [Tab.ins]; split
    · intro e he
      rcases List.mem_cons.1 he with rfl | he
      · exact hk
      · exact ht e he
    · split
      · intro e he
        rcases List.mem_cons.1 he with rfl | he
        · exact hk
        · exact h e he
      · intro e he
        rcases List.mem_cons.1 he with rfl | he
        · exact h _ (by simp)
        · exact ih ht e he

end bounds

/-! ### Reading -/

variable {α : Type} [Inhabited α]

@[simp] theorem Tab.at_nil (k : Nat) : Tab.at ([] : Tab α) k = default := rfl

theorem Tab.at_cons (k' : Nat) (v : α) (t : Tab α) (k : Nat) :
    Tab.at ((k', v) :: t) k = if k = k' then v else Tab.at t k := rfl

/-- A deleted index reads the default value. -/
@[simp] theorem Tab.at_del_same (t : Tab α) (k : Nat) : (Tab.del t k).at k = default := by
  induction t with
  | nil => rfl
  | cons e t ih =>
    obtain ⟨k', v⟩ := e
    simp only [Tab.del]; split
    · exact ih
    · rw [Tab.at_cons, if_neg ‹_›]; exact ih

/-- A deletion leaves every other index alone. -/
theorem Tab.at_del_other (t : Tab α) {k j : Nat} (h : j ≠ k) : (Tab.del t k).at j = t.at j := by
  induction t with
  | nil => rfl
  | cons e t ih =>
    obtain ⟨k', v⟩ := e
    simp only [Tab.del]; split
    · subst_vars; rw [ih, Tab.at_cons, if_neg h]
    · simp only [Tab.at_cons, ih]

@[simp] theorem Tab.at_ins_same (t : Tab α) (k : Nat) (v : α) : (Tab.ins t k v).at k = v := by
  induction t with
  | nil => simp [Tab.ins, Tab.at]
  | cons e t ih =>
    obtain ⟨k', v'⟩ := e
    simp only [Tab.ins]; split
    · simp [Tab.at]
    · split
      · simp [Tab.at]
      · rw [Tab.at_cons, if_neg ‹_›]; exact ih

theorem Tab.at_ins_other (t : Tab α) {k j : Nat} (v : α) (h : j ≠ k) : (Tab.ins t k v).at j = t.at j := by
  induction t with
  | nil => simp [Tab.ins, Tab.at, h]
  | cons e t ih =>
    obtain ⟨k', v'⟩ := e
    simp only [Tab.ins]; split
    · subst_vars; simp [Tab.at_cons, h]
    · split
      · simp [Tab.at_cons, h]
      · simp only [Tab.at_cons, ih]

variable [DecidableEq α]

/-- What is written is read. -/
@[simp] theorem Tab.at_put_same (t : Tab α) (k : Nat) (v : α) : (Tab.put t k v).at k = v := by
  unfold Tab.put; split
  · simp [*]
  · simp

/-- A write leaves every other index alone. -/
theorem Tab.at_put_other (t : Tab α) {k j : Nat} (v : α) (h : j ≠ k) : (Tab.put t k v).at j = t.at j := by
  unfold Tab.put; split
  · exact Tab.at_del_other t h
  · exact Tab.at_ins_other t v h

@[simp] theorem Tab.at_upd_same (t : Tab α) (k : Nat) (f : α → α) : (Tab.upd t k f).at k = f (t.at k) :=
  Tab.at_put_same t k _

theorem Tab.at_upd_other (t : Tab α) {k j : Nat} (f : α → α) (h : j ≠ k) : (Tab.upd t k f).at j = t.at j :=
  Tab.at_put_other t _ h

/-- What `Tab.upd` gives at any index. -/
theorem Tab.at_upd (t : Tab α) (k j : Nat) (f : α → α) : (Tab.upd t k f).at j = if j = k then f (t.at k) else t.at j := by
  split
  · subst_vars; simp
  · exact Tab.at_upd_other t f ‹_›

omit [Inhabited α] [DecidableEq α] in
/-- What a table lists once an index is dropped. -/
theorem Tab.has_del (t : Tab α) (k j : Nat) : Tab.has (Tab.del t k) j = (Tab.has t j && j != k) := by
  induction t with
  | nil => rfl
  | cons e t ih =>
    obtain ⟨k', v⟩ := e
    unfold Tab.del
    split
    · next h =>
      subst h; rw [ih]; simp only [Tab.has]
      cases h2 : (j == k)
      · simp
      · have := eq_of_beq h2
        simp [this]
    · next h =>
      simp only [Tab.has, ih]
      cases h2 : (j == k')
      · simp
      · have := eq_of_beq h2
        subst this; simp; intro q; exact h q.symm

omit [Inhabited α] [DecidableEq α] in
/-- What a table lists once a value is listed. -/
theorem Tab.has_ins (t : Tab α) (k j : Nat) (v : α) : Tab.has (Tab.ins t k v) j = (Tab.has t j || j == k) := by
  induction t with
  | nil => simp [Tab.ins, Tab.has]
  | cons e t ih =>
    obtain ⟨k', v'⟩ := e
    unfold Tab.ins
    split
    · next h => subst h; simp only [Tab.has]; cases (j == k) <;> simp
    · split
      · simp only [Tab.has]; rw [Bool.or_comm]
      · simp only [Tab.has, ih, Bool.or_assoc]

/-! ### The canonical form -/

theorem Tab.wf_cons (k : Nat) (v : α) (t : Tab α) :
    Tab.wf ((k, v) :: t) = true ↔ v ≠ default ∧ Tab.above k t ∧ Tab.wf t = true := by
  cases t with
  | nil => simp [Tab.wf, Tab.above]
  | cons e t =>
    obtain ⟨k', v'⟩ := e
    induction t generalizing k k' v v' with
    | nil => simp [Tab.wf, Tab.above, and_comm, and_left_comm]
    | cons e' t ih =>
      obtain ⟨k'', v''⟩ := e'
      have h2 := ih k' v' k'' v''
      simp only [Tab.wf, Bool.and_eq_true, decide_eq_true_eq] at h2 ⊢
      constructor
      · rintro ⟨⟨hv, hk⟩, hr⟩
        obtain ⟨hv', ha, hw⟩ := h2.1 hr
        refine ⟨hv, ?_, hr⟩
        intro e he
        rcases List.mem_cons.1 he with rfl | he
        · exact hk
        · have := ha e he; omega
      · rintro ⟨hv, ha, hr⟩
        exact ⟨⟨hv, ha (k', v') (by simp)⟩, hr⟩

theorem Tab.wf_del (t : Tab α) (k : Nat) (h : Tab.wf t = true) : Tab.wf (Tab.del t k) = true := by
  induction t with
  | nil => rfl
  | cons e t ih =>
    obtain ⟨k', v⟩ := e
    obtain ⟨hv, ha, hw⟩ := (Tab.wf_cons k' v t).1 h
    simp only [Tab.del]; split
    · exact ih hw
    · exact (Tab.wf_cons k' v _).2 ⟨hv, Tab.above_del t k' k ha, ih hw⟩

theorem Tab.wf_ins (t : Tab α) (k : Nat) (v : α) (hv : v ≠ default) (h : Tab.wf t = true) : Tab.wf (Tab.ins t k v) = true := by
  induction t with
  | nil => simp [Tab.ins, Tab.wf, hv]
  | cons e t ih =>
    obtain ⟨k', v'⟩ := e
    obtain ⟨hv', ha, hw⟩ := (Tab.wf_cons k' v' t).1 h
    simp only [Tab.ins]; split
    · subst_vars; exact (Tab.wf_cons _ v t).2 ⟨hv, ha, hw⟩
    · split
      · refine (Tab.wf_cons k v _).2 ⟨hv, ?_, h⟩
        intro e he
        rcases List.mem_cons.1 he with rfl | he
        · assumption
        · have := ha e he; omega
      · exact (Tab.wf_cons k' v' _).2 ⟨hv', Tab.above_ins t k' k v (by omega) ha, ih hw⟩

/-- A write keeps the canonical form. -/
theorem Tab.wf_put (t : Tab α) (k : Nat) (v : α) (h : Tab.wf t = true) : Tab.wf (Tab.put t k v) = true := by
  unfold Tab.put; split
  · exact Tab.wf_del t k h
  · exact Tab.wf_ins t k v ‹_› h

theorem Tab.wf_upd (t : Tab α) (k : Nat) (f : α → α) (h : Tab.wf t = true) : Tab.wf (Tab.upd t k f) = true :=
  Tab.wf_put t k _ h

theorem Tab.above_mapAll (t : Tab α) (n : Nat) (f : Nat → α → α) (h : Tab.above n t) : Tab.above n (Tab.mapAll t f) := by
  induction t with
  | nil => exact h
  | cons e t ih =>
    obtain ⟨k', v⟩ := e
    have ht : Tab.above n t := fun e he => h e (List.mem_cons_of_mem _ he)
    simp only [Tab.mapAll]; split
    · exact ih ht
    · intro e he
      rcases List.mem_cons.1 he with rfl | he
      · exact h (k', v) (by simp)
      · exact ih ht e he

theorem Tab.wf_mapAll (t : Tab α) (f : Nat → α → α) (h : Tab.wf t = true) : Tab.wf (Tab.mapAll t f) = true := by
  induction t with
  | nil => rfl
  | cons e t ih =>
    obtain ⟨k', v⟩ := e
    obtain ⟨_, ha, hw⟩ := (Tab.wf_cons k' v t).1 h
    simp only [Tab.mapAll]; split
    · exact ih hw
    · exact (Tab.wf_cons k' _ _).2 ⟨‹_›, Tab.above_mapAll t k' f ha, ih hw⟩

theorem Tab.wf_keep (t : Tab α) (f : Nat → α → Bool) (h : Tab.wf t = true) : Tab.wf (Tab.keep t f) = true := by
  induction t with
  | nil => rfl
  | cons e t ih =>
    obtain ⟨k', v⟩ := e
    obtain ⟨hv, ha, hw⟩ := (Tab.wf_cons k' v t).1 h
    have := ih hw
    unfold Tab.keep at this ⊢
    rw [List.filter_cons]; split
    · refine (Tab.wf_cons k' v _).2 ⟨hv, ?_, this⟩
      intro e he; exact ha e (List.mem_filter.1 he).1
    · exact this

omit [DecidableEq α] in
/-- An index below every listed one reads the default value. -/
theorem Tab.at_above (t : Tab α) (k j : Nat) (h : Tab.above k t) (hj : j ≤ k) : t.at j = default := by
  induction t with
  | nil => rfl
  | cons e t ih =>
    obtain ⟨k', v⟩ := e
    have := h (k', v) (by simp)
    rw [Tab.at_cons, if_neg (by simp at this; omega)]
    exact ih (fun e he => h e (List.mem_cons_of_mem _ he))

/-- What `Tab.mapAll` gives at an index, for a change that keeps the default value. -/
theorem Tab.at_mapAll (t : Tab α) (f : Nat → α → α) (k : Nat) (h : Tab.wf t = true) (hf : f k default = default) :
    (Tab.mapAll t f).at k = f k (t.at k) := by
  induction t with
  | nil => exact hf.symm
  | cons e t ih =>
    obtain ⟨k', v⟩ := e
    obtain ⟨_, ha, hw⟩ := (Tab.wf_cons k' v t).1 h
    simp only [Tab.mapAll]
    by_cases hk : k = k'
    · subst hk
      split
      · next hd => rw [ih hw, Tab.at_above t k k ha (Nat.le_refl _), hf, Tab.at_cons, if_pos rfl, hd]
      · rw [Tab.at_cons, if_pos rfl, Tab.at_cons, if_pos rfl]
    · split
      · rw [ih hw, Tab.at_cons, if_neg hk]
      · rw [Tab.at_cons, if_neg hk, ih hw, Tab.at_cons, if_neg hk]

/-! ### Bytes of numbers -/

@[simp] theorem leBytes_length (n x : Nat) : (leBytes n x).length = n := by
  induction n generalizing x with
  | zero => rfl
  | succ n ih => simp [leBytes, ih]

@[simp] theorem beBytes_length (n x : Nat) : (beBytes n x).length = n := by simp [beBytes]

end Sys2Proof
end

