-- ==== Sys2Proof/Laws/State.lean ====
section
/-! SUPPORT. Plain updates of the state: the component each one changes, and every other component as before. -/
namespace Sys2Proof.Machine

variable (s : State)

@[simp] theorem State.updPort_port (p : Nat) (f : Port → Port) : (s.updPort p f).port = s.port.upd p f := rfl

@[simp] theorem State.updPort_frame (p : Nat) (f : Port → Port) :
    (s.updPort p f).time = s.time ∧ (s.updPort p f).cfg = s.cfg ∧ (s.updPort p f).inst = s.inst ∧ (s.updPort p f).stride = s.stride ∧
    (s.updPort p f).pkt = s.pkt ∧ (s.updPort p f).cpy = s.cpy ∧ (s.updPort p f).nextPkt = s.nextPkt ∧ (s.updPort p f).nextCpy = s.nextCpy
    ∧ (s.updPort p f).tbl = s.tbl ∧ (s.updPort p f).learn = s.learn ∧ (s.updPort p f).srch = s.srch ∧ (s.updPort p f).buf = s.buf ∧
    (s.updPort p f).sched = s.sched ∧ (s.updPort p f).sec = s.sec ∧ (s.updPort p f).gmu = s.gmu ∧ (s.updPort p f).fab = s.fab ∧ (s.updPort
    p f).hbm = s.hbm ∧ (s.updPort p f).pacer = s.pacer ∧ (s.updPort p f).mbx = s.mbx ∧ (s.updPort p f).host = s.host ∧ (s.updPort p
    f).fault = s.fault ∧ (s.updPort p f).recd = s.recd ∧ (s.updPort p f).ctr = s.ctr ∧ (s.updPort p f).boot = s.boot ∧ (s.updPort p
    f).pins = s.pins ∧ (s.updPort p f).out = s.out ∧ (s.updPort p f).free = s.free ∧ (s.updPort p f).pending = s.pending :=
  by and_intros <;> rfl

@[simp] theorem State.updPkt_pkt (n : Nat) (f : Packet → Packet) : (s.updPkt n f).pkt = s.pkt.upd n f := rfl

@[simp] theorem State.updPkt_frame (n : Nat) (f : Packet → Packet) :
    (s.updPkt n f).time = s.time ∧ (s.updPkt n f).cfg = s.cfg ∧ (s.updPkt n f).inst = s.inst ∧ (s.updPkt n f).port = s.port ∧ (s.updPkt n
    f).stride = s.stride ∧ (s.updPkt n f).cpy = s.cpy ∧ (s.updPkt n f).nextPkt = s.nextPkt ∧ (s.updPkt n f).nextCpy = s.nextCpy ∧
    (s.updPkt n f).tbl = s.tbl ∧ (s.updPkt n f).learn = s.learn ∧ (s.updPkt n f).srch = s.srch ∧ (s.updPkt n f).buf = s.buf ∧ (s.updPkt n
    f).sched = s.sched ∧ (s.updPkt n f).sec = s.sec ∧ (s.updPkt n f).gmu = s.gmu ∧ (s.updPkt n f).fab = s.fab ∧ (s.updPkt n f).hbm = s.hbm
    ∧ (s.updPkt n f).pacer = s.pacer ∧ (s.updPkt n f).mbx = s.mbx ∧ (s.updPkt n f).host = s.host ∧ (s.updPkt n f).fault = s.fault ∧
    (s.updPkt n f).recd = s.recd ∧ (s.updPkt n f).ctr = s.ctr ∧ (s.updPkt n f).boot = s.boot ∧ (s.updPkt n f).pins = s.pins ∧ (s.updPkt n
    f).out = s.out ∧ (s.updPkt n f).free = s.free ∧ (s.updPkt n f).pending = s.pending :=
  by and_intros <;> rfl

@[simp] theorem State.updCpy_cpy (n : Nat) (f : Copy → Copy) : (s.updCpy n f).cpy = s.cpy.upd n f := rfl

@[simp] theorem State.updCpy_frame (n : Nat) (f : Copy → Copy) :
    (s.updCpy n f).time = s.time ∧ (s.updCpy n f).cfg = s.cfg ∧ (s.updCpy n f).inst = s.inst ∧ (s.updCpy n f).port = s.port ∧ (s.updCpy n
    f).stride = s.stride ∧ (s.updCpy n f).pkt = s.pkt ∧ (s.updCpy n f).nextPkt = s.nextPkt ∧ (s.updCpy n f).nextCpy = s.nextCpy ∧
    (s.updCpy n f).tbl = s.tbl ∧ (s.updCpy n f).learn = s.learn ∧ (s.updCpy n f).srch = s.srch ∧ (s.updCpy n f).buf = s.buf ∧ (s.updCpy n
    f).sched = s.sched ∧ (s.updCpy n f).sec = s.sec ∧ (s.updCpy n f).gmu = s.gmu ∧ (s.updCpy n f).fab = s.fab ∧ (s.updCpy n f).hbm = s.hbm
    ∧ (s.updCpy n f).pacer = s.pacer ∧ (s.updCpy n f).mbx = s.mbx ∧ (s.updCpy n f).host = s.host ∧ (s.updCpy n f).fault = s.fault ∧
    (s.updCpy n f).recd = s.recd ∧ (s.updCpy n f).ctr = s.ctr ∧ (s.updCpy n f).boot = s.boot ∧ (s.updCpy n f).pins = s.pins ∧ (s.updCpy n
    f).out = s.out ∧ (s.updCpy n f).free = s.free ∧ (s.updCpy n f).pending = s.pending :=
  by and_intros <;> rfl

@[simp] theorem State.updQ_frame (q : Nat) (f : QState → QState) :
    (s.updQ q f).time = s.time ∧ (s.updQ q f).cfg = s.cfg ∧ (s.updQ q f).inst = s.inst ∧ (s.updQ q f).port = s.port ∧ (s.updQ q f).stride
    = s.stride ∧ (s.updQ q f).pkt = s.pkt ∧ (s.updQ q f).cpy = s.cpy ∧ (s.updQ q f).nextPkt = s.nextPkt ∧ (s.updQ q f).nextCpy = s.nextCpy
    ∧ (s.updQ q f).tbl = s.tbl ∧ (s.updQ q f).learn = s.learn ∧ (s.updQ q f).srch = s.srch ∧ (s.updQ q f).buf = s.buf ∧ (s.updQ q f).sec =
    s.sec ∧ (s.updQ q f).gmu = s.gmu ∧ (s.updQ q f).fab = s.fab ∧ (s.updQ q f).hbm = s.hbm ∧ (s.updQ q f).pacer = s.pacer ∧ (s.updQ q
    f).mbx = s.mbx ∧ (s.updQ q f).host = s.host ∧ (s.updQ q f).fault = s.fault ∧ (s.updQ q f).recd = s.recd ∧ (s.updQ q f).ctr = s.ctr ∧
    (s.updQ q f).boot = s.boot ∧ (s.updQ q f).pins = s.pins ∧ (s.updQ q f).out = s.out ∧ (s.updQ q f).free = s.free ∧ (s.updQ q f).pending
    = s.pending :=
  by and_intros <;> rfl

@[simp] theorem State.updSub_frame (q d : Nat) (f : SubQueue → SubQueue) :
    (s.updSub q d f).time = s.time ∧ (s.updSub q d f).cfg = s.cfg ∧ (s.updSub q d f).inst = s.inst ∧ (s.updSub q d f).port = s.port ∧
    (s.updSub q d f).stride = s.stride ∧ (s.updSub q d f).pkt = s.pkt ∧ (s.updSub q d f).cpy = s.cpy ∧ (s.updSub q d f).nextPkt =
    s.nextPkt ∧ (s.updSub q d f).nextCpy = s.nextCpy ∧ (s.updSub q d f).tbl = s.tbl ∧ (s.updSub q d f).learn = s.learn ∧ (s.updSub q d
    f).srch = s.srch ∧ (s.updSub q d f).sched = s.sched ∧ (s.updSub q d f).sec = s.sec ∧ (s.updSub q d f).gmu = s.gmu ∧ (s.updSub q d
    f).fab = s.fab ∧ (s.updSub q d f).hbm = s.hbm ∧ (s.updSub q d f).pacer = s.pacer ∧ (s.updSub q d f).mbx = s.mbx ∧ (s.updSub q d
    f).host = s.host ∧ (s.updSub q d f).fault = s.fault ∧ (s.updSub q d f).recd = s.recd ∧ (s.updSub q d f).ctr = s.ctr ∧ (s.updSub q d
    f).boot = s.boot ∧ (s.updSub q d f).pins = s.pins ∧ (s.updSub q d f).out = s.out ∧ (s.updSub q d f).free = s.free ∧ (s.updSub q d
    f).pending = s.pending :=
  by and_intros <;> rfl

@[simp] theorem State.updSec_sec (f : Secure → Secure) : (s.updSec f).sec = f s.sec := rfl

@[simp] theorem State.updSec_frame (f : Secure → Secure) :
    (s.updSec f).time = s.time ∧ (s.updSec f).cfg = s.cfg ∧ (s.updSec f).inst = s.inst ∧ (s.updSec f).port = s.port ∧ (s.updSec f).stride
    = s.stride ∧ (s.updSec f).pkt = s.pkt ∧ (s.updSec f).cpy = s.cpy ∧ (s.updSec f).nextPkt = s.nextPkt ∧ (s.updSec f).nextCpy = s.nextCpy
    ∧ (s.updSec f).tbl = s.tbl ∧ (s.updSec f).learn = s.learn ∧ (s.updSec f).srch = s.srch ∧ (s.updSec f).buf = s.buf ∧ (s.updSec f).sched
    = s.sched ∧ (s.updSec f).gmu = s.gmu ∧ (s.updSec f).fab = s.fab ∧ (s.updSec f).hbm = s.hbm ∧ (s.updSec f).pacer = s.pacer ∧ (s.updSec
    f).mbx = s.mbx ∧ (s.updSec f).host = s.host ∧ (s.updSec f).fault = s.fault ∧ (s.updSec f).recd = s.recd ∧ (s.updSec f).ctr = s.ctr ∧
    (s.updSec f).boot = s.boot ∧ (s.updSec f).pins = s.pins ∧ (s.updSec f).out = s.out ∧ (s.updSec f).free = s.free ∧ (s.updSec f).pending
    = s.pending :=
  by and_intros <;> rfl

@[simp] theorem State.updKey_frame (k : Nat) (f : KeySlot → KeySlot) :
    (s.updKey k f).time = s.time ∧ (s.updKey k f).cfg = s.cfg ∧ (s.updKey k f).inst = s.inst ∧ (s.updKey k f).port = s.port ∧ (s.updKey k
    f).stride = s.stride ∧ (s.updKey k f).pkt = s.pkt ∧ (s.updKey k f).cpy = s.cpy ∧ (s.updKey k f).nextPkt = s.nextPkt ∧ (s.updKey k
    f).nextCpy = s.nextCpy ∧ (s.updKey k f).tbl = s.tbl ∧ (s.updKey k f).learn = s.learn ∧ (s.updKey k f).srch = s.srch ∧ (s.updKey k
    f).buf = s.buf ∧ (s.updKey k f).sched = s.sched ∧ (s.updKey k f).gmu = s.gmu ∧ (s.updKey k f).fab = s.fab ∧ (s.updKey k f).hbm = s.hbm
    ∧ (s.updKey k f).pacer = s.pacer ∧ (s.updKey k f).mbx = s.mbx ∧ (s.updKey k f).host = s.host ∧ (s.updKey k f).fault = s.fault ∧
    (s.updKey k f).recd = s.recd ∧ (s.updKey k f).ctr = s.ctr ∧ (s.updKey k f).boot = s.boot ∧ (s.updKey k f).pins = s.pins ∧ (s.updKey k
    f).out = s.out ∧ (s.updKey k f).free = s.free ∧ (s.updKey k f).pending = s.pending :=
  by and_intros <;> rfl

@[simp] theorem State.updAssoc_frame (a : Nat) (f : AssocState → AssocState) :
    (s.updAssoc a f).time = s.time ∧ (s.updAssoc a f).cfg = s.cfg ∧ (s.updAssoc a f).inst = s.inst ∧ (s.updAssoc a f).port = s.port ∧
    (s.updAssoc a f).stride = s.stride ∧ (s.updAssoc a f).pkt = s.pkt ∧ (s.updAssoc a f).cpy = s.cpy ∧ (s.updAssoc a f).nextPkt =
    s.nextPkt ∧ (s.updAssoc a f).nextCpy = s.nextCpy ∧ (s.updAssoc a f).tbl = s.tbl ∧ (s.updAssoc a f).learn = s.learn ∧ (s.updAssoc a
    f).srch = s.srch ∧ (s.updAssoc a f).buf = s.buf ∧ (s.updAssoc a f).sched = s.sched ∧ (s.updAssoc a f).gmu = s.gmu ∧ (s.updAssoc a
    f).fab = s.fab ∧ (s.updAssoc a f).hbm = s.hbm ∧ (s.updAssoc a f).pacer = s.pacer ∧ (s.updAssoc a f).mbx = s.mbx ∧ (s.updAssoc a
    f).host = s.host ∧ (s.updAssoc a f).fault = s.fault ∧ (s.updAssoc a f).recd = s.recd ∧ (s.updAssoc a f).ctr = s.ctr ∧ (s.updAssoc a
    f).boot = s.boot ∧ (s.updAssoc a f).pins = s.pins ∧ (s.updAssoc a f).out = s.out ∧ (s.updAssoc a f).free = s.free ∧ (s.updAssoc a
    f).pending = s.pending :=
  by and_intros <;> rfl

@[simp] theorem State.updVault_frame (a k : Nat) (f : VaultRec → VaultRec) :
    (s.updVault a k f).time = s.time ∧ (s.updVault a k f).cfg = s.cfg ∧ (s.updVault a k f).inst = s.inst ∧ (s.updVault a k f).port =
    s.port ∧ (s.updVault a k f).stride = s.stride ∧ (s.updVault a k f).pkt = s.pkt ∧ (s.updVault a k f).cpy = s.cpy ∧ (s.updVault a k
    f).nextPkt = s.nextPkt ∧ (s.updVault a k f).nextCpy = s.nextCpy ∧ (s.updVault a k f).tbl = s.tbl ∧ (s.updVault a k f).learn = s.learn
    ∧ (s.updVault a k f).srch = s.srch ∧ (s.updVault a k f).buf = s.buf ∧ (s.updVault a k f).sched = s.sched ∧ (s.updVault a k f).gmu =
    s.gmu ∧ (s.updVault a k f).fab = s.fab ∧ (s.updVault a k f).hbm = s.hbm ∧ (s.updVault a k f).pacer = s.pacer ∧ (s.updVault a k f).mbx
    = s.mbx ∧ (s.updVault a k f).host = s.host ∧ (s.updVault a k f).fault = s.fault ∧ (s.updVault a k f).recd = s.recd ∧ (s.updVault a k
    f).ctr = s.ctr ∧ (s.updVault a k f).boot = s.boot ∧ (s.updVault a k f).pins = s.pins ∧ (s.updVault a k f).out = s.out ∧ (s.updVault a
    k f).free = s.free ∧ (s.updVault a k f).pending = s.pending :=
  by and_intros <;> rfl

@[simp] theorem State.updFill_frame (f : Fill) (g : Fill → Fill) :
    (s.updFill f g).time = s.time ∧ (s.updFill f g).cfg = s.cfg ∧ (s.updFill f g).inst = s.inst ∧ (s.updFill f g).port = s.port ∧
    (s.updFill f g).stride = s.stride ∧ (s.updFill f g).pkt = s.pkt ∧ (s.updFill f g).cpy = s.cpy ∧ (s.updFill f g).nextPkt = s.nextPkt ∧
    (s.updFill f g).nextCpy = s.nextCpy ∧ (s.updFill f g).tbl = s.tbl ∧ (s.updFill f g).learn = s.learn ∧ (s.updFill f g).srch = s.srch ∧
    (s.updFill f g).buf = s.buf ∧ (s.updFill f g).sched = s.sched ∧ (s.updFill f g).gmu = s.gmu ∧ (s.updFill f g).fab = s.fab ∧ (s.updFill
    f g).hbm = s.hbm ∧ (s.updFill f g).pacer = s.pacer ∧ (s.updFill f g).mbx = s.mbx ∧ (s.updFill f g).host = s.host ∧ (s.updFill f
    g).fault = s.fault ∧ (s.updFill f g).recd = s.recd ∧ (s.updFill f g).ctr = s.ctr ∧ (s.updFill f g).boot = s.boot ∧ (s.updFill f
    g).pins = s.pins ∧ (s.updFill f g).out = s.out ∧ (s.updFill f g).free = s.free ∧ (s.updFill f g).pending = s.pending :=
  by and_intros <;> rfl

@[simp] theorem State.setJob_frame (n : Nat) (j : Option CmacJob) :
    (s.setJob n j).time = s.time ∧ (s.setJob n j).cfg = s.cfg ∧ (s.setJob n j).inst = s.inst ∧ (s.setJob n j).port = s.port ∧ (s.setJob n
    j).stride = s.stride ∧ (s.setJob n j).pkt = s.pkt ∧ (s.setJob n j).cpy = s.cpy ∧ (s.setJob n j).nextPkt = s.nextPkt ∧ (s.setJob n
    j).nextCpy = s.nextCpy ∧ (s.setJob n j).tbl = s.tbl ∧ (s.setJob n j).learn = s.learn ∧ (s.setJob n j).srch = s.srch ∧ (s.setJob n
    j).buf = s.buf ∧ (s.setJob n j).sched = s.sched ∧ (s.setJob n j).gmu = s.gmu ∧ (s.setJob n j).fab = s.fab ∧ (s.setJob n j).hbm = s.hbm
    ∧ (s.setJob n j).pacer = s.pacer ∧ (s.setJob n j).mbx = s.mbx ∧ (s.setJob n j).host = s.host ∧ (s.setJob n j).fault = s.fault ∧
    (s.setJob n j).recd = s.recd ∧ (s.setJob n j).ctr = s.ctr ∧ (s.setJob n j).boot = s.boot ∧ (s.setJob n j).pins = s.pins ∧ (s.setJob n
    j).out = s.out ∧ (s.setJob n j).free = s.free ∧ (s.setJob n j).pending = s.pending :=
  by and_intros <;> rfl

@[simp] theorem State.updTap_frame (k : Nat) (f : TapState → TapState) :
    (s.updTap k f).time = s.time ∧ (s.updTap k f).cfg = s.cfg ∧ (s.updTap k f).inst = s.inst ∧ (s.updTap k f).port = s.port ∧ (s.updTap k
    f).stride = s.stride ∧ (s.updTap k f).pkt = s.pkt ∧ (s.updTap k f).cpy = s.cpy ∧ (s.updTap k f).nextPkt = s.nextPkt ∧ (s.updTap k
    f).nextCpy = s.nextCpy ∧ (s.updTap k f).tbl = s.tbl ∧ (s.updTap k f).learn = s.learn ∧ (s.updTap k f).srch = s.srch ∧ (s.updTap k
    f).buf = s.buf ∧ (s.updTap k f).sched = s.sched ∧ (s.updTap k f).sec = s.sec ∧ (s.updTap k f).fab = s.fab ∧ (s.updTap k f).hbm = s.hbm
    ∧ (s.updTap k f).pacer = s.pacer ∧ (s.updTap k f).mbx = s.mbx ∧ (s.updTap k f).host = s.host ∧ (s.updTap k f).fault = s.fault ∧
    (s.updTap k f).recd = s.recd ∧ (s.updTap k f).ctr = s.ctr ∧ (s.updTap k f).boot = s.boot ∧ (s.updTap k f).pins = s.pins ∧ (s.updTap k
    f).out = s.out ∧ (s.updTap k f).free = s.free ∧ (s.updTap k f).pending = s.pending :=
  by and_intros <;> rfl

@[simp] theorem State.updTrig_frame (k : Nat) (f : Trigger → Trigger) :
    (s.updTrig k f).time = s.time ∧ (s.updTrig k f).cfg = s.cfg ∧ (s.updTrig k f).inst = s.inst ∧ (s.updTrig k f).port = s.port ∧
    (s.updTrig k f).stride = s.stride ∧ (s.updTrig k f).pkt = s.pkt ∧ (s.updTrig k f).cpy = s.cpy ∧ (s.updTrig k f).nextPkt = s.nextPkt ∧
    (s.updTrig k f).nextCpy = s.nextCpy ∧ (s.updTrig k f).tbl = s.tbl ∧ (s.updTrig k f).learn = s.learn ∧ (s.updTrig k f).srch = s.srch ∧
    (s.updTrig k f).buf = s.buf ∧ (s.updTrig k f).sched = s.sched ∧ (s.updTrig k f).sec = s.sec ∧ (s.updTrig k f).fab = s.fab ∧ (s.updTrig
    k f).hbm = s.hbm ∧ (s.updTrig k f).pacer = s.pacer ∧ (s.updTrig k f).mbx = s.mbx ∧ (s.updTrig k f).host = s.host ∧ (s.updTrig k
    f).fault = s.fault ∧ (s.updTrig k f).recd = s.recd ∧ (s.updTrig k f).ctr = s.ctr ∧ (s.updTrig k f).boot = s.boot ∧ (s.updTrig k
    f).pins = s.pins ∧ (s.updTrig k f).out = s.out ∧ (s.updTrig k f).free = s.free ∧ (s.updTrig k f).pending = s.pending :=
  by and_intros <;> rfl

@[simp] theorem State.updLearn_learn (f : Learning → Learning) : (s.updLearn f).learn = f s.learn := rfl

@[simp] theorem State.updLearn_frame (f : Learning → Learning) :
    (s.updLearn f).time = s.time ∧ (s.updLearn f).cfg = s.cfg ∧ (s.updLearn f).inst = s.inst ∧ (s.updLearn f).port = s.port ∧ (s.updLearn
    f).stride = s.stride ∧ (s.updLearn f).pkt = s.pkt ∧ (s.updLearn f).cpy = s.cpy ∧ (s.updLearn f).nextPkt = s.nextPkt ∧ (s.updLearn
    f).nextCpy = s.nextCpy ∧ (s.updLearn f).tbl = s.tbl ∧ (s.updLearn f).srch = s.srch ∧ (s.updLearn f).buf = s.buf ∧ (s.updLearn f).sched
    = s.sched ∧ (s.updLearn f).sec = s.sec ∧ (s.updLearn f).gmu = s.gmu ∧ (s.updLearn f).fab = s.fab ∧ (s.updLearn f).hbm = s.hbm ∧
    (s.updLearn f).pacer = s.pacer ∧ (s.updLearn f).mbx = s.mbx ∧ (s.updLearn f).host = s.host ∧ (s.updLearn f).fault = s.fault ∧
    (s.updLearn f).recd = s.recd ∧ (s.updLearn f).ctr = s.ctr ∧ (s.updLearn f).boot = s.boot ∧ (s.updLearn f).pins = s.pins ∧ (s.updLearn
    f).out = s.out ∧ (s.updLearn f).free = s.free ∧ (s.updLearn f).pending = s.pending :=
  by and_intros <;> rfl

@[simp] theorem State.updTbl_tbl (f : Tables → Tables) : (s.updTbl f).tbl = f s.tbl := rfl

@[simp] theorem State.updTbl_frame (f : Tables → Tables) :
    (s.updTbl f).time = s.time ∧ (s.updTbl f).cfg = s.cfg ∧ (s.updTbl f).inst = s.inst ∧ (s.updTbl f).port = s.port ∧ (s.updTbl f).stride
    = s.stride ∧ (s.updTbl f).pkt = s.pkt ∧ (s.updTbl f).cpy = s.cpy ∧ (s.updTbl f).nextPkt = s.nextPkt ∧ (s.updTbl f).nextCpy = s.nextCpy
    ∧ (s.updTbl f).learn = s.learn ∧ (s.updTbl f).srch = s.srch ∧ (s.updTbl f).buf = s.buf ∧ (s.updTbl f).sched = s.sched ∧ (s.updTbl
    f).sec = s.sec ∧ (s.updTbl f).gmu = s.gmu ∧ (s.updTbl f).fab = s.fab ∧ (s.updTbl f).hbm = s.hbm ∧ (s.updTbl f).pacer = s.pacer ∧
    (s.updTbl f).mbx = s.mbx ∧ (s.updTbl f).host = s.host ∧ (s.updTbl f).fault = s.fault ∧ (s.updTbl f).recd = s.recd ∧ (s.updTbl f).ctr =
    s.ctr ∧ (s.updTbl f).boot = s.boot ∧ (s.updTbl f).pins = s.pins ∧ (s.updTbl f).out = s.out ∧ (s.updTbl f).free = s.free ∧ (s.updTbl
    f).pending = s.pending :=
  by and_intros <;> rfl

@[simp] theorem State.setEntry_frame (c : Nat × Nat) (e : Entry) :
    (s.setEntry c e).time = s.time ∧ (s.setEntry c e).cfg = s.cfg ∧ (s.setEntry c e).inst = s.inst ∧ (s.setEntry c e).port = s.port ∧
    (s.setEntry c e).stride = s.stride ∧ (s.setEntry c e).pkt = s.pkt ∧ (s.setEntry c e).cpy = s.cpy ∧ (s.setEntry c e).nextPkt =
    s.nextPkt ∧ (s.setEntry c e).nextCpy = s.nextCpy ∧ (s.setEntry c e).learn = s.learn ∧ (s.setEntry c e).srch = s.srch ∧ (s.setEntry c
    e).buf = s.buf ∧ (s.setEntry c e).sched = s.sched ∧ (s.setEntry c e).sec = s.sec ∧ (s.setEntry c e).gmu = s.gmu ∧ (s.setEntry c e).fab
    = s.fab ∧ (s.setEntry c e).hbm = s.hbm ∧ (s.setEntry c e).pacer = s.pacer ∧ (s.setEntry c e).mbx = s.mbx ∧ (s.setEntry c e).host =
    s.host ∧ (s.setEntry c e).fault = s.fault ∧ (s.setEntry c e).recd = s.recd ∧ (s.setEntry c e).ctr = s.ctr ∧ (s.setEntry c e).boot =
    s.boot ∧ (s.setEntry c e).pins = s.pins ∧ (s.setEntry c e).out = s.out ∧ (s.setEntry c e).free = s.free ∧ (s.setEntry c e).pending =
    s.pending :=
  by and_intros <;> rfl

@[simp] theorem State.setObj_frame (kind index : Nat) (r : ObjRec) :
    (s.setObj kind index r).time = s.time ∧ (s.setObj kind index r).cfg = s.cfg ∧ (s.setObj kind index r).inst = s.inst ∧ (s.setObj kind
    index r).port = s.port ∧ (s.setObj kind index r).stride = s.stride ∧ (s.setObj kind index r).pkt = s.pkt ∧ (s.setObj kind index r).cpy
    = s.cpy ∧ (s.setObj kind index r).nextPkt = s.nextPkt ∧ (s.setObj kind index r).nextCpy = s.nextCpy ∧ (s.setObj kind index r).learn =
    s.learn ∧ (s.setObj kind index r).srch = s.srch ∧ (s.setObj kind index r).buf = s.buf ∧ (s.setObj kind index r).sched = s.sched ∧
    (s.setObj kind index r).sec = s.sec ∧ (s.setObj kind index r).gmu = s.gmu ∧ (s.setObj kind index r).fab = s.fab ∧ (s.setObj kind index
    r).hbm = s.hbm ∧ (s.setObj kind index r).pacer = s.pacer ∧ (s.setObj kind index r).mbx = s.mbx ∧ (s.setObj kind index r).host = s.host
    ∧ (s.setObj kind index r).fault = s.fault ∧ (s.setObj kind index r).recd = s.recd ∧ (s.setObj kind index r).ctr = s.ctr ∧ (s.setObj
    kind index r).boot = s.boot ∧ (s.setObj kind index r).pins = s.pins ∧ (s.setObj kind index r).out = s.out ∧ (s.setObj kind index
    r).free = s.free ∧ (s.setObj kind index r).pending = s.pending :=
  by and_intros <;> rfl

@[simp] theorem State.putObj_frame (kind index : Nat) (l : List (Field × Nat)) :
    (s.putObj kind index l).time = s.time ∧ (s.putObj kind index l).cfg = s.cfg ∧ (s.putObj kind index l).inst = s.inst ∧ (s.putObj kind
    index l).port = s.port ∧ (s.putObj kind index l).stride = s.stride ∧ (s.putObj kind index l).pkt = s.pkt ∧ (s.putObj kind index l).cpy
    = s.cpy ∧ (s.putObj kind index l).nextPkt = s.nextPkt ∧ (s.putObj kind index l).nextCpy = s.nextCpy ∧ (s.putObj kind index l).learn =
    s.learn ∧ (s.putObj kind index l).srch = s.srch ∧ (s.putObj kind index l).buf = s.buf ∧ (s.putObj kind index l).sched = s.sched ∧
    (s.putObj kind index l).sec = s.sec ∧ (s.putObj kind index l).gmu = s.gmu ∧ (s.putObj kind index l).fab = s.fab ∧ (s.putObj kind index
    l).hbm = s.hbm ∧ (s.putObj kind index l).pacer = s.pacer ∧ (s.putObj kind index l).mbx = s.mbx ∧ (s.putObj kind index l).host = s.host
    ∧ (s.putObj kind index l).fault = s.fault ∧ (s.putObj kind index l).recd = s.recd ∧ (s.putObj kind index l).ctr = s.ctr ∧ (s.putObj
    kind index l).boot = s.boot ∧ (s.putObj kind index l).pins = s.pins ∧ (s.putObj kind index l).out = s.out ∧ (s.putObj kind index
    l).free = s.free ∧ (s.putObj kind index l).pending = s.pending :=
  by and_intros <;> rfl

@[simp] theorem State.updFab_fab (f : Fabric → Fabric) : (s.updFab f).fab = f s.fab := rfl

@[simp] theorem State.updFab_frame (f : Fabric → Fabric) :
    (s.updFab f).time = s.time ∧ (s.updFab f).cfg = s.cfg ∧ (s.updFab f).inst = s.inst ∧ (s.updFab f).port = s.port ∧ (s.updFab f).stride
    = s.stride ∧ (s.updFab f).pkt = s.pkt ∧ (s.updFab f).cpy = s.cpy ∧ (s.updFab f).nextPkt = s.nextPkt ∧ (s.updFab f).nextCpy = s.nextCpy
    ∧ (s.updFab f).tbl = s.tbl ∧ (s.updFab f).learn = s.learn ∧ (s.updFab f).srch = s.srch ∧ (s.updFab f).buf = s.buf ∧ (s.updFab f).sched
    = s.sched ∧ (s.updFab f).sec = s.sec ∧ (s.updFab f).gmu = s.gmu ∧ (s.updFab f).hbm = s.hbm ∧ (s.updFab f).pacer = s.pacer ∧ (s.updFab
    f).mbx = s.mbx ∧ (s.updFab f).host = s.host ∧ (s.updFab f).fault = s.fault ∧ (s.updFab f).recd = s.recd ∧ (s.updFab f).ctr = s.ctr ∧
    (s.updFab f).boot = s.boot ∧ (s.updFab f).pins = s.pins ∧ (s.updFab f).out = s.out ∧ (s.updFab f).free = s.free ∧ (s.updFab f).pending
    = s.pending :=
  by and_intros <;> rfl

@[simp] theorem State.updAnchor_frame (x : Nat) (g : Anchor → Anchor) :
    (s.updAnchor x g).time = s.time ∧ (s.updAnchor x g).cfg = s.cfg ∧ (s.updAnchor x g).inst = s.inst ∧ (s.updAnchor x g).port = s.port ∧
    (s.updAnchor x g).stride = s.stride ∧ (s.updAnchor x g).pkt = s.pkt ∧ (s.updAnchor x g).cpy = s.cpy ∧ (s.updAnchor x g).nextPkt =
    s.nextPkt ∧ (s.updAnchor x g).nextCpy = s.nextCpy ∧ (s.updAnchor x g).tbl = s.tbl ∧ (s.updAnchor x g).learn = s.learn ∧ (s.updAnchor x
    g).srch = s.srch ∧ (s.updAnchor x g).buf = s.buf ∧ (s.updAnchor x g).sched = s.sched ∧ (s.updAnchor x g).sec = s.sec ∧ (s.updAnchor x
    g).gmu = s.gmu ∧ (s.updAnchor x g).hbm = s.hbm ∧ (s.updAnchor x g).pacer = s.pacer ∧ (s.updAnchor x g).mbx = s.mbx ∧ (s.updAnchor x
    g).host = s.host ∧ (s.updAnchor x g).fault = s.fault ∧ (s.updAnchor x g).recd = s.recd ∧ (s.updAnchor x g).ctr = s.ctr ∧ (s.updAnchor
    x g).boot = s.boot ∧ (s.updAnchor x g).pins = s.pins ∧ (s.updAnchor x g).out = s.out ∧ (s.updAnchor x g).free = s.free ∧ (s.updAnchor
    x g).pending = s.pending :=
  by and_intros <;> rfl

@[simp] theorem State.updPc_frame (pc : Nat) (f : Pc → Pc) :
    (s.updPc pc f).time = s.time ∧ (s.updPc pc f).cfg = s.cfg ∧ (s.updPc pc f).inst = s.inst ∧ (s.updPc pc f).port = s.port ∧ (s.updPc pc
    f).stride = s.stride ∧ (s.updPc pc f).pkt = s.pkt ∧ (s.updPc pc f).cpy = s.cpy ∧ (s.updPc pc f).nextPkt = s.nextPkt ∧ (s.updPc pc
    f).nextCpy = s.nextCpy ∧ (s.updPc pc f).tbl = s.tbl ∧ (s.updPc pc f).learn = s.learn ∧ (s.updPc pc f).srch = s.srch ∧ (s.updPc pc
    f).buf = s.buf ∧ (s.updPc pc f).sched = s.sched ∧ (s.updPc pc f).sec = s.sec ∧ (s.updPc pc f).gmu = s.gmu ∧ (s.updPc pc f).fab = s.fab
    ∧ (s.updPc pc f).pacer = s.pacer ∧ (s.updPc pc f).mbx = s.mbx ∧ (s.updPc pc f).host = s.host ∧ (s.updPc pc f).fault = s.fault ∧
    (s.updPc pc f).recd = s.recd ∧ (s.updPc pc f).ctr = s.ctr ∧ (s.updPc pc f).boot = s.boot ∧ (s.updPc pc f).pins = s.pins ∧ (s.updPc pc
    f).out = s.out ∧ (s.updPc pc f).free = s.free ∧ (s.updPc pc f).pending = s.pending :=
  by and_intros <;> rfl

@[simp] theorem State.updThread_frame (t : Nat) (f : Thread → Thread) :
    (s.updThread t f).time = s.time ∧ (s.updThread t f).cfg = s.cfg ∧ (s.updThread t f).inst = s.inst ∧ (s.updThread t f).port = s.port ∧
    (s.updThread t f).stride = s.stride ∧ (s.updThread t f).pkt = s.pkt ∧ (s.updThread t f).cpy = s.cpy ∧ (s.updThread t f).nextPkt =
    s.nextPkt ∧ (s.updThread t f).nextCpy = s.nextCpy ∧ (s.updThread t f).tbl = s.tbl ∧ (s.updThread t f).learn = s.learn ∧ (s.updThread t
    f).srch = s.srch ∧ (s.updThread t f).buf = s.buf ∧ (s.updThread t f).sched = s.sched ∧ (s.updThread t f).sec = s.sec ∧ (s.updThread t
    f).gmu = s.gmu ∧ (s.updThread t f).fab = s.fab ∧ (s.updThread t f).hbm = s.hbm ∧ (s.updThread t f).mbx = s.mbx ∧ (s.updThread t
    f).host = s.host ∧ (s.updThread t f).fault = s.fault ∧ (s.updThread t f).recd = s.recd ∧ (s.updThread t f).ctr = s.ctr ∧ (s.updThread
    t f).boot = s.boot ∧ (s.updThread t f).pins = s.pins ∧ (s.updThread t f).out = s.out ∧ (s.updThread t f).free = s.free ∧ (s.updThread
    t f).pending = s.pending :=
  by and_intros <;> rfl

@[simp] theorem State.updChan_frame (c : Nat) (f : Channel → Channel) :
    (s.updChan c f).time = s.time ∧ (s.updChan c f).cfg = s.cfg ∧ (s.updChan c f).inst = s.inst ∧ (s.updChan c f).port = s.port ∧
    (s.updChan c f).stride = s.stride ∧ (s.updChan c f).pkt = s.pkt ∧ (s.updChan c f).cpy = s.cpy ∧ (s.updChan c f).nextPkt = s.nextPkt ∧
    (s.updChan c f).nextCpy = s.nextCpy ∧ (s.updChan c f).tbl = s.tbl ∧ (s.updChan c f).learn = s.learn ∧ (s.updChan c f).srch = s.srch ∧
    (s.updChan c f).buf = s.buf ∧ (s.updChan c f).sched = s.sched ∧ (s.updChan c f).sec = s.sec ∧ (s.updChan c f).gmu = s.gmu ∧ (s.updChan
    c f).fab = s.fab ∧ (s.updChan c f).hbm = s.hbm ∧ (s.updChan c f).mbx = s.mbx ∧ (s.updChan c f).host = s.host ∧ (s.updChan c f).fault =
    s.fault ∧ (s.updChan c f).recd = s.recd ∧ (s.updChan c f).ctr = s.ctr ∧ (s.updChan c f).boot = s.boot ∧ (s.updChan c f).pins = s.pins
    ∧ (s.updChan c f).out = s.out ∧ (s.updChan c f).free = s.free ∧ (s.updChan c f).pending = s.pending :=
  by and_intros <;> rfl

@[simp] theorem State.setAsk_frame (n : Nat) (a : Option Ask) :
    (s.setAsk n a).time = s.time ∧ (s.setAsk n a).cfg = s.cfg ∧ (s.setAsk n a).inst = s.inst ∧ (s.setAsk n a).port = s.port ∧ (s.setAsk n
    a).stride = s.stride ∧ (s.setAsk n a).pkt = s.pkt ∧ (s.setAsk n a).cpy = s.cpy ∧ (s.setAsk n a).nextPkt = s.nextPkt ∧ (s.setAsk n
    a).nextCpy = s.nextCpy ∧ (s.setAsk n a).tbl = s.tbl ∧ (s.setAsk n a).learn = s.learn ∧ (s.setAsk n a).srch = s.srch ∧ (s.setAsk n
    a).buf = s.buf ∧ (s.setAsk n a).sched = s.sched ∧ (s.setAsk n a).sec = s.sec ∧ (s.setAsk n a).gmu = s.gmu ∧ (s.setAsk n a).fab = s.fab
    ∧ (s.setAsk n a).hbm = s.hbm ∧ (s.setAsk n a).mbx = s.mbx ∧ (s.setAsk n a).host = s.host ∧ (s.setAsk n a).fault = s.fault ∧ (s.setAsk
    n a).recd = s.recd ∧ (s.setAsk n a).ctr = s.ctr ∧ (s.setAsk n a).boot = s.boot ∧ (s.setAsk n a).pins = s.pins ∧ (s.setAsk n a).out =
    s.out ∧ (s.setAsk n a).free = s.free ∧ (s.setAsk n a).pending = s.pending :=
  by and_intros <;> rfl

@[simp] theorem State.updSlot_frame (k : Nat) (f : Slot → Slot) :
    (s.updSlot k f).time = s.time ∧ (s.updSlot k f).cfg = s.cfg ∧ (s.updSlot k f).inst = s.inst ∧ (s.updSlot k f).port = s.port ∧
    (s.updSlot k f).stride = s.stride ∧ (s.updSlot k f).pkt = s.pkt ∧ (s.updSlot k f).cpy = s.cpy ∧ (s.updSlot k f).nextPkt = s.nextPkt ∧
    (s.updSlot k f).nextCpy = s.nextCpy ∧ (s.updSlot k f).tbl = s.tbl ∧ (s.updSlot k f).learn = s.learn ∧ (s.updSlot k f).srch = s.srch ∧
    (s.updSlot k f).buf = s.buf ∧ (s.updSlot k f).sched = s.sched ∧ (s.updSlot k f).sec = s.sec ∧ (s.updSlot k f).gmu = s.gmu ∧ (s.updSlot
    k f).fab = s.fab ∧ (s.updSlot k f).hbm = s.hbm ∧ (s.updSlot k f).pacer = s.pacer ∧ (s.updSlot k f).host = s.host ∧ (s.updSlot k
    f).fault = s.fault ∧ (s.updSlot k f).recd = s.recd ∧ (s.updSlot k f).ctr = s.ctr ∧ (s.updSlot k f).boot = s.boot ∧ (s.updSlot k
    f).pins = s.pins ∧ (s.updSlot k f).out = s.out ∧ (s.updSlot k f).free = s.free ∧ (s.updSlot k f).pending = s.pending :=
  by and_intros <;> rfl

@[simp] theorem State.updJob_frame (session seq : Nat) (f : Job → Job) :
    (s.updJob session seq f).time = s.time ∧ (s.updJob session seq f).cfg = s.cfg ∧ (s.updJob session seq f).inst = s.inst ∧ (s.updJob
    session seq f).port = s.port ∧ (s.updJob session seq f).stride = s.stride ∧ (s.updJob session seq f).pkt = s.pkt ∧ (s.updJob session
    seq f).cpy = s.cpy ∧ (s.updJob session seq f).nextPkt = s.nextPkt ∧ (s.updJob session seq f).nextCpy = s.nextCpy ∧ (s.updJob session
    seq f).tbl = s.tbl ∧ (s.updJob session seq f).learn = s.learn ∧ (s.updJob session seq f).srch = s.srch ∧ (s.updJob session seq f).buf
    = s.buf ∧ (s.updJob session seq f).sched = s.sched ∧ (s.updJob session seq f).sec = s.sec ∧ (s.updJob session seq f).gmu = s.gmu ∧
    (s.updJob session seq f).fab = s.fab ∧ (s.updJob session seq f).hbm = s.hbm ∧ (s.updJob session seq f).pacer = s.pacer ∧ (s.updJob
    session seq f).host = s.host ∧ (s.updJob session seq f).fault = s.fault ∧ (s.updJob session seq f).recd = s.recd ∧ (s.updJob session
    seq f).ctr = s.ctr ∧ (s.updJob session seq f).boot = s.boot ∧ (s.updJob session seq f).pins = s.pins ∧ (s.updJob session seq f).out =
    s.out ∧ (s.updJob session seq f).free = s.free ∧ (s.updJob session seq f).pending = s.pending :=
  by and_intros <;> rfl

@[simp] theorem State.setRoot_frame (k : Nat) (r : Root) :
    (s.setRoot k r).time = s.time ∧ (s.setRoot k r).cfg = s.cfg ∧ (s.setRoot k r).inst = s.inst ∧ (s.setRoot k r).port = s.port ∧
    (s.setRoot k r).stride = s.stride ∧ (s.setRoot k r).pkt = s.pkt ∧ (s.setRoot k r).cpy = s.cpy ∧ (s.setRoot k r).nextPkt = s.nextPkt ∧
    (s.setRoot k r).nextCpy = s.nextCpy ∧ (s.setRoot k r).tbl = s.tbl ∧ (s.setRoot k r).learn = s.learn ∧ (s.setRoot k r).srch = s.srch ∧
    (s.setRoot k r).buf = s.buf ∧ (s.setRoot k r).sched = s.sched ∧ (s.setRoot k r).sec = s.sec ∧ (s.setRoot k r).gmu = s.gmu ∧ (s.setRoot
    k r).fab = s.fab ∧ (s.setRoot k r).hbm = s.hbm ∧ (s.setRoot k r).pacer = s.pacer ∧ (s.setRoot k r).host = s.host ∧ (s.setRoot k
    r).fault = s.fault ∧ (s.setRoot k r).recd = s.recd ∧ (s.setRoot k r).ctr = s.ctr ∧ (s.setRoot k r).boot = s.boot ∧ (s.setRoot k
    r).pins = s.pins ∧ (s.setRoot k r).out = s.out ∧ (s.setRoot k r).free = s.free ∧ (s.setRoot k r).pending = s.pending :=
  by and_intros <;> rfl

@[simp] theorem State.putTransfer_frame (k : Nat) (t : Transfer) :
    (s.putTransfer k t).time = s.time ∧ (s.putTransfer k t).cfg = s.cfg ∧ (s.putTransfer k t).inst = s.inst ∧ (s.putTransfer k t).port =
    s.port ∧ (s.putTransfer k t).stride = s.stride ∧ (s.putTransfer k t).pkt = s.pkt ∧ (s.putTransfer k t).cpy = s.cpy ∧ (s.putTransfer k
    t).nextPkt = s.nextPkt ∧ (s.putTransfer k t).nextCpy = s.nextCpy ∧ (s.putTransfer k t).tbl = s.tbl ∧ (s.putTransfer k t).learn =
    s.learn ∧ (s.putTransfer k t).srch = s.srch ∧ (s.putTransfer k t).buf = s.buf ∧ (s.putTransfer k t).sched = s.sched ∧ (s.putTransfer k
    t).sec = s.sec ∧ (s.putTransfer k t).gmu = s.gmu ∧ (s.putTransfer k t).fab = s.fab ∧ (s.putTransfer k t).hbm = s.hbm ∧ (s.putTransfer
    k t).pacer = s.pacer ∧ (s.putTransfer k t).host = s.host ∧ (s.putTransfer k t).fault = s.fault ∧ (s.putTransfer k t).recd = s.recd ∧
    (s.putTransfer k t).ctr = s.ctr ∧ (s.putTransfer k t).boot = s.boot ∧ (s.putTransfer k t).pins = s.pins ∧ (s.putTransfer k t).out =
    s.out ∧ (s.putTransfer k t).free = s.free ∧ (s.putTransfer k t).pending = s.pending :=
  by and_intros <;> rfl

@[simp] theorem State.updPage_frame (i : Nat) (f : RingPage → RingPage) :
    (s.updPage i f).time = s.time ∧ (s.updPage i f).cfg = s.cfg ∧ (s.updPage i f).inst = s.inst ∧ (s.updPage i f).port = s.port ∧
    (s.updPage i f).stride = s.stride ∧ (s.updPage i f).pkt = s.pkt ∧ (s.updPage i f).cpy = s.cpy ∧ (s.updPage i f).nextPkt = s.nextPkt ∧
    (s.updPage i f).nextCpy = s.nextCpy ∧ (s.updPage i f).tbl = s.tbl ∧ (s.updPage i f).learn = s.learn ∧ (s.updPage i f).srch = s.srch ∧
    (s.updPage i f).buf = s.buf ∧ (s.updPage i f).sched = s.sched ∧ (s.updPage i f).sec = s.sec ∧ (s.updPage i f).gmu = s.gmu ∧ (s.updPage
    i f).fab = s.fab ∧ (s.updPage i f).hbm = s.hbm ∧ (s.updPage i f).pacer = s.pacer ∧ (s.updPage i f).mbx = s.mbx ∧ (s.updPage i f).fault
    = s.fault ∧ (s.updPage i f).recd = s.recd ∧ (s.updPage i f).ctr = s.ctr ∧ (s.updPage i f).boot = s.boot ∧ (s.updPage i f).pins =
    s.pins ∧ (s.updPage i f).out = s.out ∧ (s.updPage i f).free = s.free ∧ (s.updPage i f).pending = s.pending :=
  by and_intros <;> rfl

@[simp] theorem State.updSrc_frame (src : Nat) (f : FaultSrc → FaultSrc) :
    (s.updSrc src f).time = s.time ∧ (s.updSrc src f).cfg = s.cfg ∧ (s.updSrc src f).inst = s.inst ∧ (s.updSrc src f).port = s.port ∧
    (s.updSrc src f).stride = s.stride ∧ (s.updSrc src f).pkt = s.pkt ∧ (s.updSrc src f).cpy = s.cpy ∧ (s.updSrc src f).nextPkt =
    s.nextPkt ∧ (s.updSrc src f).nextCpy = s.nextCpy ∧ (s.updSrc src f).tbl = s.tbl ∧ (s.updSrc src f).learn = s.learn ∧ (s.updSrc src
    f).srch = s.srch ∧ (s.updSrc src f).buf = s.buf ∧ (s.updSrc src f).sched = s.sched ∧ (s.updSrc src f).sec = s.sec ∧ (s.updSrc src
    f).gmu = s.gmu ∧ (s.updSrc src f).fab = s.fab ∧ (s.updSrc src f).hbm = s.hbm ∧ (s.updSrc src f).pacer = s.pacer ∧ (s.updSrc src f).mbx
    = s.mbx ∧ (s.updSrc src f).host = s.host ∧ (s.updSrc src f).recd = s.recd ∧ (s.updSrc src f).ctr = s.ctr ∧ (s.updSrc src f).boot =
    s.boot ∧ (s.updSrc src f).pins = s.pins ∧ (s.updSrc src f).out = s.out ∧ (s.updSrc src f).free = s.free ∧ (s.updSrc src f).pending =
    s.pending :=
  by and_intros <;> rfl

@[simp] theorem State.updUnit_frame (src unit : Nat) (f : FaultUnit → FaultUnit) :
    (s.updUnit src unit f).time = s.time ∧ (s.updUnit src unit f).cfg = s.cfg ∧ (s.updUnit src unit f).inst = s.inst ∧ (s.updUnit src unit
    f).port = s.port ∧ (s.updUnit src unit f).stride = s.stride ∧ (s.updUnit src unit f).pkt = s.pkt ∧ (s.updUnit src unit f).cpy = s.cpy
    ∧ (s.updUnit src unit f).nextPkt = s.nextPkt ∧ (s.updUnit src unit f).nextCpy = s.nextCpy ∧ (s.updUnit src unit f).tbl = s.tbl ∧
    (s.updUnit src unit f).learn = s.learn ∧ (s.updUnit src unit f).srch = s.srch ∧ (s.updUnit src unit f).buf = s.buf ∧ (s.updUnit src
    unit f).sched = s.sched ∧ (s.updUnit src unit f).sec = s.sec ∧ (s.updUnit src unit f).gmu = s.gmu ∧ (s.updUnit src unit f).fab = s.fab
    ∧ (s.updUnit src unit f).hbm = s.hbm ∧ (s.updUnit src unit f).pacer = s.pacer ∧ (s.updUnit src unit f).mbx = s.mbx ∧ (s.updUnit src
    unit f).host = s.host ∧ (s.updUnit src unit f).recd = s.recd ∧ (s.updUnit src unit f).ctr = s.ctr ∧ (s.updUnit src unit f).boot =
    s.boot ∧ (s.updUnit src unit f).pins = s.pins ∧ (s.updUnit src unit f).out = s.out ∧ (s.updUnit src unit f).free = s.free ∧ (s.updUnit
    src unit f).pending = s.pending :=
  by and_intros <;> rfl

@[simp] theorem State.setStat_frame (st : Stat) (idx v : Nat) :
    (s.setStat st idx v).time = s.time ∧ (s.setStat st idx v).cfg = s.cfg ∧ (s.setStat st idx v).inst = s.inst ∧ (s.setStat st idx v).port
    = s.port ∧ (s.setStat st idx v).stride = s.stride ∧ (s.setStat st idx v).pkt = s.pkt ∧ (s.setStat st idx v).cpy = s.cpy ∧ (s.setStat
    st idx v).nextPkt = s.nextPkt ∧ (s.setStat st idx v).nextCpy = s.nextCpy ∧ (s.setStat st idx v).tbl = s.tbl ∧ (s.setStat st idx
    v).learn = s.learn ∧ (s.setStat st idx v).srch = s.srch ∧ (s.setStat st idx v).buf = s.buf ∧ (s.setStat st idx v).sched = s.sched ∧
    (s.setStat st idx v).sec = s.sec ∧ (s.setStat st idx v).gmu = s.gmu ∧ (s.setStat st idx v).fab = s.fab ∧ (s.setStat st idx v).hbm =
    s.hbm ∧ (s.setStat st idx v).pacer = s.pacer ∧ (s.setStat st idx v).mbx = s.mbx ∧ (s.setStat st idx v).host = s.host ∧ (s.setStat st
    idx v).fault = s.fault ∧ (s.setStat st idx v).recd = s.recd ∧ (s.setStat st idx v).boot = s.boot ∧ (s.setStat st idx v).pins = s.pins
    ∧ (s.setStat st idx v).out = s.out ∧ (s.setStat st idx v).free = s.free ∧ (s.setStat st idx v).pending = s.pending :=
  by and_intros <;> rfl

@[simp] theorem State.updCtr_frame (g : Nat) (f : Ctr → Ctr) :
    (s.updCtr g f).time = s.time ∧ (s.updCtr g f).cfg = s.cfg ∧ (s.updCtr g f).inst = s.inst ∧ (s.updCtr g f).port = s.port ∧ (s.updCtr g
    f).stride = s.stride ∧ (s.updCtr g f).pkt = s.pkt ∧ (s.updCtr g f).cpy = s.cpy ∧ (s.updCtr g f).nextPkt = s.nextPkt ∧ (s.updCtr g
    f).nextCpy = s.nextCpy ∧ (s.updCtr g f).tbl = s.tbl ∧ (s.updCtr g f).learn = s.learn ∧ (s.updCtr g f).srch = s.srch ∧ (s.updCtr g
    f).buf = s.buf ∧ (s.updCtr g f).sched = s.sched ∧ (s.updCtr g f).sec = s.sec ∧ (s.updCtr g f).gmu = s.gmu ∧ (s.updCtr g f).fab = s.fab
    ∧ (s.updCtr g f).hbm = s.hbm ∧ (s.updCtr g f).pacer = s.pacer ∧ (s.updCtr g f).mbx = s.mbx ∧ (s.updCtr g f).host = s.host ∧ (s.updCtr
    g f).fault = s.fault ∧ (s.updCtr g f).recd = s.recd ∧ (s.updCtr g f).boot = s.boot ∧ (s.updCtr g f).pins = s.pins ∧ (s.updCtr g f).out
    = s.out ∧ (s.updCtr g f).free = s.free ∧ (s.updCtr g f).pending = s.pending :=
  by and_intros <;> rfl

@[simp] theorem State.updInst_inst (i : Nat) (f : Inst → Inst) : (s.updInst i f).inst = s.inst.upd i f := rfl

@[simp] theorem State.updInst_frame (i : Nat) (f : Inst → Inst) :
    (s.updInst i f).time = s.time ∧ (s.updInst i f).cfg = s.cfg ∧ (s.updInst i f).port = s.port ∧ (s.updInst i f).stride = s.stride ∧
    (s.updInst i f).pkt = s.pkt ∧ (s.updInst i f).cpy = s.cpy ∧ (s.updInst i f).nextPkt = s.nextPkt ∧ (s.updInst i f).nextCpy = s.nextCpy
    ∧ (s.updInst i f).tbl = s.tbl ∧ (s.updInst i f).learn = s.learn ∧ (s.updInst i f).srch = s.srch ∧ (s.updInst i f).buf = s.buf ∧
    (s.updInst i f).sched = s.sched ∧ (s.updInst i f).sec = s.sec ∧ (s.updInst i f).gmu = s.gmu ∧ (s.updInst i f).fab = s.fab ∧ (s.updInst
    i f).hbm = s.hbm ∧ (s.updInst i f).pacer = s.pacer ∧ (s.updInst i f).mbx = s.mbx ∧ (s.updInst i f).host = s.host ∧ (s.updInst i
    f).fault = s.fault ∧ (s.updInst i f).recd = s.recd ∧ (s.updInst i f).ctr = s.ctr ∧ (s.updInst i f).boot = s.boot ∧ (s.updInst i
    f).pins = s.pins ∧ (s.updInst i f).out = s.out ∧ (s.updInst i f).free = s.free ∧ (s.updInst i f).pending = s.pending :=
  by and_intros <;> rfl

@[simp] theorem State.updCfg_cfg (f : Cfg → Cfg) : (s.updCfg f).cfg = f s.cfg := rfl

@[simp] theorem State.updCfg_frame (f : Cfg → Cfg) :
    (s.updCfg f).time = s.time ∧ (s.updCfg f).inst = s.inst ∧ (s.updCfg f).port = s.port ∧ (s.updCfg f).stride = s.stride ∧ (s.updCfg
    f).pkt = s.pkt ∧ (s.updCfg f).cpy = s.cpy ∧ (s.updCfg f).nextPkt = s.nextPkt ∧ (s.updCfg f).nextCpy = s.nextCpy ∧ (s.updCfg f).tbl =
    s.tbl ∧ (s.updCfg f).learn = s.learn ∧ (s.updCfg f).srch = s.srch ∧ (s.updCfg f).buf = s.buf ∧ (s.updCfg f).sched = s.sched ∧
    (s.updCfg f).sec = s.sec ∧ (s.updCfg f).gmu = s.gmu ∧ (s.updCfg f).fab = s.fab ∧ (s.updCfg f).hbm = s.hbm ∧ (s.updCfg f).pacer =
    s.pacer ∧ (s.updCfg f).mbx = s.mbx ∧ (s.updCfg f).host = s.host ∧ (s.updCfg f).fault = s.fault ∧ (s.updCfg f).recd = s.recd ∧
    (s.updCfg f).ctr = s.ctr ∧ (s.updCfg f).boot = s.boot ∧ (s.updCfg f).pins = s.pins ∧ (s.updCfg f).out = s.out ∧ (s.updCfg f).free =
    s.free ∧ (s.updCfg f).pending = s.pending :=
  by and_intros <;> rfl

@[simp] theorem State.drawn_free (n : Nat) : (s.drawn n).free = s.free + n := rfl

@[simp] theorem State.drawn_frame (n : Nat) :
    (s.drawn n).time = s.time ∧ (s.drawn n).cfg = s.cfg ∧ (s.drawn n).inst = s.inst ∧ (s.drawn n).port = s.port ∧ (s.drawn n).stride =
    s.stride ∧ (s.drawn n).pkt = s.pkt ∧ (s.drawn n).cpy = s.cpy ∧ (s.drawn n).nextPkt = s.nextPkt ∧ (s.drawn n).nextCpy = s.nextCpy ∧
    (s.drawn n).tbl = s.tbl ∧ (s.drawn n).learn = s.learn ∧ (s.drawn n).srch = s.srch ∧ (s.drawn n).buf = s.buf ∧ (s.drawn n).sched =
    s.sched ∧ (s.drawn n).sec = s.sec ∧ (s.drawn n).gmu = s.gmu ∧ (s.drawn n).fab = s.fab ∧ (s.drawn n).hbm = s.hbm ∧ (s.drawn n).pacer =
    s.pacer ∧ (s.drawn n).mbx = s.mbx ∧ (s.drawn n).host = s.host ∧ (s.drawn n).fault = s.fault ∧ (s.drawn n).recd = s.recd ∧ (s.drawn
    n).ctr = s.ctr ∧ (s.drawn n).boot = s.boot ∧ (s.drawn n).pins = s.pins ∧ (s.drawn n).out = s.out ∧ (s.drawn n).pending = s.pending :=
  by and_intros <;> rfl

/-! ### Reading what an update changed -/

@[simp] theorem State.updPort_prt (p : Nat) (f : Port → Port) : (s.updPort p f).prt p = f (s.prt p) := Tab.at_upd_same _ _ _

@[simp] theorem State.updSlot_slot (k : Nat) (f : Slot → Slot) : (s.updSlot k f).mbx.slot.at k = f (s.mbx.slot.at k) := Tab.at_upd_same _ _ _

@[simp] theorem State.updPage_page (i : Nat) (f : RingPage → RingPage) : (s.updPage i f).page i = f (s.page i) := Tab.at_upd_same _ _ _

@[simp] theorem State.updChan_chan (c : Nat) (f : Channel → Channel) : (s.updChan c f).chan c = f (s.chan c) := Tab.at_upd_same _ _ _

@[simp] theorem State.updThread_thread (t : Nat) (f : Thread → Thread) : (s.updThread t f).thread t = f (s.thread t) := Tab.at_upd_same _ _ _

@[simp] theorem State.setObj_obj (kind index : Nat) (r : ObjRec) :
    (s.setObj kind index r).obj kind index = { r with par := recordPar kind r.words } := Tab.at_put_same _ _ _

@[simp] theorem State.updUnit_funit (src unit : Nat) (f : FaultUnit → FaultUnit) :
    (s.updUnit src unit f).funit src unit = f (s.funit src unit) := Tab.at_upd_same _ _ _

@[simp] theorem State.updSub_subq (q d : Nat) (f : SubQueue → SubQueue) : (s.updSub q d f).subq q d = f (s.subq q d) := Tab.at_upd_same _ _ _

end Sys2Proof.Machine
end

