-- ==== Sys2Proof/Laws/Ops.lean ====
section
/-! SUPPORT. What the shared operations can do: each one's effect, and the components it leaves alone. -/
namespace Sys2Proof.Machine

variable (s : State)

/-! ### Walking a list -/

/-- What every round of a walk leaves alone, the walk leaves alone. -/
theorem State.forEach_keeps {α β : Type} (g : State → β) (l : List α) (f : State → α → State)
    (h : ∀ u a, g (f u a) = g u) : g (s.forEach l f) = g s := by
  unfold State.forEach
  induction l generalizing s with
  | nil => rfl
  | cons a l ih => exact (ih (f s a)).trans (h s a)

@[simp] theorem State.forEach_nil {α : Type} (f : State → α → State) : s.forEach [] f = s := rfl

@[simp] theorem State.forEach_cons {α : Type} (a : α) (l : List α) (f : State → α → State) :
    s.forEach (a :: l) f = (f s a).forEach l f := rfl

/-! ### Outcomes -/

/-- A command run by `runs` completes, and changes neither the time unit nor the queue. -/
theorem runs_next (f : State → State) :
    ∃ t, runs f s = .next t ∧ t.time = s.time ∧ t.pending = s.pending := ⟨_, rfl, rfl, rfl⟩

/-- A command run by `runsTime` completes, and leaves the queue alone. -/
theorem runsTime_next (f : State → State) : ∃ t, runsTime f s = .next t ∧ t.pending = s.pending := ⟨_, rfl, rfl⟩

/-- An effect that leaves time and queue alone is the outcome of `runs`. -/
theorem runs_eq (f : State → State) (ht : (f s).time = s.time) (hp : (f s).pending = s.pending) : runs f s = .next (f s) := by
  unfold runs; rw [← ht, ← hp]

theorem runsTime_eq (f : State → State) (hp : (f s).pending = s.pending) : runsTime f s = .next (f s) := by
  unfold runsTime; rw [← hp]

/-- An effect that leaves the time unit alone anyhow. -/
theorem State.timeless_eq (f : State → State) (h : (f s).time = s.time) : s.timeless f = f s := by
  unfold State.timeless; rw [← h]

@[simp] theorem State.timeless_time (f : State → State) : (s.timeless f).time = s.time := rfl

@[simp] theorem State.timeless_pending (f : State → State) : (s.timeless f).pending = (f s).pending := rfl

/-! ### Statistics -/

@[simp] theorem State.count_frame (st : Stat) (i n : Nat) :
    (s.count st i n).time = s.time ∧ (s.count st i n).cfg = s.cfg ∧ (s.count st i n).inst = s.inst ∧ (s.count st i n).port = s.port ∧
    (s.count st i n).stride = s.stride ∧ (s.count st i n).pkt = s.pkt ∧ (s.count st i n).cpy = s.cpy ∧ (s.count st i n).nextPkt =
    s.nextPkt ∧ (s.count st i n).nextCpy = s.nextCpy ∧ (s.count st i n).tbl = s.tbl ∧ (s.count st i n).learn = s.learn ∧ (s.count st i
    n).srch = s.srch ∧ (s.count st i n).buf = s.buf ∧ (s.count st i n).sched = s.sched ∧ (s.count st i n).sec = s.sec ∧ (s.count st i
    n).gmu = s.gmu ∧ (s.count st i n).fab = s.fab ∧ (s.count st i n).hbm = s.hbm ∧ (s.count st i n).pacer = s.pacer ∧ (s.count st i n).mbx
    = s.mbx ∧ (s.count st i n).host = s.host ∧ (s.count st i n).fault = s.fault ∧ (s.count st i n).recd = s.recd ∧ (s.count st i n).boot =
    s.boot ∧ (s.count st i n).pins = s.pins ∧ (s.count st i n).out = s.out ∧ (s.count st i n).free = s.free ∧ (s.count st i n).pending =
    s.pending := by
  unfold State.count; split <;> simp

/-- A statistic changes the counters alone. -/
theorem State.count_only (st : Stat) (i n : Nat) : s.count st i n = { s with ctr := (s.count st i n).ctr } := by
  unfold State.count; split <;> rfl

/-- A statistic gains `n`, saturating at 64 bits. -/
theorem State.count_statVal (st : Stat) (i n : Nat) :
    (s.count st i n).statVal st i = if n = 0 then s.statVal st i else min (2 ^ 64 - 1) (s.statVal st i + n) := by
  unfold State.count
  split
  · rfl
  · simp [State.statVal]

/-! ### Recorder events -/

@[simp] theorem State.log_frame (typ : Nat) (keys items : List Nat) (i : Nat) :
    (s.log typ keys items i).time = s.time ∧ (s.log typ keys items i).cfg = s.cfg ∧ (s.log typ keys items i).inst = s.inst ∧ (s.log typ
    keys items i).port = s.port ∧ (s.log typ keys items i).stride = s.stride ∧ (s.log typ keys items i).pkt = s.pkt ∧ (s.log typ keys
    items i).cpy = s.cpy ∧ (s.log typ keys items i).nextPkt = s.nextPkt ∧ (s.log typ keys items i).nextCpy = s.nextCpy ∧ (s.log typ keys
    items i).tbl = s.tbl ∧ (s.log typ keys items i).learn = s.learn ∧ (s.log typ keys items i).srch = s.srch ∧ (s.log typ keys items
    i).buf = s.buf ∧ (s.log typ keys items i).sched = s.sched ∧ (s.log typ keys items i).sec = s.sec ∧ (s.log typ keys items i).gmu =
    s.gmu ∧ (s.log typ keys items i).fab = s.fab ∧ (s.log typ keys items i).hbm = s.hbm ∧ (s.log typ keys items i).pacer = s.pacer ∧
    (s.log typ keys items i).mbx = s.mbx ∧ (s.log typ keys items i).host = s.host ∧ (s.log typ keys items i).fault = s.fault ∧ (s.log typ
    keys items i).ctr = s.ctr ∧ (s.log typ keys items i).boot = s.boot ∧ (s.log typ keys items i).pins = s.pins ∧ (s.log typ keys items
    i).out = s.out ∧ (s.log typ keys items i).free = s.free ∧ (s.log typ keys items i).pending = s.pending := by
  unfold State.log; simp only []; split <;> simp

@[simp] theorem State.ruleEvent_frame (rule subject kind : Nat) (items : List Nat) (i : Nat) :
    (s.ruleEvent rule subject kind items i).time = s.time ∧ (s.ruleEvent rule subject kind items i).cfg = s.cfg ∧ (s.ruleEvent rule
    subject kind items i).inst = s.inst ∧ (s.ruleEvent rule subject kind items i).port = s.port ∧ (s.ruleEvent rule subject kind items
    i).stride = s.stride ∧ (s.ruleEvent rule subject kind items i).pkt = s.pkt ∧ (s.ruleEvent rule subject kind items i).cpy = s.cpy ∧
    (s.ruleEvent rule subject kind items i).nextPkt = s.nextPkt ∧ (s.ruleEvent rule subject kind items i).nextCpy = s.nextCpy ∧
    (s.ruleEvent rule subject kind items i).tbl = s.tbl ∧ (s.ruleEvent rule subject kind items i).learn = s.learn ∧ (s.ruleEvent rule
    subject kind items i).srch = s.srch ∧ (s.ruleEvent rule subject kind items i).buf = s.buf ∧ (s.ruleEvent rule subject kind items
    i).sched = s.sched ∧ (s.ruleEvent rule subject kind items i).sec = s.sec ∧ (s.ruleEvent rule subject kind items i).gmu = s.gmu ∧
    (s.ruleEvent rule subject kind items i).fab = s.fab ∧ (s.ruleEvent rule subject kind items i).hbm = s.hbm ∧ (s.ruleEvent rule subject
    kind items i).pacer = s.pacer ∧ (s.ruleEvent rule subject kind items i).mbx = s.mbx ∧ (s.ruleEvent rule subject kind items i).host =
    s.host ∧ (s.ruleEvent rule subject kind items i).fault = s.fault ∧ (s.ruleEvent rule subject kind items i).ctr = s.ctr ∧ (s.ruleEvent
    rule subject kind items i).boot = s.boot ∧ (s.ruleEvent rule subject kind items i).pins = s.pins ∧ (s.ruleEvent rule subject kind
    items i).out = s.out ∧ (s.ruleEvent rule subject kind items i).free = s.free ∧ (s.ruleEvent rule subject kind items i).pending =
    s.pending := by
  exact s.log_frame _ _ _ _

/-- An event changes the recorder alone. -/
theorem State.log_only (typ : Nat) (keys items : List Nat) (i : Nat) :
    s.log typ keys items i = { s with recd := (s.log typ keys items i).recd } := by
  unfold State.log; simp only []; split <;> rfl

/-- With room in the input queue and records accepted, an event enters it whole. -/
theorem State.log_accepted (typ : Nat) (keys items : List Nat) (i : Nat) (ha : s.recd.accepting = true)
    (hr : (s.recd.queue.map Event.parts).sum + (s.event typ keys items i).parts ≤ 256) :
    s.log typ keys items i = { s with recd := { s.recd with queue := s.recd.queue ++ [s.event typ keys items i] } } := by
  simp [State.log, ha, hr]

/-! ### Outputs and interrupts -/

@[simp] theorem State.emit_frame (o : Out) :
    (s.emit o).time = s.time ∧ (s.emit o).cfg = s.cfg ∧ (s.emit o).inst = s.inst ∧ (s.emit o).port = s.port ∧ (s.emit o).stride = s.stride
    ∧ (s.emit o).pkt = s.pkt ∧ (s.emit o).cpy = s.cpy ∧ (s.emit o).nextPkt = s.nextPkt ∧ (s.emit o).nextCpy = s.nextCpy ∧ (s.emit o).tbl =
    s.tbl ∧ (s.emit o).learn = s.learn ∧ (s.emit o).srch = s.srch ∧ (s.emit o).buf = s.buf ∧ (s.emit o).sched = s.sched ∧ (s.emit o).sec =
    s.sec ∧ (s.emit o).gmu = s.gmu ∧ (s.emit o).fab = s.fab ∧ (s.emit o).hbm = s.hbm ∧ (s.emit o).pacer = s.pacer ∧ (s.emit o).mbx = s.mbx
    ∧ (s.emit o).host = s.host ∧ (s.emit o).fault = s.fault ∧ (s.emit o).recd = s.recd ∧ (s.emit o).ctr = s.ctr ∧ (s.emit o).boot = s.boot
    ∧ (s.emit o).pins = s.pins ∧ (s.emit o).free = s.free ∧ (s.emit o).pending = s.pending := by
  unfold State.emit; split <;> simp

@[simp] theorem State.dmaWrite_frame (addr : Nat) (bytes : List Byte) :
    (s.dmaWrite addr bytes).time = s.time ∧ (s.dmaWrite addr bytes).cfg = s.cfg ∧ (s.dmaWrite addr bytes).inst = s.inst ∧ (s.dmaWrite addr
    bytes).port = s.port ∧ (s.dmaWrite addr bytes).stride = s.stride ∧ (s.dmaWrite addr bytes).pkt = s.pkt ∧ (s.dmaWrite addr bytes).cpy =
    s.cpy ∧ (s.dmaWrite addr bytes).nextPkt = s.nextPkt ∧ (s.dmaWrite addr bytes).nextCpy = s.nextCpy ∧ (s.dmaWrite addr bytes).tbl =
    s.tbl ∧ (s.dmaWrite addr bytes).learn = s.learn ∧ (s.dmaWrite addr bytes).srch = s.srch ∧ (s.dmaWrite addr bytes).buf = s.buf ∧
    (s.dmaWrite addr bytes).sched = s.sched ∧ (s.dmaWrite addr bytes).sec = s.sec ∧ (s.dmaWrite addr bytes).gmu = s.gmu ∧ (s.dmaWrite addr
    bytes).fab = s.fab ∧ (s.dmaWrite addr bytes).hbm = s.hbm ∧ (s.dmaWrite addr bytes).pacer = s.pacer ∧ (s.dmaWrite addr bytes).mbx =
    s.mbx ∧ (s.dmaWrite addr bytes).host = s.host ∧ (s.dmaWrite addr bytes).fault = s.fault ∧ (s.dmaWrite addr bytes).recd = s.recd ∧
    (s.dmaWrite addr bytes).ctr = s.ctr ∧ (s.dmaWrite addr bytes).boot = s.boot ∧ (s.dmaWrite addr bytes).pins = s.pins ∧ (s.dmaWrite addr
    bytes).free = s.free ∧ (s.dmaWrite addr bytes).pending = s.pending := by
  unfold State.dmaWrite; split
  · exact s.emit_frame _
  · simp

@[simp] theorem State.sendMsix_frame (v : Nat) :
    (s.sendMsix v).time = s.time ∧ (s.sendMsix v).cfg = s.cfg ∧ (s.sendMsix v).inst = s.inst ∧ (s.sendMsix v).port = s.port ∧ (s.sendMsix
    v).stride = s.stride ∧ (s.sendMsix v).pkt = s.pkt ∧ (s.sendMsix v).cpy = s.cpy ∧ (s.sendMsix v).nextPkt = s.nextPkt ∧ (s.sendMsix
    v).nextCpy = s.nextCpy ∧ (s.sendMsix v).tbl = s.tbl ∧ (s.sendMsix v).learn = s.learn ∧ (s.sendMsix v).srch = s.srch ∧ (s.sendMsix
    v).buf = s.buf ∧ (s.sendMsix v).sched = s.sched ∧ (s.sendMsix v).sec = s.sec ∧ (s.sendMsix v).gmu = s.gmu ∧ (s.sendMsix v).fab = s.fab
    ∧ (s.sendMsix v).hbm = s.hbm ∧ (s.sendMsix v).pacer = s.pacer ∧ (s.sendMsix v).mbx = s.mbx ∧ (s.sendMsix v).fault = s.fault ∧
    (s.sendMsix v).recd = s.recd ∧ (s.sendMsix v).ctr = s.ctr ∧ (s.sendMsix v).boot = s.boot ∧ (s.sendMsix v).pins = s.pins ∧ (s.sendMsix
    v).free = s.free ∧ (s.sendMsix v).pending = s.pending := by
  unfold State.sendMsix; simp only []; split
  · simp
  · split <;> simp

/-- An output changes the record of outputs alone. -/
theorem State.emit_only (o : Out) : s.emit o = { s with out := (s.emit o).out } := by
  unfold State.emit; split <;> rfl

theorem State.dmaWrite_only (addr : Nat) (bytes : List Byte) :
    s.dmaWrite addr bytes = { s with out := (s.dmaWrite addr bytes).out } := by
  unfold State.dmaWrite; split
  · exact s.emit_only _
  · rfl

/-- An interrupt changes the host interface and the record of outputs alone. -/
theorem State.sendMsix_only (v : Nat) : s.sendMsix v = { s with host := (s.sendMsix v).host, out := (s.sendMsix v).out } := by
  unfold State.sendMsix; simp only []; split
  · rfl
  · split
    · rw [State.emit_only]
    · rfl

theorem State.setIrq_only (i c m : Nat) : s.setIrq i c m = { s with host := (s.setIrq i c m).host, out := (s.setIrq i c m).out } := by
  unfold State.setIrq; simp only []
  split <;> split <;> first | rfl | (rw [State.sendMsix_only]; done) | skip
  rw [State.sendMsix_only _ (2 * i + 1), State.sendMsix_only _ (2 * i)]

theorem State.cause_only (i b : Nat) : s.cause i b = { s with host := (s.cause i b).host, out := (s.cause i b).out } :=
  s.setIrq_only _ _ _

theorem State.sendMsix_host (v : Nat) : (s.sendMsix v).host.cause = s.host.cause ∧ (s.sendMsix v).host.mask = s.host.mask
    ∧ (s.sendMsix v).host.page = s.host.page ∧ (s.sendMsix v).host.linkUp = s.host.linkUp
    ∧ (s.sendMsix v).host.msix = s.host.msix := by
  unfold State.sendMsix; simp only []; split
  · exact ⟨rfl, rfl, rfl, rfl, rfl⟩
  · split <;> simp

@[simp] theorem State.setIrq_frame (i cause mask : Nat) :
    (s.setIrq i cause mask).time = s.time ∧ (s.setIrq i cause mask).cfg = s.cfg ∧ (s.setIrq i cause mask).inst = s.inst ∧ (s.setIrq i
    cause mask).port = s.port ∧ (s.setIrq i cause mask).stride = s.stride ∧ (s.setIrq i cause mask).pkt = s.pkt ∧ (s.setIrq i cause
    mask).cpy = s.cpy ∧ (s.setIrq i cause mask).nextPkt = s.nextPkt ∧ (s.setIrq i cause mask).nextCpy = s.nextCpy ∧ (s.setIrq i cause
    mask).tbl = s.tbl ∧ (s.setIrq i cause mask).learn = s.learn ∧ (s.setIrq i cause mask).srch = s.srch ∧ (s.setIrq i cause mask).buf =
    s.buf ∧ (s.setIrq i cause mask).sched = s.sched ∧ (s.setIrq i cause mask).sec = s.sec ∧ (s.setIrq i cause mask).gmu = s.gmu ∧
    (s.setIrq i cause mask).fab = s.fab ∧ (s.setIrq i cause mask).hbm = s.hbm ∧ (s.setIrq i cause mask).pacer = s.pacer ∧ (s.setIrq i
    cause mask).mbx = s.mbx ∧ (s.setIrq i cause mask).fault = s.fault ∧ (s.setIrq i cause mask).recd = s.recd ∧ (s.setIrq i cause
    mask).ctr = s.ctr ∧ (s.setIrq i cause mask).boot = s.boot ∧ (s.setIrq i cause mask).pins = s.pins ∧ (s.setIrq i cause mask).free =
    s.free ∧ (s.setIrq i cause mask).pending = s.pending := by
  unfold State.setIrq; simp only []; split <;> split <;> simp

theorem State.setIrq_host (i cause mask : Nat) :
    (s.setIrq i cause mask).host.cause = s.host.cause.put i cause ∧ (s.setIrq i cause mask).host.mask = s.host.mask.put i mask
    ∧ (s.setIrq i cause mask).host.page = s.host.page ∧ (s.setIrq i cause mask).host.linkUp = s.host.linkUp := by
  unfold State.setIrq; simp only []
  split <;> split <;> simp [State.sendMsix_host]

@[simp] theorem State.cause_frame (i b : Nat) :
    (s.cause i b).time = s.time ∧ (s.cause i b).cfg = s.cfg ∧ (s.cause i b).inst = s.inst ∧ (s.cause i b).port = s.port ∧ (s.cause i
    b).stride = s.stride ∧ (s.cause i b).pkt = s.pkt ∧ (s.cause i b).cpy = s.cpy ∧ (s.cause i b).nextPkt = s.nextPkt ∧ (s.cause i
    b).nextCpy = s.nextCpy ∧ (s.cause i b).tbl = s.tbl ∧ (s.cause i b).learn = s.learn ∧ (s.cause i b).srch = s.srch ∧ (s.cause i b).buf =
    s.buf ∧ (s.cause i b).sched = s.sched ∧ (s.cause i b).sec = s.sec ∧ (s.cause i b).gmu = s.gmu ∧ (s.cause i b).fab = s.fab ∧ (s.cause i
    b).hbm = s.hbm ∧ (s.cause i b).pacer = s.pacer ∧ (s.cause i b).mbx = s.mbx ∧ (s.cause i b).fault = s.fault ∧ (s.cause i b).recd =
    s.recd ∧ (s.cause i b).ctr = s.ctr ∧ (s.cause i b).boot = s.boot ∧ (s.cause i b).pins = s.pins ∧ (s.cause i b).free = s.free ∧
    (s.cause i b).pending = s.pending := by
  exact s.setIrq_frame _ _ _

/-- Setting a cause bit sets that bit of the instance's HIF.IRQ_CAUSE and no other bit of any. -/
theorem State.cause_cause (i b : Nat) : (s.cause i b).host.cause = s.host.cause.put i (s.host.cause.at i ||| 2 ^ b) :=
  (s.setIrq_host _ _ _).1

theorem State.cause_host (i b : Nat) : (s.cause i b).host.mask.at i = s.host.mask.at i ∧ (s.cause i b).host.page = s.host.page
    ∧ (s.cause i b).host.linkUp = s.host.linkUp := by
  obtain ⟨-, hm, hp, hl⟩ := s.setIrq_host i (s.host.cause.at i ||| 2 ^ b) (s.host.mask.at i)
  exact ⟨by rw [State.cause, hm, Tab.at_put_same], hp, hl⟩

/-! ### Pools, slots and responses -/

@[simp] theorem State.poolRelease_frame (p b : Nat) :
    (s.poolRelease p b).time = s.time ∧ (s.poolRelease p b).cfg = s.cfg ∧ (s.poolRelease p b).inst = s.inst ∧ (s.poolRelease p b).port =
    s.port ∧ (s.poolRelease p b).stride = s.stride ∧ (s.poolRelease p b).pkt = s.pkt ∧ (s.poolRelease p b).cpy = s.cpy ∧ (s.poolRelease p
    b).nextPkt = s.nextPkt ∧ (s.poolRelease p b).nextCpy = s.nextCpy ∧ (s.poolRelease p b).tbl = s.tbl ∧ (s.poolRelease p b).learn =
    s.learn ∧ (s.poolRelease p b).srch = s.srch ∧ (s.poolRelease p b).buf = s.buf ∧ (s.poolRelease p b).sched = s.sched ∧ (s.poolRelease p
    b).sec = s.sec ∧ (s.poolRelease p b).gmu = s.gmu ∧ (s.poolRelease p b).fab = s.fab ∧ (s.poolRelease p b).hbm = s.hbm ∧ (s.poolRelease
    p b).mbx = s.mbx ∧ (s.poolRelease p b).host = s.host ∧ (s.poolRelease p b).fault = s.fault ∧ (s.poolRelease p b).boot = s.boot ∧
    (s.poolRelease p b).pins = s.pins ∧ (s.poolRelease p b).out = s.out ∧ (s.poolRelease p b).free = s.free ∧ (s.poolRelease p b).pending
    = s.pending := by
  unfold State.poolRelease; simp only []; split
  · simp
  · simp

/-! ### The CMAC unit -/

/-- A job submitted changes the security unit alone. -/
theorem State.submitCmac_only (j : CmacJob) : (s.submitCmac j).1 = { s with sec := (s.submitCmac j).1.sec } := by
  unfold State.submitCmac; simp only []
  split
  · rfl
  · split
    · rfl
    · split <;> rfl

/-- What jobs asked for one by one leave alone. -/
theorem foldl_keeps {α β γ : Type} (g : State → γ) (f : State × β → α → State × β) (h : ∀ x a, g (f x a).1 = g x.1) (l : List α)
    (x : State × β) : g (l.foldl f x).1 = g x.1 := by
  induction l generalizing x with
  | nil => rfl
  | cons a l ih => exact (ih _).trans (h x a)

/-- The state without its security unit, mailboxes, pools, counters, recorder, host interface and outputs: what no response touches. -/
def State.offPost (s : State) : State :=
  { s with sec := {}, pacer := {}, ctr := {}, recd := {}, mbx := {}, host := {}, out := [] }

theorem State.offPost_eqs {a b : State} (h : a.offPost = b.offPost) :
    a.time = b.time ∧ a.cfg = b.cfg ∧ a.inst = b.inst ∧ a.port = b.port ∧ a.stride = b.stride ∧ a.pkt = b.pkt ∧ a.cpy = b.cpy
    ∧ a.nextPkt = b.nextPkt ∧ a.nextCpy = b.nextCpy ∧ a.tbl = b.tbl ∧ a.learn = b.learn ∧ a.srch = b.srch ∧ a.buf = b.buf
    ∧ a.sched = b.sched ∧ a.gmu = b.gmu ∧ a.fab = b.fab ∧ a.hbm = b.hbm ∧ a.fault = b.fault ∧ a.boot = b.boot ∧ a.pins = b.pins
    ∧ a.free = b.free ∧ a.pending = b.pending := by
  simp only [State.offPost, State.mk.injEq] at h; simp [h]

theorem State.offPost_freePayload (a : Accepted) : (s.freePayload a).offPost = s.offPost := by
  unfold State.freePayload State.offPost; split <;> simp

theorem State.offPost_askTag (slot n : Nat) (h : Waiting) : (s.askTag slot n h).offPost = s.offPost := by
  unfold State.askTag
  refine Eq.trans (b := (((List.range n).foldl _ (s, [])).1 : State).offPost) rfl (foldl_keeps State.offPost _ (fun x a => ?_) _ _)
  simp only []; rw [State.submitCmac_only]; rfl

theorem State.offPost_answer (slot : Nat) (a : Accepted) (r : Answer) : (s.answer slot a r).offPost = s.offPost := by
  unfold State.answer State.offPost; simp

theorem State.offPost_post (slot : Nat) (a : Accepted) (r : Answer) : (s.post slot a r).offPost = s.offPost := by
  unfold State.post State.postThen; simp only []
  split
  · exact Eq.trans (by unfold State.offPost; simp) (s.offPost_freePayload a)
  · split
    · rw [State.offPost_askTag, State.offPost_freePayload]
    · exact (State.offPost_answer _ _ _ _).trans (s.offPost_freePayload a)

@[simp] theorem State.post_frame (slot : Nat) (a : Accepted) (r : Answer) :
    (s.post slot a r).time = s.time ∧ (s.post slot a r).cfg = s.cfg ∧ (s.post slot a r).inst = s.inst ∧ (s.post slot a r).port = s.port ∧
    (s.post slot a r).stride = s.stride ∧ (s.post slot a r).pkt = s.pkt ∧ (s.post slot a r).cpy = s.cpy ∧ (s.post slot a r).nextPkt =
    s.nextPkt ∧ (s.post slot a r).nextCpy = s.nextCpy ∧ (s.post slot a r).tbl = s.tbl ∧ (s.post slot a r).learn = s.learn ∧ (s.post slot a
    r).srch = s.srch ∧ (s.post slot a r).buf = s.buf ∧ (s.post slot a r).sched = s.sched ∧ (s.post slot a r).gmu = s.gmu ∧ (s.post slot a
    r).fab = s.fab ∧ (s.post slot a r).hbm = s.hbm ∧ (s.post slot a r).fault = s.fault ∧ (s.post slot a r).boot = s.boot ∧ (s.post slot a
    r).pins = s.pins ∧ (s.post slot a r).free = s.free ∧ (s.post slot a r).pending = s.pending := by
  have h := State.offPost_eqs (s.offPost_post slot a r); simp [h]

@[simp] theorem State.refuse_frame (slot : Nat) (a : Accepted) (st : Nat) (l : List Byte) :
    (s.refuse slot a st l).time = s.time ∧ (s.refuse slot a st l).cfg = s.cfg ∧ (s.refuse slot a st l).inst = s.inst ∧ (s.refuse slot a st
    l).port = s.port ∧ (s.refuse slot a st l).stride = s.stride ∧ (s.refuse slot a st l).pkt = s.pkt ∧ (s.refuse slot a st l).cpy = s.cpy
    ∧ (s.refuse slot a st l).nextPkt = s.nextPkt ∧ (s.refuse slot a st l).nextCpy = s.nextCpy ∧ (s.refuse slot a st l).tbl = s.tbl ∧
    (s.refuse slot a st l).learn = s.learn ∧ (s.refuse slot a st l).srch = s.srch ∧ (s.refuse slot a st l).buf = s.buf ∧ (s.refuse slot a
    st l).sched = s.sched ∧ (s.refuse slot a st l).gmu = s.gmu ∧ (s.refuse slot a st l).fab = s.fab ∧ (s.refuse slot a st l).hbm = s.hbm ∧
    (s.refuse slot a st l).fault = s.fault ∧ (s.refuse slot a st l).boot = s.boot ∧ (s.refuse slot a st l).pins = s.pins ∧ (s.refuse slot
    a st l).free = s.free ∧ (s.refuse slot a st l).pending = s.pending := by
  unfold State.refuse; simp

/-- A response that has no tag to wait for leaves the slot DONE with the response in its window, and the request no longer waits (R394). -/
theorem State.post_slot (slot : Nat) (a : Accepted) (r : Answer) (hb : a.buf = none) (hs : a.silent = false)
    (hc : (s.tags a r && !s.cmacFree) = false) :
    (s.post slot a r).mbx.slot.at slot =
      { s.mbx.slot.at slot with st := 2, response := (s.response slot a r).1, acc := none, held := none } := by
  simp [State.post, State.postThen, State.freePayload, State.answer, hb, hs, hc]

/-- A response touches no other slot, no session and no job. -/
theorem State.post_mbx (slot : Nat) (a : Accepted) (r : Answer) :
    (s.post slot a r).mbx = { s.mbx with slot := (s.post slot a r).mbx.slot }
    ∧ ∀ k, k ≠ slot → (s.post slot a r).mbx.slot.at k = s.mbx.slot.at k := by
  have hf : (s.freePayload a).mbx = s.mbx := by unfold State.freePayload; split <;> simp
  have ha : ∀ (u : State) n h, (u.askTag slot n h).mbx = { u.mbx with slot := (u.askTag slot n h).mbx.slot }
      ∧ ∀ k, k ≠ slot → (u.askTag slot n h).mbx.slot.at k = u.mbx.slot.at k := by
    intro u n h
    unfold State.askTag; simp only []
    have hm := foldl_keeps State.mbx (fun (acc : State × List Nat) (_ : Nat) =>
      ((acc.1.submitCmac { work := .mailbox slot, level := 2, inst := slotInst slot, gen := acc.1.instGen (slotInst slot) }).1,
        acc.2 ++ (acc.1.submitCmac { work := .mailbox slot, level := 2, inst := slotInst slot, gen := acc.1.instGen (slotInst slot) }).2.toList))
      (fun x a => by simp only []; rw [State.submitCmac_only]) (List.range n) (u, [])
    refine ⟨?_, fun k hk => ?_⟩
    · simp only [State.updSlot]; rw [hm]
    · simp only [State.updSlot]; rw [hm, Tab.at_upd_other _ _ hk]
  unfold State.post State.postThen; simp only []
  split
  · simp [State.updSlot, Tab.at_upd, hf]; intro k hk; simp [hk]
  · split
    · obtain ⟨h1, h2⟩ := ha (s.freePayload a) 1 (.response { a with buf := none } r .nothing)
      rw [hf] at h1 h2; exact ⟨h1, h2⟩
    · simp [State.answer, State.updSlot, Tab.at_upd, hf]; intro k hk; simp [hk]

/-- A sealed copy of the boot header whose values are in range is valid. -/
theorem BootHdr.seal_good (h : BootHdr) (key : List Byte) (hv : (h.valid && decide (25 ≤ h.mhz ∧ h.mhz ≤ 100) && decide (h.dummy ≤ 31)) = true) :
    (h.seal key).good key = true := by
  have e : (h.seal key).mac = Crypto.cmac key (h.seal key).bytes := rfl
  unfold BootHdr.good
  rw [e, beq_self_eq_true, Bool.and_true]
  exact hv

/-- A sealed persistent record is valid. -/
theorem Persist.seal_good (p : Persist) (key : List Byte) (h : p.valid = true) : (p.seal key).good key = true := by
  simp only [Persist.good, Persist.seal, h, Bool.true_and, beq_iff_eq]
  rfl

/-- A sealed image carries a CMAC that holds. -/
theorem LgImage.seal_good (g : LgImage) (key : List Byte) (h : g.valid = true) : (g.seal key).good key = true := by
  have e : (g.seal key).mac = Crypto.cmac key (g.seal key).covered := rfl
  unfold LgImage.good
  rw [e, show (g.seal key).valid = g.valid from rfl, h]
  exact beq_self_eq_true _

end Sys2Proof.Machine
end

