-- ==== Sys2Proof/Laws/Entries.lean ====
section
/-! SUPPORT. Exact-match entries: what is written is read, and a pass over the valid entries reaches each of them once. -/
namespace Sys2Proof.Machine

/-- Structures other than the one written keep their entries. -/
theorem Tables.store_setStore (t : Tables) (k j : Nat) (l : Tab Entry) (hk : k ≤ 3) (hj : j ≤ 3) :
    (t.setStore k l).store j = if j = k then l else t.store j := by
  have hk' : k = 0 ∨ k = 1 ∨ k = 2 ∨ k = 3 := by omega
  have hj' : j = 0 ∨ j = 1 ∨ j = 2 ∨ j = 3 := by omega
  rcases hk' with rfl | rfl | rfl | rfl <;> rcases hj' with rfl | rfl | rfl | rfl <;> rfl

/-- An entry that is written reads as written, with its side bits; every other one as before. -/
theorem State.entry_setEntry (s : State) (c d : Nat × Nat) (e : Entry) (hc : c.1 ≤ 3) (hd : d.1 ≤ 3) :
    (s.setEntry c e).entry d = if d = c then { e with par := e.parityIn c.1 } else s.entry d := by
  unfold State.entry State.setEntry
  simp only []
  rw [Tables.store_setStore _ _ _ _ hc hd]
  by_cases h1 : d.1 = c.1
  · rw [if_pos h1]
    by_cases h2 : d.2 = c.2
    · rw [if_pos (Prod.ext h1 h2), h2]; simp
    · rw [if_neg (fun h => h2 (by rw [h])), Tab.at_put_other _ _ h2, h1]
  · rw [if_neg h1, if_neg (fun h => h1 (by rw [h]))]

/-- A write of an entry touches the tables only. -/
theorem State.setEntry_only (s : State) (c : Nat × Nat) (e : Entry) : s.setEntry c e = { s with tbl := (s.setEntry c e).tbl } := rfl

/-- A pass over a list of cells, each once, gives every cell of the list its new entry, with its side bits, and leaves the others alone. -/
theorem State.forEach_setEntry (s : State) (l : List ((Nat × Nat) × Entry)) (g : Entry → Entry) (hn : (l.map (·.1)).Nodup)
    (hl : ∀ x ∈ l, x.1.1 ≤ 3) (d : Nat × Nat) (hd : d.1 ≤ 3) :
    (∀ e, (d, e) ∈ l → (s.forEach l (fun s x => s.setEntry x.1 (g x.2))).entry d = { g e with par := (g e).parityIn d.1 })
    ∧ ((∀ e, (d, e) ∉ l) → (s.forEach l (fun s x => s.setEntry x.1 (g x.2))).entry d = s.entry d) := by
  induction l generalizing s with
  | nil => exact ⟨fun e h => absurd h (by simp), fun _ => rfl⟩
  | cons x l ih =>
    rw [State.forEach_cons]
    simp only [List.map_cons, List.nodup_cons] at hn
    have ih := ih (s.setEntry x.1 (g x.2)) hn.2 (fun y hy => hl y (List.mem_cons_of_mem _ hy))
    have w := s.entry_setEntry x.1 d (g x.2) (hl x (by simp)) hd
    constructor
    · intro e h
      rcases List.mem_cons.1 h with h | h
      · subst h
        rw [ih.2, w, if_pos rfl]
        intro e' he'; exact hn.1 (List.mem_map.2 ⟨_, he', rfl⟩)
      · exact ih.1 e h
    · intro h
      rw [ih.2 (fun e he => h e (List.mem_cons_of_mem _ he)), w, if_neg]
      intro hx; subst hx; exact h x.2 (by simp)

/-- In a canonical table the listed pairs are the indices with their values. -/
theorem Tab.mem_wf (t : Tab Entry) (h : Tab.wf t = true) (k : Nat) (e : Entry) : (k, e) ∈ t ↔ e = t.at k ∧ e ≠ default := by
  induction t with
  | nil => simp [Tab.at]
  | cons x t ih =>
    obtain ⟨k', v⟩ := x
    obtain ⟨hv, ha, hw⟩ := (Tab.wf_cons k' v t).1 h
    rw [List.mem_cons, ih hw, Tab.at_cons]
    by_cases hk : k = k'
    · subst hk
      rw [if_pos rfl, Tab.at_above t k k ha (Nat.le_refl _)]
      simp only [Prod.mk.injEq, true_and]
      constructor
      · rintro (rfl | ⟨rfl, h⟩)
        · exact ⟨rfl, hv⟩
        · exact absurd rfl h
      · exact fun h => .inl h.1
    · rw [if_neg hk]; simp [hk]

/-- The indices of a canonical table rise. -/
theorem Tab.keys_nodup (t : Tab Entry) (h : Tab.wf t = true) : (t.map (·.1)).Nodup := by
  induction t with
  | nil => exact List.nodup_nil
  | cons x t ih =>
    obtain ⟨k', v⟩ := x
    obtain ⟨_, ha, hw⟩ := (Tab.wf_cons k' v t).1 h
    rw [List.map_cons, List.nodup_cons]
    refine ⟨?_, ih hw⟩
    intro hm
    obtain ⟨y, hy, he⟩ := List.mem_map.1 hm
    exact absurd (ha y hy) (by simp at he; omega)

/-- Under the canonical form the valid entries are the cells that read as valid. -/
theorem State.mem_allEntries (s : State) (h : s.tbl.wf) (c : Nat × Nat) (e : Entry) :
    (c, e) ∈ s.allEntries ↔ c.1 ≤ 3 ∧ e = s.entry c ∧ e.valid = true := by
  obtain ⟨k, i⟩ := c
  have hm : ∀ j, j ≤ 3 → (((k, i), e) ∈ ((s.tbl.store j).filter (fun e => e.2.valid)).map (fun e => ((j, e.1), e.2)) ↔
      k = j ∧ e = (s.tbl.store j).at i ∧ e.valid = true) := by
    intro j hj
    simp only [List.mem_map, List.mem_filter, Prod.mk.injEq, Prod.exists]
    constructor
    · rintro ⟨a, b, ⟨hab, hv⟩, ⟨rfl, rfl⟩, rfl⟩
      exact ⟨rfl, ((Tab.mem_wf _ (h _ hj) _ _).1 hab).1, hv⟩
    · rintro ⟨rfl, he, hv⟩
      refine ⟨i, e, ⟨(Tab.mem_wf _ (h _ hj) _ _).2 ⟨he, ?_⟩, hv⟩, ⟨rfl, rfl⟩, rfl⟩
      intro hd; rw [hd] at hv; exact absurd hv (by decide)
  unfold State.allEntries State.entry
  simp only [List.flatMap_cons, List.flatMap_nil, List.mem_append, hm 0 (by omega), hm 1 (by omega), hm 2 (by omega), hm 3 (by omega)]
  simp only [List.not_mem_nil, or_false]
  constructor
  · rintro (⟨rfl, h⟩ | ⟨rfl, h⟩ | ⟨rfl, h⟩ | ⟨rfl, h⟩) <;> exact ⟨by omega, h⟩
  · rintro ⟨hk, h⟩
    have hk' : k = 0 ∨ k = 1 ∨ k = 2 ∨ k = 3 := by omega
    rcases hk' with rfl | rfl | rfl | rfl
    · exact .inl ⟨rfl, h⟩
    · exact .inr (.inl ⟨rfl, h⟩)
    · exact .inr (.inr (.inl ⟨rfl, h⟩))
    · exact .inr (.inr (.inr ⟨rfl, h⟩))

/-- Each cell occurs once among them. -/
theorem State.allEntries_nodup (s : State) (h : s.tbl.wf) : (s.allEntries.map (·.1)).Nodup := by
  have one : ∀ j, j ≤ 3 → ((((s.tbl.store j).filter (fun e => e.2.valid)).map (fun e => ((j, e.1), e.2))).map (·.1)).Nodup := by
    intro j hj
    have h1 := (Tab.keys_nodup _ (h j hj)).sublist ((List.filter_sublist (p := fun e : Nat × Entry => e.2.valid)).map (·.1))
    rw [List.map_map]
    unfold List.Nodup at h1 ⊢
    rw [List.pairwise_map] at h1 ⊢
    exact h1.imp (fun hab he => hab (by simpa using he))
  have two : ∀ j (c : Nat × Nat), c ∈ (((s.tbl.store j).filter (fun e => e.2.valid)).map (fun e => ((j, e.1), e.2))).map (·.1) → c.1 = j := by
    intro j c hc
    simp only [List.mem_map] at hc
    obtain ⟨a, ⟨b, _, rfl⟩, rfl⟩ := hc; rfl
  unfold State.allEntries
  simp only [List.flatMap_cons, List.flatMap_nil, List.map_append, List.map_nil]
  have ap : ∀ (a b : List (Nat × Nat)), a.Nodup → b.Nodup → (∀ x ∈ a, x ∉ b) → (a ++ b).Nodup := by
    intro a b ha hb hab
    rw [List.nodup_append]; exact ⟨ha, hb, fun x hx y hy he => hab x hx (he ▸ hy)⟩
  refine ap _ _ (one 0 (by omega)) (ap _ _ (one 1 (by omega)) (ap _ _ (one 2 (by omega)) (ap _ _ (one 3 (by omega)) List.nodup_nil ?_) ?_) ?_) ?_
  · intro x _ h; exact absurd h (by simp)
  · intro x hx hy
    have := two 2 x hx
    simp only [List.mem_append, List.not_mem_nil, or_false] at hy
    have := two 3 x hy; omega
  · intro x hx hy
    have := two 1 x hx
    simp only [List.mem_append, List.not_mem_nil, or_false] at hy
    rcases hy with hy | hy
    · have := two 2 x hy; omega
    · have := two 3 x hy; omega
  · intro x hx hy
    have := two 0 x hx
    simp only [List.mem_append, List.not_mem_nil, or_false] at hy
    rcases hy with hy | hy | hy
    · have := two 1 x hy; omega
    · have := two 2 x hy; omega
    · have := two 3 x hy; omega

/-- A record that is written reads as written. -/
theorem State.obj_setObj_same (s : State) (kind index : Nat) (r : ObjRec) :
    (s.setObj kind index r).obj kind index = { r with par := recordPar kind r.words } := s.setObj_obj kind index r

/-- The words of a record whose fields are written. -/
theorem State.putObj_words (s : State) (kind index : Nat) (l : List (Field × Nat)) :
    ((s.putObj kind index l).obj kind index).words = putFields (s.obj kind index).words l := by
  unfold State.putObj; rw [State.obj_setObj_same]

end Sys2Proof.Machine
end

