-- ==== Sys2Proof/Laws/Fields.lean ====
section
/-! SUPPORT. Fields of a word: a field that is written reads as written, and every field beside it keeps its value. -/
namespace Sys2Proof.Machine

/-- A word as its part above a field, the field, and its part below. -/
theorem setBits_parts (x lo w v : Nat) :
    setBits x lo w v / 2 ^ lo = 2 ^ w * (x / 2 ^ lo / 2 ^ w) + v % 2 ^ w ∧ setBits x lo w v % 2 ^ lo = x % 2 ^ lo := by
  have hA : 0 < 2 ^ lo := Nat.two_pow_pos lo
  have hq := Nat.div_add_mod (x / 2 ^ lo) (2 ^ w)
  have hx := Nat.div_add_mod x (2 ^ lo)
  have hr := Nat.mod_lt x hA
  unfold setBits bits
  generalize x / 2 ^ lo = q at *
  generalize v % 2 ^ w = v' at *
  generalize q % 2 ^ w = m at *
  generalize x % 2 ^ lo = r at *
  generalize q / 2 ^ w = h at *
  generalize 2 ^ lo = A at *
  generalize 2 ^ w = B at *
  have e : x - m * A + v' * A = r + A * (B * h + v') := by
    rw [← hx, ← hq, Nat.mul_add, Nat.mul_add, Nat.mul_comm m A, Nat.mul_comm v' A]; omega
  rw [e]
  constructor
  · rw [Nat.add_mul_div_left _ _ hA, Nat.div_eq_of_lt hr, Nat.zero_add]
  · rw [Nat.add_mul_mod_self_left, Nat.mod_eq_of_lt hr]

/-- What is written into a field is read from it. -/
theorem Field.get_put_same (f : Field) (v md : Nat) : f.get (f.put v md) = v % 2 ^ f.width := by
  unfold Field.get Field.put bits
  rw [(setBits_parts md f.lo f.width v).1, Nat.mul_add_mod, Nat.mod_mod]

/-- A write of a field keeps every field above or below it. -/
theorem Field.get_put_other (f g : Field) (v md : Nat) (h : g.lo + g.width ≤ f.lo ∨ f.lo + f.width ≤ g.lo) :
    g.get (f.put v md) = g.get md := by
  unfold Field.get Field.put bits
  rcases h with h | h
  · have hd : 2 ^ g.lo * 2 ^ g.width ∣ 2 ^ f.lo := by rw [← Nat.pow_add]; exact Nat.pow_dvd_pow 2 h
    rw [← Nat.mod_mul_right_div_self, ← Nat.mod_mul_right_div_self (m := md),
      ← Nat.mod_mod_of_dvd (setBits md f.lo f.width v) hd, (setBits_parts md f.lo f.width v).2, Nat.mod_mod_of_dvd _ hd]
  · obtain ⟨k, hk⟩ := Nat.exists_eq_add_of_le h
    have e : 2 ^ g.lo = 2 ^ f.lo * (2 ^ f.width * 2 ^ k) := by rw [hk, Nat.pow_add, Nat.pow_add, Nat.mul_assoc]
    rw [e, ← Nat.div_div_eq_div_mul, ← Nat.div_div_eq_div_mul, (setBits_parts md f.lo f.width v).1,
      ← Nat.div_div_eq_div_mul md, ← Nat.div_div_eq_div_mul (md / 2 ^ f.lo), Nat.mul_add_div (Nat.two_pow_pos _),
      Nat.div_eq_of_lt (Nat.mod_lt _ (Nat.two_pow_pos _)), Nat.add_zero]

/-- Fields are written one after another. -/
theorem putFields_cons (w : Nat) (f : Field) (v : Nat) (l : List (Field × Nat)) : putFields w ((f, v) :: l) = putFields (f.put v w) l := rfl

theorem putFields_nil (w : Nat) : putFields w [] = w := rfl

end Sys2Proof.Machine
end

