-- ==== Sys2Proof/Laws/Queues.lean ====
section
/-! SUPPORT. What ending packets and copies can do: each operation of the packet path leaves the rest of the block alone, and the
thresholds of R211 change no link. -/
namespace Sys2Proof.Machine

variable (s : State)

/-! ### Outcomes -/

/-- A command that `runs`, with its effect known. -/
theorem runs_to {s t : State} {f : State → State} (h : f s = t) (ht : t.time = s.time) (hp : t.pending = s.pending) :
    runs f s = .next t := by
  subst h; exact runs_eq s f ht hp

theorem runs_keeping {s t : State} {f : State → State} (h : f s = t) : runs f s = .next (s.keeping t) := by
  subst h; rfl

/-- A state that keeps what the packet path leaves alone. -/
theorem State.offPath_eqs {a b : State} (h : a.offPath = b.offPath) :
    a.time = b.time ∧ a.pending = b.pending ∧ a.cfg = b.cfg ∧ a.inst = b.inst ∧ a.tbl = b.tbl ∧ a.learn = b.learn ∧ a.gmu = b.gmu
    ∧ a.pacer = b.pacer ∧ a.mbx = b.mbx ∧ a.host = b.host ∧ a.fault = b.fault ∧ a.boot = b.boot ∧ a.pins = b.pins ∧ a.free = b.free
    ∧ a.stride = b.stride ∧ a.nextPkt = b.nextPkt ∧ a.nextCpy = b.nextCpy ∧ a.srch = b.srch := by
  simp only [State.offPath, State.mk.injEq] at h; simp [h]

/-- A command of the packet path completes with its effect. -/
theorem runs_path {s t : State} {f : State → State} (h : f s = t) (ho : t.offPath = s.offPath) : runs f s = .next t :=
  runs_to h (State.offPath_eqs ho).1 (State.offPath_eqs ho).2.1

/-! ### The packet path leaves the rest alone -/

theorem State.offPath_count (st : Stat) (i n : Nat) : (s.count st i n).offPath = s.offPath := by rw [State.count_only]; rfl

theorem State.offPath_updPort (p : Nat) (f : Port → Port) : (s.updPort p f).offPath = s.offPath := rfl

theorem State.offPath_updCpy (n : Nat) (f : Copy → Copy) : (s.updCpy n f).offPath = s.offPath := rfl

theorem State.offPath_updPkt (n : Nat) (f : Packet → Packet) : (s.updPkt n f).offPath = s.offPath := rfl

theorem State.offPath_log (typ : Nat) (keys items : List Nat) (i : Nat) : (s.log typ keys items i).offPath = s.offPath := by
  rw [State.log_only]; rfl

theorem State.offPath_emit (o : Out) : (s.emit o).offPath = s.offPath := by rw [State.emit_only]; rfl

theorem State.offPath_slotUnref (k : Nat) : (s.slotUnref k).offPath = s.offPath := by unfold State.slotUnref; simp only []; split <;> rfl

theorem State.offPath_pktUnref (n : Nat) : (s.pktUnref n).offPath = s.offPath := by
  unfold State.pktUnref; split
  · exact s.offPath_slotUnref _
  · rfl

theorem State.offPath_reap (n : Nat) : (s.reap n).offPath = s.offPath := by
  unfold State.reap; simp only []; split
  · exact s.offPath_pktUnref n
  · rfl

theorem State.offPath_discard (n : Nat) : (s.discard n).offPath = s.offPath := by
  unfold State.discard; simp only []
  rw [State.offPath_reap]
  refine Eq.trans ?_ (s.offPath_pktUnref n)
  rfl

theorem State.offPath_drrDrop (q : Nat) : (s.drrDrop q).offPath = s.offPath := by
  unfold State.drrDrop; split <;> split <;> rfl

theorem State.offPath_sendPause (p k q : Nat) : (s.sendPause p k q).offPath = s.offPath := by
  unfold State.sendPause; split <;> exact s.offPath_emit _

theorem State.offPath_pfcCheck (p k : Nat) : (s.pfcCheck p k).offPath = s.offPath := by
  unfold State.pfcCheck; simp only []
  split
  · rfl
  · split
    · rw [State.offPath_sendPause]; rfl
    · split
      · rw [State.offPath_sendPause]; rfl
      · rfl

theorem State.offPath_pfcQuad (q : Nat) : (s.pfcQuad q).offPath = s.offPath :=
  s.forEach_keeps State.offPath _ _ (fun u a => u.offPath_pfcCheck a.1 a.2)

theorem State.offPath_giveBack (i : Nat) (pp : Option (Nat × Nat)) (k : Nat) : (s.giveBack i pp k).offPath = s.offPath := by
  cases pp <;> rfl

theorem State.offPath_leaveSub (n : Nat) : (s.leaveSub n).offPath = s.offPath := by unfold State.leaveSub; simp only []; split <;> rfl

theorem State.offPath_undraw (n : Nat) : (s.undraw n).offPath = s.offPath := by
  unfold State.undraw State.giveBack State.pfcLess; simp only []; split
  · rfl
  · split <;> rfl

theorem State.offPath_copyUnref (c : Copy) : (s.copyUnref c).offPath = s.offPath := by
  unfold State.copyUnref; split
  · exact s.offPath_slotUnref _
  · rfl

theorem State.offPath_freeCells (n : Nat) : (s.freeCells n).offPath = s.offPath := by
  unfold State.freeCells; rw [State.offPath_pfcQuad, State.offPath_undraw, State.offPath_leaveSub]

theorem State.offPath_endCopy (n : Nat) : (s.endCopy n).offPath = s.offPath := by
  unfold State.endCopy; simp only []
  split
  · rfl
  · split
    · rw [State.offPath_reap, State.offPath_drrDrop]; exact (State.offPath_copyUnref _ _).trans (s.offPath_freeCells n)
    · rw [State.offPath_drrDrop]; exact (State.offPath_copyUnref _ _).trans (s.offPath_freeCells n)

theorem State.offPath_dropCopies (l : List Nat) (st : Stat) (f : Copy → Nat) : (s.dropCopies l st f).offPath = s.offPath :=
  s.forEach_keeps State.offPath _ _ (fun u n => by rw [State.offPath_endCopy, State.offPath_count])

theorem State.offPath_drrJoin (q : Nat) : (s.drrJoin q).offPath = s.offPath := by
  unfold State.drrJoin; split <;> split <;> rfl

theorem State.offPath_noteDepth (q : Nat) : (s.noteDepth q).offPath = s.offPath := by unfold State.noteDepth; split <;> rfl

theorem State.offPath_joinQueue (n : Nat) (m : Bool) : (s.joinQueue n m).offPath = s.offPath := by
  unfold State.joinQueue; simp only []
  rw [State.offPath_noteDepth]; split
  · rfl
  · rw [State.offPath_drrJoin]; rfl

theorem State.offPath_abortTx (p : Nat) (f : Bool) : (s.abortTx p f).offPath = s.offPath := by
  unfold State.abortTx; simp only []
  rw [State.forEach_keeps _ State.offPath _ _ (fun u n => by rw [State.offPath_drrJoin]; rfl), State.offPath_dropCopies]

theorem State.offPath_flushPort (p : Nat) : (s.flushPort p).offPath = s.offPath := s.offPath_dropCopies _ _ _

theorem State.offPath_loseFrames (p : Nat) : (s.loseFrames p).offPath = s.offPath := by
  unfold State.loseFrames; rw [State.offPath_dropCopies, State.offPath_abortTx]

theorem State.offPath_cutFrame (n : Nat) : (s.cutFrame n).offPath = s.offPath := by
  unfold State.cutFrame State.endAt; simp only []
  rw [State.offPath_updPkt, State.forEach_keeps _ State.offPath _ _ (fun u k => u.offPath_updCpy k _), State.offPath_updPkt]

theorem State.offPath_cutFrames (p : Nat) : (s.cutFrames p).offPath = s.offPath :=
  s.forEach_keeps State.offPath _ _ (fun u n => u.offPath_cutFrame n)

theorem State.offPath_holdPort (p : Nat) (b f : Bool) : (s.holdPort p b f).offPath = s.offPath := by
  unfold State.holdPort; simp only []
  have h : (State.dropCopies (s.abortTx p f) ((s.abortTx p f).portCopies p fun c => c.mc && !c.begun) Stat.mcPortDownDrops fun _ => 0).offPath = s.offPath := by
    rw [State.offPath_dropCopies, State.offPath_abortTx]
  split
  · rw [State.offPath_flushPort, h]
  · split
    · rw [State.offPath_updPort, State.forEach_keeps _ State.offPath _ _ (fun u n => u.offPath_updCpy _ _)]; exact h
    · exact h

/-! ### Requests to HBM -/

/-- A request to HBM changes the HBM unit alone. -/
theorem State.hbmAsk_only (rank addr bytes : Nat) (write : Bool) (tag : Nat) :
    s.hbmAsk rank addr bytes write tag = { s with hbm := (s.hbmAsk rank addr bytes write tag).hbm } := by
  unfold State.hbmAsk; simp only []
  split
  · rfl
  · split <;> split <;> rfl

theorem State.forEach_only {α : Type} (f : State → α → State) (h : ∀ u a, f u a = { u with hbm := (f u a).hbm }) (l : List α) :
    ∀ s : State, s.forEach l f = { s with hbm := (s.forEach l f).hbm } := by
  induction l with
  | nil => exact fun _ => rfl
  | cons a l ih => intro s; rw [State.forEach_cons, ih (f s a), h s a]

/-- So do the requests for a range. -/
theorem State.hbmSpan_only (rank addr bytes : Nat) (write : Bool) (tag : Nat) :
    s.hbmSpan rank addr bytes write tag = { s with hbm := (s.hbmSpan rank addr bytes write tag).hbm } :=
  State.forEach_only _ (fun u _ => u.hbmAsk_only _ _ _ _ _) _ s

/-! ### Thresholds change no link -/

/-- A port without what the thresholds of R211 change. -/
def Port.still (p : Port) : Port := { p with xoff := 0, resend := [] }

theorem State.still_pfcCheck (p k q : Nat) : ((s.pfcCheck p k).prt q).still = (s.prt q).still := by
  unfold State.pfcCheck State.sendPause; simp only []
  split
  · rfl
  · split
    · split <;> simp [State.prt, Tab.at_upd] <;> split <;> simp_all [Port.still]
    · split
      · split <;> simp [State.prt, Tab.at_upd] <;> split <;> simp_all [Port.still]
      · rfl

/-- A port that is not UP is not touched at all. -/
theorem State.prt_pfcCheck (p k q : Nat) (h : s.isUp q = false) : (s.pfcCheck p k).prt q = s.prt q := by
  unfold State.pfcCheck State.sendPause; simp only []
  split
  · rfl
  · next hc =>
    have hq : q ≠ p := by rintro rfl; simp [h] at hc
    split
    · split <;> simp [State.prt, Tab.at_upd, hq]
    · split
      · split <;> simp [State.prt, Tab.at_upd, hq]
      · rfl

theorem State.down_of {s u : State} {p : Nat} (h : s.isUp p = false) (e : u.prt p = s.prt p) : u.isUp p = false := by
  unfold State.isUp; rw [e]; exact h

/-- A walk whose rounds leave a port that is not UP alone. -/
theorem State.prt_forEach {α : Type} (p : Nat) (l : List α) (f : State → α → State)
    (hf : ∀ u a, u.isUp p = false → (f u a).prt p = u.prt p) (h : s.isUp p = false) : (s.forEach l f).prt p = s.prt p := by
  induction l generalizing s with
  | nil => rfl
  | cons a l ih =>
    have e := hf s a h
    exact (ih (f s a) (by simpa [State.isUp, e] using h)).trans e

theorem State.prt_pfcQuad (q p : Nat) (h : s.isUp p = false) : (s.pfcQuad q).prt p = s.prt p :=
  s.prt_forEach p _ _ (fun u a hu => u.prt_pfcCheck a.1 a.2 p hu) h

theorem State.port_pktUnref (n : Nat) : (s.pktUnref n).port = s.port := by
  unfold State.pktUnref; split
  · show (s.slotUnref _).port = _
    unfold State.slotUnref; simp only []; split <;> rfl
  · rfl

theorem State.port_reap (n : Nat) : (s.reap n).port = s.port := by
  unfold State.reap; simp only []; split
  · exact s.port_pktUnref n
  · rfl

theorem State.port_drrDrop (q : Nat) : (s.drrDrop q).port = s.port := by unfold State.drrDrop; split <;> split <;> rfl

theorem State.port_drrJoin (q : Nat) : (s.drrJoin q).port = s.port := by unfold State.drrJoin; split <;> split <;> rfl

theorem State.port_undraw (n : Nat) : (s.undraw n).port = s.port := by
  unfold State.undraw State.giveBack State.pfcLess; simp only []; split
  · rfl
  · split <;> rfl

theorem State.port_copyUnref (c : Copy) : (s.copyUnref c).port = s.port := by
  unfold State.copyUnref; split
  · show (s.slotUnref _).port = _
    unfold State.slotUnref; simp only []; split <;> rfl
  · rfl

theorem State.port_leaveSub (n : Nat) : (s.leaveSub n).port = s.port := by unfold State.leaveSub; simp only []; split <;> rfl

/-- Ending a copy changes no port but one that is UP, and of that only what the thresholds of R211 do. -/
theorem State.prt_endCopy (n p : Nat) (h : s.isUp p = false) : (s.endCopy n).prt p = s.prt p := by
  have fc : (s.freeCells n).prt p = s.prt p := by
    have hp : ((s.leaveSub n).undraw n).port = s.port := (State.port_undraw _ n).trans (s.port_leaveSub n)
    exact (State.prt_pfcQuad _ _ p (State.down_of h (by simp only [State.prt, hp]))).trans (by simp only [State.prt, hp])
  rw [← fc]
  unfold State.endCopy; simp only []
  split
  · rw [fc]
  · split
    · simp only [State.prt, State.port_reap, State.port_drrDrop, State.port_copyUnref]
    · simp only [State.prt, State.port_drrDrop, State.port_copyUnref]

theorem State.prt_dropCopies (l : List Nat) (st : Stat) (f : Copy → Nat) (p : Nat) (h : s.isUp p = false) :
    (s.dropCopies l st f).prt p = s.prt p :=
  s.prt_forEach p _ _ (fun u n hu => by
    have e : (u.count st (f (u.cpy.at n))).prt p = u.prt p := by simp [State.prt]
    rw [State.prt_endCopy _ n p (by simpa [State.isUp, e] using hu), e]) h

theorem State.prt_abortTx (k p : Nat) (f : Bool) (h : s.isUp p = false) : (s.abortTx k f).prt p = s.prt p := by
  have e := s.prt_dropCopies (s.portCopies k (fun c => c.begun && !(f && s.onWire c))) Stat.txAborted (fun _ => 0) p h
  unfold State.abortTx; simp only []
  rw [State.prt_forEach _ p _ _ (fun u n _ => by simp only [State.prt, State.port_drrJoin]; rfl) (by unfold State.isUp at h ⊢; rw [e]; exact h), e]

/-- A hold or a flush changes of a port that is not UP its HOLD timer and its history alone. -/
theorem State.prt_holdPort (k p : Nat) (b f : Bool) (h : s.isUp p = false) :
    ((s.holdPort k b f).prt p).link = (s.prt p).link ∧ ((s.holdPort k b f).prt p).pause = (s.prt p).pause
    ∧ ((s.holdPort k b f).prt p).xoff = (s.prt p).xoff := by
  have a := s.prt_abortTx k p f h
  have ha : (s.abortTx k f).isUp p = false := by simpa [State.isUp, a] using h
  have d := (s.abortTx k f).prt_dropCopies ((s.abortTx k f).portCopies k (fun c => c.mc && !c.begun)) Stat.mcPortDownDrops (fun _ => 0) p ha
  rw [a] at d
  unfold State.holdPort; simp only []
  generalize ((s.abortTx k f).dropCopies ((s.abortTx k f).portCopies k (fun c => c.mc && !c.begun)) Stat.mcPortDownDrops (fun _ => 0)) = u at *
  have hu : u.isUp p = false := by simpa [State.isUp, d] using h
  have up : ∀ (v : State) (g : Port → Port), (v.updPort k g).prt p = if p = k then g (v.prt k) else v.prt p := by
    intro v g; simp [State.prt, Tab.at_upd]
  split
  · have e := u.prt_dropCopies (u.portCopies k (fun c => !c.begun)) Stat.holdFlushDrops (fun c => c.queue) p hu
    unfold State.flushPort; simp only []
    rw [up]
    split
    · next hk => subst hk; rw [e, d]; exact ⟨rfl, rfl, rfl⟩
    · rw [e, d]; exact ⟨rfl, rfl, rfl⟩
  · split
    · have e : (u.forEach (u.portCopies k (fun _ => true)) (fun s n => s.updCpy n (fun c => { c with eligible := false }))).prt p = u.prt p :=
        u.prt_forEach p _ _ (fun _ _ _ => rfl) hu
      rw [up]
      split
      · next hk => subst hk; rw [e, d]; exact ⟨rfl, rfl, rfl⟩
      · rw [e, d]; exact ⟨rfl, rfl, rfl⟩
    · rw [d]; exact ⟨rfl, rfl, rfl⟩

theorem State.prt_respray (n p : Nat) (h : s.isUp p = false) : (s.respray n).prt p = s.prt p := by
  unfold State.respray; simp only []
  split
  · rw [State.prt_endCopy _ n p (State.down_of h (by simp [State.prt]))]; simp [State.prt]
  · rfl

theorem State.prt_relayDown (k p : Nat) (f : Bool) (h : s.isUp p = false) : (s.relayDown k f).prt p = s.prt p := by
  unfold State.relayDown; simp only []
  generalize hu : State.dropCopies _ _ _ _ = u
  have eu : u.prt p = s.prt p := hu ▸ State.prt_dropCopies _ _ _ _ p h
  generalize hv : State.forEach u _ _ = v
  have ev : v.prt p = s.prt p := by
    rw [← hv]
    refine (u.prt_forEach p _ _ (fun _ _ _ => ?_) (State.down_of h eu)).trans eu
    rfl
  refine (v.prt_forEach p _ _ (fun w k hw => ?_) (State.down_of h ev)).trans ev
  exact State.prt_forEach _ p _ _ (fun x n hx => x.prt_respray n p hx) hw

/-- Placing a copy draws free values, and leaves the rest of the block alone. -/
theorem State.offPath_placeCopy (k : Nat) (c : Copy) (a : Nat) (h : Bool) :
    (s.placeCopy k c a h).offPath = { s.offPath with free := (s.placeCopy k c a h).free } := by
  have d : ∀ (u : State) pp i n b, (u.drawFor pp i n b).offPath = u.offPath := by
    intro u pp i n b; unfold State.drawFor; split <;> rfl
  have m : ∀ (u : State) pp n, (u.pfcMore pp n).offPath = u.offPath := by
    intro u pp n; unfold State.pfcMore; split <;> rfl
  have st : ∀ c, (s.storeCopy k c).offPath = { s.offPath with free := (s.storeCopy k c).free } := by
    intro c; unfold State.storeCopy; split <;> rfl
  have all : ∃ c', (s.placeCopy k c a h).offPath = (s.storeCopy k c').offPath := by
    unfold State.placeCopy; simp only []
    exact ⟨_, by rw [State.offPath_pfcQuad, State.offPath_joinQueue, d, m]⟩
  obtain ⟨c', e⟩ := all
  have f : (s.placeCopy k c a h).free = (s.storeCopy k c').free := by simpa [State.offPath] using congrArg State.free e
  rw [e, st, f]

/-! ### The Vault -/

/-- A write of a Vault record changes that record, sealed, and asks for its burst. -/
theorem State.writeVault_sec (a k tag : Nat) (f : VaultRec → VaultRec) : (s.writeVault a k tag f).sec
    = { s.sec with vault := s.sec.vault.upd (4 * a + k) (fun r => (f r).seal s.sec.keys.smk a k) } := by
  unfold State.writeVault; rw [State.hbmAsk_only]; rfl

/-- A write of a Vault record changes no parameter. -/
theorem State.writeVault_cfg (a k tag : Nat) (f : VaultRec → VaultRec) : (s.writeVault a k tag f).cfg = s.cfg := by
  unfold State.writeVault; rw [State.hbmAsk_only]; rfl

end Sys2Proof.Machine
end

