-- ==== Sys2Proof/Laws/Serve.lean ====
section
/-! SUPPORT. What a mailbox row does once its request is served: the reply of its command is carried out. -/
namespace Sys2Proof.Machine

variable {s : State} {slot op : Nat} {a : Accepted} {f : State → Nat → Accepted → Reply}

/-- A request that is served has its command's reply carried out. -/
theorem serve_grants (h : s.grants slot op a) : serve slot op f s = s.reply slot a (f s (slotInst slot) a) := by
  obtain ⟨h1, h2, h3⟩ := h
  unfold serve
  simp only [h1, h2, if_true]
  rw [if_neg]
  intro hc
  simp only [Bool.and_eq_true, decide_eq_true_eq] at hc
  exact hc.2 (h3 hc.1)

/-- The outcome of a row whose request is served. -/
theorem runs_grants {t : State} (h : s.grants slot op a) (hr : s.reply slot a (f s (slotInst slot) a) = t) :
    runs (serve slot op f) s = .next (s.keeping t) := runs_keeping (by rw [serve_grants h, hr])

/-- A command that is done answers. -/
theorem runs_answers {u : State} {l : List Byte} (h : s.grants slot op a) (hr : f s (slotInst slot) a = .ok u l) :
    runs (serve slot op f) s = .next (s.keeping (u.answers slot a l)) := runs_grants h (by rw [hr]; rfl)

/-- A command that is refused. -/
theorem runs_refuses {st : Nat} (h : s.grants slot op a) (hr : f s (slotInst slot) a = .refuse st) :
    runs (serve slot op f) s = .next (s.keeping (s.refuse slot a st)) := runs_grants h (by rw [hr]; rfl)

/-- A command that begins a job, of the 32 that may run. -/
theorem runs_begins {u : State} {k : JobKind} {n : Nat} (h : s.grants slot op a) (h32 : s.running.length < 32)
    (hr : f s (slotInst slot) a = .job u k n) : runs (serve slot op f) s = .next (s.keeping (u.begins slot a k n)) :=
  runs_grants h (by rw [hr]; show (if 32 ≤ s.running.length then _ else _) = _; rw [if_neg (by omega)]; rfl)

/-- A command whose answer waits for its work. -/
theorem runs_defers {u : State} {k : JobKind} {n : Nat} (h : s.grants slot op a) (h32 : s.running.length < 32)
    (hr : f s (slotInst slot) a = .maybe u k n) : runs (serve slot op f) s = .next (s.keeping (u.defers slot a k n)) :=
  runs_grants h (by rw [hr]; show (if 32 ≤ s.running.length then _ else _) = _; rw [if_neg (by omega)]; rfl)

/-- No job can begin while 32 run. -/
theorem runs_full {u : State} {k : JobKind} {n : Nat} (h : s.grants slot op a) (h32 : 32 ≤ s.running.length)
    (hr : f s (slotInst slot) a = .job u k n ∨ f s (slotInst slot) a = .maybe u k n) :
    runs (serve slot op f) s = .next (s.keeping (s.refuse slot a E.busy)) :=
  runs_grants h (by rcases hr with hr | hr <;> rw [hr] <;> exact if_pos h32)

/-- A refusal that leaves something behind. -/
theorem runs_refusesWith {u : State} {st : Nat} {l : List Byte} (h : s.grants slot op a)
    (hr : f s (slotInst slot) a = .refuseWith u st l) : runs (serve slot op f) s = .next (s.keeping (u.refuse slot a st l)) :=
  runs_grants h (by rw [hr]; rfl)

end Sys2Proof.Machine
end

