-- ==== Sys2Proof/Laws/Time.lean ====
section
/-! SUPPORT. What each part of LAP_BOUNDARY and each reset does to the time unit. -/
namespace Sys2Proof.Machine

/-! ### Time passes -/

/-- The state without what passing time changes: the time unit, ports, copies, cells, queues and counters. -/
def State.offWire (s : State) : State := { s with time := {}, port := [], cpy := [], buf := {}, sched := {}, ctr := {} }

/-- What passing time changes is all that two states differ in. -/
theorem State.offWire_eq {u s : State} (h : u.offWire = s.offWire) :
    u = { s with time := u.time, port := u.port, cpy := u.cpy, buf := u.buf, sched := u.sched, ctr := u.ctr } := by
  cases u; cases s; simp only [State.offWire, State.mk.injEq] at h ⊢; simp [h]

theorem State.macTurns_wire (s : State) (p : Nat) : (s.macTurns p).offWire = s.offWire := by
  unfold State.macTurns; split
  · simp only []
    repeat' split
    all_goals rfl
  · rfl

theorem State.updQ_wire (s : State) (k : Nat) (f : QState → QState) : (s.updQ k f).offWire = s.offWire := rfl

theorem State.updCpy_wire (s : State) (k : Nat) (f : Copy → Copy) : (s.updCpy k f).offWire = s.offWire := rfl

theorem State.shape_wire (s : State) (t : Nat) : (s.shape t).offWire = s.offWire := by
  unfold State.shape; simp only []
  exact (State.forEach_keeps _ State.offWire _ _ (fun u k => u.updQ_wire k _)).trans
    (State.forEach_keeps _ State.offWire _ _ (fun u k => u.updQ_wire k _))

theorem State.passing_wire (n : Nat) : ∀ (s : State) (t : Nat), (s.passing n t).offWire = s.offWire := by
  induction n with
  | zero => exact fun _ _ => rfl
  | succ n ih =>
    intro s t
    unfold State.passing; split
    · rfl
    · simp only []
      rw [ih, State.forEach_keeps _ State.offWire _ _ (fun u p => u.macTurns_wire p)]
      exact s.shape_wire _

theorem State.updCpy_time (s : State) (k : Nat) (f : Copy → Copy) : (s.updCpy k f).time = s.time := rfl

theorem State.takeOutputs_wire (s : State) : (∃ c, s.takeOutputs = { s with cpy := c }) := by
  have key : ∀ (l : List Nat) (u : State) (f : State → Nat → State), (∀ u k, ∃ c, f u k = { u with cpy := c }) → ∃ c, u.forEach l f = { u with cpy := c } := by
    intro l
    induction l with
    | nil => exact fun u _ _ => ⟨u.cpy, rfl⟩
    | cons a l ih =>
      intro u f h
      obtain ⟨c, hc⟩ := h u a
      obtain ⟨d, hd⟩ := ih (f u a) f h
      exact ⟨d, by rw [State.forEach_cons, hd, hc]⟩
  refine key _ _ _ (fun u k => ?_)
  simp only []; split
  · exact ⟨_, rfl⟩
  · exact ⟨u.cpy, rfl⟩

/-- The crossbar moves cells, and changes copies and its pointers alone. -/
theorem State.crossbars_wire (n : Nat) : ∀ s : State, (s.crossbars n).offWire = s.offWire ∧ (s.crossbars n).time = s.time := by
  induction n with
  | zero => exact fun _ => ⟨rfl, rfl⟩
  | succ n ih =>
    intro s
    have ht : s.takeOutputs.offWire = s.offWire ∧ s.takeOutputs.time = s.time := by
      obtain ⟨c, h⟩ := s.takeOutputs_wire; rw [h]; exact ⟨rfl, rfl⟩
    unfold State.crossbars; split
    · exact ht
    · have hc : s.crossbar.offWire = s.offWire ∧ s.crossbar.time = s.time := by
        unfold State.crossbar; simp only []
        generalize hu : ({ s.takeOutputs with buf := _ } : State) = u
        refine ⟨Eq.trans (b := u.offWire) (State.forEach_keeps _ State.offWire _ _ (fun v r => v.updCpy_wire r.2.2 _)) ?_,
          Eq.trans (b := u.time) (State.forEach_keeps _ State.time _ _ (fun v r => v.updCpy_time r.2.2 _)) ?_⟩
        · rw [← hu]; exact ht.1
        · rw [← hu]; exact ht.2
      exact ⟨(ih _).1.trans hc.1, (ih _).2.trans hc.2⟩

/-- A nanosecond of idling, and the way to a boundary, change what passing time changes alone. -/
theorem State.tick_wire (s : State) : s.tick.offWire = s.offWire := by
  unfold State.tick; split
  · simp only []
    rw [(State.crossbars_wire _ _).1]
    have h := State.offWire_eq (s.passing_wire ((s.time.tick (s.par P.slewMax)).mono - s.time.mono) ((s.time.tick (s.par P.slewMax)).mono - s.time.mono))
    rw [h]; rfl
  · rfl

theorem State.toBoundary_wire (s : State) : s.toBoundary.offWire = s.offWire := by
  unfold State.toBoundary; simp only []
  rw [(State.crossbars_wire _ _).1]
  exact s.passing_wire _ _

/-- The time unit after a nanosecond of idling. -/
theorem State.tick_time (s : State) (hr : s.time.running = true) (hd : s.time.dev < s.time.next) :
    s.tick.time = s.time.tick (s.par P.slewMax) := by
  unfold State.tick
  simp only [hr, hd, decide_true, Bool.and_self, if_true]
  rw [(State.crossbars_wire _ _).2]

/-- The time unit at the boundary. -/
theorem State.toBoundary_time (s : State) :
    s.toBoundary.time = { s.time with
      dev := max s.time.dev s.time.next
      mono := s.time.mono + (((s.time.next - s.time.dev : Nat) : Int) - slewPart s.time.slew (s.time.next - s.time.dev) (s.par P.slewMax)).toNat
      slew := s.time.slew - slewPart s.time.slew (s.time.next - s.time.dev) (s.par P.slewMax) } := by
  unfold State.toBoundary; simp only []
  rw [(State.crossbars_wire _ _).2]

/-! ### Laps and boundaries -/

/-- A lap rate the block accepts divides 10⁹, so that a lap is a whole number of nanoseconds. -/
theorem lapNs_pos (r : Nat) (h : lapRateOk r = true) : 0 < 1000000000 / r ∧ r * (1000000000 / r) = 1000000000 := by
  simp [lapRateOk] at h
  obtain ⟨⟨h1, h2⟩, h3⟩ := h
  refine ⟨Nat.div_pos (by omega) (by omega), Nat.mul_div_cancel' (Nat.dvd_of_mod_eq_zero h3)⟩

/-- A change of TIME.STATE changes nothing else of the time unit. -/
theorem setTimeState_time (s : State) (x : TimeState) : (s.setTimeState x).time = { s.time with state := x } := by
  unfold State.setTimeState
  split
  · next h => subst h; rfl
  · rfl

/-- The boundary after a device time: a multiple of the lap length, between half a lap and 1.5 laps ahead. -/
theorem boundaryAfter_spec (dev lap : Nat) (h : 0 < lap) :
    boundaryAfter dev lap % lap = 0 ∧ dev < boundaryAfter dev lap ∧
    2 * (boundaryAfter dev lap - dev) ≤ 3 * lap ∧ lap ≤ 2 * (boundaryAfter dev lap - dev) := by
  unfold boundaryAfter
  simp only []
  have h1 := Nat.div_add_mod dev lap
  have h2 := Nat.mod_lt dev h
  have h3 : (dev / lap + 1) * lap = lap * (dev / lap) + lap := by rw [Nat.add_mul, Nat.mul_comm]; omega
  split
  · refine ⟨by simp, by omega, by omega, by omega⟩
  · refine ⟨by simp, by omega, by omega, by omega⟩

/-- PPS_OUT leaves the time unit alone. -/
theorem ppsOut_time (u : State) : u.ppsOut.time = u.time := by unfold State.ppsOut; split <;> simp

/-- A time step changes device time, and none waits after it. -/
theorem timeStep_time (u : State) : u.timeStep.time = { u.time with dev := u.timeStep.time.dev, step := none } := by
  unfold State.timeStep; split
  · next q => simp [← q]
  · simp

/-- An activation changes of the time unit only what R31 and R37 let it change. -/
theorem order3_time (u : State) : ∃ v : TimeUnit, u.order3.time = TimeUnit.activated u.time v := ⟨_, rfl⟩

/-- The rate of laps after a boundary, and the boundary that follows. -/
theorem lapLength_time (u : State) : ∃ r q,
    u.lapLength.time = { u.time with lapRate := r, pendingRate := q, next := boundaryAfter u.time.dev (1000000000 / r) }
    ∧ ((r = u.time.lapRate ∧ q = u.time.pendingRate) ∨ (u.time.pendingRate = some r ∧ q = none)) := by
  unfold State.lapLength
  simp only []
  split
  · split
    · next r h => exact ⟨r, none, rfl, Or.inr ⟨h, rfl⟩⟩
    · exact ⟨_, _, rfl, Or.inl ⟨rfl, rfl⟩⟩
  · exact ⟨_, _, rfl, Or.inl ⟨rfl, rfl⟩⟩

/-- A boot starts the time unit from 0. -/
theorem startBoot_time (s : State) : s.startBoot.time = { running := true } := rfl

/-- A cold reset stops it at 0. -/
theorem coldReset_time (s : State) : s.coldReset.time = {} := rfl

/-- A reset of the host interface clears what a read latched. -/
theorem hostReset_time (s : State) : s.hostReset.time = { s.time with latch := (0, 0, 0) } := rfl

end Sys2Proof.Machine
end

