-- ==== Sys2Proof/WellFormed.lean ====
section
/-! DEFINITION. Well-formed commands: every number names something the block has. -/
namespace Sys2Proof

/-- A mailbox slot number: 64 instances of 4 slots (R391). -/
def slotOk (n : Nat) : Bool := decide (n < 256)

/-- A port of the 512 (R53). -/
def portOk (n : Nat) : Bool := decide (n < 512)

/-- A fault source of R460. -/
def sourceOkNum (n : Nat) : Bool := decide (n < 384)

/-- Whether a command names only what the block has: ports, pipes, slots, instances, sources, pseudo-channels, channels. -/
def Instr.wf : Instr → Bool
  | .frameArrival p f => portOk p && decide (f.bytes.length ≤ 65536)
  | .schedulerSelect p ps _ => decide (p < 16) && ps.all portOk
  | .gateEntryChange p => portOk p
  | .gateListStart p k => portOk p && decide (k < 4)
  | .rampEnd p c => portOk p && decide (c < 16)
  | .macControlReceive p bs => portOk p && decide (bs.length ≤ 65536)
  | .pauseTimerExpire p k => portOk p && decide (k < 9)
  | .xoffResend p k => portOk p && decide (k < 9)
  | .verifySend p => portOk p
  | .verifyResponse p => portOk p
  | .fecDegradeEvent p _ => portOk p
  | .portAllLocks p => portOk p
  | .portLockLoss p l _ => portOk p && decide (l < 8)
  | .upDebounceExpire p => portOk p
  | .lossFilterExpire p => portOk p
  | .portHoldExpire p => portOk p
  | .anFailure p => portOk p
  | .trainingTimeout p => portOk p
  | .learnArbiterArrival p => decide (p < 16)
  | .egressStrideAdmit p _ => decide (p < 16)
  | .ageScan t _ _ => decide (t < 4)
  | .learnFlush p _ _ => portOk p
  | .resLimitExpire q k => decide (q < 8192) && decide (k < 4)
  | .spillRefillRead q k => decide (q < 40960) && decide (k < 4)
  | .benchFaultRetry p c => portOk p && decide (c < 16)
  | .benchTimeout p c => portOk p && decide (c < 16)
  | .prefetchHoldEnd k => decide (k < 32)
  | .streamLost t => decide (t < 1024)
  | .gmuFinish t => decide (t < 1024)
  | .capturePostEnd c => decide (c < 16)
  | .pmuCfgSend o => decide (o < 8)
  | .helloReceive p bs => portOk p && decide (bs.length ≤ 65536)
  | .lsaReceive p bs => portOk p && decide (bs.length ≤ 65536)
  | .helloMissExpire p => portOk p
  | .creditReceive p bs => portOk p && decide (bs.length ≤ 65536)
  | .anchorTimeout d c => decide (d < 4096) && decide (c < 8)
  | .anchorContextIdle d c => decide (d < 4096) && decide (c < 8)
  | .hbmPick c _ => decide (c < 128)
  | .refreshDue c => decide (c < 128)
  | .hbmPowerDown c => decide (c < 128)
  | .refreshAheadOfTime c => decide (c < 128)
  | .pcStatusRead c => decide (c < 128)
  | .chReserve t c w => decide (t < 32) && decide (c < 256) && decide (w ≤ 16)
  | .chPut t c w => decide (t < 32) && decide (c < 256) && decide (w < 2 ^ 64)
  | .chCommit t c => decide (t < 32) && decide (c < 256)
  | .chRead t c => decide (t < 32) && decide (c < 256)
  | .hwChannelProduce c ws => decide (c < 48) && ws.all (fun w => decide (w < 2 ^ 64))
  | .poolFree p _ => decide (p < 4)
  | .poolStatusRead p => decide (p < 4)
  | .requestWindowWrite k o bs => slotOk k && decide (o + bs.length ≤ 4096)
  | .doorbellRing k dma => slotOk k && (dma.all (fun d => decide (d.length ≤ 65536)))
  | .recoveryAttemptComplete f u => sourceOkNum f && decide (u < 32)
  | .faultConditionClear f u => sourceOkNum f && decide (u < 32)
  | .quietPeriodExpire f u => sourceOkNum f && decide (u < 32)
  | .counterLowRead i c => decide (i < 64) && decide (c < 2048)
  | .puntRxDropsRead i => decide (i < 64)
  | .irqCauseClear i m => decide (i < 64) && decide (m < 32)
  | .irqMaskWrite i v => decide (i < 64) && decide (v < 2 ^ 32)
  | .ringEnable i r => decide (i < 64) && decide (r < 3)
  | .ringDisable i r => decide (i < 64) && decide (r < 3)
  | .puntComplete i => decide (i < 64)
  | .injectTake i => decide (i < 64)
  | .registerWrite a w v _ => decide (a < 2 ^ 32) && decide (w ≤ 8) && decide (v < 2 ^ 64)
  | .bootStageComplete k _ => decide (1 ≤ k ∧ k ≤ 7)
  | .rootProvision h => decide (h.length = 48)
  | .pipeHang p => decide (p < 16)
  | .meterVisit i => decide (i < 65536)
  | .recordFencePass k _ => decide (k < 5)
  | .lsaAgeOut d => decide (d < 4096)
  | .creditSend d => decide (d < 4096)
  | .appletViolation c t _ _ => decide (c < 4) && decide (t < 8)
  | .mbxRelease k => slotOk k
  | .mbxWrDroppedClear k => slotOk k
  | .sessionConfirmExpire k => decide (k < 16)
  | .sessionIdleExpire k => decide (k < 16)
  | .transferTimeout t => decide (t < 73)
  | .sessionDeviceId k => slotOk k
  | .sessionOpen k _ _ => slotOk k
  | .sessionClose k => slotOk k
  | .sessionPoll k => slotOk k
  | .sessionAbort k => slotOk k
  | .sessionRootProgram k => slotOk k
  | .sessionRootRevoke k => slotOk k
  | .cfgSet k => slotOk k
  | .cfgGet k => slotOk k
  | .cfgRestage k => slotOk k
  | .cfgValidate k => slotOk k
  | .cfgCommit k => slotOk k
  | .cfgConfirm k => slotOk k
  | .cfgRollback k => slotOk k
  | .cfgRollbackDisable k => slotOk k
  | .cfgStatus k => slotOk k
  | .timeSetSeconds k => slotOk k
  | .timeRead k => slotOk k
  | .tblInsert k => slotOk k
  | .tblDelete k => slotOk k
  | .tblLookup k => slotOk k
  | .tblDump k => slotOk k
  | .tblFlush k => slotOk k
  | .objWrite k => slotOk k
  | .objDelete k => slotOk k
  | .objRead k => slotOk k
  | .streamReset k => slotOk k
  | .ruleInsert k => slotOk k
  | .ruleDelete k => slotOk k
  | .ruleSetResult k => slotOk k
  | .ruleRead k => slotOk k
  | .pfxInsert k => slotOk k
  | .pfxDelete k => slotOk k
  | .pfxLookup k => slotOk k
  | .portStatus k => slotOk k
  | .portPtpTsRead k => slotOk k
  | .gateStage k => slotOk k
  | .gateRead k => slotOk k
  | .schedProfileSelect k => slotOk k
  | .keyInstall k => slotOk k
  | .keyRemove k => slotOk k
  | .keyMakeCurrent k => slotOk k
  | .keyStatus k => slotOk k
  | .gmuRead k => slotOk k
  | .gmuTriggerStatus k => slotOk k
  | .gmuCaptureList k => slotOk k
  | .gmuCaptureRead k => slotOk k
  | .gmuCaptureRelease k => slotOk k
  | .fabStatus k => slotOk k
  | .fabLsdbRead k => slotOk k
  | .fabPathsetRead k => slotOk k
  | .instStatus k => slotOk k
  | .instReset k => slotOk k
  | .instDelete k => slotOk k
  | .instFreeze k => slotOk k
  | .instSave k => slotOk k
  | .instRestore k _ => slotOk k
  | .instResume k => slotOk k
  | .retireMarkerReturn i g e => decide (i < 64) && decide (g < 256) && decide (e < 6)
  | .faultList k => slotOk k
  | .faultStatus k => slotOk k
  | .faultAck k => slotOk k
  | .faultPolicySet k => slotOk k
  | .logRead k => slotOk k
  | .ctrSelect k => slotOk k
  | .ctrRead k => slotOk k
  | .ctrClear k => slotOk k
  | .ctrSplitsRead k => slotOk k
  | .ctrStatRead k => slotOk k
  | .imgFwLoad k _ _ => slotOk k
  | .imgFwActivate k => slotOk k
  | .imgStrideLoad k _ _ => slotOk k
  | .imgStrideSwitch k => slotOk k
  | .imgAppletLoad k _ _ => slotOk k
  | .imgAppletStop k => slotOk k
  | .imgStatus k => slotOk k
  | .diagDebugUnlock k => slotOk k
  | .diagDebugEnd k => slotOk k
  | .diagThreadCtl k => slotOk k
  | .diagStrideTrace k => slotOk k
  | .diagLoopback k => slotOk k
  | .diagReset k => slotOk k
  | .gateLateStartClear p m => portOk p && decide (m < 16)
  | .puntRxPostWrite i x _ => decide (i < 64) && decide (x < 65536)
  | .puntTxPostWrite i x _ => decide (i < 64) && decide (x < 65536)
  | .gmuRingHeadWrite i x => decide (i < 64) && decide (x < 65536)
  | .timeSourceValid x => portOk x.port
  | .refclkLoss p => decide (p < 32)
  | .temperatureCrossing n _ => decide (n < 36)
  | .lapBoundary | .frameTail _ | .strideAdmit _ | .strideWord .. | .strideWaitTimeout .. | .strideStepLimit ..
  | .classifierHandoff _ _ | .stationLookupComplete _ _ | .stationLookupAbandon _ | .actionRelease _ _ | .cmacJobComplete _
  | .cmacJobResume _ | .hmacVerify _ | .authVerdict _ | .residueRetry _ | .mcResidueExpire _ | .spillWrite _
  | .fcsSend _ | .learnWindowExpire _ | .learnFreezeEnd _ | .learnWriteback | .tableScrub _ | .moveEngineUpdate | .streamResetScan _ | .fillRequestPost | .vaultRecordReturn _
  | .slotValid | .trngHealthFail | .trngHealthPass | .gmuCopyEntry | .idSettle | .lsaSend | .pathsetInstall | .voqSelect
  | .anchorArrival _ | .patrolScrub _ _ | .poolAllocate _ | .poolStepUp _ | .poolRetry _ | .jobStep _ _ | .jobRetentionExpire _ _
  | .debugTokenExpire | .strideBankDrained | .commitFencePass | .rollbackFencePass | .confirmWindowExpire | .lastGoodWrite _
  | .lgRefreshExpire | .faultIrqClear | .recorderAccept | .recordStage | .flashCopy _ | .hourComplete | .pfwNAssert | .pfwNDeassert
  | .timeSecondsLoRead | .functionLevelReset | .pcieLinkDown | .resetNAssert | .resetNRelease _ | .supplyMonitorTrip
  | .sourceLossExpire | .ppsInEdge | .pmbusStatusWord
  | .pmbusReadTemperature1 | .pmbusReadTemperature2 | .jtagInstruction _ | .supplyMonitorRelease | .powerFailFlushEnd
  | .reserveEraseEnd => true

end Sys2Proof
end

