-- ==== Sys2Proof/Tests/Slice0.lean ====
section
/-! SUPPORT. Tests: an ill-formed term for each check of WellFormed, and for each statement a state and operands that meet
its hypotheses together, clause by clause. -/
namespace Sys2Proof.Tests
open Sys2Proof Sys2Proof.Machine
set_option Elab.async false

/-- WellFormed refuses every command of this list: a port, class, pipe, lane, profile or frame out of range. -/
theorem wf_refuses_ports : ([
    .frameArrival 512 ⟨[], true, false, false, false, false, true⟩, .frameArrival 0 ⟨List.replicate 65537 0, true,
    false, false, false, false, true⟩, .schedulerSelect 16 [] [], .schedulerSelect 0 [512] [], .egressStrideAdmit 16
    0, .learnFlush 512 0 1, .gateEntryChange 512, .gateListStart 512 0, .gateListStart 0 4, .rampEnd 512 0, .rampEnd 0
    16, .macControlReceive 512 [], .macControlReceive 0 (List.replicate 65537 0), .pauseTimerExpire 512 0,
    .pauseTimerExpire 0 9, .xoffResend 512 0, .xoffResend 0 9, .verifySend 512, .verifyResponse 512, .fecDegradeEvent
    512 1, .portAllLocks 512, .portLockLoss 512 0 false, .portLockLoss 0 8 false, .upDebounceExpire 512,
    .lossFilterExpire 512, .portHoldExpire 512, .anFailure 512, .trainingTimeout 512, .benchFaultRetry 512 0,
    .benchFaultRetry 0 16, .benchTimeout 512 0, .benchTimeout 0 16, .helloReceive 512 [], .helloReceive 0
    (List.replicate 65537 0), .lsaReceive 512 [], .lsaReceive 0 (List.replicate 65537 0), .helloMissExpire 512,
    .creditReceive 512 [], .creditReceive 0 (List.replicate 65537 0), .gateLateStartClear 512 0, .gateLateStartClear 0
    16] : List Instr).all (fun i => !i.wf) = true := by
  decide +kernel

/-- WellFormed refuses every command of this list: a unit out of range. -/
theorem wf_refuses_units : ([
    .ageScan 4 0 1, .learnArbiterArrival 16, .resLimitExpire 8192 0, .resLimitExpire 0 4, .spillRefillRead 40960 0,
    .spillRefillRead 0 4, .prefetchHoldEnd 32, .streamLost 1024, .gmuFinish 1024, .capturePostEnd 16, .pmuCfgSend 8,
    .anchorTimeout 4096 0, .anchorTimeout 0 8, .anchorContextIdle 4096 0, .anchorContextIdle 0 8, .hbmPick 128 0,
    .refreshDue 128, .hbmPowerDown 128, .refreshAheadOfTime 128, .pcStatusRead 128, .pipeHang 16, .meterVisit 65536,
    .recordFencePass 5 0, .lsaAgeOut 4096, .creditSend 4096, .retireMarkerReturn 64 0 0, .retireMarkerReturn 0 256 0,
    .retireMarkerReturn 0 0 6] : List Instr).all (fun i => !i.wf) = true := by
  decide +kernel

/-- WellFormed refuses every command of this list: a Pacer thread, channel, pool, session or transfer out of range. -/
theorem wf_refuses_pacer : ([
    .chReserve 32 0 1, .chReserve 0 256 1, .chReserve 0 0 17, .chPut 32 0 0, .chPut 0 256 0, .chPut 0 0 (2 ^ 64),
    .chCommit 32 0, .chCommit 0 256, .chRead 32 0, .chRead 0 256, .hwChannelProduce 48 [], .hwChannelProduce 0 [2 ^
    64], .poolFree 4 0, .poolStatusRead 4, .appletViolation 4 0 0 0, .appletViolation 0 8 0 0, .transferTimeout 73,
    .sessionConfirmExpire 16, .sessionIdleExpire 16] : List Instr).all (fun i => !i.wf) = true := by
  decide +kernel

/-- WellFormed refuses every command of this list: a source, instance, register, ring, device or window out of range. -/
theorem wf_refuses_host : ([
    .recoveryAttemptComplete 384 0, .recoveryAttemptComplete 0 32, .faultConditionClear 384 0, .faultConditionClear 0
    32, .quietPeriodExpire 384 0, .quietPeriodExpire 0 32, .counterLowRead 64 0, .counterLowRead 0 2048,
    .puntRxDropsRead 64, .irqCauseClear 64 0, .irqCauseClear 0 32, .irqMaskWrite 64 0, .irqMaskWrite 0 (2 ^ 32),
    .ringEnable 64 0, .ringEnable 0 3, .ringDisable 64 0, .ringDisable 0 3, .puntComplete 64, .injectTake 64,
    .registerWrite (2 ^ 32) 4 0 false, .registerWrite 0 9 0 false, .registerWrite 0 8 (2 ^ 64) false, .puntRxPostWrite
    64 0 [], .puntRxPostWrite 0 65536 [], .puntTxPostWrite 64 0 [], .puntTxPostWrite 0 65536 [], .gmuRingHeadWrite 64
    0, .gmuRingHeadWrite 0 65536, .refclkLoss 32, .temperatureCrossing 36 0, .timeSourceValid ⟨512, 0⟩,
    .bootStageComplete 0 { }, .bootStageComplete 8 { }, .rootProvision [], .rootProvision (List.replicate 49 0),
    .requestWindowWrite 256 0 [], .requestWindowWrite 0 4096 [0], .doorbellRing 256 none, .doorbellRing 0 (some
    (List.replicate 65537 0))] : List Instr).all (fun i => !i.wf) = true := by
  decide +kernel

/-- WellFormed refuses every command of this list: a mailbox slot out of range. -/
theorem wf_refuses_slots : ([
    .mbxRelease 256, .mbxWrDroppedClear 256, .sessionDeviceId 256, .sessionClose 256, .sessionPoll 256, .sessionAbort
    256, .sessionRootProgram 256, .sessionRootRevoke 256, .cfgSet 256, .cfgGet 256, .cfgRestage 256, .cfgValidate 256,
    .cfgCommit 256, .cfgConfirm 256, .cfgRollback 256, .cfgRollbackDisable 256, .cfgStatus 256, .timeSetSeconds 256,
    .timeRead 256, .tblInsert 256, .tblDelete 256, .tblLookup 256, .tblDump 256, .tblFlush 256, .objWrite 256,
    .objDelete 256, .objRead 256, .streamReset 256, .ruleInsert 256, .ruleDelete 256, .ruleSetResult 256, .ruleRead
    256, .pfxInsert 256, .pfxDelete 256, .pfxLookup 256, .portStatus 256, .portPtpTsRead 256, .gateStage 256,
    .gateRead 256, .schedProfileSelect 256, .keyInstall 256, .keyRemove 256, .keyMakeCurrent 256, .keyStatus 256,
    .gmuRead 256, .gmuTriggerStatus 256, .gmuCaptureList 256, .gmuCaptureRead 256, .gmuCaptureRelease 256, .fabStatus
    256, .fabLsdbRead 256, .fabPathsetRead 256, .instStatus 256, .instReset 256, .instDelete 256, .instFreeze 256,
    .instSave 256, .instResume 256, .faultList 256, .faultStatus 256, .faultAck 256, .faultPolicySet 256, .logRead
    256, .ctrSelect 256, .ctrRead 256, .ctrClear 256, .ctrSplitsRead 256, .ctrStatRead 256, .imgFwActivate 256,
    .imgStrideSwitch 256, .imgAppletStop 256, .imgStatus 256, .diagDebugUnlock 256, .diagDebugEnd 256, .diagThreadCtl
    256, .diagStrideTrace 256, .diagLoopback 256, .diagReset 256, .sessionOpen 256 ⟨0, []⟩ true, .instRestore 256
    true, .imgFwLoad 256 true 0, .imgStrideLoad 256 ⟨0, []⟩ true, .imgAppletLoad 256 ⟨0, []⟩ true] : List Instr).all (fun i => !i.wf) = true := by
  decide +kernel

/-- WellFormed accepts the last value of each range. -/
theorem wf_accepts_ends : ([
    .frameArrival 511 ⟨[0], true, false, false, false, false, true⟩, .schedulerSelect 15 [0, 511] [], .rampEnd 511 15,
    .pauseTimerExpire 511 8, .portLockLoss 511 7 true, .resLimitExpire 8191 3, .spillRefillRead 40959 3, .pmuCfgSend
    7, .anchorTimeout 4095 7, .chPut 31 255 (2 ^ 64 - 1), .poolFree 3 0, .requestWindowWrite 255 4095 [0],
    .recoveryAttemptComplete 383 31, .counterLowRead 63 2047, .registerWrite (2 ^ 32 - 1) 8 (2 ^ 64 - 1) true,
    .bootStageComplete 7 { }, .rootProvision (List.replicate 48 0), .retireMarkerReturn 63 255 5, .transferTimeout 72,
    .tblInsert 255, .lapBoundary, .egressStrideAdmit 15 0, .ageScan 3 0 1, .hbmPick 127 2, .timeSourceValid ⟨511, -5⟩] : List Instr).all Instr.wf = true := by
  decide +kernel

/-- A bank in which some parameters are set. -/
def bank (l : List (Param × Nat × Int)) : Bank := l.foldl (fun b e => b.set e.1 e.2.1 e.2.2) []

/-- An accepted request. -/
def msg (op : Nat) (payload : List Byte) (session : Nat := 255) : Accepted := { op := op, session := session, seq := 7, payload := payload }

/-- A state with that request in a slot. -/
def asked (op : Nat) (payload : List Byte) (s : State := {}) (session : Nat := 255) (slot : Nat := 0) : State :=
  { s with mbx := { s.mbx with slot := [(slot, { st := 1, acc := some (msg op payload session) })] } }

theorem asked_grants {op session slot : Nat} {l : List Byte} {s : State} (h : s.pacer.down = false)
    (hj : s.mbx.jobs.any (fun j => j.slot == some slot) = false) (hs : (asked op l s session slot).turn (msg op l session) = true)
    (ho : (opInfo op).any (·.opOnly) = true → slotInst slot = 0) :
    (asked op l s session slot).grants slot op (msg op l session) := by
  refine ⟨?_, ?_, ho⟩
  · show (Tab.at [(slot, ({ st := 1, acc := some (msg op l session) } : Slot))] slot).acc = _
    simp [Tab.at]
  unfold State.serves
  rw [hs]
  show (op == op && !s.pacer.down && true && !s.mbx.jobs.any _) = true
  rw [h, hj]
  simp

/-- A quantity of which nothing is valid. -/
def quantity : Quantity := { ok := false, okF := false, okR := false, sq := (0, 1), rms := 0, f := 0, rocof := 0, thd := 0, nominal := 0, hz := 0, health := 0, entry := 0, lap := 0, jump := none }

/-- A relay header with its check (R332). -/
def header (l : List (Field × Nat)) : List Byte :=
  let h := beBytes 14 (putFields 0 l / 2 ^ 16)
  h ++ beBytes 2 (crc16 h)

theorem serial_differs : serialNo ≠ 0 ∨ serialNo ≠ 1 := by omega

/-- The first 80 bytes of a request header: opcode, session, flags and SEQ. -/
def reqHead (op session flags seq : Nat) : List Byte :=
  leBytes 2 op ++ leBytes 1 session ++ leBytes 1 flags ++ leBytes 4 0 ++ leBytes 8 seq ++ leBytes 64 0

/-- A request signed under a key. -/
def signed (key : List Byte) (op session flags seq : Nat) : Request :=
  { head := reqHead op session flags seq ++ Crypto.cmac key ([0x01#8] ++ reqHead op session flags seq), inline := [], dma := none }

/-- A session key. -/
def sessionKey : List Byte := List.replicate 32 0#8

theorem sessionKey_rounds : (Crypto.roundKeys sessionKey).all (·.length == 16) = true ∧ 2 ≤ (Crypto.roundKeys sessionKey).length := by
  decide +kernel

theorem cmac_length (m : List Byte) : (Crypto.cmac sessionKey m).length = 16 := Crypto.aes_length sessionKey_rounds.1 sessionKey_rounds.2 _

/-- A signed request carries the tag that is computed over it. -/
theorem signed_tag (op session flags seq : Nat) :
    Crypto.cmac sessionKey ([0x01#8] ++ (signed sessionKey op session flags seq).head.take 80 ++ (signed sessionKey op session flags seq).payload)
      = slice (signed sessionKey op session flags seq).head 80 16 := by
  have hl : (reqHead op session flags seq).length = 80 := rfl
  have h1 : (signed sessionKey op session flags seq).head.take 80 = reqHead op session flags seq := List.take_left' hl
  have h2 : (signed sessionKey op session flags seq).payload = [] := rfl
  rw [h1, h2, List.append_nil, Crypto.slice_inside]
  · show _ = ((reqHead op session flags seq ++ _).drop 80).take 16
    rw [List.drop_left' hl, List.take_of_length_le (by rw [cmac_length]; all_goals exact Nat.le_refl _)]
  · show 96 ≤ (reqHead op session flags seq ++ _).length
    rw [List.length_append, hl, cmac_length]; all_goals exact Nat.le_refl _

/-- A wrapped key reads back. -/
theorem wrapped_key (l : List Byte) (hl : l.length = 8) (p : List Byte) (hp : p.length = 32) :
    Crypto.kwUnwrap sessionKey (slice (l ++ Crypto.kwWrap sessionKey p) 8 40) = some p := by
  have hk := Crypto.kwWrap_length sessionKey_rounds.1 sessionKey_rounds.2 (p := p) (n := 4) (by omega) hp
  rw [Crypto.slice_inside _ _ _ (by rw [List.length_append, hk, hl]; all_goals exact Nat.le_refl _), List.drop_left' hl,
    List.take_of_length_le (by rw [hk]; all_goals exact Nat.le_refl _)]
  exact Crypto.kwUnwrap_kwWrap sessionKey_rounds.1 sessionKey_rounds.2 (n := 4) (by omega) hp

/-- A bank that lists every hash seed. -/
def seeds : Bank := (List.range 16).map (fun t => (P.ftSeed.id * 2 ^ 32 + t, 1)) ++ [(P.ovfSeed.id * 2 ^ 32, 1), (P.stSeed.id * 2 ^ 32, 1)]

/-- The smallest Stride image: one word in each store, which ends. -/
def strideBytes : List Byte :=
  [0x58#8, 0x51#8, 0x53#8, 0x55#8] ++ leBytes 2 1 ++ leBytes 4 0 ++ leBytes 2 1 ++ leBytes 2 1 ++ leBytes 50 0
    ++ beBytes 24 (putFields 0 [(W.end_, 1)]) ++ beBytes 24 (putFields 0 [(W.end_, 1)]) ++ leBytes 100 0

/-- A frame whose CMAC tag has matched, its key in slot 31. -/
def cmacState : State :=
  { pkt := [(3, { live := true, ended := true, verdict := .pending, slot := some 31, assoc := 3, pn := 1, tagOk := some true, rx := { bytes := List.replicate 100 0#8 } })]
    sec := { slot := [(31, { st := 2, assoc := 3 })] }, cfg := { active := bank [(P.replayProtect, 3, 0), (P.asMode, 3, 6)] } }

/-- The bank of association 3 under HMAC, without replay protection. -/
def hmacBank : Bank := bank [(P.asMode, 3, 8), (P.replayProtect, 3, 0)]

/-- A frame under association 3, whose last 20 bytes are a tag and four bytes more. -/
def hmacPacket (l : List Byte) : Packet := { live := true, ended := true, hmac := true, assoc := 3, keyNum := 1, pn := 1, rx := { bytes := l } }

/-- That frame as packet 3, with a key of the association held. -/
def hmacState (l : List Byte) : State :=
  { pkt := [(3, hmacPacket l)], sec := { hmac := [(3, 1, List.replicate 32 0#8)] }, cfg := { active := hmacBank } }

/-- A frame of 84 bytes that carries its tag. -/
def hmacFrame : List Byte := List.replicate 64 0#8 ++ (TagKey.hmac (List.replicate 32 0#8)).tag [] (List.replicate 64 0#8) ++ List.replicate 4 0#8

/-- A learn event. -/
def learnEv : LearnEvent := { key := 5, port := 1, stamp := 0, inst := 0, instGen := 0, station := false }

/-- A state whose front tier holds the key of that event. -/
def learnState (result par : Nat) : State :=
  { cfg := { active := [(P.ftSeed.id * 2 ^ 32, 1)] }, tbl := { front := [(616572, { valid := true, key := 5, result := result, par := par })] } }

/-- A Vault record of 32 zero bytes, sealed, of key 1 of association 3. -/
def sealedRec : VaultRec := VaultRec.seal { valid := true, wrapped := Crypto.kwWrap sessionKey (List.replicate 32 0#8) } sessionKey 3 1

theorem sealedRec_key : Crypto.kwUnwrap sessionKey sealedRec.wrapped = some (List.replicate 32 0#8) :=
  Crypto.kwUnwrap_kwWrap sessionKey_rounds.1 sessionKey_rounds.2 (n := 4) (by omega) (List.length_replicate ..)

/-- A state of one adjacency, whose database holds device 9 or nothing. -/
def lsaState (known : Bool) : State :=
  { port := [(511, { link := .up })], fab := { adj := [(511, { up := true })], lsdb := if known then [(9, { present := true })] else [] }
    cfg := { active := bank [(P.fabricEnable, 0, 1), (P.portRole, 511, 1)] } }

/-- A read of 64 bytes for the Vault. -/
def aRead : HReq := { master := 1, addr := 0, bytes := 64, write := false, at_ := 0 }

/-- Codes of the cells that a station key may lie in, all of them bad. -/
def stationBad : List Nat :=
  (bucketCells 2 0 (seeds.station1 5) ++ bucketCells 2 0 (seeds.station2 5) ++ bucketCells 3 0 (seeds.station3 5)).map (fun c => badCode c.1 c.2)

/-- A boot header whose copy 0 is sealed. -/
def sealedHdr : Boot := { hdr0 := BootHdr.seal { valid := true } sessionKey }

theorem sealedHdr_valid : (sealedHdr.header sessionKey).valid = true := by
  unfold Boot.header
  rw [if_neg (by decide +kernel), if_pos (show sealedHdr.hdr0.good sessionKey = true from BootHdr.seal_good _ _ (by decide +kernel))]
  rfl

/-- Boot state whose copy 0 of the persistent record holds a pointer of the Stride slot. -/
def sealedPer (n : Nat) : Boot := { per0 := Persist.seal { valid := true, stridePtr := n } [], per1 := {} }

theorem sealedPer_ptr (n : Nat) : ((sealedPer n).persist []).stridePtr = n := by
  unfold Boot.persist
  rw [if_neg (show ¬(sealedPer n).persistOne [] = true by simp [Boot.persistOne, sealedPer, Persist.good]),
    if_pos (show (sealedPer n).per0.good [] = true from Persist.seal_good _ _ rfl)]
  rfl

theorem meets_IdleStepIsOneNanosecond :
    (∃ (s : State), s.pending = [] ∧ s.time.running = true ∧ s.time.dev < s.time.next)
    ∧ (∃ (s : State), s.pending = [] ∧ (s.time.running = false ∨ s.time.next ≤ s.time.dev)) :=
  ⟨⟨{ time := { running := true } }, by decide +kernel⟩,
   ⟨{}, by decide +kernel⟩⟩

theorem meets_EveryCommandAnswers :
    ∃ (c : Instr) (s : State), (∀ op, c = .jtagInstruction (.privateOp op) → s.jtagOpen = false) :=
  ⟨.lapBoundary, {}, by intro op h; cases h⟩

theorem meets_TimeUnitStaysInOrder :
    ∃ (s : State) (t : State), s.time.inOrder ∧ step s = .next t :=
  ⟨{ time := { running := true } }, idle { time := { running := true } }, by refine ⟨?_, (fun _ h => by cases h), ?_, ?_, ?_, ?_, ?_, (fun _ h => by cases h)⟩ <;> decide +kernel, by rfl⟩

theorem meets_LapCountCountsBoundaries :
    (∃ (s : State) (rest : _), s.pending = .lapBoundary :: rest ∧ s.time.running = true)
    ∧ (∃ (s : State) (t : State), step s = .next t ∧ (∀ rest, s.pending ≠ .lapBoundary :: rest)) :=
  ⟨⟨{ time := { running := true }, pending := [.lapBoundary] }, [], by rfl, by decide +kernel⟩,
   ⟨{}, {}, by rfl, by intro _ h; cases h⟩⟩

theorem meets_MonotonicCounterNeverStepped :
    (∃ (s : State) (t : State), step s = .next t)
    ∧ (∃ (s : State), s.time.running = true ∧ s.par P.slewMax ≤ 500) :=
  ⟨⟨{}, {}, by rfl⟩,
   ⟨{ time := { running := true } }, by decide +kernel⟩⟩

theorem meets_TimeSourcesDisciplineDeviceTime :
    (∃ (s : State) (p : Nat) (o : Int), s.time.running = true ∧ s.par P.timeSource ≠ 2 ∧ (s.par P.timeSource = 0 → s.par P.ptpPort = p) ∧ s.time.state = .locked ∧ o.natAbs < s.par P.stepThreshold)
    ∧ (∃ (s : State) (p : Nat) (o : Int), s.time.running = true ∧ s.par P.timeSource ≠ 2 ∧ (s.par P.timeSource = 0 → s.par P.ptpPort = p) ∧ s.time.state = .locked ∧ s.par P.stepThreshold ≤ o.natAbs ∧ o ≠ 0)
    ∧ (∃ (s : State) (p : Nat) (o : Int), s.time.running = true ∧ s.par P.timeSource ≠ 2 ∧ (s.par P.timeSource = 0 → s.par P.ptpPort = p) ∧ s.time.state = .freerun ∧ o ≠ 0)
    ∧ (∃ (s : State) (p : Nat), s.par P.timeSource = 0 ∧ s.par P.ptpPort ≠ p)
    ∧ (∃ (s : State), s.time.state = .locked ∧ s.time.lastValid + 1000000000 * s.par P.sourceLoss ≤ s.time.mono)
    ∧ (∃ (s : State) (v : Nat), s.time.running = true ∧ s.par P.timeSource = 1 ∧ s.time.ppsAt = none ∧ s.time.state = .locked ∧ s.time.setSeconds = some v ∧ (1000000000 * v : Int) - s.time.dev ≠ 0 ∧ s.par P.stepThreshold ≤ ((1000000000 * v : Int) - s.time.dev).natAbs)
    ∧ (∃ (s : State) (e : Nat), s.time.ppsAt = some e ∧ s.time.mono < e + 500000000) :=
  ⟨⟨{ time := { running := true, state := .locked }, cfg := { active := bank [(P.stepThreshold, 0, 1000)] } }, 0, 999, by decide +kernel⟩,
   ⟨{ time := { running := true, state := .locked }, cfg := { active := bank [(P.stepThreshold, 0, 1000)] } }, 0, -1000, by decide +kernel⟩,
   ⟨{ time := { running := true } }, 0, -1, by decide +kernel⟩,
   ⟨{}, 511, by decide +kernel⟩,
   ⟨{ time := { state := .locked, mono := 1000000000 }, cfg := { active := bank [(P.sourceLoss, 0, 1)] } }, by decide +kernel⟩,
   ⟨{ time := { running := true, state := .locked, setSeconds := some 2 }, cfg := { active := bank [(P.timeSource, 0, 1)] } }, 2, by decide +kernel⟩,
   ⟨{ time := { ppsAt := some 5, mono := 500000004 } }, 5, by decide +kernel⟩⟩

theorem meets_PinsClocksAndTestPort :
    (∃ (s : State) (k : Nat), k < 32 ∧ k ∉ s.pins.refLost ∧ s.time.running = true)
    ∧ (∃ (s : State) (k : Nat) (c : Int), k < 32 ∧ s.time.running = true ∧ (∀ e ∈ s.pins.temp.put k c, e.2 ≤ 105) ∧ (s.funit 188 0).cond = false ∧ (s.funit 189 0).cond = false)
    ∧ (∃ (s : State) (k : Nat) (c : Int), k < 32 ∧ s.time.running = true ∧ 105 < c)
    ∧ (∃ (s : State) (k : Nat) (c : Int), k < 4 ∧ s.time.running = true ∧ c ≤ 85 ∧ (s.funit (168 + k) 0).cond = false)
    ∧ (∃ (s : State), (∀ t ∈ s.mbx.tokens, bit t.scope 2 = false))
    ∧ (∃ (s : State), (∃ t ∈ s.mbx.tokens, bit t.scope 2 = true))
    ∧ (∃ (s : State) (h : List Byte), h.length = 48 ∧ (∀ k < 4, s.mbx.root.at k = {}))
    ∧ (∃ (s : State) (h : List Byte), (∃ k < 4, (s.mbx.root.at k).hash.isSome = true) ∧ h.length = 48) :=
  ⟨⟨{ time := { running := true } }, 31, by decide +kernel⟩,
   ⟨{ time := { running := true } }, 31, 105, by decide +kernel⟩,
   ⟨{ time := { running := true } }, 31, 106, by decide +kernel⟩,
   ⟨{ time := { running := true } }, 3, 85, by decide +kernel⟩,
   ⟨{}, by decide +kernel⟩,
   ⟨{ mbx := { tokens := [{ session := 0, scope := 4, endAt := 9 }] } }, by decide +kernel⟩,
   ⟨{}, List.replicate 48 0#8, by decide +kernel⟩,
   ⟨{ mbx := { root := [(3, { hash := some 1 })] } }, List.replicate 48 0#8, by exact ⟨3, by decide, rfl⟩, by decide +kernel⟩⟩

theorem meets_ResetsHoldAndReleaseTheDevice :
    (∃ (s : State), s.pins.resetHigh = true ∧ s.recd.flushing = false)
    ∧ (∃ (s : State), s.pins.resetHigh = true ∧ s.recd.flushing = true)
    ∧ (∃ (s : State), s.pins.resetHigh = false ∧ s.pins.supplyOk = true ∧ 0 ∉ s.pins.refLost ∧ s.pins.deferred = false)
    ∧ (∃ (s : State), s.pins.resetHigh = false ∧ (s.pins.supplyOk = false ∨ 0 ∈ s.pins.refLost))
    ∧ (∃ (s : State), s.pins.supplyOk = true ∧ s.recd.flushing = false)
    ∧ (∃ (s : State), s.pins.supplyOk = false ∧ s.pins.resetHigh = false)
    ∧ (∃ (s : State), s.pins.supplyOk = false ∧ s.pins.resetHigh = true ∧ 0 ∉ s.pins.refLost)
    ∧ (∃ (s : State), s.recd.flushing = true ∧ s.pins.deferred = false)
    ∧ (∃ (s : State), s.recd.flushing = true ∧ s.pins.deferred = true ∧ s.pins.resetHigh = false) :=
  ⟨⟨{ pins := { resetHigh := true } }, by decide +kernel⟩,
   ⟨{ pins := { resetHigh := true }, recd := { flushing := true } }, by decide +kernel⟩,
   ⟨{}, by decide +kernel⟩,
   ⟨{ pins := { supplyOk := false } }, by decide +kernel⟩,
   ⟨{}, by decide +kernel⟩,
   ⟨{ pins := { supplyOk := false } }, by decide +kernel⟩,
   ⟨{ pins := { supplyOk := false, resetHigh := true } }, by decide +kernel⟩,
   ⟨{ recd := { flushing := true } }, by decide +kernel⟩,
   ⟨{ recd := { flushing := true }, pins := { deferred := true } }, by decide +kernel⟩⟩

theorem meets_BootStagesFollowTheirOrder :
    (∃ (s : State) (f : BootInput), s.boot.running 1 = true ∧ f.otpOk = true)
    ∧ (∃ (s : State) (f : BootInput), s.boot.running 1 = true ∧ f.otpOk = false)
    ∧ (∃ (s : State) (f : BootInput), s.boot.running 2 = true ∧ (s.boot.header s.bootKey).slotB = false ∧ f.fwA = true ∧ s.boot.svnFloor ≤ f.svnA)
    ∧ (∃ (s : State) (f : BootInput), s.boot.running 2 = true ∧ (s.boot.header s.bootKey).slotB = false ∧ f.fwA = false ∧ f.fwB = true ∧ s.boot.svnFloor ≤ f.svnB)
    ∧ (∃ (s : State) (f : BootInput), s.boot.running 2 = true ∧ f.fwA = false ∧ f.fwB = false)
    ∧ (∃ (s : State), s.boot.running 3 = true)
    ∧ (∃ (s : State) (f : BootInput), s.boot.running 4 = true ∧ f.failedPcs = [])
    ∧ (∃ (s : State), s.boot.running 7 = true ∧ s.cfg.slot0.good s.sec.keys.lastGood = false ∧ s.cfg.slot1.good s.sec.keys.lastGood = false)
    ∧ (∃ (s : State) (k : Nat), s.boot.running k = false) :=
  ⟨⟨{ boot := { stage := 1 } }, { otpOk := true }, by decide +kernel⟩,
   ⟨{ boot := { stage := 1 } }, { otpOk := false }, by decide +kernel⟩,
   ⟨{ boot := { stage := 2, ended := [1], svnFloor := 4 } }, { fwA := true, svnA := 4 }, by decide +kernel⟩,
   ⟨{ boot := { stage := 2, ended := [1], svnFloor := 4 } }, { fwA := false, fwB := true, svnB := 4 }, by decide +kernel⟩,
   ⟨{ boot := { stage := 2, ended := [1] } }, { fwA := false, fwB := false }, by decide +kernel⟩,
   ⟨{ boot := { stage := 3, ended := [2, 1] } }, by decide +kernel⟩,
   ⟨{ boot := { stage := 3, ended := [3, 2, 1] } }, {}, by decide +kernel⟩,
   ⟨{ boot := { stage := 7, ended := [6, 5, 4, 3, 2, 1] } }, by decide +kernel⟩,
   ⟨{}, 9, by decide +kernel⟩⟩

theorem meets_RaisesOpenMergeAndEscalateRecords :
    (∃ (s : State) (src : Nat), (s.fsrc src).record = none)
    ∧ (∃ (s : State) (src : Nat) (k : _), (s.fsrc src).record = none ∧ k ≠ src)
    ∧ (∃ (s : State) (src : Nat) (r : FaultRec), (s.fsrc src).record = some r ∧ r.acked = true)
    ∧ (∃ (s : State) (src : Nat) (r : FaultRec), (s.fsrc src).record = some r ∧ r.acked = false)
    ∧ (∃ (s : State) (src : Nat) (unit : Nat), (sourceInfo src).level = true ∧ (s.funit src unit).cond = true)
    ∧ (∃ (p : Nat), p < 16) :=
  ⟨⟨{}, 0, by decide +kernel⟩,
   ⟨{}, 0, 1, by decide +kernel⟩,
   ⟨{ fault := { src := [(383, { record := some { severity := 2, acked := true } })] } }, 383, { severity := 2, acked := true }, by decide +kernel⟩,
   ⟨{ fault := { src := [(383, { record := some { severity := 2 } })] } }, 383, { severity := 2 }, by decide +kernel⟩,
   ⟨{ fault := { unit := [(64 * 187, { cond := true })] } }, 187, 0, by decide +kernel⟩,
   ⟨15, by decide +kernel⟩⟩

theorem meets_FaultsAreLeftAfterTheirQuietPeriod :
    (∃ (s : State) (src : Nat) (unit : Nat), (s.funit src unit).inFault = true ∧ (s.funit src unit).quiet = some 0 ∧ s.unitPorts src unit = [] ∧ (s.updUnit src unit (fun u => { u with inFault := false, quiet := none, attempt := false })).inFault src = false)
    ∧ (∃ (s : State) (src : Nat) (unit : Nat), ((s.funit src unit).inFault = false ∨ (s.funit src unit).quiet ≠ some 0))
    ∧ (∃ (s : State) (src : Nat) (unit : Nat), s.condSeen src unit = false ∧ (src < 112 ∨ 144 ≤ src) ∧ src ≠ 186 ∧ (s.funit src unit).cond = true ∧ (s.funit src unit).inFault = true)
    ∧ (∃ (s : State) (src : Nat) (unit : Nat), s.condSeen src unit = true)
    ∧ (∃ (s : State) (src : Nat) (unit : Nat), s.fault.warm = false ∧ s.rung src = 1 ∧ (16 ≤ src ∨ s.condSeen src unit = false) ∧ (s.funit src unit).attempt = true)
    ∧ (∃ (s : State) (src : Nat) (unit : Nat), s.fault.warm = false ∧ s.rung src = 1 ∧ (16 ≤ src ∨ s.condSeen src unit = false) ∧ (s.funit src unit).attempt = true ∧ (s.pacer.down = true ∨ s.mbx.rung = []))
    ∧ (∃ (s : State), s.fault.warm = true)
    ∧ (∃ (i : _), i ≠ 0) :=
  ⟨⟨{ fault := { unit := [(64 * 187, { inFault := true, quiet := some 0 })] } }, 187, 0, by decide +kernel⟩,
   ⟨{}, 0, 0, by decide +kernel⟩,
   ⟨{ fault := { unit := [(64 * 111, { inFault := true, cond := true })] } }, 111, 0, by decide +kernel⟩,
   ⟨{}, 187, 0, by decide +kernel⟩,
   ⟨{ fault := { src := [(16, { rung := some 1 })], unit := [(64 * 16, { attempt := true })] } }, 16, 0, by decide +kernel⟩,
   ⟨{ fault := { unit := [(64 * 187, { attempt := true, inFault := true })] } }, 187, 0, by decide +kernel⟩,
   ⟨{ fault := { warm := true } }, by decide +kernel⟩,
   ⟨1, by decide +kernel⟩⟩

theorem meets_EventsReachTheRingAndFlash :
    (∃ (s : State) (typ : Nat) (keys : List Nat) (items : List Nat) (i : Nat), (s.recd.accepting = true ∧ (s.recd.queue.map Event.parts).sum + (s.event typ keys items i).parts ≤ 256))
    ∧ (∃ (s : State) (typ : Nat) (keys : List Nat) (items : List Nat) (i : Nat), (s.recd.accepting = false ∨ 256 < (s.recd.queue.map Event.parts).sum + (s.event typ keys items i).parts))
    ∧ (∃ (s : State) (e : Event) (rest : List Event), s.recd.accepting = true ∧ s.restored = true ∧ s.recd.dropped = 0 ∧ s.recd.queue = e :: rest)
    ∧ (∃ (s : State), s.recd.accepting = true ∧ s.restored = true ∧ s.recd.dropped ≠ 0)
    ∧ (∃ (q : Recorder) (e : Event) (l : List Rec) (r : Rec), q.ring = l ++ [r] ∧ r.ev.typ = e.typ ∧ r.ev.inst = e.inst ∧ r.ev.keys = e.keys ∧ r.staged = false ∧ r.run = false ∧ r.rep < 0xFFFF ∧ e.typ ≠ 0 ∧ e.parts = 1 ∧ r.ev.items.length = e.items.length)
    ∧ (∃ (q : Recorder) (e : Event), q.ring = [] ∧ e.parts = 1)
    ∧ (∃ (s : State) (r : Rec) (l : List Rec), s.recd.ring = r :: l ∧ r.ev.typ ≠ 0 ∧ r.staged = false ∧ recBytes s.recd.staging + r.len ≤ stagingBytes)
    ∧ (∃ (s : State), s.recd.copyAt ≤ s.time.mono ∧ s.recd.accepting = true ∧ s.recd.reserveReady = true)
    ∧ (∃ (s : State), 3600000000000 + s.recd.hourStart ≤ s.time.mono)
    ∧ (∃ (s : State), s.pins.pfwLow = false ∧ s.time.running = true ∧ s.restored = true)
    ∧ (∃ (s : State), s.recd.accepting = true)
    ∧ (∃ (s : State), s.pins.pfwLow = true)
    ∧ (∃ (s : State), s.pins.pfwLow = false ∧ s.recd.flushing = false ∧ s.recd.reserveReady = false ∧ s.recd.accepting = true) :=
  ⟨⟨{ recd := { queue := List.replicate 255 { typ := 5 } } }, 5, [], [], 0, by decide +kernel⟩,
   ⟨{ recd := { queue := List.replicate 256 { typ := 5 } } }, 5, [], [], 0, by decide +kernel⟩,
   ⟨{ boot := { cause := 2 }, recd := { queue := [{ typ := 5 }] } }, { typ := 5 }, [], by decide +kernel⟩,
   ⟨{ boot := { cause := 2 }, recd := { dropped := 1 } }, by decide +kernel⟩,
   ⟨{ ring := [{ ev := { typ := 5 }, rep := 0xFFFE }] }, { typ := 5 }, [], { ev := { typ := 5 }, rep := 0xFFFE }, by decide +kernel⟩,
   ⟨{}, { typ := 5 }, by decide +kernel⟩,
   ⟨{ recd := { ring := [{ ev := { typ := 5 } }], staging := [{ ev := { typ := 5 }, len := stagingBytes - 16 }] } }, { ev := { typ := 5 } }, [], by decide +kernel⟩,
   ⟨{ recd := { reserveReady := true } }, by decide +kernel⟩,
   ⟨{ time := { mono := 3600000000000 } }, by decide +kernel⟩,
   ⟨{ time := { running := true }, boot := { cause := 2 } }, by decide +kernel⟩,
   ⟨{}, by decide +kernel⟩,
   ⟨{ pins := { pfwLow := true } }, by decide +kernel⟩,
   ⟨{}, by decide +kernel⟩⟩

theorem meets_HostReadsWithAnEffect :
    (∃ (s : State) (i : Nat) (n : Nat), s.parOn P.counterUserRead i = true ∧ n < s.par P.instCtrCount i)
    ∧ (∃ (s : State) (i : Nat) (n : Nat), (s.parOn P.counterUserRead i = false ∨ s.par P.instCtrCount i ≤ n))
    ∧ (∃ (s : State) (p : Nat), p < 4 ∧ s.pacer.thread ≠ [])
    ∧ (∃ (i : Nat), i < 64) :=
  ⟨⟨{ cfg := { active := bank [(P.counterUserRead, 63, 1), (P.instCtrCount, 63, 4)] } }, 63, 3, by decide +kernel⟩,
   ⟨{ cfg := { active := bank [(P.counterUserRead, 63, 1), (P.instCtrCount, 63, 4)] } }, 63, 4, by decide +kernel⟩,
   ⟨{ pacer := { thread := [(0, { st := 1 })] } }, 3, by decide +kernel⟩,
   ⟨63, by decide +kernel⟩⟩

theorem meets_InterruptCausesAndMasks :
    (∃ (s : State) (i : Nat) (c : Nat) (m : Nat), irqLine c m 0 = true ∧ irqLine (s.host.cause.at i) (s.host.mask.at i) 0 = false ∧ irqLine c m 1 = false ∧ (s.host.msix.at (2 * i)).masked = false ∧ s.host.funcMask = false ∧ s.host.linkUp = true)
    ∧ (∃ (s : State) (i : Nat) (c : Nat) (m : Nat), irqLine c m 0 = true ∧ irqLine (s.host.cause.at i) (s.host.mask.at i) 0 = false ∧ irqLine c m 1 = false ∧ ((s.host.msix.at (2 * i)).masked = true ∨ s.host.funcMask = true))
    ∧ (∃ (s : State) (i : Nat) (c : Nat) (m : Nat), (irqLine c m 0 = true → irqLine (s.host.cause.at i) (s.host.mask.at i) 0 = true) ∧ (irqLine c m 1 = true → irqLine (s.host.cause.at i) (s.host.mask.at i) 1 = true))
    ∧ (∃ (s : State) (i : Nat) (m : Nat), i < 64 ∧ (bit m 3 = false ∨ (s.page i).puntOwed = false) ∧ (bit m 4 = false ∨ (s.page i).reportOwed = false))
    ∧ (∃ (i : Nat), i < 64)
    ∧ (∃ (p : Nat), p < 512) :=
  ⟨⟨{ host := { msix := [(126, { masked := false })] } }, 63, 4, 0, by decide +kernel⟩,
   ⟨{}, 63, 4, 0, by decide +kernel⟩,
   ⟨{ host := { cause := [(63, 31)] } }, 63, 31, 0, by decide +kernel⟩,
   ⟨{ host := { page := [(62, { rxPost := 1 })], cause := [(63, 31)] } }, 63, 24, by decide +kernel⟩,
   ⟨63, by decide +kernel⟩,
   ⟨511, by decide +kernel⟩⟩

theorem meets_RingsComeIntoServiceAndAdvance :
    (∃ (s : State) (i : Nat), i < 64 ∧ (s.page i).rx.enable = false)
    ∧ (∃ (s : State) (i : Nat), i < 64 ∧ (s.page i).tx.enable = false)
    ∧ (∃ (s : State) (i : Nat), i < 64 ∧ (s.page i).gmu.enable = false)
    ∧ (∃ (s : State) (i : Nat), i < 64 ∧ (s.page i).rx.enable = true ∧ (s.page i).assigned = [])
    ∧ (∃ (s : State) (i : Nat) (n : Nat), i < 64 ∧ (BitVec.ofNat 16 n - (s.page i).rxDone).toNat ≤ 2 ^ (s.page i).rx.log2)
    ∧ (∃ (s : State) (i : Nat) (n : Nat), 2 ^ (s.page i).rx.log2 < (BitVec.ofNat 16 n - (s.page i).rxDone).toNat)
    ∧ (∃ (s : State) (i : Nat) (n : Nat), i < 64 ∧ (BitVec.ofNat 16 n - (s.page i).txDone).toNat ≤ 2 ^ (s.page i).tx.log2)
    ∧ (∃ (s : State) (i : Nat) (n : Nat), i < 64 ∧ ((s.page i).gmuTail - BitVec.ofNat 16 n).toNat ≤ 2 ^ (s.page i).gmu.log2)
    ∧ (∃ (s : State) (i : Nat) (n : Nat), 2 ^ (s.page i).gmu.log2 < ((s.page i).gmuTail - BitVec.ofNat 16 n).toNat)
    ∧ (∃ (s : State) (i : Nat) (e : PuntEntry) (l : List PuntEntry), (s.page i).assigned = e :: l ∧ (s.page i).rx.enable = true ∧ (s.pkt.at e.pkt).final = false)
    ∧ (∃ (s : State) (i : Nat) (e : PuntEntry) (l : List PuntEntry), (s.page i).assigned = e :: l ∧ (s.page i).rx.enable = true ∧ (s.pkt.at e.pkt).final = true ∧ e.gen = s.instGen i ∧ s.host.linkUp = true ∧ (s.pkt.at e.pkt).authCause = 0)
    ∧ (∃ (s : State) (i : Nat) (g : RingPage) (e : PuntEntry), s.host.page = [(i, g)] ∧ g.assigned = [e] ∧ (s.pkt.at e.pkt).ended = true)
    ∧ (∃ (s : State) (n : Nat), (s.pkt.at n).ended = false)
    ∧ (∃ (s : State) (i : Nat), ((s.page i).tx.enable = false ∨ (s.page i).txDone = (s.page i).txPost))
    ∧ (∃ (s : State) (i : Nat) (d : InjectDesc) (l : List (Nat × InjectDesc)), (s.page i).tx.enable = true ∧ (s.page i).txDone ≠ (s.page i).txPost ∧ (s.page i).descs = ((s.page i).txDone.toNat, d) :: l ∧ d.port < 512 ∧ s.portInst d.port = i ∧ d.gen ≠ s.instGen i) :=
  ⟨⟨{}, 63, by decide +kernel⟩,
   ⟨{}, 63, by decide +kernel⟩,
   ⟨{}, 63, by decide +kernel⟩,
   ⟨{ host := { page := [(63, { rx := { enable := true } })] } }, 63, by decide +kernel⟩,
   ⟨{}, 63, 64, by decide +kernel⟩,
   ⟨{}, 63, 65, by decide +kernel⟩,
   ⟨{}, 63, 64, by decide +kernel⟩,
   ⟨{ host := { page := [(63, { gmuTail := 64 })] } }, 63, 0, by decide +kernel⟩,
   ⟨{ host := { page := [(63, { gmuTail := 65 })] } }, 63, 0, by decide +kernel⟩,
   ⟨{ host := { page := [(63, { assigned := [{ pkt := 0, cause := 1 }], rx := { enable := true } })] }, pkt := [(0, { live := true, verdict := .pending })] }, 63, { pkt := 0, cause := 1 }, [], by decide +kernel⟩,
   ⟨{ host := { page := [(63, { assigned := [{ pkt := 0, cause := 1 }], rx := { enable := true } })] }, pkt := [(0, { live := true, ended := true })] }, 63, { pkt := 0, cause := 1 }, [], by decide +kernel⟩,
   ⟨{ pkt := [(3, { live := true, ended := true })], host := { page := [(63, { assigned := [{ pkt := 3, cause := 0 }] })] } }, 63, { assigned := [{ pkt := 3, cause := 0 }] }, { pkt := 3, cause := 0 }, by decide +kernel⟩,
   ⟨{}, 0, by decide +kernel⟩,
   ⟨{}, 0, by decide +kernel⟩,
   ⟨{ host := { page := [(0, { tx := { enable := true }, txPost := 1, descs := [(0, { port := 511, cls := 0, pipeline := false, gen := 1, bytes := [] })] })] }, cfg := { active := bank [(P.portOwner, 511, 0)] } }, 0, { port := 511, cls := 0, pipeline := false, gen := 1, bytes := [] }, [], by decide +kernel⟩⟩

theorem meets_RegisterWritesAndHostResets :
    (∃ (w : Nat), w ≠ 4 ∧ w ≠ 8)
    ∧ (∃ (a : Nat), a % 4 ≠ 0)
    ∧ (∃ (i : Nat) (v : Nat), i < 64 ∧ v < 2 ^ 32)
    ∧ (∃ (s : State), s.host.page = [] ∧ s.mbx.slot = [])
    ∧ (∃ (s : State), s.host.linkUp = true)
    ∧ (∃ (s : State), s.host.linkUp = false) :=
  ⟨⟨5, by decide +kernel⟩,
   ⟨2, by decide +kernel⟩,
   ⟨63, 2 ^ 32 - 1, by decide +kernel⟩,
   ⟨{}, by decide +kernel⟩,
   ⟨{}, by decide +kernel⟩,
   ⟨{ host := { linkUp := false } }, by decide +kernel⟩⟩

theorem meets_FlowControlAndVerify :
    (∃ (s : State) (p : Nat) (b : List Byte), s.isUp p = true ∧ s.par P.flowCtrl p = 1 ∧ beAt b 0 6 = 0x0180C2000001 ∧ beAt b 12 2 = 0x8808 ∧ beAt b 14 2 = 0x0001)
    ∧ (∃ (s : State) (p : Nat) (b : List Byte), s.isUp p = true ∧ s.par P.flowCtrl p = 2 ∧ beAt b 0 6 = 0x0180C2000001 ∧ beAt b 12 2 = 0x8808 ∧ beAt b 14 2 = 0x0101)
    ∧ (∃ (s : State) (p : Nat) (k : Nat), s.pfcMapped p k = false)
    ∧ (∃ (s : State) (p : Nat), (s.isUp p = false ∨ s.par P.flowCtrl p = 0))
    ∧ (∃ (s : State) (p : Nat) (b : List Byte), s.par P.flowCtrl p = 2 ∧ beAt b 14 2 = 0x0001)
    ∧ (∃ (b : List Byte), beAt b 0 6 ≠ 0x0180C2000001)
    ∧ (∃ (s : State) (p : Nat) (k : Nat), (s.prt p).pause.at k ≤ s.time.mono)
    ∧ (∃ (s : State) (p : Nat) (k : Nat), s.isUp p = true ∧ bit (s.prt p).xoff k = true ∧ (s.prt p).resend.at k ≤ s.time.mono)
    ∧ (∃ (s : State) (p : Nat), s.verifying p = true ∧ (s.prt p).verifyAt ≤ s.time.mono ∧ (s.prt p).attempts ≠ 3)
    ∧ (∃ (s : State) (p : Nat), s.verifying p = true ∧ 0 < (s.prt p).attempts)
    ∧ (∃ (s : State) (p : Nat) (n : Nat), ((s.prt p).fecLap + n < s.par P.fecDegrade p ∨ s.par P.fecDegrade p ≤ (s.prt p).fecLap))
    ∧ (∃ (s : State) (p : Nat) (n : Nat), (s.prt p).fecLap < s.par P.fecDegrade p ∧ s.par P.fecDegrade p ≤ (s.prt p).fecLap + n) :=
  ⟨⟨{ port := [(511, { link := .up })], cfg := { active := bank [(P.flowCtrl, 511, 1)] } }, 511, beBytes 6 0x0180C2000001 ++ List.replicate 6 0#8 ++ beBytes 2 0x8808 ++ beBytes 2 1, by decide +kernel⟩,
   ⟨{ port := [(511, { link := .up })], cfg := { active := bank [(P.flowCtrl, 511, 2)] } }, 511, beBytes 6 0x0180C2000001 ++ List.replicate 6 0#8 ++ beBytes 2 0x8808 ++ beBytes 2 0x0101, by decide +kernel⟩,
   ⟨{ cfg := { active := bank ((List.range 16).map (fun c => (P.pfcMap, c, 7))) } }, 0, 0, by decide +kernel⟩,
   ⟨{}, 0, by decide +kernel⟩,
   ⟨{ cfg := { active := bank [(P.flowCtrl, 511, 2)] } }, 511, List.replicate 14 0#8 ++ beBytes 2 1, by decide +kernel⟩,
   ⟨[], by decide +kernel⟩,
   ⟨{ time := { mono := 9 }, port := [(511, { pause := [(8, 9)] })] }, 511, 8, by decide +kernel⟩,
   ⟨{ time := { mono := 9 }, port := [(511, { link := .up, xoff := 256, resend := [(8, 9)] })] }, 511, 8, by decide +kernel⟩,
   ⟨{ port := [(511, { link := .up, attempts := 2 })], cfg := { active := bank [(P.preemptEnable, 511, 1), (P.verifyEnable, 511, 1)] } }, 511, by decide +kernel⟩,
   ⟨{ port := [(511, { link := .up, attempts := 1 })], cfg := { active := bank [(P.preemptEnable, 511, 1), (P.verifyEnable, 511, 1)] } }, 511, by decide +kernel⟩,
   ⟨{ cfg := { active := bank [(P.fecDegrade, 511, 10)] } }, 511, 9, by decide +kernel⟩,
   ⟨{ cfg := { active := bank [(P.fecDegrade, 511, 10)] } }, 511, 10, by decide +kernel⟩⟩

theorem meets_LinkStateFollowsItsLocks :
    (∃ (s : State) (p : Nat), (s.prt p).link = .acquire)
    ∧ (∃ (s : State) (p : Nat), (s.prt p).link = .up)
    ∧ (∃ (s : State) (p : Nat), (s.prt p).link = .upPending)
    ∧ (∃ (s : State) (p : Nat), (s.prt p).link = .upPending ∧ (s.prt p).debounce ≤ s.time.mono)
    ∧ (∃ (s : State) (p : Nat) (e : Nat), (s.prt p).link = .up ∧ (s.prt p).loss = some e ∧ e ≤ s.time.mono)
    ∧ (∃ (s : State) (p : Nat), (s.prt p).hold = some 0)
    ∧ (∃ (s : State) (p : Nat), s.parOn P.anEnable p = true ∧ (s.prt p).link = .acquire)
    ∧ (∃ (s : State) (p : Nat) (e : Nat), (s.prt p).link = .acquire ∧ (s.prt p).train = some e ∧ e ≤ s.time.mono)
    ∧ (∃ (s : State) (p : Nat), (s.prt p).link = .disabled) :=
  ⟨⟨{ port := [(511, { link := .acquire })], cfg := { active := bank [(P.anEnable, 511, 1)] } }, 511, by decide +kernel⟩,
   ⟨{ port := [(511, { link := .up })] }, 511, by decide +kernel⟩,
   ⟨{ port := [(511, { link := .upPending })] }, 511, by decide +kernel⟩,
   ⟨{ port := [(511, { link := .upPending })] }, 511, by decide +kernel⟩,
   ⟨{ time := { mono := 5 }, port := [(511, { link := .up, loss := some 5 })] }, 511, 5, by decide +kernel⟩,
   ⟨{ port := [(511, { hold := some 0 })] }, 511, by decide +kernel⟩,
   ⟨{ port := [(511, { link := .acquire })], cfg := { active := bank [(P.anEnable, 511, 1)] } }, 511, by decide +kernel⟩,
   ⟨{ time := { mono := 5 }, port := [(511, { link := .acquire, train := some 5 })] }, 511, 5, by decide +kernel⟩,
   ⟨{}, 511, by decide +kernel⟩⟩

theorem meets_FramesAreReceivedWhole :
    (∃ (s : State) (p : Nat) (r : Nat) (f : RxFrame), s.isUp p = true ∧ (s.prt p).loopback = 0 ∧ f.codeword = false ∧ f.assembly = false ∧ f.ended = true ∧ s.cfg.active.rxReason p f = some r)
    ∧ (∃ (s : State) (u : State) (p : Nat) (f : RxFrame) (l : List Byte), l = f.bytes.take (f.bytes.length - 4) ∧ u = { s with nextPkt := s.nextPkt + 1, pkt := s.pkt.put s.nextPkt ( { live := true, port := p, rx := f, ended := true, arrived := s.time.mono, rxTime := s.time.dev, whole := f.preempt, stage := .fifo } : Packet) } ∧ s.isUp p = true ∧ (s.prt p).loopback = 0 ∧ f.codeword = false ∧ f.assembly = false ∧ f.ended = true ∧ s.parOn P.portRole p = false ∧ s.cfg.active.rxReason p f = none ∧ beAt f.bytes 12 2 ≠ 0x8808 ∧ s.fifoBytes (pipeOf p) + f.bytes.length ≤ 65536 ∧ s.ptpEvent p l = none)
    ∧ (∃ (s : State) (u : State) (p : Nat) (f : RxFrame) (l : List Byte) (o : _) (t : _), l = f.bytes.take (f.bytes.length - 4) ∧ u = { s with nextPkt := s.nextPkt + 1, pkt := s.pkt.put s.nextPkt ( { live := true, port := p, rx := f, ended := true, arrived := s.time.mono, rxTime := s.time.dev, whole := f.preempt, stage := .fifo } : Packet) } ∧ t = (((s.time.dev + (s.cfg.active.pcsDelay p).1 : Nat) : Int) * 1000 + s.parI P.ptpTrimRx p).toNat / 1000 ∧ s.isUp p = true ∧ (s.prt p).loopback = 0 ∧ f.codeword = false ∧ f.assembly = false ∧ f.ended = true ∧ s.parOn P.portRole p = false ∧ s.cfg.active.rxReason p f = none ∧ beAt f.bytes 12 2 ≠ 0x8808 ∧ s.fifoBytes (pipeOf p) + f.bytes.length ≤ 65536 ∧ s.ptpEvent p l = some o)
    ∧ (∃ (s : State) (p : Nat) (f : RxFrame), s.isUp p = true ∧ (s.prt p).loopback = 0 ∧ f.codeword = false ∧ f.assembly = false ∧ f.ended = true ∧ s.parOn P.portRole p = false ∧ s.cfg.active.rxReason p f = none ∧ beAt f.bytes 12 2 ≠ 0x8808 ∧ 65536 < s.fifoBytes (pipeOf p) + f.bytes.length)
    ∧ (∃ (s : State) (p : Nat) (f : RxFrame), s.isUp p = true ∧ (s.prt p).loopback = 0 ∧ f.codeword = false ∧ f.assembly = true ∧ f.ended = true)
    ∧ (∃ (s : State) (p : Nat) (f : RxFrame), s.isUp p = false ∧ f.codeword = false ∧ (s.prt p).loopback = 0)
    ∧ (∃ (s : State) (p : Nat), (s.prt p).loopback = 1)
    ∧ (∃ (s : State) (p : Nat), (s.prt p).loopback = 2)
    ∧ (∃ (b : Bank) (p : Nat), b.on P.portRole p = false)
    ∧ (∃ (s : State) (n : Nat) (p : Packet), p = s.pkt.at n ∧ p.live = true ∧ p.ended = false ∧ p.rx.assembly = false ∧ s.cfg.active.rxReason p.port p.rx = none ∧ p.metered = none ∧ p.sduStream = none ∧ p.learn = none ∧ p.bench = none ∧ p.stage = .fifo ∧ s.copiesOf n = [] ∧ s.pktWanted n = false ∧ s.ptpEvent p.port (p.rx.bytes.take (p.rx.bytes.length - 4)) = none)
    ∧ (∃ (s : State) (p : Packet), s.fromRelay p = false)
    ∧ (∃ (s : State) (n : Nat) (p : Packet), p = s.pkt.at n ∧ p.live = true ∧ p.ended = false ∧ p.rx.assembly = true)
    ∧ (∃ (s : State) (u : State) (n : Nat) (p : Packet) (r : _), p = s.pkt.at n ∧ u = (if r = 1 then s.endAt n (s.cfg.active.longest p.port) else s) ∧ p.live = true ∧ p.ended = false ∧ p.rx.assembly = false ∧ s.cfg.active.rxReason p.port p.rx = some r)
    ∧ (∃ (s : State) (n : Nat), ((s.pkt.at n).live = false ∨ (s.pkt.at n).ended = true)) :=
  ⟨⟨{ port := [(511, { link := .up })] }, 511, 0, { bytes := List.replicate 63 0#8 }, by decide +kernel⟩,
   ⟨{ port := [(511, { link := .up })] }, _, 511, { bytes := List.replicate 64 0#8 }, _, rfl, rfl, by decide +kernel⟩,
   ⟨{ port := [(511, { link := .up })] }, _, 511, { bytes := List.replicate 12 0#8 ++ beBytes 2 0x88F7 ++ List.replicate 50 0#8 }, _, 14, _, rfl, rfl, rfl, by decide +kernel⟩,
   ⟨{ port := [(511, { link := .up })], pkt := [(1, { live := true, port := 480, rx := { bytes := List.replicate 65473 0#8 } })] }, 511, { bytes := List.replicate 64 0#8 }, by decide +kernel⟩,
   ⟨{ port := [(511, { link := .up })] }, 511, { bytes := List.replicate 64 0#8, assembly := true }, by decide +kernel⟩,
   ⟨{}, 511, { bytes := [] }, by decide +kernel⟩,
   ⟨{ port := [(511, { loopback := 1 })] }, 511, by decide +kernel⟩,
   ⟨{ port := [(511, { loopback := 2 })] }, 511, by decide +kernel⟩,
   ⟨[], 511, by decide +kernel⟩,
   ⟨{ pkt := [(3, { live := true, rx := { bytes := List.replicate 64 0#8 }, stage := .fifo })] }, 3, _, rfl, by decide +kernel⟩,
   ⟨{}, { rx := { bytes := List.replicate 64 0#8 } }, by decide +kernel⟩,
   ⟨{ pkt := [(3, { live := true, rx := { bytes := [], assembly := true } })] }, 3, _, rfl, by decide +kernel⟩,
   ⟨{ pkt := [(3, { live := true, rx := { bytes := List.replicate 64 0#8, cut := true } })] }, _, 3, _, 4, rfl, rfl, by decide +kernel⟩,
   ⟨{}, 0, by decide +kernel⟩⟩

theorem meets_StrideEngineRuns :
    (∃ (s : State) (n : Nat) (k : Nat), (s.pkt.at n).live = true ∧ (s.pkt.at n).stage = .fifo ∧ (s.pkt.at n).ended = true ∧ s.behind n (fun t => decide (t = .fifo)) = false ∧ s.stride.halted.at (2 * pipeOf (s.pkt.at n).port) = false ∧ s.freeSlot (2 * pipeOf (s.pkt.at n).port) = some k)
    ∧ (∃ (s : State) (n : Nat), (s.behind n (fun t => decide (t = .fifo)) = true ∨ s.freeSlot (2 * pipeOf (s.pkt.at n).port) = none ∨ s.stride.halted.at (2 * pipeOf (s.pkt.at n).port) = true))
    ∧ (∃ (s : State) (engine : Nat) (k : Nat), s.freeSlot engine = some k)
    ∧ (∃ (s : State) (engine : Nat) (k : Nat) (j : _), s.freeSlot engine = some k ∧ j < 3)
    ∧ (∃ (s : State) (engine : Nat) (k : Nat) (j : _), s.freeSlot engine = some k ∧ j < 3 ∧ j < k)
    ∧ (∃ (s : State) (n : Nat) (c : Ctx), (s.pkt.at n).live = true ∧ (s.pkt.at n).stage = .engine c ∧ c.words < 64 ∧ s.time.mono < c.start + 640 ∧ c.waits = none ∧ s.stride.trace.at (2 * pipeOf (s.pkt.at n).port) = false)
    ∧ (∃ (s : State) (n : Nat) (c : Ctx), runWord true (s.bankOf (s.pkt.at n).gen) (s.pkt.at n).port (s.view (s.pkt.at n)) (!(s.sec.slot.any (fun e => e.2.st == 2 && e.2.assoc == M.assoc.get (s.pkt.at n).md))) ((s.stride.image c.bank).ingress.getD c.addr 0) (s.pkt.at n).md c = .wait ∧ (s.pkt.at n).live = true ∧ (s.pkt.at n).stage = .engine c ∧ c.words < 64 ∧ s.time.mono < c.start + 640 ∧ c.waits = none ∧ s.stride.trace.at (2 * pipeOf (s.pkt.at n).port) = false ∧ (s.stride.image c.bank).builtin = false)
    ∧ (∃ (s : State) (n : Nat) (c : Ctx) (md : _) (c' : _), runWord true (s.bankOf (s.pkt.at n).gen) (s.pkt.at n).port (s.view (s.pkt.at n)) (!(s.sec.slot.any (fun e => e.2.st == 2 && e.2.assoc == M.assoc.get (s.pkt.at n).md))) ((s.stride.image c.bank).ingress.getD c.addr 0) (s.pkt.at n).md c = .next md c' ∧ (s.pkt.at n).live = true ∧ (s.pkt.at n).stage = .engine c ∧ c.words < 64 ∧ s.time.mono < c.start + 640 ∧ c.waits = none ∧ s.stride.trace.at (2 * pipeOf (s.pkt.at n).port) = false ∧ (s.stride.image c.bank).builtin = false)
    ∧ (∃ (s : State) (n : Nat) (c : Ctx), (s.pkt.at n).stage = .engine c ∧ (64 ≤ c.words ∨ c.start + 640 ≤ s.time.mono))
    ∧ (∃ (s : State) (n : Nat) (w : Nat) (c : Ctx), (s.pkt.at n).stage = .engine c ∧ c.waits = some w ∧ s.time.mono < w + 160)
    ∧ (∃ (s : State) (n : Nat) (w : Nat) (c : Ctx), (s.pkt.at n).stage = .engine c ∧ c.waits = some w ∧ w + 160 ≤ s.time.mono)
    ∧ (∃ (s : State) (k : Nat) (c : Ctx) (w : _), (s.cpy.at k).place = .egress c ∧ c.waits = some w ∧ w + 160 ≤ s.time.mono)
    ∧ (∃ (s : State) (k : Nat) (c : Ctx), (s.cpy.at k).place = .egress c ∧ (64 ≤ c.words ∨ c.start + 640 ≤ s.time.mono))
    ∧ (∃ (s : State) (n : Nat), (s.bankOf (s.pkt.at n).gen).getN P.portOwner (s.pkt.at n).port ≠ 64 ∧ ((s.bankOf (s.pkt.at n).gen).filter (fun e => e.1 / 2 ^ 32 == P.tapEnable.id && e.2 == 1)) = [])
    ∧ (∃ (s : State) (n : Nat) (m : _), (s.bankOf (s.pkt.at n).gen).getN P.portOwner (s.pkt.at n).port ≠ 64 ∧ ((s.bankOf (s.pkt.at n).gen).filter (fun e => e.1 / 2 ^ 32 == P.tapEnable.id && e.2 == 1)) = [] ∧ m ≠ n) :=
  ⟨⟨{ pkt := [(3, { live := true, ended := true })] }, 3, 0, by decide +kernel⟩,
   ⟨{ pkt := [(2, { live := true }), (3, { live := true })] }, 3, by decide +kernel⟩,
   ⟨{}, 0, 0, by decide +kernel⟩,
   ⟨{}, 0, 0, 2, by decide +kernel⟩,
   ⟨{ pkt := [(3, { live := true, stage := .engine {} })] }, 0, 1, 0, by decide +kernel⟩,
   ⟨{ pkt := [(3, { live := true, stage := .engine {} })], stride := { bank0 := { builtin := false, ingress := [0] } } }, 3, {}, by decide +kernel⟩,
   ⟨{ pkt := [(3, { live := true, stage := .engine {} })], stride := { bank0 := { builtin := false, ingress := [putFields 0 [(W.waitOn, 1), (W.waitArg, 200)]] } } }, 3, {}, by rfl, by decide +kernel⟩,
   ⟨{ pkt := [(3, { live := true, stage := .engine {} })], stride := { bank0 := { builtin := false, ingress := [0] } } }, 3, {}, _, _, by rfl, by decide +kernel⟩,
   ⟨{ time := { mono := 640 }, pkt := [(3, { live := true, stage := .engine {} })] }, 3, {}, by decide +kernel⟩,
   ⟨{ time := { mono := 159 }, pkt := [(3, { live := true, stage := .engine { waits := some 0 } })] }, 3, 0, { waits := some 0 }, by decide +kernel⟩,
   ⟨{ time := { mono := 160 }, pkt := [(3, { live := true, stage := .engine { waits := some 0 } })] }, 3, 0, { waits := some 0 }, by decide +kernel⟩,
   ⟨{ time := { mono := 160 }, cpy := [(3, { live := true, place := .egress { waits := some 0 } })] }, 3, { waits := some 0 }, 0, by decide +kernel⟩,
   ⟨{ cpy := [(3, { live := true, place := .egress { words := 64 } })] }, 3, { words := 64 }, by decide +kernel⟩,
   ⟨{ cfg := { active := bank [(P.portOwner, 0, 63)] } }, 3, by decide +kernel⟩,
   ⟨{ cfg := { active := bank [(P.portOwner, 0, 63)] } }, 3, 4, by decide +kernel⟩⟩

theorem meets_LookupsAndActionsInOrder_1 :
    (∃ (s : State) (n : Nat) (p : Packet), p = s.pkt.at n ∧ p.live = true ∧ p.stage = .parsed ∧ s.behind n Stage.beforeLookup = false ∧ M.verdict.get p.md ≠ 0)
    ∧ (∃ (s : State) (n : Nat) (p : Packet), p = s.pkt.at n ∧ p.live = true ∧ p.stage = .parsed ∧ s.behind n Stage.beforeLookup = false ∧ M.verdict.get p.md = 0 ∧ M.keyProfile.get p.md = 0)
    ∧ (∃ (s : State) (n : Nat) (p : Packet), p = s.pkt.at n ∧ p.live = true ∧ p.stage = .parsed ∧ s.behind n Stage.beforeLookup = false)
    ∧ (∃ (s : State) (n : Nat), s.behind n Stage.beforeLookup = true)
    ∧ (∃ (s : State) (n : Nat) (used : Nat) (p : Packet), p = s.pkt.at n ∧ used = (if s.tbl.stAt = s.time.mono then s.tbl.stReads else 0) ∧ s.express p (s.actionSet p false).cls = true)
    ∧ (∃ (s : State) (n : Nat) (used : Nat) (p : Packet), p = s.pkt.at n ∧ used = (if s.tbl.stAt = s.time.mono then s.tbl.stReads else 0) ∧ s.express p (s.actionSet p false).cls = false ∧ (512 ≤ s.stationPending (pipeOf p.port) ∨ 12 ≤ used))
    ∧ (∃ (s : State) (n : Nat) (used : Nat) (p : Packet), p = s.pkt.at n ∧ used = (if s.tbl.stAt = s.time.mono then s.tbl.stReads else 0) ∧ s.express p (s.actionSet p false).cls = false ∧ s.stationPending (pipeOf p.port) < 512 ∧ used < 12)
    ∧ (∃ (s : State) (n : Nat) (p : Packet) (b : Bank), p = s.pkt.at n ∧ b = s.bankOf p.gen)
    ∧ (∃ (s : State) (n : Nat) (p : Packet) (b : Bank), p = s.pkt.at n ∧ b = s.bankOf p.gen ∧ b.getN P.expressMiss p.port = 0)
    ∧ (∃ (s : State) (n : Nat) (p : Packet) (b : Bank), p = s.pkt.at n ∧ b = s.bankOf p.gen ∧ b.getN P.expressMiss p.port = 1) :=
  ⟨⟨{ pkt := [(3, { live := true, stage := .parsed, md := putFields 0 [(M.verdict, 1)] })] }, 3, _, rfl, by decide +kernel⟩,
   ⟨{ pkt := [(3, { live := true, stage := .parsed })] }, 3, _, rfl, by decide +kernel⟩,
   ⟨{ pkt := [(3, { live := true, stage := .parsed })] }, 3, _, rfl, by decide +kernel⟩,
   ⟨{ pkt := [(2, { live := true }), (3, { live := true, stage := .parsed })] }, 3, by decide +kernel⟩,
   ⟨{ cfg := { active := bank [(P.classExpress, 0, 0xFFFF)] } }, 3, _, _, rfl, rfl, by decide +kernel⟩,
   ⟨{ tbl := { stReads := 12 } }, 3, _, _, rfl, rfl, by decide +kernel⟩,
   ⟨{}, 3, _, _, rfl, rfl, by decide +kernel⟩,
   ⟨{}, 3, _, _, rfl, rfl⟩,
   ⟨{}, 3, _, _, rfl, rfl, by decide +kernel⟩,
   ⟨{ cfg := { active := bank [(P.expressMiss, 0, 1)] } }, 3, _, _, rfl, rfl, by decide +kernel⟩⟩

theorem meets_LookupsAndActionsInOrder_2 :
    (∃ (s : State) (n : Nat) (p : Packet) (b : Bank), p = s.pkt.at n ∧ b = s.bankOf p.gen ∧ 2 ≤ b.getN P.expressMiss p.port)
    ∧ (∃ (s : State) (n : Nat) (w : Nat) (used : Nat) (more : Nat) (bad : List BadEntry) (p : Packet) (b : Bank) (key : Nat), p = s.pkt.at n ∧ b = s.bankOf p.gen ∧ key = stationKey (p.frontKey b (M.keyProfile.get p.md)) ∧ used = (if s.tbl.stAt = s.time.mono then s.tbl.stReads else 0) ∧ more = s.stationReads b (badCodes bad) key - 1 ∧ p.live = true ∧ p.stage = .station w ∧ w + 2000 ≤ s.time.mono)
    ∧ (∃ (s : State) (n : Nat) (w : Nat) (used : Nat) (more : Nat) (bad : List BadEntry) (p : Packet) (b : Bank) (key : Nat), p = s.pkt.at n ∧ b = s.bankOf p.gen ∧ key = stationKey (p.frontKey b (M.keyProfile.get p.md)) ∧ used = (if s.tbl.stAt = s.time.mono then s.tbl.stReads else 0) ∧ more = s.stationReads b (badCodes bad) key - 1 ∧ p.live = true ∧ p.stage = .station w ∧ s.time.mono < w + 2000)
    ∧ (∃ (s : State) (n : Nat) (w : Nat) (used : Nat) (more : Nat) (bad : List BadEntry) (p : Packet) (b : Bank) (key : Nat), p = s.pkt.at n ∧ b = s.bankOf p.gen ∧ key = stationKey (p.frontKey b (M.keyProfile.get p.md)) ∧ used = (if s.tbl.stAt = s.time.mono then s.tbl.stReads else 0) ∧ more = s.stationReads b (badCodes bad) key - 1 ∧ p.live = true ∧ p.stage = .station w ∧ s.time.mono < w + 2000 ∧ 12 < used + more)
    ∧ (∃ (s : State) (n : Nat) (w : Nat) (used : Nat) (more : Nat) (bad : List BadEntry) (p : Packet) (b : Bank) (key : Nat), p = s.pkt.at n ∧ b = s.bankOf p.gen ∧ key = stationKey (p.frontKey b (M.keyProfile.get p.md)) ∧ used = (if s.tbl.stAt = s.time.mono then s.tbl.stReads else 0) ∧ more = s.stationReads b (badCodes bad) key - 1 ∧ p.live = true ∧ p.stage = .station w ∧ s.time.mono < w + 2000 ∧ used + more ≤ 12 ∧ (∀ c ∈ s.stationCells b (badCodes bad) key, s.parityFails (badCodes bad) c = false))
    ∧ (∃ (s : State) (n : Nat) (p : Packet), p = s.pkt.at n ∧ p.live = true ∧ p.stage = .classified ∧ s.behind n Stage.beforeRelease = false ∧ (M.verdict.get p.md ≠ 0 ∨ s.waitsTail p = false) ∧ s.yields n = false)
    ∧ (∃ (s : State) (n : Nat), (s.behind n Stage.beforeRelease = true ∨ s.yields n = true))
    ∧ (∃ (s : State) (n : Nat) (p : Packet), p = s.pkt.at n ∧ p.live = true ∧ p.stage = .classified ∧ s.behind n Stage.beforeRelease = false ∧ (M.verdict.get p.md ≠ 0 ∨ s.waitsTail p = false) ∧ s.yields n = false ∧ p.relaySrc ≠ none ∧ p.relayField H.dst ≠ s.fab.id ∧ p.relayField H.hops ≤ 1)
    ∧ (∃ (s : State) (n : Nat) (p : Packet), p = s.pkt.at n ∧ p.live = true ∧ p.stage = .classified ∧ s.behind n Stage.beforeRelease = false ∧ (M.verdict.get p.md ≠ 0 ∨ s.waitsTail p = false) ∧ s.yields n = false ∧ p.relaySrc ≠ none ∧ p.relayField H.dst ≠ s.fab.id ∧ 1 < p.relayField H.hops)
    ∧ (∃ (s : State) (n : Nat) (p : Packet), p = s.pkt.at n ∧ p.live = true ∧ p.stage = .classified ∧ s.behind n Stage.beforeRelease = false ∧ (M.verdict.get p.md ≠ 0 ∨ s.waitsTail p = false) ∧ s.yields n = false ∧ (p.relaySrc = none ∨ p.relayField H.dst = s.fab.id) ∧ M.verdict.get p.md = 2) :=
  ⟨⟨{ cfg := { active := bank [(P.expressMiss, 0, 2)] } }, 3, _, _, rfl, rfl, by decide +kernel⟩,
   ⟨{ cfg := { active := seeds }, time := { mono := 2000 }, pkt := [(3, { live := true, stage := .station 0 })] }, 3, 0, _, _, [], _, _, _, rfl, rfl, rfl, rfl, rfl, by decide +kernel⟩,
   ⟨{ cfg := { active := seeds }, time := { mono := 1999 }, pkt := [(3, { live := true, stage := .station 0 })] }, 3, 0, _, _, [], _, _, _, rfl, rfl, rfl, rfl, rfl, by decide +kernel⟩,
   ⟨{ cfg := { active := seeds }, time := { mono := 1999 }, tbl := { stAt := 1999, stReads := 13 }, pkt := [(3, { live := true, stage := .station 0 })] }, 3, 0, _, _, [], _, _, _, rfl, rfl, rfl, rfl, rfl, by decide +kernel⟩,
   ⟨{ cfg := { active := seeds }, time := { mono := 1999 }, tbl := { stAt := 1999, stReads := 12 }, pkt := [(3, { live := true, stage := .station 0 })] }, 3, 0, _, _, [], _, _, _, rfl, rfl, rfl, rfl, rfl, by decide +kernel⟩,
   ⟨{ pkt := [(3, { live := true, ended := true, stage := .classified })] }, 3, _, rfl, by decide +kernel⟩,
   ⟨{ pkt := [(2, { live := true }), (3, { live := true, stage := .classified })] }, 3, by decide +kernel⟩,
   ⟨{ fab := { id := 9 }, pkt := [(3, { live := true, ended := true, stage := .classified, relaySrc := some (0, 0, 0), rx := { bytes := List.replicate 16 0#8 } })] }, 3, _, rfl, by decide +kernel⟩,
   ⟨{ fab := { id := 9 }, pkt := [(3, { live := true, ended := true, stage := .classified, relaySrc := some (0, 0, 0), rx := { bytes := List.replicate 16 0x42#8 } })] }, 3, _, rfl, by decide +kernel⟩,
   ⟨{ pkt := [(3, { live := true, ended := true, stage := .classified, md := putFields 0 [(M.verdict, 2)] })] }, 3, _, rfl, by decide +kernel⟩⟩

theorem meets_LookupsAndActionsInOrder_3 :
    (∃ (s : State) (n : Nat) (p : Packet) (u : _), p = s.pkt.at n ∧ u = s.updPkt n (fun p => { p with md := putFields p.md [(M.cause, 0x20), (M.verdict, 2)] }) ∧ p.live = true ∧ p.stage = .classified ∧ s.behind n Stage.beforeRelease = false ∧ (M.verdict.get p.md ≠ 0 ∨ s.waitsTail p = false) ∧ s.yields n = false ∧ (p.relaySrc = none ∨ p.relayField H.dst = s.fab.id) ∧ M.verdict.get p.md ≠ 2 ∧ M.frontHit.get p.md ≠ 1 ∧ M.prefixHit.get p.md ≠ 1 ∧ M.ruleHit.get p.md ≠ 1 ∧ (s.bankOf p.gen).getN P.defaultAction p.port = 0)
    ∧ (∃ (s : State) (n : Nat) (p : Packet) (u : _), p = s.pkt.at n ∧ u = s.updPkt n (fun p => { p with md := putFields p.md [(M.cause, 0x20), (M.verdict, 2)] }) ∧ p.live = true ∧ p.stage = .classified ∧ s.behind n Stage.beforeRelease = false ∧ (M.verdict.get p.md ≠ 0 ∨ s.waitsTail p = false) ∧ s.yields n = false ∧ (p.relaySrc = none ∨ p.relayField H.dst = s.fab.id) ∧ M.verdict.get p.md ≠ 2 ∧ M.frontHit.get p.md ≠ 1 ∧ M.prefixHit.get p.md ≠ 1 ∧ M.ruleHit.get p.md ≠ 1 ∧ (s.bankOf p.gen).getN P.defaultAction p.port = 1)
    ∧ (∃ (s : State) (n : Nat) (p : Packet) (u : _), p = s.pkt.at n ∧ u = s.updPkt n (fun p => { p with md := putFields p.md [(M.cause, 0x20), (M.verdict, 2)] }) ∧ p.live = true ∧ p.stage = .classified ∧ s.behind n Stage.beforeRelease = false ∧ (M.verdict.get p.md ≠ 0 ∨ s.waitsTail p = false) ∧ s.yields n = false ∧ (p.relaySrc = none ∨ p.relayField H.dst = s.fab.id) ∧ M.verdict.get p.md ≠ 2 ∧ M.frontHit.get p.md ≠ 1 ∧ M.prefixHit.get p.md ≠ 1 ∧ M.ruleHit.get p.md ≠ 1 ∧ 2 ≤ (s.bankOf p.gen).getN P.defaultAction p.port)
    ∧ (∃ (s : State) (n : Nat) (bad : List BadEntry) (p : Packet) (a : ActionSet) (f : Nat) (broken : List (Nat × Nat)), p = s.pkt.at n ∧ a = s.actionSet p true ∧ broken = (s.recordsRead p a (some f)).filter (fun r => s.recordBad (badCodes bad) r.1 r.2) ∧ p.live = true ∧ p.stage = .classified ∧ s.behind n Stage.beforeRelease = false ∧ (M.verdict.get p.md ≠ 0 ∨ s.waitsTail p = false) ∧ s.yields n = false ∧ (p.relaySrc = none ∨ p.relayField H.dst = s.fab.id) ∧ M.verdict.get p.md ≠ 2 ∧ forwardingResult p a.redirect = some f ∧ broken ≠ [])
    ∧ (∃ (s : State) (n : Nat) (bad : List BadEntry) (p : Packet) (a : ActionSet) (f : Nat) (broken : List (Nat × Nat)), p = s.pkt.at n ∧ a = s.actionSet p true ∧ broken = (s.recordsRead p a (some f)).filter (fun r => s.recordBad (badCodes bad) r.1 r.2) ∧ p.live = true ∧ p.stage = .classified ∧ s.behind n Stage.beforeRelease = false ∧ (M.verdict.get p.md ≠ 0 ∨ s.waitsTail p = false) ∧ s.yields n = false ∧ (p.relaySrc = none ∨ p.relayField H.dst = s.fab.id) ∧ M.verdict.get p.md ≠ 2 ∧ forwardingResult p a.redirect = some f ∧ broken = [] ∧ a.stream = 0 ∧ a.invalid = false ∧ R.type.get f = 0 ∧ (a.rewrite = 0 ∨ s.liveFor p K.rewrite a.rewrite = true))
    ∧ (∃ (s : State) (n : Nat) (bad : List BadEntry) (p : Packet) (a : ActionSet) (f : Nat) (broken : List (Nat × Nat)), p = s.pkt.at n ∧ a = s.actionSet p true ∧ broken = (s.recordsRead p a (some f)).filter (fun r => s.recordBad (badCodes bad) r.1 r.2) ∧ p.live = true ∧ p.stage = .classified ∧ s.behind n Stage.beforeRelease = false ∧ (M.verdict.get p.md ≠ 0 ∨ s.waitsTail p = false) ∧ s.yields n = false ∧ (p.relaySrc = none ∨ p.relayField H.dst = s.fab.id) ∧ M.verdict.get p.md ≠ 2 ∧ forwardingResult p a.redirect = some f ∧ broken = [] ∧ a.stream = 0 ∧ a.invalid = false ∧ R.type.get f = 2)
    ∧ (∃ (s : State) (n : Nat) (bad : List BadEntry) (p : Packet) (a : ActionSet) (f : Nat) (broken : List (Nat × Nat)), p = s.pkt.at n ∧ a = s.actionSet p true ∧ broken = (s.recordsRead p a (some f)).filter (fun r => s.recordBad (badCodes bad) r.1 r.2) ∧ p.live = true ∧ p.stage = .classified ∧ s.behind n Stage.beforeRelease = false ∧ (M.verdict.get p.md ≠ 0 ∨ s.waitsTail p = false) ∧ s.yields n = false ∧ (p.relaySrc = none ∨ p.relayField H.dst = s.fab.id) ∧ M.verdict.get p.md ≠ 2 ∧ forwardingResult p a.redirect = some f ∧ broken = [] ∧ a.stream = 0 ∧ a.invalid = false ∧ R.type.get f = 3)
    ∧ (∃ (s : State) (n : Nat) (bad : List BadEntry) (p : Packet) (a : ActionSet) (f : Nat) (broken : List (Nat × Nat)) (rt : _), p = s.pkt.at n ∧ a = s.actionSet p true ∧ broken = (s.recordsRead p a (some f)).filter (fun r => s.recordBad (badCodes bad) r.1 r.2) ∧ (∀ l mc, rt = .ports l mc → ∀ d ∈ l, d.2 = 0 ∨ s.liveFor p K.rewrite d.2 = true) ∧ (∀ d c r, rt = .relay d c r → r = 0 ∨ s.liveFor p K.rewrite r = true) ∧ p.live = true ∧ p.stage = .classified ∧ s.behind n Stage.beforeRelease = false ∧ (M.verdict.get p.md ≠ 0 ∨ s.waitsTail p = false) ∧ s.yields n = false ∧ (p.relaySrc = none ∨ p.relayField H.dst = s.fab.id) ∧ M.verdict.get p.md ≠ 2 ∧ forwardingResult p a.redirect = some f ∧ broken = [] ∧ a.stream = 0 ∧ a.invalid = false ∧ R.type.get f = 1 ∧ rt = s.nextHop p (R.target.get f) a.rewrite)
    ∧ (∃ (s : State) (n : Nat) (prof : Nat) (key : Nat) (bad : List BadEntry) (p : Packet) (b : Bank) (hit : Option (Nat × Nat)), p = s.pkt.at n ∧ prof = M.keyProfile.get p.md ∧ b = s.bankOf p.gen ∧ key = p.frontKey b prof ∧ hit = (s.frontFind b (badCodes bad) (b.getN P.kpTable prof) key).filter (fun c => R.inst.get (s.entry c).result == p.inst) ∧ p.live = true ∧ p.stage = .parsed ∧ s.behind n Stage.beforeLookup = false ∧ M.verdict.get p.md = 0 ∧ prof ≠ 0 ∧ b.getN P.kpRnfields prof = 0 ∧ b.getN P.kpPrefix prof = 0 ∧ (b.on P.learnEnable p.port = false ∨ b.on P.kpLearn prof = false) ∧ (∀ c ∈ b.frontCells (b.getN P.kpTable prof) key, s.parityFails (badCodes bad) c = false) ∧ hit = none ∧ b.on P.kpStation prof = false)
    ∧ (∃ (s : State) (n : Nat) (prof : Nat) (key : Nat) (bad : List BadEntry) (p : Packet) (b : Bank) (hit : Option (Nat × Nat)) (c : _), p = s.pkt.at n ∧ prof = M.keyProfile.get p.md ∧ b = s.bankOf p.gen ∧ key = p.frontKey b prof ∧ hit = (s.frontFind b (badCodes bad) (b.getN P.kpTable prof) key).filter (fun c => R.inst.get (s.entry c).result == p.inst) ∧ p.live = true ∧ p.stage = .parsed ∧ s.behind n Stage.beforeLookup = false ∧ M.verdict.get p.md = 0 ∧ prof ≠ 0 ∧ b.getN P.kpRnfields prof = 0 ∧ b.getN P.kpPrefix prof = 0 ∧ (b.on P.learnEnable p.port = false ∨ b.on P.kpLearn prof = false) ∧ (∀ c ∈ b.frontCells (b.getN P.kpTable prof) key, s.parityFails (badCodes bad) c = false) ∧ hit = some c ∧ c.1 < 2) :=
  ⟨⟨{ pkt := [(3, { live := true, ended := true, stage := .classified })] }, 3, _, _, rfl, rfl, by decide +kernel⟩,
   ⟨{ cfg := { active := bank [(P.defaultAction, 0, 1)] }, pkt := [(3, { live := true, ended := true, stage := .classified })] }, 3, _, _, rfl, rfl, by decide +kernel⟩,
   ⟨{ cfg := { active := bank [(P.defaultAction, 0, 3)] }, pkt := [(3, { live := true, ended := true, stage := .classified })] }, 3, _, _, rfl, rfl, by decide +kernel⟩,
   ⟨{ pkt := [(3, { live := true, ended := true, stage := .classified, md := putFields 0 [(M.frontHit, 1), (M.frontResult, putFields 0 [(R.type, 1)])] })] }, 3, [⟨4, 0⟩], _, _, putFields 0 [(R.type, 1)], _, rfl, rfl, rfl, by decide +kernel⟩,
   ⟨{ pkt := [(3, { live := true, ended := true, stage := .classified, md := putFields 0 [(M.frontHit, 1)] })] }, 3, [], _, _, 0, _, rfl, rfl, rfl, by decide +kernel⟩,
   ⟨{ pkt := [(3, { live := true, ended := true, stage := .classified, md := putFields 0 [(M.frontHit, 1), (M.frontResult, putFields 0 [(R.type, 2)])] })] }, 3, [], _, _, putFields 0 [(R.type, 2)], _, rfl, rfl, rfl, by decide +kernel⟩,
   ⟨{ pkt := [(3, { live := true, ended := true, stage := .classified, md := putFields 0 [(M.frontHit, 1), (M.frontResult, putFields 0 [(R.type, 3)])] })] }, 3, [], _, _, putFields 0 [(R.type, 3)], _, rfl, rfl, rfl, by decide +kernel⟩,
   ⟨{ pkt := [(3, { live := true, ended := true, stage := .classified, md := putFields 0 [(M.frontHit, 1), (M.frontResult, putFields 0 [(R.type, 1)])] })] }, 3, [], _, _, putFields 0 [(R.type, 1)], _, .invalid, rfl, rfl, rfl, by exact fun l mc h => (by cases h), by exact fun d c r h => (by cases h), by decide +kernel⟩,
   ⟨{ cfg := { active := seeds.set P.kpRnfields 1 0 |>.set P.kpPrefix 1 0 |>.set P.kpStation 1 0 }, pkt := [(3, { live := true, stage := .parsed, md := putFields 0 [(M.keyProfile, 1)] })] }, 3, _, _, [], _, _, _, rfl, rfl, rfl, rfl, rfl, by decide +kernel⟩,
   ⟨{ cfg := { active := seeds.set P.kpRnfields 1 0 |>.set P.kpPrefix 1 0 }, tbl := { front := [(153595, { valid := true })] }, pkt := [(3, { live := true, stage := .parsed, md := putFields 0 [(M.keyProfile, 1)] })] }, 3, _, _, [], _, _, _, (0, 153595), rfl, rfl, rfl, rfl, rfl, by decide +kernel⟩⟩

theorem meets_VerdictsReachTheirFrames :
    (∃ (s : State) (j : Nat) (n : Nat) (pipe : Nat) (c : CmacJob) (p : Packet), p = s.pkt.at n ∧ s.sec.cmac.at j = some c ∧ c.st = 1 ∧ c.work = .frame n pipe ∧ p.live = true ∧ p.cmac = some j ∧ p.ended = false)
    ∧ (∃ (s : State) (j : Nat) (n : Nat) (pipe : Nat) (c : CmacJob) (p : Packet), p = s.pkt.at n ∧ s.sec.cmac.at j = some c ∧ c.st = 1 ∧ c.work = .frame n pipe ∧ p.live = true ∧ p.cmac = some j ∧ p.ended = true ∧ p.bench = none ∧ s.instGen c.inst = c.gen)
    ∧ (∃ (s : State) (j : Nat) (n : Nat) (pipe : Nat) (c : CmacJob) (p : Packet), p = s.pkt.at n ∧ s.sec.cmac.at j = some c ∧ c.st = 1 ∧ c.work = .frame n pipe ∧ p.live = true ∧ p.cmac = some j ∧ p.ended = true ∧ p.bench = none ∧ s.instGen c.inst ≠ c.gen)
    ∧ (∃ (s : State) (u : State) (j : Nat) (c : CmacJob), u = (match c.key with | some k => State.slotUnref { s with sec := { s.sec with cmac := s.sec.cmac.put j none } } k | none => { s with sec := { s.sec with cmac := s.sec.cmac.put j none } }) ∧ (u.cmacFree = false ∨ u.nextCmac = none))
    ∧ (∃ (s : State) (u : State) (j : Nat) (c : CmacJob) (m : _) (v : _), u = (match c.key with | some k => State.slotUnref { s with sec := { s.sec with cmac := s.sec.cmac.put j none } } k | none => { s with sec := { s.sec with cmac := s.sec.cmac.put j none } }) ∧ u.cmacFree = true ∧ u.nextCmac = some (m, v))
    ∧ (∃ (s : State) (j : Nat) (c : CmacJob) (v : CmacJob), s.sec.cmac.at j = some c ∧ c.st = 2 ∧ s.cmacFree = true ∧ s.nextCmac = some (j, v))
    ∧ (∃ (s : State) (j : Nat) (c : CmacJob) (v : CmacJob), s.sec.cmac.at j = some c ∧ c.st = 2 ∧ s.cmacFree = true ∧ s.nextCmac = some (j, v) ∧ c.rounds ≠ [])
    ∧ (∃ (s : State) (n : Nat), (s.pkt.at n).live = true ∧ (s.pkt.at n).hmac = true ∧ (s.pkt.at n).ended = true ∧ s.pacer.down = false ∧ s.instGen (s.pkt.at n).inst ≠ (s.pkt.at n).instGen ∧ (s.pkt.at n).hbuf = none)
    ∧ (∃ (s : State) (u : State) (n : Nat) (ok : Bool) (p : Packet), p = s.pkt.at n ∧ p.live = true ∧ p.hmac = true ∧ p.ended = true ∧ s.pacer.down = false ∧ s.instGen p.inst = p.instGen ∧ p.hbuf = none ∧ s.hmacKey p.assoc p.keyNum ok = (u, none))
    ∧ (∃ (s : State) (u : State) (n : Nat) (ok : Bool) (key : List Byte) (p : Packet) (v : _), p = s.pkt.at n ∧ u.hmacUse p.assoc p.keyNum = (v, true) ∧ v.pkt = s.pkt ∧ p.live = true ∧ p.hmac = true ∧ p.ended = true ∧ s.pacer.down = false ∧ s.instGen p.inst = p.instGen ∧ p.hbuf = none ∧ s.hmacKey p.assoc p.keyNum ok = (u, some key) ∧ (tagAt (v.bankOf p.gen) p.assoc p.rx.bytes.length).isSome = true ∧ tagMatches (v.bankOf p.gen) p.assoc p.pn (.hmac key) p = false)
    ∧ (∃ (s : State) (u : State) (n : Nat) (ok : Bool) (key : List Byte) (p : Packet) (v : _) (w : _), p = s.pkt.at n ∧ s.hmacKey p.assoc p.keyNum ok = (u, some key) ∧ u.hmacUse p.assoc p.keyNum = (v, true) ∧ v.pkt = s.pkt ∧ v.hmacReplay (v.bankOf p.gen) p.assoc p.keyNum p.pn = (w, true) ∧ w.pkt = s.pkt ∧ p.live = true ∧ p.hmac = true ∧ p.ended = true ∧ s.pacer.down = false ∧ s.instGen p.inst = p.instGen ∧ p.hbuf = none ∧ (tagAt (v.bankOf p.gen) p.assoc p.rx.bytes.length).isSome = true ∧ tagMatches (v.bankOf p.gen) p.assoc p.pn (.hmac key) p = true)
    ∧ (∃ (s : State) (n : Nat), ((s.pkt.at n).ended = false ∨ s.pacer.down = true))
    ∧ (∃ (s : State) (t : State) (n : Nat), (s.pkt.at n).live = true ∧ (s.pkt.at n).ended = true ∧ (s.pkt.at n).bad = false ∧ (s.pkt.at n).judged = false ∧ (s.pkt.at n).hmac = false ∧ (s.pkt.at n).bench = none ∧ (s.pkt.at n).cmac = none ∧ (s.pkt.at n).verdict = .pending ∧ s.tailCheck n = (t, 0))
    ∧ (∃ (s : State) (t : State) (n : Nat) (c : Nat), (s.pkt.at n).live = true ∧ (s.pkt.at n).ended = true ∧ (s.pkt.at n).bad = false ∧ (s.pkt.at n).judged = false ∧ (s.pkt.at n).hmac = false ∧ (s.pkt.at n).bench = none ∧ (s.pkt.at n).cmac = none ∧ (s.pkt.at n).verdict = .pending ∧ s.tailCheck n = (t, c) ∧ c ≠ 0)
    ∧ (∃ (s : State) (n : Nat) (c : Nat), (s.pkt.at n).live = true ∧ (s.pkt.at n).ended = true ∧ (s.pkt.at n).bad = false ∧ (s.pkt.at n).judged = false ∧ (s.pkt.at n).hmac = false ∧ (s.pkt.at n).bench = none ∧ (s.pkt.at n).cmac = none ∧ (s.pkt.at n).verdict = .fail c)
    ∧ (∃ (s : State) (n : Nat), ((s.pkt.at n).ended = false ∨ (s.pkt.at n).judged = true ∨ (s.pkt.at n).verdict = .none)) :=
  ⟨⟨{ sec := { cmac := [(5, some { work := .frame 3 0, level := 0, inst := 0, gen := 0, st := 1 })] }, pkt := [(3, { live := true, cmac := some 5 })] }, 5, 3, 0, { work := .frame 3 0, level := 0, inst := 0, gen := 0, st := 1 }, _, rfl, by decide +kernel⟩,
   ⟨{ sec := { cmac := [(5, some { work := .frame 3 0, level := 0, inst := 0, gen := 0, st := 1 })] }, pkt := [(3, { live := true, ended := true, cmac := some 5 })] }, 5, 3, 0, { work := .frame 3 0, level := 0, inst := 0, gen := 0, st := 1 }, _, rfl, by decide +kernel⟩,
   ⟨{ inst := [(0, { gen := 1 })], sec := { cmac := [(5, some { work := .frame 3 0, level := 0, inst := 0, gen := 0, st := 1 })] }, pkt := [(3, { live := true, ended := true, cmac := some 5 })] }, 5, 3, 0, { work := .frame 3 0, level := 0, inst := 0, gen := 0, st := 1 }, _, rfl, by decide +kernel⟩,
   ⟨{}, _, 5, { work := .frame 3 0, level := 0, inst := 0, gen := 0, st := 1 }, rfl, by decide +kernel⟩,
   ⟨{ sec := { cmac := [(6, some { work := .frame 3 0, level := 0, inst := 0, gen := 0 })] } }, _, 5, { work := .frame 3 0, level := 0, inst := 0, gen := 0, st := 1 }, 6, { work := .frame 3 0, level := 0, inst := 0, gen := 0 }, rfl, by decide +kernel⟩,
   ⟨{ sec := { cmac := [(5, some { work := .frame 3 0, level := 0, inst := 0, gen := 0, st := 2 })] } }, 5, { work := .frame 3 0, level := 0, inst := 0, gen := 0, st := 2 }, { work := .frame 3 0, level := 0, inst := 0, gen := 0, st := 2 }, by decide +kernel⟩,
   ⟨{ sec := { cmac := [(5, some { work := .frame 3 0, level := 0, inst := 0, gen := 0, st := 2, rounds := [[]] })] } }, 5, { work := .frame 3 0, level := 0, inst := 0, gen := 0, st := 2, rounds := [[]] }, { work := .frame 3 0, level := 0, inst := 0, gen := 0, st := 2, rounds := [[]] }, by decide +kernel⟩,
   ⟨{ inst := [(0, { gen := 1 })], pkt := [(3, { live := true, hmac := true, ended := true })] }, 3, by decide +kernel⟩,
   ⟨{ pkt := [(3, { live := true, hmac := true, ended := true })] }, { pkt := [(3, { live := true, hmac := true, ended := true })] }, 3, false, _, rfl, by decide +kernel⟩,
   ⟨hmacState (List.replicate 84 0#8), hmacState (List.replicate 84 0#8), 3, false, List.replicate 32 0#8, _, ((hmacState (List.replicate 84 0#8)).hmacUse 3 1).1, rfl, by exact Prod.ext rfl (by decide +kernel), by rfl, by decide +kernel⟩,
   ⟨hmacState hmacFrame, hmacState hmacFrame, 3, false, List.replicate 32 0#8, _, ((hmacState hmacFrame).hmacUse 3 1).1, ((hmacState hmacFrame).hmacUse 3 1).1, rfl, by rfl, by exact Prod.ext rfl (by decide +kernel), by rfl, by exact Prod.ext rfl rfl, by rfl, by decide +kernel⟩,
   ⟨{}, 3, by decide +kernel⟩,
   ⟨cmacState, cmacState, 3, by decide +kernel⟩,
   ⟨{ pkt := [(3, { live := true, ended := true, verdict := .pending })] }, { pkt := [(3, { live := true, ended := true, verdict := .pending })] }, 3, F.keyUnknown, by decide +kernel⟩,
   ⟨{ pkt := [(3, { live := true, ended := true, verdict := .fail 10 })] }, 3, 10, by decide +kernel⟩,
   ⟨{}, 3, by decide +kernel⟩⟩

theorem meets_BufferRowsMoveCopies :
    (∃ (s : State) (k : Nat) (l : Nat) (above : _) (head : _), (s.cpy.at k).live = true ∧ (s.cpy.at k).place = .residue l ∧ s.buf.residue.find? (fun m => (s.cpy.at m).queue == (s.cpy.at k).queue) = some k ∧ s.admitCopy (s.retried k) = .ok above head)
    ∧ (∃ (s : State) (k : Nat) (l : Nat), (s.cpy.at k).live = true ∧ (s.cpy.at k).place = .residue l ∧ s.buf.residue.find? (fun m => (s.cpy.at m).queue == (s.cpy.at k).queue) = some k ∧ s.admitCopy (s.retried k) = .share)
    ∧ (∃ (s : State) (k : Nat) (l : Nat), (s.cpy.at k).live = true ∧ (s.cpy.at k).place = .residue l ∧ s.buf.residue.find? (fun m => (s.cpy.at m).queue == (s.cpy.at k).queue) = some k ∧ (s.admitCopy (s.retried k) = .full ∨ s.admitCopy (s.retried k) = .headroom))
    ∧ (∃ (s : State) (k : Nat) (l : Nat), (s.cpy.at k).live = true ∧ (s.cpy.at k).place = .residue l ∧ s.par P.mcResidueLaps ≤ l)
    ∧ (∃ (s : State) (k : Nat) (l : Nat), (s.cpy.at k).live = true ∧ (s.cpy.at k).place = .residue l ∧ l < s.par P.mcResidueLaps)
    ∧ (∃ (s : State) (k : Nat), (s.cpy.at k).live = true ∧ (s.cpy.at k).place = .queue ∧ s.hbm.valid = true ∧ (s.subq (s.cpy.at k).queue (s.cpy.at k).quad).middle.contains k = true ∧ ((s.cpy.at k).own ≠ [] ∨ ((s.pkt.at (s.cpy.at k).pkt).ended = true ∧ (s.pkt.at (s.cpy.at k).pkt).verdict ≠ .pending)))
    ∧ (∃ (s : State) (k : Nat), (s.hbm.valid = false ∨ (s.cpy.at k).place ≠ .queue))
    ∧ (∃ (s : State) (q : Nat) (d : Nat) (k : Nat) (l : List Nat), (s.subq q d).middle = k :: l ∧ s.headCells (s.subq q d) < s.par P.spillRefill ∧ l ≠ [])
    ∧ (∃ (s : State) (q : Nat) (d : Nat) (k : Nat) (l : List Nat), (s.subq q d).middle = k :: l ∧ s.headCells (s.subq q d) < s.par P.spillRefill ∧ l = [])
    ∧ (∃ (s : State) (q : Nat) (d : Nat), (s.subq q d).middle = [])
    ∧ (∃ (s : State) (q : Nat) (h : Nat), (s.prt (q / 16)).hold = some h ∧ bit (s.par P.classExpress) (q % 16) = true)
    ∧ (∃ (s : State) (q : Nat), ((s.prt (q / 16)).hold = none ∨ bit (s.par P.classExpress) (q % 16) = false)) :=
  ⟨⟨{ cpy := [(3, { live := true, place := .residue 0 })], buf := { residue := [3] }, pkt := [(0, { ended := true })] }, 3, 0, 0, false, by decide +kernel⟩,
   ⟨{ cpy := [(3, { live := true, place := .residue 0 })], buf := { residue := [3], instCells := [(0, 1000000000)] }, pkt := [(0, { ended := true })] }, 3, 0, by decide +kernel⟩,
   ⟨{ cpy := [(3, { live := true, place := .residue 0 })], buf := { residue := [3] }, pkt := [(0, { ended := true, rx := { bytes := List.replicate 64 0#8 } })], cfg := { active := bank [(P.qmin, 0, 0), (P.anchorReserve, 0, 262144)] } }, 3, 0, by decide +kernel⟩,
   ⟨{ cpy := [(3, { live := true, place := .residue 5 })], cfg := { active := bank [(P.mcResidueLaps, 0, 5)] } }, 3, 5, by decide +kernel⟩,
   ⟨{ cpy := [(3, { live := true, place := .residue 4 })], cfg := { active := bank [(P.mcResidueLaps, 0, 5)] } }, 3, 4, by decide +kernel⟩,
   ⟨{ cpy := [(3, { live := true, own := [1#8] })], hbm := { valid := true }, buf := { sub := [(0, { middle := [3] })] } }, 3, by decide +kernel⟩,
   ⟨{}, 3, by decide +kernel⟩,
   ⟨{ buf := { sub := [(32767, { middle := [3, 4] })] }, cfg := { active := bank [(P.spillRefill, 0, 1)] } }, 8191, 3, 3, [4], by decide +kernel⟩,
   ⟨{ buf := { sub := [(32767, { middle := [3] })] }, cfg := { active := bank [(P.spillRefill, 0, 1)] } }, 8191, 3, 3, [], by decide +kernel⟩,
   ⟨{}, 8191, 3, by decide +kernel⟩,
   ⟨{ port := [(511, { hold := some 1 })], cfg := { active := bank [(P.classExpress, 0, 32768)] } }, 8191, 1, by decide +kernel⟩,
   ⟨{}, 8191, by decide +kernel⟩⟩

theorem meets_AdmissionFollowsItsThresholds :
    (∃ (s : State) (inst : Nat) (n : Nat) (own : Nat) (mini : Nat), s.par P.instCells inst < s.buf.instCells.at inst + (n - (mini - own)))
    ∧ (∃ (s : State) (inst : Nat) (n : Nat) (own : Nat) (mini : Nat), own + n ≤ mini ∧ s.buf.instCells.at inst ≤ s.par P.instCells inst)
    ∧ (∃ (s : State) (inst : Nat) (n : Nat) (own : Nat) (mini : Nat), mini < own + n ∧ 0 < n ∧ s.buf.instCells.at inst + (n - (mini - own)) ≤ s.par P.instCells inst)
    ∧ (∃ (k : Nat), 0 < k)
    ∧ (∃ (s : State) (k : Nat) (c : Copy), c = s.cpy.at k ∧ c.fromHead = false) :=
  ⟨⟨{ buf := { instCells := [(63, 11)] }, cfg := { active := bank [(P.instCells, 63, 11)] } }, 63, 1, 0, 0, by decide +kernel⟩,
   ⟨{ buf := { instCells := [(63, 11)] }, cfg := { active := bank [(P.instCells, 63, 11)] } }, 63, 1, 0, 1, by decide +kernel⟩,
   ⟨{ buf := { instCells := [(63, 10)] }, cfg := { active := bank [(P.instCells, 63, 11)] } }, 63, 1, 0, 0, by decide +kernel⟩,
   ⟨1, by decide +kernel⟩,
   ⟨{}, 0, _, rfl, by decide +kernel⟩⟩

theorem meets_EgressRowsSendFrames :
    (∃ (s : State) (ports : List Nat), (∀ p, p ∈ ports → s.canBegin p = false))
    ∧ (∃ (s : State) (u : State) (pipe : Nat) (p : Nat) (e : Nat), u = s.selectPort p e ∧ pipe < 16 ∧ p / 32 = pipe ∧ s.canBegin p = true)
    ∧ (∃ (s : State) (k : Nat) (c : Copy), c = s.cpy.at k)
    ∧ (∃ (s : State) (k : Nat) (pipe : Nat) (c : Copy), c = s.cpy.at k ∧ c.live = true ∧ pipeOf c.port = pipe ∧ c.place = .selected ∧ s.isUp c.port = true ∧ s.stride.halted.at (2 * pipe + 1) = false ∧ (c.cells = 0 ∨ c.crossed ≠ 0) ∧ s.instGen c.inst ≠ c.instGen)
    ∧ (∃ (s : State) (k : Nat) (pipe : Nat) (c : Copy), c = s.cpy.at k ∧ c.live = true ∧ pipeOf c.port = pipe ∧ c.place = .selected ∧ s.isUp c.port = true ∧ s.stride.halted.at (2 * pipe + 1) = false ∧ (c.cells = 0 ∨ c.crossed ≠ 0) ∧ s.instGen c.inst = c.instGen ∧ s.freeSlot (2 * pipe + 1) = none)
    ∧ (∃ (s : State) (k : Nat) (pipe : Nat) (c : Copy) (slot : _), c = s.cpy.at k ∧ c.live = true ∧ pipeOf c.port = pipe ∧ c.place = .selected ∧ s.isUp c.port = true ∧ s.stride.halted.at (2 * pipe + 1) = false ∧ (c.cells = 0 ∨ c.crossed ≠ 0) ∧ s.instGen c.inst = c.instGen ∧ s.freeSlot (2 * pipe + 1) = some slot)
    ∧ (∃ (s : State) (k : Nat) (pipe : Nat), ((s.cpy.at k).live = false ∨ (s.cpy.at k).place ≠ .selected ∨ pipeOf (s.cpy.at k).port ≠ pipe ∨ (0 < (s.cpy.at k).cells ∧ (s.cpy.at k).crossed = 0)))
    ∧ (∃ (s : State) (k : Nat) (x : Ctx), (s.cpy.at k).place = .egress x ∧ x.words < 64 ∧ s.time.mono < x.start + 640 ∧ x.waits = none ∧ s.stride.trace.at (2 * pipeOf (s.cpy.at k).port + 1) = false ∧ (s.stride.image x.bank).builtin = true ∧ (s.cpy.at k).rewrite = 0)
    ∧ (∃ (s : State) (k : Nat) (c : Copy) (b : List Byte), c = s.cpy.at k ∧ b = c.out ++ (if c.stomp then stompFcs c.out else leBytes 4 (crc32 c.out)) ∧ s.mayEnd c = true ∧ c.queue < 8192 ∧ (s.prt c.port).loopback = 0 ∧ s.ptpEvent c.port c.out = none ∧ c.late = false)
    ∧ (∃ (s : State) (k : Nat) (c : Copy) (b : List Byte), c = s.cpy.at k ∧ b = c.out ++ (if c.stomp then stompFcs c.out else leBytes 4 (crc32 c.out)) ∧ s.mayEnd c = true ∧ c.queue < 8192 ∧ (s.prt c.port).loopback = 0 ∧ s.ptpEvent c.port c.out = none ∧ c.late = true)
    ∧ (∃ (s : State) (k : Nat), s.mayEnd (s.cpy.at k) = false) :=
  ⟨⟨{}, [0, 511], by decide +kernel⟩,
   ⟨{ port := [(511, { link := .up })], cpy := [(3, { live := true, queue := 8191, place := .sending 0, paused := true })] }, _, 15, 511, 0, rfl, by decide +kernel⟩,
   ⟨{}, 0, _, rfl⟩,
   ⟨{ port := [(511, { link := .up })], cpy := [(3, { live := true, queue := 8191, place := .selected, instGen := 1 })] }, 3, 15, _, rfl, by decide +kernel⟩,
   ⟨{ time := { mono := 0 }, stride := { took := [(124, 2), (125, 2), (126, 2)] }, port := [(511, { link := .up })], cpy := [(3, { live := true, queue := 8191, place := .selected })] }, 3, 15, _, rfl, by decide +kernel⟩,
   ⟨{ port := [(511, { link := .up })], cpy := [(3, { live := true, queue := 8191, place := .selected })] }, 3, 15, _, 0, rfl, by decide +kernel⟩,
   ⟨{}, 3, 0, by decide +kernel⟩,
   ⟨{ cpy := [(3, { live := true, place := .egress {} })] }, 3, {}, by decide +kernel⟩,
   ⟨{ time := { mono := 1000000 }, port := [(511, { link := .up })], cpy := [(3, { live := true, queue := 8191, place := .sending 0, own := [1#8], stomp := true })] }, 3, _, _, rfl, rfl, by decide +kernel⟩,
   ⟨{ time := { mono := 1000000 }, port := [(511, { link := .up })], cpy := [(3, { live := true, queue := 8191, place := .sending 0, own := [1#8], late := true })] }, 3, _, _, rfl, rfl, by decide +kernel⟩,
   ⟨{}, 3, by decide +kernel⟩⟩

theorem meets_GateListsFollowDeviceTime :
    (∃ (s : State) (p : Nat), s.activeList p = none)
    ∧ (∃ (e : Nat) (pos : Nat), pos < G.interval.get e)
    ∧ (∃ (e : Nat) (l : List Nat) (pos : Nat), l ≠ [] ∧ G.interval.get e ≤ pos)
    ∧ (∃ (s : State) (p : Nat), s.sendingAt p = none ∧ s.pausedAt p = none)
    ∧ (∃ (s : State) (p : Nat) (k : Nat), s.sendingAt p = some k ∧ (s.cpy.at k).port = p ∧ s.canPreempt (s.cpy.at k) = true ∧ s.gateOpen p ((s.cpy.at k).queue % 16) = false)
    ∧ (∃ (s : State) (p : Nat) (k : Nat), s.sendingAt p = some k ∧ s.gateOpen p ((s.cpy.at k).queue % 16) = true)
    ∧ (∃ (s : State) (p : Nat) (k : Nat) (t : Nat) (e : Nat), s.sendingAt p = some k ∧ (s.cpy.at k).queue < 8192 ∧ s.gateOpen p ((s.cpy.at k).queue % 16) = false ∧ s.preemptable p ((s.cpy.at k).queue % 16) = false ∧ s.wireSpan (s.cpy.at k) = some (t, e) ∧ t ≤ s.time.mono)
    ∧ (∃ (s : State) (p : Nat) (k : Nat), s.sendingAt p = none ∧ s.pausedAt p = some k ∧ s.selectedAt p = none ∧ s.engineAt p = none ∧ s.gateOpen p ((s.cpy.at k).queue % 16) = true)
    ∧ (∃ (s : State) (p : Nat) (k : Nat) (g : GateList), (s.gateProfile p k).wait = some g ∧ g.start ≤ s.time.dev ∧ g.start ≠ s.time.next)
    ∧ (∃ (s : State) (p : Nat) (k : Nat), ((s.gateProfile p k).wait = none ∨ (∃ g, (s.gateProfile p k).wait = some g ∧ (s.time.dev < g.start ∨ g.start = s.time.next)))) :=
  ⟨⟨{}, 511, by decide +kernel⟩,
   ⟨putFields 0 [(G.interval, 1000)], 999, by decide +kernel⟩,
   ⟨putFields 0 [(G.interval, 1000)], [0], 1000, by decide +kernel⟩,
   ⟨{}, 511, by decide +kernel⟩,
   ⟨{ time := { mono := 40 }, port := [(511, { link := .up, verified := true })], cpy := [(3, { live := true, queue := 8191, place := .sending 0, out := List.replicate 1500 0#8 })], cfg := { active := bank [(P.portSpeed, 511, 5), (P.preemptEnable, 511, 1), (P.preemptMap, 511, 32768), (P.gateEnable, 511, 1)] }, sched := { profile := [(2044, { oper := some { entries := [putFields 0 [(G.interval, 1000)]] } })] } }, 511, 3, by decide +kernel⟩,
   ⟨{ cpy := [(3, { live := true, queue := 8191, place := .sending 0 })] }, 511, 3, by decide +kernel⟩,
   ⟨{ time := { mono := 40 }, port := [(511, { link := .up })], cpy := [(3, { live := true, queue := 8191, place := .sending 0, out := List.replicate 1500 0#8 })], cfg := { active := bank [(P.gateEnable, 511, 1)] }, sched := { profile := [(2044, { oper := some { entries := [putFields 0 [(G.interval, 1000)]] } })] } }, 511, 3, 0, 122, by decide +kernel⟩,
   ⟨{ cpy := [(3, { live := true, queue := 8191, place := .sending 0, paused := true })] }, 511, 3, by decide +kernel⟩,
   ⟨{ time := { dev := 7 }, sched := { profile := [(2047, { wait := some { start := 7 } })] } }, 511, 3, { start := 7 }, by decide +kernel⟩,
   ⟨{}, 511, 3, by decide +kernel⟩⟩

theorem meets_RampsBeginAndEnd :
    (∃ (q : QState), q.inRamp = false)
    ∧ (∃ (q : QState), q.inRamp = true)
    ∧ (∃ (s : State) (p : Nat) (c : Nat) (l : Nat), c < 16 ∧ (s.qs (16 * p + c)).recovery = some l) :=
  ⟨⟨{}, by decide +kernel⟩,
   ⟨{ test := true }, by decide +kernel⟩,
   ⟨{ sched := { q := [(8191, { recovery := some 2 })] } }, 511, 15, 2, by decide +kernel⟩⟩

theorem meets_LapBoundaryFollowsItsOrders :
    (∃ (s : State), s.time.running = true)
    ∧ (∃ (s : State), s.time.running = false)
    ∧ (∃ (s : State), s.time.slew = 0 ∧ s.time.dev ≤ s.time.next)
    ∧ (∃ (s : State) (d : Int), s.time.step = some d)
    ∧ (∃ (s : State), s.time.step = none)
    ∧ (∃ (s : State) (r : Nat), s.time.pendingRate = some r ∧ s.time.dev % 1000000000 = 0)
    ∧ (∃ (s : State) (r : Nat), s.time.pendingRate = some r ∧ s.time.dev % 1000000000 ≠ 0)
    ∧ (∃ (lap : Nat), 0 < lap)
    ∧ (∃ (s : State), s.time.dev % 1000000000 = 0)
    ∧ (∃ (s : State), s.time.dev % 1000000000 ≠ 0) :=
  ⟨⟨{ time := { running := true } }, by decide +kernel⟩,
   ⟨{}, by decide +kernel⟩,
   ⟨{}, by decide +kernel⟩,
   ⟨{ time := { step := some 5 } }, 5, by decide +kernel⟩,
   ⟨{}, by decide +kernel⟩,
   ⟨{ time := { dev := 1000000000, pendingRate := some 8000 } }, 8000, by decide +kernel⟩,
   ⟨{ time := { dev := 999999999, pendingRate := some 8000 } }, 8000, by decide +kernel⟩,
   ⟨1, by decide +kernel⟩,
   ⟨{}, by decide +kernel⟩,
   ⟨{ time := { dev := 999999999 } }, by decide +kernel⟩⟩

theorem meets_ProfilesAndTimersAtTheBoundary :
    (∃ (s : State) (p : Nat) (k : Nat), s.sched.sel.at p = k)
    ∧ (∃ (p : Nat) (q : _), q ≠ p)
    ∧ (∃ (gmu : List Nat) (p : Nat), p ∈ gmu)
    ∧ (∃ (gmu : List Nat) (p : Nat) (l : List (Nat × Nat)), p ∉ gmu ∧ (∃ e ∈ l, e.1 = p))
    ∧ (∃ (gmu : List Nat) (p : Nat) (l : List (Nat × Nat)), p ∉ gmu ∧ (∀ e ∈ l, e.1 ≠ p))
    ∧ (∃ (s : State) (r : Nat) (t : Nat) (p : Nat) (k : Nat), s.gmu.req = [(r, t, p, k)])
    ∧ (∃ (s : State) (r : Nat) (r' : Nat) (t : Nat) (t' : Nat) (p : Nat) (k : Nat) (k' : Nat), s.gmu.req = [(r, t, p, k), (r', t', p, k')] ∧ (r' < r ∨ (r' = r ∧ t < t')))
    ∧ (∃ (s : State) (p : Nat) (n : Nat), s.port.wf = true ∧ (s.prt p).hold = some (n + 1))
    ∧ (∃ (s : State) (q : Nat) (n : Nat), s.sched.q.wf = true ∧ (s.qs q).startup = some (n + 1))
    ∧ (∃ (s : State) (q : Nat) (n : Nat), s.sched.q.wf = true ∧ (s.qs q).recovery = some (n + 1))
    ∧ (∃ (s : State) (q : Nat), s.sched.q.wf = true ∧ (s.qs q).startup = none)
    ∧ (∃ (s : State) (q : Nat), s.sched.q.wf = true ∧ (s.qs q).recovery = none) :=
  ⟨⟨{ sched := { sel := [(511, 3)] } }, 511, 3, by decide +kernel⟩,
   ⟨0, 1, by decide +kernel⟩,
   ⟨[511], 511, by decide +kernel⟩,
   ⟨[], 511, [(511, 1)], by decide +kernel⟩,
   ⟨[], 511, [(510, 1)], by decide +kernel⟩,
   ⟨{ gmu := { req := [(0, 0, 511, 3)] } }, 0, 0, 511, 3, by decide +kernel⟩,
   ⟨{ gmu := { req := [(0, 1, 511, 3), (0, 2, 511, 2)] } }, 0, 0, 1, 2, 511, 3, 2, by decide +kernel⟩,
   ⟨{ port := [(511, { hold := some 1 })] }, 511, 0, by decide +kernel⟩,
   ⟨{ sched := { q := [(8191, { startup := some 1, recovery := some 1 })] } }, 8191, 0, by decide +kernel⟩,
   ⟨{ sched := { q := [(8191, { startup := some 1, recovery := some 1 })] } }, 8191, 0, by decide +kernel⟩,
   ⟨{}, 8191, by decide +kernel⟩,
   ⟨{}, 8191, by decide +kernel⟩⟩

theorem meets_LearnedKeysFollowTheirEvents_1 :
    (∃ (s : State) (pipe : Nat) (e : LearnEvent) (rest : List LearnEvent), s.learn.fifo.at pipe = e :: rest ∧ (1024 ≤ s.learn.window.length ∨ s.time.mono < s.learn.acceptAt))
    ∧ (∃ (s : State) (u : State) (pipe : Nat) (e : LearnEvent) (rest : List LearnEvent) (v : State), u = { s with learn := { s.learn with fifo := s.learn.fifo.put pipe rest, acceptAt := s.time.mono + 1 } } ∧ v = u.windowExpire e.key ∧ s.learn.fifo.at pipe = e :: rest ∧ s.learn.window.length < 1024 ∧ s.learn.acceptAt ≤ s.time.mono ∧ v.learn.frozen.any (fun f => f.1 == e.key) = true)
    ∧ (∃ (s : State) (u : State) (pipe : Nat) (e : LearnEvent) (rest : List LearnEvent) (v : State) (w : _), u = { s with learn := { s.learn with fifo := s.learn.fifo.put pipe rest, acceptAt := s.time.mono + 1 } } ∧ v = u.windowExpire e.key ∧ s.learn.fifo.at pipe = e :: rest ∧ s.learn.window.length < 1024 ∧ s.learn.acceptAt ≤ s.time.mono ∧ v.learn.frozen.any (fun f => f.1 == e.key) = false ∧ v.learn.window.find? (fun w => w.key == e.key) = some w)
    ∧ (∃ (s : State) (u : State) (pipe : Nat) (e : LearnEvent) (rest : List LearnEvent) (v : State), u = { s with learn := { s.learn with fifo := s.learn.fifo.put pipe rest, acceptAt := s.time.mono + 1 } } ∧ v = u.windowExpire e.key ∧ s.learn.fifo.at pipe = e :: rest ∧ s.learn.window.length < 1024 ∧ s.learn.acceptAt ≤ s.time.mono ∧ v.learn.frozen.any (fun f => f.1 == e.key) = false ∧ v.learn.window.find? (fun w => w.key == e.key) = none)
    ∧ (∃ (s : State) (u : State) (pipe : Nat) (e : LearnEvent) (rest : List LearnEvent), u = { s with learn := { s.learn with fifo := s.learn.fifo.put pipe rest, acceptAt := s.time.mono + 1 } } ∧ (∀ w, s.learn.window.find? (fun w => w.key == e.key) = some w → s.time.mono < w.expiry) ∧ s.learn.fifo.at pipe = e :: rest ∧ s.learn.window.length < 1024 ∧ s.learn.acceptAt ≤ s.time.mono ∧ s.learn.frozen.any (fun f => f.1 == e.key) = true)
    ∧ (∃ (s : State) (u : State) (pipe : Nat) (e : LearnEvent) (rest : List LearnEvent) (w : _), u = { s with learn := { s.learn with fifo := s.learn.fifo.put pipe rest, acceptAt := s.time.mono + 1 } } ∧ (∀ w, s.learn.window.find? (fun w => w.key == e.key) = some w → s.time.mono < w.expiry) ∧ s.learn.fifo.at pipe = e :: rest ∧ s.learn.window.length < 1024 ∧ s.learn.acceptAt ≤ s.time.mono ∧ s.learn.frozen.any (fun f => f.1 == e.key) = false ∧ s.learn.window.find? (fun w => w.key == e.key) = some w)
    ∧ (∃ (s : State) (u : State) (pipe : Nat) (e : LearnEvent) (rest : List LearnEvent), u = { s with learn := { s.learn with fifo := s.learn.fifo.put pipe rest, acceptAt := s.time.mono + 1 } } ∧ (∀ w, s.learn.window.find? (fun w => w.key == e.key) = some w → s.time.mono < w.expiry) ∧ s.learn.fifo.at pipe = e :: rest ∧ s.learn.window.length < 1024 ∧ s.learn.acceptAt ≤ s.time.mono ∧ s.learn.frozen.any (fun f => f.1 == e.key) = false ∧ (∀ w ∈ s.learn.window, w.key ≠ e.key))
    ∧ (∃ (s : State) (pipe : Nat), s.learn.fifo.at pipe = [])
    ∧ (∃ (e : LearnEvent) (w : LearnEvent), e.port = w.port ∧ later 32 w.stamp e.stamp = false)
    ∧ (∃ (e : LearnEvent) (w : LearnEvent), later 32 w.stamp e.stamp = true)
    ∧ (∃ (e : LearnEvent) (w : LearnEvent), e.port < w.port ∧ e.stamp = w.stamp)
    ∧ (∃ (e : LearnEvent) (w : LearnEvent), w.port < e.port ∧ e.stamp = w.stamp) :=
  ⟨⟨{ learn := { acceptAt := 1, fifo := [(15, [learnEv])] } }, 15, learnEv, [], by decide +kernel⟩,
   ⟨{ learn := { fifo := [(15, [learnEv])], frozen := [(5, 1)] } }, _, 15, learnEv, [], _, rfl, rfl, by decide +kernel⟩,
   ⟨{ learn := { fifo := [(15, [learnEv])], window := [{ learnEv with expiry := 9 }] } }, _, 15, learnEv, [], _, { learnEv with expiry := 9 }, rfl, rfl, by decide +kernel⟩,
   ⟨{ learn := { fifo := [(15, [learnEv])], window := [learnEv] } }, _, 15, learnEv, [], _, rfl, rfl, by decide +kernel⟩,
   ⟨{ learn := { fifo := [(15, [learnEv])], frozen := [(5, 1)] } }, _, 15, learnEv, [], rfl, by exact fun w h => (by cases h), by decide +kernel⟩,
   ⟨{ learn := { fifo := [(15, [learnEv])], window := [{ learnEv with expiry := 9 }] } }, _, 15, learnEv, [], { learnEv with expiry := 9 }, rfl, by exact fun w h => (by cases h; decide), by decide +kernel⟩,
   ⟨{ learn := { fifo := [(15, [learnEv])] } }, _, 15, learnEv, [], rfl, by exact fun w h => (by cases h), by decide +kernel⟩,
   ⟨{}, 15, by decide +kernel⟩,
   ⟨learnEv, learnEv, by decide +kernel⟩,
   ⟨learnEv, { key := 5, port := 1, stamp := 1, inst := 0, instGen := 0, station := false }, by decide +kernel⟩,
   ⟨{ key := 5, port := 0, stamp := 0, inst := 0, instGen := 0, station := false }, learnEv, by decide +kernel⟩,
   ⟨{ key := 5, port := 2, stamp := 0, inst := 0, instGen := 0, station := false }, learnEv, by decide +kernel⟩⟩

theorem meets_LearnedKeysFollowTheirEvents_2 :
    (∃ (s : State) (u : State) (key : Nat) (e : LearnEvent), u = { s with learn := { s.learn with window := s.learn.window.filter (fun w => w.key != key) } } ∧ s.learn.window.find? (fun w => w.key == key) = some e ∧ e.expiry ≤ s.time.mono ∧ e.port ∉ s.learn.flushing ∧ s.frozen e.inst = false)
    ∧ (∃ (s : State) (u : State) (key : Nat) (e : LearnEvent), u = { s with learn := { s.learn with window := s.learn.window.filter (fun w => w.key != key) } } ∧ s.learn.window.find? (fun w => w.key == key) = some e ∧ e.expiry ≤ s.time.mono ∧ e.port ∈ s.learn.flushing)
    ∧ (∃ (s : State) (u : State) (key : Nat) (e : LearnEvent), u = { s with learn := { s.learn with window := s.learn.window.filter (fun w => w.key != key) } } ∧ s.learn.window.find? (fun w => w.key == key) = some e ∧ s.time.mono < e.expiry)
    ∧ (∃ (s : State) (key : Nat), (∀ w ∈ s.learn.window, w.key ≠ key))
    ∧ (∃ (s : State) (e : LearnEvent) (c : Nat × Nat) (r : Nat), r = (s.entry c).result ∧ s.learnFind e = some c ∧ R.inst.get r ≠ e.inst)
    ∧ (∃ (s : State) (e : LearnEvent) (c : Nat × Nat) (r : Nat), r = (s.entry c).result ∧ s.learnFind e = some c ∧ R.inst.get r = e.inst ∧ R.static.get r = 1)
    ∧ (∃ (s : State) (e : LearnEvent) (c : Nat × Nat) (r : Nat), r = (s.entry c).result ∧ s.learnFind e = some c ∧ R.inst.get r = e.inst ∧ R.static.get r ≠ 1 ∧ R.type.get r = 0 ∧ R.target.get r = e.port)
    ∧ (∃ (s : State) (e : LearnEvent) (c : Nat × Nat) (r : Nat), r = (s.entry c).result ∧ s.learnFind e = some c ∧ R.inst.get r = e.inst ∧ R.static.get r ≠ 1 ∧ (R.type.get r ≠ 0 ∨ R.target.get r ≠ e.port) ∧ s.learn.frozen.any (fun f => f.1 == e.key) = true)
    ∧ (∃ (s : State) (e : LearnEvent) (c : Nat × Nat) (r : Nat) (u : _), r = (s.entry c).result ∧ u = (s.trackMove e.key).1 ∧ s.learnFind e = some c ∧ R.inst.get r = e.inst ∧ R.static.get r ≠ 1 ∧ (R.type.get r ≠ 0 ∨ R.target.get r ≠ e.port) ∧ s.learn.frozen.any (fun f => f.1 == e.key) = false ∧ (s.trackMove e.key).2 = false)
    ∧ (∃ (s : State) (e : LearnEvent) (c : Nat × Nat) (r : Nat) (u : _), r = (s.entry c).result ∧ u = (s.trackMove e.key).1 ∧ s.learnFind e = some c ∧ R.inst.get r = e.inst ∧ R.static.get r ≠ 1 ∧ (R.type.get r ≠ 0 ∨ R.target.get r ≠ e.port) ∧ s.learn.frozen.any (fun f => f.1 == e.key) = false ∧ (s.trackMove e.key).2 = true ∧ c.1 < 2)
    ∧ (∃ (s : State) (e : LearnEvent) (c : Nat × Nat) (r : Nat) (u : _), r = (s.entry c).result ∧ u = (s.trackMove e.key).1 ∧ s.learnFind e = some c ∧ R.inst.get r = e.inst ∧ R.static.get r ≠ 1 ∧ (R.type.get r ≠ 0 ∨ R.target.get r ≠ e.port) ∧ s.learn.frozen.any (fun f => f.1 == e.key) = false ∧ (s.trackMove e.key).2 = true ∧ 2 ≤ c.1 ∧ u.learn.queue.length < 65536)
    ∧ (∃ (s : State) (key : Nat), s.learn.moves.find? (fun m => m.1 == key) = none ∧ s.learn.moves.length < 4096) :=
  ⟨⟨{ learn := { window := [learnEv] } }, _, 5, learnEv, rfl, by decide +kernel⟩,
   ⟨{ learn := { flushing := [1], window := [learnEv] } }, _, 5, learnEv, rfl, by decide +kernel⟩,
   ⟨{ learn := { window := [{ learnEv with expiry := 1 }] } }, _, 5, { learnEv with expiry := 1 }, rfl, by decide +kernel⟩,
   ⟨{}, 5, by decide +kernel⟩,
   ⟨learnState 0 0, { learnEv with inst := 1 }, (0, 616572), _, rfl, by decide +kernel⟩,
   ⟨learnState (putFields 0 [(R.target, 2), (R.static, 1)]) 0, learnEv, (0, 616572), _, rfl, by decide +kernel⟩,
   ⟨learnState (putFields 0 [(R.target, 1)]) 1, learnEv, (0, 616572), _, rfl, by decide +kernel⟩,
   ⟨{ learnState (putFields 0 [(R.target, 2)]) 1 with learn := { frozen := [(5, 1)] } }, learnEv, (0, 616572), _, rfl, by decide +kernel⟩,
   ⟨{ learnState (putFields 0 [(R.target, 2)]) 1 with learn := { moves := [(5, 8)] } }, learnEv, (0, 616572), _, _, rfl, rfl, by decide +kernel⟩,
   ⟨learnState (putFields 0 [(R.target, 2)]) 1, learnEv, (0, 616572), _, _, rfl, rfl, by decide +kernel⟩,
   ⟨{ cfg := { active := seeds }, tbl := { station := [(17196332, { valid := true, key := 5, result := putFields 0 [(R.target, 2)], par := 1 })] } }, { learnEv with key := 5 * 2 ^ 64, station := true }, (2, 17196332), _, _, rfl, rfl, by decide +kernel⟩,
   ⟨{}, 5, by decide +kernel⟩⟩

theorem meets_LearnedKeysFollowTheirEvents_3 :
    (∃ (s : State) (key : Nat) (n : Nat), s.learn.moves.find? (fun m => m.1 == key) = some (key, n) ∧ n < 8)
    ∧ (∃ (s : State) (key : Nat) (n : Nat), s.learn.moves.find? (fun m => m.1 == key) = some (key, n) ∧ 8 ≤ n ∧ s.learn.frozen.length < 1024)
    ∧ (∃ (s : State) (key : Nat), (key, 0) ∈ s.learn.frozen)
    ∧ (∃ (s : State) (key : Nat), (key, 0) ∉ s.learn.frozen)
    ∧ (∃ (s : State), (s.learn.queue = [] ∨ s.pacer.down = true))
    ∧ (∃ (s : State) (u : State) (e : LearnEvent) (m : Bool) (rest : List (LearnEvent × Bool)), u = s.updLearn (fun l => { l with queue := rest }) ∧ s.learn.queue = (e, m) :: rest ∧ s.pacer.down = false ∧ e.port ∈ s.learn.flushing)
    ∧ (∃ (s : State) (u : State) (e : LearnEvent) (m : Bool) (rest : List (LearnEvent × Bool)), u = s.updLearn (fun l => { l with queue := rest }) ∧ s.learn.queue = (e, m) :: rest ∧ s.pacer.down = false ∧ e.port ∉ s.learn.flushing ∧ s.instGen e.inst ≠ e.instGen)
    ∧ (∃ (s : State) (u : State) (e : LearnEvent) (m : Bool) (rest : List (LearnEvent × Bool)) (v : _), u = s.updLearn (fun l => { l with queue := rest }) ∧ v = (u.hbmAsk 5 (hbmStation + 64 * s.cfg.active.station1 (stationKey e.key)) 64 false (stationKey e.key)).hbmAsk 5 (hbmStation + 64 * s.cfg.active.station1 (stationKey e.key)) 64 true (stationKey e.key) ∧ s.learn.queue = (e, m) :: rest ∧ s.pacer.down = false ∧ e.port ∉ s.learn.flushing ∧ s.instGen e.inst = e.instGen ∧ s.frozen e.inst = false ∧ v.learnFind e = none)
    ∧ (∃ (s : State) (u : State) (e : LearnEvent) (m : Bool) (rest : List (LearnEvent × Bool)) (v : _) (c : _), u = s.updLearn (fun l => { l with queue := rest }) ∧ v = (u.hbmAsk 5 (hbmStation + 64 * s.cfg.active.station1 (stationKey e.key)) 64 false (stationKey e.key)).hbmAsk 5 (hbmStation + 64 * s.cfg.active.station1 (stationKey e.key)) 64 true (stationKey e.key) ∧ s.learn.queue = (e, m) :: rest ∧ s.pacer.down = false ∧ e.port ∉ s.learn.flushing ∧ s.instGen e.inst = e.instGen ∧ s.frozen e.inst = false ∧ v.learnFind e = some c ∧ R.inst.get (v.entry c).result = e.inst ∧ R.static.get (v.entry c).result ≠ 1 ∧ (R.type.get (v.entry c).result ≠ 0 ∨ R.target.get (v.entry c).result ≠ e.port) ∧ m = true)
    ∧ (∃ (s : State) (u : State) (e : LearnEvent) (m : Bool) (rest : List (LearnEvent × Bool)) (v : _) (c : _), u = s.updLearn (fun l => { l with queue := rest }) ∧ v = (u.hbmAsk 5 (hbmStation + 64 * s.cfg.active.station1 (stationKey e.key)) 64 false (stationKey e.key)).hbmAsk 5 (hbmStation + 64 * s.cfg.active.station1 (stationKey e.key)) 64 true (stationKey e.key) ∧ s.learn.queue = (e, m) :: rest ∧ s.pacer.down = false ∧ e.port ∉ s.learn.flushing ∧ s.instGen e.inst = e.instGen ∧ s.frozen e.inst = false ∧ v.learnFind e = some c ∧ R.inst.get (v.entry c).result = e.inst ∧ R.static.get (v.entry c).result ≠ 1 ∧ (R.type.get (v.entry c).result ≠ 0 ∨ R.target.get (v.entry c).result ≠ e.port) ∧ m = false ∧ v.learn.frozen.any (fun f => f.1 == e.key) = false) :=
  ⟨⟨{ learn := { moves := [(5, 7)] } }, 5, 7, by decide +kernel⟩,
   ⟨{ learn := { moves := [(5, 8)] } }, 5, 8, by decide +kernel⟩,
   ⟨{ learn := { frozen := [(5, 0)] } }, 5, by decide +kernel⟩,
   ⟨{ learn := { frozen := [(5, 1)] } }, 5, by decide +kernel⟩,
   ⟨{}, by decide +kernel⟩,
   ⟨{ learn := { flushing := [1], queue := [(learnEv, true)] } }, _, learnEv, true, [], rfl, by decide +kernel⟩,
   ⟨{ inst := [(0, { gen := 1 })], learn := { queue := [(learnEv, true)] } }, _, learnEv, true, [], rfl, by decide +kernel⟩,
   ⟨{ learn := { queue := [(learnEv, true)] } }, _, learnEv, true, [], _, rfl, rfl, by decide +kernel⟩,
   ⟨{ learnState (putFields 0 [(R.target, 2)]) 1 with learn := { queue := [(learnEv, true)] } }, _, learnEv, true, [], _, (0, 616572), rfl, rfl, by decide +kernel⟩,
   ⟨{ learnState (putFields 0 [(R.target, 2)]) 1 with learn := { queue := [(learnEv, false)] } }, _, learnEv, false, [], _, (0, 616572), rfl, rfl, by decide +kernel⟩⟩

theorem meets_ScansReachEveryEntry :
    (∃ (s : State) (tier : Nat) (first : Nat) (count : Nat) (n : Nat), s.tbl.wf ∧ n = min count (s.tbl.age.due (2 * scanSpan) (s.par P.ageLaps) - s.tbl.age.pos) ∧ s.par P.ageLaps ≠ 0 ∧ s.pacer.down = false ∧ s.tbl.age.pos % scanSpan = scanPos (tier, first))
    ∧ (∃ (s : State) (tier : Nat) (first : Nat), (s.par P.ageLaps = 0 ∨ s.pacer.down = true ∨ s.tbl.age.pos % scanSpan ≠ scanPos (tier, first)))
    ∧ (∃ (s : State) (port : Nat), s.tbl.wf ∧ port ∈ s.learn.flushing ∧ s.pacer.down = false)
    ∧ (∃ (s : State) (port : Nat), (port ∉ s.learn.flushing ∨ s.pacer.down = true))
    ∧ (∃ (s : State) (e : BadEntry) (p : Nat) (due : Nat), due = s.tbl.scrub.due scrubSpan (s.par P.scrubLaps) ∧ s.pacer.down = false ∧ scrubPlace e = some p ∧ s.tbl.scrub.pos ≤ p ∧ p < due ∧ e.kind < 4 ∧ badCode e.kind e.index ∉ s.tbl.bad)
    ∧ (∃ (s : State) (e : BadEntry) (p : Nat) (due : Nat) (addr : Nat) (quad : Nat), due = s.tbl.scrub.due scrubSpan (s.par P.scrubLaps) ∧ addr = e.index % 2 ^ 20 ∧ quad = e.index / 2 ^ 20 % 4 ∧ s.pacer.down = false ∧ scrubPlace e = some p ∧ s.tbl.scrub.pos ≤ p ∧ p < due ∧ e.kind = 6)
    ∧ (∃ (s : State) (addr : Nat) (quad : Nat) (rest : List Move), s.srch.moves = .shadow 5 addr quad :: rest ∧ s.srch.rule.has addr = true ∧ bit (s.srch.rule.at addr).lost quad = true)
    ∧ (∃ (s : State) (session : Nat) (seq : Nat) (pos : Nat) (op : Nat) (bytes : List Byte) (rest : List Move) (j : Job) (u : _) (r : _), ({ s with srch := { s.srch with moves := rest } }).moveOne op j.inst bytes = (u, r) ∧ s.srch.moves = .entry session seq pos op bytes :: rest ∧ s.job session seq = some j ∧ j.rstate = 1 ∧ j.abort = false ∧ s.mbx.batchUsed < s.batchBudget)
    ∧ (∃ (s : State) (session : Nat) (seq : Nat) (pos : Nat) (op : Nat) (bytes : List Byte) (rest : List Move) (j : Job), s.srch.moves = .entry session seq pos op bytes :: rest ∧ s.job session seq = some j ∧ j.rstate = 1 ∧ j.abort = false ∧ s.batchBudget ≤ s.mbx.batchUsed)
    ∧ (∃ (s : State), s.srch.moves = [])
    ∧ (∃ (s : State) (kind : Nat) (index : Nat), (s.obj kind index).st = 2 ∧ (s.obj kind index).fence ≤ s.time.lapAt ∧ (∀ j ∈ s.running, j.kind ≠ .objDelete kind index))
    ∧ (∃ (s : State) (kind : Nat) (index : Nat), ((s.obj kind index).st ≠ 2 ∨ s.time.lapAt < (s.obj kind index).fence))
    ∧ (∃ (s : State) (index : Nat), (s.obj K.stream index).st ≠ 0 ∧ S.seqValid.get (s.obj K.stream index).words = 1 ∧ S.resetMs.get (s.obj K.stream index).words ≤ s.ageMs (S.lastAccept.get (s.obj K.stream index).words))
    ∧ (∃ (s : State) (m : Nat) (e : Nat), e = (s.time.mono % 2 ^ 32 + 2 ^ 32 - T.last.get (s.obj K.meter m).words) % 2 ^ 32 ∧ (s.obj K.meter m).st ≠ 0) :=
  ⟨⟨{ cfg := { active := bank [(P.ageLaps, 0, 1)] } }, 0, 0, 0, _, by intro k _; unfold Tables.store; split <;> rfl, rfl, by decide +kernel⟩,
   ⟨{ pacer := { down := true } }, 0, 0, by decide +kernel⟩,
   ⟨{ learn := { flushing := [511] } }, 511, by intro k _; unfold Tables.store; split <;> rfl, by decide +kernel⟩,
   ⟨{}, 0, by decide +kernel⟩,
   ⟨{}, ⟨0, 0⟩, 0, _, rfl, by decide +kernel⟩,
   ⟨{ tbl := { scrub := { laps := 1000000 } } }, ⟨6, 3 * 2 ^ 20⟩, 1345323008, _, _, _, rfl, rfl, rfl, by decide +kernel⟩,
   ⟨{ srch := { moves := [.shadow 5 9 3], rule := [(9, { lost := 8 })] } }, 9, 3, [], by decide +kernel⟩,
   ⟨{ srch := { moves := [.entry 1 2 0 0 []] }, mbx := { jobs := [{ session := 1, seq := 2, inst := 0, op := 0, kind := .rollback }] } }, 1, 2, 0, 0, [], [], { session := 1, seq := 2, inst := 0, op := 0, kind := .rollback }, _, _, by rfl, by decide +kernel⟩,
   ⟨{ srch := { moves := [.entry 1 2 0 0 []] }, mbx := { batchUsed := 1000000, jobs := [{ session := 1, seq := 2, inst := 0, op := 0, kind := .rollback }] } }, 1, 2, 0, 0, [], [], { session := 1, seq := 2, inst := 0, op := 0, kind := .rollback }, by decide +kernel⟩,
   ⟨{}, by decide +kernel⟩,
   ⟨{ tbl := { obj := [(9, { st := 2 })] } }, 0, 9, by decide +kernel⟩,
   ⟨{}, 0, 0, by decide +kernel⟩,
   ⟨{ tbl := { obj := [(K.stream * 2 ^ 20 + 3, { st := 1, words := putFields 0 [(S.seqValid, 1)] })] } }, 3, by decide +kernel⟩,
   ⟨{ tbl := { obj := [(K.meter * 2 ^ 20 + 3, { st := 1 })] } }, 3, _, rfl, by decide +kernel⟩⟩

theorem meets_KeysComeFromTheVault_1 :
    (∃ (s : State) (i : Nat), s.victim = some i)
    ∧ (∃ (s : State) (f : Fill) (i : _), (s.sec.fills.filter (fun f => f.slot.isSome)).length < 2 ∧ s.sec.fills.find? (fun f => f.slot.isNone) = some f ∧ s.victim = some i)
    ∧ (∃ (s : State) (f : Fill), (s.sec.fills.filter (fun f => f.slot.isSome)).length < 2 ∧ s.sec.fills.find? (fun f => f.slot.isNone) = some f ∧ s.victim = none ∧ f.policy = 2)
    ∧ (∃ (s : State) (f : Fill), (s.sec.fills.filter (fun f => f.slot.isSome)).length < 2 ∧ s.sec.fills.find? (fun f => f.slot.isNone) = some f ∧ s.victim = none ∧ f.policy ≠ 2)
    ∧ (∃ (s : State), 2 ≤ (s.sec.fills.filter (fun f => f.slot.isSome)).length)
    ∧ (∃ (s : State) (f : Fill) (v : VaultRec), v = s.sec.vault.at (4 * f.assoc + f.keyNum) ∧ s.sec.fills.find? (fun f => f.slot.isSome && !f.read) = some f ∧ v.valid = false)
    ∧ (∃ (s : State) (f : Fill) (v : VaultRec) (intact : Bool), v = s.sec.vault.at (4 * f.assoc + f.keyNum) ∧ (intact = false ∨ v.mac ≠ v.stateMac s.sec.keys.smk f.assoc f.keyNum ∨ Crypto.kwUnwrap s.sec.keys.kek v.wrapped = none) ∧ s.sec.fills.find? (fun f => f.slot.isSome && !f.read) = some f ∧ v.valid = true)
    ∧ (∃ (s : State) (f : Fill) (v : VaultRec) (key : _), s.sec.fills.find? (fun f => f.slot.isSome && !f.read) = some f ∧ v = s.sec.vault.at (4 * f.assoc + f.keyNum) ∧ v.valid = true ∧ v.mac = v.stateMac s.sec.keys.smk f.assoc f.keyNum ∧ Crypto.kwUnwrap s.sec.keys.kek v.wrapped = some key)
    ∧ (∃ (s : State) (f : Fill) (v : VaultRec) (i : Nat), v = s.sec.vault.at (4 * f.assoc + f.keyNum) ∧ s.sec.fills.find? (fun f => f.read) = some f ∧ f.slot = some i ∧ s.instGen f.inst ≠ f.gen)
    ∧ (∃ (s : State) (f : Fill) (v : VaultRec) (i : Nat), v = s.sec.vault.at (4 * f.assoc + f.keyNum) ∧ s.sec.fills.find? (fun f => f.read) = some f ∧ f.slot = some i ∧ s.instGen f.inst = f.gen ∧ v.valid = false) :=
  ⟨⟨{}, 0, by decide +kernel⟩,
   ⟨{ sec := { fills := [{ assoc := 3, keyNum := 1, inst := 0, gen := 0 }] } }, { assoc := 3, keyNum := 1, inst := 0, gen := 0 }, 0, by decide +kernel⟩,
   ⟨{ sec := { slot := (List.range 32).map (fun i => (i, { st := 2, policy := 1 })), fills := [{ assoc := 3, keyNum := 1, inst := 0, gen := 0, policy := 2 }] } }, { assoc := 3, keyNum := 1, inst := 0, gen := 0, policy := 2 }, by decide +kernel⟩,
   ⟨{ sec := { slot := (List.range 32).map (fun i => (i, { st := 2, policy := 1 })), fills := [{ assoc := 3, keyNum := 1, inst := 0, gen := 0 }] } }, { assoc := 3, keyNum := 1, inst := 0, gen := 0 }, by decide +kernel⟩,
   ⟨{ sec := { fills := List.replicate 2 { assoc := 3, keyNum := 1, inst := 0, gen := 0, slot := some 0 } } }, by decide +kernel⟩,
   ⟨{ sec := { fills := [{ assoc := 3, keyNum := 1, inst := 0, gen := 0, slot := some 31 }] } }, { assoc := 3, keyNum := 1, inst := 0, gen := 0, slot := some 31 }, _, rfl, by decide +kernel⟩,
   ⟨{ sec := { vault := [(13, { valid := true })], fills := [{ assoc := 3, keyNum := 1, inst := 0, gen := 0, slot := some 31 }] } }, { assoc := 3, keyNum := 1, inst := 0, gen := 0, slot := some 31 }, _, false, rfl, by exact Or.inl rfl, by decide +kernel⟩,
   ⟨{ sec := { keys := { kek := sessionKey, smk := sessionKey }, vault := [(13, sealedRec)], fills := [{ assoc := 3, keyNum := 1, inst := 0, gen := 0, slot := some 31 }] } }, { assoc := 3, keyNum := 1, inst := 0, gen := 0, slot := some 31 }, _, List.replicate 32 0#8, by rfl, rfl, by rfl, by rfl, by exact sealedRec_key⟩,
   ⟨{ inst := [(0, { gen := 1 })], sec := { fills := [{ assoc := 3, keyNum := 1, inst := 0, gen := 0, slot := some 31, read := true }] } }, { assoc := 3, keyNum := 1, inst := 0, gen := 0, slot := some 31, read := true }, _, 31, rfl, by decide +kernel⟩,
   ⟨{ sec := { fills := [{ assoc := 3, keyNum := 1, inst := 0, gen := 0, slot := some 31, read := true }] } }, { assoc := 3, keyNum := 1, inst := 0, gen := 0, slot := some 31, read := true }, _, 31, rfl, by decide +kernel⟩⟩

theorem meets_KeysComeFromTheVault_2 :
    (∃ (s : State) (f : Fill) (v : VaultRec) (i : Nat) (u : State) (k : KeySlot), v = s.sec.vault.at (4 * f.assoc + f.keyNum) ∧ k = s.sec.slot.at i ∧ u = s.endFill f ∧ s.sec.fills.find? (fun f => f.read) = some f ∧ f.slot = some i ∧ s.instGen f.inst = f.gen ∧ v.valid = true)
    ∧ (∃ (s : State) (port : Nat) (cls : Nat) (n : Nat) (a : Nat) (k : Nat) (pn : Nat) (l : List Nat), s.sec.bench.at (16 * port + cls) = n :: l ∧ s.authPlan (s.pkt.at n) = .key a k pn ∧ isHmac ((s.bankOf (s.pkt.at n).gen).getN P.asMode a) = false ∧ s.slotOf a k = none ∧ s.sec.fills.length < 64 ∧ (∀ g ∈ s.sec.fills, g.assoc ≠ a ∨ g.keyNum ≠ k))
    ∧ (∃ (s : State) (port : Nat) (cls : Nat) (n : Nat) (a : Nat) (k : Nat) (pn : Nat) (l : List Nat) (i : _), s.sec.bench.at (16 * port + cls) = n :: l ∧ s.authPlan (s.pkt.at n) = .key a k pn ∧ isHmac ((s.bankOf (s.pkt.at n).gen).getN P.asMode a) = false ∧ s.slotOf a k = some i ∧ ((s.pkt.at n).ended = false ∨ (s.pkt.at n).cmac ≠ none))
    ∧ (∃ (s : State) (port : Nat) (cls : Nat) (n : Nat) (a : Nat) (k : Nat) (pn : Nat) (l : List Nat) (i : _), s.sec.bench.at (16 * port + cls) = n :: l ∧ s.authPlan (s.pkt.at n) = .key a k pn ∧ isHmac ((s.bankOf (s.pkt.at n).gen).getN P.asMode a) = false ∧ s.slotOf a k = some i ∧ (s.pkt.at n).ended = true ∧ (s.pkt.at n).cmac = none ∧ s.instGen (s.pkt.at n).inst ≠ (s.pkt.at n).instGen ∧ l = [])
    ∧ (∃ (s : State) (port : Nat) (cls : Nat), s.sec.bench.at (16 * port + cls) = [])
    ∧ (∃ (s : State) (port : Nat) (cls : Nat), (∀ n ∈ s.sec.bench.at (16 * port + cls), s.time.mono - (s.pkt.at n).arrived < s.par P.benchTimeout * 1000))
    ∧ (∃ (s : State) (port : Nat) (cls : Nat) (n : Nat), s.sec.bench.at (16 * port + cls) = [n] ∧ s.par P.benchTimeout * 1000 ≤ s.time.mono - (s.pkt.at n).arrived)
    ∧ (∃ (s : State) (i : Nat) (k : KeySlot), k = s.sec.slot.at i ∧ k.timed = true ∧ later 32 k.holdEnd.toNat s.time.mono = false)
    ∧ (∃ (s : State) (i : Nat) (k : KeySlot), k = s.sec.slot.at i ∧ (k.timed = false ∨ later 32 k.holdEnd.toNat s.time.mono = true)) :=
  ⟨⟨{ sec := { vault := [(13, { valid := true })], fills := [{ assoc := 3, keyNum := 1, inst := 0, gen := 0, slot := some 31, read := true }] } }, { assoc := 3, keyNum := 1, inst := 0, gen := 0, slot := some 31, read := true }, _, 31, _, _, rfl, rfl, rfl, by decide +kernel⟩,
   ⟨{ sec := { vault := [(12, { valid := true })], bench := [(8191, [3])] }, pkt := [(3, { md := putFields 0 [(M.assocValid, 1), (M.assoc, 3)], rx := { bytes := List.replicate 11 0#8 ++ [1#8] ++ List.replicate 52 0#8 } })], cfg := { active := bank [(P.asEnable, 3, 1), (P.asMode, 3, 6)] } }, 511, 15, 3, 3, 0, 1, [], by decide +kernel⟩,
   ⟨{ sec := { vault := [(12, { valid := true })], slot := [(31, { st := 2, assoc := 3 })], bench := [(8191, [3])] }, pkt := [(3, { md := putFields 0 [(M.assocValid, 1), (M.assoc, 3)], rx := { bytes := List.replicate 11 0#8 ++ [1#8] ++ List.replicate 52 0#8 } })], cfg := { active := bank [(P.asEnable, 3, 1), (P.asMode, 3, 6)] } }, 511, 15, 3, 3, 0, 1, [], 31, by decide +kernel⟩,
   ⟨{ inst := [(0, { gen := 1 })], sec := { vault := [(12, { valid := true })], slot := [(31, { st := 2, assoc := 3 })], bench := [(8191, [3])] }, pkt := [(3, { ended := true, md := putFields 0 [(M.assocValid, 1), (M.assoc, 3)], rx := { bytes := List.replicate 11 0#8 ++ [1#8] ++ List.replicate 52 0#8 } })], cfg := { active := bank [(P.asEnable, 3, 1), (P.asMode, 3, 6)] } }, 511, 15, 3, 3, 0, 1, [], 31, by decide +kernel⟩,
   ⟨{}, 0, 0, by decide +kernel⟩,
   ⟨{}, 0, 0, by decide +kernel⟩,
   ⟨{ time := { mono := 1000000000 }, sec := { vault := [(12, { valid := true })], bench := [(8191, [3])] } }, 511, 15, 3, by decide +kernel⟩,
   ⟨{ time := { mono := 9 }, sec := { slot := [(31, { policy := 2, holdEnd := 9, timed := true })] } }, 31, _, rfl, by decide +kernel⟩,
   ⟨{ time := { mono := 8 }, sec := { slot := [(31, { policy := 2, holdEnd := 9, timed := true })] } }, 31, _, rfl, by decide +kernel⟩⟩

theorem meets_GridRowsMeasure_1 :
    (∃ (s : State) (l : List (Nat × Nat)) (m : List (Nat × Nat)) (k : Nat) (n : Nat), s.gmu.queue = l ++ (k, n) :: m ∧ (∀ e ∈ l, (s.pkt.at e.2).gmuReady = false) ∧ (s.pkt.at n).gmuReady = true)
    ∧ (∃ (s : State), (∀ e ∈ s.gmu.queue, (s.pkt.at e.2).gmuReady = false))
    ∧ (∃ (s : State) (k : Nat), s.parOn P.tapEnable k = false)
    ∧ (∃ (s : State) (k : Nat) (n : Nat), s.parOn P.tapEnable k = true ∧ (s.pkt.at n).r60 = true)
    ∧ (∃ (s : State) (k : Nat) (n : Nat), s.parOn P.tapEnable k = true ∧ (s.pkt.at n).r60 = false ∧ s.parOn P.requirePass k = true ∧ (s.pkt.at n).verdict ≠ .pass)
    ∧ (∃ (s : State) (k : Nat) (n : Nat), s.parOn P.tapEnable k = true ∧ (s.pkt.at n).r60 = false ∧ s.parOn P.requirePass k = false ∧ (s.pkt.at n).samples (s.par P.channels k) = none)
    ∧ (∃ (s : State) (k : Nat), s.parOn P.tapEnable k = true ∧ (s.gmu.tap.at k).lost = false ∧ (s.gmu.tap.at k).lastUsed + s.par P.lossUs k * 1000 ≤ s.time.mono)
    ∧ (∃ (s : State) (k : Nat), s.parOn P.tapEnable k = true ∧ (s.gmu.tap.at k).lost = false ∧ s.time.mono < (s.gmu.tap.at k).lastUsed + s.par P.lossUs k * 1000)
    ∧ (∃ (s : State) (k : Nat) (r : GRecord) (rest : List GRecord), (s.gmu.tap.at k).closing = r :: rest ∧ bit r.health 0 = false ∧ bit r.health 11 = false ∧ s.cfg.active.triggersOn false k = [] ∧ s.cfg.active.tripletsOf k = [])
    ∧ (∃ (s : State) (k : Nat), (s.gmu.tap.at k).closing = []) :=
  ⟨⟨{ gmu := { queue := [(1, 1), (3, 4)] }, pkt := [(4, { live := true, ended := true, stage := .released })] }, [(1, 1)], [], 3, 4, by decide +kernel⟩,
   ⟨{}, by decide +kernel⟩,
   ⟨{}, 3, by decide +kernel⟩,
   ⟨{ pkt := [(4, { live := true, ended := true, bad := true })], cfg := { active := bank [(P.tapEnable, 3, 1)] } }, 3, 4, by decide +kernel⟩,
   ⟨{ pkt := [(4, { live := true, ended := true, rx := { bytes := List.replicate 64 0#8 } })], cfg := { active := bank [(P.tapEnable, 3, 1), (P.requirePass, 3, 1)] } }, 3, 4, by decide +kernel⟩,
   ⟨{ pkt := [(4, { live := true, ended := true, rx := { bytes := List.replicate 64 0#8 } })], cfg := { active := bank [(P.tapEnable, 3, 1), (P.requirePass, 3, 0)] } }, 3, 4, by decide +kernel⟩,
   ⟨{ time := { mono := 1000000000 }, gmu := { tap := [(3, { lost := false })] }, cfg := { active := bank [(P.tapEnable, 3, 1)] } }, 3, by decide +kernel⟩,
   ⟨{ gmu := { tap := [(3, { lost := false })] }, cfg := { active := bank [(P.tapEnable, 3, 1)] } }, 3, by decide +kernel⟩,
   ⟨{ gmu := { tap := [(3, { closing := [{}] })] } }, 3, {}, [], by decide +kernel⟩,
   ⟨{}, 3, by decide +kernel⟩⟩

theorem meets_GridRowsMeasure_2 :
    (∃ (r : GRecord) (o : ChanOut) (p : Point) (l : List Point), bit r.health 0 = true ∧ bit r.health 16 = false ∧ r.chans = [o] ∧ o.pts = p :: l)
    ∧ (∃ (s : State) (k : Nat) (q : Quantity) (lost : Bool) (u : State), u = s.evalTrigger k q lost ∧ (s.gmu.trig.at k).st ≠ 2 ∧ (trigCondition (s.par P.trigType k) (s.par P.trigThreshold k) (s.par P.trigHyst k) q lost).1 = true ∧ (s.gmu.trig.at k).count + 1 ≠ s.par P.pickupLaps k)
    ∧ (∃ (s : State) (k : Nat) (q : Quantity) (lost : Bool) (u : State), u = s.evalTrigger k q lost ∧ (s.gmu.trig.at k).st ≠ 2 ∧ (trigCondition (s.par P.trigType k) (s.par P.trigThreshold k) (s.par P.trigHyst k) q lost).1 = true ∧ (s.gmu.trig.at k).count + 1 = s.par P.pickupLaps k)
    ∧ (∃ (s : State) (k : Nat) (q : Quantity) (lost : Bool) (u : State), u = s.evalTrigger k q lost ∧ (s.gmu.trig.at k).st ≠ 2 ∧ (trigCondition (s.par P.trigType k) (s.par P.trigThreshold k) (s.par P.trigHyst k) q lost).1 = false)
    ∧ (∃ (s : State) (i : Nat) (c : Capture) (inst : Nat), c = s.gmu.capture.at i ∧ inst = s.par P.tapInstance (s.cfg.active.trigTap c.trig) ∧ c.held = true ∧ c.complete = false ∧ c.stop ≤ s.time.dev ∧ c.intr = false)
    ∧ (∃ (s : State) (i : Nat) (c : Capture) (inst : Nat), c = s.gmu.capture.at i ∧ inst = s.par P.tapInstance (s.cfg.active.trigTap c.trig) ∧ c.held = true ∧ c.complete = false ∧ c.stop ≤ s.time.dev ∧ c.intr = true)
    ∧ (∃ (s : State) (i : Nat) (c : Capture) (inst : Nat), c = s.gmu.capture.at i ∧ inst = s.par P.tapInstance (s.cfg.active.trigTap c.trig) ∧ c.held = true ∧ c.complete = false ∧ s.time.dev < c.stop)
    ∧ (∃ (s : State) (o : Nat), o < 8 ∧ s.parOn P.pmuEnable o = true ∧ ((s.gmu.pmu.at o).sentCfg = false ∨ (s.gmu.pmu.at o).lastCfg + 1000000000 * s.par P.pmuCfgS o ≤ s.time.mono))
    ∧ (∃ (s : State) (o : Nat), o < 8 ∧ s.parOn P.pmuEnable o = true ∧ (s.gmu.pmu.at o).sentCfg = true ∧ s.time.mono < (s.gmu.pmu.at o).lastCfg + 1000000000 * s.par P.pmuCfgS o) :=
  ⟨⟨{ health := 1, chans := [{ pts := [{ t := 0 }] }] }, { pts := [{ t := 0 }] }, { t := 0 }, [], by decide +kernel⟩,
   ⟨{ cfg := { active := bank [(P.trigType, 3, 6), (P.pickupLaps, 3, 2)] } }, 3, quantity, true, _, rfl, by decide +kernel⟩,
   ⟨{ cfg := { active := bank [(P.trigType, 3, 6), (P.pickupLaps, 3, 1)] } }, 3, quantity, true, _, rfl, by decide +kernel⟩,
   ⟨{ cfg := { active := bank [(P.trigType, 3, 6)] } }, 3, quantity, false, _, rfl, by decide +kernel⟩,
   ⟨{ gmu := { capture := [(15, { held := true })] } }, 15, _, _, rfl, rfl, by decide +kernel⟩,
   ⟨{ gmu := { capture := [(15, { held := true, intr := true })] } }, 15, _, _, rfl, rfl, by decide +kernel⟩,
   ⟨{ gmu := { capture := [(15, { held := true, stop := 1 })] } }, 15, _, _, rfl, rfl, by decide +kernel⟩,
   ⟨{ cfg := { active := bank [(P.pmuEnable, 7, 1)] } }, 7, by decide +kernel⟩,
   ⟨{ gmu := { pmu := [(7, { sentCfg := true })] }, cfg := { active := bank [(P.pmuEnable, 7, 1)] } }, 7, by decide +kernel⟩⟩

theorem meets_FabricLearnsItsDevices_1 :
    (∃ (s : State), s.parOn P.fabricEnable = true ∧ s.par P.idMode = 1 ∧ s.fab.settled = false ∧ s.idConflict = false ∧ 4 ≤ s.fab.calm)
    ∧ (∃ (s : State), s.parOn P.fabricEnable = true ∧ s.par P.idMode = 1 ∧ s.fab.settled = false ∧ s.idConflict = false ∧ s.fab.calm < 4)
    ∧ (∃ (s : State) (port : Nat) (bytes : List Byte), s.parOn P.fabricEnable = true ∧ s.parOn P.portRole port = true ∧ s.isUp port = true ∧ s.relayHeaderOk bytes = false)
    ∧ (∃ (s : State) (port : Nat) (bytes : List Byte), s.parOn P.fabricEnable = true ∧ s.parOn P.portRole port = true ∧ s.isUp port = true ∧ s.relayHeaderOk bytes = true ∧ H.type.get (beAt bytes 0 16) = 1 ∧ 20 ≤ (bytes.drop 16).length ∧ beAt (bytes.drop 16) 0 4 ≠ s.par P.fabricId)
    ∧ (∃ (s : State) (port : Nat) (bytes : List Byte), s.parOn P.fabricEnable = true ∧ s.parOn P.portRole port = true ∧ s.isUp port = true ∧ s.relayHeaderOk bytes = true ∧ H.type.get (beAt bytes 0 16) = 1 ∧ 20 ≤ (bytes.drop 16).length ∧ beAt (bytes.drop 16) 0 4 = s.par P.fabricId)
    ∧ (∃ (s : State) (port : Nat), (s.fab.adj.at port).up = true ∧ s.par P.helloMiss ≤ (s.fab.adj.at port).miss)
    ∧ (∃ (s : State) (port : Nat), (s.fab.adj.at port).up = true ∧ (s.fab.adj.at port).miss < s.par P.helloMiss)
    ∧ (∃ (s : State), s.parOn P.fabricEnable = true ∧ (s.fab.lsaDue = true ∨ s.fab.lsaAt + 1000000000 ≤ s.time.mono))
    ∧ (∃ (s : State), s.parOn P.fabricEnable = true ∧ s.fab.lsaDue = false ∧ s.time.mono < s.fab.lsaAt + 1000000000) :=
  ⟨⟨{ cfg := { active := bank [(P.fabricEnable, 0, 1), (P.idMode, 0, 1)] }, fab := { calm := 4 } }, by decide +kernel⟩,
   ⟨{ cfg := { active := bank [(P.fabricEnable, 0, 1), (P.idMode, 0, 1)] }, fab := { calm := 3 } }, by decide +kernel⟩,
   ⟨{ port := [(511, { link := .up })], cfg := { active := bank [(P.fabricEnable, 0, 1), (P.portRole, 511, 1)] } }, 511, [], by decide +kernel⟩,
   ⟨{ port := [(511, { link := .up })], cfg := { active := bank [(P.fabricEnable, 0, 1), (P.portRole, 511, 1), (P.fabricId, 0, 7)] } }, 511, header [(H.type, 1), (H.len, 20)] ++ beBytes 20 0, by decide +kernel⟩,
   ⟨{ port := [(511, { link := .up })], cfg := { active := bank [(P.fabricEnable, 0, 1), (P.portRole, 511, 1)] } }, 511, header [(H.type, 1), (H.len, 20)] ++ beBytes 20 0, by decide +kernel⟩,
   ⟨{ fab := { adj := [(511, { up := true, miss := 3 })] }, cfg := { active := bank [(P.helloMiss, 0, 3)] } }, 511, by decide +kernel⟩,
   ⟨{ fab := { adj := [(511, { up := true, miss := 2 })] }, cfg := { active := bank [(P.helloMiss, 0, 3)] } }, 511, by decide +kernel⟩,
   ⟨{ fab := { lsaDue := true }, cfg := { active := bank [(P.fabricEnable, 0, 1)] } }, by decide +kernel⟩,
   ⟨{ time := { mono := 999999999 }, cfg := { active := bank [(P.fabricEnable, 0, 1)] } }, by decide +kernel⟩⟩

theorem meets_FabricLearnsItsDevices_2 :
    (∃ (s : State) (port : Nat) (d : Nat) (n : Nat) (bytes : List Byte) (body : List Byte) (old : Lsa), s.parOn P.fabricEnable = true ∧ s.parOn P.portRole port = true ∧ s.isUp port = true ∧ s.relayHeaderOk bytes = true ∧ H.type.get (beAt bytes 0 16) = 3 ∧ body = bytes.drop 16 ∧ d = H.src.get (beAt bytes 0 16) ∧ n = beAt body 20 2 ∧ n ≤ 512 ∧ 22 + 4 * n ≤ body.length ∧ beAt body 0 4 = s.par P.fabricId ∧ beAt body 4 8 ≠ serialNo ∧ (s.fab.adj.at port).up = true ∧ old = s.fab.lsdb.at d ∧ old.present = true ∧ beAt body 12 4 = old.nonce ∧ later 32 (beAt body 16 4) old.seq = false)
    ∧ (∃ (s : State) (port : Nat) (d : Nat) (n : Nat) (bytes : List Byte) (body : List Byte) (old : Lsa), s.parOn P.fabricEnable = true ∧ s.parOn P.portRole port = true ∧ s.isUp port = true ∧ s.relayHeaderOk bytes = true ∧ H.type.get (beAt bytes 0 16) = 3 ∧ body = bytes.drop 16 ∧ d = H.src.get (beAt bytes 0 16) ∧ n = beAt body 20 2 ∧ n ≤ 512 ∧ 22 + 4 * n ≤ body.length ∧ beAt body 0 4 = s.par P.fabricId ∧ beAt body 4 8 ≠ serialNo ∧ (s.fab.adj.at port).up = true ∧ old = s.fab.lsdb.at d ∧ old.present = true ∧ beAt body 12 4 = old.nonce ∧ later 32 (beAt body 16 4) old.seq = true ∧ s.adjacent = [port] ∧ s.par P.idMode = 0 ∧ d ≠ s.fab.id)
    ∧ (∃ (s : State) (port : Nat) (d : Nat) (n : Nat) (bytes : List Byte) (body : List Byte), s.parOn P.fabricEnable = true ∧ s.parOn P.portRole port = true ∧ s.isUp port = true ∧ s.relayHeaderOk bytes = true ∧ H.type.get (beAt bytes 0 16) = 3 ∧ body = bytes.drop 16 ∧ d = H.src.get (beAt bytes 0 16) ∧ n = beAt body 20 2 ∧ n ≤ 512 ∧ 22 + 4 * n ≤ body.length ∧ beAt body 0 4 = s.par P.fabricId ∧ beAt body 4 8 ≠ serialNo ∧ (s.fab.adj.at port).up = true ∧ d ∉ s.fab.lsdb.keys ∧ s.adjacent = [port] ∧ s.par P.idMode = 0 ∧ d ≠ s.fab.id ∧ (∀ k < 8, (s.fab.anchor.at (8 * d + k)).held = []))
    ∧ (∃ (s : State) (d : Nat), (s.fab.lsdb.at d).present = true ∧ (s.fab.lsdb.at d).at_ + 3000000000 ≤ s.time.mono)
    ∧ (∃ (s : State) (d : Nat), (s.fab.lsdb.at d).present = true ∧ s.time.mono < (s.fab.lsdb.at d).at_ + 3000000000)
    ∧ (∃ (s : State), s.parOn P.fabricEnable = true ∧ s.pacer.down = false ∧ s.fab.stale = true)
    ∧ (∃ (s : State), s.fab.stale = false)
    ∧ (∃ (s : State) (l : List (Nat × Nat × Nat)) (r : Nat) (d : Nat) (p : _), p ∈ s.pathSet l r d) :=
  ⟨serial_differs.elim (fun h => ⟨lsaState true, 511, 9, 0, header [(H.type, 3), (H.src, 9)] ++ beBytes 22 0, beBytes 22 0, { present := true }, by and_intros <;> first | decide +kernel | exact fun e => h (e.symm.trans (by decide +kernel))⟩) (fun h => ⟨lsaState true, 511, 9, 0, header [(H.type, 3), (H.src, 9)] ++ beBytes 12 1 ++ beBytes 10 0, beBytes 12 1 ++ beBytes 10 0, { present := true }, by and_intros <;> first | decide +kernel | exact fun e => h (e.symm.trans (by decide +kernel))⟩),
   serial_differs.elim (fun h => ⟨lsaState true, 511, 9, 0, header [(H.type, 3), (H.src, 9)] ++ beBytes 20 1 ++ beBytes 2 0, beBytes 20 1 ++ beBytes 2 0, { present := true }, by and_intros <;> first | decide +kernel | exact fun e => h (e.symm.trans (by decide +kernel))⟩) (fun h => ⟨lsaState true, 511, 9, 0, header [(H.type, 3), (H.src, 9)] ++ beBytes 12 1 ++ beBytes 8 1 ++ beBytes 2 0, beBytes 12 1 ++ beBytes 8 1 ++ beBytes 2 0, { present := true }, by and_intros <;> first | decide +kernel | exact fun e => h (e.symm.trans (by decide +kernel))⟩),
   serial_differs.elim (fun h => ⟨lsaState false, 511, 9, 0, header [(H.type, 3), (H.src, 9)] ++ beBytes 22 0, beBytes 22 0, by and_intros <;> first | decide +kernel | exact fun e => h (e.symm.trans (by decide +kernel))⟩) (fun h => ⟨lsaState false, 511, 9, 0, header [(H.type, 3), (H.src, 9)] ++ beBytes 12 1 ++ beBytes 10 0, beBytes 12 1 ++ beBytes 10 0, by and_intros <;> first | decide +kernel | exact fun e => h (e.symm.trans (by decide +kernel))⟩),
   ⟨{ time := { mono := 3000000000 }, fab := { lsdb := [(9, { present := true })] } }, 9, by decide +kernel⟩,
   ⟨{ time := { mono := 2999999999 }, fab := { lsdb := [(9, { present := true })] } }, 9, by decide +kernel⟩,
   ⟨{ fab := { stale := true }, cfg := { active := bank [(P.fabricEnable, 0, 1)] } }, by decide +kernel⟩,
   ⟨{}, by decide +kernel⟩,
   ⟨{ fab := { adj := [(511, { up := true, peer := 9 })] } }, [], 0, 9, 511, by decide +kernel⟩⟩

theorem meets_FabricMovesFrames_1 :
    (∃ (s : State), s.nextVoq = none)
    ∧ (∃ (s : State) (u : State) (v : Nat) (k : Nat), u = { s with fab := { s.fab with rr := s.fab.rr.put (v % 8) (v / 8 + 1) } } ∧ s.nextVoq = some v ∧ s.queueHead (8192 + v) = some k ∧ s.tooOld k = true)
    ∧ (∃ (s : State) (u : State) (v : Nat) (k : Nat), u = { s with fab := { s.fab with rr := s.fab.rr.put (v % 8) (v / 8 + 1) } } ∧ s.nextVoq = some v ∧ s.queueHead (8192 + v) = some k ∧ s.tooOld k = false ∧ s.fab.path.at (v / 8) = [])
    ∧ (∃ (s : State) (u : State) (v : Nat) (k : Nat) (m : Nat), u = { s with fab := { s.fab with rr := s.fab.rr.put (v % 8) (v / 8 + 1) } } ∧ s.nextVoq = some v ∧ s.queueHead (8192 + v) = some k ∧ s.tooOld k = false ∧ s.fab.path.at (v / 8) = [m] ∧ s.par P.relayTxqDepth ≤ (s.fab.txfifo.at (8 * m + v % 8)).length)
    ∧ (∃ (s : State) (u : State) (v : Nat) (k : Nat) (m : Nat) (l : List Nat), u = { s with fab := { s.fab with rr := s.fab.rr.put (v % 8) (v / 8 + 1) } } ∧ s.nextVoq = some v ∧ s.queueHead (8192 + v) = some k ∧ s.tooOld k = false ∧ s.fab.path.at (v / 8) = l ∧ l ≠ [] ∧ l.getD (s.fab.ptr.at v % l.length) 0 = m ∧ (s.fab.txfifo.at (8 * m + v % 8)).length < s.par P.relayTxqDepth)
    ∧ (∃ (s : State) (v : Nat) (k : Nat), (s.cpy.at k).transit = false ∧ s.par P.relaySched (v % 8) = 0)
    ∧ (∃ (s : State) (v : Nat) (k : Nat) (j : _), (s.cpy.at k).transit = false ∧ s.par P.relaySched (v % 8) = 0 ∧ j ≠ v)
    ∧ (∃ (s : State) (d : Nat) (p : Nat) (l : List Nat) (due : List Nat), due = (List.range 8).filter (fun k => s.fab.returned.at (8 * d + k) != s.fab.sent.at (8 * d + k)) ∧ s.parOn P.fabricEnable = true ∧ s.fab.settled = true ∧ s.fab.path.at d = p :: l ∧ due ≠ [] ∧ s.fab.creditAt.at d ≤ s.time.mono)
    ∧ (∃ (s : State) (d : Nat) (p : Nat) (l : List Nat) (due : List Nat), due = (List.range 8).filter (fun k => s.fab.returned.at (8 * d + k) != s.fab.sent.at (8 * d + k)) ∧ s.parOn P.fabricEnable = true ∧ s.fab.settled = true ∧ s.fab.path.at d = p :: l ∧ (due = [] ∨ s.time.mono < s.fab.creditAt.at d))
    ∧ (∃ (s : State) (port : Nat) (h : Nat) (w : Nat) (v : Nat) (bytes : List Byte) (sum : Nat) (top : Nat) (u : State), h = beAt bytes 0 16 ∧ w = beAt (bytes.drop 16) 0 4 ∧ v = 8 * H.src.get h + w / 2 ^ 29 ∧ sum = s.fab.credit.at v + (w % 2 ^ 24 + 2 ^ 24 - s.fab.lastCum.at v) % 2 ^ 24 ∧ top = s.par P.creditInit (v % 8) ∧ u = { s with fab := { s.fab with credit := s.fab.credit.put v (min top sum), lastCum := s.fab.lastCum.put v (w % 2 ^ 24) } } ∧ s.parOn P.fabricEnable = true ∧ s.parOn P.portRole port = true ∧ s.isUp port = true ∧ s.relayHeaderOk bytes = true ∧ H.type.get h = 2 ∧ s.fab.settled = true ∧ H.dst.get h = s.fab.id ∧ H.len.get h = 8 ∧ sum ≤ top) :=
  ⟨⟨{}, by decide +kernel⟩,
   ⟨{ time := { mono := 2000000000 }, cpy := [(3, { live := true, stamp := 0 })], buf := { sub := [(4 * (8192 + 79), { head := [3] })] }, cfg := { active := bank [(P.relaySched, 7, 0)] } }, _, 79, 3, rfl, by decide +kernel⟩,
   ⟨{ buf := { sub := [(4 * (8192 + 79), { head := [3] })] }, cfg := { active := bank [(P.relaySched, 7, 0)] } }, _, 79, 3, rfl, by decide +kernel⟩,
   ⟨{ buf := { sub := [(4 * (8192 + 79), { head := [3] })] }, fab := { settled := true, credit := [(79, 100)], path := [(9, [511])], txfifo := [(4095, [1])] }, cfg := { active := bank [(P.relaySched, 7, 0), (P.relayTxqDepth, 0, 1)] } }, _, 79, 3, 511, rfl, by decide +kernel⟩,
   ⟨{ buf := { sub := [(4 * (8192 + 79), { head := [3] })] }, fab := { settled := true, credit := [(79, 100)], path := [(9, [511])] }, cfg := { active := bank [(P.relaySched, 7, 0), (P.relayTxqDepth, 0, 1)] } }, _, 79, 3, 511, [511], rfl, by decide +kernel⟩,
   ⟨{ cfg := { active := bank [(P.relaySched, 7, 0)] } }, 79, 3, by decide +kernel⟩,
   ⟨{ cfg := { active := bank [(P.relaySched, 7, 0)] } }, 79, 3, 78, by decide +kernel⟩,
   ⟨{ fab := { settled := true, path := [(9, [511])], returned := [(79, 5)] }, cfg := { active := bank [(P.fabricEnable, 0, 1)] } }, 9, 511, [], _, rfl, by decide +kernel⟩,
   ⟨{ fab := { settled := true, path := [(9, [511])] }, cfg := { active := bank [(P.fabricEnable, 0, 1)] } }, 9, 511, [], _, rfl, by decide +kernel⟩,
   ⟨{ port := [(511, { link := .up })], fab := { settled := true, id := 5 }, cfg := { active := bank [(P.fabricEnable, 0, 1), (P.portRole, 511, 1)] } }, 511, _, _, _, header [(H.type, 2), (H.src, 9), (H.dst, 5), (H.len, 8)] ++ beBytes 4 (7 * 2 ^ 29 + 4) ++ beBytes 4 0, _, _, _, rfl, rfl, rfl, rfl, rfl, rfl, by decide +kernel⟩⟩

theorem meets_FabricMovesFrames_2 :
    (∃ (s : State) (port : Nat) (h : Nat) (w : Nat) (v : Nat) (bytes : List Byte) (sum : Nat) (top : Nat) (u : State), h = beAt bytes 0 16 ∧ w = beAt (bytes.drop 16) 0 4 ∧ v = 8 * H.src.get h + w / 2 ^ 29 ∧ sum = s.fab.credit.at v + (w % 2 ^ 24 + 2 ^ 24 - s.fab.lastCum.at v) % 2 ^ 24 ∧ top = s.par P.creditInit (v % 8) ∧ u = { s with fab := { s.fab with credit := s.fab.credit.put v (min top sum), lastCum := s.fab.lastCum.put v (w % 2 ^ 24) } } ∧ s.parOn P.fabricEnable = true ∧ s.parOn P.portRole port = true ∧ s.isUp port = true ∧ s.relayHeaderOk bytes = true ∧ H.type.get h = 2 ∧ s.fab.settled = true ∧ H.dst.get h = s.fab.id ∧ H.len.get h = 8 ∧ top < sum)
    ∧ (∃ (s : State) (port : Nat) (h : Nat) (bytes : List Byte), h = beAt bytes 0 16 ∧ s.parOn P.fabricEnable = true ∧ s.parOn P.portRole port = true ∧ s.isUp port = true ∧ s.relayHeaderOk bytes = true ∧ H.type.get h = 2 ∧ s.fab.settled = true ∧ H.dst.get h ≠ s.fab.id ∧ H.hops.get h ≤ 1)
    ∧ (∃ (s : State) (u : State) (n : Nat) (x : Nat) (src : Nat) (seq : Nat) (st : Nat), u = s.updAnchor x (fun a => { a with lastArrival := s.time.mono }) ∧ (s.pkt.at n).relaySrc = some (src, seq, st) ∧ x = 8 * src + (s.pkt.at n).relayField H.rclass ∧ (s.pkt.at n).live = true ∧ (s.pkt.at n).stage = .anchor ∧ (∀ h ∈ (s.fab.anchor.at x).held, h.pkt ≠ n) ∧ (s.fab.anchor.at x).sync = true ∧ seq = (s.fab.anchor.at x).expect)
    ∧ (∃ (s : State) (u : State) (n : Nat) (x : Nat) (src : Nat) (seq : Nat) (st : Nat), u = s.updAnchor x (fun a => { a with lastArrival := s.time.mono }) ∧ (s.pkt.at n).relaySrc = some (src, seq, st) ∧ x = 8 * src + (s.pkt.at n).relayField H.rclass ∧ (s.pkt.at n).live = true ∧ (s.pkt.at n).stage = .anchor ∧ (∀ h ∈ (s.fab.anchor.at x).held, h.pkt ≠ n) ∧ (s.fab.anchor.at x).sync = true ∧ 2 ^ 19 ≤ (s.fab.anchor.at x).ahead seq)
    ∧ (∃ (s : State) (u : State) (n : Nat) (x : Nat) (src : Nat) (seq : Nat) (st : Nat), u = s.updAnchor x (fun a => { a with lastArrival := s.time.mono }) ∧ (s.pkt.at n).relaySrc = some (src, seq, st) ∧ x = 8 * src + (s.pkt.at n).relayField H.rclass ∧ (s.pkt.at n).live = true ∧ (s.pkt.at n).stage = .anchor ∧ (∀ h ∈ (s.fab.anchor.at x).held, h.pkt ≠ n) ∧ (s.fab.anchor.at x).sync = true ∧ 0 < (s.fab.anchor.at x).ahead seq ∧ (s.fab.anchor.at x).ahead seq < 65536 ∧ u.heldOf src < 65536 ∧ u.heldAll < 262144)
    ∧ (∃ (s : State) (n : Nat) (x : Nat) (src : Nat) (seq : Nat) (st : Nat), (s.pkt.at n).relaySrc = some (src, seq, st) ∧ x = 8 * src + (s.pkt.at n).relayField H.rclass ∧ (s.pkt.at n).live = true ∧ (s.pkt.at n).stage = .anchor ∧ (s.fab.anchor.at x).held = [] ∧ (s.fab.anchor.at x).sync = false)
    ∧ (∃ (s : State) (src : Nat) (rc : Nat) (h : Held) (l : List Held), rc < 8 ∧ (s.fab.anchor.at (8 * src + rc)).held = h :: l ∧ h.at_ + s.par P.reorderTimeout * 1000 ≤ s.time.mono)
    ∧ (∃ (s : State) (src : Nat) (rc : Nat) (h : Held) (l : List Held), rc < 8 ∧ (s.fab.anchor.at (8 * src + rc)).held = h :: l ∧ s.time.mono < h.at_ + s.par P.reorderTimeout * 1000)
    ∧ (∃ (s : State) (src : Nat) (rc : Nat), rc < 8 ∧ (s.fab.anchor.at (8 * src + rc)).sync = true ∧ (s.fab.anchor.at (8 * src + rc)).held = [] ∧ (s.fab.anchor.at (8 * src + rc)).lastArrival + 1000000000 ≤ s.time.mono)
    ∧ (∃ (s : State) (src : Nat) (rc : Nat), rc < 8 ∧ (s.fab.anchor.at (8 * src + rc)).sync = true ∧ s.time.mono < (s.fab.anchor.at (8 * src + rc)).lastArrival + 1000000000) :=
  ⟨⟨{ port := [(511, { link := .up })], fab := { settled := true, id := 5, credit := [(79, 1000000)] }, cfg := { active := bank [(P.fabricEnable, 0, 1), (P.portRole, 511, 1)] } }, 511, _, _, _, header [(H.type, 2), (H.src, 9), (H.dst, 5), (H.len, 8)] ++ beBytes 4 (7 * 2 ^ 29 + 4) ++ beBytes 4 0, _, _, _, rfl, rfl, rfl, rfl, rfl, rfl, by decide +kernel⟩,
   ⟨{ port := [(511, { link := .up })], fab := { settled := true, id := 5 }, cfg := { active := bank [(P.fabricEnable, 0, 1), (P.portRole, 511, 1)] } }, 511, _, header [(H.type, 2), (H.src, 9), (H.dst, 6), (H.len, 8)] ++ beBytes 8 0, rfl, by decide +kernel⟩,
   ⟨{ pkt := [(3, { live := true, stage := .anchor, relaySrc := some (9, 6, 0), rx := { bytes := header [(H.rclass, 7)] } })], fab := { anchor := [(79, { sync := true, expect := 6 })] } }, _, 3, 79, 9, 6, 0, rfl, by decide +kernel⟩,
   ⟨{ pkt := [(3, { live := true, stage := .anchor, relaySrc := some (9, 6, 0), rx := { bytes := header [(H.rclass, 7)] } })], fab := { anchor := [(79, { sync := true, expect := 7 + 2 ^ 19 - 1 })] } }, _, 3, 79, 9, 6, 0, rfl, by decide +kernel⟩,
   ⟨{ pkt := [(3, { live := true, stage := .anchor, relaySrc := some (9, 6, 0), rx := { bytes := header [(H.rclass, 7)] } })], fab := { anchor := [(79, { sync := true, expect := 5 })] } }, _, 3, 79, 9, 6, 0, rfl, by decide +kernel⟩,
   ⟨{ pkt := [(3, { live := true, stage := .anchor, relaySrc := some (9, 6, 0), rx := { bytes := header [(H.rclass, 7)] } })] }, 3, 79, 9, 6, 0, by decide +kernel⟩,
   ⟨{ time := { mono := 5000 }, fab := { anchor := [(79, { held := [{ pkt := 3, seq := 6, at_ := 0 }] })] }, cfg := { active := bank [(P.reorderTimeout, 0, 5)] } }, 9, 7, { pkt := 3, seq := 6, at_ := 0 }, [], by decide +kernel⟩,
   ⟨{ time := { mono := 4999 }, fab := { anchor := [(79, { held := [{ pkt := 3, seq := 6, at_ := 0 }] })] }, cfg := { active := bank [(P.reorderTimeout, 0, 5)] } }, 9, 7, { pkt := 3, seq := 6, at_ := 0 }, [], by decide +kernel⟩,
   ⟨{ time := { mono := 1000000000 }, fab := { anchor := [(79, { sync := true })] } }, 9, 7, by decide +kernel⟩,
   ⟨{ time := { mono := 999999999 }, fab := { anchor := [(79, { sync := true })] } }, 9, 7, by decide +kernel⟩⟩

theorem meets_HbmServesItsMasters_1 :
    (∃ (s : State) (t : State) (rank : Nat) (addr : Nat) (bytes : Nat) (tag : Nat) (write : Bool) (c : Pc) (r : HReq), c = s.hbm.pc.at (pcOf addr) ∧ t = s.hbmAsk rank addr bytes write tag ∧ r = { master := rank, addr := addr, bytes := bytes, write := write, at_ := ceilDiv (max (3000 * s.time.mono) (s.hbm.rate.at rank)) 3000, tag := tag } ∧ c.st ≠ 1 ∧ c.st ≠ 2)
    ∧ (∃ (s : State) (t : State) (rank : Nat) (addr : Nat) (bytes : Nat) (tag : Nat) (write : Bool) (c : Pc) (r : HReq), c = s.hbm.pc.at (pcOf addr) ∧ t = s.hbmAsk rank addr bytes write tag ∧ r = { master := rank, addr := addr, bytes := bytes, write := write, at_ := ceilDiv (max (3000 * s.time.mono) (s.hbm.rate.at rank)) 3000, tag := tag } ∧ (c.st = 1 ∨ c.st = 2))
    ∧ (∃ (s : State) (t : State) (rank : Nat) (addr : Nat) (bytes : Nat) (tag : Nat) (write : Bool) (c : Pc) (r : HReq), c = s.hbm.pc.at (pcOf addr) ∧ t = s.hbmAsk rank addr bytes write tag ∧ r = { master := rank, addr := addr, bytes := bytes, write := write, at_ := ceilDiv (max (3000 * s.time.mono) (s.hbm.rate.at rank)) 3000, tag := tag } ∧ (c.st = 1 ∨ c.st = 2) ∧ c.held rank < hbmLimit rank ∧ (if write then c.writes else c.reads).length < 64 ∧ (∀ q ∈ s.hbm.wait, q.master = rank → pcOf q.addr ≠ pcOf addr))
    ∧ (∃ (s : State) (t : State) (rank : Nat) (addr : Nat) (bytes : Nat) (tag : Nat) (write : Bool) (c : Pc) (r : HReq), c = s.hbm.pc.at (pcOf addr) ∧ t = s.hbmAsk rank addr bytes write tag ∧ r = { master := rank, addr := addr, bytes := bytes, write := write, at_ := ceilDiv (max (3000 * s.time.mono) (s.hbm.rate.at rank)) 3000, tag := tag } ∧ (c.st = 1 ∨ c.st = 2) ∧ (hbmLimit rank ≤ c.held rank ∨ 64 ≤ (if write then c.writes else c.reads).length ∨ (∃ q ∈ s.hbm.wait, q.master = rank ∧ pcOf q.addr = pcOf addr)))
    ∧ (∃ (s : State) (t : State) (rank : Nat) (addr : Nat) (bytes : Nat) (tag : Nat) (write : Bool) (c : Pc) (r : HReq) (k : _), c = s.hbm.pc.at (pcOf addr) ∧ t = s.hbmAsk rank addr bytes write tag ∧ r = { master := rank, addr := addr, bytes := bytes, write := write, at_ := ceilDiv (max (3000 * s.time.mono) (s.hbm.rate.at rank)) 3000, tag := tag } ∧ k ≠ pcOf addr)
    ∧ (∃ (s : State) (t : State) (rank : Nat) (addr : Nat) (bytes : Nat) (tag : Nat) (write : Bool) (c : Pc) (r : HReq), c = s.hbm.pc.at (pcOf addr) ∧ t = s.hbmAsk rank addr bytes write tag ∧ r = { master := rank, addr := addr, bytes := bytes, write := write, at_ := ceilDiv (max (3000 * s.time.mono) (s.hbm.rate.at rank)) 3000, tag := tag })
    ∧ (∃ (c : Pc) (now : Nat) (r : HReq), now ≤ r.at_ ∧ (∀ q ∈ c.reads ++ c.writes, q.at_ ≤ r.at_))
    ∧ (∃ (rank : Nat) (ns : Nat) (t : Nat), hbmTarget rank = some t ∧ ns < t)
    ∧ (∃ (rank : Nat) (ns : Nat) (t : Nat), hbmTarget rank = some t ∧ t ≤ ns ∧ ns < 2 * t)
    ∧ (∃ (rank : Nat) (ns : Nat) (t : Nat), hbmTarget rank = some t ∧ 0 < t ∧ 2 * t ≤ ns)
    ∧ (∃ (s : State) (bank : Nat) (b : Nat) (l : List HReq) (r : HReq), s.hbmChoose bank l = some (r, b)) :=
  ⟨⟨{}, _, 9, 0, 64, 0, false, _, _, rfl, rfl, rfl, by decide +kernel⟩,
   ⟨{ hbm := { pc := [(0, { st := 2 })] } }, _, 9, 0, 64, 0, false, _, _, rfl, rfl, rfl, by decide +kernel⟩,
   ⟨{ hbm := { pc := [(0, { st := 1 })] } }, _, 1, 0, 64, 0, false, _, _, rfl, rfl, rfl, by decide +kernel⟩,
   ⟨{ hbm := { pc := [(0, { st := 1, reads := [{ master := 9, addr := 0, bytes := 64, write := false, at_ := 0 }] })] } }, _, 9, 0, 64, 0, false, _, _, rfl, rfl, rfl, by decide +kernel⟩,
   ⟨{}, _, 9, 0, 64, 0, false, _, _, 1, rfl, rfl, rfl, by decide +kernel⟩,
   ⟨{}, _, 9, 0, 64, 0, false, _, _, rfl, rfl, rfl⟩,
   ⟨{ reads := [aRead] }, 0, aRead, by decide +kernel⟩,
   ⟨1, 399, 400, by decide +kernel⟩,
   ⟨1, 400, 400, by decide +kernel⟩,
   ⟨1, 800, 400, by decide +kernel⟩,
   ⟨{ time := { mono := 400 } }, 0, 0, [aRead], aRead, by decide +kernel⟩⟩

theorem meets_HbmServesItsMasters_2 :
    (∃ (s : State) (bank : Nat) (b : Nat) (l : List HReq) (r : HReq) (q : _), (∃ q ∈ l, 1 ≤ s.levelOf q) ∧ s.hbmChoose bank l = some (r, b) ∧ q ∈ l)
    ∧ (∃ (s : State) (pc : Nat) (c : Pc), c = s.hbm.pc.at pc ∧ c.st = 1 ∧ c.burst = none ∧ s.time.mono < c.busy)
    ∧ (∃ (s : State) (pc : Nat) (c : Pc), c = s.hbm.pc.at pc ∧ c.st = 1 ∧ c.burst = none ∧ c.busy ≤ s.time.mono ∧ s.hbmChoose c.bank (c.free s.time.mono (s.hbmBatch c)) = none)
    ∧ (∃ (s : State) (pc : Nat) (ecc : Nat) (b : Nat) (c : Pc) (r : HReq) (u : State), c = s.hbm.pc.at pc ∧ u = (s.updPc pc (fun _ => c.take s.time.mono b r (s.hbmBatch c))).hbmEnter pc ∧ c.st = 1 ∧ c.burst = none ∧ c.busy ≤ s.time.mono ∧ s.hbmChoose c.bank (c.free s.time.mono (s.hbmBatch c)) = some (r, b) ∧ (r.write = true ∨ ecc = 0))
    ∧ (∃ (s : State) (pc : Nat) (ecc : Nat) (b : Nat) (c : Pc) (r : HReq) (u : State), c = s.hbm.pc.at pc ∧ u = (s.updPc pc (fun _ => c.take s.time.mono b r (s.hbmBatch c))).hbmEnter pc ∧ c.st = 1 ∧ c.burst = none ∧ c.busy ≤ s.time.mono ∧ s.hbmChoose c.bank (c.free s.time.mono (s.hbmBatch c)) = some (r, b) ∧ r.write = false ∧ ecc = 1)
    ∧ (∃ (s : State) (pc : Nat) (ecc : Nat) (b : Nat) (c : Pc) (r : HReq) (u : State), c = s.hbm.pc.at pc ∧ u = (s.updPc pc (fun _ => c.take s.time.mono b r (s.hbmBatch c))).hbmEnter pc ∧ c.st = 1 ∧ c.burst = none ∧ c.busy ≤ s.time.mono ∧ s.hbmChoose c.bank (c.free s.time.mono (s.hbmBatch c)) = some (r, b) ∧ r.write = false ∧ ecc = 2)
    ∧ (∃ (s : State) (pc : Nat) (c : Pc) (r : HReq), c = s.hbm.pc.at pc ∧ c.st = 1 ∧ c.burst = some r ∧ c.busy ≤ s.time.mono ∧ 0 < c.debt ∧ (∀ q ∈ c.reads ++ c.writes, s.levelOf q ≠ 2))
    ∧ (∃ (s : State) (pc : Nat), s.hbm.wait.find? (fun r => pcOf r.addr == pc && (s.hbm.pc.at pc).room r) = none)
    ∧ (∃ (s : State) (pc : Nat) (r : _), s.hbm.wait.find? (fun r => pcOf r.addr == pc && (s.hbm.pc.at pc).room r) = some r)
    ∧ (∃ (s : State) (pc : Nat) (c : Pc), c = s.hbm.pc.at pc ∧ c.st = 1 ∧ c.refresh ≤ s.time.mono ∧ 0 < c.ahead)
    ∧ (∃ (s : State) (pc : Nat) (c : Pc) (r : _), c = s.hbm.pc.at pc ∧ c.st = 1 ∧ c.refresh ≤ s.time.mono ∧ c.ahead = 0 ∧ c.burst = some r ∧ hbmRealTime r.master = true ∧ s.time.mono < c.busy ∧ c.debt + 1 < s.par P.refPostponeMax) :=
  ⟨⟨{ time := { mono := 400 } }, 0, 0, [aRead], aRead, aRead, by exact ⟨_, List.mem_singleton.mpr rfl, by decide +kernel⟩, by decide +kernel⟩,
   ⟨{ hbm := { pc := [(127, { st := 1, busy := 1 })] } }, 127, _, rfl, by decide +kernel⟩,
   ⟨{ time := { mono := 400 }, hbm := { pc := [(127, { st := 1, busy := 400 })] } }, 127, _, rfl, by decide +kernel⟩,
   ⟨{ time := { mono := 400 }, hbm := { pc := [(127, { st := 1, busy := 400, reads := [aRead] })] } }, 127, 0, 0, _, aRead, _, rfl, rfl, by decide +kernel⟩,
   ⟨{ time := { mono := 400 }, hbm := { pc := [(127, { st := 1, busy := 400, reads := [aRead] })] } }, 127, 1, 0, _, aRead, _, rfl, rfl, by decide +kernel⟩,
   ⟨{ time := { mono := 400 }, hbm := { pc := [(127, { st := 1, busy := 400, reads := [aRead] })] } }, 127, 2, 0, _, aRead, _, rfl, rfl, by decide +kernel⟩,
   ⟨{ time := { mono := 400 }, hbm := { pc := [(127, { st := 1, busy := 400, burst := some aRead, debt := 1 })] } }, 127, _, aRead, rfl, by decide +kernel⟩,
   ⟨{}, 127, by decide +kernel⟩,
   ⟨{ hbm := { wait := [{ aRead with addr := 127 * 256 }], pc := [(pcOf (127 * 256), { st := 1 })] } }, pcOf (127 * 256), { aRead with addr := 127 * 256 }, by decide +kernel⟩,
   ⟨{ hbm := { pc := [(127, { st := 1, ahead := 1 })] } }, 127, _, rfl, by decide +kernel⟩,
   ⟨{ hbm := { pc := [(127, { st := 1, busy := 1, debt := 2, burst := some aRead })] }, cfg := { active := bank [(P.refPostponeMax, 0, 4)] } }, 127, _, aRead, rfl, by decide +kernel⟩⟩

theorem meets_HbmServesItsMasters_3 :
    (∃ (s : State) (pc : Nat) (c : Pc) (r : _), c = s.hbm.pc.at pc ∧ c.st = 1 ∧ c.refresh ≤ s.time.mono ∧ c.ahead = 0 ∧ c.burst = some r ∧ hbmRealTime r.master = true ∧ s.time.mono < c.busy ∧ s.par P.refPostponeMax ≤ c.debt + 1)
    ∧ (∃ (s : State) (pc : Nat) (c : Pc), c = s.hbm.pc.at pc ∧ c.st = 1 ∧ c.refresh ≤ s.time.mono ∧ c.ahead = 0 ∧ c.burst = none)
    ∧ (∃ (s : State) (pc : Nat), s.time.mono < (s.hbm.pc.at pc).refresh)
    ∧ (∃ (s : State) (pc : Nat) (c : Pc), c = s.hbm.pc.at pc ∧ c.st = 1 ∧ s.hbmIdle c 200 = true ∧ c.ahead < 2)
    ∧ (∃ (s : State) (pc : Nat) (c : Pc), c = s.hbm.pc.at pc ∧ c.st = 1 ∧ 2 ≤ c.ahead)
    ∧ (∃ (s : State) (pc : Nat) (c : Pc), c = s.hbm.pc.at pc ∧ c.st = 1 ∧ s.hbmIdle c (ceilDiv (s.par P.pdIdle) 4) = true)
    ∧ (∃ (s : State) (pc : Nat) (c : Pc), c = s.hbm.pc.at pc ∧ c.st = 1 ∧ (c.reads ≠ [] ∨ c.writes ≠ []))
    ∧ (∃ (s : State) (addr : Nat), s.hbm.valid = true ∧ addr < 2 ^ 36 ∧ (s.hbm.pc.at (pcOf (addr / 64 * 64))).st = 1 ∧ s.hbm.scrubAt ≤ s.time.mono)
    ∧ (∃ (s : State), (s.hbm.valid = false ∨ s.time.mono < s.hbm.scrubAt)) :=
  ⟨⟨{ hbm := { pc := [(127, { st := 1, busy := 1, debt := 3, burst := some aRead })] }, cfg := { active := bank [(P.refPostponeMax, 0, 4)] } }, 127, _, aRead, rfl, by decide +kernel⟩,
   ⟨{ hbm := { pc := [(127, { st := 1 })] } }, 127, _, rfl, by decide +kernel⟩,
   ⟨{ hbm := { pc := [(127, { st := 1, refresh := 1 })] } }, 127, by decide +kernel⟩,
   ⟨{ time := { mono := 200 }, hbm := { pc := [(127, { st := 1, ahead := 1 })] } }, 127, _, rfl, by decide +kernel⟩,
   ⟨{ hbm := { pc := [(127, { st := 1, ahead := 2 })] } }, 127, _, rfl, by decide +kernel⟩,
   ⟨{ time := { mono := 1000000 }, hbm := { pc := [(127, { st := 1 })] } }, 127, _, rfl, by decide +kernel⟩,
   ⟨{ hbm := { pc := [(127, { st := 1, reads := [aRead] })] } }, 127, _, rfl, by decide +kernel⟩,
   ⟨{ hbm := { valid := true, pc := [(pcOf ((2 ^ 36 - 1) / 64 * 64), { st := 1 })] } }, 2 ^ 36 - 1, by decide +kernel⟩,
   ⟨{}, by decide +kernel⟩⟩

theorem meets_ChannelsCarryMessages :
    (∃ (s : State) (t : Nat) (c : Nat) (k : Channel) (n : _), k = s.chan c ∧ t < 32 ∧ mayReach t c = true ∧ (s.thread t).st = 1 ∧ s.pacer.down = false ∧ 1 ≤ n ∧ n ≤ 16 ∧ k.resv = none ∧ k.writers = [] ∧ k.committed + n ≤ 16)
    ∧ (∃ (s : State) (t : Nat) (c : Nat) (k : Channel) (n : _), k = s.chan c ∧ t < 32 ∧ mayReach t c = true ∧ (s.thread t).st = 1 ∧ s.pacer.down = false ∧ 1 ≤ n ∧ n ≤ 16 ∧ (k.resv ≠ none ∨ k.writers ≠ [] ∨ 16 < k.committed + n))
    ∧ (∃ (s : State) (t : Nat) (c : Nat) (k : Channel) (r : _), k = s.chan c ∧ t < 32 ∧ mayReach t c = true ∧ (s.thread t).st = 1 ∧ s.pacer.down = false ∧ k.resv = some r ∧ r.thread = t ∧ r.put.length < r.words)
    ∧ (∃ (s : State) (t : Nat) (c : Nat) (k : Channel) (r : _), k = s.chan c ∧ t < 32 ∧ mayReach t c = true ∧ (s.thread t).st = 1 ∧ s.pacer.down = false ∧ k.resv = some r ∧ r.thread = t ∧ r.words ≤ r.put.length)
    ∧ (∃ (s : State) (t : Nat) (c : Nat) (k : Channel) (m : _) (ms : _), k = s.chan c ∧ t < 32 ∧ mayReach t c = true ∧ (s.thread t).st = 1 ∧ s.pacer.down = false ∧ k.msgs = m :: ms)
    ∧ (∃ (s : State) (t : Nat) (c : Nat) (k : Channel), k = s.chan c ∧ t < 32 ∧ mayReach t c = true ∧ (s.thread t).st = 1 ∧ s.pacer.down = false ∧ k.msgs = [])
    ∧ (∃ (s : State) (t : Nat), (s.thread t).st ≠ 1)
    ∧ (∃ (s : State) (c : Nat) (t : Nat) (m : List Nat) (ms : List (List Nat)) (ts : List Nat), (s.chan c).msgs = m :: ms ∧ (s.chan c).readers = t :: ts)
    ∧ (∃ (s : State) (c : Nat) (t : Nat) (w : Nat) (ws : List (Nat × Nat)), ((s.chan c).msgs = [] ∨ (s.chan c).readers = []) ∧ (s.chan c).resv = none ∧ (s.chan c).writers = (t, w) :: ws)
    ∧ (∃ (s : State) (c : Nat) (ws : List Nat), c < 48 ∧ ws ≠ [] ∧ (s.chan c).resv = none ∧ (s.chan c).committed + ws.length ≤ 16)
    ∧ (∃ (s : State) (c : Nat) (ws : List Nat), (48 ≤ c ∨ (s.chan c).resv ≠ none ∨ 16 < (s.chan c).committed + ws.length))
    ∧ (∃ (s : State) (t : Nat) (c : Nat) (n : Nat), t < 32 ∧ 6 ≤ t % 8 ∧ c < 240 ∧ (s.thread t).st = 1 ∧ s.pacer.down = false ∧ 1 ≤ n ∧ n ≤ 16)
    ∧ (∃ (s : State) (core : Nat) (thread : Nat), core < 4 ∧ (thread = 6 ∨ thread = 7) ∧ (s.thread (8 * core + thread)).st ≠ 0) :=
  ⟨⟨{ pacer := { thread := [(31, { st := 1 })], channel := [(255, { msgs := [List.replicate 15 0] })] } }, 31, 255, _, 1, rfl, by decide +kernel⟩,
   ⟨{ pacer := { thread := [(31, { st := 1 })], channel := [(255, { msgs := [List.replicate 16 0] })] } }, 31, 255, _, 1, rfl, by decide +kernel⟩,
   ⟨{ pacer := { thread := [(31, { st := 1 })], channel := [(255, { resv := some { thread := 31, words := 1 } })] } }, 31, 255, _, { thread := 31, words := 1 }, rfl, by decide +kernel⟩,
   ⟨{ pacer := { thread := [(31, { st := 1 })], channel := [(255, { resv := some { thread := 31, words := 1, put := [4] } })] } }, 31, 255, _, { thread := 31, words := 1, put := [4] }, rfl, by decide +kernel⟩,
   ⟨{ pacer := { thread := [(31, { st := 1 })], channel := [(255, { msgs := [[4]] })] } }, 31, 255, _, [4], [], rfl, by decide +kernel⟩,
   ⟨{ pacer := { thread := [(31, { st := 1 })] } }, 31, 255, _, rfl, by decide +kernel⟩,
   ⟨{}, 31, by decide +kernel⟩,
   ⟨{ pacer := { channel := [(255, { msgs := [[4]], readers := [31] })] } }, 255, 31, [4], [], [], by decide +kernel⟩,
   ⟨{ pacer := { channel := [(255, { writers := [(31, 16)] })] } }, 255, 31, 16, [], by decide +kernel⟩,
   ⟨{}, 47, List.replicate 16 0, by decide +kernel⟩,
   ⟨{}, 47, List.replicate 17 0, by decide +kernel⟩,
   ⟨{ pacer := { thread := [(31, { st := 1 })] } }, 31, 239, 16, by decide +kernel⟩,
   ⟨{ pacer := { thread := [(31, { st := 1 })] } }, 3, 7, by decide +kernel⟩⟩

theorem meets_PoolsServeTheirRequesters_1 :
    (∃ (s : State) (u : State) (req : Nat) (pool : Nat) (i : Nat), s.poolTake req pool = (u, i) ∧ Tab.wf (s.pacer.pool.at pool).owner = true)
    ∧ (∃ (s : State) (u : State) (req : Nat) (pool : Nat) (i : Nat) (j : _), s.poolTake req pool = (u, i) ∧ Tab.wf (s.pacer.pool.at pool).owner = true ∧ j < i)
    ∧ (∃ (s : State) (pool : Nat) (n : Nat) (a : Ask) (l : List (Nat × Ask)), s.poolWinner pool l = some (n, a))
    ∧ (∃ (s : State) (pool : Nat) (n : Nat) (i : Nat) (a : Ask) (l : List (Nat × Ask)) (j : _) (e : _), s.poolWinner pool l = some (n, a) ∧ a.requester = ((s.pacer.pool.at pool).ptr + i) % 5 ∧ i < 5 ∧ j < i ∧ e ∈ l ∧ e.2.requester = ((s.pacer.pool.at pool).ptr + j) % 5)
    ∧ (∃ (s : State) (req : Nat) (bytes : Nat) (p : Nat) (a : Ask), a = { requester := req, bytes := bytes, pool := p } ∧ s.pacer.down = false ∧ req < 5 ∧ poolFor bytes = some p)
    ∧ (∃ (s : State) (req : Nat) (bytes : Nat), 65536 < bytes ∧ req < 5 ∧ s.pacer.down = false)
    ∧ (∃ (s : State), s.pacer.down = true)
    ∧ (∃ (s : State) (n : Nat) (a : Ask), s.pacer.ask.at n = some a ∧ s.pacer.down = false ∧ a.wait = 1)
    ∧ (∃ (s : State) (n : Nat) (a : Ask), s.pacer.ask.at n = some a ∧ s.pacer.down = false ∧ (a.wait = 0 ∨ a.wait = 3)) :=
  ⟨⟨{}, _, 4, 3, _, by rfl, by decide +kernel⟩,
   ⟨{ pacer := { pool := [(3, { owner := [(0, 1)] })] } }, _, 4, 3, 1, 0, by rfl, by decide +kernel⟩,
   ⟨{}, 3, 0, { requester := 4, bytes := 64, pool := 3 }, [(0, { requester := 4, bytes := 64, pool := 3 })], by decide +kernel⟩,
   ⟨{ pacer := { pool := [(3, { ptr := 2 })] } }, 3, 1, 1, { requester := 3, bytes := 64, pool := 3 }, [(0, { requester := 2, bytes := 64, pool := 3 }), (1, { requester := 3, bytes := 64, pool := 3 })], 0, (0, { requester := 2, bytes := 64, pool := 3 }), by decide +kernel⟩,
   ⟨{}, 4, 65536, 3, _, rfl, by decide +kernel⟩,
   ⟨{}, 4, 65537, by decide +kernel⟩,
   ⟨{ pacer := { down := true } }, by decide +kernel⟩,
   ⟨{ pacer := { ask := [(0, some { requester := 4, bytes := 64, pool := 0, wait := 1 })] } }, 0, { requester := 4, bytes := 64, pool := 0, wait := 1 }, by decide +kernel⟩,
   ⟨{ pacer := { ask := [(0, some { requester := 4, bytes := 64, pool := 0, wait := 3 })] } }, 0, { requester := 4, bytes := 64, pool := 0, wait := 3 }, by decide +kernel⟩⟩

theorem meets_PoolsServeTheirRequesters_2 :
    (∃ (s : State) (n : Nat) (a : Ask), s.pacer.ask.at n = some a ∧ s.pacer.down = false ∧ a.wait = 2)
    ∧ (∃ (s : State) (a : Ask), s.poolEmptyFor a.requester a.pool = true ∧ s.parOn P.stepUp a.requester = true ∧ a.pool < 3)
    ∧ (∃ (s : State) (a : Ask), s.poolEmptyFor a.requester a.pool = true ∧ (s.parOn P.stepUp a.requester = false ∨ 3 ≤ a.pool) ∧ a.requester = 2)
    ∧ (∃ (s : State) (a : Ask), s.poolEmptyFor a.requester a.pool = true ∧ (s.parOn P.stepUp a.requester = false ∨ 3 ≤ a.pool) ∧ (a.requester = 0 ∨ a.requester = 3))
    ∧ (∃ (s : State) (a : Ask), s.poolEmptyFor a.requester a.pool = true ∧ (s.parOn P.stepUp a.requester = false ∨ 3 ≤ a.pool) ∧ (a.requester = 1 ∨ a.requester = 4))
    ∧ (∃ (s : State) (a : Ask), s.poolEmptyFor a.requester a.pool = false ∧ a.pkt = none)
    ∧ (∃ (s : State) (pool : Nat) (b : Nat), pool < 4 ∧ b < poolBuffers pool ∧ (s.pacer.pool.at pool).owner.has b = true)
    ∧ (∃ (s : State) (pool : Nat) (b : Nat), pool < 4 ∧ b < poolBuffers pool ∧ (s.pacer.pool.at pool).owner.has b = false) :=
  ⟨⟨{ pacer := { ask := [(0, some { requester := 4, bytes := 64, pool := 0, wait := 2 })] } }, 0, { requester := 4, bytes := 64, pool := 0, wait := 2 }, by decide +kernel⟩,
   ⟨{ pacer := { pool := [(2, { owner := (List.range 256).map (fun i => (i, 1)) })] }, cfg := { active := bank [(P.stepUp, 4, 1)] } }, { requester := 4, bytes := 64, pool := 2 }, by decide +kernel⟩,
   ⟨{ pacer := { pool := [(3, { owner := (List.range 64).map (fun i => (i, 1)) })] } }, { requester := 2, bytes := 64, pool := 3 }, by decide +kernel⟩,
   ⟨{ pacer := { pool := [(3, { owner := (List.range 64).map (fun i => (i, 1)) })] } }, { requester := 3, bytes := 64, pool := 3 }, by decide +kernel⟩,
   ⟨{ pacer := { pool := [(3, { owner := (List.range 64).map (fun i => (i, 1)) })] } }, { requester := 4, bytes := 64, pool := 3 }, by decide +kernel⟩,
   ⟨{}, { requester := 4, bytes := 64, pool := 3 }, by decide +kernel⟩,
   ⟨{ pacer := { pool := [(3, { owner := [(63, 1)] })] } }, 3, 63, by decide +kernel⟩,
   ⟨{}, 3, 63, by decide +kernel⟩⟩

theorem meets_MailboxesTakeRequests_1 :
    (∃ (slot : Nat) (off : Nat) (l : List Byte), slot < 256 ∧ 4096 < off + l.length)
    ∧ (∃ (s : State) (slot : Nat) (off : Nat) (l : List Byte), slot < 256 ∧ off + l.length ≤ 4096 ∧ (s.mbx.slot.at slot).st ≠ 1)
    ∧ (∃ (s : State) (slot : Nat) (off : Nat) (l : List Byte), slot < 256 ∧ off + l.length ≤ 4096 ∧ (s.mbx.slot.at slot).st = 1)
    ∧ (∃ (s : State) (slot : Nat), slot < 256 ∧ (s.mbx.slot.at slot).st = 2)
    ∧ (∃ (slot : Nat), slot < 256)
    ∧ (∃ (s : State) (slot : Nat), slot < 256 ∧ s.tequin = false)
    ∧ (∃ (s : State) (slot : Nat), slot < 256 ∧ s.tequin = true ∧ (s.mbx.slot.at slot).st = 1)
    ∧ (∃ (s : State) (slot : Nat) (u : State), u = s.updSlot slot (fun k => { k with st := 1, acc := none, held := none }) ∧ slot < 256 ∧ s.tequin = true ∧ (s.mbx.slot.at slot).st ≠ 1 ∧ s.pacer.down = false)
    ∧ (∃ (s : State) (slot : Nat) (u : State), u = s.updSlot slot (fun k => { k with st := 1, acc := none, held := none }) ∧ slot < 256 ∧ s.tequin = true ∧ (s.mbx.slot.at slot).st ≠ 1 ∧ s.pacer.down = true)
    ∧ (∃ (s : State) (slot : Nat) (r : Request) (a : Accepted), a = { op := r.op, session := r.session, seq := r.seq, payload := r.payload, outLen := r.outLen, outAddr := r.outAddr, gen := s.instGen (slotInst slot) } ∧ r.flag 0 = false ∧ r.formatOk = false) :=
  ⟨⟨255, 4096, [1#8], by decide +kernel⟩,
   ⟨{}, 255, 4095, [1#8], by decide +kernel⟩,
   ⟨{ mbx := { slot := [(255, { st := 1 })] } }, 255, 4095, [1#8], by decide +kernel⟩,
   ⟨{ mbx := { slot := [(255, { st := 2 })] } }, 255, by decide +kernel⟩,
   ⟨255, by decide +kernel⟩,
   ⟨{}, 255, by decide +kernel⟩,
   ⟨{ boot := { ended := [6] }, mbx := { slot := [(255, { st := 1 })] } }, 255, by decide +kernel⟩,
   ⟨{ boot := { ended := [6] } }, 255, _, rfl, by decide +kernel⟩,
   ⟨{ boot := { ended := [6] }, pacer := { down := true } }, 255, _, rfl, by decide +kernel⟩,
   ⟨{}, 255, { head := reqHead 0 0 8 1, inline := [], dma := none }, _, rfl, by decide +kernel⟩⟩

theorem meets_MailboxesTakeRequests_2 :
    (∃ (s : State) (slot : Nat) (r : Request) (a : Accepted), a = { op := r.op, session := r.session, seq := r.seq, payload := r.payload, outLen := r.outLen, outAddr := r.outAddr, gen := s.instGen (slotInst slot) } ∧ r.flag 0 = false ∧ r.formatOk = true ∧ r.session < 16 ∧ ((s.sess r.session).live = false ∨ (s.sess r.session).inst ≠ slotInst slot))
    ∧ (∃ (s : State) (slot : Nat) (r : Request) (a : Accepted), a = { op := r.op, session := r.session, seq := r.seq, payload := r.payload, outLen := r.outLen, outAddr := r.outAddr, gen := s.instGen (slotInst slot) } ∧ r.flag 0 = false ∧ r.formatOk = true ∧ r.session = 255 ∧ unsessioned r.op = true)
    ∧ (∃ (s : State) (slot : Nat) (r : Request) (a : Accepted), a = { op := r.op, session := r.session, seq := r.seq, payload := r.payload, outLen := r.outLen, outAddr := r.outAddr, gen := s.instGen (slotInst slot) } ∧ r.flag 0 = false ∧ r.formatOk = true ∧ r.session < 16 ∧ (s.sess r.session).live = true ∧ (s.sess r.session).inst = slotInst slot)
    ∧ (∃ (s : State) (r : Request), r.session < 16 ∧ s.cmacRoom (if r.flag 2 = true then 2 else 1) = false)
    ∧ (∃ (s : State) (r : Request), Crypto.cmac (s.sess r.session).key ([0x01#8] ++ r.head.take 80 ++ r.payload) ≠ slice r.head 80 16 ∧ r.session < 16 ∧ s.cmacRoom (if r.flag 2 = true then 2 else 1) = true)
    ∧ (∃ (s : State) (r : Request), r.session < 16 ∧ s.cmacRoom (if r.flag 2 = true then 2 else 1) = true ∧ Crypto.cmac (s.sess r.session).key ([0x01#8] ++ r.head.take 80 ++ r.payload) = slice r.head 80 16 ∧ (s.sess r.session).takeSeq r.seq = none)
    ∧ (∃ (s : State) (r : Request) (u : _) (i : _), r.session < 16 ∧ s.cmacRoom (if r.flag 2 = true then 2 else 1) = true ∧ Crypto.cmac (s.sess r.session).key ([0x01#8] ++ r.head.take 80 ++ r.payload) = slice r.head 80 16 ∧ s.acceptSeq r.session r.seq = some u ∧ opInfo r.op = some i ∧ i.critical = false ∧ r.flag 2 = false)
    ∧ (∃ (s : State) (u : State) (c : Nat) (seq : Nat), s.acceptSeq c seq = some u)
    ∧ (∃ (k : Session) (j : Session) (q : Nat), k.takeSeq q = some j)
    ∧ (∃ (k : Session) (j : Session) (q : Nat) (x : Nat), k.takeSeq x = some j ∧ k.takeSeq q = none) :=
  ⟨⟨{}, 255, { head := reqHead 0 15 0 1, inline := [], dma := none }, _, rfl, by decide +kernel⟩,
   ⟨{}, 255, { head := reqHead Op.sessionDeviceId 255 0 1, inline := [], dma := none }, _, rfl, by decide +kernel⟩,
   ⟨{ mbx := { session := [(15, { st := 2, inst := 63 })] } }, 255, { head := reqHead 0 15 0 1, inline := [], dma := none }, _, rfl, by decide +kernel⟩,
   ⟨{ fault := { funcs := [(7, 0)] } }, { head := reqHead 0 15 0 1, inline := [], dma := none }, by decide +kernel⟩,
   ⟨{}, { head := reqHead 0 15 0 1, inline := [], dma := none }, by exact fun h => absurd h (by decide +kernel), by decide +kernel⟩,
   ⟨{ mbx := { session := [(15, { st := 2, inst := 63, key := sessionKey })] } }, signed sessionKey Op.cfgStatus 15 0 0, by decide, by decide, by exact signed_tag _ _ _ _, by rfl⟩,
   ⟨{ mbx := { session := [(15, { st := 1, inst := 63, key := sessionKey })] } }, signed sessionKey Op.cfgStatus 15 0 1, _, _, by decide, by decide, by exact signed_tag _ _ _ _, by rfl, by rfl, by rfl, by rfl⟩,
   ⟨{ mbx := { session := [(15, { st := 1 })] } }, _, 15, 1, by rfl⟩,
   ⟨{}, _, 1, by rfl⟩,
   ⟨{ high := 1, window := 1 }, _, 1, 2, by rfl, by decide +kernel⟩⟩

theorem meets_SessionsAndJobsEnd :
    (∃ (s : State) (k : Nat), (s.sess k).deadline ≤ s.time.mono ∧ (s.sess k).st = 1)
    ∧ (∃ (s : State) (k : Nat), (s.sess k).deadline ≤ s.time.mono ∧ (s.sess k).st = 2)
    ∧ (∃ (s : State) (k : Nat), s.time.mono < (s.sess k).deadline)
    ∧ (∃ (s : State) (k : Nat), (s.sess k).live = true)
    ∧ (∃ (s : State) (k : Nat), (s.mbx.transfer.at k).open_ = true ∧ (s.mbx.transfer.at k).deadline ≤ s.time.mono)
    ∧ (∃ (s : State) (k : Nat), s.time.mono < (s.mbx.transfer.at k).deadline)
    ∧ (∃ (s : State) (k : Nat) (q : Nat) (j : Job), s.job k q = some j ∧ j.rstate = 1 ∧ s.pacer.down = false)
    ∧ (∃ (s : State) (k : Nat) (q : Nat) (j : Job), s.job k q = some j ∧ (j.rstate ≠ 1 ∨ s.pacer.down = true))
    ∧ (∃ (s : State) (k : Nat) (q : Nat) (j : Job), s.job k q = some j ∧ j.rstate = 1 ∧ j.slot = none ∧ (s.sess k).live = true) :=
  ⟨⟨{ time := { mono := 9 }, mbx := { session := [(15, { st := 1, deadline := 9 })] } }, 15, by decide +kernel⟩,
   ⟨{ time := { mono := 9 }, mbx := { session := [(15, { st := 2, deadline := 9 })] } }, 15, by decide +kernel⟩,
   ⟨{ time := { mono := 8 }, mbx := { session := [(15, { st := 2, deadline := 9 })] } }, 15, by decide +kernel⟩,
   ⟨{ mbx := { session := [(15, { st := 2 })] } }, 15, by decide +kernel⟩,
   ⟨{ time := { mono := 9 }, mbx := { transfer := [(15, { open_ := true, deadline := 9 })] } }, 15, by decide +kernel⟩,
   ⟨{ time := { mono := 8 }, mbx := { transfer := [(15, { open_ := true, deadline := 9 })] } }, 15, by decide +kernel⟩,
   ⟨{ mbx := { jobs := [{ session := 15, seq := 2, inst := 0, op := 0, kind := .rollback }] } }, 15, 2, { session := 15, seq := 2, inst := 0, op := 0, kind := .rollback }, by decide +kernel⟩,
   ⟨{ pacer := { down := true }, mbx := { jobs := [{ session := 15, seq := 2, inst := 0, op := 0, kind := .rollback }] } }, 15, 2, { session := 15, seq := 2, inst := 0, op := 0, kind := .rollback }, by decide +kernel⟩,
   ⟨{ mbx := { session := [(15, { st := 2 })], jobs := [{ session := 15, seq := 2, inst := 0, op := 0, kind := .rollback }] } }, 15, 2, { session := 15, seq := 2, inst := 0, op := 0, kind := .rollback }, by decide +kernel⟩⟩

theorem meets_SessionCommands_1 :
    (∃ (s : State) (slot : Nat) (a : Accepted), s.grants slot Op.sessionDeviceId a)
    ∧ (∃ (s : State) (v : State) (slot : Nat) (a : Accepted) (c : Chain), s.grants slot Op.sessionOpen a ∧ v = (if s.time.state = .freerun then s.ruleEvent 401 (slotInst slot) 0 else s) ∧ s.chainStatus c = E.cert)
    ∧ (∃ (s : State) (v : State) (slot : Nat) (a : Accepted) (c : Chain) (ok : Bool), s.grants slot Op.sessionOpen a ∧ v = (if s.time.state = .freerun then s.ruleEvent 401 (slotInst slot) 0 else s) ∧ (s.chainStatus c = 0 ∨ s.chainStatus c = E.rootRevoked) ∧ ok = false)
    ∧ (∃ (s : State) (v : State) (slot : Nat) (a : Accepted) (c : Chain) (ok : Bool), s.grants slot Op.sessionOpen a ∧ v = (if s.time.state = .freerun then s.ruleEvent 401 (slotInst slot) 0 else s) ∧ s.chainStatus c = E.rootRevoked ∧ ok = true)
    ∧ (∃ (s : State) (v : State) (slot : Nat) (a : Accepted) (c : Chain) (ok : Bool), s.grants slot Op.sessionOpen a ∧ v = (if s.time.state = .freerun then s.ruleEvent 401 (slotInst slot) 0 else s) ∧ s.chainStatus c = 0 ∧ ok = true ∧ s.freeContext (slotInst slot) = none)
    ∧ (∃ (s : State) (v : State) (slot : Nat) (a : Accepted) (c : Chain) (ok : Bool) (k : _), s.grants slot Op.sessionOpen a ∧ v = (if s.time.state = .freerun then s.ruleEvent 401 (slotInst slot) 0 else s) ∧ s.chainStatus c = 0 ∧ ok = true ∧ s.freeContext (slotInst slot) = some k ∧ s.sec.trngFailed = true)
    ∧ (∃ (s : State) (v : State) (slot : Nat) (a : Accepted) (c : Chain) (ok : Bool) (k : _) (d : Nat) (qd : List Byte) (nd : List Byte), s.grants slot Op.sessionOpen a ∧ v = (if s.time.state = .freerun then s.ruleEvent 401 (slotInst slot) 0 else s) ∧ d = s.freeVal 384 % (p384Order - 1) + 1 ∧ qd = beBytes 97 (Config.publicKey d).toNat ∧ nd = beBytes 32 (s.drawn.freeVal 256) ∧ s.chainStatus c = 0 ∧ ok = true ∧ s.freeContext (slotInst slot) = some k ∧ s.sec.trngFailed = false)
    ∧ (∃ (s : State) (i : Nat) (k : Nat), s.freeContext i = some k)
    ∧ (∃ (s : State) (i : Nat) (k : Nat), s.freeContext i = some k ∧ i ≠ 0)
    ∧ (∃ (s : State) (slot : Nat) (a : Accepted), s.grants slot Op.sessionClose a ∧ (s.tags a { rstate := 0, status := 0 } && !s.cmacFree) = false)
    ∧ (∃ (s : State) (slot : Nat) (a : Accepted), s.grants slot Op.sessionClose a ∧ (s.tags a { rstate := 0, status := 0 } && !s.cmacFree) = true ∧ a.silent = false ∧ a.buf = none)
    ∧ (∃ (s : State) (slot : Nat) (a : Accepted), s.grants slot Op.sessionPoll a ∧ s.target (slotInst slot) a = none) :=
  ⟨⟨asked Op.sessionDeviceId ([]) {}, 0, msg Op.sessionDeviceId ([]), asked_grants rfl rfl rfl (fun _ => rfl)⟩,
   ⟨asked Op.sessionOpen ([]) {}, _, 0, msg Op.sessionOpen ([]), { len := 0, certs := [] }, asked_grants rfl rfl rfl (fun _ => rfl), rfl, by decide +kernel⟩,
   ⟨asked Op.sessionOpen ([]) { mbx := { root := [(3, { hash := some 1, revoked := true })] } }, _, 0, msg Op.sessionOpen ([]), { len := 0, certs := [{ spki := 1 }, { spki := 1 }] }, false, asked_grants rfl rfl rfl (fun _ => rfl), rfl, by decide +kernel⟩,
   ⟨asked Op.sessionOpen ([]) { mbx := { root := [(3, { hash := some 1, revoked := true })] } }, _, 0, msg Op.sessionOpen ([]), { len := 0, certs := [{ spki := 1 }, { spki := 1 }] }, true, asked_grants rfl rfl rfl (fun _ => rfl), rfl, by decide +kernel⟩,
   ⟨asked Op.sessionOpen ([]) { mbx := { root := [(3, { hash := some 1 })], session := (List.range 16).map (fun k => (k, { st := 2 })) } }, _, 0, msg Op.sessionOpen ([]), { len := 0, certs := [{ spki := 1 }, { spki := 1 }] }, true, asked_grants rfl rfl rfl (fun _ => rfl), rfl, by decide +kernel⟩,
   ⟨asked Op.sessionOpen ([]) { sec := { trngFailed := true }, mbx := { root := [(3, { hash := some 1 })] } }, _, 0, msg Op.sessionOpen ([]), { len := 0, certs := [{ spki := 1 }, { spki := 1 }] }, true, 0, asked_grants rfl rfl rfl (fun _ => rfl), rfl, by decide +kernel⟩,
   ⟨asked Op.sessionOpen ([]) { mbx := { root := [(3, { hash := some 1 })] } }, _, 0, msg Op.sessionOpen ([]), { len := 0, certs := [{ spki := 1 }, { spki := 1 }] }, true, 0, _, _, _, asked_grants rfl rfl rfl (fun _ => rfl), rfl, rfl, rfl, rfl, by decide +kernel⟩,
   ⟨{}, 0, 0, by decide +kernel⟩,
   ⟨{ cfg := { active := bank [(P.operatorContexts, 0, 4)] } }, 1, 4, by decide +kernel⟩,
   ⟨asked Op.sessionClose ([]) {}, 0, msg Op.sessionClose ([]), asked_grants rfl rfl rfl (fun _ => rfl), by decide +kernel⟩,
   ⟨asked Op.sessionClose ([]) { fault := { funcs := [(7, 0)] }, mbx := { session := [(4, { st := 2 })] } } 4, 0, msg Op.sessionClose ([]) 4, asked_grants rfl rfl rfl (fun _ => rfl), by decide +kernel⟩,
   ⟨asked Op.sessionPoll ([]) {}, 0, msg Op.sessionPoll ([]), asked_grants rfl rfl rfl (fun _ => rfl), by decide +kernel⟩⟩

theorem meets_SessionCommands_2 :
    (∃ (s : State) (slot : Nat) (a : Accepted) (j : _), s.grants slot Op.sessionPoll a ∧ s.target (slotInst slot) a = some j)
    ∧ (∃ (s : State) (slot : Nat) (a : Accepted), s.grants slot Op.sessionAbort a ∧ s.target (slotInst slot) a = none)
    ∧ (∃ (s : State) (slot : Nat) (a : Accepted) (j : _), s.grants slot Op.sessionAbort a ∧ s.target (slotInst slot) a = some j ∧ j.rstate = 1)
    ∧ (∃ (s : State) (slot : Nat) (a : Accepted) (j : _), s.grants slot Op.sessionAbort a ∧ s.target (slotInst slot) a = some j ∧ j.rstate ≠ 1)
    ∧ (∃ (s : State) (i : Nat) (a : Accepted) (j : Job), s.target i a = some j)
    ∧ (∃ (s : State) (i : Nat) (a : Accepted) (j : Job), s.target i a = some j ∧ i ≠ 0)
    ∧ (∃ (s : State) (slot : Nat) (k : Nat) (a : Accepted), s.grants slot Op.sessionRootProgram a ∧ k = leAt a.payload 0 1 ∧ 4 ≤ k)
    ∧ (∃ (s : State) (slot : Nat) (k : Nat) (a : Accepted), s.grants slot Op.sessionRootProgram a ∧ k = leAt a.payload 0 1 ∧ k < 4 ∧ (s.mbx.root.at k).hash = none ∧ (s.mbx.root.at k).revoked = false)
    ∧ (∃ (s : State) (slot : Nat) (k : Nat) (a : Accepted), s.grants slot Op.sessionRootProgram a ∧ k = leAt a.payload 0 1 ∧ k < 4 ∧ ((s.mbx.root.at k).hash ≠ none ∨ (s.mbx.root.at k).revoked = true))
    ∧ (∃ (s : State) (slot : Nat) (k : Nat) (a : Accepted), s.grants slot Op.sessionRootRevoke a ∧ k = leAt a.payload 0 1 ∧ k < 4 ∧ s.otherRoots k = [])
    ∧ (∃ (s : State) (slot : Nat) (k : Nat) (a : Accepted), s.grants slot Op.sessionRootRevoke a ∧ k = leAt a.payload 0 1 ∧ k < 4 ∧ s.otherRoots k ≠ [] ∧ (s.tags a { rstate := 0, status := 0 } && !s.cmacFree) = false) :=
  ⟨⟨asked Op.sessionPoll (leBytes 8 9) { mbx := { jobs := [{ session := 255, seq := 9, inst := 0, op := 0, kind := .rollback, rstate := 0 }] } }, 0, msg Op.sessionPoll (leBytes 8 9), { session := 255, seq := 9, inst := 0, op := 0, kind := .rollback, rstate := 0 }, asked_grants rfl rfl rfl (fun _ => rfl), by decide +kernel⟩,
   ⟨asked Op.sessionAbort ([]) {}, 0, msg Op.sessionAbort ([]), asked_grants rfl rfl rfl (fun _ => rfl), by decide +kernel⟩,
   ⟨asked Op.sessionAbort (leBytes 8 9) { mbx := { jobs := [{ session := 255, seq := 9, inst := 0, op := 0, kind := .rollback }] } }, 0, msg Op.sessionAbort (leBytes 8 9), { session := 255, seq := 9, inst := 0, op := 0, kind := .rollback }, asked_grants rfl rfl rfl (fun _ => rfl), by decide +kernel⟩,
   ⟨asked Op.sessionAbort (leBytes 8 9) { mbx := { jobs := [{ session := 255, seq := 9, inst := 0, op := 0, kind := .rollback, rstate := 0 }] } }, 0, msg Op.sessionAbort (leBytes 8 9), { session := 255, seq := 9, inst := 0, op := 0, kind := .rollback, rstate := 0 }, asked_grants rfl rfl rfl (fun _ => rfl), by decide +kernel⟩,
   ⟨{ mbx := { jobs := [{ session := 4, seq := 9, inst := 0, op := 0, kind := .rollback }] } }, 1, msg 0 (leBytes 8 9) 4, { session := 4, seq := 9, inst := 0, op := 0, kind := .rollback }, by decide +kernel⟩,
   ⟨{ mbx := { jobs := [{ session := 4, seq := 9, inst := 0, op := 0, kind := .rollback }] } }, 1, msg 0 (leBytes 8 9) 4, { session := 4, seq := 9, inst := 0, op := 0, kind := .rollback }, by decide +kernel⟩,
   ⟨asked Op.sessionRootProgram ([4#8]) {}, 0, 4, msg Op.sessionRootProgram ([4#8]), asked_grants rfl rfl rfl (fun _ => rfl), by decide +kernel⟩,
   ⟨asked Op.sessionRootProgram ([3#8]) {}, 0, 3, msg Op.sessionRootProgram ([3#8]), asked_grants rfl rfl rfl (fun _ => rfl), by decide +kernel⟩,
   ⟨asked Op.sessionRootProgram ([3#8]) { mbx := { root := [(3, { hash := some 1 })] } }, 0, 3, msg Op.sessionRootProgram ([3#8]), asked_grants rfl rfl rfl (fun _ => rfl), by decide +kernel⟩,
   ⟨asked Op.sessionRootRevoke ([3#8]) { mbx := { root := [(3, { hash := some 1 })] } }, 0, 3, msg Op.sessionRootRevoke ([3#8]), asked_grants rfl rfl rfl (fun _ => rfl), by decide +kernel⟩,
   ⟨asked Op.sessionRootRevoke ([3#8]) { mbx := { root := [(2, { hash := some 1 })] } }, 0, 3, msg Op.sessionRootRevoke ([3#8]), asked_grants rfl rfl rfl (fun _ => rfl), by decide +kernel⟩⟩

theorem meets_ConfigurationIsStaged_1 :
    (∃ (p : Param) (i : Nat) (q : Param) (j : Nat), q.id * 2 ^ 32 + j ≠ p.id * 2 ^ 32 + i)
    ∧ (∃ (s : State), s.cfg.st = .staging ∧ s.cfg.window = none)
    ∧ (∃ (s : State), (s.cfg.st = .committing ∨ s.cfg.st = .draining ∨ s.cfg.st = .retiring ∨ (s.cfg.st = .staging ∧ s.cfg.window ≠ none)))
    ∧ (∃ (s : State), (s.cfg.st = .empty ∨ s.cfg.st = .previous ∨ s.cfg.st = .retired) ∧ 32766 ≤ (s.cfg.activeGen - s.cfg.lastGood).toNat)
    ∧ (∃ (s : State), (s.cfg.st = .empty ∨ s.cfg.st = .previous ∨ s.cfg.st = .retired) ∧ (s.cfg.activeGen - s.cfg.lastGood).toNat < 32766 ∧ s.cfg.window ≠ none)
    ∧ (∃ (s : State), (s.cfg.st = .empty ∨ s.cfg.st = .previous ∨ s.cfg.st = .retired) ∧ (s.cfg.activeGen - s.cfg.lastGood).toNat < 32766 ∧ s.cfg.window = none)
    ∧ (∃ (s : State) (e : Nat × Nat × List Byte) (p : Param), findParam e.1 = some p ∧ s.elementStatus e = 0)
    ∧ (∃ (s : State) (slot : Nat) (a : Accepted) (l : List (Nat × Nat × List Byte)), s.grants slot Op.cfgSet a ∧ elementsFrom (batchCount a.payload) (a.payload.drop 8) = some l ∧ (batchCount a.payload < 1 ∨ 4096 < batchCount a.payload))
    ∧ (∃ (s : State) (slot : Nat) (a : Accepted) (l : List (Nat × Nat × List Byte)) (o : _), s.grants slot Op.cfgSet a ∧ elementsFrom (batchCount a.payload) (a.payload.drop 8) = some l ∧ 1 ≤ batchCount a.payload ∧ batchCount a.payload ≤ 4096 ∧ o ∈ s.owners (l.map (fun e => (e.1, e.2.1))) ∧ owns (slotInst slot) o = false)
    ∧ (∃ (s : State) (slot : Nat) (a : Accepted) (l : List (Nat × Nat × List Byte)) (u : State), s.grants slot Op.cfgSet a ∧ elementsFrom (batchCount a.payload) (a.payload.drop 8) = some l ∧ s.stagePrelude = (u, false) ∧ 1 ≤ batchCount a.payload ∧ batchCount a.payload ≤ 4096 ∧ (∀ o ∈ s.owners (l.map (fun e => (e.1, e.2.1))), owns (slotInst slot) o = true ∧ s.frozen o = false)) :=
  ⟨⟨P.lapRate, 0, P.lapRate, 1, by decide +kernel⟩,
   ⟨{ cfg := { st := .staging } }, by decide +kernel⟩,
   ⟨{ cfg := { st := .retiring } }, by decide +kernel⟩,
   ⟨{ cfg := { activeGen := 32766 } }, by decide +kernel⟩,
   ⟨{ cfg := { window := some 1 } }, by decide +kernel⟩,
   ⟨{ cfg := { activeGen := 32765 } }, by decide +kernel⟩,
   ⟨{}, (P.fabricEnable.id, 0, [1#8]), P.fabricEnable, by rfl, by decide +kernel⟩,
   ⟨asked Op.cfgSet (leBytes 8 0) {}, 0, msg Op.cfgSet (leBytes 8 0), [], asked_grants rfl rfl rfl (fun _ => rfl), by decide +kernel⟩,
   ⟨asked Op.cfgSet (leBytes 8 1 ++ leBytes 2 P.fabricEnable.id ++ leBytes 4 0 ++ leBytes 2 1 ++ leBytes 8 1) {} 255 255, 255, msg Op.cfgSet (leBytes 8 1 ++ leBytes 2 P.fabricEnable.id ++ leBytes 4 0 ++ leBytes 2 1 ++ leBytes 8 1), _, 0, asked_grants rfl rfl rfl (by decide +kernel), by rfl, by decide +kernel⟩,
   ⟨asked Op.cfgSet (leBytes 8 1 ++ leBytes 2 P.fabricEnable.id ++ leBytes 4 0 ++ leBytes 2 1 ++ leBytes 8 1) { cfg := { st := .committing } }, 0, msg Op.cfgSet (leBytes 8 1 ++ leBytes 2 P.fabricEnable.id ++ leBytes 4 0 ++ leBytes 2 1 ++ leBytes 8 1), _, _, asked_grants rfl rfl rfl (fun _ => rfl), by rfl, by rfl, by decide +kernel⟩⟩

theorem meets_ConfigurationIsStaged_2 :
    (∃ (s : State) (slot : Nat) (a : Accepted) (l : List (Nat × Nat × List Byte)) (u : State) (t : State) (n : Nat) (failed : List (Nat × Nat)), s.grants slot Op.cfgSet a ∧ elementsFrom (batchCount a.payload) (a.payload.drop 8) = some l ∧ s.stagePrelude = (u, true) ∧ stageAll 0 u l = (t, n, failed) ∧ 1 ≤ batchCount a.payload ∧ batchCount a.payload ≤ 4096 ∧ (∀ o ∈ s.owners (l.map (fun e => (e.1, e.2.1))), owns (slotInst slot) o = true ∧ s.frozen o = false))
    ∧ (∃ (s : State) (e : Nat × Nat × List Byte), s.elementStatus e = 0)
    ∧ (∃ (s : State) (e : Nat × Nat × List Byte), s.elementStatus e ≠ 0)
    ∧ (∃ (s : State) (slot : Nat) (n : Nat) (a : Accepted) (l : List (Nat × Nat)), s.grants slot Op.cfgGet a ∧ l = (List.range n).map (fun i => (leAt a.payload (8 + 8 * i) 2, leAt a.payload (10 + 8 * i) 4)) ∧ (∀ e ∈ l, ∃ p, findParam e.1 = some p ∧ e.2 < p.count) ∧ n = leAt a.payload 2 2 ∧ 1 ≤ n ∧ n ≤ 256 ∧ (∀ o ∈ s.owners l, owns (slotInst slot) o = true) ∧ leAt a.payload 0 1 = 0)
    ∧ (∃ (s : State) (slot : Nat) (n : Nat) (a : Accepted) (l : List (Nat × Nat)), s.grants slot Op.cfgGet a ∧ l = (List.range n).map (fun i => (leAt a.payload (8 + 8 * i) 2, leAt a.payload (10 + 8 * i) 4)) ∧ (∀ e ∈ l, ∃ p, findParam e.1 = some p ∧ e.2 < p.count) ∧ n = leAt a.payload 2 2 ∧ 1 ≤ n ∧ n ≤ 256 ∧ (∀ o ∈ s.owners l, owns (slotInst slot) o = true) ∧ leAt a.payload 0 1 = 1 ∧ s.cfg.st ≠ .empty)
    ∧ (∃ (s : State) (u : State) (slot : Nat) (a : Accepted), s.grants slot Op.cfgRestage a ∧ s.stagePrelude = (u, true))
    ∧ (∃ (s : State) (u : State) (slot : Nat) (a : Accepted), s.grants slot Op.cfgRestage a ∧ s.stagePrelude = (u, false))
    ∧ (∃ (s : State) (slot : Nat) (a : Accepted), s.grants slot Op.cfgValidate a ∧ s.bankBroken s.cfg.standby = none)
    ∧ (∃ (s : State) (slot : Nat) (a : Accepted) (st : _) (p : _) (i : _), s.grants slot Op.cfgValidate a ∧ s.bankBroken s.cfg.standby = some (st, p, i)) :=
  ⟨⟨asked Op.cfgSet (leBytes 8 1 ++ leBytes 2 P.fabricEnable.id ++ leBytes 4 0 ++ leBytes 2 1 ++ leBytes 8 1) {}, 0, msg Op.cfgSet (leBytes 8 1 ++ leBytes 2 P.fabricEnable.id ++ leBytes 4 0 ++ leBytes 2 1 ++ leBytes 8 1), _, _, _, _, _, asked_grants rfl rfl rfl (fun _ => rfl), by rfl, by rfl, by rfl, by decide +kernel⟩,
   ⟨{}, (P.fabricEnable.id, 0, [1#8]), by decide +kernel⟩,
   ⟨{}, (0, 0, [1#8]), by decide +kernel⟩,
   ⟨asked Op.cfgGet (leBytes 2 0 ++ leBytes 2 1 ++ leBytes 4 0 ++ leBytes 2 P.fabricEnable.id ++ leBytes 6 0) {}, 0, 1, msg Op.cfgGet (leBytes 2 0 ++ leBytes 2 1 ++ leBytes 4 0 ++ leBytes 2 P.fabricEnable.id ++ leBytes 6 0), _, asked_grants rfl rfl rfl (fun _ => rfl), by rfl, by intro e he; obtain rfl := List.mem_singleton.mp he; exact ⟨P.fabricEnable, rfl, by decide⟩, by decide +kernel⟩,
   ⟨asked Op.cfgGet (leBytes 2 1 ++ leBytes 2 1 ++ leBytes 4 0 ++ leBytes 2 P.fabricEnable.id ++ leBytes 6 0) { cfg := { st := .staging } }, 0, 1, msg Op.cfgGet (leBytes 2 1 ++ leBytes 2 1 ++ leBytes 4 0 ++ leBytes 2 P.fabricEnable.id ++ leBytes 6 0), _, asked_grants rfl rfl rfl (fun _ => rfl), by rfl, by intro e he; obtain rfl := List.mem_singleton.mp he; exact ⟨P.fabricEnable, rfl, by decide⟩, by decide +kernel⟩,
   ⟨asked Op.cfgRestage ([]) {}, _, 0, msg Op.cfgRestage ([]), asked_grants rfl rfl rfl (fun _ => rfl), by rfl⟩,
   ⟨asked Op.cfgRestage ([]) { cfg := { st := .committing } }, _, 0, msg Op.cfgRestage ([]), asked_grants rfl rfl rfl (fun _ => rfl), by rfl⟩,
   ⟨asked Op.cfgValidate ([]) { cfg := { active := seeds, standby := seeds } }, 0, msg Op.cfgValidate ([]), asked_grants rfl rfl rfl (fun _ => rfl), by decide +kernel⟩,
   by obtain ⟨⟨st, p, i⟩, h⟩ := Option.isSome_iff_exists.mp (show ((asked Op.cfgValidate [] { cfg := { active := seeds, standby := ((seeds.set P.asEnable 3 1).set P.asMode 3 6).set P.coverStart 3 5 } }).bankBroken (asked Op.cfgValidate [] { cfg := { active := seeds, standby := ((seeds.set P.asEnable 3 1).set P.asMode 3 6).set P.coverStart 3 5 } }).cfg.standby).isSome = true by decide +kernel); exact ⟨asked Op.cfgValidate [] { cfg := { active := seeds, standby := ((seeds.set P.asEnable 3 1).set P.asMode 3 6).set P.coverStart 3 5 } }, 0, msg Op.cfgValidate [], st, p, i, asked_grants rfl rfl rfl (fun _ => rfl), h⟩⟩

theorem meets_ConfigurationIsActivated_1 :
    (∃ (s : State) (slot : Nat) (confirm : Nat) (a : Accepted), s.grants slot Op.cfgCommit a ∧ confirm = leAt a.payload 2 2 ∧ s.atLap (leAt a.payload 0 1) (leAt a.payload 4 4) = none)
    ∧ (∃ (s : State) (slot : Nat) (confirm : Nat) (l : Nat) (a : Accepted), s.grants slot Op.cfgCommit a ∧ confirm = leAt a.payload 2 2 ∧ s.atLap (leAt a.payload 0 1) (leAt a.payload 4 4) = some l ∧ (3600 < confirm ∨ (confirm ≠ 0 ∧ s.cfg.rbDisable = true)))
    ∧ (∃ (s : State) (slot : Nat) (confirm : Nat) (l : Nat) (a : Accepted), s.grants slot Op.cfgCommit a ∧ confirm = leAt a.payload 2 2 ∧ s.atLap (leAt a.payload 0 1) (leAt a.payload 4 4) = some l ∧ confirm ≤ 3600 ∧ (confirm = 0 ∨ s.cfg.rbDisable = false) ∧ (s.cfgJob = true ∨ s.cfg.window ≠ none))
    ∧ (∃ (s : State) (slot : Nat) (confirm : Nat) (l : Nat) (a : Accepted), s.grants slot Op.cfgCommit a ∧ confirm = leAt a.payload 2 2 ∧ s.atLap (leAt a.payload 0 1) (leAt a.payload 4 4) = some l ∧ confirm ≤ 3600 ∧ (confirm = 0 ∨ s.cfg.rbDisable = false) ∧ s.cfgJob = false ∧ s.cfg.window = none ∧ s.staged = false)
    ∧ (∃ (s : State) (slot : Nat) (confirm : Nat) (l : Nat) (a : Accepted), s.grants slot Op.cfgCommit a ∧ confirm = leAt a.payload 2 2 ∧ s.atLap (leAt a.payload 0 1) (leAt a.payload 4 4) = some l ∧ confirm ≤ 3600 ∧ (confirm = 0 ∨ s.cfg.rbDisable = false) ∧ s.cfgJob = false ∧ s.cfg.window = none ∧ s.staged = true ∧ s.running.length < 32)
    ∧ (∃ (n : Nat), n = 0)
    ∧ (∃ (s : State) (n : Nat) (l : Nat), n = 1 ∧ later 32 l s.lap = true)
    ∧ (∃ (s : State) (n : Nat) (l : Nat), n = 1 ∧ later 32 l s.lap = false)
    ∧ (∃ (n : Nat), 2 ≤ n)
    ∧ (∃ (s : State) (j : Job) (lap : Nat) (l : Nat) (atLap : Bool), s.cfg.st = .committing ∧ j.abort = false ∧ j.waits = false ∧ s.atLap (b2n atLap) lap = some l ∧ s.bankBroken s.cfg.standby = none ∧ s.cfg.active.lateList s.cfg.standby (s.lapTime l) s.lapNs = none)
    ∧ (∃ (s : State) (j : Job), s.cfg.st = .committing ∧ j.abort = true)
    ∧ (∃ (s : State) (a : Activation), s.cfg.act = some a ∧ s.windowOver = false ∧ s.aborting a = false ∧ later 32 a.lap s.lap = true)
    ∧ (∃ (s : State) (a : Activation), s.cfg.act = some a ∧ s.windowOver = false ∧ s.aborting a = false ∧ later 32 a.lap s.lap = false ∧ a.kind = 0)
    ∧ (∃ (s : State) (a : Activation), s.cfg.act = some a ∧ s.windowOver = false ∧ s.aborting a = false ∧ later 32 a.lap s.lap = false ∧ a.kind ≠ 0 ∧ (s.cfg.st = .draining ∨ s.cfg.st = .previous)) :=
  ⟨⟨asked Op.cfgCommit ([2#8]) {}, 0, 0, msg Op.cfgCommit ([2#8]), asked_grants rfl rfl rfl (fun _ => rfl), by decide +kernel⟩,
   ⟨asked Op.cfgCommit (leBytes 2 0 ++ leBytes 2 3601 ++ leBytes 4 0) {}, 0, 3601, 1, msg Op.cfgCommit (leBytes 2 0 ++ leBytes 2 3601 ++ leBytes 4 0), asked_grants rfl rfl rfl (fun _ => rfl), by decide +kernel⟩,
   ⟨asked Op.cfgCommit (leBytes 2 0 ++ leBytes 2 3600 ++ leBytes 4 0) { cfg := { window := some 5 } }, 0, 3600, 1, msg Op.cfgCommit (leBytes 2 0 ++ leBytes 2 3600 ++ leBytes 4 0), asked_grants rfl rfl rfl (fun _ => rfl), by decide +kernel⟩,
   ⟨asked Op.cfgCommit (leBytes 2 0 ++ leBytes 2 3600 ++ leBytes 4 0) {}, 0, 3600, 1, msg Op.cfgCommit (leBytes 2 0 ++ leBytes 2 3600 ++ leBytes 4 0), asked_grants rfl rfl rfl (fun _ => rfl), by decide +kernel⟩,
   ⟨asked Op.cfgCommit (leBytes 2 0 ++ leBytes 2 3600 ++ leBytes 4 0) { cfg := { st := .staging, standby := bank [(P.fabricEnable, 0, 1)] } }, 0, 3600, 1, msg Op.cfgCommit (leBytes 2 0 ++ leBytes 2 3600 ++ leBytes 4 0), asked_grants rfl rfl rfl (fun _ => rfl), by decide +kernel⟩,
   ⟨_, rfl⟩,
   ⟨{}, 1, 2 ^ 31 - 1, by decide +kernel⟩,
   ⟨{}, 1, 2 ^ 31, by decide +kernel⟩,
   ⟨2, by decide +kernel⟩,
   ⟨{ cfg := { st := .committing, active := seeds, standby := seeds } }, { session := 4, seq := 9, inst := 0, op := 0, kind := .commit 0 false 0 }, 0, 1, false, by decide +kernel⟩,
   ⟨{ cfg := { st := .committing } }, { session := 4, seq := 9, inst := 0, op := 0, kind := .commit 0 false 0, abort := true }, by decide +kernel⟩,
   ⟨{ cfg := { act := some { lap := 1, kind := 0 } } }, { lap := 1, kind := 0 }, by decide +kernel⟩,
   ⟨{ cfg := { act := some { lap := 0, kind := 0 } } }, { lap := 0, kind := 0 }, by decide +kernel⟩,
   ⟨{ cfg := { st := .draining, act := some { lap := 0, kind := 1 } } }, { lap := 0, kind := 1 }, by decide +kernel⟩⟩

theorem meets_ConfigurationIsActivated_2 :
    (∃ (s : State), s.windowOver = true ∧ s.pacer.down = false)
    ∧ (∃ (s : State), s.cfg.st = .draining ∧ s.cfg.fence ≤ s.boundaryAt)
    ∧ (∃ (s : State), s.cfg.st = .retiring ∧ s.cfg.fence ≤ s.boundaryAt)
    ∧ (∃ (s : State), s.boundaryAt < s.cfg.fence)
    ∧ (∃ (s : State) (w : Nat), s.cfg.window = some w ∧ w ≤ s.time.mono)
    ∧ (∃ (s : State) (w : Nat), s.cfg.window = some w ∧ s.time.mono < w ∧ s.cfg.expired = false)
    ∧ (∃ (s : State) (w : Nat) (slot : _) (a : _), s.grants slot Op.cfgConfirm a ∧ s.cfg.window = some w ∧ leAt a.payload 0 2 = s.cfg.activeGen.toNat ∧ a.at_ < w)
    ∧ (∃ (s : State) (w : Nat) (slot : _) (a : _), s.grants slot Op.cfgConfirm a ∧ s.cfg.window = some w ∧ (leAt a.payload 0 2 ≠ s.cfg.activeGen.toNat ∨ w ≤ a.at_))
    ∧ (∃ (s : State) (slot : Nat) (l : Nat) (a : Accepted), s.grants slot Op.cfgRollback a ∧ s.atLap (leAt a.payload 0 1) (leAt a.payload 4 4) = some l ∧ ((s.cfg.st ≠ .draining ∧ s.cfg.st ≠ .previous) ∨ s.cfg.rbDisable = true))
    ∧ (∃ (s : State) (slot : Nat) (l : Nat) (a : Accepted), s.grants slot Op.cfgRollback a ∧ s.atLap (leAt a.payload 0 1) (leAt a.payload 4 4) = some l ∧ (s.cfg.st = .draining ∨ s.cfg.st = .previous) ∧ s.cfg.rbDisable = false ∧ s.cfgJob = true)
    ∧ (∃ (s : State) (slot : Nat) (l : Nat) (a : Accepted), s.grants slot Op.cfgRollback a ∧ s.atLap (leAt a.payload 0 1) (leAt a.payload 4 4) = some l ∧ (s.cfg.st = .draining ∨ s.cfg.st = .previous) ∧ s.cfg.rbDisable = false ∧ s.cfgJob = false ∧ s.running.length < 32)
    ∧ (∃ (s : State) (slot : Nat) (v : Nat) (a : Accepted), s.grants slot Op.cfgRollbackDisable a ∧ v = leAt a.payload 0 1 ∧ (v = 0 ∨ (v = 1 ∧ s.cfg.window = none)))
    ∧ (∃ (s : State) (slot : Nat) (v : Nat) (a : Accepted), s.grants slot Op.cfgRollbackDisable a ∧ v = leAt a.payload 0 1 ∧ v = 1 ∧ s.cfg.window ≠ none)
    ∧ (∃ (s : State) (slot : Nat) (a : Accepted), s.grants slot Op.cfgStatus a ∧ s.cfg.window = none) :=
  ⟨⟨{ cfg := { window := some 0 } }, by decide +kernel⟩,
   ⟨{ cfg := { st := .draining } }, by decide +kernel⟩,
   ⟨{ cfg := { st := .retiring } }, by decide +kernel⟩,
   ⟨{ cfg := { fence := 1 } }, by decide +kernel⟩,
   ⟨{ cfg := { window := some 0 } }, 0, by decide +kernel⟩,
   ⟨{ cfg := { window := some 1 } }, 1, by decide +kernel⟩,
   ⟨asked Op.cfgConfirm (leBytes 2 0) { cfg := { window := some 1 } }, 1, 0, msg Op.cfgConfirm (leBytes 2 0), asked_grants rfl rfl rfl (fun _ => rfl), by decide +kernel⟩,
   ⟨asked Op.cfgConfirm (leBytes 2 0) { cfg := { window := some 0 } }, 0, 0, msg Op.cfgConfirm (leBytes 2 0), asked_grants rfl rfl rfl (fun _ => rfl), by decide +kernel⟩,
   ⟨asked Op.cfgRollback (leBytes 8 0) {}, 0, 1, msg Op.cfgRollback (leBytes 8 0), asked_grants rfl rfl rfl (fun _ => rfl), by decide +kernel⟩,
   ⟨asked Op.cfgRollback (leBytes 8 0) { cfg := { st := .previous }, mbx := { jobs := [{ session := 4, seq := 9, inst := 0, op := Op.cfgCommit, kind := .commit 0 false 0 }] } }, 0, 1, msg Op.cfgRollback (leBytes 8 0), asked_grants rfl rfl rfl (fun _ => rfl), by decide +kernel⟩,
   ⟨asked Op.cfgRollback (leBytes 8 0) { cfg := { st := .previous } }, 0, 1, msg Op.cfgRollback (leBytes 8 0), asked_grants rfl rfl rfl (fun _ => rfl), by decide +kernel⟩,
   ⟨asked Op.cfgRollbackDisable (leBytes 1 1) {}, 0, 1, msg Op.cfgRollbackDisable (leBytes 1 1), asked_grants rfl rfl rfl (fun _ => rfl), by decide +kernel⟩,
   ⟨asked Op.cfgRollbackDisable (leBytes 1 1) { cfg := { window := some 1 } }, 0, 1, msg Op.cfgRollbackDisable (leBytes 1 1), asked_grants rfl rfl rfl (fun _ => rfl), by decide +kernel⟩,
   ⟨asked Op.cfgStatus ([]) {}, 0, msg Op.cfgStatus ([]), asked_grants rfl rfl rfl (fun _ => rfl), by decide +kernel⟩⟩

theorem meets_TimeAndGateCommands_1 :
    (∃ (s : State) (slot : Nat) (a : Accepted), s.grants slot Op.timeSetSeconds a ∧ s.par P.timeSource ≠ 1)
    ∧ (∃ (s : State) (slot : Nat) (a : Accepted), s.grants slot Op.timeSetSeconds a ∧ s.par P.timeSource = 1)
    ∧ (∃ (s : State) (slot : Nat) (a : Accepted), s.grants slot Op.timeRead a)
    ∧ (∃ (s : State) (slot : Nat) (p : Nat) (a : Accepted), s.grants slot Op.portStatus a ∧ p = leAt a.payload 0 2 ∧ s.portCheck (slotInst slot) p ≠ 0)
    ∧ (∃ (s : State) (slot : Nat) (p : Nat) (a : Accepted), s.grants slot Op.portStatus a ∧ p = leAt a.payload 0 2 ∧ s.portCheck (slotInst slot) p = 0)
    ∧ (∃ (s : State) (slot : Nat) (p : Nat) (n : Nat) (a : Accepted), s.grants slot Op.portPtpTsRead a ∧ p = leAt a.payload 0 2 ∧ n = leAt a.payload 2 1 ∧ s.portCheck (slotInst slot) p = 0 ∧ 1 ≤ n ∧ n ≤ 64)
    ∧ (∃ (s : State) (slot : Nat) (p : Nat) (n : Nat) (a : Accepted), s.grants slot Op.portPtpTsRead a ∧ p = leAt a.payload 0 2 ∧ n = leAt a.payload 2 1 ∧ s.portCheck (slotInst slot) p = 0 ∧ (n < 1 ∨ 64 < n))
    ∧ (∃ (s : State) (slot : Nat) (p : Nat) (a : Accepted), s.grants slot Op.gateStage a ∧ p = leAt a.payload 0 2 ∧ gateStageOk a.payload = false)
    ∧ (∃ (s : State) (slot : Nat) (p : Nat) (a : Accepted), s.grants slot Op.gateStage a ∧ p = leAt a.payload 0 2 ∧ gateStageOk a.payload = true ∧ owns (slotInst slot) (s.portInst p) = false)
    ∧ (∃ (s : State) (slot : Nat) (p : Nat) (a : Accepted), s.grants slot Op.gateStage a ∧ p = leAt a.payload 0 2 ∧ gateStageOk a.payload = true ∧ owns (slotInst slot) (s.portInst p) = true ∧ s.frozen (s.portInst p) = true) :=
  ⟨⟨asked Op.timeSetSeconds ([]) {}, 0, msg Op.timeSetSeconds ([]), asked_grants rfl rfl rfl (fun _ => rfl), by decide +kernel⟩,
   ⟨asked Op.timeSetSeconds ([]) { cfg := { active := bank [(P.timeSource, 0, 1)] } }, 0, msg Op.timeSetSeconds ([]), asked_grants rfl rfl rfl (fun _ => rfl), by decide +kernel⟩,
   ⟨asked Op.timeRead ([]) {}, 0, msg Op.timeRead ([]), asked_grants rfl rfl rfl (fun _ => rfl)⟩,
   ⟨asked Op.portStatus (leBytes 2 512) {}, 0, 512, msg Op.portStatus (leBytes 2 512), asked_grants rfl rfl rfl (fun _ => rfl), by decide +kernel⟩,
   ⟨asked Op.portStatus (leBytes 2 511) {}, 0, 511, msg Op.portStatus (leBytes 2 511), asked_grants rfl rfl rfl (fun _ => rfl), by decide +kernel⟩,
   ⟨asked Op.portPtpTsRead (leBytes 2 511 ++ leBytes 1 64) {}, 0, 511, 64, msg Op.portPtpTsRead (leBytes 2 511 ++ leBytes 1 64), asked_grants rfl rfl rfl (fun _ => rfl), by decide +kernel⟩,
   ⟨asked Op.portPtpTsRead (leBytes 2 511 ++ leBytes 1 65) {}, 0, 511, 65, msg Op.portPtpTsRead (leBytes 2 511 ++ leBytes 1 65), asked_grants rfl rfl rfl (fun _ => rfl), by decide +kernel⟩,
   ⟨asked Op.gateStage (leBytes 2 512) {}, 0, 512, msg Op.gateStage (leBytes 2 512), asked_grants rfl rfl rfl (fun _ => rfl), by decide +kernel⟩,
   ⟨asked Op.gateStage (leBytes 2 511 ++ leBytes 2 3 ++ leBytes 4 0 ++ leBytes 10 0 ++ leBytes 2 0 ++ leBytes 4 1000000) {} 255 255, 255, 511, msg Op.gateStage (leBytes 2 511 ++ leBytes 2 3 ++ leBytes 4 0 ++ leBytes 10 0 ++ leBytes 2 0 ++ leBytes 4 1000000), asked_grants rfl rfl rfl (by decide +kernel), by decide +kernel⟩,
   ⟨asked Op.gateStage (leBytes 2 511 ++ leBytes 2 3 ++ leBytes 4 0 ++ leBytes 10 0 ++ leBytes 2 0 ++ leBytes 4 1000000) { inst := [(63, { st := 1 })], cfg := { active := bank [(P.portOwner, 511, 63)] } }, 0, 511, msg Op.gateStage (leBytes 2 511 ++ leBytes 2 3 ++ leBytes 4 0 ++ leBytes 10 0 ++ leBytes 2 0 ++ leBytes 4 1000000), asked_grants rfl rfl rfl (fun _ => rfl), by decide +kernel⟩⟩

theorem meets_TimeAndGateCommands_2 :
    (∃ (s : State) (u : State) (slot : Nat) (p : Nat) (a : Accepted), s.grants slot Op.gateStage a ∧ s.stagePrelude = (u, true) ∧ p = leAt a.payload 0 2 ∧ gateStageOk a.payload = true ∧ owns (slotInst slot) (s.portInst p) = true ∧ s.frozen (s.portInst p) = false)
    ∧ (∃ (s : State) (u : State) (slot : Nat) (p : Nat) (a : Accepted), s.grants slot Op.gateStage a ∧ s.stagePrelude = (u, false) ∧ p = leAt a.payload 0 2 ∧ gateStageOk a.payload = true ∧ owns (slotInst slot) (s.portInst p) = true ∧ s.frozen (s.portInst p) = false)
    ∧ (∃ (s : State) (slot : Nat) (p : Nat) (k : Nat) (a : Accepted), s.grants slot Op.gateRead a ∧ k = leAt a.payload 2 1 ∧ p = leAt a.payload 0 2 ∧ (512 ≤ p ∨ 4 ≤ k ∨ 1 < leAt a.payload 3 1))
    ∧ (∃ (s : State) (slot : Nat) (p : Nat) (k : Nat) (a : Accepted), s.grants slot Op.gateRead a ∧ k = leAt a.payload 2 1 ∧ p = leAt a.payload 0 2 ∧ p < 512 ∧ k < 4 ∧ leAt a.payload 3 1 ≤ 1 ∧ owns (slotInst slot) (s.portInst p) = false)
    ∧ (∃ (s : State) (slot : Nat) (p : Nat) (k : Nat) (a : Accepted) (b : Bank), s.grants slot Op.gateRead a ∧ p = leAt a.payload 0 2 ∧ k = leAt a.payload 2 1 ∧ p < 512 ∧ k < 4 ∧ owns (slotInst slot) (s.portInst p) = true ∧ (leAt a.payload 3 1 = 0 ∧ b = s.cfg.active ∨ leAt a.payload 3 1 = 1 ∧ b = s.cfg.standby))
    ∧ (∃ (s : State) (slot : Nat) (k : Nat) (a : Accepted) (l : List Nat), s.grants slot Op.schedProfileSelect a ∧ l = onesOf 512 (leAt a.payload 8 64) ∧ k = leAt a.payload 1 1 ∧ s.atLap (leAt a.payload 0 1) (leAt a.payload 4 4) = none)
    ∧ (∃ (s : State) (slot : Nat) (k : Nat) (lap : Nat) (a : Accepted) (l : List Nat), s.grants slot Op.schedProfileSelect a ∧ l = onesOf 512 (leAt a.payload 8 64) ∧ k = leAt a.payload 1 1 ∧ s.atLap (leAt a.payload 0 1) (leAt a.payload 4 4) = some lap ∧ 4 ≤ k)
    ∧ (∃ (s : State) (slot : Nat) (k : Nat) (lap : Nat) (a : Accepted) (l : List Nat), s.grants slot Op.schedProfileSelect a ∧ l = onesOf 512 (leAt a.payload 8 64) ∧ k = leAt a.payload 1 1 ∧ s.atLap (leAt a.payload 0 1) (leAt a.payload 4 4) = some lap ∧ k < 4 ∧ (∃ p ∈ l, owns (slotInst slot) (s.portInst p) = false))
    ∧ (∃ (s : State) (slot : Nat) (k : Nat) (lap : Nat) (a : Accepted) (l : List Nat), s.grants slot Op.schedProfileSelect a ∧ l = onesOf 512 (leAt a.payload 8 64) ∧ k = leAt a.payload 1 1 ∧ s.atLap (leAt a.payload 0 1) (leAt a.payload 4 4) = some lap ∧ k < 4 ∧ (∀ p ∈ l, owns (slotInst slot) (s.portInst p) = true) ∧ (∃ p ∈ l, s.frozen (s.portInst p) = true))
    ∧ (∃ (s : State) (slot : Nat) (k : Nat) (lap : Nat) (a : Accepted) (l : List Nat), s.grants slot Op.schedProfileSelect a ∧ l = onesOf 512 (leAt a.payload 8 64) ∧ k = leAt a.payload 1 1 ∧ s.atLap (leAt a.payload 0 1) (leAt a.payload 4 4) = some lap ∧ k < 4 ∧ (∀ p ∈ l, owns (slotInst slot) (s.portInst p) = true ∧ s.frozen (s.portInst p) = false)) :=
  ⟨⟨asked Op.gateStage (leBytes 2 511 ++ leBytes 2 3 ++ leBytes 4 0 ++ leBytes 10 0 ++ leBytes 2 0 ++ leBytes 4 1000000) {}, _, 0, 511, msg Op.gateStage (leBytes 2 511 ++ leBytes 2 3 ++ leBytes 4 0 ++ leBytes 10 0 ++ leBytes 2 0 ++ leBytes 4 1000000), asked_grants rfl rfl rfl (fun _ => rfl), by rfl, by decide +kernel⟩,
   ⟨asked Op.gateStage (leBytes 2 511 ++ leBytes 2 3 ++ leBytes 4 0 ++ leBytes 10 0 ++ leBytes 2 0 ++ leBytes 4 1000000) { cfg := { st := .draining } }, _, 0, 511, msg Op.gateStage (leBytes 2 511 ++ leBytes 2 3 ++ leBytes 4 0 ++ leBytes 10 0 ++ leBytes 2 0 ++ leBytes 4 1000000), asked_grants rfl rfl rfl (fun _ => rfl), by rfl, by decide +kernel⟩,
   ⟨asked Op.gateRead (leBytes 2 512) {}, 0, 512, _, msg Op.gateRead (leBytes 2 512), asked_grants rfl rfl rfl (fun _ => rfl), rfl, by decide +kernel⟩,
   ⟨asked Op.gateRead (leBytes 2 511) {} 255 255, 255, 511, _, msg Op.gateRead (leBytes 2 511), asked_grants rfl rfl rfl (by decide +kernel), rfl, by decide +kernel⟩,
   ⟨asked Op.gateRead (leBytes 2 511 ++ leBytes 1 3 ++ leBytes 1 1) {}, 0, 511, 3, msg Op.gateRead (leBytes 2 511 ++ leBytes 1 3 ++ leBytes 1 1), [], asked_grants rfl rfl rfl (fun _ => rfl), by decide +kernel⟩,
   ⟨asked Op.schedProfileSelect (leBytes 2 2) {}, 0, 0, msg Op.schedProfileSelect (leBytes 2 2), _, asked_grants rfl rfl rfl (fun _ => rfl), by rfl, by decide +kernel⟩,
   ⟨asked Op.schedProfileSelect (leBytes 1 0 ++ leBytes 1 4 ++ leBytes 70 0) {}, 0, 4, 1, msg Op.schedProfileSelect (leBytes 1 0 ++ leBytes 1 4 ++ leBytes 70 0), _, asked_grants rfl rfl rfl (fun _ => rfl), by rfl, by decide +kernel⟩,
   ⟨asked Op.schedProfileSelect (leBytes 1 0 ++ leBytes 1 3 ++ leBytes 6 0 ++ leBytes 64 (2 ^ 511)) {} 255 255, 255, 3, 1, msg Op.schedProfileSelect (leBytes 1 0 ++ leBytes 1 3 ++ leBytes 6 0 ++ leBytes 64 (2 ^ 511)), _, asked_grants rfl rfl rfl (by decide +kernel), rfl, by decide +kernel⟩,
   ⟨asked Op.schedProfileSelect (leBytes 1 0 ++ leBytes 1 3 ++ leBytes 6 0 ++ leBytes 64 (2 ^ 511)) { inst := [(63, { st := 1 })], cfg := { active := bank [(P.portOwner, 511, 63)] } }, 0, 3, 1, msg Op.schedProfileSelect (leBytes 1 0 ++ leBytes 1 3 ++ leBytes 6 0 ++ leBytes 64 (2 ^ 511)), _, asked_grants rfl rfl rfl (fun _ => rfl), rfl, by decide +kernel⟩,
   ⟨asked Op.schedProfileSelect (leBytes 1 0 ++ leBytes 1 3 ++ leBytes 6 0 ++ leBytes 64 (2 ^ 511)) {}, 0, 3, 1, msg Op.schedProfileSelect (leBytes 1 0 ++ leBytes 1 3 ++ leBytes 6 0 ++ leBytes 64 (2 ^ 511)), _, asked_grants rfl rfl rfl (fun _ => rfl), by rfl, by decide +kernel⟩⟩

theorem meets_LastGoodImagesAreWritten :
    (∃ (s : State) (c : Bool), s.cfg.lgDue = some c ∧ s.pacer.down = true)
    ∧ (∃ (s : State) (c : Bool), s.cfg.lgDue = some c ∧ s.pacer.down = false)
    ∧ (∃ (s : State), s.cfg.lgDue = none)
    ∧ (∃ (s : State), s.cfg.writing = none)
    ∧ (∃ (s : State) (i : LgImage) (k : Bool), s.cfg.writing = some (i, k))
    ∧ (∃ (s : State) (n : Nat), n = s.par P.lgRefreshS ∧ (n = 0 ∨ s.time.mono < s.cfg.lgAt ∨ s.cfg.writing ≠ none))
    ∧ (∃ (s : State) (n : Nat), n = s.par P.lgRefreshS ∧ n ≠ 0 ∧ s.cfg.lgAt ≤ s.time.mono ∧ s.cfg.writing = none ∧ (s.cfg.slot s.cfg.goodSlot).valid = true ∧ s.tableImage.sameTables (s.cfg.slot s.cfg.goodSlot) = true)
    ∧ (∃ (s : State) (n : Nat), n = s.par P.lgRefreshS ∧ n ≠ 0 ∧ s.cfg.lgAt ≤ s.time.mono ∧ s.cfg.writing = none ∧ ((s.cfg.slot s.cfg.goodSlot).valid = false ∨ s.tableImage.sameTables (s.cfg.slot s.cfg.goodSlot) = false)) :=
  ⟨⟨{ cfg := { lgDue := some true }, pacer := { down := true } }, true, by decide +kernel⟩,
   ⟨{ cfg := { lgDue := some true } }, true, by decide +kernel⟩,
   ⟨{}, by decide +kernel⟩,
   ⟨{}, by decide +kernel⟩,
   ⟨{ cfg := { writing := some ({}, true) } }, {}, true, by decide +kernel⟩,
   ⟨{ cfg := { active := bank [(P.lgRefreshS, 0, 0)] } }, 0, by decide +kernel⟩,
   ⟨{ cfg := { slot0 := { valid := true }, active := bank [(P.lgRefreshS, 0, 60)] } }, 60, by decide +kernel⟩,
   ⟨{ cfg := { active := bank [(P.lgRefreshS, 0, 60)] } }, 60, by decide +kernel⟩⟩

theorem meets_GridAndFabricCommands_1 :
    (∃ (s : State) (slot : Nat) (kind : Nat) (k : Nat) (a : Accepted), s.grants slot Op.gmuRead a ∧ kind = leAt a.payload 0 1 ∧ k = leAt a.payload 2 2 ∧ (2 ≤ kind ∨ 1024 ≤ k))
    ∧ (∃ (s : State) (slot : Nat) (kind : Nat) (k : Nat) (a : Accepted), s.grants slot Op.gmuRead a ∧ kind = leAt a.payload 0 1 ∧ k = leAt a.payload 2 2 ∧ kind < 2 ∧ k < 1024 ∧ owns (slotInst slot) (s.gridOwner (kind == 1) k) = false)
    ∧ (∃ (s : State) (slot : Nat) (kind : Nat) (k : Nat) (a : Accepted), s.grants slot Op.gmuRead a ∧ kind = leAt a.payload 0 1 ∧ k = leAt a.payload 2 2 ∧ kind = 0 ∧ k < 1024 ∧ owns (slotInst slot) (s.gridOwner false k) = true)
    ∧ (∃ (s : State) (slot : Nat) (kind : Nat) (k : Nat) (a : Accepted), s.grants slot Op.gmuRead a ∧ kind = leAt a.payload 0 1 ∧ k = leAt a.payload 2 2 ∧ kind = 1 ∧ k < 1024 ∧ owns (slotInst slot) (s.gridOwner true k) = true)
    ∧ (∃ (s : State) (slot : Nat) (k : Nat) (a : Accepted) (t : Trigger), s.grants slot Op.gmuTriggerStatus a ∧ t = s.gmu.trig.at k ∧ k = leAt a.payload 0 2 ∧ 512 ≤ k)
    ∧ (∃ (s : State) (slot : Nat) (k : Nat) (a : Accepted) (t : Trigger), s.grants slot Op.gmuTriggerStatus a ∧ t = s.gmu.trig.at k ∧ k = leAt a.payload 0 2 ∧ k < 512 ∧ owns (slotInst slot) (s.trigOwner k) = true)
    ∧ (∃ (s : State) (slot : Nat) (a : Accepted) (l : List (Nat × Capture)), s.grants slot Op.gmuCaptureList a ∧ l = s.gmu.capture.filter (fun e => e.2.held && owns (slotInst slot) (s.trigOwner e.2.trig)))
    ∧ (∃ (s : State) (i : Nat) (a : Accepted) (c : Capture), c = s.gmu.capture.at i ∧ i = leAt a.payload 0 1)
    ∧ (∃ (s : State) (slot : Nat) (i : Nat) (a : Accepted) (c : Capture), c = s.gmu.capture.at i ∧ s.grants slot Op.gmuCaptureRead a ∧ i = leAt a.payload 0 1 ∧ s.captureCheck (slotInst slot) i ≠ 0) :=
  ⟨⟨asked Op.gmuRead (leBytes 2 0 ++ leBytes 2 1024) {}, 0, _, 1024, msg Op.gmuRead (leBytes 2 0 ++ leBytes 2 1024), asked_grants rfl rfl rfl (fun _ => rfl), rfl, by decide +kernel⟩,
   ⟨asked Op.gmuRead (leBytes 2 0 ++ leBytes 2 1023) {} 255 255, 255, _, 1023, msg Op.gmuRead (leBytes 2 0 ++ leBytes 2 1023), asked_grants rfl rfl rfl (by decide +kernel), rfl, by decide +kernel⟩,
   ⟨asked Op.gmuRead (leBytes 2 0 ++ leBytes 2 1023) {}, 0, _, 1023, msg Op.gmuRead (leBytes 2 0 ++ leBytes 2 1023), asked_grants rfl rfl rfl (fun _ => rfl), rfl, by decide +kernel⟩,
   ⟨asked Op.gmuRead (leBytes 2 1 ++ leBytes 2 1023) {}, 0, 1, 1023, msg Op.gmuRead (leBytes 2 1 ++ leBytes 2 1023), asked_grants rfl rfl rfl (fun _ => rfl), by decide +kernel⟩,
   ⟨asked Op.gmuTriggerStatus (leBytes 2 512) {}, 0, 512, msg Op.gmuTriggerStatus (leBytes 2 512), _, asked_grants rfl rfl rfl (fun _ => rfl), rfl, by decide +kernel⟩,
   ⟨asked Op.gmuTriggerStatus (leBytes 2 511) {}, 0, 511, msg Op.gmuTriggerStatus (leBytes 2 511), _, asked_grants rfl rfl rfl (fun _ => rfl), rfl, by decide +kernel⟩,
   ⟨asked Op.gmuCaptureList ([]) {}, 0, msg Op.gmuCaptureList ([]), _, asked_grants rfl rfl rfl (fun _ => rfl), rfl⟩,
   ⟨{}, 0, msg 0 [], _, rfl, by decide +kernel⟩,
   ⟨asked Op.gmuCaptureRead ([16#8]) {}, 0, 16, msg Op.gmuCaptureRead ([16#8]), _, rfl, asked_grants rfl rfl rfl (fun _ => rfl), by decide +kernel⟩⟩

theorem meets_GridAndFabricCommands_2 :
    (∃ (s : State) (slot : Nat) (i : Nat) (a : Accepted) (c : Capture) (off : _) (n : _) (l : _), c = s.gmu.capture.at i ∧ s.grants slot Op.gmuCaptureRead a ∧ l = ((s.gmu.ring.filter c.covers).drop (off / 64)).take (n / 64) ∧ i = leAt a.payload 0 1 ∧ s.captureCheck (slotInst slot) i = 0 ∧ off = leAt a.payload 4 4 ∧ n = leAt a.payload 8 4 ∧ 64 ≤ n ∧ n ≤ 65536 ∧ n % 64 = 0 ∧ off % 64 = 0)
    ∧ (∃ (s : State) (slot : Nat) (i : Nat) (a : Accepted) (c : Capture), c = s.gmu.capture.at i ∧ s.grants slot Op.gmuCaptureRelease a ∧ i = leAt a.payload 0 1 ∧ s.captureCheck (slotInst slot) i = 0 ∧ (s.frozen (s.trigOwner c.trig) = true ∨ c.complete = false))
    ∧ (∃ (s : State) (slot : Nat) (i : Nat) (a : Accepted) (c : Capture), c = s.gmu.capture.at i ∧ s.grants slot Op.gmuCaptureRelease a ∧ i = leAt a.payload 0 1 ∧ s.captureCheck (slotInst slot) i = 0 ∧ s.frozen (s.trigOwner c.trig) = false ∧ c.complete = true)
    ∧ (∃ (s : State) (slot : Nat) (a : Accepted), s.grants slot Op.fabStatus a)
    ∧ (∃ (s : State) (slot : Nat) (f : Nat) (n : Nat) (a : Accepted) (l : List Nat), s.grants slot Op.fabLsdbRead a ∧ l = s.devices.filter (fun d => decide (f ≤ d)) ∧ f = leAt a.payload 0 2 ∧ n = leAt a.payload 2 2 ∧ (4096 ≤ f ∨ n < 1 ∨ 4096 < n))
    ∧ (∃ (s : State) (slot : Nat) (f : Nat) (n : Nat) (a : Accepted) (l : List Nat), s.grants slot Op.fabLsdbRead a ∧ l = s.devices.filter (fun d => decide (f ≤ d)) ∧ f = leAt a.payload 0 2 ∧ n = leAt a.payload 2 2 ∧ f < 4096 ∧ 1 ≤ n ∧ n ≤ 4096)
    ∧ (∃ (s : State) (slot : Nat) (d : Nat) (a : Accepted), s.grants slot Op.fabPathsetRead a ∧ d = leAt a.payload 0 2 ∧ 4096 ≤ d)
    ∧ (∃ (s : State) (slot : Nat) (d : Nat) (a : Accepted), s.grants slot Op.fabPathsetRead a ∧ d = leAt a.payload 0 2 ∧ d < 4096) :=
  ⟨⟨asked Op.gmuCaptureRead (leBytes 4 15 ++ leBytes 4 64 ++ leBytes 4 65536) { gmu := { capture := [(15, { held := true })] } }, 0, 15, msg Op.gmuCaptureRead (leBytes 4 15 ++ leBytes 4 64 ++ leBytes 4 65536), _, 64, 65536, _, rfl, asked_grants rfl rfl rfl (fun _ => rfl), rfl, by decide +kernel⟩,
   ⟨asked Op.gmuCaptureRelease ([15#8]) { gmu := { capture := [(15, { held := true })] } }, 0, 15, msg Op.gmuCaptureRelease ([15#8]), _, rfl, asked_grants rfl rfl rfl (fun _ => rfl), by decide +kernel⟩,
   ⟨asked Op.gmuCaptureRelease ([15#8]) { gmu := { capture := [(15, { held := true, complete := true })] } }, 0, 15, msg Op.gmuCaptureRelease ([15#8]), _, rfl, asked_grants rfl rfl rfl (fun _ => rfl), by decide +kernel⟩,
   ⟨asked Op.fabStatus ([]) {}, 0, msg Op.fabStatus ([]), asked_grants rfl rfl rfl (fun _ => rfl)⟩,
   ⟨asked Op.fabLsdbRead (leBytes 2 4096 ++ leBytes 2 1) {}, 0, 4096, 1, msg Op.fabLsdbRead (leBytes 2 4096 ++ leBytes 2 1), _, asked_grants rfl rfl rfl (fun _ => rfl), rfl, by decide +kernel⟩,
   ⟨asked Op.fabLsdbRead (leBytes 2 4095 ++ leBytes 2 4096) {}, 0, 4095, 4096, msg Op.fabLsdbRead (leBytes 2 4095 ++ leBytes 2 4096), _, asked_grants rfl rfl rfl (fun _ => rfl), rfl, by decide +kernel⟩,
   ⟨asked Op.fabPathsetRead (leBytes 2 4096) {}, 0, 4096, msg Op.fabPathsetRead (leBytes 2 4096), asked_grants rfl rfl rfl (fun _ => rfl), by decide +kernel⟩,
   ⟨asked Op.fabPathsetRead (leBytes 2 4095) {}, 0, 4095, msg Op.fabPathsetRead (leBytes 2 4095), asked_grants rfl rfl rfl (fun _ => rfl), by decide +kernel⟩⟩

theorem meets_TableCommandsChangeEntries_1 :
    (∃ (s : State) (slot : Nat) (a : Accepted), s.grants slot Op.tblInsert a ∧ countOk Op.tblInsert a = false)
    ∧ (∃ (s : State) (slot : Nat) (a : Accepted), s.grants slot Op.tblDelete a ∧ countOk Op.tblDelete a = false)
    ∧ (∃ (s : State) (slot : Nat) (a : Accepted) (l : List (List Byte)), s.grants slot Op.tblInsert a ∧ l = batchEntries 32 a.payload ∧ countOk Op.tblInsert a = true ∧ slotInst slot ≠ 0 ∧ (∃ e ∈ l, (tblEntry e).station = false ∧ (tblEntry e).table < 16 ∧ s.par P.ftOwner (tblEntry e).table ≠ slotInst slot))
    ∧ (∃ (s : State) (slot : Nat) (a : Accepted) (l : List (List Byte)), s.grants slot Op.tblInsert a ∧ l = batchEntries 32 a.payload ∧ countOk Op.tblInsert a = true ∧ (∀ e ∈ l, slotInst slot = 0 ∨ (tblEntry e).station = true ∨ 16 ≤ (tblEntry e).table ∨ s.par P.ftOwner (tblEntry e).table = slotInst slot) ∧ (s.frozen (slotInst slot) = true ∨ (∃ e ∈ l, s.frozen (R.inst.get (tblEntry e).result) = true)))
    ∧ (∃ (s : State) (slot : Nat) (a : Accepted) (l : List (List Byte)), s.grants slot Op.tblDelete a ∧ l = batchEntries 24 a.payload ∧ countOk Op.tblDelete a = true ∧ (∃ o ∈ s.keyOwners l, owns (slotInst slot) o = false))
    ∧ (∃ (s : State) (slot : Nat) (a : Accepted) (l : List (List Byte)), s.grants slot Op.tblDelete a ∧ l = batchEntries 24 a.payload ∧ countOk Op.tblDelete a = true ∧ (∀ o ∈ s.keyOwners l, owns (slotInst slot) o = true) ∧ (s.frozen (slotInst slot) = true ∨ (∃ o ∈ s.keyOwners l, s.frozen o = true)))
    ∧ (∃ (s : State) (t : State) (slot : Nat) (pos : Nat) (done : Nat) (a : Accepted) (l : List (List Byte)) (rest : List (List Byte)) (failed : List (Nat × Nat)), s.grants slot Op.tblInsert a ∧ l = batchEntries 32 a.payload ∧ runTbl Op.tblInsert (slotInst slot) s l 0 0 [] = (t, rest, pos, done, failed) ∧ countOk Op.tblInsert a = true ∧ (∀ e ∈ l, slotInst slot = 0 ∨ (tblEntry e).station = true ∨ 16 ≤ (tblEntry e).table ∨ s.par P.ftOwner (tblEntry e).table = slotInst slot) ∧ s.frozen (slotInst slot) = false ∧ (∀ e ∈ l, s.frozen (R.inst.get (tblEntry e).result) = false) ∧ rest = [])
    ∧ (∃ (s : State) (t : State) (slot : Nat) (pos : Nat) (done : Nat) (a : Accepted) (l : List (List Byte)) (rest : List (List Byte)) (failed : List (Nat × Nat)), s.grants slot Op.tblInsert a ∧ l = batchEntries 32 a.payload ∧ runTbl Op.tblInsert (slotInst slot) s l 0 0 [] = (t, rest, pos, done, failed) ∧ countOk Op.tblInsert a = true ∧ (∀ e ∈ l, slotInst slot = 0 ∨ (tblEntry e).station = true ∨ 16 ≤ (tblEntry e).table ∨ s.par P.ftOwner (tblEntry e).table = slotInst slot) ∧ s.frozen (slotInst slot) = false ∧ (∀ e ∈ l, s.frozen (R.inst.get (tblEntry e).result) = false) ∧ rest ≠ [] ∧ s.running.length < 32)
    ∧ (∃ (s : State) (t : State) (slot : Nat) (pos : Nat) (done : Nat) (a : Accepted) (l : List (List Byte)) (rest : List (List Byte)) (failed : List (Nat × Nat)), s.grants slot Op.tblDelete a ∧ l = batchEntries 24 a.payload ∧ runTbl Op.tblDelete (slotInst slot) s l 0 0 [] = (t, rest, pos, done, failed) ∧ countOk Op.tblDelete a = true ∧ s.frozen (slotInst slot) = false ∧ (∀ o ∈ s.keyOwners l, owns (slotInst slot) o = true ∧ s.frozen o = false) ∧ rest = [])
    ∧ (∃ (s : State) (t : State) (slot : Nat) (pos : Nat) (done : Nat) (a : Accepted) (l : List (List Byte)) (rest : List (List Byte)) (failed : List (Nat × Nat)), s.grants slot Op.tblDelete a ∧ l = batchEntries 24 a.payload ∧ runTbl Op.tblDelete (slotInst slot) s l 0 0 [] = (t, rest, pos, done, failed) ∧ countOk Op.tblDelete a = true ∧ s.frozen (slotInst slot) = false ∧ (∀ o ∈ s.keyOwners l, owns (slotInst slot) o = true ∧ s.frozen o = false) ∧ rest ≠ [] ∧ s.running.length < 32)
    ∧ (∃ (op : Nat) (i : Nat) (s : State) (e : List Byte) (r : State × Nat) (u : State), r = (if op = Op.tblInsert then s.tblInsertOne i e else s.tblDeleteOne i e) ∧ u = { r.1 with mbx := { r.1.mbx with batchUsed := r.1.mbx.batchUsed + 1 } } ∧ s.batchBudget ≤ s.mbx.batchUsed)
    ∧ (∃ (op : Nat) (i : Nat) (s : State) (e : List Byte) (r : State × Nat) (u : State), r = (if op = Op.tblInsert then s.tblInsertOne i e else s.tblDeleteOne i e) ∧ u = { r.1 with mbx := { r.1.mbx with batchUsed := r.1.mbx.batchUsed + 1 } } ∧ s.mbx.batchUsed < s.batchBudget)
    ∧ (∃ (s : State) (e : TblEntry) (u : _), s.findKey s.cfg.active e.table e.key = none ∧ e.station = false ∧ s.placeFront s.cfg.active e.table { valid := true, key := e.key, result := e.result, host := true } = (u, true))
    ∧ (∃ (s : State) (e : TblEntry) (u : _), s.findKey s.cfg.active e.table e.key = none ∧ e.station = false ∧ s.placeFront s.cfg.active e.table { valid := true, key := e.key, result := e.result, host := true } = (u, false)) :=
  ⟨⟨asked Op.tblInsert ([]) {}, 0, msg Op.tblInsert ([]), asked_grants rfl rfl rfl (fun _ => rfl), by decide +kernel⟩,
   ⟨asked Op.tblDelete ([]) {}, 0, msg Op.tblDelete ([]), asked_grants rfl rfl rfl (fun _ => rfl), by decide +kernel⟩,
   ⟨asked Op.tblInsert (leBytes 8 1 ++ leBytes 32 0) {} 255 255, 255, msg Op.tblInsert (leBytes 8 1 ++ leBytes 32 0), _, asked_grants rfl rfl rfl (by decide +kernel), rfl, by decide +kernel⟩,
   ⟨asked Op.tblInsert (leBytes 8 1 ++ leBytes 32 16) { inst := [(63, { st := 1 })] } 255 255, 255, msg Op.tblInsert (leBytes 8 1 ++ leBytes 32 16), _, asked_grants rfl rfl rfl (by decide +kernel), rfl, by decide +kernel⟩,
   ⟨asked Op.tblDelete (leBytes 8 1 ++ (leBytes 8 0 ++ beBytes 16 5)) { cfg := { active := seeds }, tbl := { front := [(616572, { valid := true, key := 5, result := 0 })] } } 255 255, 255, msg Op.tblDelete (leBytes 8 1 ++ (leBytes 8 0 ++ beBytes 16 5)), _, asked_grants rfl rfl rfl (by decide +kernel), rfl, by decide +kernel⟩,
   ⟨asked Op.tblDelete (leBytes 8 1 ++ leBytes 24 16) { inst := [(63, { st := 1 })] } 255 255, 255, msg Op.tblDelete (leBytes 8 1 ++ leBytes 24 16), _, asked_grants rfl rfl rfl (by decide +kernel), rfl, by decide +kernel⟩,
   ⟨asked Op.tblInsert (leBytes 8 1 ++ leBytes 32 16) {}, (runTbl Op.tblInsert 0 (asked Op.tblInsert (leBytes 8 1 ++ leBytes 32 16) {}) (batchEntries 32 (leBytes 8 1 ++ leBytes 32 16)) 0 0 []).1, 0, _, _, msg Op.tblInsert (leBytes 8 1 ++ leBytes 32 16), _, (runTbl Op.tblInsert 0 (asked Op.tblInsert (leBytes 8 1 ++ leBytes 32 16) {}) (batchEntries 32 (leBytes 8 1 ++ leBytes 32 16)) 0 0 []).2.1, _, asked_grants rfl rfl rfl (fun _ => rfl), by rfl, by rfl, by decide +kernel⟩,
   ⟨asked Op.tblInsert (leBytes 8 1 ++ leBytes 32 16) { mbx := { batchUsed := 16384 } }, _, 0, _, _, msg Op.tblInsert (leBytes 8 1 ++ leBytes 32 16), _, (runTbl Op.tblInsert 0 (asked Op.tblInsert (leBytes 8 1 ++ leBytes 32 16) { mbx := { batchUsed := 16384 } }) (batchEntries 32 (leBytes 8 1 ++ leBytes 32 16)) 0 0 []).2.1, _, asked_grants rfl rfl rfl (fun _ => rfl), by rfl, by rfl, by decide +kernel⟩,
   ⟨asked Op.tblDelete (leBytes 8 1 ++ leBytes 24 16) {}, _, 0, _, _, msg Op.tblDelete (leBytes 8 1 ++ leBytes 24 16), _, (runTbl Op.tblDelete 0 (asked Op.tblDelete (leBytes 8 1 ++ leBytes 24 16) {}) (batchEntries 24 (leBytes 8 1 ++ leBytes 24 16)) 0 0 []).2.1, _, asked_grants rfl rfl rfl (fun _ => rfl), by rfl, by rfl, by decide +kernel⟩,
   ⟨asked Op.tblDelete (leBytes 8 1 ++ leBytes 24 16) { mbx := { batchUsed := 16384 } }, _, 0, _, _, msg Op.tblDelete (leBytes 8 1 ++ leBytes 24 16), _, (runTbl Op.tblDelete 0 (asked Op.tblDelete (leBytes 8 1 ++ leBytes 24 16) { mbx := { batchUsed := 16384 } }) (batchEntries 24 (leBytes 8 1 ++ leBytes 24 16)) 0 0 []).2.1, _, asked_grants rfl rfl rfl (fun _ => rfl), by rfl, by rfl, by decide +kernel⟩,
   ⟨Op.tblInsert, 0, { mbx := { batchUsed := 16384 } }, [], _, _, rfl, rfl, by decide +kernel⟩,
   ⟨Op.tblInsert, 0, { mbx := { batchUsed := 16383 } }, [], _, _, rfl, rfl, by decide +kernel⟩,
   ⟨{ cfg := { active := seeds } }, { table := 0, replace := false, station := false, key := 5, result := 0 }, State.setEntry { cfg := { active := seeds } } (0, 616572) { valid := true, key := 5, result := 0, host := true }, by decide +kernel⟩,
   ⟨{ cfg := { active := seeds.set P.ftSegments 0 0 }, tbl := { frontOvf := (List.range 4).map (fun i => (14336 + i, { valid := true })) } }, { table := 0, replace := false, station := false, key := 5, result := 0 }, { cfg := { active := seeds.set P.ftSegments 0 0 }, tbl := { frontOvf := (List.range 4).map (fun i => (14336 + i, { valid := true })) } }, by decide +kernel⟩⟩

theorem meets_TableCommandsChangeEntries_2 :
    (∃ (s : State) (e : TblEntry), s.findKey s.cfg.active e.table e.key = none ∧ e.station = true ∧ s.par P.instStationMax (R.inst.get e.result) ≤ s.stationCount (R.inst.get e.result))
    ∧ (∃ (s : State) (e : TblEntry) (u : _), s.findKey s.cfg.active e.table e.key = none ∧ e.station = true ∧ s.stationCount (R.inst.get e.result) < s.par P.instStationMax (R.inst.get e.result) ∧ s.placeStation s.cfg.active { valid := true, key := stationKey e.key, result := e.result, host := true } = some u)
    ∧ (∃ (s : State) (e : TblEntry), s.findKey s.cfg.active e.table e.key = none ∧ e.station = true ∧ s.stationCount (R.inst.get e.result) < s.par P.instStationMax (R.inst.get e.result) ∧ s.placeStation s.cfg.active { valid := true, key := stationKey e.key, result := e.result, host := true } = none)
    ∧ (∃ (s : State) (b : Bank) (t : Nat) (e : Entry) (c : Nat × Nat), b.getN P.ftSegments t ≠ 0 ∧ s.freeCell (bucketCells 0 (frontBase t) (b.front1 t e.key) ++ (if b.on P.ftForm t then bucketCells 0 (frontBase t) (b.front2 t e.key) else [])) = some c)
    ∧ (∃ (s : State) (b : Bank) (t : Nat) (e : Entry) (c : Nat × Nat), (b.getN P.ftSegments t = 0 ∨ b.on P.ftForm t = false ∧ s.freeCell (bucketCells 0 (frontBase t) (b.front1 t e.key)) = none) ∧ s.freeCell (bucketCells 1 0 (b.front3 e.key)) = some c)
    ∧ (∃ (s : State) (b : Bank) (t : Nat) (e : Entry), (b.getN P.ftSegments t = 0 ∨ b.on P.ftForm t = false ∧ s.freeCell (bucketCells 0 (frontBase t) (b.front1 t e.key)) = none) ∧ s.freeCell (bucketCells 1 0 (b.front3 e.key)) = none)
    ∧ (∃ (s : State) (b : Bank) (e : Entry) (c : Nat × Nat), s.freeCell (bucketCells 2 0 (b.station1 e.key)) = some c)
    ∧ (∃ (o : Nat) (x : List Byte) (e : TblEntry), e = tblEntry x ∧ o = R.inst.get e.result ∧ (16 ≤ e.table ∨ e.key / 2 ^ 124 ≠ e.table ∨ resultOk e.result = false))
    ∧ (∃ (s : State) (o : Nat) (x : List Byte) (e : TblEntry), e = tblEntry x ∧ o = R.inst.get e.result ∧ e.table < 16 ∧ e.key / 2 ^ 124 = e.table ∧ resultOk e.result = true ∧ e.station = true ∧ (s.cfg.active.stationTable e.table = false ∨ e.key % 2 ^ 64 ≠ 0 ∨ R.pinned.get e.result = 1))
    ∧ (∃ (s : State) (i : Nat) (o : Nat) (x : List Byte) (e : TblEntry), e = tblEntry x ∧ o = R.inst.get e.result ∧ e.table < 16 ∧ e.key / 2 ^ 124 = e.table ∧ resultOk e.result = true ∧ (e.station = false ∨ (s.cfg.active.stationTable e.table = true ∧ e.key % 2 ^ 64 = 0 ∧ R.pinned.get e.result ≠ 1)) ∧ i ≠ 0 ∧ o ≠ i)
    ∧ (∃ (s : State) (i : Nat) (o : Nat) (x : List Byte) (e : TblEntry), e = tblEntry x ∧ o = R.inst.get e.result ∧ e.table < 16 ∧ e.key / 2 ^ 124 = e.table ∧ resultOk e.result = true ∧ (e.station = false ∨ (s.cfg.active.stationTable e.table = true ∧ e.key % 2 ^ 64 = 0 ∧ R.pinned.get e.result ≠ 1)) ∧ (i = 0 ∨ o = i) ∧ s.refCheck o (resultRefs e.result) ≠ 0)
    ∧ (∃ (s : State) (i : Nat) (o : Nat) (x : List Byte) (e : TblEntry), e = tblEntry x ∧ o = R.inst.get e.result ∧ e.table < 16 ∧ e.key / 2 ^ 124 = e.table ∧ resultOk e.result = true ∧ (e.station = false ∨ (s.cfg.active.stationTable e.table = true ∧ e.key % 2 ^ 64 = 0 ∧ R.pinned.get e.result ≠ 1)) ∧ (i = 0 ∨ o = i) ∧ s.refCheck o (resultRefs e.result) = 0)
    ∧ (∃ (s : State) (e : TblEntry) (c : Nat × Nat), s.findKey s.cfg.active e.table e.key = some c ∧ e.replace = false)
    ∧ (∃ (s : State) (i : Nat) (e : TblEntry) (c : Nat × Nat), s.findKey s.cfg.active e.table e.key = some c ∧ e.replace = true ∧ owns i (R.inst.get (s.entry c).result) = false) :=
  ⟨⟨{ cfg := { active := bank [(P.instStationMax, 0, 0)] } }, { table := 0, replace := false, station := true, key := 5, result := 0 }, by decide +kernel⟩,
   ⟨{ cfg := { active := seeds } }, { table := 0, replace := false, station := true, key := 5 * 2 ^ 64, result := 0 }, State.setEntry { cfg := { active := seeds } } (2, 17196332) { valid := true, key := 5, result := 0, host := true }, by decide +kernel⟩,
   ⟨{ cfg := { active := seeds }, tbl := { bad := stationBad } }, { table := 0, replace := false, station := true, key := 5 * 2 ^ 64, result := 0 }, by decide +kernel⟩,
   ⟨{}, seeds, 0, { key := 5 }, (0, 616572), by decide +kernel⟩,
   ⟨{}, seeds.set P.ftSegments 0 0, 0, { key := 5 }, (1, 14336), by decide +kernel⟩,
   ⟨{ tbl := { frontOvf := (List.range 4).map (fun i => (14336 + i, { valid := true })) } }, seeds.set P.ftSegments 0 0, 0, { key := 5 }, by decide +kernel⟩,
   ⟨{}, seeds, { key := 5 }, (2, 17196332), by decide +kernel⟩,
   ⟨_, [16#8], _, rfl, rfl, by decide +kernel⟩,
   ⟨{}, _, [0#8, 2#8] ++ leBytes 6 0 ++ beBytes 16 5 ++ leBytes 8 0, _, rfl, rfl, by decide +kernel⟩,
   ⟨{}, 63, _, [], _, rfl, rfl, by decide +kernel⟩,
   ⟨{}, 0, _, leBytes 24 0 ++ leBytes 8 (putFields 0 [(R.type, 1)]), _, rfl, rfl, by decide +kernel⟩,
   ⟨{}, 0, _, [], _, rfl, rfl, by decide +kernel⟩,
   ⟨{ cfg := { active := seeds }, tbl := { front := [(616572, { valid := true, key := 5, result := 0 })] } }, { table := 0, replace := false, station := false, key := 5, result := 0 }, (0, 616572), by decide +kernel⟩,
   ⟨{ cfg := { active := seeds }, tbl := { front := [(616572, { valid := true, key := 5, result := 0 })] } }, 63, { table := 0, replace := true, station := false, key := 5, result := 0 }, (0, 616572), by decide +kernel⟩⟩

theorem meets_TableCommandsChangeEntries_3 :
    (∃ (s : State) (i : Nat) (e : TblEntry) (c : Nat × Nat), s.findKey s.cfg.active e.table e.key = some c ∧ e.replace = true ∧ owns i (R.inst.get (s.entry c).result) = true ∧ c.1 < 2)
    ∧ (∃ (s : State) (e : List Byte), leAt e 0 1 < 16 ∧ keyAt e / 2 ^ 124 = leAt e 0 1 ∧ s.findKey s.cfg.active (leAt e 0 1) (keyAt e) = none)
    ∧ (∃ (s : State) (i : Nat) (e : List Byte) (c : Nat × Nat), leAt e 0 1 < 16 ∧ keyAt e / 2 ^ 124 = leAt e 0 1 ∧ s.findKey s.cfg.active (leAt e 0 1) (keyAt e) = some c ∧ owns i (R.inst.get (s.entry c).result) = true)
    ∧ (∃ (s : State) (slot : Nat) (t : Nat) (a : Accepted), s.grants slot Op.tblLookup a ∧ t = leAt a.payload 0 1 ∧ t < 16 ∧ keyAt a.payload / 2 ^ 124 = t ∧ s.findKey s.cfg.active t (keyAt a.payload) = none)
    ∧ (∃ (s : State) (slot : Nat) (t : Nat) (a : Accepted) (c : Nat × Nat), s.grants slot Op.tblLookup a ∧ t = leAt a.payload 0 1 ∧ t < 16 ∧ keyAt a.payload / 2 ^ 124 = t ∧ s.findKey s.cfg.active t (keyAt a.payload) = some c ∧ owns (slotInst slot) (R.inst.get (s.entry c).result) = true)
    ∧ (∃ (s : State) (slot : Nat) (tier : Nat) (n : Nat) (a : Accepted) (l : List (Nat × Entry)), s.grants slot Op.tblDump a ∧ l = s.dumpFrom (slotInst slot) (leAt a.payload 0 1) tier (leAt a.payload 2 1) (leAt a.payload 4 2) (leAt a.payload 8 8) ∧ tier = leAt a.payload 1 1 ∧ n = leAt a.payload 6 2 ∧ leAt a.payload 0 1 < 16 ∧ tier < 4 ∧ leAt a.payload 2 1 < 4 ∧ leAt a.payload 4 2 < 512 ∧ 1 ≤ n ∧ n ≤ 2048)
    ∧ (∃ (s : State) (slot : Nat) (sel : Nat) (i : Nat) (p : Nat) (a : Accepted), s.grants slot Op.tblFlush a ∧ sel = leAt a.payload 0 1 ∧ i = leAt a.payload 1 1 ∧ p = leAt a.payload 2 2 ∧ 8 ≤ sel)
    ∧ (∃ (s : State) (slot : Nat) (sel : Nat) (i : Nat) (p : Nat) (a : Accepted), s.grants slot Op.tblFlush a ∧ sel = leAt a.payload 0 1 ∧ i = leAt a.payload 1 1 ∧ p = leAt a.payload 2 2 ∧ sel < 8 ∧ ((bit sel 1 = true ∧ 512 ≤ p) ∨ (bit sel 2 = true ∧ 64 ≤ i)))
    ∧ (∃ (s : State) (slot : Nat) (sel : Nat) (i : Nat) (p : Nat) (a : Accepted), s.grants slot Op.tblFlush a ∧ sel = leAt a.payload 0 1 ∧ i = leAt a.payload 1 1 ∧ p = leAt a.payload 2 2 ∧ sel < 8 ∧ (bit sel 1 = false ∨ p < 512) ∧ (bit sel 2 = false ∨ i < 64) ∧ (bit sel 1 = false ∨ owns (slotInst slot) (s.portInst p) = true) ∧ (bit sel 2 = false ∨ owns (slotInst slot) i = true) ∧ s.frozen (slotInst slot) = false ∧ (bit sel 2 = false ∨ s.frozen i = false) ∧ (∃ j ∈ s.running, j.op = Op.tblFlush))
    ∧ (∃ (s : State) (slot : Nat) (sel : Nat) (i : Nat) (p : Nat) (a : Accepted), s.grants slot Op.tblFlush a ∧ sel = leAt a.payload 0 1 ∧ i = leAt a.payload 1 1 ∧ p = leAt a.payload 2 2 ∧ sel < 8 ∧ (bit sel 1 = false ∨ p < 512) ∧ (bit sel 2 = false ∨ i < 64) ∧ (bit sel 1 = false ∨ owns (slotInst slot) (s.portInst p) = true) ∧ (bit sel 2 = false ∨ owns (slotInst slot) i = true) ∧ s.frozen (slotInst slot) = false ∧ (bit sel 2 = false ∨ s.frozen i = false) ∧ (∀ j ∈ s.running, j.op ≠ Op.tblFlush) ∧ s.running.length < 32)
    ∧ (∃ (s : State) (j : Job) (sel : Nat) (i : Nat) (p : Nat) (n : Nat) (m : Nat) (l : List (Nat × Entry)), l = (s.tbl.store j.done).filter (fun e => e.2.valid && flushed j.inst sel i p e.2.result) ∧ m = n + l.length ∧ j.kind = .flush sel i p n ∧ j.abort = false ∧ j.done < 3)
    ∧ (∃ (s : State) (j : Job) (sel : Nat) (i : Nat) (p : Nat) (n : Nat) (m : Nat) (l : List (Nat × Entry)), l = (s.tbl.store j.done).filter (fun e => e.2.valid && flushed j.inst sel i p e.2.result) ∧ m = n + l.length ∧ j.kind = .flush sel i p n ∧ j.abort = false ∧ 3 ≤ j.done) :=
  ⟨⟨{ cfg := { active := seeds }, tbl := { front := [(616572, { valid := true, key := 5, result := 0 })] } }, 0, { table := 0, replace := true, station := false, key := 5, result := 0 }, (0, 616572), by decide +kernel⟩,
   ⟨{}, leBytes 8 0 ++ beBytes 16 5, by decide +kernel⟩,
   ⟨{ cfg := { active := seeds }, tbl := { front := [(616572, { valid := true, key := 5, result := 0 })] } }, 0, leBytes 8 0 ++ beBytes 16 5, (0, 616572), by decide +kernel⟩,
   ⟨asked Op.tblLookup (leBytes 8 0 ++ beBytes 16 5) {}, 0, _, msg Op.tblLookup (leBytes 8 0 ++ beBytes 16 5), asked_grants rfl rfl rfl (fun _ => rfl), rfl, by decide +kernel⟩,
   ⟨asked Op.tblLookup (leBytes 8 0 ++ beBytes 16 5) { cfg := { active := seeds }, tbl := { front := [(616572, { valid := true, key := 5, result := 0 })] } }, 0, _, msg Op.tblLookup (leBytes 8 0 ++ beBytes 16 5), (0, 616572), asked_grants rfl rfl rfl (fun _ => rfl), rfl, by decide +kernel⟩,
   ⟨asked Op.tblDump (leBytes 1 15 ++ leBytes 1 3 ++ leBytes 2 3 ++ leBytes 2 511 ++ leBytes 2 2048 ++ leBytes 8 0) {}, 0, 3, 2048, msg Op.tblDump (leBytes 1 15 ++ leBytes 1 3 ++ leBytes 2 3 ++ leBytes 2 511 ++ leBytes 2 2048 ++ leBytes 8 0), _, asked_grants rfl rfl rfl (fun _ => rfl), rfl, by decide +kernel⟩,
   ⟨asked Op.tblFlush ([8#8]) {}, 0, _, _, _, msg Op.tblFlush ([8#8]), asked_grants rfl rfl rfl (fun _ => rfl), rfl, rfl, rfl, by decide +kernel⟩,
   ⟨asked Op.tblFlush ([2#8, 0#8] ++ leBytes 2 512) {}, 0, _, _, _, msg Op.tblFlush ([2#8, 0#8] ++ leBytes 2 512), asked_grants rfl rfl rfl (fun _ => rfl), rfl, rfl, rfl, by decide +kernel⟩,
   ⟨asked Op.tblFlush ([7#8, 63#8] ++ leBytes 2 511) { mbx := { jobs := [{ session := 4, seq := 9, inst := 0, op := Op.tblFlush, kind := .flush 0 0 0 0 }] } }, 0, _, _, _, msg Op.tblFlush ([7#8, 63#8] ++ leBytes 2 511), asked_grants rfl rfl rfl (fun _ => rfl), rfl, rfl, rfl, by decide +kernel⟩,
   ⟨asked Op.tblFlush ([7#8, 63#8] ++ leBytes 2 511) {}, 0, _, _, _, msg Op.tblFlush ([7#8, 63#8] ++ leBytes 2 511), asked_grants rfl rfl rfl (fun _ => rfl), rfl, rfl, rfl, by decide +kernel⟩,
   ⟨{}, { session := 4, seq := 9, inst := 0, op := Op.tblFlush, kind := .flush 0 0 0 0, done := 2 }, 0, 0, 0, 0, _, _, rfl, rfl, by decide +kernel⟩,
   ⟨{}, { session := 4, seq := 9, inst := 0, op := Op.tblFlush, kind := .flush 0 0 0 0, done := 3 }, 0, 0, 0, 0, _, _, rfl, rfl, by decide +kernel⟩⟩

theorem meets_RecordsAreWrittenAndDeleted_1 :
    (∃ (s : State) (slot : Nat) (k : Nat) (i : Nat) (w : Nat) (a : Accepted), s.grants slot Op.objWrite a ∧ k = a.kind ∧ i = a.index ∧ w = cleanWords k a.words ∧ 5 ≤ k)
    ∧ (∃ (s : State) (slot : Nat) (k : Nat) (i : Nat) (w : Nat) (a : Accepted), s.grants slot Op.objWrite a ∧ k = a.kind ∧ i = a.index ∧ w = cleanWords k a.words ∧ k < 5 ∧ a.payload.length ≠ 8 + 24 * poolWords k)
    ∧ (∃ (s : State) (slot : Nat) (k : Nat) (i : Nat) (w : Nat) (a : Accepted), s.grants slot Op.objWrite a ∧ k = a.kind ∧ i = a.index ∧ w = cleanWords k a.words ∧ k < 5 ∧ a.payload.length = 8 + 24 * poolWords k ∧ (s.recordOk a = false ∨ noRecord k i = true))
    ∧ (∃ (s : State) (slot : Nat) (k : Nat) (i : Nat) (w : Nat) (a : Accepted), s.grants slot Op.objWrite a ∧ k = a.kind ∧ i = a.index ∧ w = cleanWords k a.words ∧ k < 5 ∧ a.payload.length = 8 + 24 * poolWords k ∧ s.recordOk a = true ∧ noRecord k i = false ∧ s.frozen (slotInst slot) = true)
    ∧ (∃ (s : State) (slot : Nat) (k : Nat) (i : Nat) (w : Nat) (a : Accepted), s.grants slot Op.objWrite a ∧ k = a.kind ∧ i = a.index ∧ w = cleanWords k a.words ∧ k < 5 ∧ a.payload.length = 8 + 24 * poolWords k ∧ s.recordOk a = true ∧ noRecord k i = false ∧ s.frozen (slotInst slot) = false ∧ (s.obj k i).st = 1)
    ∧ (∃ (s : State) (slot : Nat) (k : Nat) (i : Nat) (w : Nat) (a : Accepted), s.grants slot Op.objWrite a ∧ k = a.kind ∧ i = a.index ∧ w = cleanWords k a.words ∧ k < 5 ∧ a.payload.length = 8 + 24 * poolWords k ∧ s.recordOk a = true ∧ noRecord k i = false ∧ s.frozen (slotInst slot) = false ∧ (s.obj k i).st = 2)
    ∧ (∃ (s : State) (slot : Nat) (k : Nat) (i : Nat) (w : Nat) (a : Accepted), s.grants slot Op.objWrite a ∧ k = a.kind ∧ i = a.index ∧ w = cleanWords k a.words ∧ k < 5 ∧ a.payload.length = 8 + 24 * poolWords k ∧ s.recordOk a = true ∧ noRecord k i = false ∧ s.frozen (slotInst slot) = false ∧ (s.obj k i).st = 0 ∧ s.wordsOk k w = false)
    ∧ (∃ (s : State) (slot : Nat) (k : Nat) (i : Nat) (w : Nat) (a : Accepted), s.grants slot Op.objWrite a ∧ k = a.kind ∧ i = a.index ∧ w = cleanWords k a.words ∧ k < 5 ∧ a.payload.length = 8 + 24 * poolWords k ∧ s.recordOk a = true ∧ noRecord k i = false ∧ s.frozen (slotInst slot) = false ∧ (s.obj k i).st = 0 ∧ s.wordsOk k w = true ∧ k = K.stream ∧ slotInst slot ≠ 0 ∧ S.inst.get w ≠ slotInst slot)
    ∧ (∃ (s : State) (slot : Nat) (k : Nat) (i : Nat) (w : Nat) (a : Accepted), s.grants slot Op.objWrite a ∧ k = a.kind ∧ i = a.index ∧ w = cleanWords k a.words ∧ k < 5 ∧ a.payload.length = 8 + 24 * poolWords k ∧ s.recordOk a = true ∧ noRecord k i = false ∧ s.frozen (slotInst slot) = false ∧ (s.obj k i).st = 0 ∧ s.wordsOk k w = true ∧ (k ≠ K.stream ∨ slotInst slot = 0 ∨ S.inst.get w = slotInst slot) ∧ s.refCheck (slotInst slot) (recordRefs k w) ≠ 0)
    ∧ (∃ (s : State) (slot : Nat) (k : Nat) (i : Nat) (w : Nat) (a : Accepted), s.grants slot Op.objWrite a ∧ k = a.kind ∧ i = a.index ∧ w = cleanWords k a.words ∧ k < 5 ∧ a.payload.length = 8 + 24 * poolWords k ∧ s.recordOk a = true ∧ noRecord k i = false ∧ s.frozen (slotInst slot) = false ∧ (s.obj k i).st = 0 ∧ s.wordsOk k w = true ∧ (k ≠ K.stream ∨ slotInst slot = 0 ∨ S.inst.get w = slotInst slot) ∧ s.refCheck (slotInst slot) (recordRefs k w) = 0)
    ∧ (∃ (s : State) (slot : Nat) (k : Nat) (i : Nat) (a : Accepted), s.grants slot Op.objDelete a ∧ k = a.kind ∧ i = a.index ∧ s.recordOk a = false)
    ∧ (∃ (s : State) (slot : Nat) (k : Nat) (i : Nat) (a : Accepted), s.grants slot Op.objDelete a ∧ k = a.kind ∧ i = a.index ∧ s.recordOk a = true ∧ (s.obj k i).st = 0)
    ∧ (∃ (s : State) (slot : Nat) (k : Nat) (i : Nat) (a : Accepted), s.grants slot Op.objDelete a ∧ k = a.kind ∧ i = a.index ∧ s.recordOk a = true ∧ (s.obj k i).st ≠ 0 ∧ owns (slotInst slot) (s.obj k i).owner = false) :=
  ⟨⟨asked Op.objWrite (leBytes 8 5) {}, 0, _, _, _, msg Op.objWrite (leBytes 8 5), asked_grants rfl rfl rfl (fun _ => rfl), rfl, rfl, rfl, by decide +kernel⟩,
   ⟨asked Op.objWrite (leBytes 8 4) {}, 0, _, _, _, msg Op.objWrite (leBytes 8 4), asked_grants rfl rfl rfl (fun _ => rfl), rfl, rfl, rfl, by decide +kernel⟩,
   ⟨asked Op.objWrite (leBytes 4 0 ++ leBytes 4 262144 ++ leBytes 24 0) {}, 0, _, _, _, msg Op.objWrite (leBytes 4 0 ++ leBytes 4 262144 ++ leBytes 24 0), asked_grants rfl rfl rfl (fun _ => rfl), rfl, rfl, rfl, by decide +kernel⟩,
   ⟨asked Op.objWrite (leBytes 4 0 ++ leBytes 4 9 ++ leBytes 24 0) { inst := [(63, { st := 1 })] } 255 255, 255, _, _, _, msg Op.objWrite (leBytes 4 0 ++ leBytes 4 9 ++ leBytes 24 0), asked_grants rfl rfl rfl (by decide +kernel), rfl, rfl, rfl, by decide +kernel⟩,
   ⟨asked Op.objWrite (leBytes 4 0 ++ leBytes 4 9 ++ leBytes 24 0) { tbl := { obj := [(9, { st := 1 })] } }, 0, _, _, _, msg Op.objWrite (leBytes 4 0 ++ leBytes 4 9 ++ leBytes 24 0), asked_grants rfl rfl rfl (fun _ => rfl), rfl, rfl, rfl, by decide +kernel⟩,
   ⟨asked Op.objWrite (leBytes 4 0 ++ leBytes 4 9 ++ leBytes 24 0) { tbl := { obj := [(9, { st := 2 })] } }, 0, _, _, _, msg Op.objWrite (leBytes 4 0 ++ leBytes 4 9 ++ leBytes 24 0), asked_grants rfl rfl rfl (fun _ => rfl), rfl, rfl, rfl, by decide +kernel⟩,
   ⟨asked Op.objWrite (leBytes 4 0 ++ leBytes 4 9 ++ leBytes 24 (putFields 0 [(N.kind, 5)])) {}, 0, _, _, _, msg Op.objWrite (leBytes 4 0 ++ leBytes 4 9 ++ leBytes 24 (putFields 0 [(N.kind, 5)])), asked_grants rfl rfl rfl (fun _ => rfl), rfl, rfl, rfl, by decide +kernel⟩,
   ⟨asked Op.objWrite (leBytes 4 3 ++ leBytes 4 9 ++ leBytes 48 0) {} 255 255, 255, _, _, _, msg Op.objWrite (leBytes 4 3 ++ leBytes 4 9 ++ leBytes 48 0), asked_grants rfl rfl rfl (by decide +kernel), rfl, rfl, rfl, by decide +kernel⟩,
   ⟨asked Op.objWrite (leBytes 4 0 ++ leBytes 4 9 ++ leBytes 24 (putFields 0 [(N.rewrite, 1)])) {}, 0, _, _, _, msg Op.objWrite (leBytes 4 0 ++ leBytes 4 9 ++ leBytes 24 (putFields 0 [(N.rewrite, 1)])), asked_grants rfl rfl rfl (fun _ => rfl), rfl, rfl, rfl, by decide +kernel⟩,
   ⟨asked Op.objWrite (leBytes 4 0 ++ leBytes 4 9 ++ leBytes 24 0) {}, 0, _, _, _, msg Op.objWrite (leBytes 4 0 ++ leBytes 4 9 ++ leBytes 24 0), asked_grants rfl rfl rfl (fun _ => rfl), rfl, rfl, rfl, by decide +kernel⟩,
   ⟨asked Op.objDelete (leBytes 4 0 ++ leBytes 4 262144) {}, 0, _, _, msg Op.objDelete (leBytes 4 0 ++ leBytes 4 262144), asked_grants rfl rfl rfl (fun _ => rfl), rfl, rfl, by decide +kernel⟩,
   ⟨asked Op.objDelete (leBytes 4 0 ++ leBytes 4 262143) {}, 0, _, _, msg Op.objDelete (leBytes 4 0 ++ leBytes 4 262143), asked_grants rfl rfl rfl (fun _ => rfl), rfl, rfl, by decide +kernel⟩,
   ⟨asked Op.objDelete (leBytes 4 0 ++ leBytes 4 9) { tbl := { obj := [(9, { st := 1 })] } } 255 255, 255, _, _, msg Op.objDelete (leBytes 4 0 ++ leBytes 4 9), asked_grants rfl rfl rfl (by decide +kernel), rfl, rfl, by decide +kernel⟩⟩

theorem meets_RecordsAreWrittenAndDeleted_2 :
    (∃ (s : State) (slot : Nat) (k : Nat) (i : Nat) (a : Accepted), s.grants slot Op.objDelete a ∧ k = a.kind ∧ i = a.index ∧ s.recordOk a = true ∧ (s.obj k i).st ≠ 0 ∧ owns (slotInst slot) (s.obj k i).owner = true ∧ s.frozen (s.obj k i).owner = true)
    ∧ (∃ (s : State) (slot : Nat) (k : Nat) (i : Nat) (a : Accepted), s.grants slot Op.objDelete a ∧ k = a.kind ∧ i = a.index ∧ s.recordOk a = true ∧ (s.obj k i).st ≠ 0 ∧ owns (slotInst slot) (s.obj k i).owner = true ∧ s.frozen (s.obj k i).owner = false ∧ (s.obj k i).st = 2)
    ∧ (∃ (s : State) (slot : Nat) (k : Nat) (i : Nat) (a : Accepted), s.grants slot Op.objDelete a ∧ k = a.kind ∧ i = a.index ∧ s.recordOk a = true ∧ (s.obj k i).st = 1 ∧ owns (slotInst slot) (s.obj k i).owner = true ∧ s.frozen (s.obj k i).owner = false ∧ s.refsOf k i ≠ 0)
    ∧ (∃ (s : State) (slot : Nat) (k : Nat) (i : Nat) (a : Accepted), s.grants slot Op.objDelete a ∧ k = a.kind ∧ i = a.index ∧ s.recordOk a = true ∧ (s.obj k i).st = 1 ∧ owns (slotInst slot) (s.obj k i).owner = true ∧ s.frozen (s.obj k i).owner = false ∧ s.refsOf k i = 0 ∧ s.running.length < 32)
    ∧ (∃ (s : State) (slot : Nat) (k : Nat) (i : Nat) (a : Accepted), s.grants slot Op.objRead a ∧ k = a.kind ∧ i = a.index ∧ s.recordOk a = false)
    ∧ (∃ (s : State) (slot : Nat) (k : Nat) (i : Nat) (a : Accepted), s.grants slot Op.objRead a ∧ k = a.kind ∧ i = a.index ∧ s.recordOk a = true ∧ (s.obj k i).st ≠ 0 ∧ owns (slotInst slot) (s.obj k i).owner = false)
    ∧ (∃ (s : State) (slot : Nat) (k : Nat) (i : Nat) (a : Accepted), s.grants slot Op.objRead a ∧ k = a.kind ∧ i = a.index ∧ s.recordOk a = true ∧ ((s.obj k i).st = 0 ∨ owns (slotInst slot) (s.obj k i).owner = true))
    ∧ (∃ (s : State) (slot : Nat) (a : Accepted), s.grants slot Op.streamReset a ∧ s.cfg.active.records K.stream ≤ leAt a.payload 0 2)
    ∧ (∃ (s : State) (slot : Nat) (i : Nat) (a : Accepted) (r : ObjRec), s.grants slot Op.streamReset a ∧ i = leAt a.payload 0 2 ∧ r = s.obj K.stream i ∧ i < s.cfg.active.records K.stream ∧ r.st ≠ 1)
    ∧ (∃ (s : State) (slot : Nat) (i : Nat) (a : Accepted) (r : ObjRec), s.grants slot Op.streamReset a ∧ i = leAt a.payload 0 2 ∧ r = s.obj K.stream i ∧ i < s.cfg.active.records K.stream ∧ r.st = 1 ∧ owns (slotInst slot) r.owner = false)
    ∧ (∃ (s : State) (slot : Nat) (i : Nat) (a : Accepted) (r : ObjRec), s.grants slot Op.streamReset a ∧ i = leAt a.payload 0 2 ∧ r = s.obj K.stream i ∧ i < s.cfg.active.records K.stream ∧ r.st = 1 ∧ owns (slotInst slot) r.owner = true ∧ s.frozen r.owner = true)
    ∧ (∃ (s : State) (slot : Nat) (i : Nat) (a : Accepted) (r : ObjRec), s.grants slot Op.streamReset a ∧ i = leAt a.payload 0 2 ∧ r = s.obj K.stream i ∧ i < s.cfg.active.records K.stream ∧ r.st = 1 ∧ owns (slotInst slot) r.owner = true ∧ s.frozen r.owner = false) :=
  ⟨⟨asked Op.objDelete (leBytes 4 0 ++ leBytes 4 9) { inst := [(63, { st := 1 })], tbl := { obj := [(9, { st := 1, owner := 63 })] } }, 0, _, _, msg Op.objDelete (leBytes 4 0 ++ leBytes 4 9), asked_grants rfl rfl rfl (fun _ => rfl), rfl, rfl, by decide +kernel⟩,
   ⟨asked Op.objDelete (leBytes 4 0 ++ leBytes 4 9) { tbl := { obj := [(9, { st := 2 })] } }, 0, _, _, msg Op.objDelete (leBytes 4 0 ++ leBytes 4 9), asked_grants rfl rfl rfl (fun _ => rfl), rfl, rfl, by decide +kernel⟩,
   ⟨asked Op.objDelete (leBytes 4 0 ++ leBytes 4 9) { tbl := { obj := [(9, { st := 1 })], front := [(0, { valid := true, result := putFields 0 [(R.type, 1), (R.target, 9)] })] } }, 0, _, _, msg Op.objDelete (leBytes 4 0 ++ leBytes 4 9), asked_grants rfl rfl rfl (fun _ => rfl), rfl, rfl, by decide +kernel⟩,
   ⟨asked Op.objDelete (leBytes 4 0 ++ leBytes 4 9) { tbl := { obj := [(9, { st := 1 })] } }, 0, _, _, msg Op.objDelete (leBytes 4 0 ++ leBytes 4 9), asked_grants rfl rfl rfl (fun _ => rfl), rfl, rfl, by decide +kernel⟩,
   ⟨asked Op.objRead (leBytes 4 0 ++ leBytes 4 262144) {}, 0, _, _, msg Op.objRead (leBytes 4 0 ++ leBytes 4 262144), asked_grants rfl rfl rfl (fun _ => rfl), rfl, rfl, by decide +kernel⟩,
   ⟨asked Op.objRead (leBytes 4 0 ++ leBytes 4 9) { tbl := { obj := [(9, { st := 1 })] } } 255 255, 255, _, _, msg Op.objRead (leBytes 4 0 ++ leBytes 4 9), asked_grants rfl rfl rfl (by decide +kernel), rfl, rfl, by decide +kernel⟩,
   ⟨asked Op.objRead (leBytes 4 0 ++ leBytes 4 262143) {}, 0, _, _, msg Op.objRead (leBytes 4 0 ++ leBytes 4 262143), asked_grants rfl rfl rfl (fun _ => rfl), rfl, rfl, by decide +kernel⟩,
   ⟨asked Op.streamReset (leBytes 2 65535) { cfg := { active := bank [(P.poolStream, 0, 0)] } }, 0, msg Op.streamReset (leBytes 2 65535), asked_grants rfl rfl rfl (fun _ => rfl), by decide +kernel⟩,
   ⟨asked Op.streamReset (leBytes 2 65535) {}, 0, _, msg Op.streamReset (leBytes 2 65535), _, asked_grants rfl rfl rfl (fun _ => rfl), rfl, rfl, by decide +kernel⟩,
   ⟨asked Op.streamReset (leBytes 2 9) { tbl := { obj := [(K.stream * 2 ^ 20 + 9, { st := 1 })] } } 255 255, 255, _, msg Op.streamReset (leBytes 2 9), _, asked_grants rfl rfl rfl (by decide +kernel), rfl, rfl, by decide +kernel⟩,
   ⟨asked Op.streamReset (leBytes 2 9) { inst := [(63, { st := 1 })], tbl := { obj := [(K.stream * 2 ^ 20 + 9, { st := 1, owner := 63 })] } }, 0, _, msg Op.streamReset (leBytes 2 9), _, asked_grants rfl rfl rfl (fun _ => rfl), rfl, rfl, by decide +kernel⟩,
   ⟨asked Op.streamReset (leBytes 2 9) { tbl := { obj := [(K.stream * 2 ^ 20 + 9, { st := 1 })] } }, 0, _, msg Op.streamReset (leBytes 2 9), _, asked_grants rfl rfl rfl (fun _ => rfl), rfl, rfl, by decide +kernel⟩⟩

theorem meets_RulesAndPrefixesAreSearched_1 :
    (∃ (op : Nat) (n : Nat) (a : Accepted) (l : List Move), l = (List.zip (List.range (batchCount a.payload)) (batchEntries n a.payload)).map (fun e => Move.entry a.session a.seq e.1 op e.2))
    ∧ (∃ (s : State) (u : State) (slot : Nat) (n : Nat) (a : Accepted) (k : JobKind), s.grants slot Op.ruleInsert a ∧ s.moveBatch Op.ruleInsert 96 a = .maybe u k n ∧ s.running.length < 32 ∧ countOk Op.ruleInsert a = true ∧ s.frozen (slotInst slot) = false ∧ (∀ e ∈ batchEntries 96 a.payload, s.frozen (s.ruleFrom e).inst = false))
    ∧ (∃ (s : State) (u : State) (slot : Nat) (n : Nat) (a : Accepted) (k : JobKind), s.grants slot Op.ruleDelete a ∧ s.moveBatch Op.ruleDelete 4 a = .maybe u k n ∧ s.running.length < 32 ∧ countOk Op.ruleDelete a = true ∧ s.frozen (slotInst slot) = false ∧ (∀ o ∈ s.ruleOwners ((batchEntries 4 a.payload).map (fun e => leAt e 0 4)), owns (slotInst slot) o = true ∧ s.frozen o = false))
    ∧ (∃ (s : State) (u : State) (slot : Nat) (n : Nat) (a : Accepted) (k : JobKind), s.grants slot Op.pfxInsert a ∧ s.moveBatch Op.pfxInsert 32 a = .maybe u k n ∧ s.running.length < 32 ∧ countOk Op.pfxInsert a = true ∧ s.frozen (slotInst slot) = false ∧ (∀ o ∈ s.vrfOwners (batchEntries 32 a.payload), owns (slotInst slot) o = true ∧ s.frozen o = false))
    ∧ (∃ (s : State) (u : State) (slot : Nat) (n : Nat) (a : Accepted) (k : JobKind), s.grants slot Op.pfxDelete a ∧ s.moveBatch Op.pfxDelete 24 a = .maybe u k n ∧ s.running.length < 32 ∧ countOk Op.pfxDelete a = true ∧ s.frozen (slotInst slot) = false ∧ (∀ o ∈ s.vrfOwners (batchEntries 24 a.payload), owns (slotInst slot) o = true ∧ s.frozen o = false))
    ∧ (∃ (s : State) (slot : Nat) (a : Accepted), s.grants slot Op.ruleInsert a ∧ countOk Op.ruleInsert a = false)
    ∧ (∃ (s : State) (slot : Nat) (a : Accepted), s.grants slot Op.ruleDelete a ∧ countOk Op.ruleDelete a = false)
    ∧ (∃ (s : State) (slot : Nat) (a : Accepted), s.grants slot Op.pfxInsert a ∧ countOk Op.pfxInsert a = false)
    ∧ (∃ (s : State) (slot : Nat) (a : Accepted), s.grants slot Op.pfxDelete a ∧ countOk Op.pfxDelete a = false)
    ∧ (∃ (s : State) (slot : Nat) (a : Accepted), s.grants slot Op.ruleInsert a ∧ countOk Op.ruleInsert a = true ∧ (s.frozen (slotInst slot) = true ∨ (∃ e ∈ batchEntries 96 a.payload, s.frozen (s.ruleFrom e).inst = true)))
    ∧ (∃ (s : State) (slot : Nat) (a : Accepted), s.grants slot Op.ruleDelete a ∧ countOk Op.ruleDelete a = true ∧ (∃ o ∈ s.ruleOwners ((batchEntries 4 a.payload).map (fun e => leAt e 0 4)), owns (slotInst slot) o = false))
    ∧ (∃ (s : State) (slot : Nat) (a : Accepted), s.grants slot Op.pfxInsert a ∧ countOk Op.pfxInsert a = true ∧ (∃ o ∈ s.vrfOwners (batchEntries 32 a.payload), owns (slotInst slot) o = false)) :=
  ⟨⟨0, 0, msg 0 [], _, by rfl⟩,
   ⟨asked Op.ruleInsert (leBytes 8 1 ++ leBytes 96 0) {}, _, 0, _, msg Op.ruleInsert (leBytes 8 1 ++ leBytes 96 0), _, asked_grants rfl rfl rfl (fun _ => rfl), by rfl, by decide +kernel⟩,
   ⟨asked Op.ruleDelete (leBytes 8 1 ++ leBytes 4 0) {}, _, 0, _, msg Op.ruleDelete (leBytes 8 1 ++ leBytes 4 0), _, asked_grants rfl rfl rfl (fun _ => rfl), by rfl, by decide +kernel⟩,
   ⟨asked Op.pfxInsert (leBytes 8 1 ++ leBytes 32 0) {}, _, 0, _, msg Op.pfxInsert (leBytes 8 1 ++ leBytes 32 0), _, asked_grants rfl rfl rfl (fun _ => rfl), by rfl, by decide +kernel⟩,
   ⟨asked Op.pfxDelete (leBytes 8 1 ++ leBytes 24 0) {}, _, 0, _, msg Op.pfxDelete (leBytes 8 1 ++ leBytes 24 0), _, asked_grants rfl rfl rfl (fun _ => rfl), by rfl, by decide +kernel⟩,
   ⟨asked Op.ruleInsert ([]) {}, 0, msg Op.ruleInsert ([]), asked_grants rfl rfl rfl (fun _ => rfl), by decide +kernel⟩,
   ⟨asked Op.ruleDelete ([]) {}, 0, msg Op.ruleDelete ([]), asked_grants rfl rfl rfl (fun _ => rfl), by decide +kernel⟩,
   ⟨asked Op.pfxInsert ([]) {}, 0, msg Op.pfxInsert ([]), asked_grants rfl rfl rfl (fun _ => rfl), by decide +kernel⟩,
   ⟨asked Op.pfxDelete ([]) {}, 0, msg Op.pfxDelete ([]), asked_grants rfl rfl rfl (fun _ => rfl), by decide +kernel⟩,
   ⟨asked Op.ruleInsert (leBytes 8 1 ++ leBytes 96 0) { inst := [(63, { st := 1 })] } 255 255, 255, msg Op.ruleInsert (leBytes 8 1 ++ leBytes 96 0), asked_grants rfl rfl rfl (by decide +kernel), by decide +kernel⟩,
   ⟨asked Op.ruleDelete (leBytes 8 1 ++ leBytes 4 7) { srch := { rule := [(9, { valid := true, handle := 7 })] } } 255 255, 255, msg Op.ruleDelete (leBytes 8 1 ++ leBytes 4 7), asked_grants rfl rfl rfl (by decide +kernel), by decide +kernel⟩,
   ⟨asked Op.pfxInsert (leBytes 8 1 ++ leBytes 32 0) {} 255 255, 255, msg Op.pfxInsert (leBytes 8 1 ++ leBytes 32 0), asked_grants rfl rfl rfl (by decide +kernel), by decide +kernel⟩⟩

theorem meets_RulesAndPrefixesAreSearched_2 :
    (∃ (s : State) (slot : Nat) (a : Accepted), s.grants slot Op.pfxDelete a ∧ countOk Op.pfxDelete a = true ∧ (∃ o ∈ s.vrfOwners (batchEntries 24 a.payload), owns (slotInst slot) o = false))
    ∧ (∃ (s : State) (i : Nat) (e : List Byte), ruleOk i (leAt e 0 1) (s.ruleFrom e) = true ∧ s.refCheck (s.ruleFrom e).inst (resultRefs (s.ruleFrom e).result) = 0 ∧ s.par P.instRuleRows (s.ruleFrom e).inst ≤ s.ruleCount (s.ruleFrom e).inst)
    ∧ (∃ (s : State) (i : Nat) (e : List Byte) (rows : _) (n : _), ruleOk i (leAt e 0 1) (s.ruleFrom e) = true ∧ s.refCheck (s.ruleFrom e).inst (resultRefs (s.ruleFrom e).result) = 0 ∧ s.ruleCount (s.ruleFrom e).inst < s.par P.instRuleRows (s.ruleFrom e).inst ∧ placeRule s.srch.rule (s.ruleFrom e) (bit (leAt e 1 1) 0) = some (rows, n))
    ∧ (∃ (q : Search), q.rule.any (fun r => r.2.valid && r.2.handle == q.nextHandle) = false)
    ∧ (∃ (q : Search), 1 ≤ q.nextHandle ∧ q.nextHandle < 2 ^ 32 ∧ q.rule.length < 2 ^ 32 - 1)
    ∧ (∃ (q : Search) (r : _), 1 ≤ q.nextHandle ∧ q.nextHandle < 2 ^ 32 ∧ q.rule.length < 2 ^ 32 - 1 ∧ r ∈ q.rule ∧ r.2.valid = true)
    ∧ (∃ (s : State) (e : List Byte), s.ruleOf (leAt e 0 4) = none)
    ∧ (∃ (s : State) (i : Nat) (row : Nat) (e : List Byte) (r : Rule), s.ruleOf (leAt e 0 4) = some (row, r) ∧ owns i r.inst = true)
    ∧ (∃ (s : State) (slot : Nat) (a : Accepted), s.grants slot Op.ruleSetResult a ∧ s.moving = true)
    ∧ (∃ (s : State) (slot : Nat) (a : Accepted), s.grants slot Op.ruleSetResult a ∧ s.ruleOf (leAt a.payload 0 4) = none ∧ s.moving = false)
    ∧ (∃ (s : State) (slot : Nat) (a : Accepted), s.grants slot Op.ruleRead a ∧ s.ruleOf (leAt a.payload 0 4) = none)
    ∧ (∃ (s : State) (slot : Nat) (row : Nat) (a : Accepted) (r : Rule), s.grants slot Op.ruleSetResult a ∧ s.ruleOf (leAt a.payload 0 4) = some (row, r) ∧ owns (slotInst slot) r.inst = true ∧ s.moving = false ∧ s.frozen r.inst = false ∧ resultOk (cleanMatch (leAt a.payload 8 8)) = true ∧ s.refCheck r.inst (resultRefs (cleanMatch (leAt a.payload 8 8))) = 0) :=
  ⟨⟨asked Op.pfxDelete (leBytes 8 1 ++ leBytes 24 0) {} 255 255, 255, msg Op.pfxDelete (leBytes 8 1 ++ leBytes 24 0), asked_grants rfl rfl rfl (by decide +kernel), by decide +kernel⟩,
   ⟨{ cfg := { active := bank [(P.instRuleRows, 0, 0)] } }, 0, leBytes 8 1 ++ leBytes 40 (2 ^ 316) ++ leBytes 40 (15 * 2 ^ 316) ++ leBytes 8 0, by decide +kernel⟩,
   ⟨{ cfg := { active := bank [(P.instRuleRows, 0, 1)] } }, 0, leBytes 8 1 ++ leBytes 40 (2 ^ 316) ++ leBytes 40 (15 * 2 ^ 316) ++ leBytes 8 0, (placeRule [] (State.ruleFrom { cfg := { active := bank [(P.instRuleRows, 0, 1)] } } (leBytes 8 1 ++ leBytes 40 (2 ^ 316) ++ leBytes 40 (15 * 2 ^ 316) ++ leBytes 8 0)) false).get!.1, (placeRule [] (State.ruleFrom { cfg := { active := bank [(P.instRuleRows, 0, 1)] } } (leBytes 8 1 ++ leBytes 40 (2 ^ 316) ++ leBytes 40 (15 * 2 ^ 316) ++ leBytes 8 0)) false).get!.2, by decide +kernel⟩,
   ⟨{}, by decide +kernel⟩,
   ⟨{}, by decide +kernel⟩,
   ⟨{ rule := [(9, { valid := true, handle := 7 })] }, (9, { valid := true, handle := 7 }), by decide +kernel⟩,
   ⟨{}, leBytes 4 7, by decide +kernel⟩,
   ⟨{ srch := { rule := [(9, { valid := true, handle := 7 })] } }, 0, 9, leBytes 4 7, { valid := true, handle := 7 }, by decide +kernel⟩,
   ⟨asked Op.ruleSetResult ([]) { srch := { moves := [.entry 1 2 0 0 []] } }, 0, msg Op.ruleSetResult ([]), asked_grants rfl rfl rfl (fun _ => rfl), by decide +kernel⟩,
   ⟨asked Op.ruleSetResult (leBytes 4 7) {}, 0, msg Op.ruleSetResult (leBytes 4 7), asked_grants rfl rfl rfl (fun _ => rfl), by decide +kernel⟩,
   ⟨asked Op.ruleRead (leBytes 4 7) {}, 0, msg Op.ruleRead (leBytes 4 7), asked_grants rfl rfl rfl (fun _ => rfl), by decide +kernel⟩,
   ⟨asked Op.ruleSetResult (leBytes 8 7 ++ leBytes 8 0) { srch := { rule := [(9, { valid := true, handle := 7 })] } }, 0, 9, msg Op.ruleSetResult (leBytes 8 7 ++ leBytes 8 0), { valid := true, handle := 7 }, asked_grants rfl rfl rfl (fun _ => rfl), by decide +kernel⟩⟩

theorem meets_RulesAndPrefixesAreSearched_3 :
    (∃ (s : State) (slot : Nat) (row : Nat) (a : Accepted) (r : Rule), s.grants slot Op.ruleRead a ∧ s.ruleOf (leAt a.payload 0 4) = some (row, r) ∧ owns (slotInst slot) r.inst = true)
    ∧ (∃ (s : State) (e : List Byte) (p : Prefix) (k : _), p = prefixEntry e ∧ prefixOk e = true ∧ resultOk p.result = true ∧ s.refCheck (s.par P.vrfOwner p.vrf) (resultRefs p.result) = 0 ∧ s.srch.findPrefix p.family p.vrf p.len p.addr = some k ∧ bit (leAt e 3 1) 0 = false)
    ∧ (∃ (s : State) (e : List Byte) (p : Prefix) (k : _), p = prefixEntry e ∧ prefixOk e = true ∧ resultOk p.result = true ∧ s.refCheck (s.par P.vrfOwner p.vrf) (resultRefs p.result) = 0 ∧ s.srch.findPrefix p.family p.vrf p.len p.addr = some k ∧ bit (leAt e 3 1) 0 = true)
    ∧ (∃ (s : State) (e : List Byte) (p : Prefix), p = prefixEntry e ∧ prefixOk e = true ∧ resultOk p.result = true ∧ s.refCheck (s.par P.vrfOwner p.vrf) (resultRefs p.result) = 0 ∧ s.srch.findPrefix p.family p.vrf p.len p.addr = none ∧ s.par P.instPfxLanes (s.par P.vrfOwner p.vrf) < s.laneTotal (s.par P.vrfOwner p.vrf) + laneCount p.family)
    ∧ (∃ (s : State) (e : List Byte) (p : Prefix) (q : _), p = prefixEntry e ∧ prefixOk e = true ∧ resultOk p.result = true ∧ s.refCheck (s.par P.vrfOwner p.vrf) (resultRefs p.result) = 0 ∧ s.srch.findPrefix p.family p.vrf p.len p.addr = none ∧ s.laneTotal (s.par P.vrfOwner p.vrf) + laneCount p.family ≤ s.par P.instPfxLanes (s.par P.vrfOwner p.vrf) ∧ s.srch.placePrefix p = some q)
    ∧ (∃ (e : List Byte) (p : Prefix), p = prefixFrom e ∧ prefixOk e = false)
    ∧ (∃ (s : State) (e : List Byte) (p : Prefix), p = prefixFrom e ∧ prefixOk e = true ∧ s.srch.findPrefix p.family p.vrf p.len p.addr = none)
    ∧ (∃ (s : State) (e : List Byte) (p : Prefix) (k : _), p = prefixFrom e ∧ prefixOk e = true ∧ s.srch.findPrefix p.family p.vrf p.len p.addr = some k)
    ∧ (∃ (s : State) (slot : Nat) (f : Nat) (v : Nat) (a : Accepted), s.grants slot Op.pfxLookup a ∧ f = leAt a.payload 0 1 ∧ v = leAt a.payload 1 1 ∧ (f = 6 ∨ (f = 4 ∧ zeroAt a.payload 12 12 = true)) ∧ owns (slotInst slot) (s.par P.vrfOwner v) = true ∧ (∀ e ∈ s.srch.pfx, Prefix.hits { e.2 with lost := 0 } 0 f v (beAt a.payload 8 (addrWidth f / 8)) = false))
    ∧ (∃ (s : State) (slot : Nat) (f : Nat) (v : Nat) (a : Accepted) (i : _) (p : _), s.grants slot Op.pfxLookup a ∧ f = leAt a.payload 0 1 ∧ v = leAt a.payload 1 1 ∧ (f = 6 ∨ (f = 4 ∧ zeroAt a.payload 12 12 = true)) ∧ owns (slotInst slot) (s.par P.vrfOwner v) = true ∧ s.srch.pfx.find? (fun e => { e.2 with lost := 0 }.hits 0 f v (beAt a.payload 8 (addrWidth f / 8))) = some (i, p)) :=
  ⟨⟨asked Op.ruleRead (leBytes 8 7) { srch := { rule := [(9, { valid := true, handle := 7 })] } }, 0, 9, msg Op.ruleRead (leBytes 8 7), { valid := true, handle := 7 }, asked_grants rfl rfl rfl (fun _ => rfl), by decide +kernel⟩,
   ⟨{ srch := { pfx := [(9, { valid := true, family := 4 })] } }, leBytes 8 4 ++ leBytes 24 0, _, 9, rfl, by decide +kernel⟩,
   ⟨{ srch := { pfx := [(9, { valid := true, family := 4 })] } }, [4#8, 0#8, 0#8, 1#8] ++ leBytes 28 0, _, 9, rfl, by decide +kernel⟩,
   ⟨{ cfg := { active := bank [(P.instPfxLanes, 0, 0)] } }, leBytes 8 4 ++ leBytes 24 0, _, rfl, by decide +kernel⟩,
   ⟨{ cfg := { active := bank [(P.instPfxLanes, 0, 8)] } }, leBytes 8 4 ++ leBytes 24 0, _, (Search.placePrefix {} (prefixEntry (leBytes 8 4 ++ leBytes 24 0))).get!, rfl, by decide +kernel⟩,
   ⟨[], _, rfl, by decide +kernel⟩,
   ⟨{}, leBytes 24 4, _, rfl, by decide +kernel⟩,
   ⟨{ srch := { pfx := [(9, { valid := true, family := 4 })] } }, leBytes 24 4, _, 9, rfl, by decide +kernel⟩,
   ⟨asked Op.pfxLookup (leBytes 8 4 ++ leBytes 16 0) {}, 0, _, _, msg Op.pfxLookup (leBytes 8 4 ++ leBytes 16 0), asked_grants rfl rfl rfl (fun _ => rfl), rfl, rfl, by decide +kernel⟩,
   ⟨asked Op.pfxLookup (leBytes 8 4 ++ leBytes 16 0) { srch := { pfx := [(9, { valid := true, family := 4 })] } }, 0, _, _, msg Op.pfxLookup (leBytes 8 4 ++ leBytes 16 0), 9, { valid := true, family := 4 }, asked_grants rfl rfl rfl (fun _ => rfl), rfl, rfl, by decide +kernel⟩⟩

theorem meets_KeysAreInstalledAndRemoved_1 :
    (∃ (s : State) (slot : Nat) (n : Nat) (k : Nat) (a : Accepted), s.grants slot Op.keyInstall a ∧ n = a.assoc ∧ k = a.keyNum ∧ s.keyCheck (slotInst slot) a true ≠ 0)
    ∧ (∃ (s : State) (slot : Nat) (n : Nat) (k : Nat) (a : Accepted), s.grants slot Op.keyInstall a ∧ n = a.assoc ∧ k = a.keyNum ∧ s.keyCheck (slotInst slot) a true = 0 ∧ s.installed n k = true)
    ∧ (∃ (s : State) (slot : Nat) (n : Nat) (k : Nat) (a : Accepted), s.grants slot Op.keyInstall a ∧ n = a.assoc ∧ k = a.keyNum ∧ s.keyCheck (slotInst slot) a true = 0 ∧ s.installed n k = false ∧ Crypto.kwUnwrap (s.sess a.session).key (slice a.payload 8 40) = none)
    ∧ (∃ (s : State) (slot : Nat) (n : Nat) (k : Nat) (a : Accepted) (key : _), s.grants slot Op.keyInstall a ∧ Crypto.kwUnwrap (s.sess a.session).key (slice a.payload 8 40) = some key ∧ n = a.assoc ∧ k = a.keyNum ∧ s.keyCheck (slotInst slot) a true = 0 ∧ s.installed n k = false ∧ s.parOn P.asSlotPolicy n = true ∧ 30 < s.pinnedKeys s.cfg.active + 1 + s.cfg.active.mostHolds s.lapNs)
    ∧ (∃ (s : State) (slot : Nat) (n : Nat) (k : Nat) (a : Accepted) (key : _), s.grants slot Op.keyInstall a ∧ Crypto.kwUnwrap (s.sess a.session).key (slice a.payload 8 40) = some key ∧ n = a.assoc ∧ k = a.keyNum ∧ s.keyCheck (slotInst slot) a true = 0 ∧ s.installed n k = false ∧ (s.parOn P.asSlotPolicy n = false ∨ s.pinnedKeys s.cfg.active + 1 + s.cfg.active.mostHolds s.lapNs ≤ 30))
    ∧ (∃ (s : State) (n : Nat), s.parOn P.asSlotPolicy n = false)
    ∧ (∃ (s : State) (n : Nat), s.parOn P.asSlotPolicy n = false ∧ (s.sec.assoc.at n).current = none)
    ∧ (∃ (s : State) (n : Nat), s.parOn P.asSlotPolicy n = false ∧ (s.sec.assoc.at n).current ≠ none)
    ∧ (∃ (s : State) (slot : Nat) (n : Nat) (k : Nat) (a : Accepted), s.grants slot Op.keyRemove a ∧ n = a.assoc ∧ k = a.keyNum ∧ s.keyCheck (slotInst slot) a true = 0 ∧ s.installed n k = false)
    ∧ (∃ (s : State) (slot : Nat) (n : Nat) (k : Nat) (a : Accepted), s.grants slot Op.keyRemove a ∧ n = a.assoc ∧ k = a.keyNum ∧ s.keyCheck (slotInst slot) a true = 0 ∧ s.installed n k = true ∧ s.parOn P.asDir n = true ∧ (s.sec.assoc.at n).current = some k)
    ∧ (∃ (s : State) (slot : Nat) (n : Nat) (k : Nat) (a : Accepted), s.grants slot Op.keyRemove a ∧ n = a.assoc ∧ k = a.keyNum ∧ s.keyCheck (slotInst slot) a true = 0 ∧ s.installed n k = true ∧ (s.parOn P.asDir n = false ∨ (s.sec.assoc.at n).current ≠ some k))
    ∧ (∃ (s : State) (slot : Nat) (a : Accepted), s.grants slot Op.keyRemove a ∧ s.keyCheck (slotInst slot) a true ≠ 0) :=
  ⟨⟨asked Op.keyInstall (leBytes 2 65535 ++ [4#8]) { cfg := { active := bank [(P.asEnable, 65535, 1)] } }, 0, 65535, 4, msg Op.keyInstall (leBytes 2 65535 ++ [4#8]), asked_grants rfl rfl rfl (fun _ => rfl), by decide +kernel⟩,
   ⟨asked Op.keyInstall (leBytes 2 65535 ++ [3#8] ++ leBytes 5 0) { cfg := { active := bank [(P.asEnable, 65535, 1)] }, sec := { vault := [(262143, { valid := true })] } }, 0, 65535, 3, msg Op.keyInstall (leBytes 2 65535 ++ [3#8] ++ leBytes 5 0), asked_grants rfl rfl rfl (fun _ => rfl), by decide +kernel⟩,
   ⟨asked Op.keyInstall (leBytes 2 65535 ++ [3#8] ++ leBytes 5 0) { cfg := { active := bank [(P.asEnable, 65535, 1)] } }, 0, 65535, 3, msg Op.keyInstall (leBytes 2 65535 ++ [3#8] ++ leBytes 5 0), asked_grants rfl rfl rfl (fun _ => rfl), by decide +kernel⟩,
   ⟨asked Op.keyInstall ((leBytes 2 7 ++ [3#8] ++ leBytes 5 0) ++ Crypto.kwWrap sessionKey (List.replicate 32 1#8)) { mbx := { session := [(15, { st := 2, key := sessionKey })] }, sec := { vault := (List.range 30).map (fun i => (i, { valid := true })) }, cfg := { active := bank ((List.range 8).flatMap (fun k => [(P.asSlotPolicy, k, 1), (P.asEnable, k, 1)])) } } 15, 0, 7, 3, msg Op.keyInstall ((leBytes 2 7 ++ [3#8] ++ leBytes 5 0) ++ Crypto.kwWrap sessionKey (List.replicate 32 1#8)) 15, List.replicate 32 1#8, asked_grants rfl rfl rfl (fun _ => rfl), by exact wrapped_key _ rfl _ rfl, by decide +kernel⟩,
   ⟨asked Op.keyInstall ((leBytes 2 7 ++ [3#8] ++ leBytes 5 0) ++ Crypto.kwWrap sessionKey (List.replicate 32 1#8)) { mbx := { session := [(15, { st := 2, key := sessionKey })] }, sec := { vault := (List.range 29).map (fun i => (i, { valid := true })) }, cfg := { active := bank ((List.range 8).flatMap (fun k => [(P.asSlotPolicy, k, 1), (P.asEnable, k, 1)])) } } 15, 0, 7, 3, msg Op.keyInstall ((leBytes 2 7 ++ [3#8] ++ leBytes 5 0) ++ Crypto.kwWrap sessionKey (List.replicate 32 1#8)) 15, List.replicate 32 1#8, asked_grants rfl rfl rfl (fun _ => rfl), by exact wrapped_key _ rfl _ rfl, by decide +kernel⟩,
   ⟨{}, 65535, by decide +kernel⟩,
   ⟨{}, 65535, by decide +kernel⟩,
   ⟨{ sec := { assoc := [(65535, { current := some 0 })] } }, 65535, by decide +kernel⟩,
   ⟨asked Op.keyRemove (leBytes 2 65535 ++ [3#8] ++ leBytes 5 0) { cfg := { active := bank [(P.asEnable, 65535, 1)] } }, 0, 65535, 3, msg Op.keyRemove (leBytes 2 65535 ++ [3#8] ++ leBytes 5 0), asked_grants rfl rfl rfl (fun _ => rfl), by decide +kernel⟩,
   ⟨asked Op.keyRemove (leBytes 2 65535 ++ [3#8] ++ leBytes 5 0) { cfg := { active := bank [(P.asEnable, 65535, 1), (P.asDir, 65535, 1)] }, sec := { vault := [(262143, { valid := true })], assoc := [(65535, { current := some 3 })] } }, 0, 65535, 3, msg Op.keyRemove (leBytes 2 65535 ++ [3#8] ++ leBytes 5 0), asked_grants rfl rfl rfl (fun _ => rfl), by decide +kernel⟩,
   ⟨asked Op.keyRemove (leBytes 2 65535 ++ [3#8] ++ leBytes 5 0) { cfg := { active := bank [(P.asEnable, 65535, 1)] }, sec := { vault := [(262143, { valid := true })] } }, 0, 65535, 3, msg Op.keyRemove (leBytes 2 65535 ++ [3#8] ++ leBytes 5 0), asked_grants rfl rfl rfl (fun _ => rfl), by decide +kernel⟩,
   ⟨asked Op.keyRemove (leBytes 2 65535 ++ [3#8] ++ leBytes 5 0) {}, 0, msg Op.keyRemove (leBytes 2 65535 ++ [3#8] ++ leBytes 5 0), asked_grants rfl rfl rfl (fun _ => rfl), by decide +kernel⟩⟩

theorem meets_KeysAreInstalledAndRemoved_2 :
    (∃ (s : State) (n : Nat) (k : Nat), (s.sec.assoc.at n).current ≠ some k)
    ∧ (∃ (s : State) (slot : Nat) (n : Nat) (k : Nat) (a : Accepted), s.grants slot Op.keyMakeCurrent a ∧ n = a.assoc ∧ k = a.keyNum ∧ s.atLap (leAt a.payload 3 1) (leAt a.payload 4 4) = none)
    ∧ (∃ (s : State) (slot : Nat) (n : Nat) (k : Nat) (lap : Nat) (a : Accepted), s.grants slot Op.keyMakeCurrent a ∧ n = a.assoc ∧ k = a.keyNum ∧ s.atLap (leAt a.payload 3 1) (leAt a.payload 4 4) = some lap ∧ s.keyCheck (slotInst slot) a true = 0 ∧ s.installed n k = false)
    ∧ (∃ (s : State) (slot : Nat) (n : Nat) (k : Nat) (lap : Nat) (a : Accepted), s.grants slot Op.keyMakeCurrent a ∧ n = a.assoc ∧ k = a.keyNum ∧ s.atLap (leAt a.payload 3 1) (leAt a.payload 4 4) = some lap ∧ s.keyCheck (slotInst slot) a true = 0 ∧ s.installed n k = true)
    ∧ (∃ (s : State) (slot : Nat) (lap : Nat) (a : Accepted), s.grants slot Op.keyMakeCurrent a ∧ s.atLap (leAt a.payload 3 1) (leAt a.payload 4 4) = some lap ∧ s.keyCheck (slotInst slot) a true ≠ 0)
    ∧ (∃ (s : State) (n : Nat) (k : Nat) (lap : Nat), (s.sec.assoc.at n).change = some (k, lap) ∧ later 32 lap s.lap = true)
    ∧ (∃ (s : State) (n : Nat) (k : Nat) (lap : Nat), (s.sec.assoc.at n).change = some (k, lap) ∧ later 32 lap s.lap = false ∧ s.installed n k = true)
    ∧ (∃ (s : State) (n : Nat) (k : Nat) (lap : Nat), (s.sec.assoc.at n).change = some (k, lap) ∧ later 32 lap s.lap = false ∧ s.installed n k = false)
    ∧ (∃ (s : State) (slot : Nat) (a : Accepted), s.grants slot Op.keyStatus a ∧ s.keyCheck (slotInst slot) a false ≠ 0)
    ∧ (∃ (s : State) (slot : Nat) (a : Accepted), s.grants slot Op.keyStatus a ∧ s.keyCheck (slotInst slot) a false = 0)
    ∧ (∃ (s : State) (n : Nat) (k : Nat) (t : Nat) (v : VaultRec) (q : KeySlot), v = s.sec.vault.at (4 * n + k) ∧ q = s.sec.slot.at t ∧ s.slotOf n k = some t)
    ∧ (∃ (s : State) (n : Nat) (k : Nat) (v : VaultRec), v = s.sec.vault.at (4 * n + k) ∧ s.slotOf n k = none) :=
  ⟨⟨{ cfg := { active := bank [(P.asEnable, 65535, 1)] } }, 65535, 3, by decide +kernel⟩,
   ⟨asked Op.keyMakeCurrent (leBytes 2 65535 ++ [3#8, 2#8] ++ leBytes 4 0) { cfg := { active := bank [(P.asEnable, 65535, 1)] } }, 0, 65535, 3, msg Op.keyMakeCurrent (leBytes 2 65535 ++ [3#8, 2#8] ++ leBytes 4 0), asked_grants rfl rfl rfl (fun _ => rfl), by decide +kernel⟩,
   ⟨asked Op.keyMakeCurrent (leBytes 2 65535 ++ [3#8] ++ leBytes 5 0) { cfg := { active := bank [(P.asEnable, 65535, 1)] } }, 0, 65535, 3, 1, msg Op.keyMakeCurrent (leBytes 2 65535 ++ [3#8] ++ leBytes 5 0), asked_grants rfl rfl rfl (fun _ => rfl), by decide +kernel⟩,
   ⟨asked Op.keyMakeCurrent (leBytes 2 65535 ++ [3#8] ++ leBytes 5 0) { cfg := { active := bank [(P.asEnable, 65535, 1)] }, sec := { vault := [(262143, { valid := true })] } }, 0, 65535, 3, 1, msg Op.keyMakeCurrent (leBytes 2 65535 ++ [3#8] ++ leBytes 5 0), asked_grants rfl rfl rfl (fun _ => rfl), by decide +kernel⟩,
   ⟨asked Op.keyMakeCurrent (leBytes 2 65535 ++ [3#8] ++ leBytes 5 0) {}, 0, 1, msg Op.keyMakeCurrent (leBytes 2 65535 ++ [3#8] ++ leBytes 5 0), asked_grants rfl rfl rfl (fun _ => rfl), by decide +kernel⟩,
   ⟨{ sec := { assoc := [(65535, { change := some (3, 7) })] } }, 65535, 3, 7, by decide +kernel⟩,
   ⟨{ time := { lapCount := 7 }, sec := { assoc := [(65535, { change := some (3, 7) })], vault := [(262143, { valid := true })] } }, 65535, 3, 7, by decide +kernel⟩,
   ⟨{ time := { lapCount := 7 }, sec := { assoc := [(65535, { change := some (3, 7) })] } }, 65535, 3, 7, by decide +kernel⟩,
   ⟨asked Op.keyStatus (leBytes 2 65535 ++ [4#8]) { cfg := { active := bank [(P.asEnable, 65535, 1)] } }, 0, msg Op.keyStatus (leBytes 2 65535 ++ [4#8]), asked_grants rfl rfl rfl (fun _ => rfl), by decide +kernel⟩,
   ⟨asked Op.keyStatus (leBytes 2 65535 ++ [3#8] ++ leBytes 5 0) { cfg := { active := bank [(P.asEnable, 65535, 1)] } }, 0, msg Op.keyStatus (leBytes 2 65535 ++ [3#8] ++ leBytes 5 0), asked_grants rfl rfl rfl (fun _ => rfl), by decide +kernel⟩,
   ⟨{ sec := { slot := [(31, { st := 2, assoc := 65535, keyNum := 3 })] } }, 65535, 3, 31, _, _, rfl, rfl, by decide +kernel⟩,
   ⟨{}, 65535, 3, _, rfl, by decide +kernel⟩⟩

theorem meets_InstancesAreResetFrozenAndSaved_1 :
    (∃ (s : State) (slot : Nat) (i : Nat) (a : Accepted) (x : Inst), x = s.inst.at i ∧ s.grants slot Op.instStatus a ∧ i = leAt a.payload 0 1 ∧ 64 ≤ i)
    ∧ (∃ (s : State) (slot : Nat) (i : Nat) (a : Accepted) (x : Inst), x = s.inst.at i ∧ s.grants slot Op.instStatus a ∧ i = leAt a.payload 0 1 ∧ i < 64 ∧ owns (slotInst slot) i = true)
    ∧ (∃ (s : State) (slot : Nat) (i : Nat) (a : Accepted) (x : Inst), x = s.inst.at i ∧ s.grants slot Op.instReset a ∧ i = leAt a.payload 0 1 ∧ i < 64 ∧ owns (slotInst slot) i = true ∧ x.st ≠ 0)
    ∧ (∃ (s : State) (slot : Nat) (i : Nat) (a : Accepted) (x : Inst), x = s.inst.at i ∧ s.grants slot Op.instReset a ∧ i = leAt a.payload 0 1 ∧ i < 64 ∧ owns (slotInst slot) i = true ∧ x.st = 0 ∧ nextGen x.gen.toNat x.inUse = none)
    ∧ (∃ (s : State) (slot : Nat) (i : Nat) (a : Accepted) (x : Inst) (g : _), x = s.inst.at i ∧ s.grants slot Op.instReset a ∧ i = leAt a.payload 0 1 ∧ i < 64 ∧ owns (slotInst slot) i = true ∧ x.st = 0 ∧ nextGen x.gen.toNat x.inUse = some g ∧ (s.tags a { rstate := 0, status := 0, result := leBytes 1 g } && !s.cmacFree) = false)
    ∧ (∃ (s : State) (slot : Nat) (i : Nat) (a : Accepted) (x : Inst) (g : _), x = s.inst.at i ∧ s.grants slot Op.instReset a ∧ i = leAt a.payload 0 1 ∧ i < 64 ∧ owns (slotInst slot) i = true ∧ x.st = 0 ∧ nextGen x.gen.toNat x.inUse = some g ∧ (s.tags a { rstate := 0, status := 0, result := leBytes 1 g } && !s.cmacFree) = true ∧ a.silent = false ∧ a.buf = none)
    ∧ (∃ (s : State) (slot : Nat) (i : Nat) (a : Accepted) (x : Inst), x = s.inst.at i ∧ s.grants slot Op.instDelete a ∧ i = leAt a.payload 0 1 ∧ (i < 1 ∨ 64 ≤ i))
    ∧ (∃ (s : State) (slot : Nat) (i : Nat) (a : Accepted) (x : Inst), x = s.inst.at i ∧ s.grants slot Op.instDelete a ∧ i = leAt a.payload 0 1 ∧ 1 ≤ i ∧ i < 64 ∧ x.st = 2)
    ∧ (∃ (s : State) (slot : Nat) (i : Nat) (a : Accepted) (x : Inst), x = s.inst.at i ∧ s.grants slot Op.instDelete a ∧ i = leAt a.payload 0 1 ∧ 1 ≤ i ∧ i < 64 ∧ x.st ≠ 2 ∧ s.instBusy i = true)
    ∧ (∃ (s : State) (slot : Nat) (i : Nat) (a : Accepted) (x : Inst) (g : _), x = s.inst.at i ∧ s.grants slot Op.instDelete a ∧ i = leAt a.payload 0 1 ∧ 1 ≤ i ∧ i < 64 ∧ x.st ≠ 2 ∧ s.instBusy i = false ∧ nextGen x.gen.toNat x.inUse = some g ∧ s.running.length < 32)
    ∧ (∃ (s : State) (j : Job) (i : Nat) (g : Nat) (l : List Nat), j.kind = .instDelete i 0 l ∧ j.abort = false ∧ nextGen (s.inst.at i).gen.toNat (s.inst.at i).inUse = some g)
    ∧ (∃ (s : State) (j : Job) (i : Nat) (l : List Nat), j.abort = false ∧ j.kind = .instDelete i 1 l ∧ s.moving = true)
    ∧ (∃ (s : State) (j : Job) (i : Nat) (l : List Nat), j.abort = false ∧ j.kind = .instDelete i 1 l ∧ s.moving = false)
    ∧ (∃ (j : Job) (i : Nat) (l : List Nat), j.abort = false ∧ j.kind = .instDelete i 2 l) :=
  ⟨⟨asked Op.instStatus (leBytes 8 64) {}, 0, 64, msg Op.instStatus (leBytes 8 64), _, rfl, asked_grants rfl rfl rfl (fun _ => rfl), by decide +kernel⟩,
   ⟨asked Op.instStatus (leBytes 8 63) {}, 0, 63, msg Op.instStatus (leBytes 8 63), _, rfl, asked_grants rfl rfl rfl (fun _ => rfl), by decide +kernel⟩,
   ⟨asked Op.instReset (leBytes 8 63) { inst := [(63, { st := 1 })] }, 0, 63, msg Op.instReset (leBytes 8 63), _, rfl, asked_grants rfl rfl rfl (fun _ => rfl), by decide +kernel⟩,
   ⟨asked Op.instReset (leBytes 8 63) { inst := [(63, { used := 2 ^ 256 - 1 })] }, 0, 63, msg Op.instReset (leBytes 8 63), _, rfl, asked_grants rfl rfl rfl (fun _ => rfl), by decide +kernel⟩,
   ⟨asked Op.instReset (leBytes 8 63) {}, 0, 63, msg Op.instReset (leBytes 8 63), _, 1, rfl, asked_grants rfl rfl rfl (fun _ => rfl), by decide +kernel⟩,
   ⟨asked Op.instReset (leBytes 8 63) { fault := { funcs := [(7, 0)] }, mbx := { session := [(4, { st := 2 })] } } 4, 0, 63, msg Op.instReset (leBytes 8 63) 4, _, 1, rfl, asked_grants rfl rfl rfl (fun _ => rfl), by decide +kernel⟩,
   ⟨asked Op.instDelete (leBytes 8 64) {}, 0, 64, msg Op.instDelete (leBytes 8 64), _, rfl, asked_grants rfl rfl rfl (fun _ => rfl), by decide +kernel⟩,
   ⟨asked Op.instDelete (leBytes 8 63) { inst := [(63, { st := 2 })] }, 0, 63, msg Op.instDelete (leBytes 8 63), _, rfl, asked_grants rfl rfl rfl (fun _ => rfl), by decide +kernel⟩,
   ⟨asked Op.instDelete (leBytes 8 63) { mbx := { jobs := [{ session := 4, seq := 9, inst := 0, op := 0, kind := .instSave 63 0 }] } }, 0, 63, msg Op.instDelete (leBytes 8 63), _, rfl, asked_grants rfl rfl rfl (fun _ => rfl), by decide +kernel⟩,
   ⟨asked Op.instDelete (leBytes 8 63) {}, 0, 63, msg Op.instDelete (leBytes 8 63), _, 1, rfl, asked_grants rfl rfl rfl (fun _ => rfl), by decide +kernel⟩,
   ⟨{}, { session := 4, seq := 9, inst := 0, op := 0, kind := .instDelete 63 0 [] }, 63, 1, [], by decide +kernel⟩,
   ⟨{ srch := { moves := [.entry 0 0 0 0 []] } }, { session := 4, seq := 9, inst := 0, op := 0, kind := .instDelete 63 1 [] }, 63, [], by decide +kernel⟩,
   ⟨{}, { session := 4, seq := 9, inst := 0, op := 0, kind := .instDelete 63 1 [] }, 63, [], by decide +kernel⟩,
   ⟨{ session := 4, seq := 9, inst := 0, op := 0, kind := .instDelete 63 2 [] }, 63, [], by decide +kernel⟩⟩

theorem meets_InstancesAreResetFrozenAndSaved_2 :
    (∃ (s : State) (j : Job) (i : Nat) (l : List Nat), j.abort = false ∧ j.kind = .instDelete i 3 l ∧ s.draining i ≠ [])
    ∧ (∃ (s : State) (j : Job) (i : Nat) (l : List Nat), j.abort = false ∧ j.kind = .instDelete i 3 l ∧ s.draining i = [])
    ∧ (∃ (s : State) (u : State) (i : Nat) (lap : Nat) (x : Inst), x = s.inst.at i ∧ u = s.updInst i (fun x => { x with st := 1, freezeAt := none }) ∧ x.st = 0 ∧ x.freezeAt = some lap ∧ later 32 lap s.lap = false ∧ x.resumeAt = none)
    ∧ (∃ (s : State) (u : State) (i : Nat) (lap : Nat) (x : Inst), x = s.inst.at i ∧ u = s.updInst i (fun x => { x with st := 1, freezeAt := none }) ∧ x.st = 1 ∧ x.resumeAt = some lap ∧ later 32 lap s.lap = false ∧ x.freezeAt = none)
    ∧ (∃ (s : State) (u : State) (i : Nat) (x : Inst), x = s.inst.at i ∧ u = s.updInst i (fun x => { x with st := 1, freezeAt := none }) ∧ (∀ l, x.freezeAt = some l ∨ x.resumeAt = some l → later 32 l s.lap = true))
    ∧ (∃ (s : State) (slot : Nat) (i : Nat) (lap : Nat) (a : Accepted), s.grants slot Op.instFreeze a ∧ i = leAt a.payload 0 1 ∧ s.atLap (leAt a.payload 1 1) (leAt a.payload 4 4) = some lap ∧ i < 64 ∧ (s.inst.at i).st = 2)
    ∧ (∃ (s : State) (slot : Nat) (i : Nat) (lap : Nat) (a : Accepted), s.grants slot Op.instFreeze a ∧ i = leAt a.payload 0 1 ∧ s.atLap (leAt a.payload 1 1) (leAt a.payload 4 4) = some lap ∧ i < 64 ∧ (s.inst.at i).st ≠ 2)
    ∧ (∃ (s : State) (slot : Nat) (i : Nat) (lap : Nat) (a : Accepted), s.grants slot Op.instResume a ∧ i = leAt a.payload 0 1 ∧ s.atLap (leAt a.payload 1 1) (leAt a.payload 4 4) = some lap ∧ i < 64 ∧ (s.inst.at i).st ≠ 1)
    ∧ (∃ (s : State) (slot : Nat) (i : Nat) (lap : Nat) (a : Accepted), s.grants slot Op.instResume a ∧ i = leAt a.payload 0 1 ∧ s.atLap (leAt a.payload 1 1) (leAt a.payload 4 4) = some lap ∧ i < 64 ∧ (s.inst.at i).st = 1)
    ∧ (∃ (s : State) (i : Nat) (g : Nat) (e : Nat) (x : Inst) (m : List (Nat × Nat)), x = s.inst.at i ∧ m = x.markers.filter (fun k => k != (g, e)) ∧ (g, e) ∈ x.markers ∧ s.engineWork i g e = false ∧ (∃ k ∈ m, k.1 = g))
    ∧ (∃ (s : State) (i : Nat) (g : Nat) (e : Nat) (x : Inst) (m : List (Nat × Nat)), x = s.inst.at i ∧ m = x.markers.filter (fun k => k != (g, e)) ∧ (g, e) ∈ x.markers ∧ s.engineWork i g e = false ∧ (∀ k ∈ m, k.1 ≠ g) ∧ bit x.used g = true)
    ∧ (∃ (s : State) (i : Nat) (g : Nat) (e : Nat) (x : Inst) (m : List (Nat × Nat)), x = s.inst.at i ∧ m = x.markers.filter (fun k => k != (g, e)) ∧ ((g, e) ∉ x.markers ∨ s.engineWork i g e = true))
    ∧ (∃ (s : State) (slot : Nat) (i : Nat) (seg : Nat) (a : Accepted), s.grants slot Op.instSave a ∧ seg = leAt a.payload 2 2 ∧ i = leAt a.payload 0 1 ∧ i < 64 ∧ (s.inst.at i).st ≠ 1)
    ∧ (∃ (s : State) (slot : Nat) (i : Nat) (seg : Nat) (a : Accepted), s.grants slot Op.instSave a ∧ seg = leAt a.payload 2 2 ∧ i = leAt a.payload 0 1 ∧ i < 64 ∧ (s.inst.at i).st = 1 ∧ segments (s.inst.at i).saved ≤ seg) :=
  ⟨⟨{ tbl := { obj := [(5, { st := 2, owner := 63 })] } }, { session := 4, seq := 9, inst := 0, op := 0, kind := .instDelete 63 3 [] }, 63, [], by decide +kernel⟩,
   ⟨{}, { session := 4, seq := 9, inst := 0, op := 0, kind := .instDelete 63 3 [] }, 63, [], by decide +kernel⟩,
   ⟨{ time := { lapCount := 7 }, inst := [(63, { freezeAt := some 7 })] }, _, 63, 7, _, rfl, rfl, by decide +kernel⟩,
   ⟨{ time := { lapCount := 7 }, inst := [(63, { st := 1, resumeAt := some 7 })] }, _, 63, 7, _, rfl, rfl, by decide +kernel⟩,
   ⟨{ inst := [(63, { freezeAt := some 7 })] }, _, 63, _, by rfl, rfl, by exact fun l h => (by rcases h with h | h <;> cases h <;> decide)⟩,
   ⟨asked Op.instFreeze (leBytes 8 63) { inst := [(63, { st := 2 })] }, 0, 63, 1, msg Op.instFreeze (leBytes 8 63), asked_grants rfl rfl rfl (fun _ => rfl), by decide +kernel⟩,
   ⟨asked Op.instFreeze (leBytes 8 63) {}, 0, 63, 1, msg Op.instFreeze (leBytes 8 63), asked_grants rfl rfl rfl (fun _ => rfl), by decide +kernel⟩,
   ⟨asked Op.instResume (leBytes 8 63) {}, 0, 63, 1, msg Op.instResume (leBytes 8 63), asked_grants rfl rfl rfl (fun _ => rfl), by decide +kernel⟩,
   ⟨asked Op.instResume (leBytes 8 63) { inst := [(63, { st := 1 })] }, 0, 63, 1, msg Op.instResume (leBytes 8 63), asked_grants rfl rfl rfl (fun _ => rfl), by decide +kernel⟩,
   ⟨{ inst := [(63, { markers := [(0, 0), (0, 1)] })] }, 63, 0, 0, _, _, rfl, rfl, by decide +kernel⟩,
   ⟨{ inst := [(63, { markers := [(0, 0)], used := 1 })] }, 63, 0, 0, _, _, rfl, rfl, by decide +kernel⟩,
   ⟨{}, 63, 0, 0, _, _, rfl, rfl, by decide +kernel⟩,
   ⟨asked Op.instSave (leBytes 8 63) {}, 0, 63, _, msg Op.instSave (leBytes 8 63), asked_grants rfl rfl rfl (fun _ => rfl), rfl, by decide +kernel⟩,
   ⟨asked Op.instSave (leBytes 8 63) { inst := [(63, { st := 1 })] }, 0, 63, _, msg Op.instSave (leBytes 8 63), asked_grants rfl rfl rfl (fun _ => rfl), rfl, by decide +kernel⟩⟩

theorem meets_InstancesAreResetFrozenAndSaved_3 :
    (∃ (s : State) (slot : Nat) (i : Nat) (seg : Nat) (a : Accepted), s.grants slot Op.instSave a ∧ seg = leAt a.payload 2 2 ∧ i = leAt a.payload 0 1 ∧ i < 64 ∧ (s.inst.at i).st = 1 ∧ seg < segments (s.inst.at i).saved ∧ s.instBusy i = false ∧ s.running.length < 32)
    ∧ (∃ (s : State) (j : Job) (i : Nat) (seg : Nat) (l : List Byte) (part : List Byte), l = (s.inst.at i).saved ∧ part = (l.drop (65536 * seg)).take 65536 ∧ j.kind = .instSave i seg ∧ j.abort = false ∧ (s.inst.at i).st = 1)
    ∧ (∃ (s : State) (slot : Nat) (i : Nat) (seg : Nat) (total : Nat) (a : Accepted), s.grants slot Op.instRestore a ∧ seg = leAt a.payload 2 2 ∧ i = leAt a.payload 0 1 ∧ total = leAt a.payload 4 2 ∧ i < 64 ∧ (s.inst.at i).st ≠ 1)
    ∧ (∃ (s : State) (slot : Nat) (i : Nat) (seg : Nat) (total : Nat) (a : Accepted) (st : _), s.grants slot Op.instRestore a ∧ seg = leAt a.payload 2 2 ∧ total = leAt a.payload 4 2 ∧ s.takeSegment i seg total (a.payload.drop 6) = .error st ∧ i = leAt a.payload 0 1 ∧ i < 64 ∧ (s.inst.at i).st = 1 ∧ s.instBusy i = false)
    ∧ (∃ (s : State) (slot : Nat) (i : Nat) (seg : Nat) (total : Nat) (a : Accepted) (u : _), s.grants slot Op.instRestore a ∧ seg = leAt a.payload 2 2 ∧ s.takeSegment i seg total (a.payload.drop 6) = .ok u ∧ i = leAt a.payload 0 1 ∧ total = leAt a.payload 4 2 ∧ i < 64 ∧ (s.inst.at i).st = 1 ∧ s.instBusy i = false ∧ s.running.length < 32)
    ∧ (∃ (seg : Nat) (total : Nat) (l : List Byte), (total = 0 ∨ total ≤ seg ∨ 65536 < l.length))
    ∧ (∃ (total : Nat) (l : List Byte), 0 < total ∧ l.length ≤ 65536)
    ∧ (∃ (s : State) (t : Nat) (seg : Nat) (total : Nat) (l : List Byte), 0 < seg ∧ seg < total ∧ l.length ≤ 65536 ∧ (s.mbx.transfer.at t).open_ = true ∧ (s.mbx.transfer.at t).next = seg ∧ (s.mbx.transfer.at t).total = total)
    ∧ (∃ (s : State) (t : Nat) (seg : Nat) (total : Nat) (l : List Byte), 0 < seg ∧ seg < total ∧ l.length ≤ 65536 ∧ ((s.mbx.transfer.at t).open_ = false ∨ (s.mbx.transfer.at t).next ≠ seg))
    ∧ (∃ (j : Job) (i : Nat) (ok : Bool), j.kind = .instRestore i ok ∧ j.abort = false ∧ j.total = 2 ∧ j.done = 0)
    ∧ (∃ (s : State) (j : Job) (i : Nat) (ok : Bool), j.kind = .instRestore i ok ∧ j.abort = false ∧ j.total = 2 ∧ j.done ≠ 0 ∧ s.moving = true)
    ∧ (∃ (s : State) (u : State) (j : Job) (i : Nat) (st : Nat) (ok : Bool), s.restoreAll i ok (s.mbx.transfer.at i).bytes = (u, st) ∧ j.kind = .instRestore i ok ∧ j.abort = false ∧ j.total = 2 ∧ j.done ≠ 0 ∧ s.moving = false)
    ∧ (∃ (l : List Byte), savedImage l = none) :=
  ⟨⟨asked Op.instSave (leBytes 8 63) { inst := [(63, { st := 1, saved := [1#8] })] }, 0, 63, _, msg Op.instSave (leBytes 8 63), asked_grants rfl rfl rfl (fun _ => rfl), rfl, by decide +kernel⟩,
   ⟨{ inst := [(63, { st := 1 })] }, { session := 4, seq := 9, inst := 0, op := 0, kind := .instSave 63 0 }, 63, 0, _, _, rfl, rfl, by decide +kernel⟩,
   ⟨asked Op.instRestore (leBytes 8 63) {}, 0, 63, _, 0, msg Op.instRestore (leBytes 8 63), asked_grants rfl rfl rfl (fun _ => rfl), rfl, by decide +kernel⟩,
   ⟨asked Op.instRestore (leBytes 8 63) { inst := [(63, { st := 1 })] }, 0, 63, _, _, msg Op.instRestore (leBytes 8 63), E.range, asked_grants rfl rfl rfl (fun _ => rfl), rfl, rfl, by rfl, by decide +kernel⟩,
   ⟨asked Op.instRestore ([63#8, 0#8] ++ leBytes 2 0 ++ leBytes 2 1) { inst := [(63, { st := 1 })] }, 0, 63, _, 1, msg Op.instRestore ([63#8, 0#8] ++ leBytes 2 0 ++ leBytes 2 1), _, asked_grants rfl rfl rfl (fun _ => rfl), rfl, by rfl, by decide +kernel⟩,
   ⟨1, 1, [], by decide +kernel⟩,
   ⟨1, [], by decide +kernel⟩,
   ⟨{ mbx := { transfer := [(63, { open_ := true, next := 1, total := 2 })] } }, 63, 1, 2, [], by decide +kernel⟩,
   ⟨{}, 0, 1, 2, [], by decide +kernel⟩,
   ⟨{ session := 4, seq := 9, inst := 0, op := 0, kind := .instRestore 63 false, total := 2 }, 63, false, by decide +kernel⟩,
   ⟨{ srch := { moves := [.entry 0 0 0 0 []] } }, { session := 4, seq := 9, inst := 0, op := 0, kind := .instRestore 63 false, total := 2, done := 1 }, 63, false, by decide +kernel⟩,
   ⟨{}, _, { session := 4, seq := 9, inst := 0, op := 0, kind := .instRestore 63 false, total := 2, done := 1 }, 63, _, false, by rfl, by decide +kernel⟩,
   ⟨[], by decide +kernel⟩⟩

theorem meets_FaultAndLogCommands :
    (∃ (s : State) (slot : Nat) (a : Accepted), s.grants slot Op.faultList a)
    ∧ (∃ (s : State) (slot : Nat) (k : Nat) (a : Accepted), s.grants slot Op.faultStatus a ∧ k = leAt a.payload 0 2 ∧ s.sourceCheck (slotInst slot) k ≠ 0)
    ∧ (∃ (s : State) (slot : Nat) (k : Nat) (a : Accepted), s.grants slot Op.faultAck a ∧ k = leAt a.payload 0 2 ∧ s.sourceCheck (slotInst slot) k ≠ 0)
    ∧ (∃ (s : State) (slot : Nat) (k : Nat) (a : Accepted), s.grants slot Op.faultStatus a ∧ k = leAt a.payload 0 2 ∧ s.sourceCheck (slotInst slot) k = 0)
    ∧ (∃ (s : State) (slot : Nat) (k : Nat) (a : Accepted), s.grants slot Op.faultAck a ∧ k = leAt a.payload 0 2 ∧ s.sourceCheck (slotInst slot) k = 0 ∧ s.inFault k = false)
    ∧ (∃ (s : State) (slot : Nat) (k : Nat) (a : Accepted), s.grants slot Op.faultAck a ∧ k = leAt a.payload 0 2 ∧ s.sourceCheck (slotInst slot) k = 0 ∧ s.inFault k = true)
    ∧ (∃ (s : State) (slot : Nat) (k : Nat) (sev : Nat) (rung : Nat) (a : Accepted), s.grants slot Op.faultPolicySet a ∧ k = leAt a.payload 0 2 ∧ sev = leAt a.payload 2 1 ∧ rung = leAt a.payload 3 1 ∧ (384 ≤ k ∨ 4 < sev ∨ rung < 1 ∨ 4 < rung ∨ (rung = 2 ∧ (sourceInfo k).climbs = false)))
    ∧ (∃ (s : State) (slot : Nat) (k : Nat) (sev : Nat) (rung : Nat) (a : Accepted), s.grants slot Op.faultPolicySet a ∧ k = leAt a.payload 0 2 ∧ sev = leAt a.payload 2 1 ∧ rung = leAt a.payload 3 1 ∧ k < 384 ∧ sev ≤ 4 ∧ 1 ≤ rung ∧ rung ≤ 4 ∧ (rung ≠ 2 ∨ (sourceInfo k).climbs = true))
    ∧ (∃ (b : Boot) (key : List Byte) (f : Persist → Persist) (r : Persist), r = Persist.seal { f (b.persist key) with valid := true, writeSeq := ((b.persist key).writeSeq + 1) % 2 ^ 32 } key ∧ b.persistOne key = true)
    ∧ (∃ (b : Boot) (key : List Byte) (f : Persist → Persist) (r : Persist), r = Persist.seal { f (b.persist key) with valid := true, writeSeq := ((b.persist key).writeSeq + 1) % 2 ^ 32 } key ∧ b.persistOne key = false)
    ∧ (∃ (s : State) (k : Nat) (f : FaultSrc) (r : FaultRec), f = s.fsrc k ∧ r = (f.record.or f.closed).getD { severity := s.severity k, count := 0 })
    ∧ (∃ (s : State) (slot : Nat) (src : Nat) (n : Nat) (f : Nat) (a : Accepted), s.grants slot Op.logRead a ∧ f = leAt a.payload 4 4 ∧ src = leAt a.payload 0 1 ∧ n = leAt a.payload 8 4 ∧ (2 ≤ src ∨ n < 1024 ∨ 65536 < n))
    ∧ (∃ (s : State) (slot : Nat) (src : Nat) (n : Nat) (f : Nat) (a : Accepted), s.grants slot Op.logRead a ∧ f = leAt a.payload 4 4 ∧ src = leAt a.payload 0 1 ∧ n = leAt a.payload 8 4 ∧ src < 2 ∧ 1024 ≤ n ∧ n ≤ 65536) :=
  ⟨⟨asked Op.faultList ([]) {}, 0, msg Op.faultList ([]), asked_grants rfl rfl rfl (fun _ => rfl)⟩,
   ⟨asked Op.faultStatus (leBytes 8 384) {}, 0, 384, msg Op.faultStatus (leBytes 8 384), asked_grants rfl rfl rfl (fun _ => rfl), by decide +kernel⟩,
   ⟨asked Op.faultAck (leBytes 8 384) {}, 0, 384, msg Op.faultAck (leBytes 8 384), asked_grants rfl rfl rfl (fun _ => rfl), by decide +kernel⟩,
   ⟨asked Op.faultStatus (leBytes 8 383) {}, 0, 383, msg Op.faultStatus (leBytes 8 383), asked_grants rfl rfl rfl (fun _ => rfl), by decide +kernel⟩,
   ⟨asked Op.faultAck (leBytes 8 383) {}, 0, 383, msg Op.faultAck (leBytes 8 383), asked_grants rfl rfl rfl (fun _ => rfl), by decide +kernel⟩,
   ⟨asked Op.faultAck (leBytes 8 383) { fault := { unit := [(64 * 383, { inFault := true })] } }, 0, 383, msg Op.faultAck (leBytes 8 383), asked_grants rfl rfl rfl (fun _ => rfl), by decide +kernel⟩,
   ⟨asked Op.faultPolicySet (leBytes 2 383 ++ [4#8, 5#8]) {}, 0, 383, 4, 5, msg Op.faultPolicySet (leBytes 2 383 ++ [4#8, 5#8]), asked_grants rfl rfl rfl (fun _ => rfl), by decide +kernel⟩,
   ⟨asked Op.faultPolicySet (leBytes 2 383 ++ [4#8, 4#8]) {}, 0, 383, 4, 4, msg Op.faultPolicySet (leBytes 2 383 ++ [4#8, 4#8]), asked_grants rfl rfl rfl (fun _ => rfl), by decide +kernel⟩,
   ⟨{ per0 := {}, per1 := Persist.seal { valid := true } [] }, [], id, _, rfl, by unfold Boot.persistOne; rw [Persist.seal_good _ _ rfl]; decide +kernel⟩,
   ⟨{}, [], id, _, rfl, by decide +kernel⟩,
   ⟨{}, 0, _, _, rfl, rfl⟩,
   ⟨asked Op.logRead (leBytes 8 1 ++ leBytes 4 65537) {}, 0, 1, 65537, _, msg Op.logRead (leBytes 8 1 ++ leBytes 4 65537), asked_grants rfl rfl rfl (fun _ => rfl), rfl, by decide +kernel⟩,
   ⟨asked Op.logRead (leBytes 8 1 ++ leBytes 4 65536) {}, 0, 1, 65536, _, msg Op.logRead (leBytes 8 1 ++ leBytes 4 65536), asked_grants rfl rfl rfl (fun _ => rfl), rfl, by decide +kernel⟩⟩

theorem meets_CountersAreSelectedAndRead :
    (∃ (s : State) (slot : Nat) (g : Nat) (ev : Nat) (m : Nat) (a : Accepted), s.grants slot Op.ctrSelect a ∧ ev = leAt a.payload 2 2 ∧ m = leAt a.payload 4 1 ∧ g = leAt a.payload 0 2 ∧ (2048 ≤ g ∨ eventOk ev = false ∨ 1 < m))
    ∧ (∃ (s : State) (slot : Nat) (g : Nat) (ev : Nat) (m : Nat) (a : Accepted), s.grants slot Op.ctrSelect a ∧ ev = leAt a.payload 2 2 ∧ g = leAt a.payload 0 2 ∧ m = leAt a.payload 4 1 ∧ g < 2048 ∧ eventOk ev = true ∧ m ≤ 1 ∧ owns (slotInst slot) (s.ctrOwner g) = false)
    ∧ (∃ (s : State) (slot : Nat) (g : Nat) (ev : Nat) (m : Nat) (a : Accepted), s.grants slot Op.ctrSelect a ∧ g = leAt a.payload 0 2 ∧ ev = leAt a.payload 2 2 ∧ m = leAt a.payload 4 1 ∧ g < 2048 ∧ eventOk ev = true ∧ m ≤ 1 ∧ owns (slotInst slot) (s.ctrOwner g) = true)
    ∧ (∃ (s : State) (slot : Nat) (f : Nat) (n : Nat) (a : Accepted), s.grants slot Op.ctrRead a ∧ f = leAt a.payload 0 2 ∧ n = leAt a.payload 2 2 ∧ s.ctrCheck (slotInst slot) f n ≠ 0)
    ∧ (∃ (s : State) (slot : Nat) (f : Nat) (n : Nat) (a : Accepted), s.grants slot Op.ctrClear a ∧ f = leAt a.payload 0 2 ∧ n = leAt a.payload 2 2 ∧ s.ctrCheck (slotInst slot) f n ≠ 0)
    ∧ (∃ (s : State) (slot : Nat) (f : Nat) (n : Nat) (a : Accepted), s.grants slot Op.ctrRead a ∧ f = leAt a.payload 0 2 ∧ n = leAt a.payload 2 2 ∧ s.ctrCheck (slotInst slot) f n = 0)
    ∧ (∃ (s : State) (slot : Nat) (f : Nat) (n : Nat) (a : Accepted), s.grants slot Op.ctrClear a ∧ f = leAt a.payload 0 2 ∧ n = leAt a.payload 2 2 ∧ s.ctrCheck (slotInst slot) f n = 0)
    ∧ (∃ (s : State) (slot : Nat) (q : Nat) (k : Nat) (c : Nat) (a : Accepted), s.grants slot Op.ctrSplitsRead a ∧ k = leAt a.payload 2 1 ∧ c = leAt a.payload 3 1 ∧ q = leAt a.payload 0 2 ∧ (8192 ≤ q ∨ 1 < k ∨ 1 < c))
    ∧ (∃ (s : State) (slot : Nat) (q : Nat) (k : Nat) (c : Nat) (a : Accepted), s.grants slot Op.ctrSplitsRead a ∧ c = leAt a.payload 3 1 ∧ q = leAt a.payload 0 2 ∧ k = leAt a.payload 2 1 ∧ q < 8192 ∧ k ≤ 1 ∧ c ≤ 1 ∧ owns (slotInst slot) (s.portInst (q / 16)) = false)
    ∧ (∃ (s : State) (slot : Nat) (q : Nat) (k : Nat) (c : Nat) (a : Accepted), s.grants slot Op.ctrSplitsRead a ∧ c = leAt a.payload 3 1 ∧ q = leAt a.payload 0 2 ∧ k = leAt a.payload 2 1 ∧ q < 8192 ∧ k ≤ 1 ∧ owns (slotInst slot) (s.portInst (q / 16)) = true ∧ c = 0)
    ∧ (∃ (s : State) (slot : Nat) (q : Nat) (k : Nat) (c : Nat) (a : Accepted), s.grants slot Op.ctrSplitsRead a ∧ q = leAt a.payload 0 2 ∧ k = leAt a.payload 2 1 ∧ c = leAt a.payload 3 1 ∧ q < 8192 ∧ k ≤ 1 ∧ owns (slotInst slot) (s.portInst (q / 16)) = true ∧ c = 1)
    ∧ (∃ (s : State) (slot : Nat) (i : Nat) (a : Accepted), s.grants slot Op.ctrStatRead a ∧ i = leAt a.payload 4 4 ∧ Stat.all.find? (fun x => x.id == leAt a.payload 0 2) = none)
    ∧ (∃ (s : State) (slot : Nat) (i : Nat) (a : Accepted) (x : _) (n : _), s.grants slot Op.ctrStatRead a ∧ i = leAt a.payload 4 4 ∧ Stat.all.find? (fun x => x.id == leAt a.payload 0 2) = some x ∧ x.unit.size = some n ∧ n ≤ i)
    ∧ (∃ (s : State) (slot : Nat) (i : Nat) (a : Accepted) (x : _), s.grants slot Op.ctrStatRead a ∧ i = leAt a.payload 4 4 ∧ (∀ n, x.unit.size = some n → i < n) ∧ Stat.all.find? (fun x => x.id == leAt a.payload 0 2) = some x ∧ owns (slotInst slot) (s.statOwner x.unit i) = false)
    ∧ (∃ (s : State) (slot : Nat) (i : Nat) (a : Accepted) (x : _), s.grants slot Op.ctrStatRead a ∧ i = leAt a.payload 4 4 ∧ (∀ n, x.unit.size = some n → i < n) ∧ Stat.all.find? (fun x => x.id == leAt a.payload 0 2) = some x ∧ owns (slotInst slot) (s.statOwner x.unit i) = true) :=
  ⟨⟨asked Op.ctrSelect (leBytes 2 2048) {}, 0, 2048, _, _, msg Op.ctrSelect (leBytes 2 2048), asked_grants rfl rfl rfl (fun _ => rfl), rfl, rfl, by decide +kernel⟩,
   ⟨asked Op.ctrSelect (leBytes 2 2047 ++ leBytes 2 0 ++ [1#8]) {} 255 255, 255, 2047, _, 1, msg Op.ctrSelect (leBytes 2 2047 ++ leBytes 2 0 ++ [1#8]), asked_grants rfl rfl rfl (by decide +kernel), rfl, by decide +kernel⟩,
   ⟨asked Op.ctrSelect (leBytes 2 2047 ++ leBytes 2 0x800C ++ [1#8]) {}, 0, 2047, 0x800C, 1, msg Op.ctrSelect (leBytes 2 2047 ++ leBytes 2 0x800C ++ [1#8]), asked_grants rfl rfl rfl (fun _ => rfl), by decide +kernel⟩,
   ⟨asked Op.ctrRead (leBytes 2 2047 ++ leBytes 2 2) {}, 0, 2047, 2, msg Op.ctrRead (leBytes 2 2047 ++ leBytes 2 2), asked_grants rfl rfl rfl (fun _ => rfl), by decide +kernel⟩,
   ⟨asked Op.ctrClear (leBytes 2 2047 ++ leBytes 2 2) {}, 0, 2047, 2, msg Op.ctrClear (leBytes 2 2047 ++ leBytes 2 2), asked_grants rfl rfl rfl (fun _ => rfl), by decide +kernel⟩,
   ⟨asked Op.ctrRead (leBytes 2 2047 ++ leBytes 2 1) {}, 0, 2047, 1, msg Op.ctrRead (leBytes 2 2047 ++ leBytes 2 1), asked_grants rfl rfl rfl (fun _ => rfl), by decide +kernel⟩,
   ⟨asked Op.ctrClear (leBytes 2 2047 ++ leBytes 2 1) {}, 0, 2047, 1, msg Op.ctrClear (leBytes 2 2047 ++ leBytes 2 1), asked_grants rfl rfl rfl (fun _ => rfl), by decide +kernel⟩,
   ⟨asked Op.ctrSplitsRead (leBytes 2 8192) {}, 0, 8192, _, _, msg Op.ctrSplitsRead (leBytes 2 8192), asked_grants rfl rfl rfl (fun _ => rfl), rfl, rfl, by decide +kernel⟩,
   ⟨asked Op.ctrSplitsRead (leBytes 2 8191 ++ [1#8, 0#8]) {} 255 255, 255, 8191, 1, _, msg Op.ctrSplitsRead (leBytes 2 8191 ++ [1#8, 0#8]), asked_grants rfl rfl rfl (by decide +kernel), rfl, by decide +kernel⟩,
   ⟨asked Op.ctrSplitsRead (leBytes 2 8191 ++ [1#8, 0#8]) {}, 0, 8191, 1, _, msg Op.ctrSplitsRead (leBytes 2 8191 ++ [1#8, 0#8]), asked_grants rfl rfl rfl (fun _ => rfl), rfl, by decide +kernel⟩,
   ⟨asked Op.ctrSplitsRead (leBytes 2 8191 ++ [1#8, 1#8]) {}, 0, 8191, 1, 1, msg Op.ctrSplitsRead (leBytes 2 8191 ++ [1#8, 1#8]), asked_grants rfl rfl rfl (fun _ => rfl), by decide +kernel⟩,
   ⟨asked Op.ctrStatRead (leBytes 2 65535) {}, 0, _, msg Op.ctrStatRead (leBytes 2 65535), asked_grants rfl rfl rfl (fun _ => rfl), rfl, by decide +kernel⟩,
   ⟨asked Op.ctrStatRead (leBytes 4 Stat.pfcUnmapped.id ++ leBytes 4 1) {}, 0, 1, msg Op.ctrStatRead (leBytes 4 Stat.pfcUnmapped.id ++ leBytes 4 1), Stat.pfcUnmapped, 1, asked_grants rfl rfl rfl (fun _ => rfl), by decide +kernel⟩,
   ⟨asked Op.ctrStatRead (leBytes 4 Stat.pfcUnmapped.id) {} 255 255, 255, _, msg Op.ctrStatRead (leBytes 4 Stat.pfcUnmapped.id), Stat.pfcUnmapped, asked_grants rfl rfl rfl (by decide +kernel), rfl, by intro n h; have h : some 1 = some n := h; cases h; decide, by decide +kernel⟩,
   ⟨asked Op.ctrStatRead (leBytes 4 Stat.pfcUnmapped.id) {}, 0, _, msg Op.ctrStatRead (leBytes 4 Stat.pfcUnmapped.id), Stat.pfcUnmapped, asked_grants rfl rfl rfl (fun _ => rfl), rfl, by intro n h; have h : some 1 = some n := h; cases h; decide, by decide +kernel⟩⟩

theorem meets_ImagesAreLoadedAndSwitched_1 :
    (∃ (s : State) (slot : Nat) (n : Nat) (a : Accepted), s.grants slot Op.imgStrideLoad a ∧ n = leAt a.payload 0 1 ∧ s.atLap n (leAt a.payload 4 4) = none)
    ∧ (∃ (s : State) (slot : Nat) (lap : Nat) (n : Nat) (a : Accepted), s.grants slot Op.imgStrideLoad a ∧ n = leAt a.payload 0 1 ∧ s.atLap n (leAt a.payload 4 4) = some lap ∧ (s.stride.loading = true ∨ s.stride.draining = true))
    ∧ (∃ (s : State) (slot : Nat) (lap : Nat) (n : Nat) (a : Accepted), s.grants slot Op.imgStrideLoad a ∧ n = leAt a.payload 0 1 ∧ s.atLap n (leAt a.payload 4 4) = some lap ∧ s.stride.loading = false ∧ s.stride.draining = false ∧ s.running.length < 32)
    ∧ (∃ (s : State) (j : Job) (at_ : Bool) (ok : Bool) (lap : Nat) (l : List Byte), j.kind = .strideLoad at_ lap ok l ∧ j.abort = false ∧ (j.done = 0 ∨ (j.done = 1 ∧ s.cmacFree = true ∧ s.digests j = false) ∨ (j.done = 2 ∧ ok = true) ∨ (j.done = 3 ∧ strideImage l ≠ none)))
    ∧ (∃ (s : State) (j : Job) (at_ : Bool) (ok : Bool) (lap : Nat) (l : List Byte), j.kind = .strideLoad at_ lap ok l ∧ j.abort = false ∧ j.done = 1 ∧ (s.cmacFree = false ∨ s.digests j = true))
    ∧ (∃ (j : Job) (at_ : Bool) (ok : Bool) (lap : Nat) (l : List Byte), j.kind = .strideLoad at_ lap ok l ∧ j.abort = false ∧ j.done = 2 ∧ ok = false)
    ∧ (∃ (j : Job) (at_ : Bool) (ok : Bool) (lap : Nat) (l : List Byte), j.kind = .strideLoad at_ lap ok l ∧ j.abort = false ∧ j.done = 3 ∧ strideImage l = none)
    ∧ (∃ (s : State) (j : Job) (at_ : Bool) (ok : Bool) (lap : Nat) (l : List Byte) (img : _), j.kind = .strideLoad at_ lap ok l ∧ j.abort = false ∧ j.done = 4 ∧ strideImage l = some img ∧ s.stride.draining = false)
    ∧ (∃ (s : State) (slot : Nat) (lap : Nat) (a : Accepted), s.grants slot Op.imgStrideSwitch a ∧ s.atLap (leAt a.payload 0 1) (leAt a.payload 4 4) = some lap ∧ s.stride.standbyValid = false)
    ∧ (∃ (s : State) (slot : Nat) (lap : Nat) (a : Accepted), s.grants slot Op.imgStrideSwitch a ∧ s.atLap (leAt a.payload 0 1) (leAt a.payload 4 4) = some lap ∧ s.stride.standbyValid = true)
    ∧ (∃ (s : State) (lap : Nat), s.stride.switchAt = some lap ∧ later 32 lap s.lap = true)
    ∧ (∃ (s : State) (lap : Nat), s.stride.switchAt = some lap ∧ later 32 lap s.lap = false) :=
  ⟨⟨asked Op.imgStrideLoad ([2#8]) {}, 0, 2, msg Op.imgStrideLoad ([2#8]), asked_grants rfl rfl rfl (fun _ => rfl), by decide +kernel⟩,
   ⟨asked Op.imgStrideLoad ([]) { stride := { draining := true } }, 0, 1, _, msg Op.imgStrideLoad ([]), asked_grants rfl rfl rfl (fun _ => rfl), rfl, by decide +kernel⟩,
   ⟨asked Op.imgStrideLoad ([]) {}, 0, 1, _, msg Op.imgStrideLoad ([]), asked_grants rfl rfl rfl (fun _ => rfl), rfl, by decide +kernel⟩,
   ⟨{}, { session := 4, seq := 9, inst := 0, op := 0, kind := .strideLoad false 0 true [], done := 2 }, false, true, 0, [], by decide +kernel⟩,
   ⟨{ fault := { funcs := [(7, 0)] } }, { session := 4, seq := 9, inst := 0, op := 0, kind := .strideLoad false 0 true [], done := 1 }, false, true, 0, [], by decide +kernel⟩,
   ⟨{ session := 4, seq := 9, inst := 0, op := 0, kind := .strideLoad false 0 false [], done := 2 }, false, false, 0, [], by decide +kernel⟩,
   ⟨{ session := 4, seq := 9, inst := 0, op := 0, kind := .strideLoad false 0 true [], done := 3 }, false, true, 0, [], by decide +kernel⟩,
   (Option.isSome_iff_exists.mp (show (strideImage strideBytes).isSome = true by decide +kernel)).elim (fun img h => ⟨{}, { session := 4, seq := 9, inst := 0, op := 0, kind := .strideLoad false 0 true strideBytes, done := 4 }, false, true, 0, strideBytes, img, rfl, rfl, rfl, h, rfl⟩),
   ⟨asked Op.imgStrideSwitch ([]) {}, 0, 1, msg Op.imgStrideSwitch ([]), asked_grants rfl rfl rfl (fun _ => rfl), by decide +kernel⟩,
   ⟨asked Op.imgStrideSwitch ([]) { stride := { standbyValid := true } }, 0, 1, msg Op.imgStrideSwitch ([]), asked_grants rfl rfl rfl (fun _ => rfl), by decide +kernel⟩,
   ⟨{ stride := { switchAt := some 1 } }, 1, by decide +kernel⟩,
   ⟨{ stride := { switchAt := some 0 } }, 0, by decide +kernel⟩⟩

theorem meets_ImagesAreLoadedAndSwitched_2 :
    (∃ (s : State) (u : State) (g : Image), g = (if s.stride.cur then s.stride.bank1 else s.stride.bank0) ∧ u = s.drawn ∧ g.builtin = true)
    ∧ (∃ (s : State) (u : State) (g : Image), g = (if s.stride.cur then s.stride.bank1 else s.stride.bank0) ∧ u = s.drawn ∧ (u.boot.persist u.bootKey).stridePtr = 0 ∧ g.builtin = false)
    ∧ (∃ (s : State) (u : State) (g : Image), g = (if s.stride.cur then s.stride.bank1 else s.stride.bank0) ∧ u = s.drawn ∧ (u.boot.persist u.bootKey).stridePtr ≠ 0 ∧ g.builtin = false)
    ∧ (∃ (s : State), s.stride.draining = true ∧ s.bankHolds (!s.stride.cur) = true)
    ∧ (∃ (s : State), s.stride.draining = true ∧ s.bankHolds (!s.stride.cur) = false)
    ∧ (∃ (s : State) (slot : Nat) (seg : Nat) (total : Nat) (a : Accepted), s.grants slot Op.imgFwLoad a ∧ seg = leAt a.payload 0 2 ∧ total = leAt a.payload 2 2 ∧ (∃ j ∈ s.running, j.op = Op.imgFwLoad))
    ∧ (∃ (s : State) (u : State) (slot : Nat) (seg : Nat) (total : Nat) (a : Accepted), s.grants slot Op.imgFwLoad a ∧ seg = leAt a.payload 0 2 ∧ s.takeSegment fwTarget seg total (a.payload.drop 4) = .ok u ∧ total = leAt a.payload 2 2 ∧ (∀ j ∈ s.running, j.op ≠ Op.imgFwLoad) ∧ s.running.length < 32)
    ∧ (∃ (s : State) (j : Job) (svn : Nat) (ok : Bool) (u : State), u = s.endTransfer fwTarget ∧ ok = false ∧ j.kind = .fwLoad ok svn ∧ j.abort = false ∧ j.total = 2 ∧ j.done = 1)
    ∧ (∃ (s : State) (j : Job) (svn : Nat) (ok : Bool) (u : State), u = s.endTransfer fwTarget ∧ j.kind = .fwLoad ok svn ∧ j.abort = false ∧ j.total = 2 ∧ j.done = 1 ∧ ok = true ∧ (svn < s.boot.svnFloor ∨ fwSlotBytes < (s.mbx.transfer.at fwTarget).bytes.length))
    ∧ (∃ (s : State) (j : Job) (svn : Nat) (ok : Bool) (u : State), u = s.endTransfer fwTarget ∧ j.kind = .fwLoad ok svn ∧ j.abort = false ∧ j.total = 2 ∧ j.done = 1 ∧ ok = true ∧ s.boot.svnFloor ≤ svn ∧ (s.mbx.transfer.at fwTarget).bytes.length ≤ fwSlotBytes)
    ∧ (∃ (s : State) (slot : Nat) (a : Accepted), s.grants slot Op.imgFwActivate a ∧ s.boot.fwLoaded = none)
    ∧ (∃ (s : State) (slot : Nat) (a : Accepted) (b : _) (svn : _), s.grants slot Op.imgFwActivate a ∧ s.boot.fwLoaded = some (b, svn)) :=
  ⟨⟨{}, _, _, rfl, rfl, by decide +kernel⟩,
   ⟨{ stride := { bank0 := { builtin := false } }, boot := sealedPer 0 }, _, _, rfl, rfl, by exact sealedPer_ptr 0, by decide +kernel⟩,
   ⟨{ stride := { bank0 := { builtin := false } }, boot := sealedPer 1 }, _, _, rfl, rfl, by exact (show ¬((sealedPer 1).persist []).stridePtr = 0 by rw [sealedPer_ptr]; decide), by decide +kernel⟩,
   ⟨{ pkt := [(3, { live := true, stage := .engine { bank := true } })], stride := { draining := true } }, by decide +kernel⟩,
   ⟨{ stride := { draining := true } }, by decide +kernel⟩,
   ⟨asked Op.imgFwLoad ([]) { mbx := { jobs := [{ session := 4, seq := 9, inst := 0, op := Op.imgFwLoad, kind := .fwLoad false 0 }] } }, 0, _, _, msg Op.imgFwLoad ([]), asked_grants rfl rfl rfl (fun _ => rfl), rfl, rfl, by decide +kernel⟩,
   ⟨asked Op.imgFwLoad (leBytes 2 0 ++ leBytes 2 1) {}, _, 0, _, 1, msg Op.imgFwLoad (leBytes 2 0 ++ leBytes 2 1), asked_grants rfl rfl rfl (fun _ => rfl), rfl, by rfl, by decide +kernel⟩,
   ⟨{}, { session := 4, seq := 9, inst := 0, op := 0, kind := .fwLoad false 0, total := 2, done := 1 }, 0, _, _, rfl, rfl, by decide +kernel⟩,
   ⟨{ boot := { svnFloor := 1 } }, { session := 4, seq := 9, inst := 0, op := 0, kind := .fwLoad true 0, total := 2, done := 1 }, 0, true, _, rfl, by decide +kernel⟩,
   ⟨{ boot := { svnFloor := 1 } }, { session := 4, seq := 9, inst := 0, op := 0, kind := .fwLoad true 1, total := 2, done := 1 }, 1, true, _, rfl, by decide +kernel⟩,
   ⟨asked Op.imgFwActivate ([]) {}, 0, msg Op.imgFwActivate ([]), asked_grants rfl rfl rfl (fun _ => rfl), by decide +kernel⟩,
   ⟨asked Op.imgFwActivate ([]) { boot := { fwLoaded := some (true, 1) } }, 0, msg Op.imgFwActivate ([]), true, 1, asked_grants rfl rfl rfl (fun _ => rfl), by decide +kernel⟩⟩

theorem meets_ImagesAreLoadedAndSwitched_3 :
    (∃ (b : Boot) (key : List Byte) (h : BootHdr) (r : BootHdr), r = BootHdr.seal { h with valid := true, writeSeq := ((b.header key).writeSeq + 1) % 2 ^ 32 } key ∧ (b.headerOne key = true ∨ b.hdr0.good key = false))
    ∧ (∃ (b : Boot) (key : List Byte) (h : BootHdr) (r : BootHdr), r = BootHdr.seal { h with valid := true, writeSeq := ((b.header key).writeSeq + 1) % 2 ^ 32 } key ∧ b.hdr0.good key = true ∧ b.headerOne key = false)
    ∧ (∃ (s : State), (s.boot.header s.sec.keys.boot).valid = true)
    ∧ (∃ (s : State) (slot : Nat) (core : Nat) (t : Nat) (a : Accepted), s.grants slot Op.imgAppletStop a ∧ core = leAt a.payload 0 1 ∧ t = leAt a.payload 1 1 ∧ appletOk core t = true)
    ∧ (∃ (s : State) (slot : Nat) (core : Nat) (t : Nat) (a : Accepted) (seg : Nat) (total : Nat), s.grants slot Op.imgAppletLoad a ∧ seg = leAt a.payload 2 2 ∧ total = leAt a.payload 4 2 ∧ core = leAt a.payload 0 1 ∧ t = leAt a.payload 1 1 ∧ appletOk core t = true ∧ bit (s.par P.appletEnable core) (t - 6) = false)
    ∧ (∃ (s : State) (slot : Nat) (core : Nat) (t : Nat) (a : Accepted) (u : State) (seg : Nat) (total : Nat), s.grants slot Op.imgAppletLoad a ∧ seg = leAt a.payload 2 2 ∧ (∀ j ∈ s.running, ∀ b, j.kind ≠ .appletLoad core t b) ∧ s.takeSegment (appletTarget core t) seg total (a.payload.drop 6) = .ok u ∧ core = leAt a.payload 0 1 ∧ t = leAt a.payload 1 1 ∧ appletOk core t = true ∧ total = leAt a.payload 4 2 ∧ bit (s.par P.appletEnable core) (t - 6) = true ∧ s.running.length < 32 ∧ seg + 1 ≠ total)
    ∧ (∃ (s : State) (slot : Nat) (core : Nat) (t : Nat) (a : Accepted) (u : State) (seg : Nat) (total : Nat), s.grants slot Op.imgAppletLoad a ∧ seg = leAt a.payload 2 2 ∧ (∀ j ∈ s.running, ∀ b, j.kind ≠ .appletLoad core t b) ∧ s.takeSegment (appletTarget core t) seg total (a.payload.drop 6) = .ok u ∧ core = leAt a.payload 0 1 ∧ t = leAt a.payload 1 1 ∧ appletOk core t = true ∧ total = leAt a.payload 4 2 ∧ bit (s.par P.appletEnable core) (t - 6) = true ∧ s.running.length < 32 ∧ seg + 1 = total)
    ∧ (∃ (s : State) (u : State) (j : Job) (core : Nat) (t : Nat) (ok : Bool), u = s.endTransfer (appletTarget core t) ∧ j.kind = .appletLoad core t ok ∧ j.abort = false ∧ j.total = 2 ∧ j.done = 1 ∧ ok = false)
    ∧ (∃ (s : State) (u : State) (j : Job) (core : Nat) (t : Nat) (ok : Bool), u = s.endTransfer (appletTarget core t) ∧ j.kind = .appletLoad core t ok ∧ j.abort = false ∧ j.total = 2 ∧ j.done = 1 ∧ ok = true ∧ bit (s.par P.appletEnable core) (t - 6) = false)
    ∧ (∃ (s : State) (u : State) (j : Job) (core : Nat) (t : Nat) (ok : Bool), u = s.endTransfer (appletTarget core t) ∧ j.kind = .appletLoad core t ok ∧ j.abort = false ∧ j.total = 2 ∧ j.done = 1 ∧ ok = true ∧ bit (s.par P.appletEnable core) (t - 6) = true)
    ∧ (∃ (s : State) (slot : Nat) (a : Accepted), s.grants slot Op.imgStatus a) :=
  ⟨⟨{}, [], {}, _, rfl, by decide +kernel⟩,
   ⟨sealedHdr, sessionKey, {}, _, rfl, by exact BootHdr.seal_good _ _ (by decide +kernel), by decide +kernel⟩,
   ⟨{ boot := sealedHdr, sec := { keys := { boot := sessionKey } } }, by exact sealedHdr_valid⟩,
   ⟨asked Op.imgAppletStop ([3#8, 7#8]) {}, 0, 3, 7, msg Op.imgAppletStop ([3#8, 7#8]), asked_grants rfl rfl rfl (fun _ => rfl), by decide +kernel⟩,
   ⟨asked Op.imgAppletLoad ([3#8, 7#8] ++ leBytes 4 0) {}, 0, 3, 7, msg Op.imgAppletLoad ([3#8, 7#8] ++ leBytes 4 0), _, _, asked_grants rfl rfl rfl (fun _ => rfl), rfl, rfl, by decide +kernel⟩,
   ⟨asked Op.imgAppletLoad ([3#8, 7#8] ++ leBytes 2 0 ++ leBytes 2 2) { cfg := { active := bank [(P.appletEnable, 3, 3)] } }, 0, 3, 7, msg Op.imgAppletLoad ([3#8, 7#8] ++ leBytes 2 0 ++ leBytes 2 2), _, _, 2, asked_grants rfl rfl rfl (fun _ => rfl), rfl, by intro j hj; exact absurd (show j ∈ ([] : List Job) from hj) List.not_mem_nil, by rfl, by decide +kernel⟩,
   ⟨asked Op.imgAppletLoad ([3#8, 7#8] ++ leBytes 2 0 ++ leBytes 2 1) { cfg := { active := bank [(P.appletEnable, 3, 3)] } }, 0, 3, 7, msg Op.imgAppletLoad ([3#8, 7#8] ++ leBytes 2 0 ++ leBytes 2 1), _, _, 1, asked_grants rfl rfl rfl (fun _ => rfl), rfl, by intro j hj; exact absurd (show j ∈ ([] : List Job) from hj) List.not_mem_nil, by rfl, by decide +kernel⟩,
   ⟨{}, _, { session := 4, seq := 9, inst := 0, op := 0, kind := .appletLoad 3 7 false, total := 2, done := 1 }, 3, 7, false, rfl, by decide +kernel⟩,
   ⟨{}, _, { session := 4, seq := 9, inst := 0, op := 0, kind := .appletLoad 3 7 true, total := 2, done := 1 }, 3, 7, true, rfl, by decide +kernel⟩,
   ⟨{ cfg := { active := bank [(P.appletEnable, 3, 3)] } }, _, { session := 4, seq := 9, inst := 0, op := 0, kind := .appletLoad 3 7 true, total := 2, done := 1 }, 3, 7, true, rfl, by decide +kernel⟩,
   ⟨asked Op.imgStatus ([]) {}, 0, msg Op.imgStatus ([]), asked_grants rfl rfl rfl (fun _ => rfl)⟩⟩

theorem meets_DiagnosticsNeedTheirToken_1 :
    (∃ (s : State) (slot : Nat) (sc : Nat) (d : Nat) (a : Accepted), s.grants slot Op.diagDebugUnlock a ∧ sc = leAt a.payload 0 1 ∧ d = leAt a.payload 4 4 ∧ (8 ≤ sc ∨ d < 1 ∨ 86400 < d))
    ∧ (∃ (s : State) (slot : Nat) (sc : Nat) (d : Nat) (a : Accepted), s.grants slot Op.diagDebugUnlock a ∧ sc = leAt a.payload 0 1 ∧ d = leAt a.payload 4 4 ∧ sc < 8 ∧ 1 ≤ d ∧ d ≤ 86400)
    ∧ (∃ (s : State) (slot : Nat) (a : Accepted), s.grants slot Op.diagDebugEnd a)
    ∧ (∃ (s : State) (slot : Nat) (a : Accepted), s.grants slot Op.diagThreadCtl a ∧ s.hasToken a.session 0 = false)
    ∧ (∃ (s : State) (slot : Nat) (a : Accepted), s.grants slot Op.diagStrideTrace a ∧ s.hasToken a.session 1 = false)
    ∧ (∃ (s : State) (slot : Nat) (core : Nat) (th : Nat) (op : Nat) (t : Nat) (a : Accepted), s.grants slot Op.diagThreadCtl a ∧ op = leAt a.payload 2 1 ∧ s.hasToken a.session 0 = true ∧ core = leAt a.payload 0 1 ∧ th = leAt a.payload 1 1 ∧ core < 4 ∧ th < 8 ∧ op < 4 ∧ t = 8 * core + th ∧ ((s.thread t).st = 0 ∨ (op = 1 ∧ (s.thread t).st ≠ 3)))
    ∧ (∃ (s : State) (slot : Nat) (core : Nat) (th : Nat) (op : Nat) (t : Nat) (a : Accepted), s.grants slot Op.diagThreadCtl a ∧ op = leAt a.payload 2 1 ∧ s.hasToken a.session 0 = true ∧ core = leAt a.payload 0 1 ∧ th = leAt a.payload 1 1 ∧ core < 4 ∧ th < 8 ∧ op < 4 ∧ t = 8 * core + th ∧ op = 0 ∧ (s.thread t).st = 3)
    ∧ (∃ (s : State) (slot : Nat) (core : Nat) (th : Nat) (op : Nat) (t : Nat) (a : Accepted), s.grants slot Op.diagThreadCtl a ∧ s.hasToken a.session 0 = true ∧ core = leAt a.payload 0 1 ∧ th = leAt a.payload 1 1 ∧ op = leAt a.payload 2 1 ∧ core < 4 ∧ th < 8 ∧ op < 4 ∧ t = 8 * core + th ∧ op = 1 ∧ (s.thread t).st = 3)
    ∧ (∃ (s : State) (slot : Nat) (core : Nat) (th : Nat) (op : Nat) (t : Nat) (a : Accepted), s.grants slot Op.diagThreadCtl a ∧ s.hasToken a.session 0 = true ∧ core = leAt a.payload 0 1 ∧ th = leAt a.payload 1 1 ∧ op = leAt a.payload 2 1 ∧ core < 4 ∧ th < 8 ∧ op < 4 ∧ t = 8 * core + th ∧ op = 3 ∧ (s.thread t).st ≠ 0)
    ∧ (∃ (s : State) (slot : Nat) (core : Nat) (th : Nat) (op : Nat) (t : Nat) (a : Accepted), s.grants slot Op.diagThreadCtl a ∧ op = leAt a.payload 2 1 ∧ s.hasToken a.session 0 = true ∧ core = leAt a.payload 0 1 ∧ th = leAt a.payload 1 1 ∧ core < 4 ∧ th < 8 ∧ op < 4 ∧ t = 8 * core + th ∧ op = 0 ∧ ((s.thread t).st = 1 ∨ (s.thread t).st = 2))
    ∧ (∃ (s : State) (slot : Nat) (core : Nat) (th : Nat) (op : Nat) (t : Nat) (a : Accepted), s.grants slot Op.diagThreadCtl a ∧ s.hasToken a.session 0 = true ∧ core = leAt a.payload 0 1 ∧ th = leAt a.payload 1 1 ∧ op = leAt a.payload 2 1 ∧ core < 4 ∧ th < 8 ∧ op < 4 ∧ t = 8 * core + th ∧ op = 2 ∧ (s.thread t).st = 3 ∧ (s.thread t).before = 2) :=
  ⟨⟨asked Op.diagDebugUnlock (leBytes 4 7 ++ leBytes 4 86401) {}, 0, 7, 86401, msg Op.diagDebugUnlock (leBytes 4 7 ++ leBytes 4 86401), asked_grants rfl rfl rfl (fun _ => rfl), by decide +kernel⟩,
   ⟨asked Op.diagDebugUnlock (leBytes 4 7 ++ leBytes 4 86400) {}, 0, 7, 86400, msg Op.diagDebugUnlock (leBytes 4 7 ++ leBytes 4 86400), asked_grants rfl rfl rfl (fun _ => rfl), by decide +kernel⟩,
   ⟨asked Op.diagDebugEnd ([3#8, 7#8]) {}, 0, msg Op.diagDebugEnd ([3#8, 7#8]), asked_grants rfl rfl rfl (fun _ => rfl)⟩,
   ⟨asked Op.diagThreadCtl ([3#8, 7#8]) {}, 0, msg Op.diagThreadCtl ([3#8, 7#8]), asked_grants rfl rfl rfl (fun _ => rfl), by decide +kernel⟩,
   ⟨asked Op.diagStrideTrace ([3#8, 7#8]) {}, 0, msg Op.diagStrideTrace ([3#8, 7#8]), asked_grants rfl rfl rfl (fun _ => rfl), by decide +kernel⟩,
   ⟨asked Op.diagThreadCtl ([3#8, 7#8]) { mbx := { tokens := [{ session := 255, scope := 7, endAt := 9 }] } }, 0, 3, 7, _, 31, msg Op.diagThreadCtl ([3#8, 7#8]), asked_grants rfl rfl rfl (fun _ => rfl), rfl, by decide +kernel⟩,
   ⟨asked Op.diagThreadCtl ([3#8, 7#8]) { mbx := { tokens := [{ session := 255, scope := 7, endAt := 9 }] }, pacer := { thread := [(31, { st := 3 })] } }, 0, 3, 7, _, 31, msg Op.diagThreadCtl ([3#8, 7#8]), asked_grants rfl rfl rfl (fun _ => rfl), rfl, by decide +kernel⟩,
   ⟨asked Op.diagThreadCtl ([3#8, 7#8, 1#8]) { mbx := { tokens := [{ session := 255, scope := 7, endAt := 9 }] }, pacer := { thread := [(31, { st := 3 })] } }, 0, 3, 7, 1, 31, msg Op.diagThreadCtl ([3#8, 7#8, 1#8]), asked_grants rfl rfl rfl (fun _ => rfl), by decide +kernel⟩,
   ⟨asked Op.diagThreadCtl ([3#8, 7#8, 3#8]) { mbx := { tokens := [{ session := 255, scope := 7, endAt := 9 }] }, pacer := { thread := [(31, { st := 3 })] } }, 0, 3, 7, 3, 31, msg Op.diagThreadCtl ([3#8, 7#8, 3#8]), asked_grants rfl rfl rfl (fun _ => rfl), by decide +kernel⟩,
   ⟨asked Op.diagThreadCtl ([3#8, 7#8]) { mbx := { tokens := [{ session := 255, scope := 7, endAt := 9 }] }, pacer := { thread := [(31, { st := 2 })] } }, 0, 3, 7, _, 31, msg Op.diagThreadCtl ([3#8, 7#8]), asked_grants rfl rfl rfl (fun _ => rfl), rfl, by decide +kernel⟩,
   ⟨asked Op.diagThreadCtl ([3#8, 7#8, 2#8]) { mbx := { tokens := [{ session := 255, scope := 7, endAt := 9 }] }, pacer := { thread := [(31, { st := 3, before := 2 })] } }, 0, 3, 7, 2, 31, msg Op.diagThreadCtl ([3#8, 7#8, 2#8]), asked_grants rfl rfl rfl (fun _ => rfl), by decide +kernel⟩⟩

theorem meets_DiagnosticsNeedTheirToken_2 :
    (∃ (s : State) (slot : Nat) (core : Nat) (th : Nat) (op : Nat) (t : Nat) (a : Accepted), s.grants slot Op.diagThreadCtl a ∧ s.hasToken a.session 0 = true ∧ core = leAt a.payload 0 1 ∧ th = leAt a.payload 1 1 ∧ op = leAt a.payload 2 1 ∧ core < 4 ∧ th < 8 ∧ op < 4 ∧ t = 8 * core + th ∧ op = 2 ∧ (s.thread t).st = 3 ∧ (s.thread t).before = 1)
    ∧ (∃ (s : State) (slot : Nat) (core : Nat) (th : Nat) (op : Nat) (t : Nat) (a : Accepted), s.grants slot Op.diagThreadCtl a ∧ s.hasToken a.session 0 = true ∧ core = leAt a.payload 0 1 ∧ th = leAt a.payload 1 1 ∧ op = leAt a.payload 2 1 ∧ core < 4 ∧ th < 8 ∧ op < 4 ∧ t = 8 * core + th ∧ op = 2 ∧ ((s.thread t).st = 1 ∨ (s.thread t).st = 2))
    ∧ (∃ (s : State) (slot : Nat) (a : Accepted), s.grants slot Op.diagThreadCtl a ∧ s.hasToken a.session 0 = true ∧ (4 ≤ leAt a.payload 0 1 ∨ 8 ≤ leAt a.payload 1 1 ∨ 4 ≤ leAt a.payload 2 1))
    ∧ (∃ (s : State) (slot : Nat) (a : Accepted), s.grants slot Op.diagStrideTrace a ∧ s.hasToken a.session 1 = true ∧ (16 ≤ leAt a.payload 0 1 ∨ 2 ≤ leAt a.payload 1 1 ∨ 3 ≤ leAt a.payload 2 1))
    ∧ (∃ (s : State) (slot : Nat) (e : Nat) (p : Nat) (g : Nat) (op : Nat) (a : Accepted), s.grants slot Op.diagStrideTrace a ∧ s.hasToken a.session 1 = true ∧ p = leAt a.payload 0 1 ∧ g = leAt a.payload 1 1 ∧ op = leAt a.payload 2 1 ∧ p < 16 ∧ g < 2 ∧ e = 2 * p + g ∧ op = 1)
    ∧ (∃ (s : State) (slot : Nat) (e : Nat) (p : Nat) (g : Nat) (op : Nat) (a : Accepted), s.grants slot Op.diagStrideTrace a ∧ s.hasToken a.session 1 = true ∧ p = leAt a.payload 0 1 ∧ g = leAt a.payload 1 1 ∧ op = leAt a.payload 2 1 ∧ p < 16 ∧ g < 2 ∧ e = 2 * p + g ∧ op = 2)
    ∧ (∃ (s : State) (slot : Nat) (e : Nat) (p : Nat) (g : Nat) (op : Nat) (a : Accepted), s.grants slot Op.diagStrideTrace a ∧ op = leAt a.payload 2 1 ∧ s.hasToken a.session 1 = true ∧ p = leAt a.payload 0 1 ∧ g = leAt a.payload 1 1 ∧ p < 16 ∧ g < 2 ∧ e = 2 * p + g ∧ op = 0 ∧ s.stride.captured.at e = none ∧ s.stride.trace.at e = false)
    ∧ (∃ (s : State) (slot : Nat) (e : Nat) (p : Nat) (g : Nat) (op : Nat) (a : Accepted) (c : _), s.grants slot Op.diagStrideTrace a ∧ op = leAt a.payload 2 1 ∧ s.hasToken a.session 1 = true ∧ p = leAt a.payload 0 1 ∧ g = leAt a.payload 1 1 ∧ p < 16 ∧ g < 2 ∧ e = 2 * p + g ∧ op = 0 ∧ s.stride.captured.at e = some c)
    ∧ (∃ (s : State) (slot : Nat) (e : Nat) (p : Nat) (g : Nat) (op : Nat) (a : Accepted), s.grants slot Op.diagStrideTrace a ∧ op = leAt a.payload 2 1 ∧ s.hasToken a.session 1 = true ∧ p = leAt a.payload 0 1 ∧ g = leAt a.payload 1 1 ∧ p < 16 ∧ g < 2 ∧ e = 2 * p + g ∧ op = 0 ∧ s.stride.captured.at e = none ∧ s.stride.trace.at e = true ∧ s.time.mono < a.at_ + 2 * s.lapNs)
    ∧ (∃ (s : State) (slot : Nat) (e : Nat) (p : Nat) (g : Nat) (op : Nat) (a : Accepted), s.grants slot Op.diagStrideTrace a ∧ op = leAt a.payload 2 1 ∧ s.hasToken a.session 1 = true ∧ p = leAt a.payload 0 1 ∧ g = leAt a.payload 1 1 ∧ p < 16 ∧ g < 2 ∧ e = 2 * p + g ∧ op = 0 ∧ s.stride.captured.at e = none ∧ s.stride.trace.at e = true ∧ a.at_ + 2 * s.lapNs ≤ s.time.mono)
    ∧ (∃ (s : State) (slot : Nat) (p : Nat) (m : Nat) (a : Accepted) (u : State), s.grants slot Op.diagLoopback a ∧ u = s.updPort p (fun x => { x with loopback := m }) ∧ p = leAt a.payload 0 2 ∧ m = leAt a.payload 2 1 ∧ s.portCheck (slotInst slot) p = 0 ∧ 3 ≤ m) :=
  ⟨⟨asked Op.diagThreadCtl ([3#8, 7#8, 2#8]) { mbx := { tokens := [{ session := 255, scope := 7, endAt := 9 }] }, pacer := { thread := [(31, { st := 3, before := 1 })] } }, 0, 3, 7, 2, 31, msg Op.diagThreadCtl ([3#8, 7#8, 2#8]), asked_grants rfl rfl rfl (fun _ => rfl), by decide +kernel⟩,
   ⟨asked Op.diagThreadCtl ([3#8, 7#8, 2#8]) { mbx := { tokens := [{ session := 255, scope := 7, endAt := 9 }] }, pacer := { thread := [(31, { st := 2 })] } }, 0, 3, 7, 2, 31, msg Op.diagThreadCtl ([3#8, 7#8, 2#8]), asked_grants rfl rfl rfl (fun _ => rfl), by decide +kernel⟩,
   ⟨asked Op.diagThreadCtl ([4#8, 7#8]) { mbx := { tokens := [{ session := 255, scope := 7, endAt := 9 }] } }, 0, msg Op.diagThreadCtl ([4#8, 7#8]), asked_grants rfl rfl rfl (fun _ => rfl), by decide +kernel⟩,
   ⟨asked Op.diagStrideTrace ([16#8]) { mbx := { tokens := [{ session := 255, scope := 7, endAt := 9 }] } }, 0, msg Op.diagStrideTrace ([16#8]), asked_grants rfl rfl rfl (fun _ => rfl), by decide +kernel⟩,
   ⟨asked Op.diagStrideTrace ([15#8, 1#8, 1#8]) { mbx := { tokens := [{ session := 255, scope := 7, endAt := 9 }] } }, 0, 31, 15, 1, 1, msg Op.diagStrideTrace ([15#8, 1#8, 1#8]), asked_grants rfl rfl rfl (fun _ => rfl), by decide +kernel⟩,
   ⟨asked Op.diagStrideTrace ([15#8, 1#8, 2#8]) { mbx := { tokens := [{ session := 255, scope := 7, endAt := 9 }] } }, 0, 31, 15, 1, 2, msg Op.diagStrideTrace ([15#8, 1#8, 2#8]), asked_grants rfl rfl rfl (fun _ => rfl), by decide +kernel⟩,
   ⟨asked Op.diagStrideTrace ([15#8, 1#8]) { mbx := { tokens := [{ session := 255, scope := 7, endAt := 9 }] } }, 0, 31, 15, 1, _, msg Op.diagStrideTrace ([15#8, 1#8]), asked_grants rfl rfl rfl (fun _ => rfl), rfl, by decide +kernel⟩,
   ⟨asked Op.diagStrideTrace ([15#8, 1#8]) { stride := { captured := [(31, some (0, 0, 0, 0))] }, mbx := { tokens := [{ session := 255, scope := 7, endAt := 9 }] } }, 0, 31, 15, 1, _, msg Op.diagStrideTrace ([15#8, 1#8]), (0, 0, 0, 0), asked_grants rfl rfl rfl (fun _ => rfl), rfl, by decide +kernel⟩,
   ⟨asked Op.diagStrideTrace ([15#8, 1#8]) { time := { mono := 499999 }, stride := { trace := [(31, true)] }, mbx := { tokens := [{ session := 255, scope := 7, endAt := 9 }] } }, 0, 31, 15, 1, _, msg Op.diagStrideTrace ([15#8, 1#8]), asked_grants rfl rfl rfl (fun _ => rfl), rfl, by decide +kernel⟩,
   ⟨asked Op.diagStrideTrace ([15#8, 1#8]) { time := { mono := 500000 }, stride := { trace := [(31, true)] }, mbx := { tokens := [{ session := 255, scope := 7, endAt := 9 }] } }, 0, 31, 15, 1, _, msg Op.diagStrideTrace ([15#8, 1#8]), asked_grants rfl rfl rfl (fun _ => rfl), rfl, by decide +kernel⟩,
   ⟨asked Op.diagLoopback (leBytes 2 511 ++ [3#8]) {}, 0, 511, 3, msg Op.diagLoopback (leBytes 2 511 ++ [3#8]), _, asked_grants rfl rfl rfl (fun _ => rfl), rfl, by decide +kernel⟩⟩

theorem meets_DiagnosticsNeedTheirToken_3 :
    (∃ (s : State) (slot : Nat) (p : Nat) (m : Nat) (a : Accepted) (u : State), s.grants slot Op.diagLoopback a ∧ u = s.updPort p (fun x => { x with loopback := m }) ∧ p = leAt a.payload 0 2 ∧ m = leAt a.payload 2 1 ∧ s.portCheck (slotInst slot) p = 0 ∧ m < 3 ∧ u.isUp p = false)
    ∧ (∃ (s : State) (slot : Nat) (p : Nat) (m : Nat) (a : Accepted) (u : State), s.grants slot Op.diagLoopback a ∧ u = s.updPort p (fun x => { x with loopback := m }) ∧ p = leAt a.payload 0 2 ∧ m = leAt a.payload 2 1 ∧ s.portCheck (slotInst slot) p = 0 ∧ m < 3 ∧ u.isUp p = true)
    ∧ (∃ (s : State) (u : State) (slot : Nat) (a : Accepted), s.grants slot Op.diagReset a ∧ u = s.answers slot a ∧ 2 ≤ leAt a.payload 0 1)
    ∧ (∃ (s : State) (u : State) (slot : Nat) (a : Accepted), s.grants slot Op.diagReset a ∧ u = s.answers slot a ∧ leAt a.payload 0 1 = 0 ∧ (s.tags a { rstate := 0, status := 0 } && !s.cmacFree) = false ∧ (u.boot.booting = true ∨ u.fault.warm = true))
    ∧ (∃ (s : State) (u : State) (slot : Nat) (a : Accepted), s.grants slot Op.diagReset a ∧ u = s.answers slot a ∧ leAt a.payload 0 1 = 0 ∧ (s.tags a { rstate := 0, status := 0 } && !s.cmacFree) = false ∧ u.boot.booting = false ∧ u.fault.warm = false)
    ∧ (∃ (s : State) (u : State) (slot : Nat) (a : Accepted), s.grants slot Op.diagReset a ∧ u = s.answers slot a ∧ leAt a.payload 0 1 = 0 ∧ (s.tags a { rstate := 0, status := 0 } && !s.cmacFree) = true ∧ a.silent = false ∧ a.buf = none)
    ∧ (∃ (s : State) (u : State) (slot : Nat) (a : Accepted) (f : _) (k : _), s.grants slot Op.diagReset a ∧ u = s.answers slot a ∧ leAt a.payload 0 1 = 1 ∧ f = leAt a.payload 1 1 ∧ k = leAt a.payload 2 2 ∧ funcUnits f ≤ k)
    ∧ (∃ (s : State) (u : State) (slot : Nat) (a : Accepted) (f : _) (k : _), s.grants slot Op.diagReset a ∧ u = s.answers slot a ∧ leAt a.payload 0 1 = 1 ∧ f = leAt a.payload 1 1 ∧ k = leAt a.payload 2 2 ∧ k < funcUnits f ∧ (s.tags a { rstate := 0, status := 0 } && !s.cmacFree) = false ∧ (∀ g ∈ u.fault.funcs, covers g (f, k) = false))
    ∧ (∃ (s : State) (u : State) (slot : Nat) (a : Accepted) (f : _) (k : _), s.grants slot Op.diagReset a ∧ u = s.answers slot a ∧ leAt a.payload 0 1 = 1 ∧ f = leAt a.payload 1 1 ∧ k = leAt a.payload 2 2 ∧ k < funcUnits f ∧ (s.tags a { rstate := 0, status := 0 } && !s.cmacFree) = false ∧ (∃ g ∈ u.fault.funcs, covers g (f, k) = true))
    ∧ (∃ (s : State) (u : State) (slot : Nat) (a : Accepted) (f : _) (k : _), s.grants slot Op.diagReset a ∧ u = s.answers slot a ∧ leAt a.payload 0 1 = 1 ∧ f = leAt a.payload 1 1 ∧ k = leAt a.payload 2 2 ∧ k < funcUnits f ∧ (s.tags a { rstate := 0, status := 0 } && !s.cmacFree) = true ∧ a.silent = false ∧ a.buf = none) :=
  ⟨⟨asked Op.diagLoopback (leBytes 2 511 ++ [2#8]) {}, 0, 511, 2, msg Op.diagLoopback (leBytes 2 511 ++ [2#8]), _, asked_grants rfl rfl rfl (fun _ => rfl), rfl, by decide +kernel⟩,
   ⟨asked Op.diagLoopback (leBytes 2 511 ++ [2#8]) { port := [(511, { link := .up })] }, 0, 511, 2, msg Op.diagLoopback (leBytes 2 511 ++ [2#8]), _, asked_grants rfl rfl rfl (fun _ => rfl), rfl, by decide +kernel⟩,
   ⟨asked Op.diagReset ([2#8]) {}, _, 0, msg Op.diagReset ([2#8]), asked_grants rfl rfl rfl (fun _ => rfl), rfl, by decide +kernel⟩,
   ⟨asked Op.diagReset ([0#8]) { boot := { stage := 1 } }, _, 0, msg Op.diagReset ([0#8]), asked_grants rfl rfl rfl (fun _ => rfl), rfl, by decide +kernel⟩,
   ⟨asked Op.diagReset ([0#8]) {}, _, 0, msg Op.diagReset ([0#8]), asked_grants rfl rfl rfl (fun _ => rfl), rfl, by decide +kernel⟩,
   ⟨asked Op.diagReset ([0#8]) { fault := { funcs := [(7, 0)] }, mbx := { session := [(4, { st := 2 })] } } 4, _, 0, msg Op.diagReset ([0#8]) 4, asked_grants rfl rfl rfl (fun _ => rfl), rfl, by decide +kernel⟩,
   ⟨asked Op.diagReset ([1#8, 1#8] ++ leBytes 2 512) {}, _, 0, msg Op.diagReset ([1#8, 1#8] ++ leBytes 2 512), 1, 512, asked_grants rfl rfl rfl (fun _ => rfl), rfl, by decide +kernel⟩,
   ⟨asked Op.diagReset ([1#8, 1#8] ++ leBytes 2 511) {}, _, 0, msg Op.diagReset ([1#8, 1#8] ++ leBytes 2 511), 1, 511, asked_grants rfl rfl rfl (fun _ => rfl), rfl, by decide +kernel⟩,
   ⟨asked Op.diagReset ([1#8, 1#8] ++ leBytes 2 511) { fault := { funcs := [(1, 511)] } }, _, 0, msg Op.diagReset ([1#8, 1#8] ++ leBytes 2 511), 1, 511, asked_grants rfl rfl rfl (fun _ => rfl), rfl, by decide +kernel⟩,
   ⟨asked Op.diagReset ([1#8, 1#8] ++ leBytes 2 511) { fault := { funcs := [(7, 0)] }, mbx := { session := [(4, { st := 2 })] } } 4, _, 0, msg Op.diagReset ([1#8, 1#8] ++ leBytes 2 511) 4, 1, 511, asked_grants rfl rfl rfl (fun _ => rfl), rfl, by decide +kernel⟩⟩

theorem meets_RegistersReadWhereTheyStand :
    (∃ (width : Nat), width ≠ 4)
    ∧ (∃ (width : Nat), width ≠ 4 ∧ width ≠ 8)
    ∧ (∃ (off : Nat), (off % 4 ≠ 0 ∨ (0 < off ∧ off < 0x10000) ∨ 0xD0004 ≤ off))
    ∧ (∃ (k : Nat), k < 512)
    ∧ (∃ (k : Nat), k < 256)
    ∧ (∃ (k : Nat), k < 128)
    ∧ (∃ (k : Nat), k < 64)
    ∧ (∃ (k : Nat), k < 32)
    ∧ (∃ (k : Nat), k < 6)
    ∧ (∃ (k : Nat), k < 4)
    ∧ (∃ (off : Nat), off < 4096)
    ∧ (∃ (i : Nat) (off : Nat), i < 64 ∧ off < 65536)
    ∧ (∃ (off : Nat), off < 0x400000)
    ∧ (∃ (off : Nat), 0xC00000 ≤ off) :=
  ⟨⟨8, by decide +kernel⟩,
   ⟨16, by decide +kernel⟩,
   ⟨0xD0004, by decide +kernel⟩,
   ⟨511, by decide +kernel⟩,
   ⟨255, by decide +kernel⟩,
   ⟨127, by decide +kernel⟩,
   ⟨63, by decide +kernel⟩,
   ⟨31, by decide +kernel⟩,
   ⟨5, by decide +kernel⟩,
   ⟨3, by decide +kernel⟩,
   ⟨4095, by decide +kernel⟩,
   ⟨63, 65535, by decide +kernel⟩,
   ⟨0x3FFFFF, by decide +kernel⟩,
   ⟨0xC00000, by decide +kernel⟩⟩

end Sys2Proof.Tests
end

section
/-! SUPPORT. Fields of a word written together: each reads as written, and a field apart from all of them keeps its value. -/
namespace Sys2Proof.Machine

/-- Two fields share no bit. -/
abbrev Field.apart (f g : Field) : Prop := f.lo + f.width ≤ g.lo ∨ g.lo + g.width ≤ f.lo

/-- Fields that are written leave a field apart from all of them as it was. -/
theorem get_putFields_other (g : Field) (l : List (Field × Nat)) (h : ∀ e ∈ l, e.1.apart g) (w : Nat) :
    g.get (putFields w l) = g.get w := by
  induction l generalizing w with
  | nil => rfl
  | cons e l ih =>
    obtain ⟨hhead, htail⟩ := List.forall_mem_cons.1 h
    calc g.get (putFields w (e :: l))
        = g.get (e.1.put e.2 w) := ih htail _
      _ = g.get w := Field.get_put_other _ _ _ _ hhead.symm

/-- Of fields that lie apart, each reads the value written into it. -/
theorem get_putFields_mem (l : List (Field × Nat)) (h : l.Pairwise (fun d e => d.1.apart e.1)) (w : Nat) :
    ∀ e ∈ l, e.1.get (putFields w l) = e.2 % 2 ^ e.1.width := by
  induction l generalizing w with
  | nil => exact fun _ he => absurd he List.not_mem_nil
  | cons d l ih =>
    obtain ⟨hhead, htail⟩ := List.pairwise_cons.1 h
    refine List.forall_mem_cons.2 ⟨?_, ih htail _⟩
    calc d.1.get (putFields w (d :: l))
        = d.1.get (d.1.put d.2 w) := get_putFields_other _ _ (fun e he => (hhead e he).symm) _
      _ = d.2 % 2 ^ d.1.width := Field.get_put_same _ _ _

/-- A field's value fits the field. -/
theorem Field.get_mod_width (f : Field) (w : Nat) : f.get w % 2 ^ f.width = f.get w := Nat.mod_mod _ _

/-- The state fields of a stream record lie apart (R173). -/
theorem streamState_apart : streamState.Pairwise Field.apart := by decide

end Sys2Proof.Machine
end

section
/-! SUPPORT. The replies of the record commands, check by check (R141, R142, R168 to R173, R555; log entry 69). -/
namespace Sys2Proof.Machine

/-! ### OBJ.WRITE: each lemma takes the checks before its own as passed -/

/-- A record that is no stream, or that the writer may give to its instance, is not another's stream. -/
theorem not_otherStream {kind inst owner : Nat} (h : kind ≠ K.stream ∨ inst = 0 ∨ owner = inst) :
    ¬(kind = K.stream ∧ inst ≠ 0 ∧ owner ≠ inst) :=
  fun ⟨hstream, hinst, howner⟩ => h.elim (· hstream) (·.elim hinst howner)

section objWrite
variable {s : State} {inst : Nat} {a : Accepted}

theorem objWrite_badKind (h : 5 ≤ a.kind) : s.objWrite inst a = .refuse E.range := if_pos h

variable (hkind : a.kind < 5)
include hkind

theorem objWrite_badLength (h : a.payload.length ≠ 8 + 24 * poolWords a.kind) : s.objWrite inst a = .refuse E.format := by
  simp [State.objWrite, Nat.not_le.2 hkind, h]

variable (hlen : a.payload.length = 8 + 24 * poolWords a.kind)
include hlen

theorem objWrite_badIndex (h : s.recordOk a = false ∨ noRecord a.kind a.index = true) : s.objWrite inst a = .refuse E.range := by
  simp [State.objWrite, Nat.not_le.2 hkind, hlen, h]

variable (hok : s.recordOk a = true) (hno : noRecord a.kind a.index = false)
include hok hno

theorem objWrite_frozen (h : s.frozen inst = true) : s.objWrite inst a = .refuse E.state := by
  simp [State.objWrite, Nat.not_le.2 hkind, hlen, hok, hno, h]

variable (hfr : s.frozen inst = false)
include hfr

theorem objWrite_inUse (h : (s.obj a.kind a.index).st = 1) : s.objWrite inst a = .refuse E.inUse := by
  simp [State.objWrite, Nat.not_le.2 hkind, hlen, hok, hno, hfr, h]

theorem objWrite_draining (h : (s.obj a.kind a.index).st = 2) : s.objWrite inst a = .refuse E.busy := by
  simp [State.objWrite, Nat.not_le.2 hkind, hlen, hok, hno, hfr, h]

variable (hfree : (s.obj a.kind a.index).st = 0)
include hfree

theorem objWrite_badWords (h : s.wordsOk a.kind (cleanWords a.kind a.words) = false) : s.objWrite inst a = .refuse E.range := by
  simp [State.objWrite, Nat.not_le.2 hkind, hlen, hok, hno, hfr, hfree, h]

variable (hw : s.wordsOk a.kind (cleanWords a.kind a.words) = true)
include hw

/-- With words in range, what is left to check is whose stream and which references the words name. -/
theorem objWrite_wordsInRange : s.objWrite inst a =
    if a.kind = K.stream ∧ inst ≠ 0 ∧ S.inst.get (cleanWords a.kind a.words) ≠ inst then .refuse E.notOwner
    else if s.refCheck inst (recordRefs a.kind (cleanWords a.kind a.words)) ≠ 0 then
      .refuse (s.refCheck inst (recordRefs a.kind (cleanWords a.kind a.words)))
    else .ok (s.setObj a.kind a.index
      { st := 1, words := cleanWords a.kind a.words, init := cleanWords a.kind a.words, owner := inst }) := by
  simp [State.objWrite, Nat.not_le.2 hkind, hlen, hok, hno, hfr, hfree, hw]

theorem objWrite_otherStream (hk : a.kind = K.stream) (hi : inst ≠ 0) (h : S.inst.get (cleanWords a.kind a.words) ≠ inst) :
    s.objWrite inst a = .refuse E.notOwner := by
  rw [objWrite_wordsInRange hkind hlen hok hno hfr hfree hw, if_pos ⟨hk, hi, h⟩]

variable (hown : a.kind ≠ K.stream ∨ inst = 0 ∨ S.inst.get (cleanWords a.kind a.words) = inst)
include hown

theorem objWrite_badRefs (h : s.refCheck inst (recordRefs a.kind (cleanWords a.kind a.words)) ≠ 0) :
    s.objWrite inst a = .refuse (s.refCheck inst (recordRefs a.kind (cleanWords a.kind a.words))) := by
  rw [objWrite_wordsInRange hkind hlen hok hno hfr hfree hw, if_neg (not_otherStream hown), if_pos h]

theorem objWrite_done (h : s.refCheck inst (recordRefs a.kind (cleanWords a.kind a.words)) = 0) :
    s.objWrite inst a = .ok (s.setObj a.kind a.index
      { st := 1, words := cleanWords a.kind a.words, init := cleanWords a.kind a.words, owner := inst }) := by
  rw [objWrite_wordsInRange hkind hlen hok hno hfr hfree hw, if_neg (not_otherStream hown), if_neg (not_not_intro h)]

end objWrite

/-! ### OBJ.DELETE -/

section objDelete
variable {s : State} {inst : Nat} {a : Accepted}

theorem objDelete_badIndex (h : s.recordOk a = false) : s.objDelete inst a = .refuse E.range := by
  simp [State.objDelete, h]

variable (hok : s.recordOk a = true)
include hok

theorem objDelete_free (h : (s.obj a.kind a.index).st = 0) : s.objDelete inst a = .refuse E.notFound := by
  simp [State.objDelete, hok, h]

section named
variable (hst : (s.obj a.kind a.index).st ≠ 0)
include hst

theorem objDelete_notOwner (h : owns inst (s.obj a.kind a.index).owner = false) : s.objDelete inst a = .refuse E.notOwner := by
  simp [State.objDelete, hok, hst, h]

theorem objDelete_frozen (hown : owns inst (s.obj a.kind a.index).owner = true) (h : s.frozen (s.obj a.kind a.index).owner = true) :
    s.objDelete inst a = .refuse E.state := by
  simp [State.objDelete, hok, hst, hown, h]

end named

variable (hown : owns inst (s.obj a.kind a.index).owner = true) (hfr : s.frozen (s.obj a.kind a.index).owner = false)
include hown hfr

theorem objDelete_draining (h : (s.obj a.kind a.index).st = 2) : s.objDelete inst a = .refuse E.busy := by
  simp [State.objDelete, hok, hown, hfr, h]

variable (hst : (s.obj a.kind a.index).st = 1)
include hst

theorem objDelete_referred (h : s.refsOf a.kind a.index ≠ 0) : s.objDelete inst a = .refuse E.inUse := by
  simp [State.objDelete, hok, hown, hfr, hst, h]

theorem objDelete_drains (h : s.refsOf a.kind a.index = 0) :
    s.objDelete inst a = .job (s.drainObj a.kind a.index) (.objDelete a.kind a.index) 1 := by
  simp [State.objDelete, hok, hown, hfr, hst, h]

end objDelete

/-- A record that drains keeps its words, and has its fence, its place among the deletes and its side bits. -/
theorem State.drainObj_obj (s : State) (kind index : Nat) :
    (s.drainObj kind index).obj kind index =
      { s.obj kind index with st := 2, fence := s.drainFence, del := s.tbl.dels, par := recordPar kind (s.obj kind index).words } :=
  s.setObj_obj kind index { s.obj kind index with st := 2, fence := s.drainFence, del := s.tbl.dels }

/-! ### OBJ.READ and STREAM.RESET -/

section objRead
variable {s : State} {inst : Nat} {a : Accepted}

theorem objRead_badIndex (h : s.recordOk a = false) : s.objRead inst a = .refuse E.range := by
  simp [State.objRead, h]

variable (hok : s.recordOk a = true)
include hok

theorem objRead_notOwner (hst : (s.obj a.kind a.index).st ≠ 0) (h : owns inst (s.obj a.kind a.index).owner = false) :
    s.objRead inst a = .refuse E.notOwner := by
  simp [State.objRead, hok, hst, h]

theorem objRead_done (h : (s.obj a.kind a.index).st = 0 ∨ owns inst (s.obj a.kind a.index).owner = true) :
    s.objRead inst a = .ok s (leBytes 4 (s.refsOf a.kind a.index) ++ leBytes 1 (s.obj a.kind a.index).st ++ leBytes 3 0
      ++ leBytes (24 * poolWords a.kind) (s.obj a.kind a.index).words) := by
  have hmine : ¬((s.obj a.kind a.index).st ≠ 0 ∧ owns inst (s.obj a.kind a.index).owner = false) := by
    rcases h with h | h <;> simp [h]
  simp [State.objRead, hok, hmine]

end objRead

/-- A stream record whose state fields are restored to what the host wrote (R173). -/
def State.restoreStream (s : State) (index : Nat) : State :=
  s.putObj K.stream index (streamState.map (fun f => (f, f.get (s.obj K.stream index).init)))

/-- A restored state field reads what the host wrote. -/
theorem State.restoreStream_state (s : State) (index : Nat) : ∀ f ∈ streamState,
    f.get ((s.restoreStream index).obj K.stream index).words = f.get (s.obj K.stream index).init := by
  intro f hf
  have hread := get_putFields_mem (streamState.map (fun f => (f, f.get (s.obj K.stream index).init)))
    (List.pairwise_map.2 streamState_apart) (s.obj K.stream index).words _ (List.mem_map_of_mem hf)
  rw [State.restoreStream, State.putObj_words, hread, Field.get_mod_width]

/-- A field apart from the state fields, as every counter is, stays. -/
theorem State.restoreStream_other (s : State) (index : Nat) (g : Field) (h : ∀ f ∈ streamState, f.apart g) :
    g.get ((s.restoreStream index).obj K.stream index).words = g.get (s.obj K.stream index).words := by
  rw [State.restoreStream, State.putObj_words, get_putFields_other g _ (List.forall_mem_map.2 h)]

section streamReset
variable {s : State} {inst : Nat} {a : Accepted}

theorem streamReset_badIndex (h : s.cfg.active.records K.stream ≤ leAt a.payload 0 2) : s.streamReset inst a = .refuse E.range := if_pos h

variable (hi : leAt a.payload 0 2 < s.cfg.active.records K.stream)
include hi

theorem streamReset_notInUse (h : (s.obj K.stream (leAt a.payload 0 2)).st ≠ 1) : s.streamReset inst a = .refuse E.notFound := by
  simp [State.streamReset, Nat.not_le.2 hi, h]

variable (hst : (s.obj K.stream (leAt a.payload 0 2)).st = 1)
include hst

theorem streamReset_notOwner (h : owns inst (s.obj K.stream (leAt a.payload 0 2)).owner = false) :
    s.streamReset inst a = .refuse E.notOwner := by
  simp [State.streamReset, Nat.not_le.2 hi, hst, h]

variable (hown : owns inst (s.obj K.stream (leAt a.payload 0 2)).owner = true)
include hown

theorem streamReset_frozen (h : s.frozen (s.obj K.stream (leAt a.payload 0 2)).owner = true) : s.streamReset inst a = .refuse E.state := by
  simp [State.streamReset, Nat.not_le.2 hi, hst, hown, h]

theorem streamReset_done (h : s.frozen (s.obj K.stream (leAt a.payload 0 2)).owner = false) :
    s.streamReset inst a = .ok (s.restoreStream (leAt a.payload 0 2)) := by
  simp [State.streamReset, State.restoreStream, Nat.not_le.2 hi, hst, hown, h]

end streamReset

end Sys2Proof.Machine
end

section
/-! O51: what the record commands and STREAM.RESET do. -/
namespace Sys2Proof.Machine

/-! ### The rows of the record commands serve their commands -/

theorem exec_objWrite (slot : Nat) (s : State) : exec (.objWrite slot) s = runs (serve slot Op.objWrite State.objWrite) s := rfl

theorem exec_objDelete (slot : Nat) (s : State) : exec (.objDelete slot) s = runs (serve slot Op.objDelete State.objDelete) s := rfl

theorem exec_objRead (slot : Nat) (s : State) : exec (.objRead slot) s = runs (serve slot Op.objRead State.objRead) s := rfl

theorem exec_streamReset (slot : Nat) (s : State) : exec (.streamReset slot) s = runs (serve slot Op.streamReset State.streamReset) s := rfl

/-- Settles O51: each clause is one reply of its command, carried out by the row that serves it. -/
theorem recordsAreWrittenAndDeleted : Obligations.RecordsAreWrittenAndDeleted := by
  unfold Obligations.RecordsAreWrittenAndDeleted
  simp only [exec_objWrite, exec_objDelete, exec_objRead, exec_streamReset]
  refine ⟨?write, ?delete, State.drainObj_obj, State.setObj_obj, ?readRefused, ?read, ?resetRange, ?reset⟩
  case write =>
    rintro s slot _ _ _ a hg rfl rfl rfl
    exact ⟨fun h => runs_refuses hg (objWrite_badKind h),
      fun hk h => runs_refuses hg (objWrite_badLength hk h),
      fun hk hl => ⟨fun h => runs_refuses hg (objWrite_badIndex hk hl h),
        fun hok hno h => runs_refuses hg (objWrite_frozen hk hl hok hno h)⟩,
      fun hk hl hok hno hfr => ⟨fun h => runs_refuses hg (objWrite_inUse hk hl hok hno hfr h),
        fun h => runs_refuses hg (objWrite_draining hk hl hok hno hfr h),
        fun h0 h => runs_refuses hg (objWrite_badWords hk hl hok hno hfr h0 h),
        fun h0 hw hs hi h => runs_refuses hg (objWrite_otherStream hk hl hok hno hfr h0 hw hs hi h),
        fun h0 hw ho h => runs_refuses hg (objWrite_badRefs hk hl hok hno hfr h0 hw ho h),
        fun h0 hw ho h => runs_answers hg (objWrite_done hk hl hok hno hfr h0 hw ho h)⟩⟩
  case delete =>
    rintro s slot _ _ a hg rfl rfl
    exact ⟨fun h => runs_refuses hg (objDelete_badIndex h),
      fun hok h => runs_refuses hg (objDelete_free hok h),
      fun hok hst h => runs_refuses hg (objDelete_notOwner hok hst h),
      fun hok hst hown => ⟨fun h => runs_refuses hg (objDelete_frozen hok hst hown h),
        fun hfr h => runs_refuses hg (objDelete_draining hok hown hfr h)⟩,
      fun hok hst hown hfr => ⟨fun h => runs_refuses hg (objDelete_referred hok hown hfr hst h),
        fun h h32 => runs_begins hg h32 (objDelete_drains hok hown hfr hst h)⟩⟩
  case readRefused =>
    rintro s slot _ _ a hg rfl rfl
    exact ⟨fun h => runs_refuses hg (objRead_badIndex h), fun hok hst h => runs_refuses hg (objRead_notOwner hok hst h)⟩
  case read =>
    rintro s slot _ _ a hg rfl rfl hok h
    exact runs_answers hg (objRead_done hok h)
  case resetRange =>
    exact fun s slot a hg h => runs_refuses hg (streamReset_badIndex h)
  case reset =>
    rintro s slot _ a _ hg rfl rfl hi
    have hstate := s.restoreStream_state (leAt a.payload 0 2)
    have hother := s.restoreStream_other (leAt a.payload 0 2)
    exact ⟨fun h => runs_refuses hg (streamReset_notInUse hi h),
      fun hst h => runs_refuses hg (streamReset_notOwner hi hst h),
      fun hst hown h => runs_refuses hg (streamReset_frozen hi hst hown h),
      fun hst hown h => ⟨s.restoreStream (leAt a.payload 0 2), runs_answers hg (streamReset_done hi hst hown h), rfl,
        hstate S.lastAccept (by decide), hstate S.seqValid (by decide), hstate S.blocked (by decide), hstate S.recovSeq (by decide),
        hstate S.history (by decide), hother S.passed (by decide), hother S.dupDiscards (by decide)⟩⟩

end Sys2Proof.Machine
end

section
/-! SUPPORT. The scheduler, the egress engine and the MAC, case by case (R60, R79, R102, R187, R193, R218, R240, R261). -/
namespace Sys2Proof.Machine

/-! ### A copy that is changed -/

theorem State.updCpy_at_same (s : State) (k : Nat) (f : Copy → Copy) : (s.updCpy k f).cpy.at k = f (s.cpy.at k) := Tab.at_upd_same _ _ _

theorem State.updCpy_at_other (s : State) {k m : Nat} (h : m ≠ k) (f : Copy → Copy) : (s.updCpy k f).cpy.at m = s.cpy.at m :=
  Tab.at_upd_other _ _ h

/-! ### SCHEDULER_SELECT -/

/-- The 32 ports of a pipe in the order of its round, from its pointer on (R218). -/
def portRound (pipe ptr : Nat) : List Nat := (List.range 32).map (fun i => 32 * pipe + (ptr + i) % 32)

theorem nodup_portRound (pipe ptr : Nat) : (portRound pipe ptr).Nodup := by
  refine List.pairwise_map.2 (List.nodup_range.imp_of_mem (fun {i j} hi hj hne h => hne ?_))
  rw [List.mem_range] at hi hj
  omega

theorem mem_portRound (ptr : Nat) {pipe p : Nat} (h : p / 32 = pipe) : p ∈ portRound pipe ptr :=
  List.mem_map.2 ⟨(p % 32 + 32 - ptr % 32) % 32, List.mem_range.2 (Nat.mod_lt _ (by decide)), by omega⟩

/-- The ports that a round of the pipe serves: those named that can begin, three at most (R218). -/
def State.served (s : State) (pipe : Nat) (ports : List Nat) : List Nat :=
  ((portRound pipe (s.sched.ptr.at pipe)).filter (fun p => ports.contains p && s.canBegin p)).take 3

theorem State.select_servesNone {s : State} {pipe : Nat} {ports : List Nat} (h : s.served pipe ports = []) (ecc : List Nat) :
    s.select pipe ports ecc = s := by
  unfold State.served portRound at h
  simp only [State.select, h, List.getLast?_nil]

theorem State.select_servesOne {s : State} {pipe p : Nat} {ports : List Nat} (h : s.served pipe ports = [p]) (ecc : List Nat) :
    s.select pipe ports ecc = { (s.selectPort p (ecc.getD (ports.idxOf p) 0)).takeOutputs with
      sched := { (s.selectPort p (ecc.getD (ports.idxOf p) 0)).sched with
        ptr := (s.selectPort p (ecc.getD (ports.idxOf p) 0)).sched.ptr.put pipe ((p + 1) % 32) } } := by
  unfold State.served portRound at h
  simp only [State.select, h, List.getLast?_singleton, State.forEach_cons, State.forEach_nil]

theorem State.served_none {s : State} {ports : List Nat} (h : ∀ p ∈ ports, s.canBegin p = false) (pipe : Nat) : s.served pipe ports = [] := by
  have hfilter : (portRound pipe (s.sched.ptr.at pipe)).filter (fun p => ports.contains p && s.canBegin p) = [] :=
    List.filter_eq_nil_iff.2 (fun p _ hp => by
      obtain ⟨hmem, hbegin⟩ := Bool.and_eq_true_iff.1 hp
      simp [h p (List.contains_iff_mem.1 hmem)] at hbegin)
  rw [State.served, hfilter, List.take_nil]

/-- A port of the pipe that can begin stands in the round once. -/
theorem State.served_one {s : State} {pipe p : Nat} (hpipe : p / 32 = pipe) (h : s.canBegin p = true) : s.served pipe [p] = [p] := by
  have hfilter : (portRound pipe (s.sched.ptr.at pipe)).filter (fun q => [p].contains q && s.canBegin q) = [p] :=
    calc (portRound pipe (s.sched.ptr.at pipe)).filter (fun q => [p].contains q && s.canBegin q)
        = (portRound pipe (s.sched.ptr.at pipe)).filter (· == p) :=
          List.filter_congr (fun q _ => by by_cases hq : q = p <;> simp [hq, h])
      _ = [p] := by
          rw [List.filter_beq, (nodup_portRound _ _).count, if_pos (mem_portRound _ hpipe), List.replicate_one]
  rw [State.served, hfilter]; rfl

/-! ### The frame that is chosen -/

theorem State.choose_clean (s : State) (k : Nat) :
    s.choose k 0 = s.updCpy k (fun c => { c with place := .selected, stomp := c.stomp || false }) := rfl

theorem State.choose_badBeforeBegin (s : State) (k : Nat) :
    s.choose k 2 = (((s.count Stat.bufferEccDrops).raise (144 + (s.cpy.at k).quad) (s.freeVal 4) (s.cpy.at k).protect).drawn).endCopy k := rfl

/-- A frame with an error after it has begun goes on, and is to be stomped. -/
theorem State.choose_badAfterBegin (s : State) (k : Nat) :
    ((s.choose k 3).cpy.at k).place = .selected ∧ ((s.choose k 3).cpy.at k).stomp = true := by
  have hcopy := (s.eccDrop (s.cpy.at k).quad (s.cpy.at k).protect).updCpy_at_same k
    (fun c => { c with place := .selected, stomp := c.stomp || true })
  exact ⟨congrArg Copy.place hcopy, (congrArg Copy.stomp hcopy).trans (Bool.or_true _)⟩

/-! ### EGRESS_STRIDE_ADMIT -/

theorem egressAdmit_idle {s : State} {pipe k : Nat} (h : (s.cpy.at k).live = false ∨ (s.cpy.at k).place ≠ .selected ∨
    pipeOf (s.cpy.at k).port ≠ pipe ∨ (0 < (s.cpy.at k).cells ∧ (s.cpy.at k).crossed = 0)) : s.egressAdmit pipe k = s := by
  unfold State.egressAdmit
  rcases h with hlive | hplace | hpipe | ⟨hcells, hcrossed⟩
  · simp [hlive]
  · simp [hplace]
  · simp [hpipe]
  · simp [hcells, hcrossed]

theorem egressAdmit_noSlot {s : State} {pipe k : Nat} (hgen : s.instGen (s.cpy.at k).inst = (s.cpy.at k).instGen)
    (h : s.freeSlot (2 * pipe + 1) = none) : s.egressAdmit pipe k = s := by
  simp [State.egressAdmit, hgen, h]

section egressAdmit
variable {s : State} {pipe k : Nat} (hlive : (s.cpy.at k).live = true) (hpipe : pipeOf (s.cpy.at k).port = pipe)
  (hplace : (s.cpy.at k).place = .selected) (hup : s.isUp (s.cpy.at k).port = true) (hrun : s.stride.halted.at (2 * pipe + 1) = false)
  (hcell : ¬(0 < (s.cpy.at k).cells ∧ (s.cpy.at k).crossed = 0))
include hlive hpipe hplace hup hrun hcell

theorem egressAdmit_pastGeneration (h : s.instGen (s.cpy.at k).inst ≠ (s.cpy.at k).instGen) :
    s.egressAdmit pipe k = (s.count Stat.falseStartDrops (s.cpy.at k).inst).endCopy k := by
  rw [State.egressAdmit]
  simp [hlive, hpipe, hplace, hup, hrun, hcell, h]

theorem egressAdmit_slot (hgen : s.instGen (s.cpy.at k).inst = (s.cpy.at k).instGen) {slot : Nat} (h : s.freeSlot (2 * pipe + 1) = some slot) :
    s.egressAdmit pipe k = (s.takeSlot (2 * pipe + 1) slot).updCpy k (fun c => { c with
      place := .egress { slot := slot, bank := s.stride.cur, start := s.time.mono }
      out := (s.egressBase c).1, emd := s.egressMd c }) := by
  simp [State.egressAdmit, hlive, hpipe, hplace, hup, hrun, hcell, hgen, h]

end egressAdmit

/-! ### The default image of the egress engine -/

theorem State.traceCtx_noTrace {s : State} {engine : Nat} (h : s.stride.trace.at engine = false) (x : Ctx) (md : Nat) :
    s.traceCtx engine x md = s := by
  simp [State.traceCtx, h]

theorem State.defaultRewrite_noRecord {c : Copy} (s : State) (h : c.rewrite = 0) : s.defaultRewrite c = (s, c.out) := if_pos h

theorem egressRun_default {s : State} {k : Nat} {x : Ctx} (himage : (s.stride.image x.bank).builtin = true) (h : (s.cpy.at k).rewrite = 0)
    (bad : List Nat) : s.egressRun k x bad = (s.updCpy k (fun c => { c with out := (s.cpy.at k).out })).egressDone k := by
  simp [State.egressRun, h, himage, State.defaultRewrite_noRecord]

/-- A context within its limits, with no trace to take and no error in its word, runs the word. -/
theorem egressWord_runs {s : State} {k : Nat} {x : Ctx} (hplace : (s.cpy.at k).place = .egress x) (hover : s.ctxOver x = false)
    (hlate : s.ctxLate x = false) (htrace : s.stride.trace.at (2 * pipeOf (s.cpy.at k).port + 1) = false) (bad : List Nat) :
    s.egressWord k 0 bad = s.egressRun k x bad := by
  simp [State.egressWord, hplace, hover, hlate, State.traceCtx_noTrace htrace]

/-! ### The end of a frame -/

theorem State.cpy_rampPay (s : State) (queue b : Nat) : (s.rampPay queue b).cpy = s.cpy := by
  unfold State.rampPay; split <;> rfl

/-- A copy whose transmission begins holds the frame's bytes, is on the wire from now or from when the port is free, and keeps a stomp. -/
theorem State.begin_copy (s : State) (k : Nat) (l : List Byte) (stomp : Bool) :
    ∃ paid ts, (s.begin_ k l stomp).cpy.at k = { s.cpy.at k with
      place := .sending (max s.time.mono (s.prt (s.cpy.at k).port).txFree), out := l, stomp := (s.cpy.at k).stomp || stomp
      paid := paid, ts := ts } := by
  unfold State.begin_; simp only [State.updCpy_at_same]
  split
  · rw [State.cpy_rampPay]; exact ⟨_, _, rfl⟩
  · exact ⟨_, _, rfl⟩

theorem fcsSend_notAtEnd {s : State} {k : Nat} (h : s.mayEnd (s.cpy.at k) = false) : s.fcsSend k = s := by
  simp [State.fcsSend, h]

section fcsSend
variable {s : State} {c : Copy} (hevent : s.ptpEvent c.port c.out = none)
include hevent

theorem State.oneStep_noEvent : s.oneStep c = (s, c.out) := by
  simp [State.oneStep, hevent]

theorem State.ptpSent_noEvent : s.ptpSent c = s := by
  simp [State.ptpSent, hevent]

end fcsSend

/-- A frame of an egress queue at its end: a gate overrun is counted, the frame goes out with its FCS, and the copy ends. -/
theorem fcsSend_frame {s : State} {k : Nat} (hend : s.mayEnd (s.cpy.at k) = true) (hqueue : (s.cpy.at k).queue < 8192)
    (hloop : (s.prt (s.cpy.at k).port).loopback = 0) (hevent : s.ptpEvent (s.cpy.at k).port (s.cpy.at k).out = none) :
    s.fcsSend k = ((if (s.cpy.at k).late then s.count Stat.gateOverruns else s).emit (.frame (s.cpy.at k).port ((s.cpy.at k).queue % 16)
      ((s.cpy.at k).out ++ (if (s.cpy.at k).stomp then stompFcs (s.cpy.at k).out else leBytes 4 (crc32 (s.cpy.at k).out)))
      (s.cpy.at k).stomp)).endCopy k := by
  have hport : ((if (s.cpy.at k).late then s.count Stat.gateOverruns else s).prt (s.cpy.at k).port).loopback = 0 := by
    split
    · simpa [State.prt] using hloop
    · exact hloop
  simp [State.fcsSend, hend, Nat.not_le.2 hqueue, State.oneStep_noEvent hevent, State.ptpSent_noEvent hevent, hport]

/-! ### The commands -/

theorem exec_schedulerSelect (pipe : Nat) (ports ecc : List Nat) (s : State) :
    exec (.schedulerSelect pipe ports ecc) s = runs (fun s => s.select pipe ports ecc) s := rfl

theorem exec_egressStrideAdmit (pipe k : Nat) (s : State) : exec (.egressStrideAdmit pipe k) s = runs (fun s => s.egressAdmit pipe k) s := rfl

theorem exec_strideWord_egress (k : Nat) (r : WordRead) (s : State) :
    exec (.strideWord (.egress k) r) s = runs (fun s => s.egressWord k r.ecc (badCodes r.bad)) s := rfl

theorem exec_fcsSend (k : Nat) (s : State) : exec (.fcsSend k) s = runs (fun s => s.fcsSend k) s := rfl

/-- Settles O28: each clause is one case of the scheduler, the egress engine or the MAC, and the packet path leaves time and queue alone. -/
theorem egressRowsSendFrames : Obligations.EgressRowsSendFrames := by
  unfold Obligations.EgressRowsSendFrames
  simp only [exec_schedulerSelect, exec_egressStrideAdmit, exec_strideWord_egress, exec_fcsSend]
  refine ⟨?selectsNone, ?selectsOne, ?chosen, ?admitted, ?notAdmitted, ?defaultImage, ?begun, ?sent, ?notAtEnd⟩
  case selectsNone =>
    exact fun s pipe ports ecc h => runs_path (State.select_servesNone (State.served_none h pipe) ecc) rfl
  case selectsOne =>
    rintro s _ pipe p e _ hpipe hbegin rfl
    have hselect := State.select_servesOne (State.served_one hpipe hbegin) [e]
    rw [List.idxOf_cons_self, List.getD_cons_zero] at hselect
    exact runs_keeping hselect
  case chosen =>
    rintro s k _ rfl
    exact ⟨s.choose_clean k, s.choose_badBeforeBegin k, s.choose_badAfterBegin k⟩
  case admitted =>
    rintro s k pipe _ rfl hlive hpipe hplace hup hrun hcell
    have hcross : ¬(0 < (s.cpy.at k).cells ∧ (s.cpy.at k).crossed = 0) := by omega
    refine ⟨fun hgen => ?_, fun hgen hslot => runs_path (egressAdmit_noSlot hgen hslot) rfl, fun slot hgen hslot => ?_⟩
    · have hpath : ((s.count Stat.falseStartDrops (s.cpy.at k).inst).endCopy k).offPath = s.offPath :=
        (State.offPath_endCopy _ k).trans (s.offPath_count _ _ _)
      exact ⟨_, runs_path (egressAdmit_pastGeneration hlive hpipe hplace hup hrun hcross hgen) hpath, rfl, hpath⟩
    · exact ⟨_, runs_to (egressAdmit_slot hlive hpipe hplace hup hrun hcross hgen hslot) rfl rfl, rfl,
        fun _ hm => State.updCpy_at_other _ hm _, State.updCpy_at_same _ _ _⟩
  case notAdmitted =>
    exact fun s k pipe h => runs_path (egressAdmit_idle h) rfl
  case defaultImage =>
    intro s k x bad hplace hwords hstart hwaits htrace himage hrewrite
    have hover : s.ctxOver x = false := by simp [State.ctxOver, hwords, hstart]
    have hlate : s.ctxLate x = false := by simp [State.ctxLate, hwaits]
    exact runs_keeping ((egressWord_runs hplace hover hlate htrace _).trans (egressRun_default himage hrewrite _))
  case begun =>
    intro s k l x
    obtain ⟨paid, ts, h⟩ := s.begin_copy k l x
    rw [h]
    exact ⟨rfl, rfl, rfl⟩
  case sent =>
    rintro s k _ _ rfl hend hqueue hloop hevent rfl
    have hsend := fcsSend_frame hend hqueue hloop hevent
    constructor
    · intro hlate
      rw [hlate, if_neg Bool.false_ne_true] at hsend
      exact runs_path hsend ((State.offPath_endCopy _ k).trans (s.offPath_emit _))
    · intro hlate
      rw [hlate, if_pos rfl] at hsend
      exact runs_path hsend ((State.offPath_endCopy _ k).trans ((State.offPath_emit _ _).trans (s.offPath_count _ _ _)))
  case notAtEnd =>
    exact fun s k h => runs_path (fcsSend_notAtEnd h) rfl

end Sys2Proof.Machine
end

section
/-! SUPPORT. Received flow control, XOFF, verify and corrected symbols, case by case (R58, R63, R66 to R69; log entries 49, 51). -/
namespace Sys2Proof.Machine

/-! ### Received PAUSE and PFC -/

/-- When a pause timer of a port runs out that restarts now with some quanta: quanta 0 leave it at 0. -/
def State.pauseEnd (s : State) (port quanta : Nat) : Nat := if quanta = 0 then 0 else s.time.mono + s.quantaNs port quanta

theorem State.pauseFor_eq (s : State) (p k quanta : Nat) :
    s.pauseFor p k quanta = s.updPort p (fun q => { q with pause := q.pause.put k (s.pauseEnd p quanta) }) := rfl

theorem State.pfcReceived_mapped {s : State} {p k : Nat} (h : s.pfcMapped p k = true) (quanta : Nat) :
    s.pfcReceived p k quanta = s.pauseFor p k quanta := if_pos h

theorem State.pfcReceived_unmapped {s : State} {p k : Nat} (h : s.pfcMapped p k = false) (quanta : Nat) :
    s.pfcReceived p k quanta = s.count Stat.pfcUnmapped := if_neg (Bool.eq_false_iff.1 h)

/-- One priority of a PFC frame changes ports and counters alone. -/
theorem State.pfcReceived_only (s : State) (p k quanta : Nat) :
    s.pfcReceived p k quanta = { s with port := (s.pfcReceived p k quanta).port, ctr := (s.pfcReceived p k quanta).ctr } := by
  cases h : s.pfcMapped p k
  · rw [State.pfcReceived_unmapped h, State.count_only]
  · rw [State.pfcReceived_mapped h]; rfl

/-- Of the port's pause timers, one priority of a PFC frame restarts its own, where a class maps to it. -/
theorem State.pause_pfcReceived (s : State) (p k quanta j : Nat) :
    ((s.pfcReceived p k quanta).prt p).pause.at j
      = if j = k ∧ s.pfcMapped p j = true then s.pauseEnd p quanta else (s.prt p).pause.at j := by
  cases h : s.pfcMapped p k
  · rw [State.pfcReceived_unmapped h, State.count_only, if_neg (by rintro ⟨rfl, hj⟩; simp [h] at hj)]; rfl
  · rw [State.pfcReceived_mapped h, State.pauseFor_eq, State.updPort_prt]
    by_cases hj : j = k
    · subst hj; rw [if_pos ⟨rfl, h⟩]; exact Tab.at_put_same _ _ _
    · rw [if_neg (fun e => hj e.1)]; exact Tab.at_put_other _ _ hj

/-- The priorities of a PFC frame that its enable vector lists, one after the other. -/
def State.pfcFrame (s : State) (p : Nat) (quanta : Nat → Nat) (l : List Nat) : State :=
  s.forEach l (fun s k => s.pfcReceived p k (quanta k))

theorem State.pfcFrame_only (p : Nat) (quanta : Nat → Nat) (l : List Nat) (s : State) :
    s.pfcFrame p quanta l = { s with port := (s.pfcFrame p quanta l).port, ctr := (s.pfcFrame p quanta l).ctr } := by
  induction l generalizing s with
  | nil => rfl
  | cons k l ih =>
    calc s.pfcFrame p quanta (k :: l)
        = { s.pfcReceived p k (quanta k) with
            port := (s.pfcFrame p quanta (k :: l)).port, ctr := (s.pfcFrame p quanta (k :: l)).ctr } := ih _
      _ = _ := by rw [State.pfcReceived_only]

/-- A PFC frame restarts the timers of the priorities that it enables and that some class maps to, and no other. -/
theorem State.pause_pfcFrame (p : Nat) (quanta : Nat → Nat) (j : Nat) (l : List Nat) (s : State) :
    ((s.pfcFrame p quanta l).prt p).pause.at j
      = if j ∈ l ∧ s.pfcMapped p j = true then s.pauseEnd p (quanta j) else (s.prt p).pause.at j := by
  induction l generalizing s with
  | nil => simp [State.pfcFrame]
  | cons k l ih =>
    have hsame : (s.pfcReceived p k (quanta k)).pfcMapped p j = s.pfcMapped p j ∧
        (s.pfcReceived p k (quanta k)).pauseEnd p (quanta j) = s.pauseEnd p (quanta j) := by
      rw [State.pfcReceived_only]; exact ⟨rfl, rfl⟩
    have htail := ih (s.pfcReceived p k (quanta k))
    rw [hsame.1, hsame.2, State.pause_pfcReceived] at htail
    refine htail.trans ?_
    by_cases hk : j = k
    · subst hk; cases hmap : s.pfcMapped p j <;> simp
    · simp [hk]

theorem mem_onesOf {n m k : Nat} (h : k < n) : k ∈ onesOf n m ↔ bit m k = true := by
  simp [onesOf, h]

section macControl
variable {s : State} {p : Nat} {b : List Byte}

/-- A frame that the port does not obey has no effect. -/
theorem State.macControl_ignored (h : s.isUp p = true → beAt b 0 6 = macControlDest →
    ¬(s.par P.flowCtrl p = 1 ∧ beAt b 14 2 = 0x0001) ∧ ¬(s.par P.flowCtrl p = 2 ∧ beAt b 14 2 = 0x0101)) : s.macControl p b = s := by
  unfold State.macControl
  split
  · rfl
  · next hguard =>
    simp only [Bool.or_eq_true, Bool.not_eq_true', bne_iff_ne, not_or, ne_eq, Decidable.not_not, Bool.not_eq_false] at hguard
    obtain ⟨⟨hup, hdest⟩, -⟩ := hguard
    obtain ⟨hnoPause, hnoPfc⟩ := h hup hdest
    split
    · next hflow hop => exact absurd ⟨hflow, hop⟩ hnoPause
    · next hflow hop => exact absurd ⟨hflow, hop⟩ hnoPfc
    · rfl

variable (hup : s.isUp p = true) (hdest : beAt b 0 6 = 0x0180C2000001) (htype : beAt b 12 2 = 0x8808)
include hup hdest htype

theorem State.macControl_pause (hflow : s.par P.flowCtrl p = 1) (hop : beAt b 14 2 = 0x0001) :
    s.macControl p b = s.pauseFor p 8 (beAt b 16 2) := by
  simp [State.macControl, hup, hdest, htype, hflow, hop, macControlDest, macControlType]

theorem State.macControl_pfc (hflow : s.par P.flowCtrl p = 2) (hop : beAt b 14 2 = 0x0101) :
    s.macControl p b = s.pfcFrame p (fun k => beAt b (18 + 2 * k) 2) (onesOf 8 (beAt b 16 2)) := by
  simp [State.macControl, State.pfcFrame, hup, hdest, htype, hflow, hop, macControlDest, macControlType]

end macControl

/-! ### Timers, verify and corrected symbols -/

theorem State.pauseExpire_due {s : State} {p k : Nat} (h : (s.prt p).pause.at k ≤ s.time.mono) :
    s.pauseExpire p k = s.updPort p (fun q => { q with pause := q.pause.put k 0 }) := if_pos h

theorem State.resendXoff_due {s : State} {p k : Nat} (hup : s.isUp p = true) (hheld : bit (s.prt p).xoff k = true)
    (hdue : (s.prt p).resend.at k ≤ s.time.mono) :
    s.resendXoff p k = (s.updPort p (fun q => { q with
      resend := q.resend.put k (s.time.mono + s.quantaNs p (s.par P.pfcQuanta p) / 2) })).sendPause p k (s.par P.pfcQuanta p) := by
  simp [State.resendXoff, hup, hheld, hdue]

theorem State.verifySend_due {s : State} {p : Nat} (hver : s.verifying p = true) (hdue : (s.prt p).verifyAt ≤ s.time.mono)
    (hthird : (s.prt p).attempts ≠ 3) :
    s.verifySend p = (s.updPort p (fun q => { q with
      attempts := min 4 ((s.prt p).attempts + 1), verifyAt := s.time.mono + 1000000 * s.par P.verifyTime p })).emit (.verify p) := by
  simp [State.verifySend, hver, hdue, hthird]

theorem State.verifyDone_attempted {s : State} {p : Nat} (hver : s.verifying p = true) (h : 0 < (s.prt p).attempts) :
    s.verifyDone p = s.updPort p (fun q => { q with verified := true }) := by
  simp [State.verifyDone, hver, h]

/-- Corrected symbols as the port counts them, for good and for the lap (R58). -/
def State.fecCounted (s : State) (p n : Nat) : State :=
  s.updPort p (fun q => { q with fecCorrected := (s.prt p).fecCorrected + BitVec.ofNat 64 n, fecLap := (s.prt p).fecLap + n })

/-- Symbols that do not carry the count of the lap across FEC_DEGRADE are counted alone; those that do are an event and a raise. -/
theorem State.fecSymbols_eq (s : State) (p n : Nat) :
    s.fecSymbols p n = if (s.prt p).fecLap < s.par P.fecDegrade p ∧ s.par P.fecDegrade p ≤ (s.prt p).fecLap + n
      then ((s.fecCounted p n).ruleEvent 58 p 0).raise (16 + p / 32) (p % 32) else s.fecCounted p n := rfl

/-! ### The commands -/

theorem exec_macControlReceive (p : Nat) (b : List Byte) (s : State) :
    exec (.macControlReceive p b) s = runs (fun s => s.macControl p b) s := rfl

theorem exec_pauseTimerExpire (p k : Nat) (s : State) : exec (.pauseTimerExpire p k) s = runs (fun s => s.pauseExpire p k) s := rfl

theorem exec_xoffResend (p k : Nat) (s : State) : exec (.xoffResend p k) s = runs (fun s => s.resendXoff p k) s := rfl

theorem exec_verifySend (p : Nat) (s : State) : exec (.verifySend p) s = runs (fun s => s.verifySend p) s := rfl

theorem exec_verifyResponse (p : Nat) (s : State) : exec (.verifyResponse p) s = runs (fun s => s.verifyDone p) s := rfl

theorem exec_fecDegradeEvent (p n : Nat) (s : State) : exec (.fecDegradeEvent p n) s = runs (fun s => s.fecSymbols p n) s := rfl

/-- Settles O20: each clause is one case of its command; a PFC frame is a walk over the priorities it enables. -/
theorem flowControlAndVerify : Obligations.FlowControlAndVerify := by
  unfold Obligations.FlowControlAndVerify
  simp only [exec_macControlReceive, exec_pauseTimerExpire, exec_xoffResend, exec_verifySend, exec_verifyResponse, exec_fecDegradeEvent]
  refine ⟨?pause, ?pfc, ?unmapped, ?noFlowControl, ?otherFormat, ?otherDest, ?expired, ?resent, ?verifySent, ?verified, ?counted, ?crossed⟩
  case pause =>
    exact fun s p b hup hflow hdest htype hop => runs_to (State.macControl_pause hup hdest htype hflow hop) rfl rfl
  case pfc =>
    intro s p b hup hflow hdest htype hop
    have honly := State.pfcFrame_only p (fun k => beAt b (18 + 2 * k) 2) (onesOf 8 (beAt b 16 2)) s
    refine ⟨_, runs_to (State.macControl_pfc hup hdest htype hflow hop) (by rw [honly]) (by rw [honly]), honly, fun k hk => ?_⟩
    have htimer := State.pause_pfcFrame p (fun k => beAt b (18 + 2 * k) 2) k (onesOf 8 (beAt b 16 2)) s
    simp only [mem_onesOf hk] at htimer
    refine ⟨fun h => htimer.trans (if_pos h), fun h => htimer.trans (if_neg ?_)⟩
    rintro ⟨hbit, hmap⟩
    rcases h with h | h
    · simp [hbit] at h
    · simp [hmap] at h
  case unmapped =>
    exact fun s p k q h => State.pfcReceived_unmapped h q
  case noFlowControl =>
    intro s p b h
    refine runs_to (State.macControl_ignored fun hup _ => ?_) rfl rfl
    rcases h with hdown | hflow
    · simp [hup] at hdown
    · simp [hflow]
  case otherFormat =>
    exact fun s p b hflow hop => runs_to (State.macControl_ignored fun _ _ => by simp [hflow, hop]) rfl rfl
  case otherDest =>
    exact fun s p b h => runs_to (State.macControl_ignored fun _ hdest => absurd hdest h) rfl rfl
  case expired =>
    exact fun s p k h => runs_to (State.pauseExpire_due h) rfl rfl
  case resent =>
    exact fun s p k hup hheld hdue => runs_path (State.resendXoff_due hup hheld hdue) (State.offPath_sendPause _ _ _ _)
  case verifySent =>
    exact fun s p hver hdue hthird => runs_path (State.verifySend_due hver hdue hthird) (State.offPath_emit _ _)
  case verified =>
    exact fun s p hver h => runs_to (State.verifyDone_attempted hver h) rfl rfl
  case counted =>
    exact fun s p n h => runs_to ((s.fecSymbols_eq p n).trans (if_neg (by omega))) rfl rfl
  case crossed =>
    exact fun s p n hbelow hreach => runs_keeping ((s.fecSymbols_eq p n).trans (if_pos ⟨hbelow, hreach⟩))

end Sys2Proof.Machine
end

section
/-! SUPPORT. The port state machine, event by event (R56, R61, R71, R72, R214, R215, R224; log entries 50, 137, 138). -/
namespace Sys2Proof.Machine

/-! ### Locks -/

theorem State.locksHold_acquire {s : State} {p : Nat} (h : (s.prt p).link = .acquire) :
    s.locksHold p = s.updPort p (fun q => { q with
      link := .upPending, locks := 2 ^ s.cfg.active.lanes p - 1, remote := false, train := none
      debounce := s.time.mono + s.par P.upDebounce p * 1000 }) := by
  simp only [State.locksHold, State.allLocks, h]

theorem State.locksHold_up {s : State} {p : Nat} (h : (s.prt p).link = .up) :
    s.locksHold p = s.updPort p (fun q => { q with locks := 2 ^ s.cfg.active.lanes p - 1, remote := false, loss := none }) := by
  simp only [State.locksHold, State.allLocks, h]

theorem State.locksHold_disabled {s : State} {p : Nat} (h : (s.prt p).link = .disabled) : s.locksHold p = s := by
  simp only [State.locksHold, h]

theorem State.lockLost_disabled {s : State} {p : Nat} (h : (s.prt p).link = .disabled) (lane : Nat) (remote : Bool) :
    s.lockLost p lane remote = s := by
  simp only [State.lockLost, h]

theorem State.lockLost_acquire {s : State} {p : Nat} (h : (s.prt p).link = .acquire) (lane : Nat) (remote : Bool) :
    s.lockLost p lane remote = s.updPort p (fun q => { q with
      locks := if remote then q.locks else q.locks &&& (255 - 2 ^ lane), remote := q.remote || remote }) := by
  simp only [State.lockLost, h] <;> rfl

theorem State.lockLost_upPending {s : State} {p : Nat} (h : (s.prt p).link = .upPending) (lane : Nat) (remote : Bool) :
    s.lockLost p lane remote = ((s.updPort p (fun q => { q with
      locks := if remote then q.locks else q.locks &&& (255 - 2 ^ lane), remote := q.remote || remote, flaps := q.flaps + 1 })).negotiate p).count
        Stat.linkFlaps p := by
  simp only [State.lockLost, h] <;> rfl

/-- A remote fault in UP loses no frame. -/
theorem State.lockLost_remoteFault {s : State} {p : Nat} (h : (s.prt p).link = .up) (lane : Nat) :
    s.lockLost p lane true = s.updPort p (fun q => { q with
      remote := true, loss := some (q.loss.getD (s.time.mono + s.par P.lossFilter p * 1000)) }) := by
  simp [State.lockLost, h]

theorem State.offPath_lostFrames (s : State) (p : Nat) : ((s.loseFrames p).cutFrames p).offPath = s.offPath :=
  (State.offPath_cutFrames _ p).trans (s.offPath_loseFrames p)

/-- Parameters and time are no part of the packet path. -/
theorem State.par_mono_of_offPath {s t : State} (h : t.offPath = s.offPath) : (∀ x i, t.par x i = s.par x i) ∧ t.time.mono = s.time.mono := by
  obtain ⟨htime, -, hcfg, -⟩ := State.offPath_eqs h
  exact ⟨fun x i => by rw [State.par, State.par, hcfg], by rw [htime]⟩

/-- A lock lost in UP loses the frames that the port sends and receives. -/
theorem State.lockLost_up {s : State} {p : Nat} (h : (s.prt p).link = .up) (lane : Nat) :
    s.lockLost p lane false = ((s.loseFrames p).cutFrames p).updPort p (fun q => { q with
      locks := q.locks &&& (255 - 2 ^ lane), loss := some (q.loss.getD (s.time.mono + s.par P.lossFilter p * 1000)) }) := by
  obtain ⟨hpar, hmono⟩ := State.par_mono_of_offPath (s.offPath_lostFrames p)
  simp [State.lockLost, h, hpar, hmono]

/-! ### Timers of the link -/

theorem State.debounced_due {s : State} {p : Nat} (hlink : (s.prt p).link = .upPending) (hdue : (s.prt p).debounce ≤ s.time.mono) :
    s.debounced p = ((s.raisePort p).completeAttempt (p / 32) (p % 32)).clearCond (p / 32) (p % 32) := if_pos ⟨hlink, hdue⟩

theorem State.linkLost_due {s : State} {p e : Nat} (hlink : (s.prt p).link = .up) (hloss : (s.prt p).loss = some e)
    (hdue : e ≤ s.time.mono) :
    s.linkLost p = ((s.dropLink p).emit (.remoteFault p)).raise (p / 32) (p % 32) := by
  simp [State.linkLost, State.isUp, hlink, hloss, hdue, linkSource, pipeOf]

theorem State.holdExpire_done {s : State} {p : Nat} (h : (s.prt p).hold = some 0) : s.holdExpire p = s.flushPort p := if_pos h

theorem State.anFail_acquire {s : State} {p : Nat} (hen : s.parOn P.anEnable p = true) (hlink : (s.prt p).link = .acquire) :
    s.anFail p = s.ruleEvent 71 p 0 := by
  simp [State.anFail, hen, hlink]

theorem State.trainAgain_due {s : State} {p e : Nat} (hlink : (s.prt p).link = .acquire) (htrain : (s.prt p).train = some e)
    (hdue : e ≤ s.time.mono) :
    s.trainAgain p = s.updPort p (fun q => { q with train := some (500000000 + s.time.mono), locks := 0 }) := by
  simp [State.trainAgain, hlink, htrain, hdue]

/-! ### A port that goes UP, and one that leaves UP -/

/-- The start-up ramp is the scheduler's alone. -/
theorem State.port_startupRamp (s : State) (p : Nat) : (s.startupRamp p).port = s.port :=
  s.forEach_keeps State.port _ _ (fun _ _ => rfl)

/-- The port as it stands when it goes UP, before XOFF is sent for what lies above its thresholds. -/
theorem State.still_raisePort (s : State) (p : Nat) : ((s.raisePort p).prt p).still =
    Port.still { (s.prt p).closed with
      link := .up, hold := none, beenUp := true, train := none
      verified := !s.parOn P.verifyEnable p
      verifyAt := if s.parOn P.preemptEnable p && s.parOn P.verifyEnable p then s.time.mono + 1000000 * s.par P.verifyTime p else 0 } := by
  unfold State.raisePort
  rw [State.forEach_keeps _ (fun u => (u.prt p).still) _ _ (fun u k => u.still_pfcCheck p k p)]
  simp only [State.prt, State.port_startupRamp, (State.ruleEvent_frame _ _ _ _ _ _).2.2.2.1, State.updPort_port, Tab.at_upd_same]

/-- A port that leaves UP, before its queues are held, flushed or handed on: what it received is lost, and its timers are cleared. -/
def State.linkClosed (s : State) (p : Nat) : State := (s.loseRx p).updPort p (fun q => { q.closed with link := .acquire })

/-- A flush of learned entries apart, a port that leaves UP does what its role asks. -/
theorem State.port_leaveUp (s : State) (p : Nat) (flush finish : Bool) : (s.leaveUp p flush finish).port =
    (if (s.linkClosed p).parOn P.portRole p then (s.linkClosed p).relayDown p finish else (s.linkClosed p).holdPort p flush finish).port := by
  unfold State.leaveUp
  exact (apply_ite State.port _ _ _).trans (ite_self _)

/-- A port leaves UP with every received pause timer and every XOFF cleared. -/
theorem State.leaveUp_prt (s : State) (p : Nat) (flush finish : Bool) :
    ((s.leaveUp p flush finish).prt p).pause = [] ∧ ((s.leaveUp p flush finish).prt p).xoff = 0 := by
  have hprt : (s.linkClosed p).prt p = { ((s.loseRx p).prt p).closed with link := .acquire } := State.updPort_prt _ _ _
  have hdown : (s.linkClosed p).isUp p = false := by simp [State.isUp, hprt]
  rw [State.prt, State.port_leaveUp]
  split
  · have hrelay := (s.linkClosed p).prt_relayDown p p finish hdown
    rw [State.prt, hprt] at hrelay
    rw [hrelay]; exact ⟨rfl, rfl⟩
  · obtain ⟨-, hpause, hxoff⟩ := (s.linkClosed p).prt_holdPort p p flush finish hdown
    rw [hprt] at hpause hxoff
    exact ⟨hpause, hxoff⟩

theorem State.prt_ruleEvent (s : State) (rule subject kind : Nat) (items : List Nat) (i q : Nat) :
    (s.ruleEvent rule subject kind items i).prt q = s.prt q := by
  rw [State.ruleEvent, State.log_only]; rfl

theorem State.dropLink_prt (s : State) (p : Nat) :
    ((s.dropLink p).prt p).link = .acquire ∧ ((s.dropLink p).prt p).pause = [] ∧ ((s.dropLink p).prt p).xoff = 0 := by
  obtain ⟨hpause, hxoff⟩ := s.leaveUp_prt p false false
  rw [State.dropLink, State.prt_ruleEvent, State.negotiate, State.updPort_prt]
  exact ⟨rfl, hpause, hxoff⟩

theorem State.flushPort_prt (s : State) (p : Nat) : ((s.flushPort p).prt p).hold = none ∧ ((s.flushPort p).prt p).beenUp = false := by
  rw [State.flushPort, State.updPort_prt]; exact ⟨rfl, rfl⟩

/-! ### The commands -/

theorem exec_portAllLocks (p : Nat) (s : State) : exec (.portAllLocks p) s = runs (fun s => s.locksHold p) s := rfl

theorem exec_portLockLoss (p l : Nat) (r : Bool) (s : State) : exec (.portLockLoss p l r) s = runs (fun s => s.lockLost p l r) s := rfl

theorem exec_upDebounceExpire (p : Nat) (s : State) : exec (.upDebounceExpire p) s = runs (fun s => s.debounced p) s := rfl

theorem exec_lossFilterExpire (p : Nat) (s : State) : exec (.lossFilterExpire p) s = runs (fun s => s.linkLost p) s := rfl

theorem exec_portHoldExpire (p : Nat) (s : State) : exec (.portHoldExpire p) s = runs (fun s => s.holdExpire p) s := rfl

theorem exec_anFailure (p : Nat) (s : State) : exec (.anFailure p) s = runs (fun s => s.anFail p) s := rfl

theorem exec_trainingTimeout (p : Nat) (s : State) : exec (.trainingTimeout p) s = runs (fun s => s.trainAgain p) s := rfl

/-- Settles O21: each clause is one link state of its command; what a port going down does changes no port that is not UP. -/
theorem linkStateFollowsItsLocks : Obligations.LinkStateFollowsItsLocks := by
  unfold Obligations.LinkStateFollowsItsLocks
  simp only [exec_portAllLocks, exec_portLockLoss, exec_upDebounceExpire, exec_lossFilterExpire, exec_portHoldExpire, exec_anFailure,
    exec_trainingTimeout]
  refine ⟨?locksAcquire, ?locksUp, ?lossAcquire, ?lossPending, ?remoteFault, ?lossUp, ?debounced, ?raised, ?linkDown, ?dropped, ?flushed,
    ?noMode, ?trainsAgain, ?disabled⟩
  case locksAcquire => exact fun s p h => runs_to (State.locksHold_acquire h) rfl rfl
  case locksUp => exact fun s p h => runs_to (State.locksHold_up h) rfl rfl
  case lossAcquire => exact fun s p l r h => runs_to (State.lockLost_acquire h l r) rfl rfl
  case lossPending => exact fun s p l r h => runs_path (State.lockLost_upPending h l r) (State.offPath_count _ _ _ _)
  case remoteFault => exact fun s p l h => runs_to (State.lockLost_remoteFault h l) rfl rfl
  case lossUp =>
    exact fun s p l h => ⟨_, runs_path (State.lockLost_up h l) (s.offPath_lostFrames p), s.offPath_lostFrames p, rfl⟩
  case debounced => exact fun s p hlink hdue => runs_keeping (State.debounced_due hlink hdue)
  case raised =>
    intro s p
    have hstill := s.still_raisePort p
    simp only [Port.still, Port.closed, Port.mk.injEq] at hstill
    simp [hstill]
  case linkDown => exact fun s p e hlink hloss hdue => runs_keeping (State.linkLost_due hlink hloss hdue)
  case dropped => exact State.dropLink_prt
  case flushed =>
    exact fun s p h => ⟨_, runs_path (State.holdExpire_done h) (s.offPath_flushPort p), s.offPath_flushPort p, rfl, s.flushPort_prt p⟩
  case noMode => exact fun s p hen hlink => runs_path (State.anFail_acquire hen hlink) (s.offPath_log _ _ _ _)
  case trainsAgain => exact fun s p e hlink htrain hdue => runs_to (State.trainAgain_due hlink htrain hdue) rfl rfl
  case disabled =>
    exact fun s p l r h => ⟨runs_to (State.locksHold_disabled h) rfl rfl, runs_to (State.lockLost_disabled h l r) rfl rfl⟩

end Sys2Proof.Machine
end

section
/-! SUPPORT. Gate lists at a device time, and the frame on the wire when a gate moves (R62, R227 to R230, R234, R236 to R238;
log entries 53, 54). -/
namespace Sys2Proof.Machine

/-! ### A port without a list -/

/-- The 16 classes are the bits of a word of ones. -/
theorem bit_allClasses (c : Nat) : bit 0xFFFF c = decide (c < 16) := Nat.testBit_two_pow_sub_one 16 c

section noList
variable {s : State} {p : Nat} (h : s.activeList p = none) (c : Nat)
include h

theorem State.gateOpen_noList : s.gateOpen p c = decide (c < 16) := by
  rw [State.gateOpen, State.gateStates, State.gateStatesAt, h]; exact bit_allClasses c

theorem State.window_noList : s.window p c = none := by
  rw [State.window, State.windowAt, h]

theorem State.wMax_noList : s.wMax p c = none := by
  rw [State.wMax, h]

end noList

/-! ### The entry at a position -/

theorem entryAt_within {e pos : Nat} (l : List Nat) (i : Nat) (h : pos < G.interval.get e) :
    entryAt (e :: l) i pos = (i, G.interval.get e - pos) := if_pos (Or.inl h)

theorem entryAt_past {e pos : Nat} {l : List Nat} (i : Nat) (hmore : l ≠ []) (h : G.interval.get e ≤ pos) :
    entryAt (e :: l) i pos = entryAt l (i + 1) (pos - G.interval.get e) :=
  if_neg (not_or.2 ⟨Nat.not_lt.2 h, hmore⟩)

/-! ### The frame on the wire -/

section macTurns
variable {s : State} {p k : Nat} (hsend : s.sendingAt p = some k)
include hsend

theorem State.gateMoves_sending : s.gateMoves p = s.macTurns p := by
  simp only [State.gateMoves, hsend]

theorem State.macTurns_open (h : s.gateOpen p ((s.cpy.at k).queue % 16) = true) : s.macTurns p = s := by
  simp [State.macTurns, hsend, h]

/-- A frame of the preemptable MAC whose gate closes is cut where a fragment may end. -/
theorem State.macTurns_preempts (hport : (s.cpy.at k).port = p) (hcut : s.canPreempt (s.cpy.at k) = true)
    (hshut : s.gateOpen p ((s.cpy.at k).queue % 16) = false) : s.macTurns p = s.preempt k := by
  obtain ⟨hqueue, hmac⟩ : (s.cpy.at k).queue < 8192 ∧ s.preemptable p ((s.cpy.at k).queue % 16) = true := by
    have hparts := hcut
    simp only [State.canPreempt, hport, Bool.and_eq_true, decide_eq_true_eq] at hparts
    obtain ⟨⟨⟨⟨hegress, -⟩, hmac⟩, -⟩, -⟩ := hparts
    exact ⟨hegress, hmac⟩
  simp [State.macTurns, hsend, hshut, hcut, hmac, Nat.not_le.2 hqueue]

/-- An express frame on the wire whose gate has closed is late when bytes of it are still to pass. -/
theorem State.macTurns_express {t e : Nat} (hqueue : (s.cpy.at k).queue < 8192)
    (hshut : s.gateOpen p ((s.cpy.at k).queue % 16) = false) (hmac : s.preemptable p ((s.cpy.at k).queue % 16) = false)
    (hspan : s.wireSpan (s.cpy.at k) = some (t, e)) (hbegun : t ≤ s.time.mono) :
    s.macTurns p = if s.time.mono + s.wireNs p 12 < e then s.updCpy k (fun c => { c with late := true }) else s := by
  simp [State.macTurns, hsend, hshut, hmac, hspan, hbegun, Nat.not_le.2 hqueue]

end macTurns

theorem State.gateMoves_idle {s : State} {p : Nat} (hsend : s.sendingAt p = none) (hwait : s.pausedAt p = none) : s.gateMoves p = s := by
  simp only [State.gateMoves, hsend, hwait]

theorem State.gateMoves_resumes {s : State} {p k : Nat} (hsend : s.sendingAt p = none) (hwait : s.pausedAt p = some k)
    (hselected : s.selectedAt p = none) (hengine : s.engineAt p = none) (hopen : s.gateOpen p ((s.cpy.at k).queue % 16) = true) :
    s.gateMoves p = s.resume k := by
  simp [State.gateMoves, hsend, hwait, hselected, hengine, hopen]

/-- A remainder goes on now, or when the wire is free. -/
theorem State.resume_eq (s : State) (k : Nat) : s.resume k = s.updCpy k (fun c => { c with
    paused := false, place := .sending (max s.time.mono (s.prt (s.cpy.at k).port).txFree) }) := rfl

theorem State.preempt_cpy (s : State) (k : Nat) : (s.preempt k).cpy.at k =
    { s.cpy.at k with paused := true, sent := (s.cpy.at k).sent + s.fragment (s.cpy.at k) } := by
  simp [State.preempt]

theorem State.preempt_txFree (s : State) (k : Nat) :
    ((s.preempt k).prt (s.cpy.at k).port).txFree = s.time.mono + s.wireNs (s.cpy.at k).port 16 := by
  rw [State.preempt, State.updPort_prt]

/-- What a MAC does with the frame on its wire concerns copies and the port alone. -/
theorem State.offPath_macTurns (s : State) (p : Nat) : (s.macTurns p).offPath = s.offPath := by
  unfold State.macTurns; simp only []
  split
  · split
    · rfl
    · split
      · split <;> rfl
      · split
        · split <;> rfl
        · rfl
  · rfl

theorem State.offPath_gateMoves (s : State) (p : Nat) : (s.gateMoves p).offPath = s.offPath := by
  unfold State.gateMoves
  split
  · exact s.offPath_macTurns p
  · split
    · split <;> rfl
    · rfl

/-! ### A list comes in force -/

/-- A list in force on a profile of a port, with none waiting behind it. -/
def State.putList (s : State) (p k : Nat) (g : GateList) : State :=
  { s with sched := { s.sched with profile := s.sched.profile.upd (4 * p + k) (fun r => { r with oper := some g, wait := none }) } }

theorem State.startList_due {s : State} {p k : Nat} {g : GateList} (hwait : (s.gateProfile p k).wait = some g)
    (hcome : g.start ≤ s.time.dev) (hpast : g.start ≠ s.time.next) : s.startList p k = (s.putList p k g).gateMoves p := by
  simp [State.startList, State.putList, hwait, hcome, hpast]

theorem State.startList_noneWaits {s : State} {p k : Nat} (h : (s.gateProfile p k).wait = none) : s.startList p k = s := by
  simp only [State.startList, h]

theorem State.startList_early {s : State} {p k : Nat} {g : GateList} (hwait : (s.gateProfile p k).wait = some g)
    (h : s.time.dev < g.start ∨ g.start = s.time.next) : s.startList p k = s := by
  have hnot : ¬(g.start ≤ s.time.dev ∧ g.start ≠ s.time.next) := fun ⟨hcome, hpast⟩ =>
    h.elim (Nat.not_lt.2 hcome) hpast
  simp only [State.startList, hwait, if_neg hnot]

/-! ### The commands -/

theorem exec_gateEntryChange (p : Nat) (s : State) : exec (.gateEntryChange p) s = runs (fun s => s.gateMoves p) s := rfl

theorem exec_gateListStart (p k : Nat) (s : State) : exec (.gateListStart p k) s = runs (fun s => s.startList p k) s := rfl

/-- Settles O29: a list's clauses follow its definition entry by entry; a row's, the frame that is on the wire or waits preempted. -/
theorem gateListsFollowDeviceTime : Obligations.GateListsFollowDeviceTime := by
  unfold Obligations.GateListsFollowDeviceTime
  simp only [exec_gateEntryChange, exec_gateListStart]
  refine ⟨?noList, ?within, ?past, ?fits, ?idle, ?preempts, ?gateOpen, ?late, ?resumes, ?listStarts, ?listWaits⟩
  case noList =>
    exact fun s p c h => ⟨State.gateOpen_noList h c, State.window_noList h c, State.wMax_noList h c⟩
  case within => exact fun e l i pos h => entryAt_within l i h
  case past => exact fun e l i pos hmore h => entryAt_past i hmore h
  case fits => exact fun b rate => ⟨rfl, fun w => decide_eq_true_iff⟩
  case idle => exact fun s p hsend hwait => runs_to (State.gateMoves_idle hsend hwait) rfl rfl
  case preempts =>
    intro s p k hsend hport hcut hshut
    have hmoves := (State.gateMoves_sending hsend).trans (State.macTurns_preempts hsend hport hcut hshut)
    exact ⟨_, runs_to hmoves rfl rfl, rfl, congrArg Copy.paused (s.preempt_cpy k), congrArg Copy.sent (s.preempt_cpy k), s.preempt_txFree k⟩
  case gateOpen =>
    exact fun s p k hsend hopen => runs_to ((State.gateMoves_sending hsend).trans (State.macTurns_open hsend hopen)) rfl rfl
  case late =>
    intro s p k t e hsend hqueue hshut hmac hspan hbegun
    have hmoves := (State.gateMoves_sending hsend).trans (State.macTurns_express hsend hqueue hshut hmac hspan hbegun)
    exact runs_path hmoves (hmoves ▸ s.offPath_gateMoves p)
  case resumes =>
    exact fun s p k hsend hwait hselected hengine hopen =>
      runs_to ((State.gateMoves_resumes hsend hwait hselected hengine hopen).trans (s.resume_eq k)) rfl rfl
  case listStarts =>
    exact fun s p k g hwait hcome hpast => runs_path (State.startList_due hwait hcome hpast) ((s.putList p k g).offPath_gateMoves p)
  case listWaits =>
    rintro s p k (hnone | ⟨g, hwait, h⟩)
    · exact runs_to (State.startList_noneWaits hnone) rfl rfl
    · exact runs_to (State.startList_early hwait h) rfl rfl

end Sys2Proof.Machine
end

section
/-! SUPPORT. The arrival and the tail of a frame, case by case (R60, R65, R75, R79, R96; log entries 49, 52, 137). -/
namespace Sys2Proof.Machine

/-! ### FRAME_ARRIVAL -/

/-- The packet that a whole frame of an Ethernet port becomes (R79). -/
def State.rxPacket (s : State) (p : Nat) (f : RxFrame) : Packet :=
  { live := true, port := p, rx := f, ended := true, arrived := s.time.mono, rxTime := s.time.dev, whole := f.preempt, stage := .fifo }

/-- The frame stands in the FIFO of its pipe as the next packet. -/
def State.takeIn (s : State) (p : Nat) (f : RxFrame) : State :=
  { s with nextPkt := s.nextPkt + 1, pkt := s.pkt.put s.nextPkt (s.rxPacket p f) }

theorem State.takeIn_pkt (s : State) (p : Nat) (f : RxFrame) : (s.takeIn p f).pkt.at s.nextPkt = s.rxPacket p f := by
  simp [State.takeIn]

section receive
variable {s : State} {p : Nat} {f : RxFrame}

theorem State.arrive_noLoopback (h : (s.prt p).loopback = 0) : s.arrive p f = s.receive p f := by
  simp only [State.arrive, h]

theorem State.arrive_nearEnd (h : (s.prt p).loopback = 1) : s.arrive p f = s := by
  simp only [State.arrive, h]

theorem State.arrive_farEnd (h : (s.prt p).loopback = 2) : s.arrive p f = s.emit (.frame p 0 f.bytes false) := by
  simp only [State.arrive, h]

theorem State.receive_down (hup : s.isUp p = false) (hword : f.codeword = false) : s.receive p f = s := by
  simp [State.receive, hup, hword]

variable (hup : s.isUp p = true) (hword : f.codeword = false) (hended : f.ended = true)
include hup hword hended

theorem State.receive_assembly (h : f.assembly = true) : s.receive p f = s.count Stat.rxAssemblyErrors := by
  simp [State.receive, hup, hword, hended, h]

variable (hassembly : f.assembly = false)
include hassembly

theorem State.receive_reason {r : Nat} (h : s.cfg.active.rxReason p f = some r) :
    s.receive p f = s.count Stat.rxDiscards (5 * p + r) := by
  simp [State.receive, hup, hword, hended, hassembly, h]

variable (hrole : s.parOn P.portRole p = false) (hgood : s.cfg.active.rxReason p f = none) (htype : beAt f.bytes 12 2 ≠ 0x8808)
include hrole hgood htype

theorem State.receive_overrun (h : 65536 < s.fifoBytes (pipeOf p) + f.bytes.length) : s.receive p f = s.count Stat.rxOverrun := by
  rw [State.parOn] at hrole
  simp [State.receive, hup, hword, hended, hassembly, hgood, hrole, htype, h]

theorem State.receive_taken (h : s.fifoBytes (pipeOf p) + f.bytes.length ≤ 65536) :
    s.receive p f = (s.takeIn p f).ptpReceived s.nextPkt := by
  rw [State.parOn] at hrole
  simp [State.receive, State.takeIn, State.rxPacket, hup, hword, hended, hassembly, hgood, hrole, htype, Nat.not_lt.2 h]

end receive

/-- A frame that is no PTP event message leaves no timestamp. -/
theorem State.ptpReceived_noEvent {s : State} {n : Nat}
    (h : s.ptpEvent (s.pkt.at n).port ((s.pkt.at n).rx.bytes.take ((s.pkt.at n).rx.bytes.length - 4)) = none) : s.ptpReceived n = s := by
  simp [State.ptpReceived, h]

/-- A PTP event message leaves its identity and its timestamp with its port. -/
theorem State.ptpReceived_event {s : State} {n o t : Nat} {p : Packet} {l : List Byte} (hp : s.pkt.at n = p)
    (hl : p.rx.bytes.take (p.rx.bytes.length - 4) = l) (hrole : s.parOn P.portRole p.port = false)
    (hevent : s.ptpEvent p.port l = some o) (ht : s.rxStamp p = t) :
    s.ptpReceived n = s.updPort p.port (fun q =>
      { q with ptpIn := some (beAt l (o + 30) 2, leAt l o 1 % 16, leAt l (o + 4) 1, t / 1000000000, t % 1000000000) }) := by
  simp [State.ptpReceived, hp, hl, hrole, hevent, ht]

/-- On an Ethernet port the reasons of R60 cover what is not a good frame. -/
theorem rxReason_none_iff {b : Bank} {p : Nat} {f : RxFrame} (h : b.on P.portRole p = false) : b.rxReason p f = none ↔
    64 ≤ f.bytes.length ∧ f.bytes.length ≤ b.getN P.maxFrame p ∧ f.fcsOk = true ∧ f.codeword = false ∧ f.cut = false := by
  simp only [Bank.rxReason, Bank.longest, h, Bool.false_eq_true, if_false, Nat.add_zero]
  by_cases hlen : 64 ≤ f.bytes.length ∧ f.bytes.length ≤ b.getN P.maxFrame p
  · rw [if_neg (Nat.not_lt.2 hlen.1), if_neg (Nat.not_lt.2 hlen.2)]
    cases hfcs : f.fcsOk
    · simp
    cases hword : f.codeword
    · simp [hlen]
    · simp
  · split
    · simp; omega
    · rw [if_pos (by omega)]; simp; omega

/-! ### FRAME_TAIL -/

/-- A packet that no ring entry waits for has no data to issue. -/
theorem State.issueData_notWanted {s : State} {n : Nat} (h : s.pktWanted n = false) : s.issueData n = s := by
  have hpage : s.host.page.any (fun e => e.2.assigned.any (fun a => a.pkt == n && !a.issued)) = false := by
    simp only [State.pktWanted, Bool.or_eq_false_iff, List.any_eq_false] at h ⊢
    obtain ⟨⟨⟨hentries, -⟩, -⟩, -⟩ := h
    intro e he hany
    simp only [List.any_eq_true, Bool.and_eq_true] at hany
    obtain ⟨a, ha, hpkt, -⟩ := hany
    exact hentries e he (List.any_eq_true.2 ⟨a, ha, hpkt⟩)
  simp [State.issueData, hpage]

theorem State.settleRamps_noCopy {s : State} {n : Nat} (h : s.copiesOf n = []) (len : Nat) : s.settleRamps n len = s := by
  simp [State.settleRamps, h]

theorem State.markTail_pkt (s : State) (n : Nat) :
    (s.markTail n).pkt.at n = { s.pkt.at n with ended := true, md := s.endedMd (s.pkt.at n) } := by
  simp [State.markTail]

/-- With nothing that waits for the tail, the packet's end and its length are all that is settled. -/
theorem State.settleTail_nothingWaits {s : State} {n : Nat} (hmeter : (s.pkt.at n).metered = none) (hcopies : s.copiesOf n = [])
    (hwanted : s.pktWanted n = false) : s.settleTail n = s.markTail n := by
  have hcopiesEnded : (s.markTail n).copiesOf n = [] := hcopies
  have hdata : (s.markTail n).issueData n = s.markTail n := State.issueData_notWanted hwanted
  simp only [State.settleTail, hdata, State.settleRamps_noCopy hcopiesEnded, hcopiesEnded, State.forEach_nil, hmeter]

theorem State.raiseLearn_noKey {s : State} {n : Nat} (h : (s.pkt.at n).learn = none) : s.raiseLearn n = s := by
  simp only [State.raiseLearn, h]

theorem State.reap_inFifo {s : State} {n : Nat} (h : (s.pkt.at n).stage = .fifo) : s.reap n = s := by
  simp [State.reap, h]

/-- A good tail of a packet still in the FIFO, with no learn event, MAX_SDU or bench to see to, does no more. -/
theorem State.goodTail_inFifo {s : State} {n : Nat}
    (hevent : s.ptpEvent (s.pkt.at n).port ((s.pkt.at n).rx.bytes.take ((s.pkt.at n).rx.bytes.length - 4)) = none)
    (hlearn : (s.pkt.at n).learn = none) (hsdu : (s.pkt.at n).sduStream = none) (hbench : (s.pkt.at n).bench = none)
    (hstage : (s.pkt.at n).stage = .fifo) : s.goodTail n = s := by
  simp [State.goodTail, State.ptpReceived_noEvent hevent, State.raiseLearn_noKey hlearn, hsdu, hbench, State.reap_inFifo hstage]

section tail
variable {s : State} {n : Nat}

theorem State.tail_over (h : (s.pkt.at n).live = false ∨ (s.pkt.at n).ended = true) : s.tail n = s := by
  rcases h with h | h <;> simp [State.tail, h]

variable (hlive : (s.pkt.at n).live = true) (hopen : (s.pkt.at n).ended = false)
include hlive hopen

theorem State.tail_assembly (h : (s.pkt.at n).rx.assembly = true) :
    s.tail n = ((s.settleTail n).count Stat.rxAssemblyErrors).tailDiscard n := by
  simp [State.tail, hlive, hopen, h]

variable (hassembly : (s.pkt.at n).rx.assembly = false)
include hassembly

theorem State.tail_reason {r : Nat} (h : s.cfg.active.rxReason (s.pkt.at n).port (s.pkt.at n).rx = some r) :
    s.tail n = (((if r = 1 then s.endAt n (s.cfg.active.longest (s.pkt.at n).port) else s).settleTail n).count Stat.rxDiscards
      (5 * (s.pkt.at n).port + r)).tailDiscard n := by
  simp [State.tail, hlive, hopen, hassembly, h]

theorem State.tail_good (h : s.cfg.active.rxReason (s.pkt.at n).port (s.pkt.at n).rx = none) : s.tail n = (s.settleTail n).goodTail n := by
  simp [State.tail, hlive, hopen, hassembly, h]

end tail

/-- FRAME_LEN of an ended packet of an Ethernet port is the length of its frame. -/
theorem State.frameLen_endedMd {s : State} {p : Packet} (h : s.fromRelay p = false) :
    M.frameLen.get (s.endedMd p) = p.rx.bytes.length % 2 ^ 14 := by
  rw [State.endedMd, Field.get_put_same, State.actualLen, State.headBytes, h]; rfl

/-! ### The commands -/

theorem exec_frameArrival (p : Nat) (f : RxFrame) (s : State) : exec (.frameArrival p f) s = runs (fun s => s.arrive p f) s := rfl

theorem exec_frameTail (n : Nat) (s : State) : exec (.frameTail n) s = runs (fun s => s.tail n) s := rfl

/-- Settles O22: each clause is one case of the receive checks, at the arrival or at the tail (what is counted at which, and the order of
the reasons, are log entries 49 and 52). -/
theorem framesAreReceivedWhole : Obligations.FramesAreReceivedWhole := by
  unfold Obligations.FramesAreReceivedWhole
  simp only [exec_frameArrival, exec_frameTail]
  refine ⟨?reason, ?taken, ?overrun, ?assembly, ?down, ?loopback, ?good, ?tailGood, ?frameLen, ?tailBad, ?tailOver⟩
  case reason =>
    exact fun s p r f hup hloop hword hassembly hended h =>
      runs_path ((State.arrive_noLoopback hloop).trans (State.receive_reason hup hword hended hassembly h)) (s.offPath_count _ _ _)
  case taken =>
    rintro s _ p f _ hup hloop hword hassembly hended hrole hgood htype hfits rfl rfl
    have htaken := (State.arrive_noLoopback hloop).trans (State.receive_taken hup hword hended hassembly hrole hgood htype hfits)
    have hpkt := s.takeIn_pkt p f
    constructor
    · intro hevent
      exact runs_to (htaken.trans (State.ptpReceived_noEvent (by rw [hpkt]; exact hevent))) rfl rfl
    · rintro o t hevent rfl
      exact runs_to (htaken.trans (State.ptpReceived_event hpkt rfl hrole hevent rfl)) rfl rfl
  case overrun =>
    exact fun s p f hup hloop hword hassembly hended hrole hgood htype h =>
      runs_path ((State.arrive_noLoopback hloop).trans (State.receive_overrun hup hword hended hassembly hrole hgood htype h))
        (s.offPath_count _ _ _)
  case assembly =>
    exact fun s p f hup hloop hword hassembly hended =>
      runs_path ((State.arrive_noLoopback hloop).trans (State.receive_assembly hup hword hended hassembly)) (s.offPath_count _ _ _)
  case down =>
    exact fun s p f hup hword hloop => runs_to ((State.arrive_noLoopback hloop).trans (State.receive_down hup hword)) rfl rfl
  case loopback =>
    exact fun s p f => ⟨fun h => runs_to (State.arrive_nearEnd h) rfl rfl, fun h => runs_path (State.arrive_farEnd h) (s.offPath_emit _)⟩
  case good => exact fun b p f h => rxReason_none_iff h
  case tailGood =>
    rintro s n _ rfl hlive hopen hassembly hgood hmeter hsdu hlearn hbench hstage hcopies hwanted hevent
    have hmark := s.markTail_pkt n
    have hrest : (s.markTail n).goodTail n = s.markTail n :=
      State.goodTail_inFifo (by rw [hmark]; exact hevent) (by rw [hmark]; exact hlearn) (by rw [hmark]; exact hsdu)
        (by rw [hmark]; exact hbench) (by rw [hmark]; exact hstage)
    have htail : s.tail n = s.markTail n :=
      calc s.tail n
          = (s.settleTail n).goodTail n := State.tail_good hlive hopen hassembly hgood
        _ = (s.markTail n).goodTail n := by rw [State.settleTail_nothingWaits hmeter hcopies hwanted]
        _ = s.markTail n := hrest
    exact runs_to htail rfl rfl
  case frameLen => exact fun s p h => State.frameLen_endedMd h
  case tailBad =>
    rintro s u n _ rfl hlive hopen
    refine ⟨fun h => runs_keeping (State.tail_assembly hlive hopen h), ?_⟩
    rintro r hassembly h rfl
    exact runs_keeping (State.tail_reason hlive hopen hassembly h)
  case tailOver => exact fun s n h => runs_to (State.tail_over h) rfl rfl

end Sys2Proof.Machine
end

section
/-! SUPPORT. What a host read finds, group by group of each BAR (R511 to R513, R519, R520). -/
namespace Sys2Proof.Machine

/-! ### BAR0: the groups lie apart, and the offset of a word lies in its own group alone -/

section bar0
variable (s : State) {k : Nat}

theorem State.readBar0_unaligned {off : Nat} (h : off % 4 ≠ 0) : s.readBar0 off = 0 := if_pos h

theorem State.readBar0_belowMsix {off : Nat} (h0 : 0 < off) (h : off < 0x10000) : s.readBar0 off = 0 := by
  simp (disch := omega) [State.readBar0, if_neg]

theorem State.readBar0_pastBoot {off : Nat} (h : 0xD0004 ≤ off) : s.readBar0 off = 0 := by
  simp (disch := omega) [State.readBar0, if_neg]

theorem State.readBar0_msix (h : k < 512) : s.readBar0 (0x10000 + 4 * k) = s.msixWord (k / 4) (k % 4) := by
  simp (disch := omega) [State.readBar0, if_neg, if_pos]

theorem State.readBar0_pba (h : k < 4) : s.readBar0 (0x10800 + 4 * k) = s.pbaWord k := by
  simp (disch := omega) [State.readBar0, if_neg, if_pos]

theorem State.readBar0_cause (h : k < 64) : s.readBar0 (0x11000 + 4 * k) = s.host.cause.at k := by
  simp (disch := omega) [State.readBar0, if_neg, if_pos]

theorem State.readBar0_mask (h : k < 64) : s.readBar0 (0x11100 + 4 * k) = s.host.mask.at k := by
  simp (disch := omega) [State.readBar0, if_neg, if_pos]

theorem State.readBar0_time (h : k < 6) : s.readBar0 (0x50000 + 4 * k) = s.timeReg k := by
  simp (disch := omega) [State.readBar0, if_neg, if_pos]

theorem State.readBar0_gate (h : k < 512) : s.readBar0 (0x60000 + 4 * k) = s.gateStatus k := by
  simp (disch := omega) [State.readBar0, if_neg, if_pos]

theorem State.readBar0_slot (h : k < 32) : s.readBar0 (0x70000 + 4 * k) = s.slotStatus k := by
  simp (disch := omega) [State.readBar0, if_neg, if_pos]

theorem State.readBar0_pc (h : k < 128) : s.readBar0 (0x80000 + 4 * k) = s.pcStatus k := by
  simp (disch := omega) [State.readBar0, if_neg, if_pos]

theorem State.readBar0_lane (h : k < 512) : s.readBar0 (0x81000 + 4 * k) = s.trainLane k := by
  simp (disch := omega) [State.readBar0, if_neg, if_pos]

theorem State.readBar0_thread (h : k < 32) : s.readBar0 (0x90000 + 4 * k) = s.threadStatus k := by
  simp (disch := omega) [State.readBar0, if_neg, if_pos]

theorem State.readBar0_channel (h : k < 256) : s.readBar0 (0x90400 + 4 * k) = s.chStatus k := by
  simp (disch := omega) [State.readBar0, if_neg, if_pos]

theorem State.readBar0_pool (h : k < 4) : s.readBar0 (0x90800 + 4 * k) = s.poolStatus k := by
  simp (disch := omega) [State.readBar0, if_neg, if_pos]

/-- HIF.DOORBELL and MBX_STATUS of a slot alternate (R513). -/
theorem State.readBar0_doorbell (h : k < 256) : s.readBar0 (0xA0000 + 8 * k) = 0 := by
  simp (disch := omega) [State.readBar0, if_neg, if_pos, State.doorbellReg]

theorem State.readBar0_mbx (h : k < 256) : s.readBar0 (0xA0004 + 8 * k) = s.mbxStatus k := by
  have hword : (0xA0004 + 8 * k - 0xA0000) / 4 = 2 * k + 1 := by omega
  have hslot : (2 * k + 1) / 2 = k := by omega
  simp (disch := omega) [State.readBar0, if_neg, if_pos, hword, hslot]

theorem State.readBar0_id : s.readBar0 0 = 0x51200100 := by simp [State.readBar0, hifId]

theorem State.readBar0_version : s.readBar0 0x41000 = s.ucodeVersion := by simp [State.readBar0]

theorem State.readBar0_digest : s.readBar0 0x41004 = s.ucodeDigest := by simp [State.readBar0]

theorem State.readBar0_fault : s.readBar0 0xB0000 = s.faultSummary := by simp [State.readBar0]

theorem State.readBar0_boot : s.readBar0 0xD0000 = s.bootStatus := by simp [State.readBar0]

theorem State.readBar0_recorder (h : k < 4) : s.readBar0 (0xC0000 + 4 * k) = s.recorderReg k := by
  simp (disch := omega) [State.readBar0, if_neg, if_pos]

end bar0

/-! ### BAR2 and BAR4: a page is the quotient of the offset by its size, and the place in it the remainder -/

section pages
variable (s : State) {i off : Nat}

theorem State.readBar2_window {slot : Nat} (h : off < 4096) :
    s.readBar2 (4096 * slot + off) = leAt (s.mbx.slot.at slot).response off 4 := by
  rw [State.readBar2, Nat.mul_add_div (by decide), Nat.div_eq_of_lt h, Nat.add_zero, Nat.mul_add_mod, Nat.mod_eq_of_lt h]

theorem State.readBar4_counters (hi : i < 64) (h : off < 65536) : s.readBar4 (65536 * i + off) = s.pageWord i off := by
  have hpage : (65536 * i + off) / 65536 = i := by omega
  have hplace : (65536 * i + off) % 65536 = off := by omega
  rw [State.readBar4, if_pos (by omega), hpage, hplace]

theorem State.readBar4_recorder (h : off < 0x400000) : s.readBar4 (0x400000 + off) = s.ringWord off := by
  rw [State.readBar4, if_neg (by omega), if_pos (by omega), Nat.add_sub_cancel_left]

theorem State.readBar4_rings (hi : i < 64) (h : off < 65536) : s.readBar4 (0x800000 + 65536 * i + off) = s.readPage i off := by
  have hpage : (0x800000 + 65536 * i + off - 0x800000) / 65536 = i := by omega
  have hplace : (0x800000 + 65536 * i + off) % 65536 = off := by omega
  rw [State.readBar4, if_neg (by omega), if_neg (by omega), if_pos (by omega), hpage, hplace]

theorem State.readBar4_past (h : 0xC00000 ≤ off) : s.readBar4 off = 0 := by
  rw [State.readBar4, if_neg (by omega), if_neg (by omega), if_neg (by omega)]

end pages

/-! ### Widths -/

section widths
variable (s : State) (off : Nat) {width : Nat}

theorem State.readAt_bar0 : s.readAt 0 off 4 = s.readBar0 off := if_pos ⟨rfl, rfl⟩

theorem State.readAt_bar2 : s.readAt 2 off 4 = s.readBar2 off := by simp [State.readAt]

theorem State.readAt_bar4 : s.readAt 4 off 4 = s.readBar4 off := by simp [State.readAt]

theorem State.readAt_bar4_wide : s.readAt 4 off 8 = s.readBar4 off + 2 ^ 32 * s.readBar4 (off + 4) := by
  simp [State.readAt]

theorem State.readAt_notWord {bar : Nat} (hbar : bar ≠ 4) (h : width ≠ 4) : s.readAt bar off width = 0 := by
  simp [State.readAt, hbar, h]

theorem State.readAt_bar4_width (h4 : width ≠ 4) (h8 : width ≠ 8) : s.readAt 4 off width = 0 := by
  simp [State.readAt, h4, h8]

end widths

/-- Settles O59: each clause is one group of its BAR, and an address outside the groups lies in none. -/
theorem registersReadWhereTheyStand : Obligations.RegistersReadWhereTheyStand := by
  unfold Obligations.RegistersReadWhereTheyStand
  simp only [State.readAt_bar0, State.readAt_bar2, State.readAt_bar4]
  refine ⟨?widths, ?unnamed, ?single, ?groups, ?window, ?pages, ?recorder, ?ringPage⟩
  case widths =>
    exact fun s off width => ⟨fun h => ⟨s.readAt_notWord off (by decide) h, s.readAt_notWord off (by decide) h⟩,
      fun h4 h8 => s.readAt_bar4_width off h4 h8, s.readAt_bar4_wide off⟩
  case unnamed =>
    rintro s off (h | ⟨h0, h⟩ | h)
    · exact s.readBar0_unaligned h
    · exact s.readBar0_belowMsix h0 h
    · exact s.readBar0_pastBoot h
  case single => exact fun s => ⟨s.readBar0_id, s.readBar0_version, s.readBar0_digest, s.readBar0_fault, s.readBar0_boot⟩
  case groups =>
    exact fun s k => ⟨fun h => ⟨s.readBar0_msix h, s.readBar0_gate h, s.readBar0_lane h⟩,
      fun h => ⟨s.readBar0_channel h, s.readBar0_doorbell h, s.readBar0_mbx h⟩,
      fun h => s.readBar0_pc h,
      fun h => ⟨s.readBar0_cause h, s.readBar0_mask h⟩,
      fun h => ⟨s.readBar0_slot h, s.readBar0_thread h⟩,
      fun h => s.readBar0_time h,
      fun h => ⟨s.readBar0_pba h, s.readBar0_pool h, s.readBar0_recorder h⟩⟩
  case window => exact fun s slot off h => s.readBar2_window h
  case pages => exact fun s i off hi h => ⟨s.readBar4_counters hi h, s.readBar4_rings hi h⟩
  case recorder => exact fun s off => ⟨s.readBar4_recorder, s.readBar4_past⟩
  case ringPage => exact fun s i => ⟨rfl, rfl, rfl, rfl, rfl, rfl, rfl, rfl⟩

end Sys2Proof.Machine
end

section
/-! SUPPORT. The replies of the DIAG commands, check by check (R93, R380 to R382, R412, R428, R467; log entries 52, 99). -/
namespace Sys2Proof.Machine

/-! ### DEBUG_UNLOCK -/

/-- The token that DEBUG_UNLOCK opens stands behind the others until its time. -/
def State.openToken (s : State) (session scope dur : Nat) : State :=
  { s with mbx := { s.mbx with tokens := s.mbx.tokens ++ [{ session := session, scope := scope, endAt := s.time.mono + 1000000000 * dur }] } }

section debugUnlock
variable {s : State} {inst : Nat} {a : Accepted}

theorem debugUnlock_outOfRange (h : 8 ≤ leAt a.payload 0 1 ∨ leAt a.payload 4 4 < 1 ∨ 86400 < leAt a.payload 4 4) :
    s.debugUnlock inst a = .refuse E.range := if_pos h

theorem debugUnlock_opens (hscope : leAt a.payload 0 1 < 8) (hmin : 1 ≤ leAt a.payload 4 4) (hmax : leAt a.payload 4 4 ≤ 86400) :
    s.debugUnlock inst a = .ok ((s.openToken a.session (leAt a.payload 0 1) (leAt a.payload 4 4)).ruleEvent 412 a.session 0
      [leAt a.payload 0 1, leAt a.payload 4 4]) := if_neg (by omega)

end debugUnlock

/-! ### THREAD_CTL -/

/-- STATE and PC of a thread, as THREAD_CTL answers them. -/
def threadBytes (st pc : Nat) : List Byte := leBytes 1 st ++ leBytes 3 0 ++ leBytes 4 pc

section thread
variable {s : State} {t : Nat}

/-- The PC of a thread that is not halted is a free value. -/
theorem State.threadReport_runs (h : (s.thread t).st = 1 ∨ (s.thread t).st = 2) :
    s.threadReport t = (s.drawn, threadBytes (s.thread t).st (s.freeVal 32)) := if_pos h

theorem State.threadReport_halted (h : (s.thread t).st = 3) : s.threadReport t = (s, threadBytes 3 (s.thread t).pc) := by
  simp [State.threadReport, h, threadBytes]

theorem State.threadCtl_haltHalted (h : (s.thread t).st = 3) : s.threadCtl t 0 = s := if_pos h

theorem State.threadCtl_halt (h : (s.thread t).st = 1 ∨ (s.thread t).st = 2) :
    s.threadCtl t 0 = s.drawn.updThread t (fun h => { h with st := 3, before := h.st, pc := s.freeVal 32 }) := if_neg (by omega)

theorem State.threadCtl_step : s.threadCtl t 1 = s.drawn.updThread t (fun h => { h with pc := s.freeVal 32 }) := rfl

theorem State.threadCtl_kill : s.threadCtl t 3 = s.killThread t := rfl

theorem State.threadCtl_resumeNotHalted (h : (s.thread t).st = 1 ∨ (s.thread t).st = 2) : s.threadCtl t 2 = s := if_neg (by omega)

/-- A thread goes back to the state it was halted in. -/
theorem State.updThread_before {b : Nat} (h : (s.thread t).before = b) :
    s.updThread t (fun h => { h with st := h.before }) = s.updThread t (fun h => { h with st := b }) := by
  have hthread : (s.pacer.thread.at t).before = b := h
  simp [State.updThread, Tab.upd, hthread]

theorem State.threadCtl_resumeWaiting (hst : (s.thread t).st = 3) (hbefore : (s.thread t).before = 2) :
    s.threadCtl t 2 = s.updThread t (fun h => { h with st := 2 }) := by
  simp [State.threadCtl, hst, hbefore, State.updThread_before hbefore]

/-- A thread runs again, and has run in this lap. -/
def State.runAgain (s : State) (t : Nat) : State :=
  { s with pacer := { (s.updThread t (fun h => { h with st := 1 })).pacer with ranInLap := true } }

theorem State.runAgain_st : ((s.runAgain t).thread t).st = 1 := 
  congrArg Thread.st (s.updThread_thread t (fun h => { h with st := 1 }))

theorem State.threadCtl_resumeRunning (hst : (s.thread t).st = 3) (hbefore : (s.thread t).before = 1) :
    s.threadCtl t 2 = s.runAgain t := by
  simp only [State.threadCtl, hst, hbefore, State.updThread_before hbefore, if_true]; rfl

end thread

section diagThread
variable {s : State} {inst core th op : Nat} {a : Accepted}

theorem diagThread_noToken (h : s.hasToken a.session 0 = false) : s.diagThread inst a = .refuse E.noDebug := by
  simp [State.diagThread, h]

variable (htoken : s.hasToken a.session 0 = true)
include htoken

theorem diagThread_outOfRange (h : 4 ≤ leAt a.payload 0 1 ∨ 8 ≤ leAt a.payload 1 1 ∨ 4 ≤ leAt a.payload 2 1) :
    s.diagThread inst a = .refuse E.range := by
  simp [State.diagThread, htoken, h]

variable (hcore : core = leAt a.payload 0 1) (hth : th = leAt a.payload 1 1) (hop : op = leAt a.payload 2 1)
  (hcoreOk : core < 4) (hthOk : th < 8) (hopOk : op < 4)
include hcore hth hop hcoreOk hthOk hopOk

theorem diagThread_wrongState (h : (s.thread (8 * core + th)).st = 0 ∨ (op = 1 ∧ (s.thread (8 * core + th)).st ≠ 3)) :
    s.diagThread inst a = .refuse E.state := by
  subst hcore hth hop
  simp [State.diagThread, htoken, h, Nat.not_le.2 hcoreOk, Nat.not_le.2 hthOk, Nat.not_le.2 hopOk]

/-- Of a thread that the operation may act on, the reply is its report after the operation. -/
theorem diagThread_acts {u : State} {l : List Byte} (h : ¬((s.thread (8 * core + th)).st = 0 ∨ (op = 1 ∧ (s.thread (8 * core + th)).st ≠ 3)))
    (hreport : (s.threadCtl (8 * core + th) op).threadReport (8 * core + th) = (u, l)) : s.diagThread inst a = .ok u l := by
  subst hcore hth hop
  simp [State.diagThread, htoken, h, Nat.not_le.2 hcoreOk, Nat.not_le.2 hthOk, Nat.not_le.2 hopOk, hreport]

end diagThread

/-! ### STRIDE_TRACE -/

section strideTrace
variable {s : State} {inst e : Nat} {a : Accepted}

theorem strideTrace_noToken (h : s.hasToken a.session 1 = false) : s.strideTrace inst a = .refuse E.noDebug := by
  simp [State.strideTrace, h]

variable (htoken : s.hasToken a.session 1 = true)
include htoken

theorem strideTrace_outOfRange (h : 16 ≤ leAt a.payload 0 1 ∨ 2 ≤ leAt a.payload 1 1 ∨ 3 ≤ leAt a.payload 2 1) :
    s.strideTrace inst a = .refuse E.range := by
  simp [State.strideTrace, htoken, h]

variable (hpipe : leAt a.payload 0 1 < 16) (hside : leAt a.payload 1 1 < 2) (he : e = 2 * leAt a.payload 0 1 + leAt a.payload 1 1)
include hpipe hside he

theorem strideTrace_halts (h : leAt a.payload 2 1 = 1) : s.strideTrace inst a = .ok (s.haltEngine e true) (traceBytes (0, 0, 0, 0)) := by
  subst he; simp [State.strideTrace, htoken, Nat.not_le.2 hpipe, Nat.not_le.2 hside, h]

theorem strideTrace_releases (h : leAt a.payload 2 1 = 2) : s.strideTrace inst a = .ok (s.haltEngine e false) (traceBytes (0, 0, 0, 0)) := by
  subst he; simp [State.strideTrace, htoken, Nat.not_le.2 hpipe, Nat.not_le.2 hside, h]

variable (hop : leAt a.payload 2 1 = 0)
include hop

theorem strideTrace_captured {c : Nat × Nat × Nat × Nat} (h : s.stride.captured.at e = some c) :
    s.strideTrace inst a = .ok (s.armTrace e false) (traceBytes c) := by
  subst he; simp [State.strideTrace, htoken, Nat.not_le.2 hpipe, Nat.not_le.2 hside, hop, h]

variable (hnone : s.stride.captured.at e = none)
include hnone

theorem strideTrace_arms (h : s.stride.trace.at e = false) : s.strideTrace inst a = .wait (s.armTrace e true) := by
  subst he; simp [State.strideTrace, htoken, Nat.not_le.2 hpipe, Nat.not_le.2 hside, hop, hnone, h]

variable (harmed : s.stride.trace.at e = true)
include harmed

theorem strideTrace_waits (h : s.time.mono < a.at_ + 2 * s.lapNs) : s.strideTrace inst a = .wait s := by
  subst he; simp [State.strideTrace, htoken, Nat.not_le.2 hpipe, Nat.not_le.2 hside, hop, hnone, harmed, Nat.not_le.2 h]

theorem strideTrace_gaveUp (h : a.at_ + 2 * s.lapNs ≤ s.time.mono) :
    s.strideTrace inst a = .ok (s.armTrace e false) (traceBytes (0, 0, 0, 0)) := by
  subst he; simp [State.strideTrace, htoken, Nat.not_le.2 hpipe, Nat.not_le.2 hside, hop, hnone, harmed, h]

end strideTrace

/-- A command whose answer is not there yet leaves what its turn did. -/
theorem runs_waits {s u : State} {slot op : Nat} {a : Accepted} {f : State → Nat → Accepted → Reply} (h : s.grants slot op a)
    (hr : f s (slotInst slot) a = .wait u) (ht : u.time = s.time) (hp : u.pending = s.pending) : runs (serve slot op f) s = .next u :=
  runs_to (by rw [serve_grants h, hr]; rfl) ht hp

/-! ### LOOPBACK -/

section loopback
variable {s : State} {inst : Nat} {a : Accepted} (hport : s.portCheck inst (leAt a.payload 0 2) = 0)
include hport

theorem diagLoopback_badMode (h : 3 ≤ leAt a.payload 2 1) : s.diagLoopback inst a = .refuse E.range := by
  simp [State.diagLoopback, hport, h]

/-- The mode is set, and a port that is UP leaves UP as with a lost link. -/
theorem diagLoopback_sets {p : Nat} {u : State} (hp : p = leAt a.payload 0 2) (hmode : leAt a.payload 2 1 < 3)
    (hu : u = s.updPort p (fun x => { x with loopback := leAt a.payload 2 1 })) :
    s.diagLoopback inst a = .ok (if u.isUp p then (((u.loseFrames p).dropLink p).emit (.remoteFault p)).raise (linkSource p).1 (linkSource p).2 else u) := by
  subst hp hu; simp [State.diagLoopback, hport, Nat.not_le.2 hmode]

end loopback

/-! ### RESET -/

section diagReset
variable {s : State} {inst : Nat} {a : Accepted}

theorem diagReset_badKind (h : 2 ≤ leAt a.payload 0 1) : s.diagReset inst a = .refuse E.range := if_pos h

theorem diagReset_warm (h : leAt a.payload 0 1 = 0) : s.diagReset inst a = .after s [] .warmReset State.diagWarm := by
  simp [State.diagReset, h]

theorem diagReset_badUnit (hkind : leAt a.payload 0 1 = 1) (h : funcUnits (leAt a.payload 1 1) ≤ leAt a.payload 2 2) :
    s.diagReset inst a = .refuse E.range := by
  simp [State.diagReset, hkind, h]

theorem diagReset_unit (hkind : leAt a.payload 0 1 = 1) (h : leAt a.payload 2 2 < funcUnits (leAt a.payload 1 1)) :
    s.diagReset inst a = .after s [] (.reinit (leAt a.payload 1 1, leAt a.payload 2 2))
      (fun s => s.diagFunc (leAt a.payload 1 1, leAt a.payload 2 2)) := by
  simp [State.diagReset, hkind, Nat.not_le.2 h]

end diagReset

/-- The free of a payload changes neither whether a response carries a tag nor whether a context is free for it. -/
theorem State.tags_freePayload (s : State) (a b : Accepted) (r : Answer) :
    (s.freePayload a).tags b r = s.tags b r ∧ (s.freePayload a).cmacFree = s.cmacFree := by
  unfold State.freePayload; split
  · simp [State.tags, State.cmacFree, State.cmacRoom, State.cmacBusy, State.cmacJobs]
  · exact ⟨rfl, rfl⟩

section sequel
variable {s : State} {slot : Nat} {a : Accepted} {r : Answer}

/-- With no tag to wait for, what follows comes after the answer. -/
theorem State.postThen_untagged (h : (s.tags a r && !s.cmacFree) = false) (what : Sequel) (next : State → State) :
    s.postThen slot a r what next = next (s.post slot a r) := by
  obtain ⟨htags, hfree⟩ := s.tags_freePayload a a r
  unfold State.post State.postThen
  simp only [htags, hfree, h]
  split <;> rfl

/-- Else it waits for the tag, with the answer. -/
theorem State.postThen_tagged (h : (s.tags a r && !s.cmacFree) = true) (hloud : a.silent = false) (hbuf : a.buf = none) (what : Sequel)
    (next : State → State) : s.postThen slot a r what next = s.askTag slot 1 (.response a r what) := by
  have ha : { a with buf := none } = a := by rw [← hbuf]
  unfold State.postThen State.freePayload
  rw [ha]
  simp [hbuf, hloud, h]

end sequel

theorem State.diagWarm_busy {u : State} (h : u.boot.booting = true ∨ u.fault.warm = true) : u.diagWarm = u := by
  rcases h with h | h <;> simp [State.diagWarm, h]

theorem State.diagWarm_begins {u : State} (hboot : u.boot.booting = false) (hwarm : u.fault.warm = false) : u.diagWarm = u.warmReset 3 := by
  simp [State.diagWarm, hboot, hwarm]

theorem State.diagFunc_begins {u : State} {f : Nat × Nat} (h : ∀ g ∈ u.fault.funcs, covers g f = false) :
    u.diagFunc f = (u.beginFunc f).endFunc f := by
  have hnone : u.fault.funcs.any (fun g => covers g f) = false := List.any_eq_false.2 (fun g hg => by simp [h g hg])
  simp [State.diagFunc, hnone]

theorem State.diagFunc_covered {u : State} {f : Nat × Nat} (h : ∃ g ∈ u.fault.funcs, covers g f = true) : u.diagFunc f = u :=
  if_pos (List.any_eq_true.2 h)

end Sys2Proof.Machine
end

section
/-! O58: what the DIAG commands answer and do. -/
namespace Sys2Proof.Machine

/-! ### The rows of the DIAG commands serve their commands -/

theorem exec_diagDebugUnlock (slot : Nat) (s : State) :
    exec (.diagDebugUnlock slot) s = runs (serve slot Op.diagDebugUnlock State.debugUnlock) s := rfl

theorem exec_diagDebugEnd (slot : Nat) (s : State) : exec (.diagDebugEnd slot) s = runs (serve slot Op.diagDebugEnd State.debugEnd) s := rfl

theorem exec_diagThreadCtl (slot : Nat) (s : State) : exec (.diagThreadCtl slot) s = runs (serve slot Op.diagThreadCtl State.diagThread) s := rfl

theorem exec_diagStrideTrace (slot : Nat) (s : State) :
    exec (.diagStrideTrace slot) s = runs (serve slot Op.diagStrideTrace State.strideTrace) s := rfl

theorem exec_diagLoopback (slot : Nat) (s : State) : exec (.diagLoopback slot) s = runs (serve slot Op.diagLoopback State.diagLoopback) s := rfl

theorem exec_diagReset (slot : Nat) (s : State) : exec (.diagReset slot) s = runs (serve slot Op.diagReset State.diagReset) s := rfl

/-- A command that something follows: at once after the answer, or once the answer's tag is there. -/
theorem runs_follows {s : State} {slot op : Nat} {a : Accepted} {f : State → Nat → Accepted → Reply} {what : Sequel} {next : State → State}
    (hg : s.grants slot op a) (hr : f s (slotInst slot) a = .after s [] what next) :
    ((s.tags a { rstate := 0, status := 0 } && !s.cmacFree) = false →
      runs (serve slot op f) s = .next (s.keeping (next (s.answers slot a))))
    ∧ ((s.tags a { rstate := 0, status := 0 } && !s.cmacFree) = true → a.silent = false → a.buf = none →
      runs (serve slot op f) s = .next (s.keeping (s.askTag slot 1 (.response a { rstate := 0, status := 0 } what)))) :=
  ⟨fun h => runs_grants hg (by rw [hr]; exact State.postThen_untagged h what next),
    fun h hloud hbuf => runs_grants hg (by rw [hr]; exact State.postThen_tagged h hloud hbuf what next)⟩

/-- Settles O58: each clause is one reply of its command (the trace's two laps, the threads' reports and what follows a reset are log entry
99), carried out by the row that serves it. -/
theorem diagnosticsNeedTheirToken : Obligations.DiagnosticsNeedTheirToken := by
  unfold Obligations.DiagnosticsNeedTheirToken
  simp only [exec_diagDebugUnlock, exec_diagDebugEnd, exec_diagThreadCtl, exec_diagStrideTrace, exec_diagLoopback, exec_diagReset]
  refine ⟨?unlock, ?debugEnd, ?noToken, ?thread, ?range, ?trace, ?loopback, ?reset⟩
  case unlock =>
    rintro s slot _ _ a hg rfl rfl
    exact ⟨fun h => runs_refuses hg (debugUnlock_outOfRange h),
      fun hscope hmin hmax => ⟨s.openToken a.session _ _, _, runs_answers hg (debugUnlock_opens hscope hmin hmax), rfl, rfl⟩⟩
  case debugEnd => exact fun s slot a hg => runs_answers hg rfl
  case noToken =>
    exact fun s slot a => ⟨fun hg h => runs_refuses hg (diagThread_noToken h), fun hg h => runs_refuses hg (strideTrace_noToken h)⟩
  case thread =>
    rintro s slot core th op _ a hg htoken hcore hth hop hcoreOk hthOk hopOk rfl
    have hacts {u l} (h : ¬((s.thread (8 * core + th)).st = 0 ∨ (op = 1 ∧ (s.thread (8 * core + th)).st ≠ 3)))
        (hreport : (s.threadCtl (8 * core + th) op).threadReport (8 * core + th) = (u, l)) :=
      runs_answers hg (diagThread_acts htoken hcore hth hop hcoreOk hthOk hopOk h hreport)
    refine ⟨fun h => runs_refuses hg (diagThread_wrongState htoken hcore hth hop hcoreOk hthOk hopOk h), ?haltHalted, ?step, ?kill, ?halt,
      ?resumeWaiting, ?resumeRunning, ?resumeNoHalt⟩
    case haltHalted =>
      intro h0 hst
      exact hacts (by omega) (by rw [h0, State.threadCtl_haltHalted hst, State.threadReport_halted hst]; rfl)
    case step =>
      intro h1 hst
      exact hacts (by omega) (by rw [h1, State.threadCtl_step, State.threadReport_halted (by rw [State.updThread_thread]; exact hst)]; simp [threadBytes])
    case kill =>
      intro h3 hst
      exact hacts (by omega) (by rw [h3, State.threadCtl_kill])
    case halt =>
      intro h0 hst
      exact hacts (by omega) (by rw [h0, State.threadCtl_halt hst, State.threadReport_halted (by simp)]; simp [threadBytes])
    case resumeWaiting =>
      intro h2 hst hbefore
      refine hacts (by omega) ?_
      rw [h2, State.threadCtl_resumeWaiting hst hbefore, State.threadReport_runs (by simp), State.updThread_thread]; rfl
    case resumeRunning =>
      intro h2 hst hbefore
      refine ⟨s.runAgain _, hacts (by omega) ?_, rfl⟩
      rw [h2, State.threadCtl_resumeRunning hst hbefore, State.threadReport_runs (.inl State.runAgain_st), State.runAgain_st]; rfl
    case resumeNoHalt =>
      intro h2 hst
      exact hacts (by omega) (by rw [h2, State.threadCtl_resumeNotHalted hst, State.threadReport_runs hst]; rfl)
  case range =>
    exact fun s slot a => ⟨fun hg htoken h => runs_refuses hg (diagThread_outOfRange htoken h),
      fun hg htoken h => runs_refuses hg (strideTrace_outOfRange htoken h)⟩
  case trace =>
    rintro s slot e _ _ _ a hg htoken rfl rfl rfl hpipe hside he
    exact ⟨fun h => runs_answers hg (strideTrace_halts htoken hpipe hside he h),
      fun h => runs_answers hg (strideTrace_releases htoken hpipe hside he h),
      fun hop hnone h => runs_waits hg (strideTrace_arms htoken hpipe hside he hop hnone h) rfl rfl,
      fun c hop h => runs_answers hg (strideTrace_captured htoken hpipe hside he hop h),
      fun hop hnone harmed => ⟨fun h => runs_waits hg (strideTrace_waits htoken hpipe hside he hop hnone harmed h) rfl rfl,
        fun h => runs_answers hg (strideTrace_gaveUp htoken hpipe hside he hop hnone harmed h)⟩⟩
  case loopback =>
    rintro s slot p _ a u hg hp rfl hport hu
    have hsets (hmode : leAt a.payload 2 1 < 3) := runs_answers hg (diagLoopback_sets (hp ▸ hport) hp hmode hu)
    refine ⟨fun h => runs_refuses hg (diagLoopback_badMode (hp ▸ hport) h), fun hmode hdown => ?_, fun hmode hup => ?_⟩
    · rw [hsets hmode, hdown, if_neg Bool.false_ne_true]
    · rw [hsets hmode, hup, if_pos rfl]
  case reset =>
    rintro s _ slot a hg rfl
    refine ⟨fun h => runs_refuses hg (diagReset_badKind h), fun hwarm => ?_, ?_⟩
    · obtain ⟨hnow, hlater⟩ := runs_follows hg (diagReset_warm hwarm)
      refine ⟨fun htag => ?_, hlater⟩
      rw [hnow htag]
      exact ⟨fun h => by rw [State.diagWarm_busy h], fun hboot h => by rw [State.diagWarm_begins hboot h]⟩
    · rintro _ _ hkind rfl rfl
      refine ⟨fun h => runs_refuses hg (diagReset_badUnit hkind h), fun h => ?_⟩
      obtain ⟨hnow, hlater⟩ := runs_follows hg (diagReset_unit hkind h)
      refine ⟨fun htag => ?_, hlater⟩
      rw [hnow htag]
      exact ⟨fun h => by rw [State.diagFunc_begins h], fun h => by rw [State.diagFunc_covered h]⟩

end Sys2Proof.Machine
end

section
/-! SUPPORT. The loads, the bank switch and the boot header, case by case (R104, R106, R107, R374, R382, R429, R497, R498; log entries 98, 99). -/
namespace Sys2Proof.Machine

/-! ### STRIDE_LOAD and STRIDE_SWITCH -/

section stride
variable {s : State} {inst lap : Nat} {a : Accepted} {c : Chain} {ok : Bool}

theorem strideLoad_noLap (h : s.atLap (leAt a.payload 0 1) (leAt a.payload 4 4) = none) : s.strideLoad c ok inst a = .refuse E.format := by
  simp only [State.strideLoad, h]

theorem strideSwitch_noStandby (hlap : s.atLap (leAt a.payload 0 1) (leAt a.payload 4 4) = some lap) (h : s.stride.standbyValid = false) :
    s.strideSwitch inst a = .refuse E.state := by
  simp [State.strideSwitch, hlap, h]

theorem strideSwitch_names (hlap : s.atLap (leAt a.payload 0 1) (leAt a.payload 4 4) = some lap) (h : s.stride.standbyValid = true) :
    s.strideSwitch inst a = .ok { s with stride := { s.stride with switchAt := some lap } } (leBytes 4 lap) := by
  simp [State.strideSwitch, hlap, h]

variable (hlap : s.atLap (leAt a.payload 0 1) (leAt a.payload 4 4) = some lap)
include hlap

theorem strideLoad_busy (h : s.stride.loading = true ∨ s.stride.draining = true) : s.strideLoad c ok inst a = .refuse E.busy := by
  simp [State.strideLoad, hlap, h]

theorem strideLoad_begins (hload : s.stride.loading = false) (hdrain : s.stride.draining = false) :
    s.strideLoad c ok inst a = .job (State.noteFreerun { s with stride := { s.stride with loading := true } } Op.imgStrideLoad)
      (.strideLoad (leAt a.payload 0 1 == 1 && later 32 (leAt a.payload 4 4) s.lap) (leAt a.payload 4 4) (ok && s.chainStatus c == 0)
        (a.payload.drop 8)) 5 := by
  simp [State.strideLoad, hlap, hload, hdrain]

end stride

/-! ### The steps of a load: DMA, digest, signature, format, standby bank -/

section loadStep
variable {s : State} {j : Job} {at_ ok : Bool} {lap : Nat} {l : List Byte}

theorem State.jobStep_strideLoad (h : j.kind = .strideLoad at_ lap ok l) : s.jobStep j = s.loadStep j at_ lap ok l := by
  simp only [State.jobStep, h]

variable (hlive : j.abort = false)
include hlive

theorem State.loadStep_digest (hdone : j.done = 1) (h : s.cmacFree = false ∨ s.digests j = true) :
    s.loadStep j at_ lap ok l = s.askDigest j := by
  simp [State.loadStep, hlive, hdone, h]

theorem State.loadStep_badSignature (hdone : j.done = 2) (h : ok = false) :
    s.loadStep j at_ lap ok l = s.endLoad j 0 E.signature (leBytes 4 0) := by
  simp [State.loadStep, hlive, hdone, h]

theorem State.loadStep_badFormat (hdone : j.done = 3) (h : strideImage l = none) :
    s.loadStep j at_ lap ok l = s.endLoad j 0 E.imageFormat (leBytes 4 0) := by
  simp [State.loadStep, hlive, hdone, h]

/-- A step before the last that finds its digest done, its signature right or its format right is taken. -/
theorem State.loadStep_goesOn (hbefore : j.done < 4) (hdigest : j.done = 1 → s.cmacFree = true ∧ s.digests j = false)
    (hsignature : j.done = 2 → ok = true) (hformat : j.done = 3 → strideImage l ≠ none) :
    s.loadStep j at_ lap ok l = s.stepJob j.session j.seq id := by
  have hasks : ¬(j.done = 1 ∧ (s.cmacFree = false ∨ s.digests j = true)) := fun ⟨h1, h⟩ => by simp [hdigest h1] at h
  have hsigned : ¬(j.done = 2 ∧ ok = false) := fun ⟨h2, h⟩ => by simp [hsignature h2] at h
  rw [State.loadStep, if_neg (by simp [hlive]), if_neg hasks, if_neg hsigned]
  split
  · next himage => exact if_neg (fun h3 => hformat h3 himage)
  · exact if_pos hbefore

/-- The standby bank holds an image, and a switch is due at a lap. -/
def Stride.withStandby (r : Stride) (img : Image) (lap : Nat) : Stride :=
  { (if r.cur then { r with bank0 := img } else { r with bank1 := img }) with standbyValid := true, switchAt := some lap }

theorem State.loadStep_writes {img : Image} (hdone : j.done = 4) (himage : strideImage l = some img) (hdrain : s.stride.draining = false) :
    ∃ n, s.loadStep j at_ lap ok l = State.endLoad { s with stride := s.stride.withStandby img n } j 0 0 (leBytes 4 n) := by
  exact ⟨_, by simp [State.loadStep, hlive, hdone, himage, hdrain, Stride.withStandby]; rfl⟩

end loadStep

/-- The image is in the standby bank; the bank in force stays in force and keeps its image. -/
theorem Stride.withStandby_banks (r : Stride) (img : Image) (lap : Nat) :
    (r.withStandby img lap).standby = img ∧ (r.withStandby img lap).standbyValid = true ∧ (r.withStandby img lap).switchAt = some lap
    ∧ (r.withStandby img lap).cur = r.cur
    ∧ (if (r.withStandby img lap).cur then (r.withStandby img lap).bank1 else (r.withStandby img lap).bank0) = (if r.cur then r.bank1 else r.bank0) := by
  unfold Stride.standby Stride.withStandby
  cases r.cur <;> simp

/-! ### The switch of the banks -/

section switch
variable {s : State} {lap : Nat}

theorem State.switchStride_early (hdue : s.stride.switchAt = some lap) (h : later 32 lap s.lap = true) : s.switchStride = s := by
  simp [State.switchStride, hdue, h]

theorem State.switchStride_due (hdue : s.stride.switchAt = some lap) (h : later 32 lap s.lap = false) :
    s.switchStride =
      State.writePointer { s with stride := { s.stride with cur := !s.stride.cur, switchAt := none, standbyValid := false, draining := true } } := by
  simp [State.switchStride, hdue, h]

/-- The image in force, as the banks hold it. -/
def Stride.inForce (r : Stride) : Image := if r.cur then r.bank1 else r.bank0

/-- The boot pointer follows the switch, unless the write of the flash fails. -/
theorem State.writePointer_builtin (h : s.stride.inForce.builtin = true) :
    s.writePointer = if s.freeVal 1 = 1 then s.drawn.keepPersist (fun p => { p with stridePtr := 2 }) else s.drawn := by
  unfold Stride.inForce at h
  by_cases hok : s.freeVal 1 = 1 <;> simp [State.writePointer, hok, h]

/-- A loaded image goes into the slot that the pointer does not name. -/
theorem State.writePointer_slotB (h : s.stride.inForce.builtin = false) (hptr : (s.drawn.boot.persist s.drawn.bootKey).stridePtr = 0) :
    s.writePointer = if s.freeVal 1 = 1 then
      State.keepPersist { s.drawn with boot := { s.drawn.boot with strideB := some s.stride.inForce } } (fun p => { p with stridePtr := 1 })
      else s.drawn := by
  unfold Stride.inForce at h ⊢
  by_cases hok : s.freeVal 1 = 1
  · rw [State.writePointer]; simp only [hok, h, hptr, beq_self_eq_true, Bool.not_true, Bool.false_eq_true, if_false, if_true]
  · simp [State.writePointer, hok]

theorem State.writePointer_slotA (h : s.stride.inForce.builtin = false) (hptr : (s.drawn.boot.persist s.drawn.bootKey).stridePtr ≠ 0) :
    s.writePointer = if s.freeVal 1 = 1 then
      State.keepPersist { s.drawn with boot := { s.drawn.boot with strideA := some s.stride.inForce } } (fun p => { p with stridePtr := 0 })
      else s.drawn := by
  unfold Stride.inForce at h ⊢
  by_cases hok : s.freeVal 1 = 1
  · rw [State.writePointer]; simp only [hok, h, hptr, beq_self_eq_true, Bool.not_true, Bool.false_eq_true, if_false, if_true]
  · simp [State.writePointer, hok]

theorem State.bankDrained_holds (h : s.bankHolds (!s.stride.cur) = true) : s.bankDrained = s := by
  simp [State.bankDrained, h]

theorem State.bankDrained_empty (hdrain : s.stride.draining = true) (h : s.bankHolds (!s.stride.cur) = false) :
    s.bankDrained = { s with stride := { s.stride with draining := false, standbyValid := true } } := by
  simp [State.bankDrained, hdrain, h]

end switch

/-! ### Firmware -/

section firmware
variable {s : State} {inst svn : Nat} {a : Accepted} {ok : Bool}

theorem fwLoad_busy (h : ∃ j ∈ s.running, j.op = Op.imgFwLoad) : s.fwLoad ok svn inst a = .refuse E.busy := by
  obtain ⟨j, hj, hop⟩ := h
  exact if_pos (List.any_eq_true.2 ⟨j, hj, by simp [hop]⟩)

theorem fwLoad_takes {u : State} (hfree : ∀ j ∈ s.running, j.op ≠ Op.imgFwLoad)
    (htake : s.takeSegment fwTarget (leAt a.payload 0 2) (leAt a.payload 2 2) (a.payload.drop 4) = .ok u) :
    s.fwLoad ok svn inst a = .job u (.fwLoad ok svn) (if leAt a.payload 0 2 + 1 = leAt a.payload 2 2 then 2 else 1) := by
  have hnone : s.running.any (fun j => j.op == Op.imgFwLoad) = false := List.any_eq_false.2 (fun j hj => by simp [hfree j hj])
  simp [State.fwLoad, hnone, htake]

theorem fwActivate_nothing (h : s.boot.fwLoaded = none) : s.fwActivate inst a = .refuse E.state := by
  simp only [State.fwActivate, h]

theorem fwActivate_names {b : Bool} (h : s.boot.fwLoaded = some (b, svn)) : s.fwActivate inst a = .ok (State.drawn
    { s with boot := { s.boot.writeHeader s.bootKey { s.headerBase with slotB := b, svn := svn } with svnFloor := max s.boot.svnFloor svn } } 3) := by
  simp only [State.fwActivate, h]

end firmware

section fwStep
variable {s : State} {j : Job} {svn : Nat} {ok : Bool}

theorem State.jobStep_fwLoad (h : j.kind = .fwLoad ok svn) : s.jobStep j = s.fwStep j ok svn := by
  simp only [State.jobStep, h]

variable (hlive : j.abort = false) (htotal : j.total = 2) (hdone : j.done = 1)
include hlive htotal hdone

theorem State.fwStep_badSignature (h : ok = false) :
    s.fwStep j ok svn = (s.endTransfer fwTarget).endJob j.session j.seq 0 E.signature := by
  simp [State.fwStep, hlive, htotal, hdone, h]

theorem State.fwStep_badFormat (hok : ok = true) (h : svn < s.boot.svnFloor ∨ fwSlotBytes < (s.mbx.transfer.at fwTarget).bytes.length) :
    s.fwStep j ok svn = (s.endTransfer fwTarget).endJob j.session j.seq 0 E.imageFormat := by
  have hboot : (s.endTransfer fwTarget).boot = s.boot := rfl
  simp [State.fwStep, hlive, htotal, hdone, hok, h, hboot]

theorem State.fwStep_loads (hok : ok = true) (hsvn : s.boot.svnFloor ≤ svn) (hlen : (s.mbx.transfer.at fwTarget).bytes.length ≤ fwSlotBytes) :
    s.fwStep j ok svn = State.endJob { s.endTransfer fwTarget with boot := { (s.endTransfer fwTarget).boot with fwLoaded := some (!s.boot.fwSlot, svn) } }
      j.session j.seq 0 0 := by
  have hboot : (s.endTransfer fwTarget).boot = s.boot := rfl
  simp [State.fwStep, hlive, htotal, hdone, hok, hboot, Nat.not_lt.2 hsvn, Nat.not_lt.2 hlen]

end fwStep

/-! ### The boot header -/

theorem Boot.writeHeader_first {b : Boot} {key : List Byte} (h : b.headerOne key = true ∨ b.hdr0.good key = false) (r : BootHdr) :
    b.writeHeader key r =
      { b with hdr0 := BootHdr.seal { r with valid := true, writeSeq := ((b.header key).writeSeq + 1) % 2 ^ 32 } key } := by
  rcases h with h | h <;> simp [Boot.writeHeader, h]

theorem Boot.writeHeader_second {b : Boot} {key : List Byte} (hone : b.headerOne key = false) (hgood : b.hdr0.good key = true) (r : BootHdr) :
    b.writeHeader key r =
      { b with hdr1 := BootHdr.seal { r with valid := true, writeSeq := ((b.header key).writeSeq + 1) % 2 ^ 32 } key } := by
  simp [Boot.writeHeader, hone, hgood]

theorem State.headerBase_valid {s : State} (h : (s.boot.header s.sec.keys.boot).valid = true) :
    s.headerBase = s.boot.header s.sec.keys.boot := if_pos h

/-! ### Applets -/

section applet
variable {s : State} {inst : Nat} {a : Accepted} (happ : appletOk (leAt a.payload 0 1) (leAt a.payload 1 1) = true)
include happ

theorem appletStop_kills : s.appletStop inst a = .ok (s.killThread (8 * leAt a.payload 0 1 + leAt a.payload 1 1)) := by
  simp [State.appletStop, happ]

theorem appletLoad_disabled (c : Chain) (ok : Bool) (h : bit (s.par P.appletEnable (leAt a.payload 0 1)) (leAt a.payload 1 1 - 6) = false) :
    s.appletLoad c ok inst a = .refuse E.state := by
  simp [State.appletLoad, happ, h]

theorem appletLoad_takes {u : State} (c : Chain) (ok : Bool)
    (hen : bit (s.par P.appletEnable (leAt a.payload 0 1)) (leAt a.payload 1 1 - 6) = true)
    (hfree : ∀ j ∈ s.running, ∀ b, j.kind ≠ .appletLoad (leAt a.payload 0 1) (leAt a.payload 1 1) b)
    (htake : s.takeSegment (appletTarget (leAt a.payload 0 1) (leAt a.payload 1 1)) (leAt a.payload 2 2) (leAt a.payload 4 2)
      (a.payload.drop 6) = .ok u) :
    s.appletLoad c ok inst a = .job (if leAt a.payload 2 2 + 1 = leAt a.payload 4 2 then u.noteFreerun Op.imgAppletLoad else u)
      (.appletLoad (leAt a.payload 0 1) (leAt a.payload 1 1)
        (ok && u.chainStatus c == 0))
      (if leAt a.payload 2 2 + 1 = leAt a.payload 4 2 then 2 else 1) := by
  simp only [State.appletLoad, happ, hen, Bool.not_true, Bool.false_eq_true, if_false]
  rw [if_neg, htake]
  intro hany
  obtain ⟨j, hj, hmatch⟩ := List.any_eq_true.1 hany
  split at hmatch
  · next core t b hkind =>
    obtain ⟨hcore, ht⟩ : core = leAt a.payload 0 1 ∧ t = leAt a.payload 1 1 := by simpa using hmatch
    exact hfree j hj b (by rw [hkind, hcore, ht])
  · exact Bool.false_ne_true hmatch

end applet

/-- The thread, killed first, runs an applet whose number is a free value. -/
def State.startApplet (s : State) (thread : Nat) : State :=
  State.updThread { s.drawn.killThread thread with pacer := { (s.drawn.killThread thread).pacer with ranInLap := true } }
    thread (fun _ => { st := 1, applet := true, appletId := s.freeVal 16 })

theorem State.startApplet_thread (s : State) (thread : Nat) :
    (s.startApplet thread).thread thread = { st := 1, applet := true, appletId := s.freeVal 16 } := State.updThread_thread _ _ _

section appletStep
variable {s : State} {j : Job} {core t : Nat} {ok : Bool}

theorem State.jobStep_appletLoad (h : j.kind = .appletLoad core t ok) : s.jobStep j = s.appletStep j core t ok := by
  simp only [State.jobStep, h]

variable (hlive : j.abort = false) (htotal : j.total = 2) (hdone : j.done = 1)
include hlive htotal hdone

theorem State.appletStep_badSignature (h : ok = false) :
    s.appletStep j core t ok = (s.endTransfer (appletTarget core t)).endJob j.session j.seq 0 E.signature := by
  simp [State.appletStep, hlive, htotal, hdone, h]

theorem State.appletStep_disabled (hok : ok = true) (h : bit (s.par P.appletEnable core) (t - 6) = false) :
    s.appletStep j core t ok = (s.endTransfer (appletTarget core t)).endJob j.session j.seq 0 E.state := by
  have hpar : (s.endTransfer (appletTarget core t)).par P.appletEnable core = s.par P.appletEnable core := rfl
  simp [State.appletStep, hlive, htotal, hdone, hok, hpar, h]

theorem State.appletStep_starts (hok : ok = true) (h : bit (s.par P.appletEnable core) (t - 6) = true) :
    s.appletStep j core t ok = ((s.endTransfer (appletTarget core t)).startApplet (8 * core + t)).endJob j.session j.seq 0 0 := by
  have hpar : (s.endTransfer (appletTarget core t)).par P.appletEnable core = s.par P.appletEnable core := rfl
  simp only [State.appletStep, hlive, htotal, hdone, hok, hpar, h, Bool.false_eq_true, Bool.not_true, if_false]
  rfl

end appletStep

end Sys2Proof.Machine
end

section
/-! O57: what the IMG commands and the bank switch do. -/
namespace Sys2Proof.Machine

/-! ### The rows of the IMG commands serve their commands -/

theorem exec_imgStrideLoad (slot : Nat) (c : Chain) (ok : Bool) (s : State) :
    exec (.imgStrideLoad slot c ok) s = runs (serve slot Op.imgStrideLoad (State.strideLoad c ok)) s := rfl

theorem exec_imgStrideSwitch (slot : Nat) (s : State) : exec (.imgStrideSwitch slot) s = runs (serve slot Op.imgStrideSwitch State.strideSwitch) s := rfl

theorem exec_strideBankDrained (s : State) : exec .strideBankDrained s = runs State.bankDrained s := rfl

theorem exec_imgFwLoad (slot : Nat) (ok : Bool) (svn : Nat) (s : State) :
    exec (.imgFwLoad slot ok svn) s = runs (serve slot Op.imgFwLoad (State.fwLoad ok svn)) s := rfl

theorem exec_imgFwActivate (slot : Nat) (s : State) : exec (.imgFwActivate slot) s = runs (serve slot Op.imgFwActivate State.fwActivate) s := rfl

theorem exec_imgAppletLoad (slot : Nat) (c : Chain) (ok : Bool) (s : State) :
    exec (.imgAppletLoad slot c ok) s = runs (serve slot Op.imgAppletLoad (State.appletLoad c ok)) s := rfl

theorem exec_imgAppletStop (slot : Nat) (s : State) : exec (.imgAppletStop slot) s = runs (serve slot Op.imgAppletStop State.appletStop) s := rfl

theorem exec_imgStatus (slot : Nat) (s : State) : exec (.imgStatus slot) s = runs (serve slot Op.imgStatus State.imgStatus) s := rfl

/-- Settles O57: each clause is one reply of its command or one step of its job (which step makes which check is log entry 98). -/
theorem imagesAreLoadedAndSwitched : Obligations.ImagesAreLoadedAndSwitched := by
  unfold Obligations.ImagesAreLoadedAndSwitched
  simp only [exec_imgStrideLoad, exec_imgStrideSwitch, exec_strideBankDrained, exec_imgFwLoad, exec_imgFwActivate, exec_imgAppletLoad,
    exec_imgAppletStop, exec_imgStatus]
  refine ⟨?load, ?loadStep, ?switch, ?lap, ?pointer, ?drained, ?firmware, ?fwStep, ?activate, ?header, ?headerBase, ?applet, ?appletStep, ?status⟩
  case load =>
    rintro s slot lap _ a c ok hg rfl
    exact ⟨fun h => runs_refuses hg (strideLoad_noLap h),
      fun hlap => ⟨fun h => runs_refuses hg (strideLoad_busy hlap h),
        fun hload hdrain h32 => runs_begins hg h32 (strideLoad_begins hlap hload hdrain)⟩⟩
  case loadStep =>
    intro s j at_ ok lap l hkind hlive
    simp only [State.jobStep_strideLoad hkind]
    refine ⟨fun h => State.loadStep_goesOn hlive (by omega) ?_ ?_ ?_, fun hdone h => State.loadStep_digest hlive hdone h,
      fun hdone h => State.loadStep_badSignature hlive hdone h, fun hdone h => State.loadStep_badFormat hlive hdone h, ?_⟩
    · rintro h1; simpa [h1] using h
    · rintro h2; simpa [h2] using h
    · rintro h3; simpa [h3] using h
    · intro img hdone himage hdrain
      obtain ⟨n, h⟩ := State.loadStep_writes (at_ := at_) (ok := ok) (lap := lap) hlive hdone himage hdrain
      obtain ⟨hstandby, hvalid, hdue, hcur, hforce⟩ := s.stride.withStandby_banks img n
      exact ⟨_, n, h, hstandby, hvalid, hdue, hcur, by rw [hforce, hcur]⟩
  case switch =>
    exact fun s slot lap a hg hlap => ⟨fun h => runs_refuses hg (strideSwitch_noStandby hlap h),
      fun h => runs_answers hg (strideSwitch_names hlap h)⟩
  case lap => exact fun s lap hdue => ⟨State.switchStride_early hdue, State.switchStride_due hdue⟩
  case pointer =>
    rintro s _ _ rfl rfl
    exact ⟨State.writePointer_builtin, fun hloaded => ⟨State.writePointer_slotB hloaded, State.writePointer_slotA hloaded⟩⟩
  case drained =>
    exact fun s hdrain => ⟨fun h => runs_to (State.bankDrained_holds h) rfl rfl, fun h => runs_to (State.bankDrained_empty hdrain h) rfl rfl⟩
  case firmware =>
    rintro s u slot svn _ _ a ok hg rfl rfl
    exact ⟨fun h => runs_refuses hg (fwLoad_busy h), fun hfree htake h32 => runs_begins hg h32 (fwLoad_takes hfree htake)⟩
  case fwStep =>
    rintro s j svn ok _ hkind hlive htotal hdone rfl
    simp only [State.jobStep_fwLoad hkind]
    exact ⟨State.fwStep_badSignature hlive htotal hdone, State.fwStep_badFormat hlive htotal hdone, State.fwStep_loads hlive htotal hdone⟩
  case activate =>
    exact fun s slot a hg => ⟨fun h => runs_refuses hg (fwActivate_nothing h), fun b svn h => runs_answers hg (fwActivate_names h)⟩
  case header =>
    rintro b key h _ rfl
    exact ⟨fun hfirst => Boot.writeHeader_first hfirst h, fun hone hgood => Boot.writeHeader_second hone hgood h⟩
  case headerBase => exact fun s => State.headerBase_valid
  case applet =>
    rintro s slot _ _ a rfl rfl happ
    refine ⟨fun hg => runs_answers hg (appletStop_kills happ), ?_⟩
    rintro u _ _ c ok hg rfl rfl
    refine ⟨fun h => runs_refuses hg (appletLoad_disabled happ c ok h), fun hen hfree htake h32 hmore => ?_, fun hen hfree htake h32 hlast => ?_⟩
    · have hjob := appletLoad_takes (inst := slotInst slot) happ c ok hen hfree htake
      simp only [if_neg hmore] at hjob
      exact runs_begins hg h32 hjob
    · have hjob := appletLoad_takes (inst := slotInst slot) happ c ok hen hfree htake
      simp only [if_pos hlast] at hjob
      exact runs_begins hg h32 hjob
  case appletStep =>
    rintro s _ j core t ok hkind hlive htotal hdone rfl
    simp only [State.jobStep_appletLoad hkind]
    exact ⟨State.appletStep_badSignature hlive htotal hdone, State.appletStep_disabled hlive htotal hdone,
      fun hok h => ⟨_, State.appletStep_starts hlive htotal hdone hok h, State.startApplet_thread _ _, rfl⟩⟩
  case status => exact fun s slot a hg => runs_answers hg rfl

end Sys2Proof.Machine
end

section
/-! SUPPORT. The contexts of the Stride engines, case by case (R79, R80, R82 to R84, R90, R92, R95, R99, R101). -/
namespace Sys2Proof.Machine

/-! ### STRIDE_ADMIT -/

/-- Of three slots the one with the fewest contexts, the lowest on a tie (R79). -/
def fewest (load : Nat → Nat) : Nat := [0, 1, 2].foldl (fun best i => if load i < load best then i else best) 0

theorem fewest_spec (load : Nat → Nat) :
    fewest load < 3 ∧ ∀ j, j < 3 → load (fewest load) ≤ load j ∧ (j < fewest load → load (fewest load) < load j) := by
  have hcases : (fewest load = 0 ∧ load 0 ≤ load 1 ∧ load 0 ≤ load 2) ∨ (fewest load = 1 ∧ load 1 < load 0 ∧ load 1 ≤ load 2)
      ∨ (fewest load = 2 ∧ load 2 < load 0 ∧ load 2 < load 1) := by
    simp only [fewest, List.foldl_cons, List.foldl_nil, Nat.lt_irrefl, if_false]
    split <;> split <;> omega
  rcases hcases with ⟨hmin, h⟩ | ⟨hmin, h⟩ | ⟨hmin, h⟩ <;> rw [hmin] <;>
    refine ⟨by decide, fun j hj => ?_⟩ <;> obtain rfl | rfl | rfl : j = 0 ∨ j = 1 ∨ j = 2 := by omega
  all_goals omega

theorem State.freeSlot_some {s : State} {engine k : Nat} (h : s.freeSlot engine = some k) :
    k = fewest (s.contexts engine) ∧ s.contexts engine k < 64 := by
  simp only [State.freeSlot] at h
  split at h
  · next hroom => obtain rfl := Option.some.inj h; exact ⟨rfl, hroom.1⟩
  · exact absurd h.symm (Option.some_ne_none _)

section entry
variable {s : State} {n : Nat}

theorem State.strideAdmit_idle (h : s.behind n (fun t => decide (t = .fifo)) = true ∨ s.freeSlot (2 * pipeOf (s.pkt.at n).port) = none ∨
    s.stride.halted.at (2 * pipeOf (s.pkt.at n).port) = true) : s.strideAdmit n = s := by
  rcases h with h | h | h <;> simp [State.strideAdmit, h]

theorem State.strideAdmit_enters {k : Nat} (hlive : (s.pkt.at n).live = true) (hfifo : (s.pkt.at n).stage = .fifo)
    (hended : (s.pkt.at n).ended = true) (hfirst : s.behind n (fun t => decide (t = .fifo)) = false)
    (hrun : s.stride.halted.at (2 * pipeOf (s.pkt.at n).port) = false) (hslot : s.freeSlot (2 * pipeOf (s.pkt.at n).port) = some k) :
    s.strideAdmit n = s.enterEngine n k := by
  simp [State.strideAdmit, hlive, hfifo, hended, hfirst, hrun, hslot]

/-- The slot takes the packet on this clock, and no other. -/
theorem State.enterEngine_only (s : State) (n k : Nat) : s.enterEngine n k = { s with
    pkt := (s.enterEngine n k).pkt
    stride := { s.stride with
      took := s.stride.took.put (8 * pipeOf (s.pkt.at n).port + k) (s.slotClock (2 * pipeOf (s.pkt.at n).port) k + 1) } } := by
  have hplace : 8 * pipeOf (s.pkt.at n).port + k = 4 * (2 * pipeOf (s.pkt.at n).port) + k := by omega
  rw [hplace]; rfl

theorem State.enterEngine_other (s : State) {n m : Nat} (h : m ≠ n) (k : Nat) : (s.enterEngine n k).pkt.at m = s.pkt.at m := by
  rw [State.enterEngine, State.updPkt_pkt, Tab.at_upd_other _ _ h]; rfl

/-- The packet latches what is in force now, and its context starts at the entry word of its port (R82, R95, R445). -/
theorem State.enterEngine_pkt (s : State) (n k : Nat) :
    ((s.enterEngine n k).pkt.at n).gen = s.cfg.activeGen.toNat ∧ ((s.enterEngine n k).pkt.at n).inst = s.admitInst (s.pkt.at n)
    ∧ ((s.enterEngine n k).pkt.at n).instGen = s.instGen (s.admitInst (s.pkt.at n))
    ∧ ((s.enterEngine n k).pkt.at n).stage = .engine { slot := k, bank := s.stride.cur, start := s.time.mono
                                                       addr := (s.stride.image s.stride.cur).entry.getD (s.cfg.active.parseEntryOf (s.pkt.at n).port) 0 } := by
  simp [State.enterEngine, State.takeSlot]

end entry

/-! ### STRIDE_WORD -/

section word
variable {s : State} {n : Nat} {c : Ctx} (hstage : (s.pkt.at n).stage = .engine c)
include hstage

theorem State.ingressWord_over (h : s.ctxOver c = true) (ecc : Nat) (bad : List Nat) : s.ingressWord n ecc bad = s := by
  simp [State.ingressWord, hstage, h]

variable (hlive : (s.pkt.at n).live = true) (hover : s.ctxOver c = false) (hlate : s.ctxLate c = false)
  (htrace : s.stride.trace.at (2 * pipeOf (s.pkt.at n).port) = false)
include hlive hover hlate htrace

theorem State.ingressWord_multiBit (bad : List Nat) :
    s.ingressWord n 2 bad = (s.raise (48 + pipeOf (s.pkt.at n).port) 0).leaveEngine n (s.pkt.at n).md 2 0x13 := by
  simp [State.ingressWord, hstage, hlive, hover, hlate, State.traceCtx_noTrace htrace]

theorem State.ingressWord_clean (bad : List Nat) : s.ingressWord n 0 bad = s.strideRun n c bad := by
  simp [State.ingressWord, hstage, hlive, hover, hlate, State.traceCtx_noTrace htrace]

end word

/-- The word of a loaded image that a context has come to, and what it comes to. -/
def State.wordOut (s : State) (n : Nat) (c : Ctx) : WordOut :=
  runWord true (s.bankOf (s.pkt.at n).gen) (s.pkt.at n).port (s.view (s.pkt.at n)) (s.keyAbsent (s.pkt.at n).md)
    ((s.stride.image c.bank).ingress.getD c.addr 0) (s.pkt.at n).md c

section run
variable {s : State} {n : Nat} {c : Ctx} (himage : (s.stride.image c.bank).builtin = false)
include himage

theorem State.strideRun_waits (h : s.wordOut n c = .wait) (bad : List Nat) : s.strideRun n c bad = s.stay n c := by
  unfold State.wordOut at h
  simp [State.strideRun, himage, h, -List.getD_eq_getElem?_getD]

theorem State.strideRun_goesOn {md : Nat} {c' : Ctx} (h : s.wordOut n c = .next md c') (bad : List Nat) :
    s.strideRun n c bad = (s.updPkt n (fun p => { p with md := md, stage := .engine c' })).wordEffects n
      ((s.stride.image c.bank).ingress.getD c.addr 0) bad := by
  unfold State.wordOut at h
  simp [State.strideRun, himage, h, -List.getD_eq_getElem?_getD]

end run

/-- The first wait of a word is noted. -/
theorem State.stay_first {c : Ctx} (h : c.waits = none) (s : State) (n : Nat) :
    s.stay n c = s.updPkt n (fun p => { p with stage := .engine { c with waits := some s.time.mono } }) := by
  simp [State.stay, h]

/-! ### Limits -/

section limits
variable {s : State} {x : StrideCtx} {c : Ctx}

theorem State.ctxOver_iff : s.ctxOver c = true ↔ 64 ≤ c.words ∨ c.start + 640 ≤ s.time.mono := by
  simp [State.ctxOver]

theorem State.ctxOver_within (hwords : c.words < 64) (htime : s.time.mono < c.start + 640) : s.ctxOver c = false := by
  simp [State.ctxOver, hwords, htime]

theorem State.ctxLate_noWait (h : c.waits = none) : s.ctxLate c = false := by
  simp [State.ctxLate, h]

theorem State.ctxLate_wait {w : Nat} (h : c.waits = some w) : s.ctxLate c = decide (w + 160 ≤ s.time.mono) := by
  simp [State.ctxLate, h]

theorem State.ctxOf_ingress {n : Nat} (h : (s.pkt.at n).stage = .engine c) : s.ctxOf (.ingress n) = some c := by
  simp [State.ctxOf, h]

theorem State.ctxOf_egress {k : Nat} (h : (s.cpy.at k).place = .egress c) : s.ctxOf (.egress k) = some c := by
  simp [State.ctxOf, h]

variable (hctx : s.ctxOf x = some c)
include hctx

theorem State.waitTimeout_late (h : s.ctxLate c = true) : s.waitTimeout x = (s.count Stat.strideWaitTimeouts).outWith x 0x10 := by
  simp [State.waitTimeout, hctx, h]

theorem State.waitTimeout_early (h : s.ctxLate c = false) : s.waitTimeout x = s := by
  simp [State.waitTimeout, hctx, h]

theorem State.stepLimit_over (h : s.ctxOver c = true) : s.stepLimit x = s.outWith x 0x11 := by
  simp [State.stepLimit, hctx, h]

end limits

/-- A count leaves the packet that leaves the engine as it was. -/
theorem State.outWith_count (s : State) (st : Stat) (n cause : Nat) :
    (s.count st).outWith (.ingress n) cause = (s.count st).leaveEngine n (s.pkt.at n).md 2 cause := by
  rw [State.outWith, State.count_only]

/-! ### Leaving for the classifier -/

theorem State.sharedInst_owned {s : State} {n : Nat} (h : (s.bankOf (s.pkt.at n).gen).getN P.portOwner (s.pkt.at n).port ≠ 64) :
    s.sharedInst n = s := if_neg (fun hshared => h hshared.1)

theorem State.offerTap_noTap {s : State} {n : Nat}
    (h : (s.bankOf (s.pkt.at n).gen).filter (fun e => e.1 / 2 ^ 32 == P.tapEnable.id && e.2 == 1) = []) : s.offerTap n = s := by
  simp only [State.offerTap, h, List.map_nil, List.find?_nil]

theorem State.leaveEngine_parsed {s : State} {n : Nat} (hown : (s.bankOf (s.pkt.at n).gen).getN P.portOwner (s.pkt.at n).port ≠ 64)
    (htap : (s.bankOf (s.pkt.at n).gen).filter (fun e => e.1 / 2 ^ 32 == P.tapEnable.id && e.2 == 1) = []) (md c : Nat) :
    s.leaveEngine n md 0 c =
      (s.updPkt n (fun p => { p with md := putFields (setBits md 87 104 0) [(M.verdict, 0), (M.cause, c)] })).updPkt n
        (fun p => { p with stage := .parsed }) := by
  have hpkt := Tab.at_upd_same s.pkt n (fun p => { p with md := putFields (setBits md 87 104 0) [(M.verdict, 0), (M.cause, c)] })
  have hshared := State.sharedInst_owned (s := s.updPkt n (fun p => { p with md := putFields (setBits md 87 104 0) [(M.verdict, 0), (M.cause, c)] }))
    (n := n) (by rw [State.updPkt_pkt, hpkt]; exact hown)
  have hoffer := State.offerTap_noTap (s := s.updPkt n (fun p => { p with md := putFields (setBits md 87 104 0) [(M.verdict, 0), (M.cause, c)] }))
    (n := n) (by rw [State.updPkt_pkt, hpkt]; exact htap)
  simp only [State.leaveEngine, hshared, hoffer, true_or, if_true]

/-! ### The commands -/

theorem exec_strideAdmit (n : Nat) (s : State) : exec (.strideAdmit n) s = runs (fun s => s.strideAdmit n) s := rfl

theorem exec_strideWord_ingress (n : Nat) (r : WordRead) (s : State) :
    exec (.strideWord (.ingress n) r) s = runs (fun s => s.ingressWord n r.ecc (badCodes r.bad)) s := rfl

theorem exec_strideWaitTimeout (x : StrideCtx) (s : State) : exec (.strideWaitTimeout x) s = runs (fun s => s.waitTimeout x) s := rfl

theorem exec_strideStepLimit (x : StrideCtx) (s : State) : exec (.strideStepLimit x) s = runs (fun s => s.stepLimit x) s := rfl

/-- Settles O23: each clause is one case of the engine's rows, and a packet that leaves for the classifier meets no tap and no shared port. -/
theorem strideEngineRuns : Obligations.StrideEngineRuns := by
  unfold Obligations.StrideEngineRuns
  simp only [exec_strideAdmit, exec_strideWord_ingress, exec_strideWaitTimeout, exec_strideStepLimit]
  refine ⟨?admits, ?idle, ?slot, ?word, ?overrun, ?waits, ?limit, ?egress, ?leaves⟩
  case admits =>
    intro s n k hlive hfifo hended hfirst hrun hslot
    obtain ⟨hgen, hinst, hinstGen, hstage⟩ := s.enterEngine_pkt n k
    exact ⟨_, runs_to (State.strideAdmit_enters hlive hfifo hended hfirst hrun hslot) rfl rfl, s.enterEngine_only n k,
      fun m hm => s.enterEngine_other hm k, hgen, hinst, hinstGen, hstage⟩
  case idle => exact fun s n h => runs_to (State.strideAdmit_idle h) rfl rfl
  case slot =>
    intro s engine k h
    obtain ⟨rfl, hroom⟩ := State.freeSlot_some h
    obtain ⟨hslot, hleast⟩ := fewest_spec (s.contexts engine)
    exact ⟨hslot, hroom, hleast⟩
  case word =>
    intro s n c bad hlive hstage hwords htime hwaits htrace
    have hover := State.ctxOver_within hwords htime
    have hclean := State.ingressWord_clean hstage hlive hover (State.ctxLate_noWait hwaits) htrace (badCodes bad)
    refine ⟨runs_keeping (State.ingressWord_multiBit hstage hlive hover (State.ctxLate_noWait hwaits) htrace _), fun himage h => ?_,
      fun md c' himage h => runs_keeping (hclean.trans (State.strideRun_goesOn himage h _))⟩
    exact runs_to (hclean.trans ((State.strideRun_waits himage h _).trans (State.stay_first hwaits s n))) rfl rfl
  case overrun => exact fun s n r c hstage h => runs_to (State.ingressWord_over hstage (State.ctxOver_iff.2 h) _ _) rfl rfl
  case waits =>
    intro s n w c hstage hwaits
    have hctx := State.ctxOf_ingress hstage
    have hlate := State.ctxLate_wait (s := s) hwaits
    exact ⟨fun h => runs_to (State.waitTimeout_early hctx (hlate.trans (decide_eq_false (Nat.not_le.2 h)))) rfl rfl,
      fun h => runs_keeping ((State.waitTimeout_late hctx (hlate.trans (decide_eq_true h))).trans (s.outWith_count _ _ _))⟩
  case limit => exact fun s n c hstage h => runs_keeping (State.stepLimit_over (State.ctxOf_ingress hstage) (State.ctxOver_iff.2 h))
  case egress =>
    intro s k c hplace
    have hctx := State.ctxOf_egress hplace
    exact ⟨fun w hwaits h => runs_keeping (State.waitTimeout_late hctx ((State.ctxLate_wait hwaits).trans (decide_eq_true h))),
      fun h => runs_keeping (State.stepLimit_over hctx (State.ctxOver_iff.2 h))⟩
  case leaves =>
    intro s n md c hown htap
    rw [State.leaveEngine_parsed hown htap]
    exact ⟨by simp, rfl, fun m hm => by simp [Tab.at_upd_other, hm]⟩

end Sys2Proof.Machine
end

section
/-! SUPPORT. Front and station lookups, case by case (R119, R122, R126 to R129, R138, R148, R445). -/
namespace Sys2Proof.Machine

/-! ### Entries that are read and hit -/

/-- Cells whose parity holds are read without effect. -/
theorem State.readCells_sound {s : State} {bad : List Nat} {l : List (Nat × Nat)} (h : ∀ c ∈ l, s.parityFails bad c = false) (prot : Bool) :
    s.readCells bad l prot = s := by
  have hnone : l.filter (s.parityFails bad) = [] := List.filter_eq_nil_iff.2 (fun c hc => by simp [h c hc])
  rw [State.readCells, hnone, State.forEach_nil]

theorem Tables.dels_setStore (t : Tables) (k : Nat) (l : Tab Entry) : (t.setStore k l).dels = t.dels := by
  unfold Tables.setStore; split <;> rfl

section hit
variable (s : State) {c : Nat × Nat}

/-- A hit of a lookup of forwarding changes the tables alone, and no delete is counted. -/
theorem State.hitEntry_only (c : Nat × Nat) : s.hitEntry c none = { s with tbl := (s.hitEntry c none).tbl } := by
  unfold State.hitEntry; simp only []; split <;> rfl

theorem State.ctr_hitEntry (c : Nat × Nat) : (s.hitEntry c none).ctr = s.ctr := by rw [State.hitEntry_only]

theorem State.pkt_hitEntry (c : Nat × Nat) : (s.hitEntry c none).pkt = s.pkt := by rw [State.hitEntry_only]

theorem State.dels_hitEntry (c : Nat × Nat) : (s.hitEntry c none).tbl.dels = s.tbl.dels := by
  unfold State.hitEntry; simp only []
  split
  · exact Tables.dels_setStore _ _ _
  · rfl

variable (hc : c.1 ≤ 3)
include hc

theorem State.result_hitEntry : ((s.hitEntry c none).entry c).result = (s.entry c).result := by
  unfold State.hitEntry; simp only []
  split
  · rw [State.entry_setEntry _ _ _ _ hc hc, if_pos rfl]
  · rfl

/-- The entry shows the RESULT that it showed before the hit. -/
theorem State.entryResult_hitEntry : (s.hitEntry c none).entryResult c = s.entryResult c := by
  rw [State.entryResult, State.entryResult, s.result_hitEntry hc]

theorem State.hit_hitEntry (h : R.learned.get (s.entry c).result = 0) : ((s.hitEntry c none).entry c).hit = true := by
  have hset : s.hitEntry c none = s.setEntry c { s.entry c with hit := true } := if_pos (.inl h)
  rw [hset, State.entry_setEntry _ _ _ _ hc hc, if_pos rfl]

end hit

/-! ### The front lookup -/

/-- The bank that a packet latched. -/
def State.bankAt (s : State) (n : Nat) : Bank := s.bankOf (s.pkt.at n).gen

theorem State.frontLookup_noProfile (s : State) (n : Nat) (bad : List Nat) : s.frontLookup n 0 bad = (s, none) := rfl

section front
variable {s : State} {n prof : Nat} {bad : List Nat} (hprof : prof ≠ 0)
  (hsound : ∀ c ∈ (s.bankAt n).frontCells ((s.bankAt n).getN P.kpTable prof) ((s.pkt.at n).frontKey (s.bankAt n) prof), s.parityFails bad c = false)
include hprof hsound

/-- A front lookup marks the entry that it finds for the packet (R445). -/
theorem State.frontLookup_sound {hit : Option (Nat × Nat)}
    (hhit : s.ownEntry (s.pkt.at n).inst (s.frontFind (s.bankAt n) bad ((s.bankAt n).getN P.kpTable prof) ((s.pkt.at n).frontKey (s.bankAt n) prof)) = hit) :
    s.frontLookup n prof bad = (hit.elim s (fun c => s.hitEntry c none), hit) := by
  have hread := State.readCells_sound hsound false
  unfold State.bankAt at hhit hread
  simp only [State.frontLookup, if_neg hprof, hhit, hread]
  cases hit <;> rfl

end front

/-! ### Packets that make no search and no learn check -/

/-- A packet that searches neither rules nor prefixes finds none. -/
def State.noSearch (s : State) (n : Nat) : State :=
  s.updPkt n (fun p => { p with
    ruleRes := 0, pfxRes := 0, md := putFields p.md [(M.ruleHit, 0), (M.ruleAddr, 0), (M.prefixHit, 0), (M.prefixAddr, 0)] })

theorem State.searches_none {s : State} {n prof : Nat}
    (h : prof = 0 ∨ ((s.bankAt n).getN P.kpRnfields prof = 0 ∧ (s.bankAt n).getN P.kpPrefix prof = 0)) (bad : List Nat) :
    s.searches n prof bad = (s.noSearch n, false) := by
  unfold State.bankAt at h
  have hrule : (prof != 0 && (s.bankOf (s.pkt.at n).gen).getN P.kpRnfields prof != 0) = false := by
    rcases h with h | ⟨h, -⟩ <;> simp [h]
  have hprefix : (s.pkt.at n).prefixKey (s.bankOf (s.pkt.at n).gen) prof = none :=
    if_pos (h.imp id (fun h => .inl h.2))
  simp only [State.searches, hrule, hprefix, Bool.false_eq_true, if_false]
  rfl

theorem State.learnCheck_off {s : State} {n prof : Nat}
    (h : prof = 0 ∨ (s.bankAt n).on P.learnEnable (s.pkt.at n).port = false ∨ (s.bankAt n).on P.kpLearn prof = false) (bad : List Nat) :
    s.learnCheck n prof bad = s := by
  unfold State.bankAt at h
  rcases h with h | h | h <;> simp [State.learnCheck, h]

/-- The lookups of such a packet are done: what the front lookup found is latched, and nothing else. -/
def State.frontOnly (s : State) (n : Nat) (c : Option (Nat × Nat)) : State := ((s.latchHit n c).noSearch n).looked n

theorem putFields_append (w : Nat) (l m : List (Field × Nat)) : putFields (putFields w l) m = putFields w (l ++ m) :=
  List.foldl_append.symm

theorem State.frontOnly_only (s : State) (n : Nat) (c : Option (Nat × Nat)) : s.frontOnly n c = { s with pkt := (s.frontOnly n c).pkt } := by
  simp only [State.frontOnly, State.looked, State.noSearch, State.latchHit, State.updPkt]

theorem State.ctr_frontOnly (s : State) (n : Nat) (c : Option (Nat × Nat)) : (s.frontOnly n c).ctr = s.ctr := by rw [State.frontOnly_only]

theorem State.frontOnly_other (s : State) {n m : Nat} (h : m ≠ n) (c : Option (Nat × Nat)) : (s.frontOnly n c).pkt.at m = s.pkt.at m := by
  simp [State.frontOnly, State.looked, State.noSearch, State.latchHit, Tab.at_upd_other, h]

theorem State.frontOnly_pkt (s : State) (n : Nat) (c : Option (Nat × Nat)) : (s.frontOnly n c).pkt.at n = { s.pkt.at n with
    ruleRes := 0, pfxRes := 0, stage := .classified, looked := s.tbl.dels
    md := putFields (s.pkt.at n).md [(M.frontHit, b2n c.isSome), (M.frontResult, (c.map s.entryResult).getD 0), (M.stationPending, 0),
      (M.ruleHit, 0), (M.ruleAddr, 0), (M.prefixHit, 0), (M.prefixAddr, 0)] } := by
  simp only [State.frontOnly, State.looked, State.noSearch, State.latchHit, State.updPkt_pkt, State.updPkt_frame, Tab.at_upd_same,
    putFields_append, List.cons_append, List.nil_append]

/-- A packet that finds nothing is latched a miss of every lookup. -/
theorem State.frontOnly_miss (s : State) (n : Nat) : (s.frontOnly n none).pkt.at n = { s.pkt.at n with
    ruleRes := 0, pfxRes := 0, stage := .classified, looked := s.tbl.dels
    md := putFields (s.pkt.at n).md [(M.frontHit, 0), (M.frontResult, 0), (M.stationPending, 0),
      (M.ruleHit, 0), (M.ruleAddr, 0), (M.prefixHit, 0), (M.prefixAddr, 0)] } := s.frontOnly_pkt n none

/-- Of a front hit the entry's RESULT is latched as it stands (R122). -/
theorem State.frontOnly_hit (s : State) (n : Nat) {c : Nat × Nat} (hc : c.1 < 2) :
    ((s.hitEntry c none).frontOnly n (some c)).pkt.at n = { s.pkt.at n with
      ruleRes := 0, pfxRes := 0, stage := .classified, looked := s.tbl.dels
      md := putFields (s.pkt.at n).md [(M.frontHit, 1), (M.frontResult, (s.entry c).result), (M.stationPending, 0),
        (M.ruleHit, 0), (M.ruleAddr, 0), (M.prefixHit, 0), (M.prefixAddr, 0)] } := by
  have hresult : s.entryResult c = (s.entry c).result := if_pos hc
  rw [State.frontOnly_pkt, State.pkt_hitEntry, State.dels_hitEntry, Option.map_some, Option.getD_some,
    State.entryResult_hitEntry _ (by omega), hresult]
  rfl

/-- The classifier makes no lookup but the front one: no search, no learn check, and no station lookup after the front one. -/
structure State.FrontOnly (s : State) (n prof : Nat) (found : Bool) : Prop where
  search : prof = 0 ∨ ((s.bankAt n).getN P.kpRnfields prof = 0 ∧ (s.bankAt n).getN P.kpPrefix prof = 0)
  learn : prof = 0 ∨ (s.bankAt n).on P.learnEnable (s.pkt.at n).port = false ∨ (s.bankAt n).on P.kpLearn prof = false
  station : found = true ∨ prof = 0 ∨ (s.bankAt n).on P.kpStation prof = false

theorem State.classify_verdict {s : State} {n : Nat} (h : M.verdict.get (s.pkt.at n).md ≠ 0) (bad : List Nat) : s.classify n bad = s.looked n :=
  if_pos h

theorem State.classify_frontOnly {s : State} {n prof : Nat} {bad : List Nat} {t : Tables} {c : Option (Nat × Nat)}
    (hverdict : M.verdict.get (s.pkt.at n).md = 0) (hprof : M.keyProfile.get (s.pkt.at n).md = prof)
    (hfront : s.frontLookup n prof bad = ({ s with tbl := t }, c)) (h : s.FrontOnly n prof c.isSome) :
    s.classify n bad = State.frontOnly { s with tbl := t } n c := by
  obtain ⟨hsearch, hlearn, hstation⟩ := h
  have hmiss : (c.isNone && prof != 0 && (s.bankOf (s.pkt.at n).gen).on P.kpStation prof) = false := by
    unfold State.bankAt at hstation
    rcases hstation with h | h | h
    · simp [Option.isSome_iff_ne_none.1 h]
    · simp [h]
    · simp [h]
  have hsearches := State.searches_none (s := State.latchHit { s with tbl := t } n c) (n := n) (prof := prof)
    (by simpa [State.bankAt, State.latchHit, State.bankOf] using hsearch) bad
  have hcheck := State.learnCheck_off (s := (State.latchHit { s with tbl := t } n c).noSearch n) (n := n) (prof := prof)
    (by simpa [State.bankAt, State.latchHit, State.noSearch, State.bankOf] using hlearn) bad
  simp only [State.classify, hverdict, hprof, hfront, hsearches, hmiss, hcheck, ne_eq, not_true_eq_false, if_false, Bool.false_and,
    Bool.false_eq_true, ite_self]
  rfl

/-! ### A front miss of a station-backed profile -/

section miss
variable {s : State} {n : Nat}

/-- Bucket reads of this nanosecond. -/
def State.stationUsed (s : State) : Nat := if s.tbl.stAt = s.time.mono then s.tbl.stReads else 0

theorem State.stationRead_fits {k : Nat} (h : s.stationUsed + k ≤ 12) :
    s.stationRead k = ({ s with tbl := { s.tbl with stAt := s.time.mono, stReads := s.stationUsed + k } }, true) := if_pos h

theorem State.stationRead_full {k : Nat} (h : 12 < s.stationUsed + k) : s.stationRead k = (s, false) := if_neg (Nat.not_le.2 h)

theorem State.onMiss_express (h : s.express (s.pkt.at n) (s.actionSet (s.pkt.at n) false).cls = true) :
    s.onMiss n = (s, if s.inTransit (s.pkt.at n) = true then .done else .express) := if_pos h

variable (hplain : s.express (s.pkt.at n) (s.actionSet (s.pkt.at n) false).cls = false)
include hplain

theorem State.onMiss_overload (h : 512 ≤ s.stationPending (pipeOf (s.pkt.at n).port) ∨ 12 ≤ s.stationUsed) :
    s.onMiss n = (s, .overload) := by
  by_cases hplace : 512 ≤ s.stationPending (pipeOf (s.pkt.at n).port)
  · simp [State.onMiss, hplain, hplace]
  · have hrate : 12 < s.stationUsed + 1 := by omega
    simp [State.onMiss, hplain, hplace, State.stationRead_full hrate]

theorem State.onMiss_reads (hplace : s.stationPending (pipeOf (s.pkt.at n).port) < 512) (hrate : s.stationUsed < 12) :
    s.onMiss n = ({ s with tbl := { s.tbl with stAt := s.time.mono, stReads := s.stationUsed + 1 } }, .reads) := by
  simp [State.onMiss, hplain, Nat.not_le.2 hplace, State.stationRead_fits (show s.stationUsed + 1 ≤ 12 from hrate)]

end miss

section goOn
variable (s : State) (n : Nat)

/-- A count leaves the number of deletes that a packet notes as it is. -/
theorem State.looked_count (st : Stat) (i : Nat) :
    (s.count st i).looked n = (s.count st i).updPkt n (fun p => { p with stage := .classified, looked := s.tbl.dels }) := by
  rw [State.looked, State.count_only]

theorem State.goOn_overload : s.goOn n .overload =
    (s.count Stat.stationOverload (pipeOf (s.pkt.at n).port)).updPkt n (fun p => { p with stage := .classified, looked := s.tbl.dels }) :=
  s.looked_count n _ _

variable {s n}

theorem State.goOn_expressDrop (h : (s.bankAt n).getN P.expressMiss (s.pkt.at n).port = 0) :
    s.goOn n .express = (s.count Stat.expressMisses).stageDrop n := by
  unfold State.bankAt at h
  simp only [State.goOn, h]

theorem State.goOn_expressPunt (h : (s.bankAt n).getN P.expressMiss (s.pkt.at n).port = 1) :
    s.goOn n .express = (s.count Stat.expressMisses).stagePunt n 0x42 := by
  unfold State.bankAt at h
  simp only [State.goOn, h]

theorem State.goOn_expressOn (h : 2 ≤ (s.bankAt n).getN P.expressMiss (s.pkt.at n).port) :
    s.goOn n .express = (s.count Stat.expressMisses).updPkt n (fun p => { p with stage := .classified, looked := s.tbl.dels }) := by
  unfold State.bankAt at h
  rw [← State.looked_count]
  simp only [State.goOn]
  split
  · next hzero => omega
  · next hone => omega
  · rfl

end goOn

end Sys2Proof.Machine
end

section
/-! SUPPORT. Station answers and the release to the action stage, case by case (R126, R128, R130, R162 to R165, R183, R336, R555). -/
namespace Sys2Proof.Machine

/-! ### The answer of a station lookup -/

/-- What a station lookup found is latched, and the packet waits for its turn at the action stage. -/
def State.answered (s : State) (n : Nat) (c : Option (Nat × Nat)) : State := (s.latchHit n c).looked n

theorem State.answered_pkt (s : State) (n : Nat) (c : Option (Nat × Nat)) : (s.answered n c).pkt.at n = { s.pkt.at n with
    md := putFields (s.pkt.at n).md [(M.frontHit, b2n c.isSome), (M.frontResult, (c.map s.entryResult).getD 0), (M.stationPending, 0)]
    stage := .classified, looked := s.tbl.dels } := by
  simp only [State.answered, State.looked, State.latchHit, State.updPkt_pkt, State.updPkt_frame, Tab.at_upd_same]

/-- A lookup that is given up is counted, and is a miss. -/
theorem State.count_answered (s : State) (st : Stat) (i n : Nat) :
    ((s.count st i).answered n none).pkt.at n = { s.pkt.at n with
      md := putFields (s.pkt.at n).md [(M.frontHit, 0), (M.frontResult, 0), (M.stationPending, 0)], stage := .classified, looked := s.tbl.dels } := by
  rw [State.answered_pkt, State.count_only]; rfl

section station
variable {s : State} {n w : Nat} (hstage : (s.pkt.at n).stage = .station w) (hlive : (s.pkt.at n).live = true)
include hstage hlive

theorem State.stationDone_late (h : w + 2000 ≤ s.time.mono) (bad : List BadEntry) :
    s.stationDone n bad = (s.count Stat.stationTimeouts (pipeOf (s.pkt.at n).port)).answered n none := by
  simp [State.stationDone, hstage, hlive, h, State.stationLate, State.answered]

theorem State.stationAbandon_late (h : w + 2000 ≤ s.time.mono) :
    s.stationAbandon n = (s.count Stat.stationTimeouts (pipeOf (s.pkt.at n).port)).answered n none := by
  simp [State.stationAbandon, hstage, hlive, h, State.stationLate, State.answered]

theorem State.stationDone_inTime (h : s.time.mono < w + 2000) (bad : List BadEntry) :
    s.stationDone n bad = s.stationAnswer n (badCodes bad) := by
  simp [State.stationDone, hstage, hlive, Nat.not_le.2 h]

omit hlive in
theorem State.stationAbandon_early (h : s.time.mono < w + 2000) : s.stationAbandon n = s := by
  simp [State.stationAbandon, hstage, Nat.not_le.2 h]

end station

/-- The station key of a packet that waits for its station lookup. -/
def State.stationKeyOf (s : State) (n : Nat) : Nat :=
  stationKey ((s.pkt.at n).frontKey (s.bankAt n) (M.keyProfile.get (s.pkt.at n).md))

section answer
variable {s : State} {n : Nat} {bad : List Nat}

/-- Without the rate for its further reads the lookup is an overload. -/
theorem State.stationAnswer_overload (h : 12 < s.stationUsed + (s.stationReads (s.bankAt n) bad (s.stationKeyOf n) - 1)) :
    s.stationAnswer n bad = (s.count Stat.stationOverload (pipeOf (s.pkt.at n).port)).answered n none := by
  have hrate := State.stationRead_full h
  unfold State.stationKeyOf State.bankAt at hrate
  simp only [State.stationAnswer, hrate]; rfl

/-- The state after bucket reads of this nanosecond. -/
def State.afterReads (s : State) (k : Nat) : State := { s with tbl := { s.tbl with stAt := s.time.mono, stReads := s.stationUsed + k } }

/-- The state that a station lookup leaves after `k` further bucket reads: the entry that it hit is marked, and its answer latched. -/
def State.found (s : State) (n k : Nat) (hit : Option (Nat × Nat)) : State :=
  (hit.elim (s.afterReads k) (fun c => (s.afterReads k).hitEntry c none)).answered n hit

theorem State.ctr_found (s : State) (n k : Nat) (hit : Option (Nat × Nat)) : (s.found n k hit).ctr = s.ctr := by
  cases hit with
  | none => rfl
  | some c => exact (s.afterReads k).ctr_hitEntry c

theorem State.stage_found (s : State) (n k : Nat) (hit : Option (Nat × Nat)) : ((s.found n k hit).pkt.at n).stage = .classified := by
  rw [State.found, State.answered_pkt]

theorem State.found_miss (s : State) (n k : Nat) : ((s.found n k none).pkt.at n).md =
    putFields (s.pkt.at n).md [(M.frontHit, 0), (M.frontResult, 0), (M.stationPending, 0)] := by
  rw [State.found, State.answered_pkt]; rfl

/-- Of a station hit the entry's RESULT is latched, PINNED 0 (R122). -/
theorem State.found_hit (s : State) (n k : Nat) {c : Nat × Nat} (hlow : 2 ≤ c.1) (hhigh : c.1 ≤ 3) :
    ((s.found n k (some c)).pkt.at n).md =
      putFields (s.pkt.at n).md [(M.frontHit, 1), (M.frontResult, R.pinned.put 0 (s.entry c).result), (M.stationPending, 0)] := by
  have hresult : (s.afterReads k).entryResult c = R.pinned.put 0 (s.entry c).result := if_neg (Nat.not_lt.2 hlow)
  rw [State.found, State.answered_pkt, Option.elim_some, State.pkt_hitEntry, Option.map_some, Option.getD_some,
    State.entryResult_hitEntry _ hhigh, hresult]
  rfl

theorem State.stationAnswer_found (hrate : s.stationUsed + (s.stationReads (s.bankAt n) bad (s.stationKeyOf n) - 1) ≤ 12)
    (hsound : ∀ c ∈ s.stationCells (s.bankAt n) bad (s.stationKeyOf n), s.parityFails bad c = false) {hit : Option (Nat × Nat)}
    (hhit : s.ownEntry (s.pkt.at n).inst (s.stationFind (s.bankAt n) bad (s.stationKeyOf n)) = hit) :
    s.stationAnswer n bad = s.found n (s.stationReads (s.bankAt n) bad (s.stationKeyOf n) - 1) hit := by
  have hfits := State.stationRead_fits hrate
  generalize hu : s.afterReads (s.stationReads (s.bankAt n) bad (s.stationKeyOf n) - 1) = u
  have hread : u.readCells bad (u.stationCells (s.bankAt n) bad (s.stationKeyOf n)) false = u :=
    State.readCells_sound (by rw [← hu]; exact hsound) false
  have hfind : u.ownEntry (s.pkt.at n).inst (u.stationFind (s.bankAt n) bad (s.stationKeyOf n)) = hit := by rw [← hu]; exact hhit
  change s.stationRead _ = (s.afterReads _, true) at hfits
  rw [hu] at hfits
  rw [State.found, hu]
  unfold State.stationKeyOf State.bankAt at hfits hread hfind
  simp only [State.stationAnswer, hfits, hread, hfind]
  cases hit <;> rfl

end answer

/-! ### Release to the action stage -/

section release
variable {s : State} {n : Nat}

theorem State.release_idle (h : s.behind n Stage.beforeRelease = true ∨ s.yields n = true) (bad : List BadEntry) : s.release n bad = s := by
  rcases h with h | h <;> simp [State.release, State.releasable, h]

theorem State.release_acts (hlive : (s.pkt.at n).live = true) (hstage : (s.pkt.at n).stage = .classified)
    (hfirst : s.behind n Stage.beforeRelease = false) (htail : M.verdict.get (s.pkt.at n).md ≠ 0 ∨ s.waitsTail (s.pkt.at n) = false)
    (hturn : s.yields n = false) (bad : List BadEntry) : s.release n bad = s.actions n (badCodes bad) := by
  have hready : (M.verdict.get (s.pkt.at n).md == 0 && s.waitsTail (s.pkt.at n)) = false := by
    rcases htail with h | h <;> simp [h]
  simp [State.release, State.releasable, hlive, hstage, hfirst, hready, hturn]

theorem State.actions_transit (hrelay : (s.pkt.at n).relaySrc ≠ none) (hother : (s.pkt.at n).relayField H.dst ≠ s.fab.id) (bad : List Nat) :
    s.actions n bad = s.transit n := by
  simp [State.actions, Option.isSome_iff_ne_none.2 hrelay, hother]

theorem State.transit_lastHop (h : (s.pkt.at n).relayField H.hops ≤ 1) : s.transit n = (s.count Stat.relayHopDrops).drop n :=
  if_pos (by omega)

theorem State.transit_goesOn (h : 1 < (s.pkt.at n).relayField H.hops) :
    s.transit n = (s.updPkt n (fun p => { p with
      relay := some (p.relayField H.dst, p.relayField H.rclass), md := M.cls.put (s.portClass p) p.md })).stage7 n :=
  if_neg (by omega)

end release

/-! ### Stages 4 to 7 of a packet for this device -/

/-- The rewrites that a route names. -/
def Route.rewrites : Route → List Nat
  | .ports l _ => l.map (fun d : Nat × Nat => d.2)
  | .relay _ _ r => [r]
  | _ => []

/-- A route whose rewrites stand is aimed as it is. -/
theorem State.aim_standing {rt : Route} {ok : Nat → Nat} (h : ∀ r ∈ rt.rewrites, ok r = r) (s : State) (n : Nat) (a : ActionSet) (stream : Nat) :
    s.aim n a stream rt ok = s.aim n a stream rt id := by
  cases rt with
  | ports l mc =>
    have hmap : l.map (fun d => (d.1, ok d.2)) = l.map (fun d => (d.1, id d.2)) :=
      List.map_congr_left (fun d hd => by rw [h d.2 (List.mem_map_of_mem hd)]; rfl)
    simp only [State.aim, hmap]
  | relay dest rclass r => simp only [State.aim, h r (List.mem_singleton_self r), id]
  | _ => rfl

/-- The rewrites of a route stand when those of its ports, or of its relay, do. -/
theorem Route.rewrites_forall {rt : Route} {ok : Nat → Prop} (hports : ∀ l mc, rt = .ports l mc → ∀ d ∈ l, ok d.2)
    (hrelay : ∀ d c r, rt = .relay d c r → ok r) : ∀ r ∈ rt.rewrites, ok r := by
  intro r hr
  cases rt with
  | ports l mc => obtain ⟨d, hd, rfl⟩ := List.mem_map.1 hr; exact hports l mc rfl d hd
  | relay d c r' => exact List.mem_singleton.1 hr ▸ hrelay d c r' rfl
  | drop => exact absurd hr List.not_mem_nil
  | punt => exact absurd hr List.not_mem_nil
  | invalid => exact absurd hr List.not_mem_nil
  | noMember => exact absurd hr List.not_mem_nil

section route
variable {s : State} {p : Packet} {f : Nat} (rewrite : Nat)

theorem State.route_port (h : R.type.get f = 0) : s.route p f rewrite = .ports [(R.target.get f % 512, rewrite)] false := by
  simp only [State.route, h]

theorem State.route_nextHop (h : R.type.get f = 1) : s.route p f rewrite = s.nextHop p (R.target.get f) rewrite := by
  simp only [State.route, h]

theorem State.route_drop (h : R.type.get f = 2) : s.route p f rewrite = .drop := by simp only [State.route, h]

theorem State.route_punt (h : R.type.get f = 3) : s.route p f rewrite = .punt := by simp only [State.route, h]

end route

section aim
variable (s : State) (n : Nat) (a : ActionSet) (stream : Nat) (ok : Nat → Nat)

/-- A packet to one port goes on to stage 6. -/
theorem State.depart_aim_port (port r : Nat) : (s.aim n a stream (.ports [(port, r)] false) ok).depart n (.ports [(port, r)] false) =
    ((s.writeActions n a stream (ok r) port).updPkt n (fun p => { p with dests := [(port, ok r)], mc := false })).stage6 n := rfl

/-- A result of type 2 drops the packet, and the drop is counted. -/
theorem State.depart_aim_drop : (s.aim n a stream .drop ok).depart n .drop =
    ((s.writeActions n a stream 0 0).count Stat.actionDrops ((s.writeActions n a stream 0 0).pkt.at n).port).stageDrop n := rfl

theorem State.depart_aim_punt : (s.aim n a stream .punt ok).depart n .punt = (s.writeActions n a stream 0 0).stagePunt n 0 := rfl

end aim

theorem forwardingResult_none {p : Packet} (hfront : M.frontHit.get p.md ≠ 1) (hprefix : M.prefixHit.get p.md ≠ 1)
    (hrule : M.ruleHit.get p.md ≠ 1) (redirect : Bool) : forwardingResult p redirect = none := by
  simp [forwardingResult, hfront, hprefix, hrule]

section here
variable {s : State} {n : Nat} {bad : List Nat} (hhere : (s.pkt.at n).relaySrc = none ∨ (s.pkt.at n).relayField H.dst = s.fab.id)
include hhere

/-- A packet for this device is no transit frame. -/
theorem State.notTransit_of_here : ((s.pkt.at n).relaySrc.isSome && decide ((s.pkt.at n).relayField H.dst ≠ s.fab.id)) = false := by
  rcases hhere with h | h <;> simp [h]

theorem State.actions_default (h : M.verdict.get (s.pkt.at n).md = 2) : s.actions n bad = (s.defaultRoute n).stage6 n := by
  simp only [State.actions, State.notTransit_of_here hhere, h, Bool.false_eq_true, if_false, if_true]

variable (hverdict : M.verdict.get (s.pkt.at n).md ≠ 2)
include hverdict

section noResult
variable (hnone : forwardingResult (s.pkt.at n) (s.actionSet (s.pkt.at n) true).redirect = none) {u : State}
  (hu : u = s.updPkt n (fun p => { p with md := putFields p.md [(M.cause, 0x20), (M.verdict, 2)] }))
include hnone hu

theorem State.actions_noResult : s.actions n bad =
    if 2 ≤ (s.bankAt n).getN P.defaultAction (s.pkt.at n).port then (u.defaultRoute n).stage6 n
    else if (s.bankAt n).getN P.defaultAction (s.pkt.at n).port = 1 then u.stagePunt n 0x20
    else (u.count Stat.defaultDrops (64 * (s.pkt.at n).port + 0x20)).stageDrop n := by
  simp only [State.actions, State.notTransit_of_here hhere, hverdict, hnone, ← hu, Bool.false_eq_true, if_false]
  rw [hu]
  simp only [State.defaultStays, decide_eq_true_eq]
  rfl

theorem State.actions_noResultDrop (h : (s.bankAt n).getN P.defaultAction (s.pkt.at n).port = 0) :
    s.actions n bad = (u.count Stat.defaultDrops (64 * (s.pkt.at n).port + 0x20)).stageDrop n := by
  rw [State.actions_noResult hhere hverdict hnone hu, if_neg (by omega), if_neg (by omega)]

theorem State.actions_noResultPunt (h : (s.bankAt n).getN P.defaultAction (s.pkt.at n).port = 1) :
    s.actions n bad = u.stagePunt n 0x20 := by
  rw [State.actions_noResult hhere hverdict hnone hu, if_neg (by omega), if_pos h]

theorem State.actions_noResultRoute (h : 2 ≤ (s.bankAt n).getN P.defaultAction (s.pkt.at n).port) :
    s.actions n bad = (u.defaultRoute n).stage6 n := by
  rw [State.actions_noResult hhere hverdict hnone hu, if_pos h]

end noResult

section result
variable {a : ActionSet} {f : Nat} (ha : a = s.actionSet (s.pkt.at n) true) (hresult : forwardingResult (s.pkt.at n) a.redirect = some f)
include ha hresult

/-- A record that is read with bad parity drops the packet (R168). -/
theorem State.actions_badRecord {broken : List (Nat × Nat)}
    (hbroken : broken = (s.recordsRead (s.pkt.at n) a (some f)).filter (fun r => s.recordBad bad r.1 r.2)) (h : broken ≠ []) :
    s.actions n bad = (s.forEach broken (fun s r => s.parityError (recordCode r.1 r.2) (decide (12 ≤ a.cls)))).stageDrop n := by
  subst ha
  simp only [State.actions, State.notTransit_of_here hhere, hverdict, hresult, ← hbroken, Bool.false_eq_true, if_false]
  simp [h]

/-- A packet without a stream, whose records are sound and live, is aimed and departs. -/
theorem State.actions_departs (hsound : (s.recordsRead (s.pkt.at n) a (some f)).filter (fun r => s.recordBad bad r.1 r.2) = [])
    (hstream : a.stream = 0) (hvalid : a.invalid = false) {rt : Route} (hrt : s.route (s.pkt.at n) f a.rewrite = rt)
    (hlive : ∀ r ∈ rt.rewrites, r = 0 ∨ s.liveFor (s.pkt.at n) K.rewrite r = true) :
    s.actions n bad = (s.aim n a 0 rt id).depart n rt := by
  subst ha
  have hrewrites : rt.rewrites.any (fun r => r != 0 && !s.liveFor (s.pkt.at n) K.rewrite r) = false :=
    List.any_eq_false.2 (fun r hr => by rcases hlive r hr with h | h <;> simp [h])
  have haim := s.aim_standing (rt := rt) (ok := fun r => if s.liveFor (s.pkt.at n) K.rewrite r then r else 0)
    (fun r hr => by rcases hlive r hr with h | h <;> simp [h]) n (s.actionSet (s.pkt.at n) true) 0
  simp only [State.actions, State.notTransit_of_here hhere, hverdict, hresult, hsound, hstream, hvalid, hrt, Bool.false_eq_true, if_false,
    List.isEmpty_nil, Bool.not_true, bne_self_eq_false, Bool.false_and, Bool.or_false, Bool.false_or]
  rw [if_pos trivial]
  exact (congrArg (fun u : State => (u.aim n _ 0 rt _).depart n rt) (if_neg (Bool.eq_false_iff.1 hrewrites))).trans (by rw [haim])

end result

end here

end Sys2Proof.Machine
end

section
/-! O24: what the classifier and action rows do to a packet. -/
namespace Sys2Proof.Machine

/-! ### The commands -/

theorem exec_classifierHandoff (n : Nat) (bad : List BadEntry) (s : State) :
    exec (.classifierHandoff n bad) s = runs (fun s => s.handoff n bad) s := rfl

theorem exec_stationLookupComplete (n : Nat) (bad : List BadEntry) (s : State) :
    exec (.stationLookupComplete n bad) s = runs (fun s => s.stationDone n bad) s := rfl

theorem exec_stationLookupAbandon (n : Nat) (s : State) : exec (.stationLookupAbandon n) s = runs (fun s => s.stationAbandon n) s := rfl

theorem exec_actionRelease (n : Nat) (bad : List BadEntry) (s : State) :
    exec (.actionRelease n bad) s = runs (fun s => s.release n bad) s := rfl

section handoff
variable {s : State} {n : Nat}

theorem State.handoff_behind (h : s.behind n Stage.beforeLookup = true) (bad : List BadEntry) : s.handoff n bad = s := by
  simp [State.handoff, h]

theorem State.handoff_classifies (hlive : (s.pkt.at n).live = true) (hstage : (s.pkt.at n).stage = .parsed)
    (hfirst : s.behind n Stage.beforeLookup = false) (bad : List BadEntry) : s.handoff n bad = s.classify n (badCodes bad) := by
  simp [State.handoff, hlive, hstage, hfirst]

/-- A packet that misses every lookup leaves the rest of the state as it is. -/
theorem State.handoff_misses {bad : List BadEntry} (h : s.handoff n bad = s.frontOnly n none) :
    ∃ t, runs (fun s => s.handoff n bad) s = .next t ∧ t = { s with pkt := t.pkt } ∧ (∀ m, m ≠ n → t.pkt.at m = s.pkt.at m)
      ∧ t.pkt.at n = { s.pkt.at n with
        ruleRes := 0, pfxRes := 0, stage := .classified, looked := s.tbl.dels
        md := putFields (s.pkt.at n).md [(M.frontHit, 0), (M.frontResult, 0), (M.stationPending, 0),
          (M.ruleHit, 0), (M.ruleAddr, 0), (M.prefixHit, 0), (M.prefixAddr, 0)] } :=
  ⟨s.frontOnly n none, runs_to h (by rw [State.frontOnly_only]) (by rw [State.frontOnly_only]), s.frontOnly_only n none,
    fun m hm => s.frontOnly_other hm none, s.frontOnly_miss n⟩

end handoff

/-- A lookup that is counted and given up stays on the packet path. -/
theorem State.offPath_countAnswered (s : State) (st : Stat) (i n : Nat) : ((s.count st i).answered n none).offPath = s.offPath :=
  s.offPath_count st i 1

/-- Settles O24: each clause is one case of the classifier's lookups or of the action stage. -/
theorem lookupsAndActionsInOrder : Obligations.LookupsAndActionsInOrder := by
  unfold Obligations.LookupsAndActionsInOrder
  simp only [exec_classifierHandoff, exec_stationLookupComplete, exec_stationLookupAbandon, exec_actionRelease]
  refine ⟨?handoff, ?handoffBehind, ?miss, ?goOn, ?station, ?release, ?releaseBehind, ?action, ?front⟩
  case handoff =>
    rintro s n bad _ rfl hlive hstage hfirst
    have hclassify := State.handoff_classifies hlive hstage hfirst bad
    refine ⟨fun hverdict => runs_to (hclassify.trans (State.classify_verdict hverdict _)) rfl rfl, fun hverdict hprof => ?_, runs_keeping hclassify⟩
    exact State.handoff_misses (hclassify.trans
      (State.classify_frontOnly hverdict hprof (s.frontLookup_noProfile n (badCodes bad)) ⟨.inl rfl, .inl rfl, .inr (.inl rfl)⟩))
  case handoffBehind => exact fun s n bad h => runs_to (State.handoff_behind h bad) rfl rfl
  case miss =>
    rintro s n _ _ rfl rfl
    exact ⟨State.onMiss_express, fun hplain => ⟨State.onMiss_overload hplain, State.onMiss_reads hplain⟩⟩
  case goOn =>
    rintro s n _ _ rfl rfl
    exact ⟨s.goOn_overload n, rfl, State.goOn_expressDrop, State.goOn_expressPunt, State.goOn_expressOn⟩
  case station =>
    rintro s n w _ _ bad _ _ _ rfl hlive hstage rfl rfl rfl rfl
    refine ⟨fun hlate => ?_, fun hearly => ⟨runs_to (State.stationAbandon_early hstage hearly) rfl rfl, fun hfull => ?_, fun hfits hsound => ?_⟩⟩
    · exact ⟨_, rfl, runs_path (State.stationDone_late hstage hlive hlate bad) (s.offPath_countAnswered _ _ _),
        runs_path (State.stationAbandon_late hstage hlive hlate) (s.offPath_countAnswered _ _ _), s.count_answered _ _ _⟩
    · exact ⟨_, runs_path ((State.stationDone_inTime hstage hlive hearly bad).trans (State.stationAnswer_overload hfull)) (s.offPath_countAnswered _ _ _),
        rfl, s.count_answered _ _ _⟩
    · have hdone := (State.stationDone_inTime hstage hlive hearly bad).trans (State.stationAnswer_found hfits hsound rfl)
      exact ⟨_, runs_keeping hdone, s.ctr_found n _ _, s.stage_found n _ _,
        fun hmiss => (congrArg (fun hit => ((s.found n _ hit).pkt.at n).md) hmiss).trans (s.found_miss n _),
        fun c hhit hlow hhigh => (congrArg (fun hit => ((s.found n _ hit).pkt.at n).md) hhit).trans (s.found_hit n _ hlow hhigh)⟩
  case release =>
    rintro s n bad _ rfl hlive hstage hfirst htail hturn
    exact runs_keeping (State.release_acts hlive hstage hfirst htail hturn bad)
  case releaseBehind => exact fun s n bad h => runs_to (State.release_idle h bad) rfl rfl
  case action =>
    rintro s n bad _ rfl hlive hstage hfirst htail hturn
    have hacts {u} (h : s.actions n (badCodes bad) = u) : runs (fun s => s.release n bad) s = .next (s.keeping u) :=
      runs_keeping ((State.release_acts hlive hstage hfirst htail hturn bad).trans h)
    refine ⟨fun hrelay hother => ⟨fun h => hacts ((State.actions_transit hrelay hother _).trans (State.transit_lastHop h)),
      fun h => hacts ((State.actions_transit hrelay hother _).trans (State.transit_goesOn h))⟩,
      fun hhere => ⟨fun h => hacts (State.actions_default hhere h), ?noResult, ?result⟩⟩
    case noResult =>
      intro u hverdict hfront hprefix hrule hu
      have hnone := forwardingResult_none hfront hprefix hrule (s.actionSet (s.pkt.at n) true).redirect
      exact ⟨fun h => hacts (State.actions_noResultDrop hhere hverdict hnone hu h),
        fun h => hacts (State.actions_noResultPunt hhere hverdict hnone hu h),
        fun h => hacts (State.actions_noResultRoute hhere hverdict hnone hu h)⟩
    case result =>
      rintro a f broken hverdict ha hresult hbroken
      refine ⟨fun h => hacts (State.actions_badRecord hhere hverdict ha hresult hbroken h), fun hsound hstream hvalid => ?_⟩
      have hdeparts {rt} (hrt : s.route (s.pkt.at n) f a.rewrite = rt)
          (hrewrites : ∀ r ∈ rt.rewrites, r = 0 ∨ s.liveFor (s.pkt.at n) K.rewrite r = true) :
          runs (fun s => s.release n bad) s = .next (s.keeping ((s.aim n a 0 rt id).depart n rt)) :=
        hacts (State.actions_departs hhere hverdict ha hresult (hbroken.symm.trans hsound) hstream hvalid hrt hrewrites)
      refine ⟨fun htype hrewrite => ?_, fun htype => ?_, fun htype => ?_, fun rt htype hrt hports hrelay => ?_⟩
      · have hport := hdeparts (State.route_port _ htype) (List.forall_mem_singleton.2 hrewrite)
        rwa [State.depart_aim_port] at hport
      · have hdrop := hdeparts (State.route_drop _ htype) (List.forall_mem_nil _)
        rwa [State.depart_aim_drop] at hdrop
      · have hpunt := hdeparts (State.route_punt _ htype) (List.forall_mem_nil _)
        rwa [State.depart_aim_punt] at hpunt
      · exact hdeparts ((State.route_nextHop _ htype).trans hrt.symm) (Route.rewrites_forall hports hrelay)
  case front =>
    rintro s n _ _ bad _ _ hit rfl hlive hstage hfirst hverdict rfl hprof rfl rfl hrules hprefix hlearn hsound hhit
    have hclassify := State.handoff_classifies hlive hstage hfirst bad
    have hfront := State.frontLookup_sound hprof hsound hhit.symm
    refine ⟨fun hmiss hstation => ?_, fun c hfound hc => ?_⟩
    · subst hmiss
      exact State.handoff_misses (hclassify.trans
        (State.classify_frontOnly hverdict rfl hfront ⟨.inr ⟨hrules, hprefix⟩, .inr hlearn, .inr (.inr hstation)⟩))
    · subst hfound
      rw [Option.elim_some, State.hitEntry_only] at hfront
      have hhits := State.classify_frontOnly hverdict rfl hfront ⟨.inr ⟨hrules, hprefix⟩, .inr hlearn, .inl rfl⟩
      rw [← State.hitEntry_only] at hhits
      refine ⟨(s.hitEntry c none).frontOnly n (some c), runs_keeping (hclassify.trans hhits), ?_, fun m hm => ?_,
        fun hlearned => s.hit_hitEntry (by omega) hlearned, s.frontOnly_hit n hc⟩
      · rw [State.ctr_frontOnly, State.ctr_hitEntry]
      · rw [State.frontOnly_other _ hm, State.pkt_hitEntry]

end Sys2Proof.Machine
end

section
/-! SUPPORT. The arbiter, the move tracker and the writebacks of learning, case by case (R131 to R135, R137; log entry 72). -/
namespace Sys2Proof.Machine

/-! ### The contest of two events (R132) -/

/-- No stamp is later than itself (R44). -/
theorem later_self (width x : Nat) : later width x x = false := by
  have hmod : x % 2 ^ width ≤ x := Nat.mod_le _ _
  have hzero : (x + 2 ^ width - x % 2 ^ width) % 2 ^ width = 0 := by
    rw [Nat.sub_add_comm hmod, Nat.add_mod_right]
    exact Nat.mod_eq_zero_of_dvd (Nat.dvd_sub_mod x)
  simp [later, hzero]

/-- The window of a key holds an event. -/
def State.holdEvent (s : State) (key : Nat) (x : LearnEvent) : State :=
  s.updLearn (fun l => { l with window := l.window.map (fun v => if v.key = key then x else v) })

@[simp] theorem State.holdEvent_window (s : State) (key : Nat) (x : LearnEvent) :
    (s.holdEvent key x).learn.window = s.learn.window.map (fun v => if v.key = key then x else v) := rfl

section contest
variable (s : State) {e w : LearnEvent}

/-- Of two events of one port the earlier is kept, and no contest is counted. -/
theorem State.contest_samePort (hport : e.port = w.port) :
    s.contest e w = s.holdEvent w.key (if later 32 w.stamp e.stamp = true then { e with expiry := w.expiry } else w) := by
  simp [State.contest, hport, LearnEvent.earlier, State.holdEvent]

/-- An event of another port takes the window when it is the earlier, or of the same stamp and the lower port. -/
theorem State.contest_wins (hport : e.port ≠ w.port) (h : later 32 w.stamp e.stamp = true ∨ (e.stamp = w.stamp ∧ e.port < w.port)) :
    s.contest e w = (s.count Stat.learnContests).holdEvent w.key { e with expiry := w.expiry } := by
  simp [State.contest, hport, LearnEvent.earlier, h, State.holdEvent]

/-- An event of another port that does not win is counted. -/
theorem State.contest_loses (hport : e.port ≠ w.port) (hlate : later 32 w.stamp e.stamp = false) (h : e.stamp = w.stamp → w.port ≤ e.port) :
    s.contest e w = s.count Stat.learnContests := by
  simpa [State.contest, hport, LearnEvent.earlier, hlate] using fun heq hlt => absurd hlt (Nat.not_lt.2 (h heq))

/-- The earlier event is kept, of whichever port it is. -/
theorem State.contest_window_earlier (h : later 32 w.stamp e.stamp = true) :
    (s.contest e w).learn.window = s.learn.window.map (fun v => if v.key = w.key then { e with expiry := w.expiry } else v) := by
  by_cases hport : e.port = w.port
  · rw [s.contest_samePort hport, if_pos h, State.holdEvent_window]
  · rw [s.contest_wins hport (.inl h), State.holdEvent_window, State.count_only]

end contest

/-! ### The windows (R132) -/

section window
variable {s : State} {key : Nat} {e : LearnEvent}

theorem State.windowExpire_none (h : s.learn.window.find? (fun w => w.key == key) = none) : s.windowExpire key = s := by
  simp [State.windowExpire, h]

variable (hfind : s.learn.window.find? (fun w => w.key == key) = some e)
include hfind

theorem State.windowExpire_early (h : s.time.mono < e.expiry) : s.windowExpire key = s := by
  simp [State.windowExpire, hfind, h]

theorem State.windowExpire_deferred (h : e.expiry ≤ s.time.mono) (hflush : e.port ∈ s.learn.flushing) :
    s.windowExpire key = s.updLearn (fun l => { l with
      window := l.window.filter (fun w => w.key != key), deferred := l.deferred ++ [e] }) := by
  simp [State.windowExpire, hfind, Nat.not_lt.2 h, hflush, State.updLearn]

theorem State.windowExpire_applies (h : e.expiry ≤ s.time.mono) (hflush : e.port ∉ s.learn.flushing) (hrun : s.frozen e.inst = false) :
    s.windowExpire key = (s.updLearn (fun l => { l with window := l.window.filter (fun w => w.key != key) })).learnApply e := by
  have hrun' : (s.updLearn (fun l => { l with window := l.window.filter (fun w => w.key != key) })).frozen e.inst = false := hrun
  simp [State.windowExpire, hfind, Nat.not_lt.2 h, hflush, hrun']

end window

/-- A window of the key that has not ended stays as it is. -/
theorem State.windowExpire_open {s : State} {key : Nat}
    (h : ∀ w, s.learn.window.find? (fun w => w.key == key) = some w → s.time.mono < w.expiry) : s.windowExpire key = s := by
  cases hfind : s.learn.window.find? (fun w => w.key == key) with
  | none => exact State.windowExpire_none hfind
  | some w => exact State.windowExpire_early hfind (h w hfind)

/-- A key that no window holds is found in none. -/
theorem window_find_none {l : List LearnEvent} {key : Nat} (h : ∀ w ∈ l, w.key ≠ key) : l.find? (fun w => w.key == key) = none :=
  List.find?_eq_none.2 (fun w hw => by simpa using h w hw)

/-! ### The arbiter (R132, R134) -/

section arrived
variable {s v : State} {e : LearnEvent} (hv : s.windowExpire e.key = v)
include hv

theorem State.arrived_frozen (h : v.learn.frozen.any (fun f => f.1 == e.key) = true) : s.arrived e = v.count Stat.learnFrozen := by
  simp [State.arrived, hv, h]

theorem State.arrived_contests {w : LearnEvent} (h : v.learn.frozen.any (fun f => f.1 == e.key) = false)
    (hfind : v.learn.window.find? (fun w => w.key == e.key) = some w) : s.arrived e = v.contest e w := by
  simp [State.arrived, hv, h, hfind]

theorem State.arrived_opens (h : v.learn.frozen.any (fun f => f.1 == e.key) = false)
    (hfind : v.learn.window.find? (fun w => w.key == e.key) = none) :
    s.arrived e = v.updLearn (fun l => { l with window := l.window ++ [{ e with expiry := 1000 + v.time.mono }] }) := by
  simp [State.arrived, hv, h, hfind]

end arrived

section arbiter
variable {s : State} {pipe : Nat} {e : LearnEvent} {rest : List LearnEvent}

theorem State.learnArrival_empty (h : s.learn.fifo.at pipe = []) : s.learnArrival pipe = s := by
  simp [State.learnArrival, h]

variable (hfifo : s.learn.fifo.at pipe = e :: rest)
include hfifo

theorem State.learnArrival_waits (h : 1024 ≤ s.learn.window.length ∨ s.time.mono < s.learn.acceptAt) : s.learnArrival pipe = s := by
  simp [State.learnArrival, hfifo, h]

theorem State.learnArrival_takes (hroom : s.learn.window.length < 1024) (hdue : s.learn.acceptAt ≤ s.time.mono) :
    s.learnArrival pipe = (s.updLearn (fun l => { l with fifo := l.fifo.put pipe rest, acceptAt := s.time.mono + 1 })).arrived e := by
  simp [State.learnArrival, hfifo, Nat.not_le.2 hroom, Nat.not_lt.2 hdue]

end arbiter

/-! ### Moves and freezes (R134) -/

section moves
variable {s : State} {key n : Nat}

theorem State.trackMove_first (hfind : s.learn.moves.find? (fun m => m.1 == key) = none) (hroom : s.learn.moves.length < 4096) :
    s.trackMove key = (s.updLearn (fun l => { l with moves := l.moves ++ [(key, 1)] }), true) := by
  simp [State.trackMove, hfind, Nat.not_le.2 hroom]

variable (hfind : s.learn.moves.find? (fun m => m.1 == key) = some (key, n))
include hfind

theorem State.trackMove_counts (h : n < 8) :
    s.trackMove key = (s.updLearn (fun l => { l with moves := l.moves.map (fun m => if m.1 = key then (key, n + 1) else m) }), true) := by
  simp [State.trackMove, hfind, Nat.not_le.2 h]

theorem State.trackMove_freezes (h : 8 ≤ n) (hroom : s.learn.frozen.length < 1024) : s.trackMove key =
    ((s.updLearn (fun l => { l with frozen := l.frozen ++ [(key, 64)] })).ruleEvent 134 (key / 2 ^ 64) 0 [key % 2 ^ 64], false) := by
  simp [State.trackMove, hfind, h, State.freezeKey, Nat.not_le.2 hroom]

end moves

theorem State.freezeEnd_over {s : State} {key : Nat} (h : (key, 0) ∈ s.learn.frozen) : s.freezeEnd key =
    (s.updLearn (fun l => { l with frozen := l.frozen.filter (fun f => f.1 != key) })).ruleEvent 134 (key / 2 ^ 64) 1 [key % 2 ^ 64] := by
  simp [State.freezeEnd, h]

theorem State.freezeEnd_lasts {s : State} {key : Nat} (h : (key, 0) ∉ s.learn.frozen) : s.freezeEnd key = s := by
  simp [State.freezeEnd, h]

/-! ### An event whose key has an entry (R133, R135) -/

section existing
variable {s : State} {e : LearnEvent} {c : Nat × Nat} {tracked : Bool} {move : State → State}

theorem State.learnExisting_otherInstance (h : R.inst.get (s.entry c).result ≠ e.inst) :
    s.learnExisting e c tracked move = s.count Stat.learnTableFull := by
  simp [State.learnExisting, h]

variable (hinst : R.inst.get (s.entry c).result = e.inst)
include hinst

theorem State.learnExisting_static (h : R.static.get (s.entry c).result = 1) :
    s.learnExisting e c tracked move = s.count Stat.learnStaticHits := by
  simp [State.learnExisting, hinst, h]

variable (hstatic : R.static.get (s.entry c).result ≠ 1)
include hstatic

theorem State.learnExisting_same (htype : R.type.get (s.entry c).result = 0) (htarget : R.target.get (s.entry c).result = e.port) :
    s.learnExisting e c tracked move = s := by
  simp [State.learnExisting, hinst, hstatic, htype, htarget]

variable (hmoves : R.type.get (s.entry c).result ≠ 0 ∨ R.target.get (s.entry c).result ≠ e.port)
include hmoves

/-- A move that the arbiter has counted is made. -/
theorem State.learnExisting_counted : s.learnExisting e c true move = move s := by
  simp [State.learnExisting, hinst, hstatic, Decidable.not_and_iff_not_or_not.2 hmoves]

theorem State.learnExisting_frozen (h : s.learn.frozen.any (fun f => f.1 == e.key) = true) :
    s.learnExisting e c false move = s.count Stat.learnFrozen := by
  simp [State.learnExisting, hinst, hstatic, Decidable.not_and_iff_not_or_not.2 hmoves, h]

/-- A move not counted yet is made as far as the tracker lets it. -/
theorem State.learnExisting_tracked (h : s.learn.frozen.any (fun f => f.1 == e.key) = false) :
    s.learnExisting e c false move = if (s.trackMove e.key).2 then move (s.trackMove e.key).1 else (s.trackMove e.key).1 := by
  rcases htrack : s.trackMove e.key with ⟨t, counted⟩
  cases counted <;> simp [State.learnExisting, hinst, hstatic, Decidable.not_and_iff_not_or_not.2 hmoves, h, htrack]

end existing

theorem State.learnApply_found {s : State} {e : LearnEvent} {c : Nat × Nat} (h : s.learnFind e = some c) : s.learnApply e =
    s.learnExisting e c false (fun s => if c.1 < 2 then s.moveEntry c e.port else s.handOff e true) := by
  simp [State.learnApply, h]

theorem State.handOff_queues {s : State} (h : s.learn.queue.length < 65536) (e : LearnEvent) (move : Bool) :
    s.handOff e move = s.updLearn (fun l => { l with queue := l.queue ++ [(e, move)] }) := by
  simp [State.handOff, Nat.not_le.2 h]

/-! ### Writebacks (R135, R137, R350) -/

theorem State.writebackNext_idle {s : State} (h : s.learn.queue = [] ∨ s.pacer.down = true) : s.writebackNext = s := by
  cases hq : s.learn.queue with
  | nil => simp [State.writebackNext, hq]
  | cons x rest => simp [State.writebackNext, hq, h.resolve_left (by simp [hq])]

/-- The state in which a writeback that the Pacer issues works: its bucket is read and written (R350). -/
def State.writing (s : State) (e : LearnEvent) (rest : List (LearnEvent × Bool)) : State :=
  ((s.updLearn (fun l => { l with queue := rest })).hbmAsk 5
    (hbmStation + 64 * s.cfg.active.station1 (stationKey e.key)) 64 false (stationKey e.key)).hbmAsk 5
    (hbmStation + 64 * s.cfg.active.station1 (stationKey e.key)) 64 true (stationKey e.key)

section writeback
variable {s : State} {e : LearnEvent} {m : Bool} {rest : List (LearnEvent × Bool)} (hqueue : s.learn.queue = (e, m) :: rest)
include hqueue

theorem State.writebackNext_flushing (h : e.port ∈ s.learn.flushing) : s.writebackNext = s := by
  simp [State.writebackNext, hqueue, h]

variable (hup : s.pacer.down = false) (hflush : e.port ∉ s.learn.flushing)
include hup hflush

theorem State.writebackNext_stale (h : s.instGen e.inst ≠ e.instGen) : s.writebackNext =
    (s.updLearn (fun l => { l with queue := rest })).count Stat.falseStartDiscards (6 * e.inst + 5) := by
  have hgen : (s.updLearn (fun l => { l with queue := rest })).instGen e.inst ≠ e.instGen := h
  simp [State.writebackNext, hqueue, hup, hflush, hgen]

variable (hgen : s.instGen e.inst = e.instGen) (hrun : s.frozen e.inst = false)
include hgen hrun

theorem State.writebackNext_issues {v : State} (hv : s.writing e rest = v) : s.writebackNext =
    (v.learnFind e).elim (v.learnStation e) (fun c => v.learnExisting e c m (fun s => s.moveEntry c e.port)) := by
  have hgen' : (s.updLearn (fun l => { l with queue := rest })).instGen e.inst = e.instGen := hgen
  have hrun' : (s.updLearn (fun l => { l with queue := rest })).frozen e.inst = false := hrun
  unfold State.writing at hv
  cases hfind : v.learnFind e <;> simp [State.writebackNext, hqueue, hup, hflush, hgen', hrun', hv, hfind]

end writeback

end Sys2Proof.Machine
end

section
/-! O33: what the learning rows do to windows, entries and queues. -/
namespace Sys2Proof.Machine

/-! ### The commands -/

theorem exec_learnArbiterArrival (pipe : Nat) (s : State) :
    exec (.learnArbiterArrival pipe) s = runs (fun s => s.learnArrival pipe) s := rfl

theorem exec_learnWindowExpire (key : Nat) (s : State) : exec (.learnWindowExpire key) s = runs (fun s => s.windowExpire key) s := rfl

theorem exec_learnFreezeEnd (key : Nat) (s : State) : exec (.learnFreezeEnd key) s = runs (fun s => s.freezeEnd key) s := rfl

theorem exec_learnWriteback (s : State) : exec .learnWriteback s = runs (fun s => s.writebackNext) s := rfl

/-- Settles O33: each clause is one case of the arbiter, the contest, the application of an event, the move tracker or the writeback. -/
theorem learnedKeysFollowTheirEvents : Obligations.LearnedKeysFollowTheirEvents := by
  unfold Obligations.LearnedKeysFollowTheirEvents
  simp only [exec_learnArbiterArrival, exec_learnWindowExpire, exec_learnFreezeEnd, exec_learnWriteback]
  refine ⟨?arrival, ?noEvent, ?contest, ?expire, ?noWindow, ?existing, ?firstMove, ?nextMove, ?freezeEnd, ?idle, ?writeback⟩
  case arrival =>
    rintro s _ pipe e rest hfifo
    refine ⟨fun hwait => runs_to (State.learnArrival_waits hfifo hwait) rfl rfl, ?_⟩
    rintro hroom hdue rfl
    have htakes := State.learnArrival_takes hfifo hroom hdue
    refine ⟨?_, fun hopen => ?_⟩
    · rintro _ rfl
      exact ⟨fun h => runs_keeping (htakes.trans (State.arrived_frozen rfl h)), fun h =>
        ⟨fun w hfind => runs_keeping (htakes.trans (State.arrived_contests rfl h hfind)),
          fun hfind => runs_keeping (htakes.trans (State.arrived_opens rfl h hfind))⟩⟩
    · have hstays := State.windowExpire_open (s := s.updLearn (fun l => { l with
        fifo := l.fifo.put pipe rest, acceptAt := s.time.mono + 1 })) hopen
      exact ⟨fun h => runs_to (htakes.trans (State.arrived_frozen hstays h)) (by simp) (by simp), fun h =>
        ⟨fun w hfind => runs_keeping (htakes.trans (State.arrived_contests hstays h hfind)),
          fun hnone => runs_to (htakes.trans (State.arrived_opens hstays h (window_find_none hnone))) rfl rfl⟩⟩
  case noEvent => exact fun s pipe h => runs_to (State.learnArrival_empty h) rfl rfl
  case contest =>
    intro s e w
    refine ⟨fun hport hlate => ?_, fun h => s.contest_window_earlier h,
      fun hport hstamp => s.contest_wins (Nat.ne_of_lt hport) (.inr ⟨hstamp, hport⟩),
      fun hport hstamp => s.contest_loses (Nat.ne_of_gt hport) (hstamp ▸ later_self 32 e.stamp) (fun _ => Nat.le_of_lt hport)⟩
    rw [s.contest_samePort hport, if_neg (by simp [hlate]), State.holdEvent_window]
  case expire =>
    rintro s _ key e hfind rfl
    exact ⟨fun hover hflush hrun => runs_keeping (State.windowExpire_applies hfind hover hflush hrun),
      fun hover hflush => runs_to (State.windowExpire_deferred hfind hover hflush) rfl rfl,
      fun hearly => runs_to (State.windowExpire_early hfind hearly) rfl rfl⟩
  case noWindow => exact fun s key h => runs_to (State.windowExpire_none (window_find_none h)) rfl rfl
  case existing =>
    rintro s e c _ hfind rfl
    rw [State.learnApply_found hfind]
    refine ⟨State.learnExisting_otherInstance, State.learnExisting_static, State.learnExisting_same,
      fun hinst hstatic hmoves => ⟨State.learnExisting_frozen hinst hstatic hmoves, ?_⟩⟩
    rintro hthawed _ rfl
    rw [State.learnExisting_tracked hinst hstatic hmoves hthawed]
    refine ⟨fun hheld => by rw [hheld]; rfl, fun hmade hfront => ?_, fun hmade hstation hroom => ?_⟩
    · rw [if_pos hmade, if_pos hfront]; rfl
    · rw [if_pos hmade, if_neg (Nat.not_lt.2 hstation), State.handOff_queues hroom]; rfl
  case firstMove => exact fun s key => State.trackMove_first
  case nextMove => exact fun s key n hfind => ⟨State.trackMove_counts hfind, State.trackMove_freezes hfind⟩
  case freezeEnd =>
    exact fun s key => ⟨fun h => runs_to (State.freezeEnd_over h) (by simp) (by simp), fun h => runs_to (State.freezeEnd_lasts h) rfl rfl⟩
  case idle => exact fun s h => runs_to (State.writebackNext_idle h) rfl rfl
  case writeback =>
    rintro s _ e m rest hqueue hup rfl
    refine ⟨fun h => runs_to (State.writebackNext_flushing hqueue h) rfl rfl, fun hflush =>
      ⟨fun h => runs_to (State.writebackNext_stale hqueue hup hflush h) (by simp) (by simp), ?_⟩⟩
    rintro hgen hrun v hv
    have hissues := State.writebackNext_issues hqueue hup hflush hgen hrun hv.symm
    refine ⟨fun hnone => runs_keeping (by rw [hissues, hnone]; rfl), fun c hfind hinst hstatic hmoves => ?_⟩
    rw [hfind, Option.elim_some] at hissues
    refine ⟨?_, ?_⟩
    · rintro rfl
      exact runs_keeping (hissues.trans (State.learnExisting_counted hinst hstatic hmoves))
    · rintro rfl hthawed
      exact runs_keeping (hissues.trans (State.learnExisting_tracked hinst hstatic hmoves hthawed))

end Sys2Proof.Machine
end

section
/-! SUPPORT. Passes over the valid entries, and what they make of each cell (R126, R136, R137). -/
namespace Sys2Proof.Machine

/-! ### Walks that keep a fact -/

/-- What every round of a walk keeps true, the walk keeps true. -/
theorem State.forEach_invariant {α : Type} {P : State → Prop} {f : State → α → State} {l : List α}
    (hstep : ∀ u, P u → ∀ a ∈ l, P (f u a)) {s : State} (h : P s) : P (s.forEach l f) := by
  induction l generalizing s with
  | nil => exact h
  | cons a l ih =>
    exact ih (fun u hu b hb => hstep u hu b (List.mem_cons_of_mem _ hb)) (hstep s h a List.mem_cons_self)

/-! ### The canonical form -/

theorem Tables.wf_setStore {t : Tables} {k : Nat} {l : Tab Entry} (h : t.wf) (hk : k ≤ 3) (hl : Tab.wf l = true) : (t.setStore k l).wf := by
  intro j hj
  rw [Tables.store_setStore _ _ _ _ hk hj]
  split
  · exact hl
  · exact h j hj

theorem State.wf_setEntry {s : State} {c : Nat × Nat} (h : s.tbl.wf) (hc : c.1 ≤ 3) (e : Entry) : (s.setEntry c e).tbl.wf :=
  Tables.wf_setStore h hc (Tab.wf_put _ _ _ (h _ hc))

/-! ### The empty entry -/

theorem parity_zero (lo w : Nat) : parity 0 lo w = 0 := by
  have hnone : (List.range w).filter (fun i => bit 0 (lo + i)) = [] := List.filter_eq_nil_iff.2 (fun i _ => by simp [bit])
  rw [parity, hnone]
  rfl

/-- PAR of an entry without contents is 0, in every structure. -/
theorem Entry.parityIn_empty (kind : Nat) : ({} : Entry).parityIn kind = 0 := by
  have hword : ({} : Entry).word = 0 := rfl
  have hstation : ({} : Entry).stationWord 0 = 0 := rfl
  simp [Entry.parityIn, poolPar, parity_zero, hword, hstation]

/-! ### One pass -/

/-- A pass writes the valid entries that a test names. -/
def State.pass (s : State) (p : (Nat × Nat) × Entry → Bool) (g : Entry → Entry) : State :=
  s.forEach (s.allEntries.filter p) (fun s x => s.setEntry x.1 (g x.2))

section pass
variable (s : State) (p : (Nat × Nat) × Entry → Bool) (g : Entry → Entry)

/-- A pass changes the tables alone. -/
theorem State.pass_only : s.pass p g = { s with tbl := (s.pass p g).tbl } :=
  State.forEach_invariant (P := fun u => u = { s with tbl := u.tbl }) (fun u hu x _ => by rw [hu]; rfl) rfl

variable {s} (h : s.tbl.wf)
include h

theorem State.wf_pass : (s.pass p g).tbl.wf := by
  refine State.forEach_invariant (P := fun u => u.tbl.wf) (fun u hu x hx => State.wf_setEntry hu ?_ _) h
  exact ((s.mem_allEntries h x.1 x.2).1 (List.mem_filter.1 hx).1).1

/-- A valid entry that the test names is written, with its side bits; every other entry stays. -/
theorem State.entry_pass {c : Nat × Nat} (hc : c.1 ≤ 3) : (s.pass p g).entry c =
    if (s.entry c).valid = true ∧ p (c, s.entry c) = true
    then { g (s.entry c) with par := (g (s.entry c)).parityIn c.1 } else s.entry c := by
  have hmem : ∀ x, x ∈ s.allEntries.filter p ↔ (x.1.1 ≤ 3 ∧ x.2 = s.entry x.1 ∧ x.2.valid = true) ∧ p x = true := fun x => by
    rw [List.mem_filter, s.mem_allEntries h x.1 x.2]
  have hnodup : ((s.allEntries.filter p).map (·.1)).Nodup := (s.allEntries_nodup h).sublist (List.filter_sublist.map _)
  obtain ⟨hwritten, hleft⟩ := s.forEach_setEntry _ g hnodup (fun x hx => ((hmem x).1 hx).1.1) c hc
  split
  next hnamed => exact hwritten _ ((hmem (c, s.entry c)).2 ⟨⟨hc, rfl, hnamed.1⟩, hnamed.2⟩)
  next hother =>
    refine hleft fun e he => hother ?_
    obtain ⟨⟨_, heq, hvalid⟩, hp⟩ := (hmem (c, e)).1 he
    obtain rfl : e = s.entry c := heq
    exact ⟨hvalid, hp⟩

end pass

/-! ### A part of the aging scan (R136) -/

/-- The contents of an entry that the aging scan has visited. -/
def Entry.visited (e : Entry) : Entry :=
  if R.learned.get e.result = 1 ∧ R.pinned.get e.result = 0 ∧ e.hit = false then {} else { e with hit := false }

/-- A visited entry as it is written: a removed one is empty. -/
theorem Entry.visited_written (e : Entry) (kind : Nat) : { e.visited with par := e.visited.parityIn kind } =
    if R.learned.get e.result = 1 ∧ R.pinned.get e.result = 0 ∧ e.hit = false then {}
    else { e with hit := false, par := ({ e with hit := false } : Entry).parityIn kind } := by
  unfold Entry.visited
  split
  · rw [Entry.parityIn_empty]
  · rfl

/-- ALT and OVF of the buckets of a part are brought up to date (R126). -/
def State.sweepFlags (s : State) (first count : Nat) : State :=
  s.forEach (s.tbl.stFlags.keys.filter (fun b => inScan first count (2, 4 * b))) (fun s b => s.clearFlags b)

theorem State.sweepFlags_only (s : State) (first count : Nat) : s.sweepFlags first count = { s with tbl := (s.sweepFlags first count).tbl } :=
  State.forEach_invariant (P := fun u => u = { s with tbl := u.tbl }) (fun u hu b _ => by rw [hu]; rfl) rfl

/-- The flags of a bucket are not among the entries. -/
theorem State.store_sweepFlags (s : State) (first count : Nat) : (s.sweepFlags first count).tbl.store = s.tbl.store :=
  State.forEach_keeps s (fun u => u.tbl.store) _ _ (fun _ _ => rfl)

section ageCells
variable (s : State) (first count : Nat)

/-- A part of the aging scan is a pass over its entries and a sweep over its flags. -/
theorem State.ageCells_eq : s.ageCells first count = (s.pass (fun x => inScan first count x.1) Entry.visited).sweepFlags first count := by
  have hvisit : (fun (s : State) (e : (Nat × Nat) × Entry) =>
      if R.learned.get e.2.result = 1 ∧ R.pinned.get e.2.result = 0 ∧ e.2.hit = false then s.setEntry e.1 {}
      else s.setEntry e.1 { e.2 with hit := false }) = fun s e => s.setEntry e.1 e.2.visited := by
    funext s e
    exact (apply_ite (s.setEntry e.1) _ _ _).symm
  unfold State.ageCells
  rw [hvisit]
  rfl

theorem State.ageCells_only : s.ageCells first count = { s with tbl := (s.ageCells first count).tbl } := by
  rw [State.ageCells_eq, State.sweepFlags_only, State.pass_only]

theorem State.store_ageCells : (s.ageCells first count).tbl.store = (s.pass (fun x => inScan first count x.1) Entry.visited).tbl.store := by
  rw [State.ageCells_eq, State.store_sweepFlags]

variable {s} (h : s.tbl.wf)
include h

theorem State.wf_ageCells : (s.ageCells first count).tbl.wf := by
  unfold Tables.wf
  rw [State.store_ageCells]
  exact State.wf_pass _ _ h

theorem State.entry_ageCells {c : Nat × Nat} (hc : c.1 ≤ 3) : (s.ageCells first count).entry c =
    if (s.entry c).valid = true ∧ inScan first count c = true then
      (if R.learned.get (s.entry c).result = 1 ∧ R.pinned.get (s.entry c).result = 0 ∧ (s.entry c).hit = false then {}
        else { s.entry c with hit := false, par := ({ s.entry c with hit := false } : Entry).parityIn c.1 })
    else s.entry c := by
  rw [← Entry.visited_written]
  refine Eq.trans ?_ (State.entry_pass (fun x => inScan first count x.1) Entry.visited h hc)
  exact congrFun (congrFun (congrArg (fun f k => (f k).at) (s.store_ageCells first count)) c.1) c.2

end ageCells

/-! ### A step of the aging scan (R136; log entry 147) -/

/-- The scan has visited `n` positions from `first` on, and goes on from the front after the last position of all. -/
def State.aged (s : State) (first n : Nat) : State := (s.ageCells first (min n (scanSpan - first))).ageCells 0 (first + n - scanSpan)

theorem State.aged_only (s : State) (first n : Nat) : s.aged first n = { s with tbl := (s.aged first n).tbl } := by
  have hfirst := s.ageCells_only first (min n (scanSpan - first))
  have hsecond := (s.ageCells first (min n (scanSpan - first))).ageCells_only 0 (first + n - scanSpan)
  unfold State.aged
  generalize (s.ageCells first (min n (scanSpan - first))).ageCells 0 (first + n - scanSpan) = t at *
  rw [hsecond, hfirst]

/-- Every cell has had the visit of both parts, in their order. -/
theorem State.entry_aged {s : State} (h : s.tbl.wf) (first n : Nat) {c : Nat × Nat} (hc : c.1 ≤ 3) {visit : Nat → Nat → Entry → Entry}
    (hvisit : ∀ a k e, visit a k e = if e.valid = true ∧ inScan a k c = true then
      (if R.learned.get e.result = 1 ∧ R.pinned.get e.result = 0 ∧ e.hit = false then {}
        else { e with hit := false, par := ({ e with hit := false } : Entry).parityIn c.1 })
      else e) :
    (s.aged first n).entry c = visit 0 (first + n - scanSpan) (visit first (min n (scanSpan - first)) (s.entry c)) := by
  rw [State.aged, State.entry_ageCells _ _ (State.wf_ageCells _ _ h) hc, ← hvisit, State.entry_ageCells _ _ h hc, ← hvisit]

theorem State.agePart_off {s : State} (h : s.par P.ageLaps = 0 ∨ s.pacer.down = true) (count : Nat) : s.agePart count = s := by
  simp [State.agePart, h]

theorem State.agePart_visits {s : State} (hon : s.par P.ageLaps ≠ 0) (hup : s.pacer.down = false) {count n first : Nat}
    (hn : n = min count (s.tbl.age.due (2 * scanSpan) (s.par P.ageLaps) - s.tbl.age.pos)) (hfirst : s.tbl.age.pos % scanSpan = first) :
    s.agePart count = (s.aged first n).updTbl (fun t => { t with age := { s.tbl.age with pos := s.tbl.age.pos + n } }) := by
  subst hn hfirst
  simp [State.agePart, hon, hup, State.aged]

theorem State.ageStep_begins {s : State} {tier first : Nat} (h : s.tbl.age.pos % scanSpan = scanPos (tier, first)) (count : Nat) :
    s.ageStep tier first count = s.agePart count := if_pos h

theorem State.ageStep_elsewhere {s : State} {tier first : Nat} (h : s.tbl.age.pos % scanSpan ≠ scanPos (tier, first)) (count : Nat) :
    s.ageStep tier first count = s := if_neg h

theorem State.ageStep_idle {s : State} {tier first : Nat}
    (h : s.par P.ageLaps = 0 ∨ s.pacer.down = true ∨ s.tbl.age.pos % scanSpan ≠ scanPos (tier, first)) (count : Nat) :
    s.ageStep tier first count = s := by
  by_cases hpos : s.tbl.age.pos % scanSpan = scanPos (tier, first)
  · rw [State.ageStep_begins hpos]
    exact State.agePart_off (h.imp_right (fun h => h.resolve_right (not_not_intro hpos))) count
  · exact State.ageStep_elsewhere hpos count

/-- The outcome of a step that ends with the scan at a new position. -/
theorem runs_scan {s u : State} {f : State → State} {q : Scan} (honly : u = { s with tbl := u.tbl })
    (h : f s = u.updTbl (fun t => { t with age := q })) :
    ∃ t, runs f s = .next t ∧ t = { s with tbl := t.tbl } ∧ t.tbl.age = q ∧ ∀ c, t.entry c = u.entry c := by
  refine ⟨_, runs_to h ?_ ?_, ?_, rfl, fun _ => rfl⟩ <;> rw [honly] <;> rfl

/-! ### A step of a flush (R137) -/

/-- The state in which the entries of a part of a flush are gone. -/
def State.flushed (s : State) (port first count : Nat) : State :=
  s.pass (fun x => flushes port x.2 && inScan first count x.1) (fun _ => {})

theorem State.flushed_only (s : State) (port first count : Nat) :
    s.flushed port first count = { s with tbl := (s.flushed port first count).tbl } := s.pass_only _ _

theorem State.entry_flushed {s : State} (h : s.tbl.wf) (port first count : Nat) {c : Nat × Nat} (hc : c.1 ≤ 3) :
    (s.flushed port first count).entry c =
      if (s.entry c).valid = true ∧ flushes port (s.entry c) = true ∧ inScan first count c = true then {} else s.entry c := by
  rw [State.flushed, State.entry_pass _ _ h hc, Entry.parityIn_empty]
  simp

section flush
variable {s : State} {port : Nat}

theorem State.flushPart_off (h : port ∉ s.learn.flushing ∨ s.pacer.down = true) (first count : Nat) : s.flushPart port first count = s := by
  rcases h with h | h <;> simp [State.flushPart, h]

variable (hflush : port ∈ s.learn.flushing) (hup : s.pacer.down = false) {first count : Nat} {u : State} (hu : s.flushed port first count = u)
include hflush hup hu

theorem State.flushPart_goesOn (hleft : u.allEntries.any (fun e => flushes port e.2) = true) : s.flushPart port first count = u := by
  unfold State.flushed State.pass at hu
  simp only [State.flushPart, List.contains_eq_mem, hflush, hup, hu, hleft]
  rfl

/-- With its last entry the flush ends, and the events that waited for it are applied. -/
theorem State.flushPart_ends (hnone : u.allEntries.any (fun e => flushes port e.2) = false) : s.flushPart port first count =
    ({ u with learn := { s.learn with
      flushing := s.learn.flushing.filter (· != port), deferred := s.learn.deferred.filter (fun e => e.port != port) } } : State).forEach
      (s.learn.deferred.filter (fun e => e.port == port)) (fun s e => if s.frozen e.inst then s else s.learnApply e) := by
  have hlearn : u.learn = s.learn := by rw [← hu, State.flushed_only]
  rw [← hlearn]
  unfold State.flushed State.pass at hu
  simp only [State.flushPart, List.contains_eq_mem, hflush, hup, hu, hnone]
  rfl

end flush

end Sys2Proof.Machine
end

section
/-! SUPPORT. The scrub, the move engine, record fences and the sweeps over streams and meters, case by case (R138, R139, R142, R154, R161,
R178, R181). -/
namespace Sys2Proof.Machine

/-! ### The scrub (R138, R139, R161; log entry 147) -/

/-- A bad place in the due part of the pass is met, and the scrub moves on to the end of that part. -/
theorem State.scrub_meets {s : State} {e : BadEntry} {p due : Nat} (hup : s.pacer.down = false)
    (hdue : due = s.tbl.scrub.due scrubSpan (s.par P.scrubLaps)) (hplace : scrubPlace e = some p) (hlow : s.tbl.scrub.pos ≤ p) (hhigh : p < due) :
    s.scrub [e] = (s.scrubOne e).updTbl (fun t => { t with scrub := { s.tbl.scrub with pos := max s.tbl.scrub.pos due } }) := by
  subst hdue
  simp [State.scrub, hup, hplace, hlow, hhigh]

theorem State.scrubOne_entry {s : State} {e : BadEntry} (hkind : e.kind < 4) (hnew : badCode e.kind e.index ∉ s.tbl.bad) :
    s.scrubOne e = (((s.count Stat.tableParityErrors).ruleEvent 138 e.index 0 [e.kind]).raise 176 e.kind).updTbl
      (fun t => { t with bad := t.bad ++ [badCode e.kind e.index] }) := by
  simp [State.scrubOne, hkind, State.parityError, hnew, State.updTbl]

/-- The state in which a lane has lost VALID in the copy of a quadrant, and its rewrite goes ahead of the host's updates. -/
def State.laneLost (s : State) (addr quad : Nat) : State :=
  { s with srch := { s.srch with
    pfx := s.srch.pfx.upd addr (fun p => if p.valid then { p with lost := p.lost ||| 2 ^ quad } else p)
    moves := s.srch.moves.filter Move.isShadow ++ [Move.shadow 6 addr quad] ++ s.srch.moves.filter (fun m : Move => !m.isShadow) } }

theorem State.scrubOne_lane {s : State} {e : BadEntry} (hkind : e.kind = 6) {addr quad : Nat} (haddr : addr = e.index % 2 ^ 20)
    (hquad : quad = e.index / 2 ^ 20 % 4) :
    s.scrubOne e = ((s.laneLost addr quad).ruleEvent 161 addr 0 [1, quad]).raise (148 + quad) 0 := by
  subst haddr hquad
  simp [State.scrubOne, hkind, State.searchParity, State.laneLost]

/-! ### The move engine (R33, R154, R161) -/

section moveEngine
variable {s : State} {rest : List Move}

theorem State.moveUpdate_idle (h : s.srch.moves = []) : s.moveUpdate = s := by simp [State.moveUpdate, h]

/-- A row is rewritten in the copy that lost it. -/
theorem State.moveUpdate_restores {addr quad : Nat} (hmoves : s.srch.moves = .shadow 5 addr quad :: rest) (hrow : s.srch.rule.has addr = true)
    (hlost : bit (s.srch.rule.at addr).lost quad = true) : s.moveUpdate = { s.pacerAsk false with srch := { s.srch with
      moves := rest, rule := s.srch.rule.put addr ({ s.srch.rule.at addr with lost := (s.srch.rule.at addr).lost - 2 ^ quad } : Rule).sealed } } := by
  simp [State.moveUpdate, hmoves, hrow, hlost, Tab.upd]

variable {session seq pos op : Nat} {bytes : List Byte} {j : Job} (hmoves : s.srch.moves = .entry session seq pos op bytes :: rest)
  (hjob : s.job session seq = some j) (hrun : j.rstate = 1) (habort : j.abort = false)
include hmoves hjob hrun habort

theorem State.moveUpdate_waits (h : s.batchBudget ≤ s.mbx.batchUsed) : s.moveUpdate = s := by
  simp [State.moveUpdate, hmoves, hjob, hrun, habort, h]

theorem State.moveUpdate_applies (h : s.mbx.batchUsed < s.batchBudget) {u : State} {r : Nat × Nat}
    (hone : ({ s with srch := { s.srch with moves := rest } }).moveOne op j.inst bytes = (u, r)) :
    s.moveUpdate = ({ u.pacerAsk true with mbx := { u.mbx with batchUsed := u.mbx.batchUsed + 1 } }).moveEntryDone j op r.1 r.2 := by
  simp [State.moveUpdate, hmoves, hjob, hrun, habort, Nat.not_le.2 h, hone]

end moveEngine

/-! ### Record fences (R142) -/

section fence
variable {s : State} {kind index : Nat}

/-- A record that no job waits for is free past its fence. -/
theorem State.fencePass_frees (hst : (s.obj kind index).st = 2) (hpast : (s.obj kind index).fence ≤ s.time.lapAt)
    (hjobs : ∀ j ∈ s.running, j.kind ≠ .objDelete kind index) : s.fencePass kind index = s.setObj kind index {} := by
  have hnone : (s.setObj kind index {}).running.filter (fun j => j.kind == .objDelete kind index) = [] :=
    List.filter_eq_nil_iff.2 (fun j hj => by simpa using hjobs j hj)
  simp [State.fencePass, State.boundaryAt, hst, hpast, hnone]

theorem State.fencePass_stays (h : (s.obj kind index).st ≠ 2 ∨ s.time.lapAt < (s.obj kind index).fence) : s.fencePass kind index = s :=
  if_neg (fun ⟨hst, hpast⟩ => h.elim (fun hne => hne hst) (fun hlt => Nat.not_le.2 hlt hpast))

end fence

/-! ### Sweeps (R178, R181) -/

/-- A record that is changed leaves every other one. -/
theorem State.putObj_other (s : State) (kind index : Nat) (l : List (Field × Nat)) {k : Nat} (h : k ≠ kind * 2 ^ 20 + index) :
    (s.putObj kind index l).tbl.obj.at k = s.tbl.obj.at k := Tab.at_put_other _ _ h

theorem State.streamScan_resets {s : State} {index : Nat} (hst : (s.obj K.stream index).st ≠ 0)
    (hvalid : S.seqValid.get (s.obj K.stream index).words = 1)
    (hold : S.resetMs.get (s.obj K.stream index).words ≤ s.ageMs (S.lastAccept.get (s.obj K.stream index).words)) :
    s.streamScan index = s.putObj K.stream index [(S.seqValid, 0)] := if_pos ⟨hst, hvalid, hold⟩

/-- A two's complement word fits its width. -/
theorem unsigned_lt (width : Nat) (x : Int) : unsigned width x < 2 ^ width := by
  have hpos : (0 : Int) < ((2 ^ width : Nat) : Int) := by exact_mod_cast Nat.two_pow_pos width
  exact (Int.toNat_lt (Int.emod_nonneg _ (Int.ne_of_gt hpos))).2 (Int.emod_lt_of_pos _ hpos)

/-- What a visit writes into a meter's words: both buckets after `e` ns, and the time of the visit. -/
def meterFields (w e now : Nat) : List (Field × Nat) :=
  [(T.tc, unsigned 32 (bucketRise (signed 32 (T.tc.get w)) (T.cir.get w) (T.cbs.get w) e)),
    (T.tpe, unsigned 32 (bucketRise (signed 32 (T.tpe.get w)) (T.peir.get w) (T.pebs.get w) e)), (T.last, now)]

theorem State.meterVisit_updates {s : State} {m e : Nat} (hst : (s.obj K.meter m).st ≠ 0)
    (he : e = (s.time.mono % 2 ^ 32 + 2 ^ 32 - T.last.get (s.obj K.meter m).words) % 2 ^ 32) :
    s.meterVisit m = s.putObj K.meter m (meterFields (s.obj K.meter m).words e (s.time.mono % 2 ^ 32)) := by
  subst he
  exact if_neg hst

section meter
variable (w e now : Nat)

theorem meterFields_apart : (meterFields w e now).Pairwise (fun d f => d.1.apart f.1) := by
  simp [meterFields, Field.apart, T.tc, T.tpe, T.last]

theorem meterFields_tc : T.tc.get (putFields w (meterFields w e now)) =
    unsigned 32 (bucketRise (signed 32 (T.tc.get w)) (T.cir.get w) (T.cbs.get w) e) :=
  (get_putFields_mem _ (meterFields_apart w e now) w (T.tc, _) List.mem_cons_self).trans (Nat.mod_eq_of_lt (unsigned_lt 32 _))

theorem meterFields_tpe : T.tpe.get (putFields w (meterFields w e now)) =
    unsigned 32 (bucketRise (signed 32 (T.tpe.get w)) (T.peir.get w) (T.pebs.get w) e) :=
  (get_putFields_mem _ (meterFields_apart w e now) w (T.tpe, _) (List.mem_cons_of_mem _ List.mem_cons_self)).trans
    (Nat.mod_eq_of_lt (unsigned_lt 32 _))

theorem meterFields_last : T.last.get (putFields w (meterFields w e now)) = now % 2 ^ 32 :=
  get_putFields_mem _ (meterFields_apart w e now) w (T.last, now) (by simp [meterFields])

/-- A field apart from the buckets and the time of the visit keeps its value. -/
theorem meterFields_other {f : Field} (h : ∀ g ∈ [T.tc, T.tpe, T.last], g.apart f) :
    f.get (putFields w (meterFields w e now)) = f.get w :=
  get_putFields_other f _ (by simpa [meterFields] using h) w

end meter

end Sys2Proof.Machine
end

section
/-! O34: what aging, flushes, the scrub, fences and sweeps do. -/
namespace Sys2Proof.Machine

/-! ### The commands -/

theorem exec_ageScan (tier first count : Nat) (s : State) :
    exec (.ageScan tier first count) s = runs (fun s => s.ageStep tier first count) s := rfl

theorem exec_learnFlush (port first count : Nat) (s : State) :
    exec (.learnFlush port first count) s = runs (fun s => s.flushPart port first count) s := rfl

theorem exec_tableScrub (bad : List BadEntry) (s : State) : exec (.tableScrub bad) s = runs (fun s => s.scrub bad) s := rfl

theorem exec_moveEngineUpdate (s : State) : exec .moveEngineUpdate s = runs State.moveUpdate s := rfl

theorem exec_recordFencePass (kind index : Nat) (s : State) :
    exec (.recordFencePass kind index) s = runs (fun s => s.fencePass kind index) s := rfl

theorem exec_streamResetScan (index : Nat) (s : State) : exec (.streamResetScan index) s = runs (fun s => s.streamScan index) s := rfl

theorem exec_meterVisit (index : Nat) (s : State) : exec (.meterVisit index) s = runs (fun s => s.meterVisit index) s := rfl

/-- Settles O34: each clause is one case of the aging scan, the flush, the scrub, the move engine, a fence or a sweep. -/
theorem scansReachEveryEntry : Obligations.ScansReachEveryEntry := by
  unfold Obligations.ScansReachEveryEntry
  simp only [exec_ageScan, exec_learnFlush, exec_tableScrub, exec_moveEngineUpdate, exec_recordFencePass, exec_streamResetScan, exec_meterVisit]
  refine ⟨?age, ?ageIdle, ?flush, ?flushOff, ?scrub, ?restores, ?batch, ?noMove, ?fence, ?noFence, ?stream, ?meter⟩
  case age =>
    intro s tier first count n hon hup hwf hpos hn
    have hvisits := (State.ageStep_begins hpos count).trans (State.agePart_visits hon hup hn hpos)
    obtain ⟨t, hruns, honly, hage, hentry⟩ := runs_scan (s.aged_only _ _) hvisits
    exact ⟨t, hruns, honly, hage, fun c visit hc hvisit => (hentry c).trans (State.entry_aged hwf _ _ hc hvisit)⟩
  case ageIdle => exact fun s tier first count h => runs_to (State.ageStep_idle h count) rfl rfl
  case flush =>
    intro s port first count hflush hup hwf
    obtain ⟨u, hu⟩ : ∃ u, s.flushed port first count = u := ⟨_, rfl⟩
    have honly : u = { s with tbl := u.tbl } := hu ▸ s.flushed_only port first count
    refine ⟨u, honly, fun c hc => hu ▸ State.entry_flushed hwf port first count hc,
      fun hleft => runs_to (State.flushPart_goesOn hflush hup hu hleft) (by rw [honly]) (by rw [honly]), ?_⟩
    rintro hnone _ rfl
    have hends := State.flushPart_ends hflush hup hu hnone
    refine ⟨fun hdeferred => runs_to (hends.trans ?_) (by rw [honly]) (by rw [honly]), fun e he hrun => runs_keeping (hends.trans ?_)⟩
    · have hwaits : s.learn.deferred.filter (fun e => e.port == port) = [] :=
        List.filter_eq_nil_iff.2 (fun e he => by simpa using hdeferred e he)
      rw [hwaits, State.forEach_nil]
    · have hrun' : u.frozen e.inst = false := by rw [honly]; exact hrun
      rw [he, State.forEach_cons, State.forEach_nil]
      exact if_neg (ne_true_of_eq_false hrun')
  case flushOff => exact fun s port first count h => runs_to (State.flushPart_off h first count) rfl rfl
  case scrub =>
    rintro s e p due hup hdue hplace hlow hhigh
    have hmeets := State.scrub_meets hup hdue hplace hlow hhigh
    refine ⟨fun hkind hnew => ⟨_, rfl, runs_keeping (hmeets.trans (by rw [State.scrubOne_entry hkind hnew]; rfl))⟩,
      fun hkind addr quad haddr hquad => ⟨s.laneLost addr quad, rfl, _, rfl,
        runs_keeping (hmeets.trans (by rw [State.scrubOne_lane hkind haddr hquad]; rfl))⟩⟩
  case restores => exact fun s addr quad rest hmoves hrow hlost => runs_keeping (State.moveUpdate_restores hmoves hrow hlost)
  case batch =>
    exact fun s session seq pos op bytes rest j hmoves hjob hrun habort =>
      ⟨fun h u r hone => runs_keeping (State.moveUpdate_applies hmoves hjob hrun habort h hone),
        fun h => runs_to (State.moveUpdate_waits hmoves hjob hrun habort h) rfl rfl⟩
  case noMove => exact fun s h => runs_to (State.moveUpdate_idle h) rfl rfl
  case fence => exact fun s kind index hst hpast hjobs => runs_to (State.fencePass_frees hst hpast hjobs) rfl rfl
  case noFence => exact fun s kind index h => runs_to (State.fencePass_stays h) rfl rfl
  case stream =>
    intro s index hst hvalid hold
    have hkept : ∀ f : Field, S.seqValid.apart f → f.get ((s.putObj K.stream index [(S.seqValid, 0)]).obj K.stream index).words =
        f.get (s.obj K.stream index).words := fun f h => by
      rw [State.putObj_words, get_putFields_other f _ (List.forall_mem_singleton.2 h)]
    refine ⟨_, runs_to (State.streamScan_resets hst hvalid hold) rfl rfl, ?_, hkept _ (by decide), hkept _ (by decide),
      fun k hk => s.putObj_other _ _ _ hk⟩
    rw [State.putObj_words, putFields_cons, putFields_nil, Field.get_put_same, Nat.zero_mod]
  case meter =>
    intro s m e hst he
    refine ⟨_, runs_to (State.meterVisit_updates hst he) rfl rfl, ?_⟩
    rw [State.putObj_words]
    exact ⟨(meterFields_last _ _ _).trans (Nat.mod_mod _ _), meterFields_tc _ _ _, meterFields_tpe _ _ _,
      meterFields_other _ _ _ (by decide), meterFields_other _ _ _ (by decide), fun k hk => s.putObj_other _ _ _ hk⟩

end Sys2Proof.Machine
end

section
/-! SUPPORT. The handles of rules, and the replies of the RULE and PFX commands, case by case (R143, R146, R152, R154 to R160; log entry 70). -/
namespace Sys2Proof.Machine

/-! ### The handle of the next rule (R155) -/

/-- The handle `i` places after `n`, round the range 1 to 2³² − 1. -/
def handleAt (n i : Nat) : Nat := (n - 1 + i) % (2 ^ 32 - 1) + 1

theorem handleAt_zero {n : Nat} (hlow : 1 ≤ n) (hhigh : n < 2 ^ 32) : handleAt n 0 = n := by
  unfold handleAt; omega

theorem handleAt_succ {n : Nat} (hlow : 1 ≤ n) (i : Nat) : handleAt n (i + 1) = handleAt (n % (2 ^ 32 - 1) + 1) i := by
  unfold handleAt; omega

/-- Within one round no handle comes twice. -/
theorem handleAt_inj {n i j : Nat} (hi : i < 2 ^ 32 - 1) (hj : j < 2 ^ 32 - 1) (h : handleAt n i = handleAt n j) : i = j := by
  unfold handleAt at h; omega

/-- A rule of the store has the handle. -/
def handleUsed (rows : Tab Rule) (n : Nat) : Bool := rows.any (fun r => r.2.valid && r.2.handle == n)

theorem handleUsed_iff {rows : Tab Rule} {n : Nat} : handleUsed rows n = true ↔ ∃ r ∈ rows, r.2.valid = true ∧ r.2.handle = n := by
  simp [handleUsed]

theorem handleFrom_unused {rows : Tab Rule} {n : Nat} (h : handleUsed rows n = false) : ∀ k, handleFrom rows k n = n
  | 0 => rfl
  | _ + 1 => if_neg (ne_true_of_eq_false h)

theorem handleFrom_used {rows : Tab Rule} {n : Nat} (h : handleUsed rows n = true) (k : Nat) :
    handleFrom rows (k + 1) n = handleFrom rows k (n % (2 ^ 32 - 1) + 1) := if_pos h

theorem handleFrom_range (rows : Tab Rule) (k : Nat) {n : Nat} (hlow : 1 ≤ n) (hhigh : n < 2 ^ 32) :
    1 ≤ handleFrom rows k n ∧ handleFrom rows k n < 2 ^ 32 := by
  induction k generalizing n with
  | zero => exact ⟨hlow, hhigh⟩
  | succ k ih =>
    cases hused : handleUsed rows n with
    | true => rw [handleFrom_used hused]; exact ih (by omega) (by omega)
    | false => rw [handleFrom_unused hused]; exact ⟨hlow, hhigh⟩

/-- A search that ends at a handle in use has met nothing but handles in use. -/
theorem handleUsed_of_handleFrom {rows : Tab Rule} {k n : Nat} (hlow : 1 ≤ n) (hhigh : n < 2 ^ 32)
    (h : handleUsed rows (handleFrom rows k n) = true) : ∀ i ≤ k, handleUsed rows (handleAt n i) = true := by
  induction k generalizing n with
  | zero =>
    intro i hi
    rw [Nat.le_zero.1 hi, handleAt_zero hlow hhigh]
    exact h
  | succ k ih =>
    cases hused : handleUsed rows n with
    | false =>
      rw [handleFrom_unused hused, hused] at h
      cases h
    | true =>
      rw [handleFrom_used hused] at h
      rintro (_ | i) hi
      · rwa [handleAt_zero hlow hhigh]
      · rw [handleAt_succ hlow]
        exact ih (by omega) (by omega) h i (Nat.le_of_succ_le_succ hi)

/-- With fewer rules than handles, as many handles as there are rules and one more cannot all be in use. -/
theorem handleUsed_handleFrom {rows : Tab Rule} {n : Nat} (hlow : 1 ≤ n) (hhigh : n < 2 ^ 32) (hlen : rows.length < 2 ^ 32 - 1) :
    handleUsed rows (handleFrom rows rows.length n) = false := by
  refine eq_false_of_ne_true (fun hused => ?_)
  have hnodup : ((List.range (rows.length + 1)).map (handleAt n)).Nodup := by
    refine List.pairwise_map.2 (List.nodup_range.imp_of_mem (fun {i j} hi hj hne h => hne (handleAt_inj ?_ ?_ h)))
    · have := List.mem_range.1 hi; omega
    · have := List.mem_range.1 hj; omega
  have hsub : (List.range (rows.length + 1)).map (handleAt n) ⊆ rows.map (·.2.handle) := by
    refine List.forall_mem_map.2 (fun i hi => ?_)
    obtain ⟨r, hr, -, hhandle⟩ := handleUsed_iff.1 (handleUsed_of_handleFrom hlow hhigh hused i (Nat.lt_succ_iff.1 (List.mem_range.1 hi)))
    exact List.mem_map.2 ⟨r, hr, hhandle⟩
  have hle := hnodup.length_le_of_subset hsub
  rw [List.length_map, List.length_range, List.length_map] at hle
  exact Nat.not_succ_le_self _ hle

/-! ### Batches (R154, R422): each lemma takes the checks before its own as passed -/

section ruleInsert
variable {s : State} {inst : Nat} {a : Accepted}

theorem ruleInsert_badCount (h : countOk Op.ruleInsert a = false) : s.ruleInsert inst a = .refuse E.range := by
  simp [State.ruleInsert, h]

variable (hcount : countOk Op.ruleInsert a = true)
include hcount

theorem ruleInsert_frozen (h : s.frozen inst = true ∨ ∃ e ∈ batchEntries 96 a.payload, s.frozen (s.ruleFrom e).inst = true) :
    s.ruleInsert inst a = .refuse E.state := by
  simp [State.ruleInsert, hcount, h]

theorem ruleInsert_queued (hown : s.frozen inst = false) (h : ∀ e ∈ batchEntries 96 a.payload, s.frozen (s.ruleFrom e).inst = false) :
    s.ruleInsert inst a = s.moveBatch Op.ruleInsert 96 a := by
  have hrun : (batchEntries 96 a.payload).any (fun e => s.frozen (s.ruleFrom e).inst) = false :=
    List.any_eq_false.2 (fun e he => ne_true_of_eq_false (h e he))
  simp [State.ruleInsert, hcount, hown, hrun]

end ruleInsert

/-- The checks of a batch whose entries belong to the instances `own`, and its queueing. -/
def State.ownedBatch (s : State) (inst op n : Nat) (own : List Nat) (a : Accepted) : Reply :=
  if !countOk op a then .refuse E.range
  else if !own.all (owns inst) then .refuse E.notOwner
  else if s.frozen inst || own.any s.frozen then .refuse E.state
  else s.moveBatch op n a

theorem ruleDelete_eq (s : State) (inst : Nat) (a : Accepted) : s.ruleDelete inst a =
    s.ownedBatch inst Op.ruleDelete 4 (s.ruleOwners ((batchEntries 4 a.payload).map (fun e => leAt e 0 4))) a := rfl

theorem pfxBatch_eq (s : State) (inst op n : Nat) (a : Accepted) :
    s.pfxBatch inst op n a = s.ownedBatch inst op n (s.vrfOwners (batchEntries n a.payload)) a := rfl

section ownedBatch
variable {s : State} {inst op n : Nat} {own : List Nat} {a : Accepted}

theorem ownedBatch_badCount (h : countOk op a = false) : s.ownedBatch inst op n own a = .refuse E.range := by
  simp [State.ownedBatch, h]

variable (hcount : countOk op a = true)
include hcount

theorem ownedBatch_notOwner (h : ∃ o ∈ own, owns inst o = false) : s.ownedBatch inst op n own a = .refuse E.notOwner := by
  simp [State.ownedBatch, hcount, h]

theorem ownedBatch_queued (hfr : s.frozen inst = false) (h : ∀ o ∈ own, owns inst o = true ∧ s.frozen o = false) :
    s.ownedBatch inst op n own a = s.moveBatch op n a := by
  have howns : own.all (owns inst) = true := List.all_eq_true.2 (fun o ho => (h o ho).1)
  have hrun : own.any s.frozen = false := List.any_eq_false.2 (fun o ho => ne_true_of_eq_false (h o ho).2)
  simp [State.ownedBatch, hcount, howns, hfr, hrun]

end ownedBatch

/-! ### Entries of rule batches (R143, R146, R152, R155) -/

section ruleInsertOne
variable {s : State} {inst : Nat} {e : List Byte} (hok : ruleOk inst (leAt e 0 1) (s.ruleFrom e) = true)
  (hrefs : s.refCheck (s.ruleFrom e).inst (resultRefs (s.ruleFrom e).result) = 0)
include hok hrefs

theorem ruleInsertOne_share (h : s.par P.instRuleRows (s.ruleFrom e).inst ≤ s.ruleCount (s.ruleFrom e).inst) :
    s.ruleInsertOne inst e = (s, E.tableFull, 0) := by
  simp [State.ruleInsertOne, hok, hrefs, h]

theorem ruleInsertOne_placed {rows : Tab Rule} {n : Nat} (hroom : s.ruleCount (s.ruleFrom e).inst < s.par P.instRuleRows (s.ruleFrom e).inst)
    (h : placeRule s.srch.rule (s.ruleFrom e) (bit (leAt e 1 1) 0) = some (rows, n)) :
    s.ruleInsertOne inst e =
      ({ s with srch := { s.srch with rule := rows, nextHandle := s.srch.freeHandle % (2 ^ 32 - 1) + 1 } }, 0, s.srch.freeHandle) := by
  have hhandle : (s.ruleFrom e).handle = s.srch.freeHandle := rfl
  simp [State.ruleInsertOne, hok, hrefs, Nat.not_le.2 hroom, h, hhandle]

end ruleInsertOne

theorem ruleDeleteOne_unknown {s : State} {e : List Byte} (h : s.ruleOf (leAt e 0 4) = none) (inst : Nat) :
    s.ruleDeleteOne inst e = (s, E.notFound) := by
  simp [State.ruleDeleteOne, h]

theorem ruleDeleteOne_done {s : State} {inst row : Nat} {e : List Byte} {r : Rule} (h : s.ruleOf (leAt e 0 4) = some (row, r))
    (hown : owns inst r.inst = true) : s.ruleDeleteOne inst e = ({ s with srch := { s.srch with rule := s.srch.rule.del row } }, 0) := by
  simp [State.ruleDeleteOne, h, hown]

/-! ### RULE.SET_RESULT and RULE.READ (R154, R155) -/

section ruleOf
variable {s : State} {inst : Nat} {a : Accepted}

theorem ruleSetResult_waits (h : s.moving = true) : s.ruleSetResult inst a = .wait s := if_pos h

theorem ruleSetResult_unknown (hidle : s.moving = false) (h : s.ruleOf (leAt a.payload 0 4) = none) :
    s.ruleSetResult inst a = .refuse E.notFound := by
  simp [State.ruleSetResult, hidle, h]

theorem ruleRead_unknown (h : s.ruleOf (leAt a.payload 0 4) = none) : s.ruleRead inst a = .refuse E.notFound := by
  simp [State.ruleRead, h]

variable {row : Nat} {r : Rule} (hrule : s.ruleOf (leAt a.payload 0 4) = some (row, r)) (hown : owns inst r.inst = true)
include hrule hown

theorem ruleSetResult_done (hidle : s.moving = false) (hfr : s.frozen r.inst = false) (hok : resultOk (cleanMatch (leAt a.payload 8 8)) = true)
    (hrefs : s.refCheck r.inst (resultRefs (cleanMatch (leAt a.payload 8 8))) = 0) :
    s.ruleSetResult inst a = .ok { s with srch := { s.srch with
      rule := s.srch.rule.upd row (fun x => Rule.sealed { x with result := cleanMatch (leAt a.payload 8 8) }) } } := by
  simp [State.ruleSetResult, hidle, hrule, hown, hfr, hok, hrefs]

theorem ruleRead_done : s.ruleRead inst a = .ok s (leBytes 4 row ++ leBytes 1 (bits r.value 316 4) ++ leBytes 1 0
    ++ leBytes 2 r.prio ++ leBytes 40 r.value ++ leBytes 40 r.mask ++ leBytes 8 r.result) := by
  simp [State.ruleRead, hrule, hown]

end ruleOf

/-! ### Entries of prefix batches (R156 to R160) -/

section pfxInsertOne
variable {s : State} {e : List Byte} {p : Prefix} (hp : p = prefixEntry e) (hok : prefixOk e = true) (hres : resultOk p.result = true)
  (hrefs : s.refCheck (s.par P.vrfOwner p.vrf) (resultRefs p.result) = 0)
include hp hok hres hrefs

section stored
variable {k : Nat} (hfound : s.srch.findPrefix p.family p.vrf p.len p.addr = some k)
include hfound

theorem pfxInsertOne_duplicate (h : bit (leAt e 3 1) 0 = false) : s.pfxInsertOne e = (s, E.duplicate) := by
  subst hp; simp [State.pfxInsertOne, hok, hres, hrefs, hfound, h]

theorem pfxInsertOne_replaces (h : bit (leAt e 3 1) 0 = true) : s.pfxInsertOne e =
    ({ s with srch := { s.srch with pfx := s.srch.pfx.upd k (fun q => Prefix.sealed { q with result := p.result }) } }, 0) := by
  subst hp; simp [State.pfxInsertOne, hok, hres, hrefs, hfound, h]

end stored

variable (hnew : s.srch.findPrefix p.family p.vrf p.len p.addr = none)
include hnew

theorem pfxInsertOne_share (h : s.par P.instPfxLanes (s.par P.vrfOwner p.vrf) < s.laneTotal (s.par P.vrfOwner p.vrf) + laneCount p.family) :
    s.pfxInsertOne e = (s, E.tableFull) := by
  subst hp; simp [State.pfxInsertOne, hok, hres, hrefs, hnew, h]

theorem pfxInsertOne_placed {q : Search}
    (hroom : s.laneTotal (s.par P.vrfOwner p.vrf) + laneCount p.family ≤ s.par P.instPfxLanes (s.par P.vrfOwner p.vrf))
    (h : s.srch.placePrefix p = some q) : s.pfxInsertOne e = ({ s with srch := q }, 0) := by
  subst hp; simp [State.pfxInsertOne, hok, hres, hrefs, hnew, Nat.not_lt.2 hroom, h]

end pfxInsertOne

section pfxDeleteOne
variable {s : State} {e : List Byte} {p : Prefix} (hp : p = prefixFrom e)

theorem pfxDeleteOne_bad (h : prefixOk e = false) : s.pfxDeleteOne e = (s, E.range) := by
  simp [State.pfxDeleteOne, h]

include hp

theorem pfxDeleteOne_unknown (hok : prefixOk e = true) (h : s.srch.findPrefix p.family p.vrf p.len p.addr = none) :
    s.pfxDeleteOne e = (s, E.notFound) := by
  subst hp; simp [State.pfxDeleteOne, hok, h]

theorem pfxDeleteOne_done {k : Nat} (hok : prefixOk e = true) (h : s.srch.findPrefix p.family p.vrf p.len p.addr = some k) :
    s.pfxDeleteOne e = ({ s with srch := s.srch.dropPrefix k }, 0) := by
  subst hp; simp [State.pfxDeleteOne, hok, h]

end pfxDeleteOne

/-! ### PFX.LOOKUP -/

/-- A lookup of IPv6, or of IPv4 with nothing behind its address, is in form. -/
theorem pfxLookup_form {f : Nat} {l : List Byte} (h : f = 6 ∨ (f = 4 ∧ zeroAt l 12 12 = true)) :
    ¬((f ≠ 4 ∧ f ≠ 6) ∨ (f = 4 ∧ zeroAt l 12 12 = false)) := by
  rcases h with h | ⟨h, hzero⟩
  · simp [h]
  · simp [h, hzero]

section pfxLookup
variable {s : State} {inst f v : Nat} {a : Accepted} (hf : f = leAt a.payload 0 1) (hv : v = leAt a.payload 1 1)
  (hfamily : f = 6 ∨ (f = 4 ∧ zeroAt a.payload 12 12 = true)) (hown : owns inst (s.par P.vrfOwner v) = true)
include hf hv hfamily hown

theorem pfxLookup_first {i : Nat} {p : Prefix}
    (h : s.srch.pfx.find? (fun e => { e.2 with lost := 0 }.hits 0 f v (beAt a.payload 8 (addrWidth f / 8))) = some (i, p)) :
    s.pfxLookup inst a = .ok s (leBytes 1 1 ++ leBytes 1 p.len ++ leBytes 2 0 ++ leBytes 4 i ++ leBytes 8 p.result) := by
  subst hf hv; simp [State.pfxLookup, if_neg (pfxLookup_form hfamily), hown, h]

theorem pfxLookup_none (h : ∀ e ∈ s.srch.pfx, Prefix.hits { e.2 with lost := 0 } 0 f v (beAt a.payload 8 (addrWidth f / 8)) = false) :
    s.pfxLookup inst a = .ok s (leBytes 16 0) := by
  have hnone := List.find?_eq_none.2 (fun e he => ne_true_of_eq_false (h e he))
  subst hf hv; simp [State.pfxLookup, if_neg (pfxLookup_form hfamily), hown, hnone]

end pfxLookup

end Sys2Proof.Machine
end

section
/-! O52: what the RULE and PFX commands answer and queue. -/
namespace Sys2Proof.Machine

/-! ### The rows of the commands serve their commands -/

theorem exec_ruleInsert (slot : Nat) (s : State) : exec (.ruleInsert slot) s = runs (serve slot Op.ruleInsert State.ruleInsert) s := rfl

theorem exec_ruleDelete (slot : Nat) (s : State) : exec (.ruleDelete slot) s = runs (serve slot Op.ruleDelete State.ruleDelete) s := rfl

theorem exec_ruleSetResult (slot : Nat) (s : State) :
    exec (.ruleSetResult slot) s = runs (serve slot Op.ruleSetResult State.ruleSetResult) s := rfl

theorem exec_ruleRead (slot : Nat) (s : State) : exec (.ruleRead slot) s = runs (serve slot Op.ruleRead State.ruleRead) s := rfl

theorem exec_pfxInsert (slot : Nat) (s : State) :
    exec (.pfxInsert slot) s = runs (serve slot Op.pfxInsert (fun s i a => s.pfxBatch i Op.pfxInsert 32 a)) s := rfl

theorem exec_pfxDelete (slot : Nat) (s : State) :
    exec (.pfxDelete slot) s = runs (serve slot Op.pfxDelete (fun s i a => s.pfxBatch i Op.pfxDelete 24 a)) s := rfl

theorem exec_pfxLookup (slot : Nat) (s : State) : exec (.pfxLookup slot) s = runs (serve slot Op.pfxLookup State.pfxLookup) s := rfl

/-- Settles O52: each clause is one reply of its command, or one case of an entry that the move engine applies; a handle in use cannot end
the search for one, since there are fewer rules than handles. (That RULE.SET_RESULT waits, and the handles in order, are the model's choice:
log entry 70.) -/
theorem rulesAndPrefixesAreSearched : Obligations.RulesAndPrefixesAreSearched := by
  unfold Obligations.RulesAndPrefixesAreSearched
  simp only [exec_ruleInsert, exec_ruleDelete, exec_ruleSetResult, exec_ruleRead, exec_pfxInsert, exec_pfxDelete, exec_pfxLookup]
  refine ⟨?queue, ?queued, ?badCount, ?refused, ?insertRule, ?handle, ?deleteRule, ?ofHandle, ?insertPrefix, ?deletePrefix, ?lookup⟩
  case queue => rintro s op n a _ rfl; rfl
  case queued =>
    exact fun s u slot n a k h32 =>
      ⟨fun hg hc hfr h hm => runs_defers hg h32 ((ruleInsert_queued hc hfr h).trans hm),
        fun hg hc hfr h hm => runs_defers hg h32 (((ruleDelete_eq _ _ _).trans (ownedBatch_queued hc hfr h)).trans hm),
        fun hg hc hfr h hm => runs_defers hg h32 (((pfxBatch_eq _ _ _ _ _).trans (ownedBatch_queued hc hfr h)).trans hm),
        fun hg hc hfr h hm => runs_defers hg h32 (((pfxBatch_eq _ _ _ _ _).trans (ownedBatch_queued hc hfr h)).trans hm)⟩
  case badCount =>
    exact fun s slot a =>
      ⟨fun hg h => runs_refuses hg (ruleInsert_badCount h),
        fun hg h => runs_refuses hg ((ruleDelete_eq _ _ _).trans (ownedBatch_badCount h)),
        fun hg h => runs_refuses hg ((pfxBatch_eq _ _ _ _ _).trans (ownedBatch_badCount h)),
        fun hg h => runs_refuses hg ((pfxBatch_eq _ _ _ _ _).trans (ownedBatch_badCount h))⟩
  case refused =>
    exact fun s slot a =>
      ⟨fun hg hc h => runs_refuses hg (ruleInsert_frozen hc h),
        fun hg hc h => runs_refuses hg ((ruleDelete_eq _ _ _).trans (ownedBatch_notOwner hc h)),
        fun hg hc h => runs_refuses hg ((pfxBatch_eq _ _ _ _ _).trans (ownedBatch_notOwner hc h)),
        fun hg hc h => runs_refuses hg ((pfxBatch_eq _ _ _ _ _).trans (ownedBatch_notOwner hc h))⟩
  case insertRule =>
    exact fun s i e hok hrefs => ⟨ruleInsertOne_share hok hrefs, fun rows n => ruleInsertOne_placed hok hrefs⟩
  case handle =>
    refine fun q => ⟨fun h => handleFrom_unused h _, fun hlow hhigh hlen => ?_⟩
    obtain ⟨hfirst, hlast⟩ := handleFrom_range q.rule q.rule.length hlow hhigh
    have hfree := handleUsed_handleFrom hlow hhigh hlen
    exact ⟨hfirst, hlast, fun r hr hvalid hsame => ne_true_of_eq_false hfree (handleUsed_iff.2 ⟨r, hr, hvalid, hsame⟩)⟩
  case deleteRule => exact fun s i row e r => ⟨fun h => ruleDeleteOne_unknown h i, ruleDeleteOne_done⟩
  case ofHandle =>
    exact fun s slot row a r =>
      ⟨fun hmoving hg => runs_waits hg (ruleSetResult_waits hmoving) rfl rfl,
        fun h => ⟨fun hidle hg => runs_refuses hg (ruleSetResult_unknown hidle h), fun hg => runs_refuses hg (ruleRead_unknown h)⟩,
        fun h hown => ⟨fun hidle hg hfr hok hrefs => runs_answers hg (ruleSetResult_done h hown hidle hfr hok hrefs),
          fun hg => runs_answers hg (ruleRead_done h hown)⟩⟩
  case insertPrefix =>
    exact fun s e p hp hok hres hrefs =>
      ⟨fun k => pfxInsertOne_duplicate hp hok hres hrefs, fun k => pfxInsertOne_replaces hp hok hres hrefs,
        fun hnew => ⟨pfxInsertOne_share hp hok hres hrefs hnew, fun q => pfxInsertOne_placed hp hok hres hrefs hnew⟩⟩
  case deletePrefix =>
    exact fun s e p hp => ⟨pfxDeleteOne_bad, pfxDeleteOne_unknown hp, fun k => pfxDeleteOne_done hp⟩
  case lookup =>
    exact fun s slot f v a hg hf hv hfamily hown =>
      ⟨fun h => runs_answers hg (pfxLookup_none hf hv hfamily hown h), fun i p h => runs_answers hg (pfxLookup_first hf hv hfamily hown h)⟩

end Sys2Proof.Machine
end

section
/-! SUPPORT. Residue copies, spilled frames and the continuous check of residence, case by case (R167, R196, R197, R203 to R210, R214). -/
namespace Sys2Proof.Machine

/-! ### RESIDUE_RETRY and MC_RESIDUE_EXPIRE -/

/-- A command of the packet path that draws free values completes with its effect. -/
theorem runs_pathDrawing {s t : State} {f : State → State} (h : f s = t) (ho : t.offPath = { s.offPath with free := t.free }) :
    runs f s = .next t :=
  have hpath : t.offPath = ({ s with free := t.free } : State).offPath := ho
  runs_to h (State.offPath_eqs hpath).1 (State.offPath_eqs hpath).2.1

section residue
variable {s : State} {k l : Nat} (hlive : (s.cpy.at k).live = true) (hplace : (s.cpy.at k).place = .residue l)
include hlive hplace

section firstOfQueue
variable (hfirst : s.buf.residue.find? (fun m => (s.cpy.at m).queue == (s.cpy.at k).queue) = some k)
include hfirst

theorem State.residueRetry_admitted {above : Nat} {head : Bool} (h : s.admitCopy (s.retried k) = .ok above head) :
    s.residueRetry k = (s.leaveResidue k).placeCopy k (s.retried k) above head := by
  simp [State.residueRetry, hlive, hplace, hfirst, h]

theorem State.residueRetry_share (h : s.admitCopy (s.retried k) = .share) :
    s.residueRetry k = (s.refused .share (s.retried k)).endCopy k := by
  simp [State.residueRetry, hlive, hplace, hfirst, h]

end firstOfQueue

theorem State.residueExpire_over (h : s.par P.mcResidueLaps ≤ l) : s.residueExpire k = (s.count Stat.mcResidueDrops).endCopy k := by
  simp [State.residueExpire, hplace, hlive, h]

end residue

theorem State.residueRetry_stays {s : State} {k l : Nat} (hplace : (s.cpy.at k).place = .residue l)
    (h : s.admitCopy (s.retried k) = .full ∨ s.admitCopy (s.retried k) = .headroom) : s.residueRetry k = s := by
  rcases h with h | h <;> simp [State.residueRetry, hplace, h]

theorem State.residueExpire_early {s : State} {k l : Nat} (hplace : (s.cpy.at k).place = .residue l) (h : l < s.par P.mcResidueLaps) :
    s.residueExpire k = s := by
  simp [State.residueExpire, hplace, Nat.not_le.2 h]

theorem State.offPath_placeRetried (s : State) (k above : Nat) (head : Bool) :
    ((s.leaveResidue k).placeCopy k (s.retried k) above head).offPath
      = { s.offPath with free := ((s.leaveResidue k).placeCopy k (s.retried k) above head).free } :=
  (s.leaveResidue k).offPath_placeCopy k _ above head

/-! ### What a spill moves -/

/-- The copies, the sub-queues and the count of spilled cells: all that a spill moves beside the parts of the buffer. -/
def State.spillView (s : State) : Tab Copy × Tab SubQueue × Nat := (s.cpy, s.buf.sub, s.hbm.spillCells)

theorem State.spillView_eqs {a b : State} (h : a.spillView = b.spillView) :
    a.cpy = b.cpy ∧ (∀ q d, a.subq q d = b.subq q d) ∧ a.hbm.spillCells = b.hbm.spillCells := by
  obtain ⟨hcpy, hsub, hcells⟩ : a.cpy = b.cpy ∧ a.buf.sub = b.buf.sub ∧ a.hbm.spillCells = b.hbm.spillCells := by
    simpa [State.spillView] using h
  exact ⟨hcpy, fun q d => congrArg (fun t : Tab SubQueue => t.at (4 * q + d)) hsub, hcells⟩

theorem State.spillView_sendPause (s : State) (p k q : Nat) : (s.sendPause p k q).spillView = s.spillView := by
  unfold State.sendPause
  split <;> rw [State.emit_only] <;> rfl

/-- The thresholds of R211 move no cells. -/
theorem State.spillView_pfcCheck (s : State) (p k : Nat) : (s.pfcCheck p k).spillView = s.spillView := by
  unfold State.pfcCheck
  simp only []
  split
  · rfl
  · split
    · exact State.spillView_sendPause _ _ _ _
    · split
      · exact State.spillView_sendPause _ _ _ _
      · rfl

theorem State.spillView_pfcQuad (s : State) (q : Nat) : (s.pfcQuad q).spillView = s.spillView :=
  s.forEach_keeps State.spillView _ _ (fun u a => u.spillView_pfcCheck a.1 a.2)

theorem State.spillView_noteDepth (s : State) (q : Nat) : (s.noteDepth q).spillView = s.spillView := by
  unfold State.noteDepth
  split <;> rfl

theorem State.spillView_hbmAsk (s : State) (rank addr bytes : Nat) (write : Bool) (tag : Nat) :
    (s.hbmAsk rank addr bytes write tag).spillView = s.spillView := by
  unfold State.hbmAsk
  simp only []
  split
  · rfl
  · split <;> split <;> rfl

theorem State.spillView_spillTraffic (s : State) (k n : Nat) (write : Bool) : (s.spillTraffic k n write).spillView = s.spillView :=
  s.forEach_keeps State.spillView _ _ (fun u _ => u.spillView_hbmAsk _ _ _ _ _)

/-! ### SPILL_WRITE -/

/-- The copy that cells are handed to is another one. -/
theorem State.sibling_ne {s : State} {n m : Nat} (h : s.sibling n = some m) : m ≠ n := by
  rw [State.sibling] at h
  split at h
  · have hm := List.find?_some h
    simp only [Bool.and_eq_true, bne_iff_ne] at hm
    exact hm.1
  · cases h

/-- Returning the cells of a copy changes neither the copy nor its sub-queue. -/
theorem State.undraw_own (s : State) (n : Nat) :
    (s.undraw n).cpy.at n = s.cpy.at n ∧ (∀ q d, (s.undraw n).subq q d = s.subq q d) ∧ (s.undraw n).hbm = s.hbm := by
  unfold State.undraw State.giveBack State.pfcLess
  simp only []
  split
  next m h => exact ⟨State.updCpy_at_other s (State.sibling_ne h).symm _, fun _ _ => rfl, rfl⟩
  next => split <;> exact ⟨rfl, fun _ _ => rfl, rfl⟩

theorem State.toSpill_copy (s : State) (k : Nat) : (s.toSpill k).cpy.at k = { s.cpy.at k with
    place := .spilled, store := [], drawn := 0, comp := 0, pfc := 0, fromHead := false } := by
  unfold State.toSpill
  exact State.updCpy_at_same _ k _

theorem State.toSpill_subq (s : State) (k : Nat) :
    (s.toSpill k).subq (s.cpy.at k).queue (s.cpy.at k).quad = { s.subq (s.cpy.at k).queue (s.cpy.at k).quad with
      occ := (s.subq (s.cpy.at k).queue (s.cpy.at k).quad).occ - (s.cpy.at k).cells
      spilled := (s.subq (s.cpy.at k).queue (s.cpy.at k).quad).spilled + (s.cpy.at k).cells } :=
  s.updSub_subq _ _ (fun u => { u with occ := u.occ - (s.cpy.at k).cells, spilled := u.spilled + (s.cpy.at k).cells })

theorem State.toSpill_spillCells (s : State) (k : Nat) : (s.toSpill k).hbm.spillCells = s.hbm.spillCells + (s.cpy.at k).cells := rfl

/-- A frame of a middle segment whose tail and verdict have come is written: beside its cells, only the thresholds, the requests to HBM and
the largest depth follow. -/
theorem State.spillWrite_written {s : State} {k : Nat} (hlive : (s.cpy.at k).live = true) (hplace : (s.cpy.at k).place = .queue)
    (hhbm : s.hbm.valid = true) (hmiddle : (s.subq (s.cpy.at k).queue (s.cpy.at k).quad).middle.contains k = true)
    (hcome : (s.cpy.at k).own ≠ [] ∨ ((s.pkt.at (s.cpy.at k).pkt).ended = true ∧ (s.pkt.at (s.cpy.at k).pkt).verdict ≠ .pending)) :
    s.spillWrite k = ((((s.undraw k).toSpill k).spillTraffic k (s.cpy.at k).cells true).pfcQuad (s.cpy.at k).quad).noteDepth
      (s.cpy.at k).queue := by
  have hwhole : (!(s.cpy.at k).own.isEmpty || ((s.pkt.at (s.cpy.at k).pkt).ended && decide ((s.pkt.at (s.cpy.at k).pkt).verdict ≠ .pending)))
      = true := by
    simpa using hcome
  simp only [State.spillWrite, hlive, hplace, hhbm, hmiddle, hwhole, ne_eq, not_true_eq_false, decide_false, Bool.not_true, Bool.or_self,
    Bool.false_eq_true, if_false]

theorem State.spillWrite_idle {s : State} {k : Nat} (h : s.hbm.valid = false ∨ (s.cpy.at k).place ≠ .queue) : s.spillWrite k = s := by
  rcases h with hhbm | hplace
  · simp [State.spillWrite, hhbm]
  · simp [State.spillWrite, hplace]

/-- The cells of a written frame are counted as spilled, and no longer as on chip. -/
theorem State.spilled_counts {s t : State} {k : Nat} {c : Copy} (hc : c = s.cpy.at k) (h : t.spillView = ((s.undraw k).toSpill k).spillView) :
    (t.cpy.at k).place = .spilled ∧ (t.cpy.at k).drawn = 0 ∧ t.hbm.spillCells = s.hbm.spillCells + c.cells ∧
      (t.subq c.queue c.quad).spilled = (s.subq c.queue c.quad).spilled + c.cells ∧
      (t.subq c.queue c.quad).occ = (s.subq c.queue c.quad).occ - c.cells := by
  subst hc
  obtain ⟨hcpy, hsub, hcells⟩ := State.spillView_eqs h
  obtain ⟨hown, hsubq, hhbm⟩ := s.undraw_own k
  have hqueue := (s.undraw k).toSpill_subq k
  rw [hown, hsubq] at hqueue
  refine ⟨?_, ?_, ?_, ?_, ?_⟩
  · rw [hcpy, State.toSpill_copy]
  · rw [hcpy, State.toSpill_copy]
  · rw [hcells, State.toSpill_spillCells, hown, hhbm]
  · rw [hsub, hqueue]
  · rw [hsub, hqueue]

/-! ### SPILL_REFILL_READ -/

section refill
variable {s : State} {q d k : Nat}

theorem State.spillRefill_noMiddle (h : (s.subq q d).middle = []) : s.spillRefill q d = s := by
  simp only [State.spillRefill, h]

theorem State.spillRefill_low {l : List Nat} (hmiddle : (s.subq q d).middle = k :: l) (hlow : s.headCells (s.subq q d) < s.par P.spillRefill) :
    s.spillRefill q d = if l.isEmpty then
        (((s.refill k).updSub q d (fun u => { u with head := u.head ++ [k], middle := l })).updSub q d
          (fun u => { u with head := u.head ++ u.tail, tail := [] })).spillDrained q
      else (s.refill k).updSub q d (fun u => { u with head := u.head ++ [k], middle := l }) := by
  simp only [State.spillRefill, hmiddle, if_neg (Nat.not_le.2 hlow)]

theorem State.spillRefill_next {l : List Nat} (hmiddle : (s.subq q d).middle = k :: l) (hlow : s.headCells (s.subq q d) < s.par P.spillRefill)
    (hmore : l ≠ []) : s.spillRefill q d = (s.refill k).updSub q d (fun u => { u with head := u.head ++ [k], middle := l }) := by
  rw [State.spillRefill_low hmiddle hlow, if_neg (by simpa using hmore)]

theorem State.spillRefill_last {l : List Nat} (hmiddle : (s.subq q d).middle = k :: l) (hlow : s.headCells (s.subq q d) < s.par P.spillRefill)
    (hlast : l = []) : s.spillRefill q d = (((s.refill k).updSub q d (fun u => { u with head := u.head ++ [k], middle := l })).updSub q d
      (fun u => { u with head := u.head ++ u.tail, tail := [] })).spillDrained q := by
  rw [State.spillRefill_low hmiddle hlow, if_pos (by simpa using hlast)]

end refill

/-! ### RES_LIMIT_EXPIRE -/

section resExpire
variable {s : State} {q : Nat}

theorem State.resExpire_held {h : Nat} (hhold : (s.prt (q / 16)).hold = some h) (hexpress : bit (s.par P.classExpress) (q % 16) = true)
    (d : Nat) : s.resExpire q d = s.dropCopies ((s.subq q d).all.takeWhile s.overResident) Stat.residenceLimitDrops (fun c => c.queue) := by
  simp only [State.resExpire, hhold, hexpress, Option.isSome_some, Bool.and_self, if_true]
  rfl

theorem State.resExpire_idle (h : (s.prt (q / 16)).hold = none ∨ bit (s.par P.classExpress) (q % 16) = false) (d : Nat) :
    s.resExpire q d = s := by
  rcases h with h | h <;> simp [State.resExpire, h]

end resExpire

end Sys2Proof.Machine
end

section
/-! O26: what the residue, spill and residence rows do to copies. -/
namespace Sys2Proof.Machine

theorem exec_residueRetry (k : Nat) (s : State) : exec (.residueRetry k) s = runs (fun s => s.residueRetry k) s := rfl

theorem exec_mcResidueExpire (k : Nat) (s : State) : exec (.mcResidueExpire k) s = runs (fun s => s.residueExpire k) s := rfl

theorem exec_spillWrite (k : Nat) (s : State) : exec (.spillWrite k) s = runs (fun s => s.spillWrite k) s := rfl

theorem exec_spillRefillRead (q d : Nat) (s : State) : exec (.spillRefillRead q d) s = runs (fun s => s.spillRefill q d) s := rfl

theorem exec_resLimitExpire (q d : Nat) (s : State) : exec (.resLimitExpire q d) s = runs (fun s => s.resExpire q d) s := rfl

/-- Settles O26: each clause is one case of a row; what follows a spill (requests to HBM, thresholds, the largest depth) moves no cells, and
the packet path leaves the rest of the block alone. (The retry with the length of now and the cells taken are the model's choice: log
entries 122, 151; the refusal for the instance's share is R449's.) -/
theorem bufferRowsMoveCopies : Obligations.BufferRowsMoveCopies := by
  unfold Obligations.BufferRowsMoveCopies
  simp only [exec_residueRetry, exec_mcResidueExpire, exec_spillWrite, exec_spillRefillRead, exec_resLimitExpire]
  refine ⟨?retry, ?retried, ?expire, ?written, ?notWritten, ?refilled, ?noMiddle, ?held, ?notHeld⟩
  case retry =>
    intro s k l hlive hplace hfirst
    refine ⟨fun above head h => ?_, fun h => runs_keeping (State.residueRetry_share hlive hplace hfirst h),
      fun h => runs_path (State.residueRetry_stays hplace h) rfl⟩
    have hpath := s.offPath_placeRetried k above head
    exact ⟨_, runs_pathDrawing (State.residueRetry_admitted hlive hplace hfirst h) hpath, rfl, hpath⟩
  case retried => exact fun s k => rfl
  case expire =>
    intro s k l hlive hplace
    refine ⟨fun h => ?_, fun h => runs_path (State.residueExpire_early hplace h) rfl⟩
    have hpath := (State.offPath_endCopy _ k).trans (s.offPath_count Stat.mcResidueDrops 0 1)
    exact ⟨_, runs_path (State.residueExpire_over hlive hplace h) hpath, rfl, hpath⟩
  case written =>
    intro s k hlive hplace hhbm hmiddle hcome
    have hview : (s.spillWrite k).spillView = ((s.undraw k).toSpill k).spillView := by
      rw [State.spillWrite_written hlive hplace hhbm hmiddle hcome, State.spillView_noteDepth, State.spillView_pfcQuad,
        State.spillView_spillTraffic]
    exact ⟨_, runs_keeping rfl, State.spilled_counts rfl hview⟩
  case notWritten => exact fun s k h => runs_path (State.spillWrite_idle h) rfl
  case refilled =>
    exact fun s q d k l hmiddle hlow =>
      ⟨fun h => runs_keeping (State.spillRefill_next hmiddle hlow h), fun h => runs_keeping (State.spillRefill_last hmiddle hlow h)⟩
  case noMiddle => exact fun s q d h => runs_path (State.spillRefill_noMiddle h) rfl
  case held =>
    intro s q d h hhold hexpress
    have hpath := s.offPath_dropCopies ((s.subq q d).all.takeWhile s.overResident) Stat.residenceLimitDrops (fun c => c.queue)
    exact ⟨_, runs_path (State.resExpire_held hhold hexpress d) hpath, hpath, rfl⟩
  case notHeld => exact fun s q d h => runs_path (State.resExpire_idle h d) rfl

end Sys2Proof.Machine
end

section
/-! SUPPORT. Admission of cells and the parts they are drawn from, case by case (R194, R196, R197, R213, R449). -/
namespace Sys2Proof.Machine

/-! ### What admission decides for a need -/

section admitCells
variable {s : State} {quad inst n own mini : Nat} {k : Int} {col : Nat}

/-- R449: past the share of its instance nothing is admitted. -/
theorem State.admitCells_share {pri : Option (Nat × Nat)} {sp : Option Bool}
    (hpast : s.par P.instCells inst < s.buf.instCells.at inst + (n - (mini - own))) :
    s.admitCells quad inst n own mini k col pri sp = .share := by
  simp only [State.admitCells, ← Nat.sub_eq_sub_min]
  exact if_pos hpast

section withinShare
variable (hshare : s.buf.instCells.at inst + (n - (mini - own)) ≤ s.par P.instCells inst)
include hshare

/-- Cells within the minimum of their entity are always admitted. -/
theorem State.admitCells_minimum {pri : Option (Nat × Nat)} {sp : Option Bool} (hneed : n - (mini - own) = 0) :
    s.admitCells quad inst n own mini k col pri sp = .ok 0 false := by
  simp only [State.admitCells, ← Nat.sub_eq_sub_min]
  exact (if_neg (Nat.not_lt.mpr hshare)).trans (if_pos hneed)

section drawing
variable (hneed : n - (mini - own) ≠ 0)
include hneed

theorem State.admitCells_lossless {p r : Nat} {sp : Option Bool} :
    s.admitCells quad inst n own mini k col (some (p, r)) sp =
      if s.buf.pfcCnt.at (8 * p + r) + n ≤ s.par P.xoffCells (8 * p + r) ∧ n - (mini - own) ≤ s.sharedFree quad then .ok (n - (mini - own)) false
      else if n - (mini - own) ≤ s.headFree p r then .ok (n - (mini - own)) true else .headroom := by
  simp only [State.admitCells, ← Nat.sub_eq_sub_min]
  exact (if_neg (Nat.not_lt.mpr hshare)).trans (if_neg hneed)

/-- Of a frame that may be lost: SPILL_MAX, where the frame spills, stands in for the dynamic threshold. -/
theorem State.admitCells_lossy {sp : Option Bool} :
    s.admitCells quad inst n own mini k col none sp =
      if n - (mini - own) ≤ s.sharedFree quad ∧
        sp.getD (withinAlpha k ((own - mini + (n - (mini - own))) * (if col = 1 then 2 else if col = 2 then 4 else 1)) (s.sharedFree quad)) = true
      then .ok (n - (mini - own)) false else .full := by
  simp only [State.admitCells, ← Nat.sub_eq_sub_min]
  exact (if_neg (Nat.not_lt.mpr hshare)).trans (if_neg hneed)

end drawing

end withinShare

end admitCells

/-! ### The dynamic threshold -/

theorem withinAlpha_natCast (k x limit : Nat) : withinAlpha k x limit = true ↔ x ≤ 2 ^ k * limit := by
  have hk : ¬ (k : Int) < 0 := by omega
  rw [withinAlpha, if_neg hk, Int.toNat_natCast, decide_eq_true_iff]

theorem withinAlpha_neg {k : Nat} (hpos : 0 < k) (x limit : Nat) : withinAlpha (-(k : Int)) x limit = true ↔ x * 2 ^ k ≤ limit := by
  have hk : -(k : Int) < 0 := by omega
  rw [withinAlpha, if_pos hk, Int.neg_neg, Int.toNat_natCast, decide_eq_true_iff]

/-! ### Drawing and returning -/

section draw
variable (s : State)

@[simp] theorem State.drawHead_headUsed (p r inst k : Nat) :
    (s.drawHead p r inst k).buf.headUsed.at (8 * p + r) = s.buf.headUsed.at (8 * p + r) + k :=
  Tab.at_upd_same s.buf.headUsed _ (· + k)

@[simp] theorem State.drawHead_instCells (p r inst k : Nat) :
    (s.drawHead p r inst k).buf.instCells.at inst = s.buf.instCells.at inst + k :=
  Tab.at_upd_same s.buf.instCells _ (· + k)

@[simp] theorem State.giveBack_headUsed (inst p r k : Nat) :
    (s.giveBack inst (some (p, r)) k).buf.headUsed.at (8 * p + r) = s.buf.headUsed.at (8 * p + r) - min k (s.buf.headUsed.at (8 * p + r)) :=
  Tab.at_upd_same s.buf.headUsed _ (fun h => h - min k h)

@[simp] theorem State.giveBack_instCells (inst : Nat) (pp : Option (Nat × Nat)) (k : Nat) :
    (s.giveBack inst pp k).buf.instCells.at inst = s.buf.instCells.at inst - k := by
  cases pp <;> exact Tab.at_upd_same s.buf.instCells _ (· - k)

@[simp] theorem State.drawFor_cpy (pp : Option (Nat × Nat)) (inst k : Nat) (head : Bool) : (s.drawFor pp inst k head).cpy = s.cpy := by
  unfold State.drawFor
  split <;> rfl

@[simp] theorem State.drawFor_compUsed (pp : Option (Nat × Nat)) (inst k : Nat) (head : Bool) :
    (s.drawFor pp inst k head).buf.compUsed = s.buf.compUsed := by
  unfold State.drawFor
  split <;> rfl

@[simp] theorem State.instDraw_cpy (inst k : Nat) : (s.instDraw inst k).cpy = s.cpy := rfl

@[simp] theorem State.instDraw_compUsed (inst k : Nat) : (s.instDraw inst k).buf.compUsed = s.buf.compUsed := rfl

@[simp] theorem State.drawComp_cpy (quad k : Nat) : (s.drawComp quad k).cpy = s.cpy := rfl

@[simp] theorem State.drawComp_compUsed (quad k : Nat) : (s.drawComp quad k).buf.compUsed.at quad = s.buf.compUsed.at quad + k :=
  Tab.at_upd_same s.buf.compUsed _ (· + k)

end draw

/-! ### Cells beyond the length a frame was admitted for -/

/-- R197 for a copy whose first cell drew no headroom: `f` cells of the shared pool, and the rest of the completion reserve. -/
theorem State.moreParts_pool {s : State} {k : Nat} {c : Copy} {f : Nat} (r : Nat) (hc : c = s.cpy.at k) (hhead : c.fromHead = false)
    (hf : f = min r (s.sharedFree c.quad)) :
    s.moreParts k r = (((s.drawFor (s.priOf c) c.inst 0 true).instDraw c.inst f).drawComp c.quad (r - f)).updCpy k
      (fun c => { c with drawn := c.drawn + f, comp := c.comp + (r - f) }) := by
  subst hc hf
  simp only [State.moreParts, hhead, Nat.sub_zero, Nat.add_zero]

end Sys2Proof.Machine
end

section
/-! O27: when a need is admitted, and from which part. -/
namespace Sys2Proof.Machine

/-- Settles O27: the first four clauses are the branches of admission, the fifth the two signs of ALPHA's exponent, and the last two what the
draws write; cells beyond the admitted length draw nothing from headroom when the first cell drew none. (The free cells
of a pool and the threshold of a frame that spills are the model's choice: log entries 61, 134.) -/
theorem admissionFollowsItsThresholds : Obligations.AdmissionFollowsItsThresholds := by
  unfold Obligations.AdmissionFollowsItsThresholds
  refine ⟨?share, ?minimum, ?lossless, ?lossy, ?alpha, ?drawn, ?more⟩
  case share => exact fun s quad inst n own mini k col pri sp h => State.admitCells_share h
  case minimum =>
    intro s quad inst n own mini k col pri sp hmini hshare
    have hneed : n - (mini - own) = 0 := by omega
    exact State.admitCells_minimum (hneed.symm ▸ hshare) hneed
  case lossless =>
    intro s quad inst n own mini p r k col sp hmini hn hshare
    exact State.admitCells_lossless hshare (by omega)
  case lossy =>
    intro s quad inst n own mini k col hmini hn hshare
    have hneed : n - (mini - own) ≠ 0 := by omega
    exact ⟨State.admitCells_lossy hshare hneed, fun room => State.admitCells_lossy hshare hneed⟩
  case alpha => exact fun k x limit => ⟨withinAlpha_natCast k x limit, fun hpos => withinAlpha_neg hpos x limit⟩
  case drawn =>
    exact fun s p r inst k => ⟨s.drawHead_headUsed p r inst k, s.drawHead_instCells p r inst k,
      s.giveBack_headUsed inst p r k, s.giveBack_instCells inst (some (p, r)) k⟩
  case more =>
    intro s k r c hc hhead
    rw [State.moreParts_pool r hc hhead rfl, State.updCpy_at_same]
    simp [hc, State.updCpy]

end Sys2Proof.Machine
end

section
/-! SUPPORT. Walks that change one cell of a table a round. -/
namespace Sys2Proof.Machine

theorem Tab.at_upd_cell {β : Type} [DecidableEq β] [Inhabited β] (t : Tab β) (k j : Nat) (f : β → β) :
    (t.upd k f).at j = if j = k then f (t.at j) else t.at j := by
  by_cases h : j = k
  · rw [if_pos h, h, Tab.at_upd_same]
  · rw [if_neg h, Tab.at_upd_other _ _ h]

/-- A walk whose rounds change a cell each, never one twice, changes those cells alone. -/
theorem State.forEach_cells {α β : Type} {cell : State → Nat → β} {key : α → Nat} {f : State → α → State} {g : β → β}
    (hround : ∀ u a k, cell (f u a) k = if k = key a then g (cell u k) else cell u k) {l : List α} (hapart : (l.map key).Nodup)
    (s : State) (k : Nat) : cell (s.forEach l f) k = if k ∈ l.map key then g (cell s k) else cell s k := by
  induction l generalizing s with
  | nil => rfl
  | cons a l ih =>
    obtain ⟨hnew, hapart⟩ := List.nodup_cons.1 hapart
    rw [State.forEach_cons, ih hapart, hround, List.map_cons]
    by_cases hk : k = key a
    · subst hk; simp [hnew]
    · simp [hk]

/-- The cells from one on are apart. -/
theorem nodup_cellsFrom (b n : Nat) : ((List.range n).map (b + ·)).Nodup :=
  List.pairwise_map.2 (List.nodup_range.imp fun hne h => hne (Nat.add_left_cancel h))

theorem mem_cellsFrom {b n k : Nat} : k ∈ (List.range n).map (b + ·) ↔ b ≤ k ∧ k < b + n := by
  simp only [List.mem_map, List.mem_range]
  exact ⟨fun ⟨i, hi, hk⟩ => by omega, fun ⟨hb, hn⟩ => ⟨k - b, by omega, by omega⟩⟩

end Sys2Proof.Machine
end

section
/-! SUPPORT. How a ramp of a queue begins and ends (R224, R225; log entry 135). -/
namespace Sys2Proof.Machine

/-- The scheduler state of every queue once one is changed. -/
theorem State.updQ_qs (s : State) (queue : Nat) (f : QState → QState) (k : Nat) :
    (s.updQ queue f).qs k = if k = queue then f (s.qs k) else s.qs k := Tab.at_upd_cell _ queue k f

/-! ### A ramp begins -/

theorem QState.ramp_entered {q : QState} (h : q.inRamp = false) (f : QState → QState) : q.ramp f = f { q with tc := 0, tp := 0 } := by
  simp [QState.ramp, h]

theorem QState.ramp_kept {q : QState} (h : q.inRamp = true) (f : QState → QState) : q.ramp f = f q := by simp [QState.ramp, h]

/-- Each of a port's sixteen queues begins the ramp. -/
theorem State.rampPort_qs (s : State) (p : Nat) (f : QState → QState) {c : Nat} (hc : c < 16) :
    (s.rampPort p f).qs (16 * p + c) = (s.qs (16 * p + c)).ramp f := by
  have hwalk := State.forEach_cells (cell := State.qs) (key := (16 * p + ·)) (g := (·.ramp f))
    (fun u c => u.updQ_qs (16 * p + c) (·.ramp f)) (nodup_cellsFrom (16 * p) 16) s (16 * p + c)
  exact hwalk.trans (if_pos (mem_cellsFrom.2 ⟨by omega, by omega⟩))

theorem State.recoveryRamp_recovery {s : State} {p c l : Nat} (hc : c < 16) (h : (s.qs (16 * p + c)).recovery = some l) :
    ((s.recoveryRamp p).qs (16 * p + c)).recovery = some (max l (s.par P.recovRampLaps)) := by
  have hramp : (s.qs (16 * p + c)).inRamp = true := by simp [QState.inRamp, h]
  rw [State.recoveryRamp, State.rampPort_qs _ _ _ hc, QState.ramp_kept hramp]
  simp [h]

/-! ### RAMP_END -/

/-- A queue without the ramps that have come to their boundary. -/
def QState.dueEnded (q : QState) : QState :=
  { q with startup := q.startup.filter (· != 0), recovery := q.recovery.filter (· != 0) }

theorem QState.settle_eq (was q : QState) : was.settle q = { q with credit := if was.inRamp && !q.inRamp then 0 else q.credit } := by
  unfold QState.settle; split <;> rfl

theorem QState.settle_inRamp (was q : QState) : (was.settle q).inRamp = q.inRamp := by rw [QState.settle_eq]; rfl

theorem QState.settle_lastEnded {was q : QState} (hwas : was.inRamp = true) (h : q.inRamp = false) : (was.settle q).credit = 0 := by
  simp [QState.settle_eq, hwas, h]

theorem QState.settle_rampLeft {was q : QState} (h : q.inRamp = true) : was.settle q = q := by simp [QState.settle, h]

theorem State.rampEnd_qs (s : State) (p c : Nat) :
    (s.rampEnd p c).qs (16 * p + c) = (s.qs (16 * p + c)).settle (s.qs (16 * p + c)).dueEnded :=
  (s.updQ_qs _ _ _).trans (if_pos rfl)

theorem State.rampEnd_qs_other (s : State) {p c k : Nat} (h : k ≠ 16 * p + c) : (s.rampEnd p c).qs k = s.qs k :=
  (s.updQ_qs _ _ _).trans (if_neg h)

theorem State.ramping_ended {s : State} {queue : Nat} (h : (s.qs queue).inRamp = false) : s.ramping queue = false := by
  simp [State.ramping, h]

end Sys2Proof.Machine
end

section
/-! O30: how the ramps of a queue begin and end. -/
namespace Sys2Proof.Machine

theorem exec_rampEnd (p c : Nat) (s : State) : exec (.rampEnd p c) s = runs (fun s => s.rampEnd p c) s := rfl

/-- Settles O30: the first three clauses are the two cases of a ramp that begins, and the fourth is what RAMP_END writes to its one queue,
which is in a ramp afterwards exactly if one of its ramps has not come to its boundary. (R224, R225; that the credit is 0 also where the
parameter of ramps is off is log entry 135.) -/
theorem rampsBeginAndEnd : Obligations.RampsBeginAndEnd := by
  unfold Obligations.RampsBeginAndEnd
  simp only [exec_rampEnd]
  refine ⟨?entered, ?kept, fun s p c l => State.recoveryRamp_recovery, ?ended⟩
  case entered => exact fun q r h => by rw [QState.ramp_entered h]; exact ⟨rfl, rfl⟩
  case kept => exact fun q r h => by rw [QState.ramp_kept h]; exact ⟨rfl, rfl⟩
  case ended =>
    intro s p c
    refine ⟨s.rampEnd p c, runs_eq s _ rfl rfl, rfl, fun k => s.rampEnd_qs_other, ?_⟩
    rw [State.rampEnd_qs, QState.settle_inRamp]
    refine ⟨by rw [QState.settle_eq]; rfl, by rw [QState.settle_eq]; rfl, fun hwas hend => ⟨QState.settle_lastEnded hwas hend, ?_⟩,
      fun hleft => by rw [QState.settle_rampLeft hleft]; rfl⟩
    exact State.ramping_ended (by rw [State.rampEnd_qs, QState.settle_inRamp]; exact hend)

end Sys2Proof.Machine
end

section
/-! SUPPORT. The replies of the CTR commands, check by check (R242, R243, R446, R485 to R488; log entry 47). -/
namespace Sys2Proof.Machine

/-! ### CTR.SELECT -/

section ctrSelect
variable {s : State} {inst : Nat} {a : Accepted}

theorem ctrSelect_outOfRange (h : 2048 ≤ leAt a.payload 0 2 ∨ eventOk (leAt a.payload 2 2) = false ∨ 1 < leAt a.payload 4 1) :
    s.ctrSelect inst a = .refuse E.range := if_pos h

variable (hctr : leAt a.payload 0 2 < 2048) (hevent : eventOk (leAt a.payload 2 2) = true) (hmode : leAt a.payload 4 1 ≤ 1)
include hctr hevent hmode

theorem ctrSelect_notOwner (h : owns inst (s.ctrOwner (leAt a.payload 0 2)) = false) : s.ctrSelect inst a = .refuse E.notOwner := by
  simp [State.ctrSelect, Nat.not_le.2 hctr, hevent, Nat.not_lt.2 hmode, h]

theorem ctrSelect_done (h : owns inst (s.ctrOwner (leAt a.payload 0 2)) = true) :
    s.ctrSelect inst a = .ok (s.updCtr (leAt a.payload 0 2) (fun _ =>
      { event := leAt a.payload 2 2, level := leAt a.payload 4 1 == 1,
        was := if leAt a.payload 2 2 < 0x8001 then []
          else (s.countedUnits (leAt a.payload 0 2) (leAt a.payload 2 2)).filter (s.conditionHolds (leAt a.payload 2 2)) })) := by
  simp [State.ctrSelect, Nat.not_le.2 hctr, hevent, Nat.not_lt.2 hmode, h]

end ctrSelect

/-! ### CTR.READ and CTR.CLEAR -/

theorem State.ctrCheck_passed {s : State} {i f n : Nat} :
    s.ctrCheck i f n = 0 ↔ 1 ≤ n ∧ n ≤ 256 ∧ f + n ≤ 2048 ∧ ∀ k, k < n → owns i (s.ctrOwner (f + k)) = true := by
  unfold State.ctrCheck
  by_cases hrange : n < 1 ∨ 256 < n ∨ 2048 < f + n
  · rw [if_pos hrange]
    exact iff_of_false (by decide) (fun ⟨hlow, hhigh, hlast, _⟩ => by omega)
  · rw [if_neg hrange]
    have hall : ((List.range n).all fun k => owns i (s.ctrOwner (f + k))) = true ↔ ∀ k, k < n → owns i (s.ctrOwner (f + k)) = true := by
      simp
    by_cases hown : ((List.range n).all fun k => owns i (s.ctrOwner (f + k))) = true
    · rw [if_pos hown]
      exact iff_of_true rfl ⟨by omega, by omega, by omega, hall.1 hown⟩
    · rw [if_neg hown]
      exact iff_of_false (by decide) (fun ⟨_, _, _, h⟩ => hown (hall.2 h))

/-- A counter at 0 that counts what it counted. -/
def Ctr.cleared (c : Ctr) : Ctr := { c with value := 0, sticky := false }

/-- The state after CTR.CLEAR of a range. -/
def State.clearCtrs (s : State) (f n : Nat) : State := s.forEach (List.range n) (fun s k => s.updCtr (f + k) Ctr.cleared)

section ctrRange
variable {s : State} {inst f n : Nat} {a : Accepted} (hf : f = leAt a.payload 0 2) (hn : n = leAt a.payload 2 2)
include hf hn

theorem ctrRead_refused (h : s.ctrCheck inst f n ≠ 0) : s.ctrRead inst a = .refuse (s.ctrCheck inst f n) := by
  subst hf hn; exact if_pos h

theorem ctrRead_done (h : s.ctrCheck inst f n = 0) :
    s.ctrRead inst a = .ok s ((List.range n).flatMap (fun k => leBytes 8 (s.ctr.ctr.at (f + k)).word)) := by
  subst hf hn; exact if_neg (fun hne => hne h)

theorem ctrClear_refused (h : s.ctrCheck inst f n ≠ 0) : s.ctrClear inst a = .refuse (s.ctrCheck inst f n) := by
  subst hf hn; exact if_pos h

theorem ctrClear_done (h : s.ctrCheck inst f n = 0) : s.ctrClear inst a = .ok (s.clearCtrs f n) := by
  subst hf hn; exact if_neg (fun hne => hne h)

end ctrRange

section clearCtrs
variable (s : State) (f n : Nat)

theorem State.clearCtrs_only : s.clearCtrs f n = { s with ctr := { s.ctr with ctr := (s.clearCtrs f n).ctr.ctr } } :=
  State.forEach_invariant (P := fun u => u = { s with ctr := { s.ctr with ctr := u.ctr.ctr } }) (fun u hu k _ => by rw [hu]; rfl) rfl

theorem State.clearCtrs_at (g : Nat) : (s.clearCtrs f n).ctr.ctr.at g =
    if f ≤ g ∧ g < f + n then (s.ctr.ctr.at g).cleared else s.ctr.ctr.at g := by
  have hwalk := State.forEach_cells (cell := fun u g => u.ctr.ctr.at g) (key := (f + ·)) (g := Ctr.cleared)
    (f := fun u k => u.updCtr (f + k) Ctr.cleared) (fun u k g => Tab.at_upd_cell _ (f + k) g _) (nodup_cellsFrom f n) s g
  simp only [mem_cellsFrom] at hwalk
  exact hwalk

end clearCtrs

/-! ### CTR.SPLITS_READ -/

section splitsRead
variable {s : State} {inst q k c : Nat} {a : Accepted} (hq : q = leAt a.payload 0 2) (hk : k = leAt a.payload 2 1) (hc : c = leAt a.payload 3 1)
include hq hk hc

theorem splitsRead_outOfRange (h : 8192 ≤ q ∨ 1 < k ∨ 1 < c) : s.splitsRead inst a = .refuse E.range := by
  subst hq hk hc; exact if_pos h

variable (hqueue : q < 8192) (hkind : k ≤ 1) (hclear : c ≤ 1)
include hqueue hkind hclear

theorem splitsRead_notOwner (h : owns inst (s.portInst (q / 16)) = false) : s.splitsRead inst a = .refuse E.notOwner := by
  subst hq hk hc; simp [State.splitsRead, Nat.not_le.2 hqueue, Nat.not_lt.2 hkind, Nat.not_lt.2 hclear, h]

theorem splitsRead_done (h : owns inst (s.portInst (q / 16)) = true) :
    s.splitsRead inst a = .ok (if c = 1 then s.clearBins q k else s) ((s.bins q k).flatMap (leBytes 4)) := by
  subst hq hk hc; simp [State.splitsRead, Nat.not_le.2 hqueue, Nat.not_lt.2 hkind, Nat.not_lt.2 hclear, h]

end splitsRead

/-! ### CTR.STAT_READ -/

theorem statRead_unnamed {s : State} {inst : Nat} {a : Accepted} (h : Stat.all.find? (fun x => x.id == leAt a.payload 0 2) = none) :
    s.statRead inst a = .refuse E.range := by simp [State.statRead, h]

section statRead
variable {s : State} {inst i : Nat} {a : Accepted} {x : Stat} (hi : i = leAt a.payload 4 4)
  (hstat : Stat.all.find? (fun x => x.id == leAt a.payload 0 2) = some x)
include hi hstat

theorem statRead_pastUnits {n : Nat} (hsize : x.unit.size = some n) (h : n ≤ i) : s.statRead inst a = .refuse E.range := by
  subst hi; simp [State.statRead, hstat, hsize, h]

variable (hunit : ∀ n, x.unit.size = some n → i < n)
include hunit

theorem statRead_ofUnit : s.statRead inst a =
    if !owns inst (s.statOwner x.unit i) then .refuse E.notOwner else .ok s (leBytes 8 (s.statVal x i)) := by
  subst hi
  cases hsize : x.unit.size with
  | none => simp [State.statRead, hstat, hsize]
  | some n => simp [State.statRead, hstat, hsize, Nat.not_le.2 (hunit n hsize)]

theorem statRead_notOwner (h : owns inst (s.statOwner x.unit i) = false) : s.statRead inst a = .refuse E.notOwner := by
  rw [statRead_ofUnit hi hstat hunit, h]; rfl

theorem statRead_done (h : owns inst (s.statOwner x.unit i) = true) : s.statRead inst a = .ok s (leBytes 8 (s.statVal x i)) := by
  rw [statRead_ofUnit hi hstat hunit, h]; rfl

end statRead

/-! ### A counter counts (R485) -/

theorem Ctr.add_value (c : Ctr) (n : Nat) : (c.add n).value.toNat = (c.value.toNat + n) % 2 ^ 48 := BitVec.toNat_ofNat _ _

theorem Ctr.add_sticky (c : Ctr) (n : Nat) : (c.add n).sticky = true ↔ c.sticky = true ∨ 2 ^ 48 ≤ c.value.toNat + n := by
  rw [Ctr.add, Bool.or_eq_true, decide_eq_true_iff]

end Sys2Proof.Machine
end

section
/-! O56: what the CTR commands answer and do. -/
namespace Sys2Proof.Machine

/-! ### The rows of the CTR commands serve their commands -/

theorem exec_ctrSelect (slot : Nat) (s : State) : exec (.ctrSelect slot) s = runs (serve slot Op.ctrSelect State.ctrSelect) s := rfl

theorem exec_ctrRead (slot : Nat) (s : State) : exec (.ctrRead slot) s = runs (serve slot Op.ctrRead State.ctrRead) s := rfl

theorem exec_ctrClear (slot : Nat) (s : State) : exec (.ctrClear slot) s = runs (serve slot Op.ctrClear State.ctrClear) s := rfl

theorem exec_ctrSplitsRead (slot : Nat) (s : State) :
    exec (.ctrSplitsRead slot) s = runs (serve slot Op.ctrSplitsRead State.splitsRead) s := rfl

theorem exec_ctrStatRead (slot : Nat) (s : State) : exec (.ctrStatRead slot) s = runs (serve slot Op.ctrStatRead State.statRead) s := rfl

/-- Settles O56: each clause is one reply of its command, carried out by the row that serves it; CTR.CLEAR's walk meets each counter of its
range once, and the last clause is what an amount makes of 48 bits. (The order of the checks is log entry 47.) -/
theorem countersAreSelectedAndRead : Obligations.CountersAreSelectedAndRead := by
  unfold Obligations.CountersAreSelectedAndRead
  simp only [exec_ctrSelect, exec_ctrRead, exec_ctrClear, exec_ctrSplitsRead, exec_ctrStatRead]
  refine ⟨?select, fun s i f n => State.ctrCheck_passed, ?range, ?splits, ?stat, fun c n => ⟨c.add_value n, c.add_sticky n⟩⟩
  case select =>
    rintro s slot _ _ _ a hg rfl rfl rfl
    exact ⟨fun h => runs_refuses hg (ctrSelect_outOfRange h),
      fun hctr hevent hmode => ⟨fun h => runs_refuses hg (ctrSelect_notOwner hctr hevent hmode h),
        fun h => runs_answers hg (ctrSelect_done hctr hevent hmode h)⟩⟩
  case range =>
    intro s slot f n a hf hn
    refine ⟨fun h => ⟨fun hg => runs_refuses hg (ctrRead_refused hf hn h), fun hg => runs_refuses hg (ctrClear_refused hf hn h)⟩,
      fun h => ⟨fun hg => runs_answers hg (ctrRead_done hf hn h),
        fun hg => ⟨s.clearCtrs f n, runs_answers hg (ctrClear_done hf hn h), s.clearCtrs_only f n, fun k hk => ?_, fun g hout => ?_⟩⟩⟩
    · rw [State.clearCtrs_at, if_pos (by omega)]; rfl
    · rw [State.clearCtrs_at, if_neg (by omega)]
  case splits =>
    intro s slot q k c a hg hq hk hc
    refine ⟨fun h => runs_refuses hg (splitsRead_outOfRange hq hk hc h),
      fun hqueue hkind hclear h => runs_refuses hg (splitsRead_notOwner hq hk hc hqueue hkind hclear h),
      fun hqueue hkind h => ⟨fun hleave => ?_, fun hanew => ?_⟩⟩
    · have hreply := splitsRead_done hq hk hc hqueue hkind (by omega) h
      rw [if_neg (by omega)] at hreply
      exact runs_answers hg hreply
    · have hreply := splitsRead_done hq hk hc hqueue hkind (by omega) h
      rw [if_pos hanew] at hreply
      exact runs_answers hg hreply
  case stat =>
    exact fun s slot i a hg hi =>
      ⟨fun h => runs_refuses hg (statRead_unnamed h), fun x n hstat hsize h => runs_refuses hg (statRead_pastUnits hi hstat hsize h),
        fun x hstat hunit => ⟨fun h => runs_refuses hg (statRead_notOwner hi hstat hunit h),
          fun h => runs_answers hg (statRead_done hi hstat hunit h)⟩⟩

end Sys2Proof.Machine
end

section
/-! SUPPORT. The replies of the KEY commands, check by check, and what the keys of an association become (R249 to R251, R267, R282, R283,
R295 to R297, R446; log entry 76). -/
namespace Sys2Proof.Machine

/-! ### The checks that the commands share -/

theorem owns_eq_false {i owner : Nat} : owns i owner = false ↔ i ≠ 0 ∧ i ≠ owner := by simp [owns]

theorem State.keyCheck_eq (s : State) (i : Nat) (a : Accepted) (c : Bool) : s.keyCheck i a c =
    if 4 ≤ a.keyNum then E.range else if s.parOn P.asEnable a.assoc = false then E.notFound
    else if i ≠ 0 ∧ i ≠ s.par P.asInstance a.assoc then E.notOwner
    else if c = true ∧ s.frozen (s.par P.asInstance a.assoc) = true then E.state
    else if (s.sec.assoc.at a.assoc).removeAt ≠ none then E.busy else 0 := by
  simp only [State.keyCheck, Bool.not_eq_true', owns_eq_false, Bool.and_eq_true, Option.isSome_iff_ne_none]

/-! ### KEY.INSTALL -/

section keyInstall
variable {s : State} {inst n k : Nat} {a : Accepted}

theorem keyInstall_badKey (h : s.keyCheck inst a true ≠ 0) : s.keyInstall inst a = .refuse (s.keyCheck inst a true) := if_pos h

variable (hn : n = a.assoc) (hk : k = a.keyNum) (hcheck : s.keyCheck inst a true = 0)
include hn hk hcheck

theorem keyInstall_inUse (h : s.installed n k = true) : s.keyInstall inst a = .refuse E.inUse := by
  subst hn hk; simp [State.keyInstall, hcheck, h]

variable (hnew : s.installed n k = false)
include hnew

theorem keyInstall_notUnwrapped (h : Crypto.kwUnwrap (s.sess a.session).key (slice a.payload 8 40) = none) :
    s.keyInstall inst a = .refuse E.keyWrap := by
  subst hn hk; simp [State.keyInstall, hcheck, hnew, h]

variable {key : List Byte} (hkey : Crypto.kwUnwrap (s.sess a.session).key (slice a.payload 8 40) = some key)
include hkey

theorem keyInstall_beyondSlots (hpinned : s.parOn P.asSlotPolicy n = true)
    (h : 30 < s.pinnedKeys s.cfg.active + 1 + s.cfg.active.mostHolds s.lapNs) : s.keyInstall inst a = .refuse E.range := by
  subst hn hk; simp [State.keyInstall, hcheck, hnew, hkey, hpinned, h]

theorem keyInstall_done (h : s.parOn P.asSlotPolicy n = false ∨ s.pinnedKeys s.cfg.active + 1 + s.cfg.active.mostHolds s.lapNs ≤ 30) :
    s.keyInstall inst a = .ok (s.installKey n k key) := by
  have hslots : (s.parOn P.asSlotPolicy n && decide (30 < s.pinnedKeys s.cfg.active + 1 + s.cfg.active.mostHolds s.lapNs)) = false := by
    rcases h with h | h
    · rw [h]; rfl
    · rw [decide_eq_false (Nat.not_lt.2 h), Bool.and_false]
  subst hn hk; simp only [State.keyInstall, hcheck, hnew, hkey, hslots]; rfl

end keyInstall

/-- The Vault record of a new key of an association, with counts and packet numbers at their start (R249, R282). -/
def State.newRecord (s : State) (n : Nat) (key : List Byte) : VaultRec :=
  { valid := true, mode := s.par P.asMode n, inst := s.par P.asInstance n, wrapped := Crypto.kwWrap s.sec.keys.kek key
    useReserved := 0, nextPn := 1, lowestPn := 1, txReserved := 1 }

/-- An association with a new key, which is current if it is the first. -/
def AssocState.withKey (x : AssocState) (k : Nat) : AssocState :=
  { x with current := if x.current.isNone then some k else x.current, soft := if bit x.soft k then x.soft - 2 ^ k else x.soft }

/-- A key of an association that is not pinned takes its Vault record and its place; no fill is asked for. -/
theorem State.installKey_notPinned {s : State} {n : Nat} (h : s.parOn P.asSlotPolicy n = false) (k : Nat) (key : List Byte) :
    s.installKey n k key = (s.writeVault n k 0 (fun _ => s.newRecord n key)).updAssoc n (fun x => x.withKey k) := by
  have hpolicy : ((s.writeVault n k 0 (fun _ => s.newRecord n key)).updAssoc n (fun x => x.withKey k)).parOn P.asSlotPolicy n = false := by
    simpa only [State.parOn, State.updAssoc_frame, State.writeVault_cfg] using h
  exact if_neg (by rw [Bool.and_eq_true]; exact fun hpinned => ne_true_of_eq_false hpolicy hpinned.1)

section newKey
variable {s : State} {n : Nat} (hlru : s.parOn P.asSlotPolicy n = false) (k : Nat) (key : List Byte)
include hlru

theorem State.installKey_vault :
    (s.installKey n k key).sec.vault.at (4 * n + k) = (s.newRecord n key).seal s.sec.keys.smk n k := by
  simp [State.installKey_notPinned hlru, State.updAssoc, State.writeVault_sec]

theorem State.installKey_assoc : (s.installKey n k key).sec.assoc.at n = (s.sec.assoc.at n).withKey k := by
  simp [State.installKey_notPinned hlru, State.updAssoc, State.writeVault_sec]

end newKey

/-! ### KEY.REMOVE -/

section keyRemove
variable {s : State} {inst n k : Nat} {a : Accepted}

theorem keyRemove_badKey (h : s.keyCheck inst a true ≠ 0) : s.keyRemove inst a = .refuse (s.keyCheck inst a true) := if_pos h

variable (hn : n = a.assoc) (hk : k = a.keyNum) (hcheck : s.keyCheck inst a true = 0)
include hn hk hcheck

theorem keyRemove_notFound (h : s.installed n k = false) : s.keyRemove inst a = .refuse E.notFound := by
  subst hn hk; simp [State.keyRemove, hcheck, h]

variable (hhas : s.installed n k = true)
include hhas

theorem keyRemove_inUse (hdir : s.parOn P.asDir n = true) (h : (s.sec.assoc.at n).current = some k) :
    s.keyRemove inst a = .refuse E.inUse := by
  subst hn hk; simp [State.keyRemove, hcheck, hhas, hdir, h]

theorem keyRemove_done (h : s.parOn P.asDir n = false ∨ (s.sec.assoc.at n).current ≠ some k) :
    s.keyRemove inst a = .ok (s.removeKey n k) := by
  subst hn hk; rcases h with h | h <;> simp [State.keyRemove, hcheck, hhas, h]

end keyRemove

/-- A slot that its key leaves gives its counts to the Vault, and no association changes. -/
theorem State.emptySlot_assoc (s : State) (t : Nat) : (s.emptySlot t).sec.assoc = s.sec.assoc := by
  have hback : ((s.writeBack t).loseBlocks t).sec.assoc = s.sec.assoc := by
    simp only [State.loseBlocks, State.updSec_sec, State.writeBack, State.writeVault_sec]
  unfold State.emptySlot
  simp only []
  split <;> exact hback

section removeKey
variable (s : State) (n k : Nat)

theorem State.removeKey_valid : ((s.removeKey n k).sec.vault.at (4 * n + k)).valid = false := by
  simp [State.removeKey, State.updAssoc, State.writeVault_sec, VaultRec.seal]

theorem State.removeKey_current : ((s.removeKey n k).sec.assoc.at n).current =
    if (s.sec.assoc.at n).current = some k then none else (s.sec.assoc.at n).current := by
  unfold State.removeKey
  cases s.slotOf n k with
  | none => simp [State.updAssoc, State.writeVault_sec]
  | some t => simp [State.updAssoc, State.writeVault_sec, State.emptySlot_assoc]

end removeKey

/-! ### KEY.MAKE_CURRENT, and order 3 of a lap -/

section keyMakeCurrent
variable {s : State} {inst n k lap : Nat} {a : Accepted}

theorem keyMakeCurrent_badLap (h : s.atLap (leAt a.payload 3 1) (leAt a.payload 4 4) = none) :
    s.keyMakeCurrent inst a = .refuse E.format := by simp [State.keyMakeCurrent, h]

variable (hlap : s.atLap (leAt a.payload 3 1) (leAt a.payload 4 4) = some lap)
include hlap

theorem keyMakeCurrent_badKey (h : s.keyCheck inst a true ≠ 0) : s.keyMakeCurrent inst a = .refuse (s.keyCheck inst a true) := by
  simp [State.keyMakeCurrent, hlap, h]

variable (hn : n = a.assoc) (hk : k = a.keyNum) (hcheck : s.keyCheck inst a true = 0)
include hn hk hcheck

theorem keyMakeCurrent_notFound (h : s.installed n k = false) : s.keyMakeCurrent inst a = .refuse E.notFound := by
  subst hn hk; simp [State.keyMakeCurrent, hlap, hcheck, h]

theorem keyMakeCurrent_done (h : s.installed n k = true) :
    s.keyMakeCurrent inst a = .ok (s.updAssoc n (fun x => { x with change := some (k, lap) })) (leBytes 4 lap) := by
  subst hn hk; simp [State.keyMakeCurrent, hlap, hcheck, h]

end keyMakeCurrent

section keyChange
variable {s : State} {n k lap : Nat} (hchange : (s.sec.assoc.at n).change = some (k, lap))
include hchange

theorem State.keyChange_early (h : later 32 lap s.lap = true) : s.keyChange n = s := by simp [State.keyChange, hchange, h]

variable (hdue : later 32 lap s.lap = false)
include hdue

theorem State.keyChange_installed (h : s.installed n k = true) : s.keyChange n = s.makeCurrent n k := by
  simp [State.keyChange, hchange, hdue, h]

theorem State.keyChange_removed (h : s.installed n k = false) : s.keyChange n = s.updAssoc n (fun x => { x with change := none }) := by
  simp [State.keyChange, hchange, hdue, h]

end keyChange

/-- What ends a hold of the new key, in its slot or its fill, changes no association. -/
theorem State.makeCurrent_assoc (s : State) (n k : Nat) :
    (s.makeCurrent n k).sec.assoc = s.sec.assoc.upd n (fun x => { x with current := some k, change := none }) := by
  unfold State.makeCurrent
  simp only []
  split <;> rfl

/-! ### KEY.STATUS -/

section keyStatus
variable {s : State} {inst n k : Nat} {a : Accepted}

theorem keyStatus_badKey (h : s.keyCheck inst a false ≠ 0) : s.keyStatus inst a = .refuse (s.keyCheck inst a false) := if_pos h

theorem keyStatus_done (h : s.keyCheck inst a false = 0) : s.keyStatus inst a = .ok s (s.keyReport a.assoc a.keyNum) :=
  if_neg (fun hne => hne h)

end keyStatus

end Sys2Proof.Machine
end

section
/-! O53: what the KEY commands answer and do. -/
namespace Sys2Proof.Machine

/-! ### The rows of the KEY commands serve their commands -/

theorem exec_keyInstall (slot : Nat) (s : State) : exec (.keyInstall slot) s = runs (serve slot Op.keyInstall State.keyInstall) s := rfl

theorem exec_keyRemove (slot : Nat) (s : State) : exec (.keyRemove slot) s = runs (serve slot Op.keyRemove State.keyRemove) s := rfl

theorem exec_keyMakeCurrent (slot : Nat) (s : State) :
    exec (.keyMakeCurrent slot) s = runs (serve slot Op.keyMakeCurrent State.keyMakeCurrent) s := rfl

theorem exec_keyStatus (slot : Nat) (s : State) : exec (.keyStatus slot) s = runs (serve slot Op.keyStatus State.keyStatus) s := rfl

/-- Settles O53: each clause on a command is one reply of it, carried out by the row that serves it; the others say what the change behind
a reply leaves in the Vault record and the association. (The order of the first checks is the model's choice: log entry 76.) -/
theorem keysAreInstalledAndRemoved : Obligations.KeysAreInstalledAndRemoved := by
  unfold Obligations.KeysAreInstalledAndRemoved
  simp only [exec_keyInstall, exec_keyRemove, exec_keyMakeCurrent, exec_keyStatus]
  refine ⟨State.keyCheck_eq, ?install, ?newKey, ?remove, fun s slot a hg h => runs_refuses hg (keyRemove_badKey h), ?removed, ?makeCurrent,
    fun s slot lap a hg hlap h => runs_refuses hg (keyMakeCurrent_badKey hlap h), fun s => rfl,
    fun s n k lap hchange => ⟨State.keyChange_early hchange, State.keyChange_installed hchange, State.keyChange_removed hchange⟩, ?current,
    fun s slot a hg => ⟨fun h => runs_refuses hg (keyStatus_badKey h), fun h => runs_answers hg (keyStatus_done h)⟩, ?resident, ?reserved⟩
  case install =>
    exact fun s slot n k a hg hn hk => ⟨fun h => runs_refuses hg (keyInstall_badKey h), fun hcheck =>
      ⟨fun h => runs_refuses hg (keyInstall_inUse hn hk hcheck h), fun hnew =>
        ⟨fun h => runs_refuses hg (keyInstall_notUnwrapped hn hk hcheck hnew h), fun key hkey =>
          ⟨fun hpinned h => runs_refuses hg (keyInstall_beyondSlots hn hk hcheck hnew hkey hpinned h),
            fun h => runs_answers hg (keyInstall_done hn hk hcheck hnew hkey h)⟩⟩⟩⟩
  case newKey =>
    intro s n k key hlru
    rw [State.installKey_assoc hlru]
    exact ⟨State.installKey_vault hlru k key, fun h => by simp [AssocState.withKey, h], fun h => by simp [AssocState.withKey, h]⟩
  case remove =>
    exact fun s slot n k a hg hn hk hcheck =>
      ⟨fun h => runs_refuses hg (keyRemove_notFound hn hk hcheck h),
        fun hhas hdir h => runs_refuses hg (keyRemove_inUse hn hk hcheck hhas hdir h),
        fun hhas h => runs_answers hg (keyRemove_done hn hk hcheck hhas h)⟩
  case removed =>
    intro s n k
    rw [State.removeKey_current]
    refine ⟨s.removeKey_valid n k, ?_, fun h => if_neg h⟩
    split
    · exact nofun
    · assumption
  case makeCurrent =>
    exact fun s slot n k lap a hg hn hk =>
      ⟨fun h => runs_refuses hg (keyMakeCurrent_badLap h), fun hlap hcheck =>
        ⟨fun h => runs_refuses hg (keyMakeCurrent_notFound hlap hn hk hcheck h),
          fun h => runs_answers hg (keyMakeCurrent_done hlap hn hk hcheck h)⟩⟩
  case current =>
    intro s n k
    rw [State.makeCurrent_assoc, Tab.at_upd_same]
    exact ⟨rfl, rfl⟩
  case resident =>
    rintro s n k t _ _ rfl h rfl
    simp [State.keyReport, h]
  case reserved =>
    rintro s n k _ rfl h
    simp [State.keyReport, h]

end Sys2Proof.Machine
end

section
/-! SUPPORT. Fills of Baton slots, releases of the bench, prefetch holds and TRNG health, case by case (R274, R284 to R293, R296, R298,
R299; log entry 75). -/
namespace Sys2Proof.Machine

/-! ### The victim of a fill (R296) -/

/-- A slot that a fill may take although it holds a key: VALID, under LRU and without a reference. -/
def KeySlot.evictable (q : KeySlot) : Prop := q.st = 2 ∧ q.policy = 0 ∧ q.refs = 0

/-- A walk that keeps a slot as its best, or takes a round's slot that may be evicted, ends with a slot of its list that may. -/
theorem foldl_evictable {s : State} {f : Option Nat → Nat → Option Nat}
    (hround : ∀ best i, f best i = best ∨ f best i = some i ∧ (s.sec.slot.at i).evictable) {l : List Nat} {best : Option Nat} {i : Nat}
    (h : l.foldl f best = some i) : best = some i ∨ i ∈ l ∧ (s.sec.slot.at i).evictable := by
  induction l generalizing best with
  | nil => exact .inl h
  | cons j l ih =>
    rcases ih h with hbest | ⟨hmem, hi⟩
    · rcases hround best j with hsame | ⟨htaken, hj⟩
      · exact .inl (hsame.symm.trans hbest)
      · obtain rfl : j = i := Option.some.inj (htaken.symm.trans hbest)
        exact .inr ⟨List.mem_cons_self, hj⟩
    · exact .inr ⟨List.mem_cons_of_mem _ hmem, hi⟩

theorem State.victim_cases {s : State} {i : Nat} (h : s.victim = some i) :
    i < 32 ∧ ((s.sec.slot.at i).st = 0 ∨ (s.sec.slot.at i).evictable ∧ ∀ j < 32, (s.sec.slot.at j).st ≠ 0) := by
  unfold State.victim at h
  split at h
  case h_1 j hfree =>
    cases h
    exact ⟨List.mem_range.1 (List.mem_of_find?_eq_some hfree), .inl (by simpa using List.find?_some hfree)⟩
  case h_2 hnone =>
    have hfull : ∀ j < 32, (s.sec.slot.at j).st ≠ 0 := fun j hj => by simpa using List.find?_eq_none.1 hnone j (List.mem_range.2 hj)
    have hwalk := foldl_evictable (s := s) (fun best j => ?round) h
    · obtain ⟨hmem, hi⟩ := hwalk.resolve_left nofun
      exact ⟨List.mem_range.1 hmem, .inr ⟨hi, hfull⟩⟩
    case round =>
      by_cases hj : (s.sec.slot.at j).evictable
      · cases best with
        | none => exact .inr ⟨if_pos hj, hj⟩
        | some m =>
          by_cases hage : later 32 (s.sec.slot.at m).age.toNat (s.sec.slot.at j).age.toNat = true
          · exact .inr ⟨(if_pos hj).trans (if_pos hage), hj⟩
          · exact .inl ((if_pos hj).trans (if_neg hage))
      · exact .inl (if_neg hj)

/-! ### FILL_REQUEST_POST -/

theorem State.postFill_full {s : State} (h : 2 ≤ (s.sec.fills.filter (fun f => f.slot.isSome)).length) : s.postFill = s := if_pos h

section postFill
variable {s : State} {f : Fill} (hroom : (s.sec.fills.filter (fun f => f.slot.isSome)).length < 2)
  (hfirst : s.sec.fills.find? (fun f => f.slot.isNone) = some f)
include hroom hfirst

theorem State.postFill_victim {i : Nat} (h : s.victim = some i) : s.postFill =
    ((((s.evict i).updSec (fun x => { x with
      slot := x.slot.put i { st := 1, policy := f.policy, assoc := f.assoc, keyNum := f.keyNum, gen := f.gen } })).updFill f
        (fun h => { h with slot := some i })).hbmAsk 1 (vaultAddr f.assoc f.keyNum) 128 false i) := by
  simp [State.postFill, Nat.not_le.2 hroom, hfirst, h]

variable (hvictim : s.victim = none)
include hvictim

theorem State.postFill_prefetch (h : f.policy = 2) : s.postFill = (s.count Stat.prefetchMisses).endFill f := by
  simp [State.postFill, Nat.not_le.2 hroom, hfirst, hvictim, h]

theorem State.postFill_waits (h : f.policy ≠ 2) : s.postFill = s := by
  simp [State.postFill, Nat.not_le.2 hroom, hfirst, hvictim, h]

end postFill

/-! ### VAULT_RECORD_RETURN -/

section recordReturn
variable {s : State} {f : Fill} {v : VaultRec} {intact : Bool} (hfirst : s.sec.fills.find? (fun f => f.slot.isSome && !f.read) = some f)
  (hv : v = s.sec.vault.at (4 * f.assoc + f.keyNum))
include hfirst hv

theorem State.recordReturn_removed (h : v.valid = false) : s.recordReturn intact = s.failFill f := by
  subst hv; simp [State.recordReturn, hfirst, h]

variable (hvalid : v.valid = true)
include hvalid

theorem State.recordReturn_bad
    (h : intact = false ∨ v.mac ≠ v.stateMac s.sec.keys.smk f.assoc f.keyNum ∨ Crypto.kwUnwrap s.sec.keys.kek v.wrapped = none) :
    s.recordReturn intact = ((s.ruleEvent 284 (4 * f.assoc + f.keyNum) 0 [] f.inst).raise 177 0).failFill f := by
  subst hv
  simp only [State.recordReturn, hfirst, hvalid]
  rcases h with h | h | h
  · simp [h]
  · simp [h]
  · rw [h]; simp

theorem State.recordReturn_sound {key : List Byte} (hmac : v.mac = v.stateMac s.sec.keys.smk f.assoc f.keyNum)
    (h : Crypto.kwUnwrap s.sec.keys.kek v.wrapped = some key) :
    s.recordReturn true = s.updFill f (fun h => { h with read := true, key := key }) := by
  subst hv
  simp only [State.recordReturn, hfirst, hvalid, ← hmac, h]
  simp

end recordReturn

/-! ### SLOT_VALID -/

/-- The slot `k` once a fill of it is done: VALID, with the 16 replicas of its key, the fill's hold and the counts its record reserves. -/
def State.filledSlot (s : State) (f : Fill) (v : VaultRec) (k : KeySlot) : KeySlot :=
  { k with
    st := 2, policy := if s.parOn P.asSlotPolicy f.assoc then 1 else f.policy, age := BitVec.ofNat 32 s.time.mono
    timed := if f.policy = 2 ∧ f.holdEnd.isSome then true else k.timed
    untilCurrent := if f.policy = 2 ∧ f.holdEnd = none then true else k.untilCurrent
    holdEnd := if f.policy = 2 then (k.hold f.holdEnd).holdEnd else k.holdEnd
    replica := replicasOf v.mode f.key
    useCount := v.useReserved, useReserved := v.useReserved, nextPn := v.nextPn, lowestPn := v.lowestPn
    txPn := v.txReserved, txReserved := v.txReserved }

section slotFilled
variable {s : State} {f : Fill} {v : VaultRec} {i : Nat} (hfirst : s.sec.fills.find? (fun f => f.read) = some f)
include hfirst

theorem State.slotFilled_pastGeneration (hslot : f.slot = some i) (h : s.instGen f.inst ≠ f.gen) : s.slotFilled =
    (((s.updSec (fun x => { x with slot := x.slot.del i })).endFill f).count Stat.falseStartDiscards (6 * f.inst + 2)).releaseAll := by
  simp [State.slotFilled, hfirst, hslot, h]

variable (hv : v = s.sec.vault.at (4 * f.assoc + f.keyNum)) (hgen : s.instGen f.inst = f.gen)
include hv hgen

theorem State.slotFilled_removed (h : v.valid = false) : s.slotFilled = s.failFill f := by
  subst hv; simp [State.slotFilled, hfirst, hgen, h]

theorem State.slotFilled_valid (hslot : f.slot = some i) (h : v.valid = true) : s.slotFilled =
    (((s.endFill f).updKey i (s.filledSlot f v)).slotLimit i).releaseAll := by
  subst hv
  simp only [State.slotFilled, hfirst, hslot, hgen, h, ne_eq, not_true_eq_false, if_false, Bool.not_true, Bool.false_eq_true, Option.getD_some]
  congr 3
  funext k
  by_cases hpolicy : f.policy = 2
  · cases hend : f.holdEnd <;> simp [State.filledSlot, KeySlot.hold, hpolicy, hend]
  · simp [State.filledSlot, hpolicy]

end slotFilled

/-! ### BENCH_FAULT_RETRY and BENCH_TIMEOUT -/

theorem State.faultRetry_empty {s : State} {key : Nat} (h : s.sec.bench.at key = []) : s.faultRetry key = s := by
  simp [State.faultRetry, h]

/-- A fault of a key that is asked for in no fill yet joins the queue. -/
theorem State.requestFill_new {s : State} {f : Fill} (hroom : s.sec.fills.length < 64)
    (h : ∀ g ∈ s.sec.fills, g.assoc ≠ f.assoc ∨ g.keyNum ≠ f.keyNum) :
    s.requestFill f = ({ s with sec := { s.sec with fills := s.sec.fills ++ [f] } }, true) := by
  have hany : s.sec.fills.any (fun g => g.assoc == f.assoc && g.keyNum == f.keyNum) = false := by
    simpa [← not_and_or] using h
  simp [State.requestFill, hany, Nat.not_le.2 hroom]

section faultRetry
variable {s : State} {key n a k pn : Nat} {l : List Nat} (hlist : s.sec.bench.at key = n :: l)
  (hplan : s.authPlan (s.pkt.at n) = .key a k pn)
include hlist hplan

theorem State.faultRetry_releases {i : Nat} (h : s.slotOf a k = some i) : s.faultRetry key = s.releaseBench key := by
  simp [State.faultRetry, hlist, hplan, h]

theorem State.faultRetry_asksAgain (hmode : isHmac ((s.bankOf (s.pkt.at n).gen).getN P.asMode a) = false) (h : s.slotOf a k = none) :
    s.faultRetry key = (s.faultFill n a k).1 := by
  simp [State.faultRetry, hlist, hplan, hmode, h]

end faultRetry

section releaseHead
variable {s : State} {n : Nat}

theorem State.releaseHead_waits (h : (s.pkt.at n).ended = false ∨ (s.pkt.at n).cmac ≠ none) : s.releaseHead n = (s, false) :=
  if_pos (by rcases h with h | h <;> simp [h, Option.isSome_iff_ne_none])

theorem State.releaseHead_pastGeneration (hended : (s.pkt.at n).ended = true) (hcmac : (s.pkt.at n).cmac = none)
    (h : s.instGen (s.pkt.at n).inst ≠ (s.pkt.at n).instGen) :
    s.releaseHead n = (((s.leaveBench n).count Stat.falseStartDrops (s.pkt.at n).inst).drop n, true) := by
  simp [State.releaseHead, hended, hcmac, h]

variable {key : Nat} {l : List Nat}

theorem State.releaseBench_blocked (hlist : s.sec.bench.at key = n :: l) (h : s.releaseHead n = (s, false)) : s.releaseBench key = s := by
  simp [State.releaseBench, State.releaseList, hlist, h]

theorem State.releaseBench_last {t : State} (hlist : s.sec.bench.at key = [n]) (h : s.releaseHead n = (t, true)) :
    s.releaseBench key = t := by
  simp [State.releaseBench, State.releaseList, hlist, h]

end releaseHead

theorem State.benchExpire_early {s : State} {key : Nat}
    (h : ∀ n ∈ s.sec.bench.at key, s.time.mono - (s.pkt.at n).arrived < s.par P.benchTimeout * 1000) : s.benchExpire key = s := by
  have hnone : (s.sec.bench.at key).dropWhile (fun n => !decide (s.par P.benchTimeout * 1000 ≤ s.time.mono - (s.pkt.at n).arrived)) = [] :=
    List.dropWhile_eq_nil_iff.2 (fun n hn => by simpa using h n hn)
  simp only [State.benchExpire, hnone, State.forEach_nil]

theorem State.benchExpire_one {s : State} {key n : Nat} (hlist : s.sec.bench.at key = [n])
    (h : s.par P.benchTimeout * 1000 ≤ s.time.mono - (s.pkt.at n).arrived) :
    s.benchExpire key = ((s.leaveBench n).count Stat.benchTimeoutDrops (s.pkt.at n).port).drop n := by
  simp [State.benchExpire, hlist, h]

/-! ### PREFETCH_HOLD_END and TRNG_HEALTH_PASS -/

/-- A slot whose timed hold has ended, under LRU again if no other hold is left. -/
theorem KeySlot.unhold_timed (q : KeySlot) : q.unhold true =
    { q with timed := false, holdEnd := 0, policy := if q.policy = 2 ∧ q.untilCurrent = false then 0 else q.policy } := by
  simp only [KeySlot.unhold, if_true, true_and]
  split <;> rfl

theorem State.holdEnds_ended {s : State} {i : Nat} (htimed : (s.sec.slot.at i).timed = true)
    (h : later 32 (s.sec.slot.at i).holdEnd.toNat s.time.mono = false) :
    s.holdEnds i = s.updKey i (fun _ => (s.sec.slot.at i).unhold true) := if_pos ⟨htimed, h⟩

theorem State.holdEnds_kept {s : State} {i : Nat}
    (h : (s.sec.slot.at i).timed = false ∨ later 32 (s.sec.slot.at i).holdEnd.toNat s.time.mono = true) : s.holdEnds i = s :=
  if_neg (fun ⟨htimed, hended⟩ => by simp [htimed, hended] at h)

/-- A condition that clears leaves the time unit and the queue of commands alone. -/
theorem State.clearCond_time_pending (s : State) (src unit : Nat) :
    (s.clearCond src unit).time = s.time ∧ (s.clearCond src unit).pending = s.pending := by
  unfold State.clearCond; split <;> exact ⟨rfl, rfl⟩

end Sys2Proof.Machine
end

section
/-! O35: what fills, the bench, prefetch holds and the TRNG tests do. -/
namespace Sys2Proof.Machine

/-! ### The rows of the Vault -/

theorem exec_fillRequestPost (s : State) : exec .fillRequestPost s = runs (fun s => s.postFill) s := rfl

theorem exec_vaultRecordReturn (intact : Bool) (s : State) :
    exec (.vaultRecordReturn intact) s = runs (fun s => s.recordReturn intact) s := rfl

theorem exec_slotValid (s : State) : exec .slotValid s = runs (fun s => s.slotFilled) s := rfl

theorem exec_benchFaultRetry (port cls : Nat) (s : State) :
    exec (.benchFaultRetry port cls) s = runs (fun s => s.faultRetry (16 * port + cls)) s := rfl

theorem exec_benchTimeout (port cls : Nat) (s : State) :
    exec (.benchTimeout port cls) s = runs (fun s => s.benchExpire (16 * port + cls)) s := rfl

theorem exec_prefetchHoldEnd (i : Nat) (s : State) : exec (.prefetchHoldEnd i) s = runs (fun s => s.holdEnds i) s := rfl

theorem exec_trngHealthFail (s : State) : exec .trngHealthFail s = runs (fun s => s.trngFail) s := rfl

theorem exec_trngHealthPass (s : State) : exec .trngHealthPass s = runs (fun s => s.trngPass) s := rfl

/-- Settles O35: each clause is one case of a fill, the bench, a hold or the TRNG, carried out by its row. -/
theorem keysComeFromTheVault : Obligations.KeysComeFromTheVault := by
  unfold Obligations.KeysComeFromTheVault
  simp only [exec_fillRequestPost, exec_vaultRecordReturn, exec_slotValid, exec_benchFaultRetry, exec_benchTimeout, exec_prefetchHoldEnd,
    exec_trngHealthFail, exec_trngHealthPass]
  refine ⟨?victim, ?post, fun s h => runs_to (State.postFill_full h) rfl rfl, ?record, ?filled, ?retry,
    fun s port cls h => runs_to (State.faultRetry_empty h) rfl rfl, fun s port cls h => runs_to (State.benchExpire_early h) rfl rfl,
    fun s port cls n hlist h => runs_keeping (State.benchExpire_one hlist h), ?hold, ?trng⟩
  case victim =>
    intro s i h
    obtain ⟨hi, hfree | ⟨⟨hst, hpolicy, hrefs⟩, hfull⟩⟩ := State.victim_cases h
    · exact ⟨hi, .inl hfree⟩
    · exact ⟨hi, .inr ⟨hst, hpolicy, hrefs, hfull⟩⟩
  case post =>
    exact fun s f hroom hfirst => ⟨fun i h => ⟨_, rfl, runs_keeping (State.postFill_victim hroom hfirst h)⟩,
      fun h hpolicy => runs_keeping (State.postFill_prefetch hroom hfirst h hpolicy),
      fun h hpolicy => runs_to (State.postFill_waits hroom hfirst h hpolicy) rfl rfl⟩
  case record =>
    exact fun s f v intact hfirst hv => ⟨fun h => runs_keeping (State.recordReturn_removed hfirst hv h),
      fun hvalid h => runs_keeping (State.recordReturn_bad hfirst hv hvalid h),
      fun key hvalid hmac h => runs_to (State.recordReturn_sound hfirst hv hvalid hmac h) rfl rfl⟩
  case filled =>
    refine fun s f v i hfirst hv hslot => ⟨fun h => runs_keeping (State.slotFilled_pastGeneration hfirst hslot h),
      fun hgen h => runs_keeping (State.slotFilled_removed hfirst hv hgen h), ?_⟩
    rintro hgen h _ _ rfl rfl
    exact runs_keeping (State.slotFilled_valid hfirst hv hgen hslot h)
  case retry =>
    refine fun s port cls n a k pn l hlist hplan hmode => ⟨fun hnone hroom hnew => ?_, fun i hi => ⟨fun h => ?_, ?_⟩⟩
    · refine runs_to ?_ rfl rfl
      rw [State.faultRetry_asksAgain hlist hplan hmode hnone, State.faultFill, State.requestFill_new hroom hnew]
    · exact runs_to ((State.faultRetry_releases hlist hplan hi).trans (State.releaseBench_blocked hlist (State.releaseHead_waits h))) rfl rfl
    · rintro hended hcmac hgen rfl
      exact runs_keeping ((State.faultRetry_releases hlist hplan hi).trans
        (State.releaseBench_last hlist (State.releaseHead_pastGeneration hended hcmac hgen)))
  case hold =>
    rintro s i _ rfl
    refine ⟨fun htimed h => ?_, fun h => runs_to (State.holdEnds_kept h) rfl rfl⟩
    rw [← KeySlot.unhold_timed]
    exact runs_to (State.holdEnds_ended htimed h) rfl rfl
  case trng =>
    intro s
    obtain ⟨htime, hpending⟩ := (s.updSec (fun x => { x with trngFailed := false })).clearCond_time_pending 178 0
    exact ⟨runs_keeping rfl, runs_to rfl htime hpending⟩

end Sys2Proof.Machine
end

section
/-! O1, O3: a step is the command at the front of the queue, and what every row leaves alone. -/
namespace Sys2Proof.Machine

/-- An instruction of the test port leaves time and queue alone, unless it is a private one under a debug token. -/
theorem execJtagInstruction_next (op : JtagOp) (s : State) (h : ∀ k, op = .privateOp k → s.jtagOpen = false) :
    ∃ t, exec (.jtagInstruction op) s = .next t ∧ t.time = s.time ∧ t.pending = s.pending := by
  cases op with
  | idcode | bypass | boundary => exact ⟨_, rfl, rfl, rfl⟩
  | privateOp k => exact ⟨_, if_neg (by simp [h k rfl]), rfl, rfl⟩

/-- Every row but those of the test port answers with the same queue, and only those of `timeRow` set the time unit. -/
theorem exec_next (c : Instr) (s : State) (h : ∀ op, c ≠ .jtagInstruction op) :
    ∃ t, exec c s = .next t ∧ t.pending = s.pending ∧ (timeRow c = false → t.time = s.time) := by
  cases c with
  | jtagInstruction op => exact absurd rfl (h op)
  | lapBoundary | resetNAssert | resetNRelease | supplyMonitorTrip | supplyMonitorRelease | powerFailFlushEnd | timeSourceValid
  | sourceLossExpire | ppsInEdge | timeSecondsLoRead | timeSetSeconds | functionLevelReset | pcieLinkDown => exact ⟨_, rfl, rfl, nofun⟩
  | _ => exact ⟨_, rfl, rfl, fun _ => rfl⟩

/-- Settles O3: a command is of the test port or not. -/
theorem everyCommandAnswers : Obligations.EveryCommandAnswers := by
  unfold Obligations.EveryCommandAnswers
  intro c s hprivate
  by_cases htest : ∃ op, c = .jtagInstruction op
  · obtain ⟨op, rfl⟩ := htest
    obtain ⟨t, ht, htime, hpending⟩ := execJtagInstruction_next op s (fun k hk => hprivate k (by rw [hk]))
    exact ⟨t, ht, hpending, fun _ => htime⟩
  · exact exec_next c s (not_exists.1 htest)

/-- Settles O1: the front command is taken off the queue before it runs. -/
theorem stepRunsTheFrontCommand : Obligations.StepRunsTheFrontCommand := by
  unfold Obligations.StepRunsTheFrontCommand
  exact fun _ _ => rfl

end Sys2Proof.Machine
end

section
/-! O16: what the reads with an effect return and clear (R365, R390, R489, R520). -/
namespace Sys2Proof.Machine

theorem State.pageCounter_open {s : State} {i n : Nat} (ho : s.parOn P.counterUserRead i = true) (hn : n < s.par P.instCtrCount i) :
    s.pageCounter i n = some (s.par P.instCtrBase i + n) := if_pos ⟨ho, hn⟩

theorem State.pageCounter_closed {s : State} {i n : Nat} (h : s.parOn P.counterUserRead i = false ∨ s.par P.instCtrCount i ≤ n) :
    s.pageCounter i n = none := if_neg (fun ⟨ho, hn⟩ => by rcases h with h | h <;> [simp [h] at ho; omega])

theorem State.lowRead_open {s : State} {i n : Nat} (ho : s.parOn P.counterUserRead i = true) (hn : n < s.par P.instCtrCount i) :
    s.lowRead i n = ({ s with ctr := { s.ctr with
      latch := s.ctr.latch.put (2048 * i + n) (bits (s.ctr.ctr.at (s.par P.instCtrBase i + n)).word 32 32 + 1) } }).emit
        (.read (bits (s.ctr.ctr.at (s.par P.instCtrBase i + n)).word 0 32)) := by
  rw [State.lowRead, State.pageCounter_open ho hn]

theorem State.lowRead_closed {s : State} {i n : Nat} (h : s.parOn P.counterUserRead i = false ∨ s.par P.instCtrCount i ≤ n) :
    s.lowRead i n = s.emit (.read 0) := by rw [State.lowRead, State.pageCounter_closed h]

theorem State.readPoolStatus_started {s : State} {p : Nat} (hp : p < 4) (h : s.pacer.thread ≠ []) :
    s.readPoolStatus p = { s.emit (.read
      ((poolBuffers p - (s.pacer.pool.at p).owner.length) * 2 ^ 17 + (poolBuffers p - (s.pacer.pool.at p).maxTaken) * 4)) with
      pacer := { s.pacer with pool := s.pacer.pool.upd p (fun q => { q with maxTaken := q.owner.length }) } } := by
  simp [State.readPoolStatus, State.poolStatus, Nat.not_le.2 hp, h]

/-- Settles O16: each read emits its value and clears what the manual lets it clear. -/
theorem hostReadsWithAnEffect : Obligations.HostReadsWithAnEffect := by
  unfold Obligations.HostReadsWithAnEffect
  refine ⟨fun s i n ho hn => ?_, fun s i n h => ?_, fun s pc => ?_, fun s p hp h => ?_, fun s i h => ?_⟩
  · exact runs_to (f := fun s => s.lowRead i n) (State.lowRead_open ho hn) (by simp) (by simp)
  · exact runs_to (f := fun s => s.lowRead i n) (State.lowRead_closed h) (by simp) (by simp)
  · exact runs_to (f := fun s => s.readPcStatus pc) rfl (by simp) (by simp)
  · exact runs_to (f := fun s => s.readPoolStatus p) (State.readPoolStatus_started hp h) (by simp) (by simp)
  · exact runs_to (f := fun s => s.readRxDrops i) (if_pos h) (by simp) (by simp)

end Sys2Proof.Machine
end

section
/-! O13: what a raise does to the record of its source (R461, R462, R465). -/
namespace Sys2Proof.Machine

/-- The record that a raise of a source opens. -/
def State.opened (s : State) (src : Nat) : FaultRec := { severity := s.severity src, first := s.lap, last := s.lap }

theorem State.fault_faultIrq (s : State) (src unit : Nat) : (s.faultIrq src unit).fault = s.fault := by
  unfold State.faultIrq
  dsimp only
  split
  · split <;> simp
  · simp

theorem State.fsrc_updSrc_same (s : State) (src : Nat) (f : FaultSrc → FaultSrc) : (s.updSrc src f).fsrc src = f (s.fsrc src) :=
  Tab.at_upd_same _ _ _

theorem State.fsrc_updSrc_other (s : State) {src k : Nat} (f : FaultSrc → FaultSrc) (h : k ≠ src) :
    (s.updSrc src f).fsrc k = s.fsrc k := Tab.at_upd_other _ _ h

/-- The entry of a raise and its interrupt leave the records alone. -/
theorem State.fsrc_logged (s : State) (t : Nat) (keys items : List Nat) (i src unit k : Nat) (irq : Prop) [Decidable irq] :
    (if irq then (s.log t keys items i).faultIrq src unit else s.log t keys items i).fsrc k = s.fsrc k := by
  unfold State.fsrc
  split <;> simp [State.fault_faultIrq]

section record
variable {s : State} {src unit : Nat} {prot : Bool} {r : FaultRec}

theorem State.record_none (h : (s.fsrc src).record = none) (k : Nat) :
    (s.record src unit prot).fsrc k = (s.updSrc src (fun f => { f with record := some (s.opened src) })).fsrc k := by
  unfold State.record
  simp only [h]
  exact State.fsrc_logged ..

theorem State.record_acked (h : (s.fsrc src).record = some r) (ha : r.acked = true) (k : Nat) :
    (s.record src unit prot).fsrc k = (s.updSrc src (fun f => { f with record := some (s.opened src) })).fsrc k := by
  unfold State.record
  simp only [h, ha, if_true]
  exact State.fsrc_logged ..

variable (h : (s.fsrc src).record = some r) (ha : r.acked = false)
include h ha

theorem State.record_merges (k : Nat) : (s.record src unit false).fsrc k =
    (s.updSrc src (fun f => { f with record := some { r with count := satInc 0xFFFF r.count, last := s.lap } })).fsrc k := by
  unfold State.record
  simp only [h, ha, Bool.false_eq_true, if_false]
  simp [State.fsrc]

theorem State.record_escalates (k : Nat) : (s.record src unit true).fsrc k =
    (s.updSrc src (fun f => { f with
      record := some { r with severity := min 4 (r.severity + 1), count := satInc 0xFFFF r.count, last := s.lap } })).fsrc k := by
  unfold State.record
  simp only [h, ha, Bool.false_eq_true, if_false, if_true]
  exact State.fsrc_logged ..

end record

theorem State.raise_held {s : State} {src unit : Nat} {prot : Bool} (hl : (sourceInfo src).level = true) (hc : (s.funit src unit).cond = true) :
    s.raise src unit prot = s := if_pos (by rw [hl, hc]; rfl)

/-- Settles O13: a raise finds no open record, an acknowledged one or one to merge into. -/
theorem raisesOpenMergeAndEscalateRecords : Obligations.RaisesOpenMergeAndEscalateRecords := by
  unfold Obligations.RaisesOpenMergeAndEscalateRecords
  refine ⟨fun s src unit prot h => ⟨?_, fun k hk => ?_⟩, fun s src unit prot r h ha => ?_, fun s src unit r h ha => ⟨?_, ?_⟩,
    fun s src unit prot hl hc => State.raise_held hl hc, fun s p hp => runs_keeping (if_pos hp)⟩
  · rw [State.record_none h, State.fsrc_updSrc_same]; rfl
  · rw [State.record_none h, State.fsrc_updSrc_other _ _ hk]
  · rw [State.record_acked h ha, State.fsrc_updSrc_same]; rfl
  · rw [State.record_merges h ha, State.fsrc_updSrc_same]; rfl
  · rw [State.record_escalates h ha, State.fsrc_updSrc_same]; rfl

end Sys2Proof.Machine
end

section
/-! SUPPORT. Clocks, sensors and the test port, case by case (R460, R499, R540, R544, R546, R548). -/
namespace Sys2Proof.Machine

/-! ### Clocks and temperatures -/

theorem State.refLoss_running {s : State} {k : Nat} (hk : k < 32) (hn : k ∉ s.pins.refLost) (hr : s.time.running = true) :
    s.refLoss k = ({ s with pins := { s.pins with refLost := k :: s.pins.refLost } }).raise (112 + k) 0 := by
  simp [State.refLoss, Nat.not_le.2 hk, hn, hr]

theorem State.clearCond_clear {s : State} {src unit : Nat} (h : (s.funit src unit).cond = false) : s.clearCond src unit = s :=
  if_neg (by simp [h])

theorem State.follow_seen {s : State} {src : Nat} (hr : s.time.running = true) (h : s.condSeen src 0 = true) :
    s.follow src = s.raise src 0 := by simp [State.follow, hr, h]

/-- A condition that is neither seen nor held. -/
theorem State.follow_quiet {s : State} {src : Nat} (hr : s.time.running = true) (h : s.condSeen src 0 = false)
    (hc : (s.funit src 0).cond = false) : s.follow src = s := by
  simp [State.follow, hr, h, State.clearCond_clear hc]

theorem Tab.mem_ins {α : Type} (t : Tab α) (k : Nat) (v : α) : (k, v) ∈ Tab.ins t k v := by
  induction t with
  | nil => simp [Tab.ins]
  | cons e t ih => simp only [Tab.ins]; split_ifs <;> simp [ih]

/-- With no die sensor above 105 °C neither source follows. -/
theorem State.follow_cool {s : State} (hr : s.time.running = true) (hall : ∀ e ∈ s.pins.temp, e.2 ≤ 105)
    (h188 : (s.funit 188 0).cond = false) (h189 : (s.funit 189 0).cond = false) : (s.follow 188).follow 189 = s := by
  have hbelow (n : Int) (hn : 105 ≤ n) : s.pins.temp.any (fun e => decide (n < e.2)) = false := by
    simpa using fun a b hmem => (hall (a, b) hmem).trans hn
  have h188 : s.follow 188 = s := State.follow_quiet hr (hbelow 105 (by omega)) h188
  have h189 : s.follow 189 = s := State.follow_quiet hr (hbelow 115 (by omega)) h189
  rw [h188, h189]

section die
variable {s : State} {k : Nat} {c : Int} (hk : k < 32) (hr : s.time.running = true)
include hk hr

theorem State.temperature_normal (hall : ∀ e ∈ s.pins.temp.put k c, e.2 ≤ 105)
    (h188 : (s.funit 188 0).cond = false) (h189 : (s.funit 189 0).cond = false) :
    s.temperature k c = { s with pins := { s.pins with temp := s.pins.temp.put k c } } :=
  (if_pos hk).trans (State.follow_cool hr hall h188 h189)

theorem State.temperature_hot (hc : 105 < c) : s.temperature k c =
    (({ s with pins := { s.pins with temp := s.pins.temp.put k c } }).raise 188 0).follow 189 := by
  have hmem : (k, c) ∈ s.pins.temp.put k c := by
    rw [Tab.put, if_neg (by show c ≠ 0; omega)]; exact Tab.mem_ins ..
  have hraise (u : State) (hu : u.time.running = true) (hmem : (k, c) ∈ u.pins.temp) : u.follow 188 = u.raise 188 0 :=
    State.follow_seen hu (List.any_eq_true.2 ⟨_, hmem, decide_eq_true hc⟩)
  exact (if_pos hk).trans (congrArg (·.follow 189) (hraise { s with pins := { s.pins with temp := s.pins.temp.put k c } } hr hmem))

end die

theorem State.temperature_stack {s : State} {k : Nat} {c : Int} (hk : k < 4) (hr : s.time.running = true) (hc : c ≤ 85)
    (h : (s.funit (168 + k) 0).cond = false) :
    s.temperature (32 + k) c = { s with hbm := { s.hbm with temp := s.hbm.temp.put k c } } := by
  rw [State.temperature, if_neg (by omega), if_pos (by omega), Nat.add_sub_cancel_left]
  refine State.follow_quiet (src := 168 + k) hr ?_ h
  have hcool : ¬ 85 < (s.hbm.temp.put k c).at (168 + k - 168) := by
    rw [Nat.add_sub_cancel_left, Tab.at_put_same]; omega
  exact (if_neg (by omega)).trans ((if_pos (by omega)).trans (decide_eq_false hcool))

/-! ### Root entries -/

theorem State.rootsOpen_blank {s : State} (h : ∀ k < 4, s.mbx.root.at k = {}) : s.rootsOpen = true := by
  simp only [State.rootsOpen, List.all_eq_true, List.mem_range]
  exact fun k hk => by rw [h k hk]; rfl

theorem State.rootsOpen_written {s : State} (h : ∃ k < 4, (s.mbx.root.at k).hash.isSome = true) : s.rootsOpen = false := by
  obtain ⟨k, hk, hs⟩ := h
  refine List.all_eq_false.2 ⟨k, List.mem_range.2 hk, ?_⟩
  rw [Option.isNone_eq_false_iff.2 hs]; simp

theorem State.provision_blank {s : State} {h : List Byte} (hl : h.length = 48) (hb : ∀ k < 4, s.mbx.root.at k = {}) :
    s.provision h = ({ s with mbx := { s.mbx with root := s.mbx.root.put 0 { hash := some (beNat h) } },
                              boot := { s.boot with rootsBlank := false } }).tap 3 (beNat h) := by
  simp [State.provision, hl, State.rootsOpen_blank hb]

theorem State.provision_written {s : State} {h : List Byte} (hl : h.length = 48) (hw : ∃ k < 4, (s.mbx.root.at k).hash.isSome = true) :
    s.provision h = s.bypass := by
  simp [State.provision, hl, State.rootsOpen_written hw]

/-! ### The rows of the pins -/

theorem exec_privateOp_closed {s : State} (k : Nat) (h : ∀ t ∈ s.mbx.tokens, bit t.scope 2 = false) :
    exec (.jtagInstruction (.privateOp k)) s = exec (.jtagInstruction .bypass) s :=
  if_neg (by simpa [State.jtagOpen] using h)

theorem exec_privateOp_open {s : State} (k : Nat) (h : ∃ t ∈ s.mbx.tokens, bit t.scope 2 = true) :
    exec (.jtagInstruction (.privateOp k)) s = .refused .jtagPrivate := if_pos (List.any_eq_true.2 h)

theorem exec_bypass (s : State) : exec (.jtagInstruction .bypass) s = .next s.bypass :=
  runs_eq s _ (by simp [State.bypass, State.tap]) (by simp [State.bypass, State.tap])

theorem exec_refclkLoss (k : Nat) (s : State) : exec (.refclkLoss k) s = runs (fun s => s.refLoss k) s := rfl

theorem exec_temperatureCrossing (k : Nat) (c : Int) (s : State) :
    exec (.temperatureCrossing k c) s = runs (fun s => s.temperature k c) s := rfl

theorem exec_rootProvision (h : List Byte) (s : State) : exec (.rootProvision h) s = runs (fun s => s.provision h) s := rfl

/-- Settles O10: each clause is one case of a pin's row, a PMBus command or an instruction of the test port. -/
theorem pinsClocksAndTestPort : Obligations.PinsClocksAndTestPort := by
  unfold Obligations.PinsClocksAndTestPort
  simp only [exec_refclkLoss, exec_temperatureCrossing, exec_rootProvision]
  refine ⟨fun s k hk hn hr => runs_keeping (State.refLoss_running hk hn hr),
    fun s k c hk hr hall h188 h189 => runs_to (State.temperature_normal hk hr hall h188 h189) rfl rfl,
    fun s k c hk hr hc => runs_keeping (State.temperature_hot hk hr hc),
    fun s k c hk hr hc h => runs_to (State.temperature_stack hk hr hc h) rfl rfl, ?pmbus, ?jtag, ?blank, ?written⟩
  case pmbus =>
    have hreply (s : State) (v : State → Nat) : runs (fun s => s.pmbusReply (v s)) s = .next (s.pmbusReply (v s)) :=
      runs_eq s _ (by simp [State.pmbusReply]) (by simp [State.pmbusReply])
    exact fun s => ⟨hreply s State.statusWord, hreply s (fun s => linear11 (hottest s.pins.temp 32)),
      hreply s (fun s => linear11 (hottest s.hbm.temp 4))⟩
  case jtag =>
    refine fun s => ⟨runs_to (f := fun s => s.tap 0 0x151204F3) rfl (by simp) (by simp), exec_bypass s,
      fun k => ⟨s.freeVal 1024, ?_⟩, fun k h => exec_privateOp_closed k h, fun k h => exec_privateOp_open k h⟩
    exact runs_to (f := fun s => (s.tap 2 (s.freeVal 1024)).drawn) (by simp [State.tap, State.drawn]) (by simp) (by simp)
  case blank =>
    exact fun s h hl hb => runs_to (State.provision_blank hl hb) (by simp) (by simp)
  case written =>
    intro s h hl hw
    rw [exec_bypass]
    exact runs_to (State.provision_written hl hw) (by simp [State.bypass, State.tap]) (by simp [State.bypass, State.tap])

end Sys2Proof.Machine
end

section
/-! SUPPORT. RESET_N, the supply monitor and the end of a flush, case by case (R493, R504, R505, R535). -/
namespace Sys2Proof.Machine

theorem State.resetAssert_cold {s : State} (hh : s.pins.resetHigh = true) (hf : s.recd.flushing = false) :
    s.resetAssert = ({ s with pins := { s.pins with resetHigh := false } }).coldReset := by
  simp [State.resetAssert, hh, hf]

theorem State.resetAssert_flushing {s : State} (hh : s.pins.resetHigh = true) (hf : s.recd.flushing = true) :
    s.resetAssert = { s with pins := { s.pins with resetHigh := false, deferred := true } } := by
  simp [State.resetAssert, hh, hf]

section release
variable {s : State} {g : Bool} (hlow : s.pins.resetHigh = false)
include hlow

theorem State.resetRelease_boots (hs : s.pins.supplyOk = true) (h : 0 ∉ s.pins.refLost) (hd : s.pins.deferred = false) :
    s.resetRelease g = ({ s with pins := { s.pins with resetHigh := true, gpio0 := g } }).startBoot := by
  simp [State.resetRelease, State.powerGood, hlow, hs, h, hd]

theorem State.resetRelease_held (h : s.pins.supplyOk = false ∨ 0 ∈ s.pins.refLost) :
    s.resetRelease g = { s with pins := { s.pins with resetHigh := true, gpio0 := g } } := by
  rcases h with h | h <;> simp [State.resetRelease, State.powerGood, hlow, h]

end release

theorem State.supplyTrip_cold {s : State} (hs : s.pins.supplyOk = true) (hf : s.recd.flushing = false) :
    s.supplyTrip = { s.coldReset with
      pins := { s.pins with supplyOk := false, deferred := false }, boot := { s.coldReset.boot with powerOn := false, cause := 1 } } := by
  simp only [State.supplyTrip, hs, hf, Bool.not_true, Bool.false_eq_true, if_false]
  rfl

section supplyBack
variable {s : State} (hs : s.pins.supplyOk = false)
include hs

theorem State.supplyBack_resetLow (hlow : s.pins.resetHigh = false) :
    s.supplyBack = { s with pins := { s.pins with supplyOk := true } } := by
  simp [State.supplyBack, hs, hlow]

theorem State.supplyBack_boots (hh : s.pins.resetHigh = true) (h : 0 ∉ s.pins.refLost) :
    s.supplyBack = ({ s with pins := { s.pins with supplyOk := true } }).startBoot := by
  simp [State.supplyBack, State.powerGood, hs, hh, h]

end supplyBack

section flushEnd
variable {s : State} (hf : s.recd.flushing = true)
include hf

theorem State.flushEnd_alone (hd : s.pins.deferred = false) : s.flushEnd = { s with recd := { s.recd with flushing := false } } := by
  simp [State.flushEnd, hf, hd]

theorem State.flushEnd_resets (hd : s.pins.deferred = true) (hlow : s.pins.resetHigh = false) :
    s.flushEnd = { (({ s with recd := { s.recd with flushing := false } }).coldReset) with pins := { s.pins with deferred := false } } := by
  have hcold : ({ s with recd := { s.recd with flushing := false } } : State).coldReset.pins = s.pins := rfl
  simp [State.flushEnd, hf, hd, hcold, hlow]

end flushEnd

/-- A command run by `runsTime`, with its effect known. -/
theorem runsTime_to {s t : State} {f : State → State} (h : f s = t) (hp : t.pending = s.pending) : runsTime f s = .next t := by
  subst h; exact runsTime_eq s f hp

/-- A command run by `runsTime`, with its effect known but for the queue. -/
theorem runsTime_queued {s t : State} {f : State → State} (h : f s = t) : runsTime f s = .next { t with pending := s.pending } := by
  subst h; rfl

theorem exec_resetNAssert (s : State) : exec .resetNAssert s = runsTime State.resetAssert s := rfl

theorem exec_resetNRelease (g : Bool) (s : State) : exec (.resetNRelease g) s = runsTime (fun s => s.resetRelease g) s := rfl

theorem exec_supplyMonitorTrip (s : State) : exec .supplyMonitorTrip s = runsTime State.supplyTrip s := rfl

theorem exec_supplyMonitorRelease (s : State) : exec .supplyMonitorRelease s = runsTime State.supplyBack s := rfl

theorem exec_powerFailFlushEnd (s : State) : exec .powerFailFlushEnd s = runsTime State.flushEnd s := rfl

/-- Settles O11: each clause is one case of RESET_N, of the supply monitor or of the end of a flush. -/
theorem resetsHoldAndReleaseTheDevice : Obligations.ResetsHoldAndReleaseTheDevice := by
  unfold Obligations.ResetsHoldAndReleaseTheDevice
  simp only [exec_resetNAssert, exec_resetNRelease, exec_supplyMonitorTrip, exec_supplyMonitorRelease, exec_powerFailFlushEnd]
  refine ⟨fun s hh hf => ⟨_, runsTime_to (State.resetAssert_cold hh hf) rfl, by and_intros <;> rfl⟩,
    fun s hh hf => runsTime_to (State.resetAssert_flushing hh hf) rfl, fun s g hlow hs h hd => runsTime_queued (State.resetRelease_boots hlow hs h hd),
    fun s g hlow h => runsTime_to (State.resetRelease_held hlow h) rfl, fun s hs hf => runsTime_to (State.supplyTrip_cold hs hf) rfl,
    fun s hs hlow => runsTime_to (State.supplyBack_resetLow hs hlow) rfl, fun s hs hh h => ⟨_, runsTime_queued (State.supplyBack_boots hs hh h), rfl, rfl⟩,
    fun s hf hd => runsTime_to (State.flushEnd_alone hf hd) rfl, fun s hf hd hlow => runsTime_to (State.flushEnd_resets hf hd hlow) rfl⟩

end Sys2Proof.Machine
end

section
/-! SUPPORT. The replies of the GMU and FAB commands, check by check (R314, R319, R323, R324, R333, R334, R341, R446; log entry 84). -/
namespace Sys2Proof.Machine

/-! ### GMU.READ and GMU.TRIGGER_STATUS -/

section gmuRead
variable {s : State} {inst kind k : Nat} {a : Accepted} (hkind : kind = leAt a.payload 0 1) (hk : k = leAt a.payload 2 2)
include hkind hk

theorem gmuRead_outOfRange (h : 2 ≤ kind ∨ 1024 ≤ k) : s.gmuRead inst a = .refuse E.range := by
  subst hkind hk; exact if_pos h

theorem gmuRead_notOwner (h2 : kind < 2) (h1024 : k < 1024) (h : owns inst (s.gridOwner (kind == 1) k) = false) :
    s.gmuRead inst a = .refuse E.notOwner := by
  subst hkind hk; simp [State.gmuRead, Nat.not_le.2 h2, Nat.not_le.2 h1024, h]

theorem gmuRead_tap (h0 : kind = 0) (h1024 : k < 1024) (h : owns inst (s.gridOwner false k) = true) :
    s.gmuRead inst a = .ok s (slice ((s.gmu.tap.at k).record.bytes k) 0 (32 + 24 * s.par P.channels k)) := by
  subst hk; simp [State.gmuRead, ← hkind, h0, Nat.not_le.2 h1024, h]

theorem gmuRead_triplet (h1 : kind = 1) (h1024 : k < 1024) (h : owns inst (s.gridOwner true k) = true) :
    s.gmuRead inst a = .ok s ((s.gmu.trip.at k).bytes k) := by
  subst hk; simp [State.gmuRead, ← hkind, h1, Nat.not_le.2 h1024, h]

end gmuRead

section triggerStatus
variable {s : State} {inst k : Nat} {a : Accepted} (hk : k = leAt a.payload 0 2)
include hk

theorem triggerStatus_outOfRange (h : 512 ≤ k) : s.triggerStatus inst a = .refuse E.range := by subst hk; exact if_pos h

theorem triggerStatus_done {t : Trigger} (ht : t = s.gmu.trig.at k) (h512 : k < 512) (h : owns inst (s.trigOwner k) = true) :
    s.triggerStatus inst a =
      .ok s (leBytes 1 t.st ++ leBytes 1 t.count ++ leBytes 2 0 ++ leBytes 4 t.fireLap ++ leBytes 4 t.fires.toNat) := by
  subst ht hk; simp [State.triggerStatus, Nat.not_le.2 h512, h]

end triggerStatus

/-! ### Captures -/

section capture
variable {s : State} {inst i : Nat} {a : Accepted} {c : Capture} (hi : i = leAt a.payload 0 1)
include hi

theorem captureRead_refused (h : s.captureCheck inst i ≠ 0) : s.captureRead inst a = .refuse (s.captureCheck inst i) := by
  subst hi; exact if_pos h

variable (hc : c = s.gmu.capture.at i) (hpass : s.captureCheck inst i = 0)
include hc hpass

theorem captureRead_done {off n : Nat} {l : List CapEntry} (hoff : off = leAt a.payload 4 4) (hn : n = leAt a.payload 8 4) (h64 : 64 ≤ n)
    (hmax : n ≤ 65536) (hwhole : n % 64 = 0) (hplace : off % 64 = 0)
    (hl : l = ((s.gmu.ring.filter c.covers).drop (off / 64)).take (n / 64)) :
    s.captureRead inst a = .ok s (leBytes 4 (64 * l.length)) (l.flatMap CapEntry.bytes) := by
  subst hi hc hoff hn hl
  rw [State.captureRead, if_neg (by simp [hpass]), if_neg (by omega)]

theorem captureRelease_inUse (h : s.frozen (s.trigOwner c.trig) = true ∨ c.complete = false) :
    s.captureRelease inst a = .refuse E.state := by
  subst hi hc
  rw [State.captureRelease, if_neg (by simp [hpass]), if_pos (by simpa using h)]

theorem captureRelease_done (hfrozen : s.frozen (s.trigOwner c.trig) = false) (h : c.complete = true) :
    s.captureRelease inst a = .ok { s with gmu := { s.gmu with capture := s.gmu.capture.del i } } := by
  subst hi hc
  rw [State.captureRelease, if_neg (by simp [hpass]), if_neg (by simp [hfrozen, h])]

end capture

/-! ### The fabric's database and path sets -/

section lsdbRead
variable {s : State} {inst f n : Nat} {a : Accepted} (hf : f = leAt a.payload 0 2) (hn : n = leAt a.payload 2 2)
include hf hn

theorem lsdbRead_outOfRange (h : 4096 ≤ f ∨ n < 1 ∨ 4096 < n) : s.lsdbRead inst a = .refuse E.range := by subst hf hn; exact if_pos h

theorem lsdbRead_done {l : List Nat} (hl : l = s.devices.filter (fun d => decide (f ≤ d))) (hfirst : f < 4096) (h1 : 1 ≤ n) (hmax : n ≤ 4096) :
    s.lsdbRead inst a = .ok s (leBytes 2 ((l.drop n).head?.getD 0xFFFF) ++ leBytes 2 (min n l.length))
      ((l.take n).flatMap (fun d => s.lsaPayload (s.fab.lsdb.at d))) := by
  subst hf hn hl; exact if_neg (by omega)

end lsdbRead

section pathsetRead
variable {s : State} {inst d : Nat} {a : Accepted} (hd : d = leAt a.payload 0 2)
include hd

theorem pathsetRead_outOfRange (h : 4096 ≤ d) : s.pathsetRead inst a = .refuse E.range := by subst hd; exact if_pos h

theorem pathsetRead_done (h : d < 4096) : s.pathsetRead inst a = .ok s
    (leBytes 1 (s.fab.path.at d).length ++ leBytes 1 0 ++ (List.range 64).flatMap (fun k => leBytes 2 ((s.fab.path.at d).getD k 0))
      ++ (List.range 8).flatMap (fun rc => leBytes 4 (s.fab.credit.at (8 * d + rc)))) := by subst hd; exact if_neg (by omega)

end pathsetRead

end Sys2Proof.Machine
end

section
/-! O49: what the GMU and FAB commands answer and do. -/
namespace Sys2Proof.Machine

/-! ### The rows of the commands serve their commands -/

theorem exec_gmuRead (slot : Nat) (s : State) : exec (.gmuRead slot) s = runs (serve slot Op.gmuRead State.gmuRead) s := rfl

theorem exec_gmuTriggerStatus (slot : Nat) (s : State) :
    exec (.gmuTriggerStatus slot) s = runs (serve slot Op.gmuTriggerStatus State.triggerStatus) s := rfl

theorem exec_gmuCaptureList (slot : Nat) (s : State) :
    exec (.gmuCaptureList slot) s = runs (serve slot Op.gmuCaptureList State.captureList) s := rfl

theorem exec_gmuCaptureRead (slot : Nat) (s : State) :
    exec (.gmuCaptureRead slot) s = runs (serve slot Op.gmuCaptureRead State.captureRead) s := rfl

theorem exec_gmuCaptureRelease (slot : Nat) (s : State) :
    exec (.gmuCaptureRelease slot) s = runs (serve slot Op.gmuCaptureRelease State.captureRelease) s := rfl

theorem exec_fabStatus (slot : Nat) (s : State) : exec (.fabStatus slot) s = runs (serve slot Op.fabStatus State.fabStatus) s := rfl

theorem exec_fabLsdbRead (slot : Nat) (s : State) : exec (.fabLsdbRead slot) s = runs (serve slot Op.fabLsdbRead State.lsdbRead) s := rfl

theorem exec_fabPathsetRead (slot : Nat) (s : State) :
    exec (.fabPathsetRead slot) s = runs (serve slot Op.fabPathsetRead State.pathsetRead) s := rfl

/-- A command that answers with a part for the OUT buffer. -/
theorem runs_answersOut {s u : State} {slot op : Nat} {a : Accepted} {f : State → Nat → Accepted → Reply} {l out : List Byte}
    (h : s.grants slot op a) (hr : f s (slotInst slot) a = .ok u l out) :
    runs (serve slot op f) s = .next (s.keeping (u.post slot a { rstate := 0, status := 0, result := l, atOut := out })) :=
  runs_grants h (by rw [hr]; rfl)

/-- Settles O49: each clause is one reply of its command, carried out by the row that serves it. -/
theorem gridAndFabricCommands : Obligations.GridAndFabricCommands := by
  unfold Obligations.GridAndFabricCommands
  simp only [exec_gmuRead, exec_gmuTriggerStatus, exec_gmuCaptureList, exec_gmuCaptureRead, exec_gmuCaptureRelease, exec_fabStatus,
    exec_fabLsdbRead, exec_fabPathsetRead]
  refine ⟨?read, ?trigger, ?list, ?capture, fun s slot a hg => runs_answers hg rfl, ?lsdb, ?path⟩
  case read =>
    exact fun s slot kind k a hg hkind hk => ⟨fun h => runs_refuses hg (gmuRead_outOfRange hkind hk h),
      fun h2 h1024 h => runs_refuses hg (gmuRead_notOwner hkind hk h2 h1024 h),
      fun h0 h1024 h => runs_answers hg (gmuRead_tap hkind hk h0 h1024 h),
      fun h1 h1024 h => runs_answers hg (gmuRead_triplet hkind hk h1 h1024 h)⟩
  case trigger =>
    exact fun s slot k a t hg hk ht => ⟨fun h => runs_refuses hg (triggerStatus_outOfRange hk h),
      fun h512 h => runs_answers hg (triggerStatus_done hk ht h512 h)⟩
  case list =>
    rintro s slot a _ hg rfl
    exact runs_answers hg rfl
  case capture =>
    intro s slot i a c hi hc
    refine ⟨?_, fun hg => ⟨fun h => runs_refuses hg (captureRead_refused hi h),
      fun off n l hpass hoff hn h64 hmax hwhole hplace hl =>
        runs_answersOut hg (captureRead_done hi hc hpass hoff hn h64 hmax hwhole hplace hl)⟩,
      fun hg hpass => ⟨fun h => runs_refuses hg (captureRelease_inUse hi hc hpass h),
        fun hfrozen h => runs_answers hg (captureRelease_done hi hc hpass hfrozen h)⟩⟩
    subst hc
    simp [State.captureCheck]
  case lsdb =>
    exact fun s slot f n a l hg hf hn hl => ⟨fun h => runs_refuses hg (lsdbRead_outOfRange hf hn h),
      fun hfirst h1 hmax => runs_answersOut hg (lsdbRead_done hf hn hl hfirst h1 hmax)⟩
  case path =>
    exact fun s slot d a hg hd => ⟨fun h => runs_refuses hg (pathsetRead_outOfRange hd h), fun h => runs_answers hg (pathsetRead_done hd h)⟩

end Sys2Proof.Machine
end

section
/-! SUPPORT. The replies of the FAULT commands and of LOG.READ, check by check (R464, R473 to R475, R552 to R554; log entries 39, 43). -/
namespace Sys2Proof.Machine

/-! ### FAULT.LIST -/

/-- The sources with an open record that is not acknowledged. -/
def State.unacked (s : State) : List Nat :=
  (List.range 384).filter (fun k => match (s.fsrc k).record with | some r => !r.acked | none => false)

theorem State.mem_unacked {s : State} {k : Nat} : k ∈ s.unacked ↔ k < 384 ∧ ∃ r, (s.fsrc k).record = some r ∧ r.acked = false := by
  rw [State.unacked, List.mem_filter, List.mem_range]
  cases (s.fsrc k).record <;> simp

theorem faultList_done {s : State} {inst : Nat} {a : Accepted} :
    s.faultList inst a = .ok s (leBytes 48 (maskOf s.faulty) ++ leBytes 48 (maskOf s.unacked)) := rfl

/-! ### FAULT.STATUS and FAULT.ACK -/

theorem State.sourceCheck_eq (s : State) (i k : Nat) :
    s.sourceCheck i k = if 384 ≤ k then E.range else if s.attributed i k = true then 0 else E.notOwner := rfl

section source
variable {s : State} {inst k : Nat} {a : Accepted} (hk : k = leAt a.payload 0 2)
include hk

theorem faultStatus_refused (h : s.sourceCheck inst k ≠ 0) : s.faultStatus inst a = .refuse (s.sourceCheck inst k) := by
  subst hk; exact if_pos h

theorem faultAck_refused (h : s.sourceCheck inst k ≠ 0) : s.faultAck inst a = .refuse (s.sourceCheck inst k) := by
  subst hk; exact if_pos h

variable (hpass : s.sourceCheck inst k = 0)
include hpass

theorem faultStatus_done : s.faultStatus inst a = .ok s (s.faultReport k) := by
  subst hk; exact if_neg (not_not.2 hpass)

theorem faultAck_notInFault (h : s.inFault k = false) : s.faultAck inst a = .refuse E.state := by
  subst hk; rw [State.faultAck, if_neg (not_not.2 hpass), h]; rfl

theorem faultAck_done (h : s.inFault k = true) :
    s.faultAck inst a = .ok (s.updSrc k (fun f => { f with record := f.record.map (fun r => { r with acked := true }) })) := by
  subst hk; rw [State.faultAck, if_neg (not_not.2 hpass), h]; rfl

end source

/-! ### FAULT.POLICY_SET -/

section policySet
variable {s : State} {inst k sev rung : Nat} {a : Accepted} (hk : k = leAt a.payload 0 2) (hsev : sev = leAt a.payload 2 1)
  (hrung : rung = leAt a.payload 3 1)
include hk hsev hrung

theorem policySet_outOfRange (h : 384 ≤ k ∨ 4 < sev ∨ rung < 1 ∨ 4 < rung ∨ (rung = 2 ∧ (sourceInfo k).climbs = false)) :
    s.policySet inst a = .refuse E.range := by
  subst hk hsev hrung; exact if_pos h

/-- The policy is noted, and a source in fault keeps the rung it is on. -/
theorem policySet_done (h384 : k < 384) (h4 : sev ≤ 4) (h1 : 1 ≤ rung) (hmax : rung ≤ 4) (hclimb : rung ≠ 2 ∨ (sourceInfo k).climbs = true) :
    s.policySet inst a = .ok ((s.updSrc k (fun f =>
        { f with policy := some (sev, rung), rung := if s.inFault k then some (s.rung k) else f.rung })).keepPersist
          (fun p => { p with policy := p.policy.put k (some (sev, rung)) })) := by
  subst hk hsev hrung
  refine if_neg ?_
  rintro (h | h | h | h | ⟨h2, hno⟩)
  case inr.inr.inr.inr => exact hclimb.elim (· h2) (by simp [hno])
  all_goals omega

end policySet

/-! ### LOG.READ -/

/-- The records that fit are a first part of the list, and the next one has no room. -/
theorem fitFirst_spec (l : List Rec) (room : Nat) : ∃ rest, l = fitFirst room l ++ rest ∧ ((fitFirst room l).map Rec.len).sum ≤ room
    ∧ ∀ r, rest.head? = some r → room < ((fitFirst room l).map Rec.len).sum + r.len := by
  induction l generalizing room with
  | nil => exact ⟨[], rfl, Nat.zero_le _, nofun⟩
  | cons r l ih =>
    by_cases hfits : r.len ≤ room
    · obtain ⟨rest, hl, hsum, hnext⟩ := ih (room - r.len)
      rw [fitFirst, if_pos hfits]
      refine ⟨rest, congrArg (r :: ·) hl, ?_, fun q hq => ?_⟩
      · simp only [List.map_cons, List.sum_cons]; omega
      · have := hnext q hq
        simp only [List.map_cons, List.sum_cons]; omega
    · rw [fitFirst, if_neg hfits]
      refine ⟨r :: l, rfl, Nat.zero_le _, fun q hq => ?_⟩
      obtain rfl : r = q := by simpa using hq
      simpa using hfits

section logRead
variable {s : State} {inst src f n : Nat} {a : Accepted} (hsrc : src = leAt a.payload 0 1) (hn : n = leAt a.payload 8 4)
include hsrc hn

theorem logRead_outOfRange (h : 2 ≤ src ∨ n < 1024 ∨ 65536 < n) : s.logRead inst a = .refuse E.range := by
  subst hsrc hn; exact if_pos h

theorem logRead_done {l : List Rec} (hf : f = leAt a.payload 4 4) (h2 : src < 2) (hmin : 1024 ≤ n) (hmax : n ≤ 65536)
    (hl : l = fitFirst n ((s.recd.source src).filter (fun r => !later 32 f r.seq && (decide (inst = 0) || r.ev.inst == inst)))) :
    s.logRead inst a = .ok s (leBytes 4 ((l.head?.map (·.seq)).getD f) ++ leBytes 4 ((l.getLast?.map (·.seq)).getD ((f + 2 ^ 32 - 1) % 2 ^ 32))
      ++ leBytes 4 (((s.recd.source src).head?.map (·.seq)).getD 0) ++ leBytes 4 (recBytes l)) (l.flatMap Rec.bytes) := by
  subst hsrc hf hn hl; exact if_neg (by omega)

end logRead

end Sys2Proof.Machine
end

section
/-! O55: what the FAULT and LOG commands answer and do. -/
namespace Sys2Proof.Machine

/-! ### The rows of the commands serve their commands -/

theorem exec_faultList (slot : Nat) (s : State) : exec (.faultList slot) s = runs (serve slot Op.faultList State.faultList) s := rfl

theorem exec_faultStatus (slot : Nat) (s : State) :
    exec (.faultStatus slot) s = runs (serve slot Op.faultStatus State.faultStatus) s := rfl

theorem exec_faultAck (slot : Nat) (s : State) : exec (.faultAck slot) s = runs (serve slot Op.faultAck State.faultAck) s := rfl

theorem exec_faultPolicySet (slot : Nat) (s : State) :
    exec (.faultPolicySet slot) s = runs (serve slot Op.faultPolicySet State.policySet) s := rfl

theorem exec_logRead (slot : Nat) (s : State) : exec (.logRead slot) s = runs (serve slot Op.logRead State.logRead) s := rfl

/-- Settles O55: each clause is one reply of its command, carried out by the row that serves it (the rung that a source in fault keeps
when its policy changes is log entry 39). -/
theorem faultAndLogCommands : Obligations.FaultAndLogCommands := by
  unfold Obligations.FaultAndLogCommands
  simp only [exec_faultList, exec_faultStatus, exec_faultAck, exec_faultPolicySet, exec_logRead]
  refine ⟨fun s slot a hg => ⟨s.unacked, runs_answers hg faultList_done, fun k => State.mem_unacked⟩, State.sourceCheck_eq,
    ?source, ?policy, ?persist, ?report, ?log⟩
  case source =>
    exact fun s slot k a hk =>
      ⟨fun h => ⟨fun hg => runs_refuses hg (faultStatus_refused hk h), fun hg => runs_refuses hg (faultAck_refused hk h)⟩,
        fun hpass => ⟨fun hg => runs_answers hg (faultStatus_done hk hpass), fun hg h => runs_refuses hg (faultAck_notInFault hk hpass h),
          fun hg h => runs_answers hg (faultAck_done hk hpass h)⟩⟩
  case policy =>
    exact fun s slot k sev rung a hg hk hsev hrung => ⟨fun h => runs_refuses hg (policySet_outOfRange hk hsev hrung h),
      fun h384 h4 h1 hmax hclimb => ⟨_, _, runs_answers hg (policySet_done hk hsev hrung h384 h4 h1 hmax hclimb), rfl, rfl⟩⟩
  case persist =>
    rintro b key f _ rfl
    exact ⟨fun h => if_pos h, fun h => if_neg (by simp [h])⟩
  case report =>
    rintro s k _ _ rfl rfl
    rfl
  case log =>
    intro s slot src n f a hg hsrc hf hn
    refine ⟨fun h => runs_refuses hg (logRead_outOfRange hsrc hn h), fun h2 hmin hmax => ?_⟩
    obtain ⟨rest, hall, hsum, hnext⟩ := fitFirst_spec
      ((s.recd.source src).filter (fun r => !later 32 f r.seq && (decide (slotInst slot = 0) || r.ev.inst == slotInst slot))) n
    exact ⟨_, rest, runs_answersOut hg (logRead_done hsrc hn hf h2 hmin hmax rfl), hall, hsum, hnext⟩

end Sys2Proof.Machine
end

section
/-! SUPPORT. The rows of the measurement unit, case by case (R303, R304, R306, R308, R311, R318, R319, R324, R328). -/
namespace Sys2Proof.Machine

/-! ### GMU_COPY_ENTRY -/

theorem State.copyEntry_oldest {s : State} {l m : List (Nat × Nat)} {k n : Nat} (hq : s.gmu.queue = l ++ (k, n) :: m)
    (hl : ∀ e ∈ l, (s.pkt.at e.2).gmuReady = false) (hn : (s.pkt.at n).gmuReady = true) :
    s.copyEntry = State.reap { s.gmuCopy k n with
      gmu := { (s.gmuCopy k n).gmu with queue := (s.gmuCopy k n).gmu.queue.filter (fun e => e.2 != n) } } n := by
  have hfind : s.gmu.queue.find? (fun e => (s.pkt.at e.2).gmuReady) = some (k, n) := by
    rw [hq, List.find?_append, List.find?_eq_none.2 (fun e he => by simp [hl e he]), Option.none_or]
    exact List.find?_cons_of_pos hn
  simp only [State.copyEntry, hfind]

theorem State.copyEntry_none {s : State} (h : ∀ e ∈ s.gmu.queue, (s.pkt.at e.2).gmuReady = false) : s.copyEntry = s := by
  have hfind : s.gmu.queue.find? (fun e => (s.pkt.at e.2).gmuReady) = none := List.find?_eq_none.2 (fun e he => by simp [h e he])
  simp only [State.copyEntry, hfind]

section gmuCopy
variable {s : State} {k n : Nat}

theorem State.gmuCopy_disabled (h : s.parOn P.tapEnable k = false) : s.gmuCopy k n = s := if_pos (congrArg (!·) h)

variable (hon : s.parOn P.tapEnable k = true)
include hon

theorem State.gmuCopy_enabled : s.gmuCopy k n =
    if (s.pkt.at n).r60 then s.count Stat.gmuRxErrors k
    else if s.parOn P.requirePass k && decide ((s.pkt.at n).verdict ≠ .pass) then s.count Stat.gmuUnverified k
    else match (s.pkt.at n).samples (s.par P.channels k) with
    | none => s.count Stat.gmuParseErrors k
    | some (sim, l) =>
      if l.any (fun a => decide (s.cfg.active.smpHz k ≤ a.cnt)) then s.count Stat.gmuParseErrors k
      else if sim && !s.parOn P.simMode k then s.count Stat.svSimulated k
      else s.forEach l (fun s a => s.sample k s.time.dev sim a) := by
  have hon : s.cfg.active.on P.tapEnable k = true := hon
  simp only [State.gmuCopy, hon, Bool.not_true, Bool.false_eq_true, if_false]
  rfl

theorem State.gmuCopy_r60 (h : (s.pkt.at n).r60 = true) : s.gmuCopy k n = s.count Stat.gmuRxErrors k := by
  rw [State.gmuCopy_enabled hon, if_pos h]

variable (hgood : (s.pkt.at n).r60 = false)
include hgood

theorem State.gmuCopy_unverified (hpass : s.parOn P.requirePass k = true) (h : (s.pkt.at n).verdict ≠ .pass) :
    s.gmuCopy k n = s.count Stat.gmuUnverified k := by
  simp [State.gmuCopy_enabled hon, hgood, hpass, h]

theorem State.gmuCopy_unparsed (hpass : s.parOn P.requirePass k = false) (h : (s.pkt.at n).samples (s.par P.channels k) = none) :
    s.gmuCopy k n = s.count Stat.gmuParseErrors k := by
  simp [State.gmuCopy_enabled hon, hgood, hpass, h]

end gmuCopy

/-! ### STREAM_LOST -/

section streamLost
variable {s : State} {k : Nat} (hseen : (s.gmu.tap.at k).lost = false)
include hseen

theorem State.streamLost_due (hon : s.parOn P.tapEnable k = true) (h : (s.gmu.tap.at k).lastUsed + s.par P.lossUs k * 1000 ≤ s.time.mono) : s.streamLost k =
    s.updTap k (fun t => { t.restart with lost := true, ch := t.ch.mapAll (fun _ h => { pts := { t := s.time.dev } :: h.pts }) }) := by
  simp [State.streamLost, hon, hseen, h]

theorem State.streamLost_early (h : s.time.mono < (s.gmu.tap.at k).lastUsed + s.par P.lossUs k * 1000) : s.streamLost k = s := by
  simp [State.streamLost, hseen, Nat.not_le.2 h]

end streamLost

/-! ### GMU_FINISH -/

theorem State.finish_none {s : State} {k : Nat} (h : (s.gmu.tap.at k).closing = []) : s.finish k = s := by
  simp only [State.finish, h]

theorem State.outputs_empty {s : State} {k : Nat} {r : GRecord} (h : bit r.health 0 = false) : s.outputs k r = (s, r) :=
  if_pos (congrArg (!·) h)

theorem State.evalSource_none {s : State} {trip : Bool} {k : Nat} {prev : Option GRecord} (h : s.cfg.active.triggersOn trip k = []) :
    s.evalSource trip k prev = s := by
  simp only [State.evalSource, h, State.forEach_nil]

theorem State.tapFired_none {s : State} {k : Nat} (h : s.cfg.active.triggersOn false k = []) : s.tapFired k = false := by
  simp only [State.tapFired, h, List.any_nil]

/-- A lap without a sample, of a tap that no trigger and no triplet names, is done as it closed. -/
theorem State.finish_plain {s : State} {k : Nat} {r : GRecord} {rest : List GRecord} (hc : (s.gmu.tap.at k).closing = r :: rest)
    (h0 : bit r.health 0 = false) (h11 : bit r.health 11 = false) (htrig : s.cfg.active.triggersOn false k = [])
    (htrip : s.cfg.active.tripletsOf k = []) :
    s.finish k = (s.updTap k (fun t => { t with closing := rest, done := t.done ++ [r] })).updTap k
      (fun t => { t with done := t.done.dropLast ++ [r] }) := by
  have hcfg (f : TapState → TapState) : (s.updTap k f).cfg = s.cfg := rfl
  simp only [State.finish, hc, State.outputs_empty h0]
  rw [State.evalSource_none (by rw [hcfg, htrig]), State.tapFired_none (by rw [hcfg, htrig])]
  simp only [hcfg, State.updTap_frame, htrip, State.forEach_nil, h11]
  rfl

/-! ### Outputs -/

theorem State.orFree_some (s : State) (x i w : Nat) : s.orFree (some x) i w = x := by rw [State.orFree, Option.getD_some]

section outputs
variable {s : State} {k : Nat} {r : GRecord} {o : ChanOut} {p : Point} {l : List Point} (h0 : bit r.health 0 = true)
  (h16 : bit r.health 16 = false) (hchans : r.chans = [o]) (hpts : o.pts = p :: l)
include h0 h16 hchans hpts

/-- The one channel of a lap whose RMS and phasor are valid. -/
theorem State.outputs_one : (s.outputs k r).2.chans = [{ o with
    rms := s.cfg.active.rms k 0 o.sumsq
    re := singleOf (engOf (s.par P.chFullScale (8 * k)) p.re) (2 ^ 200), im := singleOf (engOf (s.par P.chFullScale (8 * k)) p.im) (2 ^ 200)
    f := s.orFree (if p.okF then p.f.map (fun x => singleOf x (2 ^ 40)) else none) 2 32
    rocof := s.orFree (if p.okR then p.rocof.map (fun x => singleOf x (2 ^ 40)) else none) 3 32
    thd := s.orFree o.distortion 4 32 }] := by
  have hhead : o.pts.headD { t := 0 } = p := by rw [hpts]; rfl
  unfold State.outputs
  simp only [h0, hchans, Bool.not_true, Bool.false_eq_true, if_false, List.length_singleton, List.range_one, List.foldl_cons, List.foldl_nil,
    List.getD_cons_zero, List.set_cons_zero, hhead, Nat.add_zero, h16, Bool.not_false, if_true, State.orFree_some, State.par]

end outputs

/-! ### Triggers -/

/-- A fire leaves every trigger's state but its own as it was, and what follows a fire leaves that alone too. -/
theorem State.trig_askProfile (s : State) (k rank profile : Nat) : (s.askProfile k rank profile).gmu.trig = s.gmu.trig := by
  unfold State.askProfile
  exact s.forEach_keeps (fun u => u.gmu.trig) _ _ (fun u p => by split <;> simp)

theorem State.trig_startCapture (s : State) (k tf : Nat) (intr : Bool) : (s.startCapture k tf intr).gmu.trig = s.gmu.trig := by
  unfold State.startCapture
  dsimp only
  split
  · rfl
  · split
    · simp
    · split_ifs <;> simp

theorem State.trig_fire (s : State) (k : Nat) (q : Quantity) (value : Nat) : (s.fire k q value).gmu.trig =
    (s.updTrig k (fun t => { t with st := 2, count := 0, fireLap := q.lap, fires := t.fires + 1, clear := 0, cleared := false,
                                    quiet := bit q.health 5 || bit q.health 6 })).gmu.trig := by
  unfold State.fire
  dsimp only
  split_ifs <;> simp [State.trig_askProfile, State.trig_startCapture]

theorem State.trig_updTrig (s : State) (k : Nat) (f : Trigger → Trigger) : (s.updTrig k f).gmu.trig.at k = f (s.gmu.trig.at k) :=
  Tab.at_upd_same _ _ _

/-- One evaluated lap of a trigger that is not FIRED. -/
theorem State.evalTrigger_unfired {s : State} {k : Nat} {q : Quantity} {lost : Bool} (hst : (s.gmu.trig.at k).st ≠ 2) :
    ∃ value, s.evalTrigger k q lost =
      if (trigCondition (s.par P.trigType k) (s.par P.trigThreshold k) (s.par P.trigHyst k) q lost).1 then
        if (s.gmu.trig.at k).count + 1 = s.par P.pickupLaps k then s.fire k q value
        else s.updTrig k (fun t => { t with st := 1, count := (s.gmu.trig.at k).count + 1 })
      else s.updTrig k (fun t => { t with st := 0, count := 0 }) := by
  unfold State.evalTrigger
  dsimp only
  rw [if_neg hst]
  exact ⟨_, rfl⟩

/-! ### CAPTURE_POST_END -/

section postEnd
variable {s : State} {i : Nat} {c : Capture} (hc : c = s.gmu.capture.at i)
include hc

theorem State.postEnd_early (h : s.time.dev < c.stop) : s.postEnd i = s := by
  subst hc; simp [State.postEnd, Nat.not_le.2 h]

theorem State.postEnd_due {inst : Nat} (hheld : c.held = true) (hopen : c.complete = false)
    (hinst : inst = s.par P.tapInstance (s.cfg.active.trigTap c.trig)) (h : c.stop ≤ s.time.dev) :
    s.postEnd i = if c.intr then ((({ s with gmu := { s.gmu with
      capture := s.gmu.capture.put i { c with complete := true } } }).ruleEvent 324 c.trig 1 [i] inst).cause inst 2) else
      (({ s with gmu := { s.gmu with capture := s.gmu.capture.put i { c with complete := true } } }).ruleEvent 324 c.trig 1 [i] inst) := by
  subst hc hinst
  simp only [State.postEnd, hheld, hopen, h, Bool.not_false, Bool.and_self, decide_true, if_true]
  rfl

end postEnd

/-! ### PMU_CFG_SEND -/

/-- A CFG-2 frame begins with its sync word and its length. -/
theorem State.cfg2Body_take (s : State) (o : Nat) :
    (s.cfg2Body o).take 4 = beBytes 2 0xAA32 ++ beBytes 2 (54 + 20 * s.par P.pmuNph o) := by
  simp [State.cfg2Body, State.par, List.take_append, List.append_assoc]

section cfgSend
variable {s : State} {o : Nat}

theorem State.cfgSend_due (ho : o < 8) (hon : s.parOn P.pmuEnable o = true)
    (h : (s.gmu.pmu.at o).sentCfg = false ∨ (s.gmu.pmu.at o).lastCfg + 1000000000 * s.par P.pmuCfgS o ≤ s.time.mono) :
    s.cfgSend o = s.pmuCfg o := by
  rcases h with h | h <;> simp [State.cfgSend, ho, hon, h]

theorem State.cfgSend_early (hsent : (s.gmu.pmu.at o).sentCfg = true)
    (h : s.time.mono < (s.gmu.pmu.at o).lastCfg + 1000000000 * s.par P.pmuCfgS o) : s.cfgSend o = s := by
  simp [State.cfgSend, hsent, Nat.not_le.2 h]

end cfgSend

end Sys2Proof.Machine
end

section
/-! O36: what the rows of the measurement unit do. -/
namespace Sys2Proof.Machine

theorem exec_gmuCopyEntry (s : State) : exec .gmuCopyEntry s = runs (fun s => s.copyEntry) s := rfl

theorem exec_streamLost (k : Nat) (s : State) : exec (.streamLost k) s = runs (fun s => s.streamLost k) s := rfl

theorem exec_gmuFinish (k : Nat) (s : State) : exec (.gmuFinish k) s = runs (fun s => s.finish k) s := rfl

theorem exec_capturePostEnd (i : Nat) (s : State) : exec (.capturePostEnd i) s = runs (fun s => s.postEnd i) s := rfl

theorem exec_pmuCfgSend (o : Nat) (s : State) : exec (.pmuCfgSend o) s = runs (fun s => s.cfgSend o) s := rfl

/-- Settles O36: each clause is one case of a row of the unit, of a channel's outputs or of a trigger's evaluation. -/
theorem gridRowsMeasure : Obligations.GridRowsMeasure := by
  unfold Obligations.GridRowsMeasure
  simp only [exec_gmuCopyEntry, exec_streamLost, exec_gmuFinish, exec_capturePostEnd, exec_pmuCfgSend]
  refine ⟨fun s l m k n hq hl hn => ⟨_, rfl, runs_keeping (State.copyEntry_oldest hq hl hn)⟩,
    fun s h => runs_to (State.copyEntry_none h) rfl rfl, ?copy, ?lost, ?finish, fun s k h => runs_to (State.finish_none h) rfl rfl,
    ?outputs, ?trigger, fun t h q lost => ⟨rfl, rfl, rfl⟩, ?capture, ?cfg⟩
  case copy =>
    exact fun s k n => ⟨State.gmuCopy_disabled, fun hon => ⟨State.gmuCopy_r60 hon, State.gmuCopy_unverified hon, State.gmuCopy_unparsed hon⟩⟩
  case lost =>
    exact fun s k hon hseen => ⟨fun h => runs_to (State.streamLost_due hseen hon h) rfl rfl,
      fun h => runs_to (State.streamLost_early hseen h) rfl rfl⟩
  case finish =>
    refine fun s k r rest hc h0 h11 htrig htrip => ⟨_, runs_to (State.finish_plain hc h0 h11 htrig htrip) rfl rfl, rfl, ?_, fun j hj => ?_⟩
    · simp [State.updTap]
    · simp [State.updTap, Tab.at_upd_other _ _ hj]
  case outputs =>
    intro s k r o p l h0 h16 hchans hpts
    refine ⟨_, State.outputs_one h0 h16 hchans hpts, rfl, rfl, rfl, fun f hok hf => ?_, fun f hok hf => ?_, rfl⟩
    · rw [hok, hf]; rfl
    · rw [hok, hf]; rfl
  case trigger =>
    rintro s k q lost _ rfl hst
    obtain ⟨value, heval⟩ := State.evalTrigger_unfired (q := q) (lost := lost) hst
    refine ⟨fun hc => ⟨fun h => ?_, fun h => ?_⟩, fun hc => ?_⟩
    · rw [heval, if_pos hc, if_neg h, State.trig_updTrig]; exact ⟨rfl, rfl⟩
    · rw [heval, if_pos hc, if_pos h, State.trig_fire, State.trig_updTrig]; exact ⟨rfl, rfl, rfl⟩
    · rw [heval, if_neg (by simp [hc]), State.trig_updTrig]; exact ⟨rfl, rfl⟩
  case capture =>
    intro s i c inst hc hheld hopen hinst
    refine ⟨fun h hintr => ?_, fun h hintr => ?_, fun h => runs_to (State.postEnd_early hc h) rfl rfl⟩
    · exact runs_to ((State.postEnd_due hc hheld hopen hinst h).trans (if_neg (by simp [hintr]))) (by simp) (by simp)
    · exact runs_to ((State.postEnd_due hc hheld hopen hinst h).trans (if_pos hintr)) (by simp) (by simp)
  case cfg =>
    exact fun s o ho hon => ⟨fun h => ⟨s.cfg2Body_take o, _, rfl, runs_keeping (State.cfgSend_due ho hon h)⟩,
      fun hsent h => runs_to (State.cfgSend_early hsent h) rfl rfl⟩

end Sys2Proof.Machine
end

section
/-! SUPPORT. Tables written in a walk, and what a table does not list. -/
namespace Sys2Proof

variable {α β : Type} [Inhabited α]

theorem Tab.at_unlisted (t : Tab α) {k : Nat} (h : k ∉ t.keys) : t.at k = default := by
  induction t with
  | nil => rfl
  | cons e t ih =>
    obtain ⟨hne, hrest⟩ := not_or.1 (mt List.mem_cons.2 h)
    rw [Tab.at_cons, if_neg hne, ih hrest]

variable [DecidableEq α]

/-- A walk that writes a table at the keys of a list: one that is written reads as the last write there. -/
theorem Tab.at_foldl_put {key : β → Nat} {v : β → α} {l : List β} {k : Nat} {x : α} (hv : ∀ b ∈ l, key b = k → v b = x) (t : Tab α) :
    (l.foldl (fun t b => Tab.put t (key b) (v b)) t).at k = if k ∈ l.map key then x else t.at k := by
  induction l generalizing t with
  | nil => rfl
  | cons b l ih =>
    rw [List.foldl_cons, ih (fun c hc => hv c (List.mem_cons_of_mem _ hc)), List.map_cons]
    by_cases hk : key b = k
    · subst hk; simp [hv b List.mem_cons_self rfl]
    · simp [Tab.at_put_other _ _ (Ne.symm hk), Ne.symm hk]

omit [DecidableEq α] in
/-- A walk that drops the keys of a list from a table. -/
theorem Tab.at_foldl_del {key : β → Nat} {l : List β} {k : Nat} (hk : k ∈ l.map key) (t : Tab α) :
    (l.foldl (fun t b => Tab.del t (key b)) t).at k = default := by
  have hkeeps (l : List β) (t : Tab α) (h : t.at k = default) : (l.foldl (fun t b => Tab.del t (key b)) t).at k = default := by
    induction l generalizing t with
    | nil => exact h
    | cons b l ih =>
      refine ih _ ?_
      by_cases hb : k = key b
      · rw [hb, Tab.at_del_same]
      · rw [Tab.at_del_other _ hb, h]
  induction l generalizing t with
  | nil => cases hk
  | cons b l ih =>
    rcases List.mem_cons.1 hk with rfl | hk
    · exact hkeeps l _ (Tab.at_del_same ..)
    · exact ih hk _

end Sys2Proof
end

section
/-! SUPPORT. Identity, hellos, link states and path sets of the fabric, case by case (R330, R333 to R335, R341; log entries 40, 82). -/
namespace Sys2Proof.Machine

/-! ### Control frames -/

section controlOk
variable {s : State} {port typ : Nat} {bytes : List Byte} (hon : s.parOn P.fabricEnable = true) (hrole : s.parOn P.portRole port = true)
  (hup : s.isUp port = true)
include hon hrole hup

theorem State.controlOk_badHeader (h : s.relayHeaderOk bytes = false) : s.controlOk port typ bytes = (s.count Stat.relayHdrErrors, false) := by
  simp [State.controlOk, hon, hrole, hup, h]

theorem State.controlOk_ofType (h : s.relayHeaderOk bytes = true) (ht : H.type.get (beAt bytes 0 16) = typ) :
    s.controlOk port typ bytes = (s, true) := by
  simp [State.controlOk, hon, hrole, hup, h, ht]

end controlOk

/-! ### ID_SETTLE -/

section settleId
variable {s : State}

theorem State.settleId_calm (hon : s.parOn P.fabricEnable = true) (hmode : s.par P.idMode = 1) (hopen : s.fab.settled = false)
    (hno : s.idConflict = false) (h : 4 ≤ s.fab.calm) :
    s.settleId = ({ s with fab := { s.fab with settled := true } }).ruleEvent 330 s.fab.id 0 := by
  simp [State.settleId, hon, hmode, hopen, hno, h, State.updFab]

theorem State.settleId_early (h : s.fab.calm < 4) : s.settleId = s := by
  simp [State.settleId, Nat.not_le.2 h]

end settleId

/-! ### HELLO_RECEIVE and HELLO_MISS_EXPIRE -/

theorem State.hello_badHeader {s t : State} {port : Nat} {bytes : List Byte} (h : s.controlOk port 1 bytes = (t, false)) :
    s.hello port bytes = t := by simp only [State.hello, h]

section hello
variable {s : State} {port : Nat} {bytes : List Byte} (hok : s.controlOk port 1 bytes = (s, true)) (hlen : 20 ≤ (bytes.drop 16).length)
include hok hlen

theorem State.hello_other (h : beAt (bytes.drop 16) 0 4 ≠ s.par P.fabricId) :
    s.hello port bytes = (s.ruleEvent 333 port 0 [beAt (bytes.drop 16) 0 4]).raise 191 0 := by
  simp only [State.hello, hok, if_neg (Nat.not_lt.2 hlen), if_pos h]

/-- The adjacency that a HELLO forms. -/
def helloAdjacency (bytes : List Byte) : Adjacency :=
  { up := true, peer := H.src.get (beAt bytes 0 16), serial := beAt (bytes.drop 16) 4 8, nonce := beAt (bytes.drop 16) 12 4 }

theorem State.hello_same (h : beAt (bytes.drop 16) 0 4 = s.par P.fabricId) : ∃ changed : Bool,
    ((s.fab.adj.at port).up = false → changed = true) ∧ s.hello port bytes = s.updFab (fun f => { f with
      adj := f.adj.put port (helloAdjacency bytes), lsaDue := f.lsaDue || changed, stale := f.stale || changed }) := by
  refine ⟨!(s.fab.adj.at port).up || (s.fab.adj.at port).peer != (helloAdjacency bytes).peer
    || (s.fab.adj.at port).serial != (helloAdjacency bytes).serial, fun hdown => by simp [hdown], ?_⟩
  simp only [State.hello, hok, if_neg (Nat.not_lt.2 hlen), if_neg (not_not.2 h)]
  rfl

end hello

section helloMiss
variable {s : State} {port : Nat}

theorem State.helloMiss_due (hup : (s.fab.adj.at port).up = true) (h : s.par P.helloMiss ≤ (s.fab.adj.at port).miss) :
    s.helloMiss port = s.relayDown port false := by simp [State.helloMiss, hup, h]

theorem State.helloMiss_early (h : (s.fab.adj.at port).miss < s.par P.helloMiss) : s.helloMiss port = s := by
  simp [State.helloMiss, Nat.not_le.2 h]

end helloMiss

/-! ### LSA_SEND and LSA_AGE_OUT -/

section sendLsa
variable {s : State}

theorem State.sendLsa_due (hon : s.parOn P.fabricEnable = true) (h : s.fab.lsaDue = true ∨ s.fab.lsaAt + 1000000000 ≤ s.time.mono) {u : State}
    (hu : u = { s with fab := { s.fab with lsaSeq := (s.fab.lsaSeq + 1) % 2 ^ 32, lsaDue := false, lsaAt := s.time.mono } }) :
    s.sendLsa = u.forEach s.adjacent (fun v p => v.sendControl p (v.controlFrame 0 3 u.lsaBody)) := by
  subst hu; exact if_pos (by simpa [hon] using h)

theorem State.sendLsa_early (hdue : s.fab.lsaDue = false) (h : s.time.mono < s.fab.lsaAt + 1000000000) : s.sendLsa = s :=
  if_neg (by simp [hdue, Nat.not_le.2 h])

end sendLsa

section lsaAge
variable {s : State} {d : Nat}

theorem State.lsaAge_due (hp : (s.fab.lsdb.at d).present = true) (h : (s.fab.lsdb.at d).at_ + 3000000000 ≤ s.time.mono) :
    s.lsaAge d = { s with fab := { s.fab with
      lsdb := s.fab.lsdb.put d { s.fab.lsdb.at d with present := false, entries := [] }, stale := true } } := by
  simp [State.lsaAge, hp, h, State.updFab]

theorem State.lsaAge_early (h : s.time.mono < (s.fab.lsdb.at d).at_ + 3000000000) : s.lsaAge d = s := by
  simp [State.lsaAge, Nat.not_le.2 h]

end lsaAge

/-! ### A device that is new -/

/-- A context that holds nothing loses synchronism. -/
theorem State.unsync_empty {s : State} {x : Nat} (h : (s.fab.anchor.at x).held = []) :
    s.unsync x = s.updAnchor x (fun a => { a with sync := false, lost := [] }) := by
  simp only [State.unsync, h]; rfl

/-- The counts of a new device in some of its classes, with its contexts as they were. -/
def State.newCounts (s : State) (d : Nat) (nonce : Bool) (l : List Nat) : State := s.updFab (fun f => { f with
  credit := l.foldl (fun t k => Tab.put t (8 * d + k) (s.par P.creditInit k)) f.credit
  seqctr := l.foldl (fun t k => Tab.del t (8 * d + k)) f.seqctr
  lastCum := if nonce then l.foldl (fun t k => Tab.del t (8 * d + k)) f.lastCum else f.lastCum })

theorem State.newCounts_walk (d : Nat) (nonce : Bool) (l : List Nat) (s : State) : s.forEach l (fun s k => s.updFab (fun f => { f with
    credit := f.credit.put (8 * d + k) (s.par P.creditInit k), seqctr := f.seqctr.del (8 * d + k)
    lastCum := if nonce then f.lastCum.del (8 * d + k) else f.lastCum })) = s.newCounts d nonce l := by
  induction l generalizing s with
  | nil => cases nonce <;> rfl
  | cons k l ih =>
    rw [State.forEach_cons, ih]
    cases nonce <;> rfl

/-- A device that is new, whose contexts hold nothing, changes its counts, and with a new nonce its contexts. -/
theorem State.newDevice_idle {s : State} {d : Nat} (nonce : Bool) (h : ∀ k < 8, (s.fab.anchor.at (8 * d + k)).held = []) :
    ∃ c, s.newDevice d nonce = (s.newCounts d nonce (List.range 8)).updFab (fun f => { f with anchor := c }) := by
  rw [State.newDevice, State.newCounts_walk]
  cases nonce
  case false => exact ⟨s.fab.anchor, rfl⟩
  case true =>
    have hwalk := State.forEach_invariant (s := s.newCounts d true (List.range 8)) (l := List.range 8) (f := fun s k => s.unsync (8 * d + k))
      (P := fun u => (∃ c, u = (s.newCounts d true (List.range 8)).updFab (fun f => { f with anchor := c })) ∧ ∀ k < 8, (u.fab.anchor.at (8 * d + k)).held = [])
      (fun u ⟨⟨c, hu⟩, hheld⟩ k hk => ?_) ⟨⟨_, rfl⟩, h⟩
    · exact hwalk.1
    · have hempty := hheld k (List.mem_range.1 hk)
      rw [State.unsync_empty hempty]
      refine ⟨⟨_, by rw [hu]; rfl⟩, fun j hj => ?_⟩
      by_cases hjk : j = k
      · subst hjk; simpa [State.updAnchor, State.updFab] using hempty
      · simpa [State.updAnchor, State.updFab, Tab.at_upd_other _ _ (show 8 * d + j ≠ 8 * d + k by omega)] using hheld j hj

/-! ### LSA_RECEIVE -/

/-- An LSA of another device, whole and of this fabric, at a relay port with an adjacency. -/
structure State.LsaFits (s : State) (port d n : Nat) (bytes body : List Byte) : Prop where
  ok : s.controlOk port 3 bytes = (s, true)
  hbody : body = bytes.drop 16
  source : d = H.src.get (beAt bytes 0 16)
  count : n = beAt body 20 2
  most : n ≤ 512
  whole : 22 + 4 * n ≤ body.length
  fabric : beAt body 0 4 = s.par P.fabricId
  other : beAt body 4 8 ≠ serialNo
  adjacent : (s.fab.adj.at port).up = true

/-- The entry that an LSA leaves in the database. -/
def State.lsaEntry (s : State) (n : Nat) (body : List Byte) : Lsa :=
  { present := true, serial := beAt body 4 8, nonce := beAt body 12 4, seq := beAt body 16 4, at_ := s.time.mono
    entries := (List.range n).map (fun i => beAt body (22 + 4 * i) 4) }

section lsa
variable {s : State} {port d n : Nat} {bytes body : List Byte} (hfits : s.LsaFits port d n bytes body)
include hfits

theorem State.lsa_notNewer (hp : (s.fab.lsdb.at d).present = true) (hnonce : beAt body 12 4 = (s.fab.lsdb.at d).nonce)
    (h : later 32 (beAt body 16 4) (s.fab.lsdb.at d).seq = false) : s.lsa port bytes = s := by
  obtain ⟨hok, rfl, rfl, rfl, hmost, hwhole, hfabric, hother, hadj⟩ := hfits
  simp [State.lsa, hok, Nat.not_lt.2 hmost, hfabric, hother, hadj, hp, hnonce, h]

/-- The state in which an LSA is stored: its device's counts begin again where it is new. -/
def State.lsaCounted (s : State) (d nonce : Nat) : State :=
  if !s.fab.lsdb.keys.contains d || nonce != (s.fab.lsdb.at d).nonce then s.newDevice d (nonce != (s.fab.lsdb.at d).nonce) else s

omit hfits in
/-- With one adjacency, a fixed ID and no new conflict nothing follows the store. -/
theorem State.flood_none {w : State} {before : Bool} {f : State → Nat → State} (hone : w.adjacent = [port]) (hmode : w.par P.idMode = 0)
    (h : w.idConflict = before) : ((w.forEach (w.adjacent.filter (· != port)) f).noteConflict before).yieldId = w := by
  have hnone : w.adjacent.filter (· != port) = [] := by simp [hone]
  rw [hnone, State.forEach_nil, State.noteConflict, if_neg (by simp [h]), State.yieldId, if_neg (by simp [hmode])]

/-- A device with one adjacency and a fixed ID stores a newer LSA of a device that does not hold its own ID. -/
theorem State.lsa_stored
    (h : (s.fab.lsdb.at d).present = false ∨ later 32 (beAt body 16 4) (s.fab.lsdb.at d).seq = true)
    (hone : s.adjacent = [port]) (hmode : s.par P.idMode = 0) (hid : d ≠ s.fab.id) {credit seqctr lastCum : Tab Nat} {anchor : Tab Anchor}
    (hv : s.lsaCounted d (beAt body 12 4) =
      s.updFab (fun f => { f with credit := credit, seqctr := seqctr, lastCum := lastCum, anchor := anchor })) :
    ∃ stale : Bool, ((s.fab.lsdb.at d).present = false → stale = true) ∧ s.lsa port bytes = s.updFab (fun f => { f with
      credit := credit, seqctr := seqctr, lastCum := lastCum, anchor := anchor
      lsdb := f.lsdb.put d (s.lsaEntry n body), stale := stale }) := by
  obtain ⟨hok, rfl, rfl, rfl, hmost, hwhole, hfabric, hother, hadj⟩ := hfits
  generalize hd : H.src.get (beAt bytes 0 16) = d at *
  refine ⟨s.fab.stale || !(s.fab.lsdb.at d).present || (s.fab.lsdb.at d).entries != (s.lsaEntry (beAt (bytes.drop 16) 20 2) (bytes.drop 16)).entries,
    fun hnew => by simp [hnew], ?_⟩
  simp only [State.lsa, hok, hd]
  rw [if_neg (by simp only [hadj, hfabric, Nat.not_lt.2 hmost, Nat.not_lt.2 hwhole, decide_false, bne_self_eq_false, beq_eq_false_iff_ne.2 hother,
    Bool.not_true, Bool.or_self, Bool.false_eq_true, not_false_eq_true]), if_neg (by rcases h with h | h <;> simp [h])]
  unfold State.lsaCounted at hv
  rw [hv]
  refine State.flood_none hone hmode ?_
  simp only [State.idConflict, State.updFab, Tab.at_put_other _ _ hid.symm]

end lsa

/-! ### Path sets -/

theorem State.pathSet_spec (s : State) (l : List (Nat × Nat × Nat)) (r d : Nat) :
    (s.pathSet l r d).length ≤ 64 ∧ ∀ p ∈ s.pathSet l r d, p ∈ s.adjacent := by
  unfold State.pathSet
  dsimp only
  split
  · simp
  · refine ⟨List.length_take_le _ _, fun p hp => ?_⟩
    exact (List.mem_filter.1 (List.mem_filter.1 (List.mem_of_mem_take hp)).1).1

section installPaths
variable {s : State}

theorem State.installPaths_fresh (h : s.fab.stale = false) : s.installPaths = s := if_pos (by simp [h])

theorem State.installPaths_stale (hon : s.parOn P.fabricEnable = true) (hup : s.pacer.down = false) (h : s.fab.stale = true) {l : List Nat}
    (hl : l = (s.fab.lsdb.filter (fun e => e.2.present && e.1 != s.fab.id)).map (·.1)) : ∃ blocked, s.installPaths =
      s.updFab (fun f => { f with path := l.foldl (fun t d => Tab.put t d (s.pathSet s.links (l.length + 1) d)) [], stale := false, blocked := blocked }) := by
  subst hl
  exact ⟨_, if_neg (by simp [hon, hup, h])⟩

end installPaths

end Sys2Proof.Machine
end

section
/-! O37: what identity, hellos, link states and path sets do. -/
namespace Sys2Proof.Machine

theorem exec_idSettle (s : State) : exec .idSettle s = runs (fun s => s.settleId) s := rfl

theorem exec_helloReceive (port : Nat) (bytes : List Byte) (s : State) :
    exec (.helloReceive port bytes) s = runs (fun s => s.hello port bytes) s := rfl

theorem exec_helloMissExpire (port : Nat) (s : State) : exec (.helloMissExpire port) s = runs (fun s => s.helloMiss port) s := rfl

theorem exec_lsaSend (s : State) : exec .lsaSend s = runs (fun s => s.sendLsa) s := rfl

theorem exec_lsaReceive (port : Nat) (bytes : List Byte) (s : State) :
    exec (.lsaReceive port bytes) s = runs (fun s => s.lsa port bytes) s := rfl

theorem exec_lsaAgeOut (d : Nat) (s : State) : exec (.lsaAgeOut d) s = runs (fun s => s.lsaAge d) s := rfl

theorem exec_pathsetInstall (s : State) : exec .pathsetInstall s = runs (fun s => s.installPaths) s := rfl

/-- A device whose LSA is known, under the nonce of its database entry, keeps its counts. -/
theorem State.lsaCounted_known {s : State} {d nonce : Nat} (hp : (s.fab.lsdb.at d).present = true) (hn : nonce = (s.fab.lsdb.at d).nonce) :
    s.lsaCounted d nonce = s := by
  have hlisted : d ∈ s.fab.lsdb.keys := by
    by_contra h
    rw [Tab.at_unlisted _ h] at hp
    exact Bool.noConfusion hp
  exact if_neg (by simp [hlisted, hn])

/-- A device that the database has never held has its counts begin. -/
theorem State.lsaCounted_new {s : State} {d nonce : Nat} (hd : d ∉ s.fab.lsdb.keys) (h : ∀ k < 8, (s.fab.anchor.at (8 * d + k)).held = []) :
    ∃ (seqctr lastCum : Tab Nat) (anchor : Tab Anchor), s.lsaCounted d nonce = s.updFab (fun f => { f with
        credit := (List.range 8).foldl (fun t k => Tab.put t (8 * d + k) (s.par P.creditInit k)) f.credit
        seqctr := seqctr, lastCum := lastCum, anchor := anchor }) ∧ ∀ k < 8, seqctr.at (8 * d + k) = 0 := by
  obtain ⟨c, hc⟩ := State.newDevice_idle (nonce != (s.fab.lsdb.at d).nonce) h
  have hcounted : s.lsaCounted d nonce = _ := (if_pos (by simp [hd])).trans hc
  refine ⟨_, _, c, hcounted, fun k hk => ?_⟩
  exact Tab.at_foldl_del (key := (8 * d + ·)) (List.mem_map.2 ⟨k, List.mem_range.2 hk, rfl⟩) _

/-- Settles O37: each clause is one case of its command; what a walk writes for a device is read back cell by cell. -/
theorem fabricLearnsItsDevices : Obligations.FabricLearnsItsDevices := by
  unfold Obligations.FabricLearnsItsDevices
  simp only [exec_idSettle, exec_helloReceive, exec_helloMissExpire, exec_lsaSend, exec_lsaReceive, exec_lsaAgeOut, exec_pathsetInstall]
  refine ⟨?settle, ?hello, ?miss, ?send, ?known, ?new, ?age, ?paths, fun s h => runs_to (State.installPaths_fresh h) rfl rfl, State.pathSet_spec⟩
  case settle =>
    exact fun s hon hmode hopen hno => ⟨fun h => runs_to (State.settleId_calm hon hmode hopen hno h) (by simp) (by simp),
      fun h => runs_to (State.settleId_early h) rfl rfl⟩
  case hello =>
    intro s port bytes hon hrole hup
    refine ⟨fun h => runs_to (State.hello_badHeader (State.controlOk_badHeader hon hrole hup h)) (by simp) (by simp), fun h ht hlen => ?_⟩
    have hok := State.controlOk_ofType hon hrole hup h ht
    refine ⟨fun hother => runs_keeping (State.hello_other hok hlen hother), fun hsame => ?_⟩
    obtain ⟨changed, hdown, hformed⟩ := State.hello_same hok hlen hsame
    refine ⟨_, runs_to hformed rfl rfl, rfl, by rw [State.updFab_fab, Tab.at_put_same]; rfl,
      fun p hp => by rw [State.updFab_fab, Tab.at_put_other _ _ hp], rfl, fun hnew => ?_⟩
    rw [hdown hnew]
    exact ⟨Bool.or_true _, Bool.or_true _⟩
  case miss =>
    exact fun s port hup => ⟨fun h => runs_keeping (State.helloMiss_due hup h), fun h => runs_to (State.helloMiss_early h) rfl rfl⟩
  case send =>
    exact fun s hon => ⟨fun h => ⟨_, rfl, runs_keeping (State.sendLsa_due hon h rfl)⟩,
      fun hdue h => runs_to (State.sendLsa_early hdue h) rfl rfl⟩
  case known =>
    rintro s port d n bytes body _ hon hrole hup h ht hbody hd hn hmost hwhole hfabric hother hadj rfl hp hnonce
    have hfits : s.LsaFits port d n bytes body :=
      ⟨State.controlOk_ofType hon hrole hup h ht, hbody, hd, hn, hmost, hwhole, hfabric, hother, hadj⟩
    refine ⟨fun hold => runs_to (State.lsa_notNewer hfits hp hnonce hold) rfl rfl, fun hnewer hone hmode hid => ?_⟩
    obtain ⟨stale, -, hstored⟩ := State.lsa_stored hfits (.inr hnewer) hone hmode hid (State.lsaCounted_known hp hnonce)
    exact ⟨_, runs_to hstored rfl rfl, rfl, rfl, fun k hk => by rw [State.updFab_fab, Tab.at_put_other _ _ hk],
      by rw [State.updFab_fab, Tab.at_put_same]; rfl⟩
  case new =>
    intro s port d n bytes body hon hrole hup h ht hbody hd hn hmost hwhole hfabric hother hadj hunknown hone hmode hid hheld
    have hfits : s.LsaFits port d n bytes body :=
      ⟨State.controlOk_ofType hon hrole hup h ht, hbody, hd, hn, hmost, hwhole, hfabric, hother, hadj⟩
    have habsent : (s.fab.lsdb.at d).present = false := by rw [Tab.at_unlisted _ hunknown]; rfl
    obtain ⟨seqctr, lastCum, anchor, hcounted, hseq⟩ := State.lsaCounted_new hunknown hheld
    obtain ⟨stale, hstale, hstored⟩ := State.lsa_stored hfits (.inl habsent) hone hmode hid hcounted
    refine ⟨_, runs_to hstored rfl rfl, rfl, hstale habsent, fun k hk => ⟨?_, hseq k hk⟩, by rw [State.updFab_fab, Tab.at_put_same]; rfl⟩
    refine (Tab.at_foldl_put (key := (8 * d + ·)) (fun j _ hj => ?_) _).trans (if_pos (List.mem_map.2 ⟨k, List.mem_range.2 hk, rfl⟩))
    rw [Nat.add_left_cancel hj]
  case age =>
    exact fun s d hp => ⟨fun h => runs_to (State.lsaAge_due hp h) rfl rfl, fun h => runs_to (State.lsaAge_early h) rfl rfl⟩
  case paths =>
    intro s hon hup h
    obtain ⟨blocked, hpaths⟩ := State.installPaths_stale hon hup h rfl
    refine ⟨_, runs_to hpaths rfl rfl, rfl, rfl, rfl, rfl, fun d => ?_⟩
    refine (Tab.at_foldl_put (key := id) (x := s.pathSet s.links (_ + 1) d) (fun j _ (hj : j = d) => by rw [hj]) _).trans ?_
    rw [List.map_id, List.length_map]
    rfl

end Sys2Proof.Machine
end

section
/-! SUPPORT. The fabric scheduler, credit and the Anchor, case by case (R337 to R339, R341 to R344; log entries 82, 83, 120, 123). -/
namespace Sys2Proof.Machine

/-! ### VOQ_SELECT -/

/-- The next class of the scheduler begins behind the destination that was served. -/
def State.turned (s : State) (v : Nat) : State := { s with fab := { s.fab with rr := s.fab.rr.put (v % 8) (v / 8 + 1) } }

/-- The state with the spray pointer of a VOQ one further. -/
def State.sprayed (s : State) (v : Nat) : State := { s with fab := { s.fab with ptr := s.fab.ptr.put v (s.fab.ptr.at v + 1) } }

theorem State.selectVoq_none {s : State} (h : s.nextVoq = none) : s.selectVoq = s := by simp only [State.selectVoq, h]

section selectVoq
variable {s : State} {v k : Nat} (hv : s.nextVoq = some v) (hk : s.queueHead (8192 + v) = some k)
include hv hk

theorem State.selectVoq_old (h : s.tooOld k = true) : s.selectVoq = s.dropOld k := by
  simp only [State.selectVoq, hv, hk, h, if_true]

variable (hold : s.tooOld k = false)
include hold

theorem State.selectVoq_unreachable (h : s.fab.path.at (v / 8) = []) :
    s.selectVoq = ((s.turned v).count Stat.fabricUnreachable).endCopy k := by
  simp only [State.selectVoq, hv, hk, hold, State.updFab, h]
  rfl

theorem State.selectVoq_blocked {m : Nat} (hpath : s.fab.path.at (v / 8) = [m])
    (h : s.par P.relayTxqDepth ≤ (s.fab.txfifo.at (8 * m + v % 8)).length) :
    s.selectVoq = (((s.turned v).sprayed v).count Stat.sprayBlocked).updFab (fun f => { f with blocked := f.blocked ++ [v] }) := by
  have hspray : (s.turned v).sprayTo [m] (v % 8) 1 (s.fab.ptr.at v) = (none, s.fab.ptr.at v + 1) := by
    rw [State.sprayTo, List.length_singleton, Nat.mod_one]
    exact if_neg (Nat.not_lt.2 h)
  simp only [State.selectVoq, hv, hk, hold]
  change (if (s.fab.path.at (v / 8)).isEmpty = true then _ else match (s.turned v).sprayTo (s.fab.path.at (v / 8)) (v % 8)
    (s.fab.path.at (v / 8)).length (s.fab.ptr.at v) with | (none, ptr) => _ | (some m, ptr) => _) = _
  rw [hpath, List.length_singleton, hspray]
  rfl

theorem State.selectVoq_sprays {m : Nat} {l : List Nat} (hpath : s.fab.path.at (v / 8) = l) (hl : l ≠ [])
    (hm : l.getD (s.fab.ptr.at v % l.length) 0 = m) (h : (s.fab.txfifo.at (8 * m + v % 8)).length < s.par P.relayTxqDepth) :
    s.selectVoq = ((s.turned v).sprayed v).sprayFrame v k m := by
  have hspray : (s.turned v).sprayTo l (v % 8) l.length (s.fab.ptr.at v) = (some m, s.fab.ptr.at v + 1) := by
    cases l with
    | nil => exact absurd rfl hl
    | cons a l =>
      rw [List.length_cons] at hm ⊢
      rw [State.sprayTo, List.length_cons]
      rw [hm]
      exact if_pos h
  simp only [State.selectVoq, hv, hk, hold]
  change (if (s.fab.path.at (v / 8)).isEmpty = true then _ else match (s.turned v).sprayTo (s.fab.path.at (v / 8)) (v % 8)
    (s.fab.path.at (v / 8)).length (s.fab.ptr.at v) with | (none, ptr) => _ | (some m, ptr) => _) = _
  rw [hpath, hspray, if_neg (by simpa using hl)]
  rfl

end selectVoq

/-! ### A frame goes to a FIFO -/

/-- What empties in the DRR lists changes no copy, and of the fabric the list and the deficits alone. -/
theorem State.drrDrop_keeps (s : State) (q : Nat) : (s.drrDrop q).cpy = s.cpy ∧ (s.drrDrop q).fab.seqctr = s.fab.seqctr
    ∧ (s.drrDrop q).fab.credit = s.fab.credit ∧ (s.drrDrop q).fab.txfifo = s.fab.txfifo := by
  unfold State.drrDrop
  split_ifs <;> exact ⟨rfl, rfl, rfl, rfl⟩

/-- A frame of this device on a class under strict priority takes its number, its cells and its place. -/
theorem State.sprayFrame_keeps {s : State} {v k m : Nat} (hown : (s.cpy.at k).transit = false) (hstrict : s.par P.relaySched (v % 8) = 0) :
    (s.sprayFrame v k m).cpy = s.cpy.upd k (fun c => { c with
      place := .txfifo, rport := m, seq := if c.transit then c.seq else s.fab.seqctr.at v })
    ∧ (s.sprayFrame v k m).fab.seqctr = s.fab.seqctr.put v ((s.fab.seqctr.at v + 1) % 2 ^ 20)
    ∧ (s.sprayFrame v k m).fab.credit = s.fab.credit.upd v (· - (s.cpy.at k).cells)
    ∧ (s.sprayFrame v k m).fab.txfifo = s.fab.txfifo.upd (8 * m + v % 8) (· ++ [k]) := by
  simp only [State.sprayFrame, hown, Bool.false_eq_true, if_false]
  rw [State.relayDeficit, if_pos (by exact hstrict)]
  exact State.drrDrop_keeps _ _

/-! ### Credit -/

section sendCredit
variable {s : State} {d p : Nat} {l due : List Nat} (hon : s.parOn P.fabricEnable = true) (hset : s.fab.settled = true)
  (hpath : s.fab.path.at d = p :: l)
  (hdue : due = (List.range 8).filter (fun k => s.fab.returned.at (8 * d + k) != s.fab.sent.at (8 * d + k)))
include hdue

theorem State.sendCredit_idle (h : due = [] ∨ s.time.mono < s.fab.creditAt.at d) : s.sendCredit d = s := by
  refine if_neg ?_
  rcases h with h | h
  · simp [← hdue, h]
  · simp [Nat.not_le.2 h]

include hon hset hpath

theorem State.sendCredit_due (hsome : due ≠ []) (h : s.fab.creditAt.at d ≤ s.time.mono) : s.sendCredit d =
    (s.sendControl p (s.controlFrame d 2 (due.flatMap (fun k => beBytes 4 (k * 2 ^ 29 + s.fab.returned.at (8 * d + k)))))).updFab (fun f => { f with
      sent := due.foldl (fun t k => Tab.put t (8 * d + k) (f.returned.at (8 * d + k))) f.sent
      creditAt := f.creditAt.put d (s.time.mono + s.par P.creditInterval) }) := by
  rw [State.sendCredit, ← hdue, if_pos (by simp [hon, hset, hsome, h, hpath])]
  simp [State.routeControl, hpath, State.sendControl, State.par]

omit hon hset hpath in
/-- Once the due counts are sent, every count was. -/
theorem sent_due {k : Nat} (hk : k < 8) :
    (due.foldl (fun t k => Tab.put t (8 * d + k) (s.fab.returned.at (8 * d + k))) s.fab.sent).at (8 * d + k) = s.fab.returned.at (8 * d + k) := by
  refine (Tab.at_foldl_put (key := (8 * d + ·)) (fun j _ hj => congrArg s.fab.returned.at hj) _).trans ?_
  split
  · rfl
  next hnot =>
    by_contra hne
    refine hnot (List.mem_map.2 ⟨k, ?_, rfl⟩)
    rw [hdue, List.mem_filter, List.mem_range]
    exact ⟨hk, bne_iff_ne.2 (Ne.symm hne)⟩

end sendCredit

section creditIn
variable {s : State} {port h : Nat} {bytes : List Byte} (hok : s.controlOk port 2 bytes = (s, true)) (hh : h = beAt bytes 0 16)
  (hset : s.fab.settled = true)
include hok hh hset

theorem State.creditIn_lastHop (hdst : H.dst.get h ≠ s.fab.id) (hhops : H.hops.get h ≤ 1) :
    s.creditIn port bytes = s.count Stat.relayHopDrops := by
  subst hh
  simp [State.creditIn, hok, hset, hdst, hhops]

/-- A CREDIT frame of one entry for this device. -/
theorem State.creditIn_one (hdst : H.dst.get h = s.fab.id) (hlen : H.len.get h = 8) {w : Nat} (hw : w = beAt (bytes.drop 16) 0 4) :
    s.creditIn port bytes =
      if (s.addCredit (8 * H.src.get h + w / 2 ^ 29) (w % 2 ^ 24)).2 then (s.addCredit (8 * H.src.get h + w / 2 ^ 29) (w % 2 ^ 24)).1.count Stat.creditErrors
      else (s.addCredit (8 * H.src.get h + w / 2 ^ 29) (w % 2 ^ 24)).1 := by
  subst hh hw
  simp only [State.creditIn, hok, hset, hdst, hlen, Bool.not_true, Bool.false_eq_true, if_false, ne_eq, not_true_eq_false, Nat.reduceSub,
    Nat.reduceDiv, show min 8 1 = 1 from rfl, List.range_one, List.foldl_cons, List.foldl_nil, Bool.false_or, Nat.mul_zero]

end creditIn

/-! ### The Anchor -/

/-- A packet of a source and class that the Anchor takes in: not one it holds already. -/
structure State.AnchorTakes (s : State) (n x src seq : Nat) : Prop where
  source : ∃ st, (s.pkt.at n).relaySrc = some (src, seq, st)
  context : x = 8 * src + (s.pkt.at n).relayField H.rclass
  live : (s.pkt.at n).live = true
  stage : (s.pkt.at n).stage = .anchor
  new : ∀ h ∈ (s.fab.anchor.at x).held, h.pkt ≠ n

/-- The context of a packet that arrives: it takes the number of its first packet, and notes the time. -/
def State.anchorMet (s : State) (x seq : Nat) : State :=
  (if (s.fab.anchor.at x).sync then s else s.updAnchor x (fun a => { a with sync := true, expect := seq, lost := [] })).updAnchor x
    (fun a => { a with lastArrival := s.time.mono })

/-- The first packet of a context gives it its number. -/
theorem State.anchorMet_first {s : State} {x seq : Nat} (hsync : (s.fab.anchor.at x).sync = false) : s.anchorMet x seq =
    (s.updAnchor x (fun a => { a with sync := true, expect := seq, lost := [] })).updAnchor x (fun a => { a with lastArrival := s.time.mono }) := by
  simp only [State.anchorMet, hsync, Bool.false_eq_true, if_false]

/-- Room is made for a packet that is not behind EXPECT, and the packet is placed (R343). -/
def State.anchorRoom (u : State) (x n src seq : Nat) : State :=
  let s := if 65536 ≤ (u.fab.anchor.at x).ahead seq then ((u.releaseThrough x ((seq + 2 ^ 20 - 65536) % 2 ^ 20)).1).count Stat.anchorForced else u
  let full := decide (65536 ≤ s.heldOf src) || decide (262144 ≤ s.heldAll)
  let s := if seq ≠ (s.fab.anchor.at x).expect ∧ full then
      match (s.fab.anchor.at x).lowest with
      | some h => (s.releaseThrough x h.seq).1
      | none => s
    else s
  if 2 ^ 19 ≤ (s.fab.anchor.at x).ahead seq then (s.count Stat.anchorLateDrops).anchorDrop x n else s.anchorPlace x n seq

section anchorIn
variable {s u : State} {n x src seq : Nat} (htakes : s.AnchorTakes n x src seq) (hu : s.anchorMet x seq = u)
include htakes hu

/-- What becomes of a packet whose context has been met. -/
theorem State.anchorIn_met : s.anchorIn n =
    if 2 ^ 19 ≤ (u.fab.anchor.at x).ahead seq then (u.count Stat.anchorLateDrops).anchorDrop x n
    else u.anchorRoom x n src seq := by
  obtain ⟨⟨st, hsrc⟩, rfl, hlive, hstage, hnew⟩ := htakes
  have hguard : ¬ ((s.pkt.at n).live = false ∨ (s.pkt.at n).stage ≠ .anchor
      ∨ (s.fab.anchor.at (8 * src + (s.pkt.at n).relayField H.rclass)).held.any (fun h => h.pkt == n) = true) := by
    simpa [hlive, hstage] using hnew
  cases hsync : (s.fab.anchor.at (8 * src + (s.pkt.at n).relayField H.rclass)).sync
  all_goals
    simp only [State.anchorMet, hsync, Bool.false_eq_true, if_true, if_false] at hu
    simp only [State.anchorIn, hsrc, if_neg hguard, hsync, Bool.false_eq_true, if_true, if_false, State.updAnchor_frame, hu]
    rfl

end anchorIn

section anchorRoom
variable {u : State} {n x src seq : Nat}

/-- A packet within 65,536 numbers of EXPECT, which is EXPECT or finds room, is placed. -/
theorem State.anchorRoom_near (h : (u.fab.anchor.at x).ahead seq < 65536)
    (hroom : seq = (u.fab.anchor.at x).expect ∨ u.heldOf src < 65536 ∧ u.heldAll < 262144) :
    u.anchorRoom x n src seq = u.anchorPlace x n seq := by
  have hfull : ¬ (seq ≠ (u.fab.anchor.at x).expect ∧ (decide (65536 ≤ u.heldOf src) || decide (262144 ≤ u.heldAll)) = true) := by
    rintro ⟨hne, hfull⟩
    obtain ⟨hof, hall⟩ := hroom.resolve_left hne
    simp [Nat.not_le.2 hof, Nat.not_le.2 hall] at hfull
  simp only [State.anchorRoom, if_neg (Nat.not_le.2 h), if_neg hfull]
  exact if_neg (by omega)

end anchorRoom

theorem State.anchor_updAnchor (s : State) (x : Nat) (g : Anchor → Anchor) : (s.updAnchor x g).fab.anchor.at x = g (s.fab.anchor.at x) :=
  Tab.at_upd_same _ _ _

/-- The packet that EXPECT waits for is passed on. -/
theorem State.anchorPlace_expected {s : State} {n x seq : Nat} (h : seq = (s.fab.anchor.at x).expect) : s.anchorPlace x n seq =
    ((s.passOn x n).updAnchor x (fun a => { a with expect := (a.expect + 1) % 2 ^ 20 })).advanceAll x := if_pos h

theorem State.anchorPlace_ahead {s : State} {n x seq : Nat} (h : 0 < (s.fab.anchor.at x).ahead seq) :
    s.anchorPlace x n seq = s.holdPacket x n seq := by
  refine if_neg (fun hexpect => ?_)
  simp only [Anchor.ahead, hexpect] at h
  omega

theorem Anchor.ahead_expect {a : Anchor} {seq : Nat} (h : seq = a.expect) : a.ahead seq = 0 := by rw [Anchor.ahead, h]; omega

section anchorTimeout
variable {s : State} {x : Nat} {h : Held} {l : List Held} (hheld : (s.fab.anchor.at x).held = h :: l)
include hheld

theorem State.anchorTimeout_due (hdue : h.at_ + s.par P.reorderTimeout * 1000 ≤ s.time.mono) :
    s.anchorTimeout x = (s.releaseThrough x h.seq).1.count Stat.anchorGapsLost 0 (s.releaseThrough x h.seq).2 := by
  simp only [State.anchorTimeout, hheld, if_pos hdue]

theorem State.anchorTimeout_early (hdue : s.time.mono < h.at_ + s.par P.reorderTimeout * 1000) : s.anchorTimeout x = s := by
  simp only [State.anchorTimeout, hheld, if_neg (Nat.not_le.2 hdue)]

end anchorTimeout

section anchorIdle
variable {s : State} {x : Nat}

theorem State.anchorIdle_due (hsync : (s.fab.anchor.at x).sync = true) (hheld : (s.fab.anchor.at x).held = [])
    (h : (s.fab.anchor.at x).lastArrival + 1000000000 ≤ s.time.mono) :
    s.anchorIdle x = s.updAnchor x (fun a => { a with sync := false, lost := [] }) := by
  rw [State.anchorIdle, if_pos (by simp [hsync, h]), State.unsync_empty hheld]

theorem State.anchorIdle_early (h : s.time.mono < (s.fab.anchor.at x).lastArrival + 1000000000) : s.anchorIdle x = s :=
  if_neg (by simp [Nat.not_le.2 h])

end anchorIdle

end Sys2Proof.Machine
end

section
/-! O38: what the fabric scheduler, credit and the Anchor do. -/
namespace Sys2Proof.Machine

theorem exec_voqSelect (s : State) : exec .voqSelect s = runs (fun s => s.selectVoq) s := rfl

theorem exec_creditSend (d : Nat) (s : State) : exec (.creditSend d) s = runs (fun s => s.sendCredit d) s := rfl

theorem exec_creditReceive (port : Nat) (bytes : List Byte) (s : State) :
    exec (.creditReceive port bytes) s = runs (fun s => s.creditIn port bytes) s := rfl

theorem exec_anchorArrival (n : Nat) (s : State) : exec (.anchorArrival n) s = runs (fun s => s.anchorIn n) s := rfl

theorem exec_anchorTimeout (src rc : Nat) (s : State) :
    exec (.anchorTimeout src rc) s = runs (fun s => s.anchorTimeout (8 * src + rc % 8)) s := rfl

theorem exec_anchorContextIdle (src rc : Nat) (s : State) :
    exec (.anchorContextIdle src rc) s = runs (fun s => s.anchorIdle (8 * src + rc % 8)) s := rfl

/-- Settles O38: each clause is one case of its command; a packet of the Anchor meets its context before it is placed. -/
theorem fabricMovesFrames : Obligations.FabricMovesFrames := by
  unfold Obligations.FabricMovesFrames
  simp only [exec_voqSelect, exec_creditSend, exec_creditReceive, exec_anchorArrival, exec_anchorTimeout, exec_anchorContextIdle]
  refine ⟨fun s h => runs_to (State.selectVoq_none h) rfl rfl, ?select, ?spray, ?send, ?receive, ?passing, ?synced, ?first, ?timeout, ?idle⟩
  case select =>
    rintro s _ v k hv hk rfl
    exact ⟨fun h => runs_keeping (State.selectVoq_old hv hk h), fun hold => ⟨fun h => runs_keeping (State.selectVoq_unreachable hv hk hold h),
      fun m hpath h => runs_keeping (State.selectVoq_blocked hv hk hold hpath h),
      fun m l hpath hl hm h => runs_keeping (State.selectVoq_sprays hv hk hold hpath hl hm h)⟩⟩
  case spray =>
    intro s v k m hown hstrict
    obtain ⟨hcpy, hseq, hcredit, hfifo⟩ := State.sprayFrame_keeps (m := m) hown hstrict
    rw [hcpy, hseq, hcredit, hfifo, Tab.at_upd_same, Tab.at_put_same, Tab.at_upd_same, Tab.at_upd_same]
    exact ⟨by simp [hown], rfl, rfl, rfl, fun j hj => ⟨Tab.at_upd_other _ _ hj, Tab.at_put_other _ _ hj⟩⟩
  case send =>
    intro s d p l due hon hset hpath hdue
    refine ⟨fun hsome h => ⟨_, runs_to (State.sendCredit_due hon hset hpath hdue hsome h) (by simp [State.sendControl]) (by simp [State.sendControl]),
      by simp, ?_, fun k hk => ?_⟩, fun h => runs_to (State.sendCredit_idle hdue h) rfl rfl⟩
    · rw [State.updFab_fab, Tab.at_put_same]
    · rw [State.updFab_fab, State.sendControl, (State.emit_frame ..).2.2.2.2.2.2.2.2.2.2.2.2.2.2.2.2.1]
      exact sent_due hdue hk
  case receive =>
    rintro s port h w v bytes hon hrole hup hhdr hh ht hset hdst hlen hw rfl _ _ _ rfl rfl rfl
    have hone := State.creditIn_one (State.controlOk_ofType hon hrole hup hhdr (hh ▸ ht)) hh hset hdst hlen hw
    refine ⟨fun hfits => runs_to (hone.trans (if_neg ?_)) rfl rfl, fun hmore => runs_to (hone.trans (if_pos ?_)) (by simp) (by simp)⟩
    · exact fun hexcess => Nat.not_lt.2 hfits (of_decide_eq_true hexcess)
    · exact decide_eq_true hmore
  case passing =>
    exact fun s port h bytes hon hrole hup hhdr hh ht hset hdst hhops =>
      runs_to (State.creditIn_lastHop (State.controlOk_ofType hon hrole hup hhdr (hh ▸ ht)) hh hset hdst hhops) (by simp) (by simp)
  case synced =>
    rintro s u n x src seq st hsrc hx hlive hstage hnew hu hsync
    have htakes : s.AnchorTakes n x src seq := ⟨⟨st, hsrc⟩, hx, hlive, hstage, hnew⟩
    have hmet : s.anchorMet x seq = u := by rw [State.anchorMet, hsync, if_pos rfl, hu]
    have hcontext : u.fab.anchor.at x = { s.fab.anchor.at x with lastArrival := s.time.mono } := by rw [hu, State.anchor_updAnchor]
    have hahead : (u.fab.anchor.at x).ahead seq = (s.fab.anchor.at x).ahead seq := by rw [hcontext]; rfl
    have hexpect : (u.fab.anchor.at x).expect = (s.fab.anchor.at x).expect := by rw [hcontext]
    refine ⟨fun h => runs_keeping ?_, fun h => runs_keeping ?_, fun hpos hnear hof hall => runs_keeping ?_⟩
    · have h0 : (u.fab.anchor.at x).ahead seq = 0 := hahead.trans (Anchor.ahead_expect h)
      rw [State.anchorIn_met htakes hmet, if_neg (by omega), State.anchorRoom_near (by omega) (.inl (h.trans hexpect.symm)),
        State.anchorPlace_expected (h.trans hexpect.symm)]
    · rw [State.anchorIn_met htakes hmet, if_pos (hahead ▸ h)]
    · rw [State.anchorIn_met htakes hmet, if_neg (by omega), State.anchorRoom_near (by omega) (.inr ⟨hof, hall⟩),
        State.anchorPlace_ahead (by omega)]
  case first =>
    intro s n x src seq st hsrc hx hlive hstage hheld hsync
    have htakes : s.AnchorTakes n x src seq := ⟨⟨st, hsrc⟩, hx, hlive, hstage, by simp [hheld]⟩
    refine ⟨_, rfl, runs_keeping ?_⟩
    have hmet := State.anchorMet_first (seq := seq) hsync
    have hexpect : seq = ((s.anchorMet x seq).fab.anchor.at x).expect := by rw [hmet, State.anchor_updAnchor, State.anchor_updAnchor]
    have h0 : ((s.anchorMet x seq).fab.anchor.at x).ahead seq = 0 := Anchor.ahead_expect hexpect
    rw [State.anchorIn_met htakes rfl, if_neg (by omega), State.anchorRoom_near (by omega) (.inl hexpect), State.anchorPlace_expected hexpect, hmet]
  case timeout =>
    intro s src rc h l hrc hheld
    rw [Nat.mod_eq_of_lt hrc]
    exact ⟨fun hdue => runs_keeping (State.anchorTimeout_due hheld hdue), fun hdue => runs_to (State.anchorTimeout_early hheld hdue) rfl rfl⟩
  case idle =>
    intro s src rc hrc hsync
    rw [Nat.mod_eq_of_lt hrc]
    exact ⟨fun hheld h => runs_to (State.anchorIdle_due hsync hheld h) rfl rfl, fun h => runs_to (State.anchorIdle_early h) rfl rfl⟩

end Sys2Proof.Machine
end

section
/-! SUPPORT. Instructions of a thread on a channel, and the service of those that wait on it (R371, R376 to R378). -/
namespace Sys2Proof.Machine

theorem Channel.room_unreserved {k : Channel} (h : k.resv = none) : k.room = 16 - k.committed := by
  simp [Channel.room, Channel.reserved, h]

/-! ### A RUNNABLE thread on a channel it may reach -/

section onChannel
variable {s : State} {t c : Nat} {k : Channel} (ht : t < 32) (hreach : mayReach t c = true) (hst : (s.thread t).st = 1) (hup : s.pacer.down = false)
  (hk : k = s.chan c)
include ht hreach hst hup

theorem State.onChannel_reaches (f : State → State) : s.onChannel t c f = (f s).ran := by
  have hc : c < 256 := of_decide_eq_true (Bool.and_eq_true_iff.1 hreach).1
  rw [State.onChannel, if_neg (by simp [hst, hup]; omega), hreach]
  rfl

include hk

theorem State.chReserve_free {n : Nat} (h1 : 1 ≤ n) (h16 : n ≤ 16) (hresv : k.resv = none) (hwriters : k.writers = []) (hroom : k.committed + n ≤ 16) :
    s.chReserve t c n = (s.updChan c (fun k => { k with resv := some { thread := t, words := n } })).ran := by
  subst hk
  have hfree : n ≤ (s.chan c).room := by rw [Channel.room_unreserved hresv]; omega
  rw [State.chReserve, if_neg (by omega), State.onChannel_reaches ht hreach hst hup]
  exact congrArg State.ran (if_pos (by simp [hresv, hwriters, hfree]))

theorem State.chReserve_blocks {n : Nat} (h1 : 1 ≤ n) (h16 : n ≤ 16) (h : k.resv ≠ none ∨ k.writers ≠ [] ∨ 16 < k.committed + n) :
    s.chReserve t c n = ((s.updChan c (fun k => { k with writers := k.writers ++ [(t, n)] })).block t c 1).ran := by
  subst hk
  rw [State.chReserve, if_neg (by omega), State.onChannel_reaches ht hreach hst hup]
  refine congrArg State.ran (if_neg fun hfree => ?_)
  simp only [Bool.and_eq_true, Option.isNone_iff_eq_none, List.isEmpty_iff, decide_eq_true_iff] at hfree
  obtain ⟨⟨hresv, hwriters⟩, hroom⟩ := hfree
  rw [Channel.room_unreserved hresv] at hroom
  rcases h with h | h | h
  · exact h hresv
  · exact h hwriters
  · omega

theorem State.chRead_takes {m : List Nat} {ms : List (List Nat)} (hmsgs : k.msgs = m :: ms) : s.chRead t c =
    (((s.updChan c (fun k => { k with msgs := ms })).updThread t (fun h => { h with msg := m })).settleChan c).ran := by
  subst hk
  rw [State.chRead, State.onChannel_reaches ht hreach hst hup, hmsgs]

theorem State.chRead_blocks (hmsgs : k.msgs = []) :
    s.chRead t c = ((s.updChan c (fun k => { k with readers := k.readers ++ [t] })).block t c 0).ran := by
  subst hk
  rw [State.chRead, State.onChannel_reaches ht hreach hst hup, hmsgs]

variable {r : Reservation} (hresv : k.resv = some r) (hmine : r.thread = t)
include hresv hmine

theorem State.chPut_writes {w : Nat} (h : r.put.length < r.words) :
    s.chPut t c w = (s.updChan c (fun k => { k with resv := some { r with put := r.put ++ [w % 2 ^ 64] } })).ran := by
  subst hk
  rw [State.chPut, State.onChannel_reaches ht hreach hst hup, hresv]
  exact congrArg State.ran (if_pos ⟨hmine, h⟩)

theorem State.chCommit_whole (h : r.words ≤ r.put.length) :
    s.chCommit t c = ((s.updChan c (fun k => { k with msgs := k.msgs ++ [r.put], resv := none })).settleChan c).ran := by
  subst hk
  rw [State.chCommit, State.onChannel_reaches ht hreach hst hup, hresv]
  exact congrArg State.ran ((if_neg (not_not.2 hmine)).trans (if_neg (Nat.not_lt.2 h)))

theorem State.chCommit_premature (h : r.put.length < r.words) : s.chCommit t c = (s.raise (172 + t / 8) 0).ran := by
  subst hk
  rw [State.chCommit, State.onChannel_reaches ht hreach hst hup, hresv]
  exact congrArg State.ran ((if_neg (not_not.2 hmine)).trans (if_pos h))

end onChannel

/-- A thread that is not RUNNABLE executes nothing. -/
theorem State.onChannel_idle {s : State} {t c : Nat} (h : (s.thread t).st ≠ 1) (f : State → State) : s.onChannel t c f = s :=
  if_pos (.inr (.inr (.inl h)))

theorem State.chReserve_idle {s : State} {t : Nat} (h : (s.thread t).st ≠ 1) (c n : Nat) : s.chReserve t c n = s := by
  rw [State.chReserve]
  split
  · rfl
  · exact State.onChannel_idle h _

/-- An applet on a channel it may not reach breaks its confinement. -/
theorem State.chReserve_confined {s : State} {t c n : Nat} (ht : t < 32) (happlet : 6 ≤ t % 8) (hc : c < 240) (hst : (s.thread t).st = 1)
    (hup : s.pacer.down = false) (h1 : 1 ≤ n) (h16 : n ≤ 16) :
    s.chReserve t c n = (s.violation (t / 8) (t % 8) (s.thread t).pc (s.freeVal 64)).drawn := by
  have hreach : mayReach t c = false := by
    have hfar : ¬ 240 ≤ c := by omega
    simp [mayReach, isApplet, happlet, hfar]
  rw [State.chReserve, if_neg (by omega), State.onChannel, if_neg (by simp [hst, hup]; omega), hreach]
  rfl

theorem State.violation_applet {s : State} {core thread : Nat} (hcore : core < 4) (hthread : thread = 6 ∨ thread = 7)
    (hst : (s.thread (8 * core + thread)).st ≠ 0) (pc cause : Nat) : s.violation core thread pc cause =
      ((s.killThread (8 * core + thread)).raise 183 (2 * core + thread - 6)).ruleEvent 375 (8 * core + thread) 0 [core, thread, pc, cause] := by
  have happlet : isApplet (8 * core + thread) = true := decide_eq_true (by omega)
  exact if_neg (by simp [happlet, hst]; omega)

/-! ### Service of a channel -/

section serveChan
variable {s : State} {c : Nat}

theorem State.serveChan_reader {m : List Nat} {ms : List (List Nat)} {t : Nat} {ts : List Nat} (hmsgs : (s.chan c).msgs = m :: ms)
    (hreaders : (s.chan c).readers = t :: ts) (n : Nat) : State.serveChan (n + 1) s c =
      State.serveChan n ((s.updChan c (fun k => { k with msgs := ms, readers := ts })).wake t (fun h => { h with msg := m })) c := by
  rw [State.serveChan]
  simp only [hmsgs, hreaders]

theorem State.serveChan_writer {t w : Nat} {ws : List (Nat × Nat)} (hidle : (s.chan c).msgs = [] ∨ (s.chan c).readers = [])
    (hresv : (s.chan c).resv = none) (hwriters : (s.chan c).writers = (t, w) :: ws) (n : Nat) : State.serveChan (n + 1) s c =
      if w ≤ 16 - (s.chan c).committed then
        State.serveChan n ((s.updChan c (fun k => { k with resv := some { thread := t, words := w }, writers := ws })).wake t id) c else s := by
  rw [State.serveChan, ← Channel.room_unreserved hresv]
  rcases hidle with hidle | hidle
  · simp only [hidle, hresv, hwriters]
  · cases hmsgs : (s.chan c).msgs <;> simp only [hidle, hresv, hwriters]

end serveChan

/-! ### Producers of the hardware -/

theorem State.hwProduce_whole {s : State} {c : Nat} {ws : List Nat} (hc : c < 48) (hws : ws ≠ []) (hresv : (s.chan c).resv = none)
    (hroom : (s.chan c).committed + ws.length ≤ 16) :
    s.hwProduce c ws = (s.updChan c (fun k => { k with msgs := k.msgs ++ [ws.map (· % 2 ^ 64)] })).settleChan c := by
  refine if_neg ?_
  rw [Channel.room_unreserved hresv]
  simp [hws, hresv]
  omega

theorem State.hwProduce_none {s : State} {c : Nat} {ws : List Nat}
    (h : 48 ≤ c ∨ (s.chan c).resv ≠ none ∨ 16 < (s.chan c).committed + ws.length) : s.hwProduce c ws = s := by
  refine if_pos ?_
  rcases h with h | h | h
  · exact .inl h
  · exact .inr (.inr (.inl (Option.isSome_iff_ne_none.2 h)))
  · cases ws with
    | nil => exact .inr (.inl rfl)
    | cons w ws =>
      refine .inr (.inr (.inr ?_))
      rw [Channel.room]
      simp only [List.length_cons] at h ⊢
      omega

end Sys2Proof.Machine
end

section
/-! O40: what the channel rows do to messages, reservations and threads. -/
namespace Sys2Proof.Machine

theorem exec_chReserve (t c n : Nat) (s : State) : exec (.chReserve t c n) s = runs (fun s => s.chReserve t c n) s := rfl

theorem exec_chPut (t c w : Nat) (s : State) : exec (.chPut t c w) s = runs (fun s => s.chPut t c w) s := rfl

theorem exec_chCommit (t c : Nat) (s : State) : exec (.chCommit t c) s = runs (fun s => s.chCommit t c) s := rfl

theorem exec_chRead (t c : Nat) (s : State) : exec (.chRead t c) s = runs (fun s => s.chRead t c) s := rfl

theorem exec_hwChannelProduce (c : Nat) (ws : List Nat) (s : State) : exec (.hwChannelProduce c ws) s = runs (fun s => s.hwProduce c ws) s := rfl

theorem exec_appletViolation (core thread pc cause : Nat) (s : State) :
    exec (.appletViolation core thread pc cause) s = runs (fun s => s.violation core thread pc cause) s := rfl

/-- Settles O40: each clause is one case of its row. That a premature commit raises PACER_CORE, and that its thread counts as having run
in the lap, is the model's choice (log entry 87). -/
theorem channelsCarryMessages : Obligations.ChannelsCarryMessages := by
  unfold Obligations.ChannelsCarryMessages
  simp only [exec_chReserve, exec_chPut, exec_chCommit, exec_chRead, exec_hwChannelProduce, exec_appletViolation]
  refine ⟨?thread, ?idle, fun n s c t m ms ts hmsgs hreaders => State.serveChan_reader hmsgs hreaders n,
    fun n s c t w ws hidle hresv hwriters => State.serveChan_writer hidle hresv hwriters n, ?produce,
    fun s t c n ht happlet hc hst hup h1 h16 => runs_keeping (State.chReserve_confined ht happlet hc hst hup h1 h16),
    fun s core thread pc cause hcore hthread hst => runs_keeping (State.violation_applet hcore hthread hst pc cause)⟩
  case thread =>
    intro s t c k ht hreach hst hup hk
    refine ⟨fun n h1 h16 => ⟨fun hresv hwriters hroom => ?_, fun h => ?_⟩, fun w r hresv hmine => ⟨fun h => ?_, fun h => ?_, fun h => ?_⟩,
      fun m ms hmsgs => ?_, fun hmsgs => ?_⟩
    · exact runs_to (State.chReserve_free ht hreach hst hup hk h1 h16 hresv hwriters hroom) rfl rfl
    · exact runs_to (State.chReserve_blocks ht hreach hst hup hk h1 h16 h) rfl rfl
    · exact runs_to (State.chPut_writes ht hreach hst hup hk hresv hmine h) rfl rfl
    · exact runs_keeping (State.chCommit_whole ht hreach hst hup hk hresv hmine h)
    · exact runs_keeping (State.chCommit_premature ht hreach hst hup hk hresv hmine h)
    · exact runs_keeping (State.chRead_takes ht hreach hst hup hk hmsgs)
    · exact runs_to (State.chRead_blocks ht hreach hst hup hk hmsgs) rfl rfl
  case idle =>
    exact fun s t c n hst => ⟨runs_to (State.chReserve_idle hst c n) rfl rfl, runs_to (State.onChannel_idle hst _) rfl rfl,
      runs_to (State.onChannel_idle hst _) rfl rfl⟩
  case produce =>
    exact fun s c ws => ⟨fun hc hws hresv hroom => runs_keeping (State.hwProduce_whole hc hws hresv hroom),
      fun h => runs_to (State.hwProduce_none h) rfl rfl⟩

end Sys2Proof.Machine
end

section
/-! SUPPORT. Buffer pools: which buffer, which requester, and what becomes of a request (R385 to R389; log entry 88). -/
namespace Sys2Proof.Machine

theorem poolFor_eq_some {n p : Nat} : poolFor n = some p ↔ p < 4 ∧ n ≤ poolBufferSize p ∧ ∀ q, q < p → poolBufferSize q < n := by
  rw [poolFor, List.find?_range_eq_some]
  simp only [decide_eq_true_iff, List.mem_range, Bool.not_eq_true', decide_eq_false_iff_not, Nat.not_le]
  tauto

theorem poolFor_large {n : Nat} (h : 65536 < n) : poolFor n = none := by
  rw [Option.eq_none_iff_forall_ne_some]
  intro p hp
  have hsize : n ≤ poolBufferSize p := (poolFor_eq_some.1 hp).2.1
  unfold poolBufferSize at hsize
  split_ifs at hsize <;> omega

/-! ### The buffer and the requester -/

theorem firstGap_ge (l : List Nat) (n : Nat) : n ≤ firstGap n l := by
  induction l generalizing n with
  | nil => exact Nat.le_refl n
  | cons k l ih =>
    rw [firstGap]
    split
    · exact Nat.le_of_succ_le (ih (n + 1))
    · exact Nat.le_refl n

/-- The first gap of the indices of a canonical table is the lowest index it does not list. -/
theorem firstGap_keys {t : Tab Nat} (hwf : Tab.wf t = true) {n : Nat} (hlow : ∀ e ∈ t, n ≤ e.1) :
    t.at (firstGap n t.keys) = 0 ∧ ∀ j, n ≤ j → j < firstGap n t.keys → t.at j ≠ 0 := by
  induction t generalizing n with
  | nil => exact ⟨rfl, fun j h1 h2 => absurd (Nat.lt_of_le_of_lt h1 h2) (Nat.lt_irrefl n)⟩
  | cons e t ih =>
    obtain ⟨k, v⟩ := e
    obtain ⟨hv, habove, hwf⟩ := (Tab.wf_cons k v t).1 hwf
    have hn : n ≤ k := hlow (k, v) List.mem_cons_self
    have hgap : firstGap n (Tab.keys ((k, v) :: t)) = if k = n then firstGap (n + 1) (Tab.keys t) else n := rfl
    rw [hgap]
    split
    next heq =>
      subst heq
      obtain ⟨hfree, htaken⟩ := ih hwf habove
      have hpast := firstGap_ge (Tab.keys t) (k + 1)
      refine ⟨by rw [Tab.at_cons, if_neg (by omega), hfree], fun j h1 h2 => ?_⟩
      rw [Tab.at_cons]
      split
      · exact hv
      · exact htaken j (by omega) h2
    next hne =>
      rw [Tab.at_cons, if_neg (Ne.symm hne)]
      exact ⟨Tab.at_above t k n habove hn, fun j h1 h2 => absurd h1 (Nat.not_le.2 h2)⟩

theorem State.poolEmptyFor_iff {s : State} {req pool : Nat} : s.poolEmptyFor req pool = true
    ↔ poolBuffers pool ≤ (s.pacer.pool.at pool).owner.length ∨ s.quota req pool ≤ (s.pacer.pool.at pool).heldBy req := by
  simp [State.poolEmptyFor]

/-- The lowest-numbered free buffer is taken, and the pointer stands behind the requester. -/
theorem State.poolTake_owner {s u : State} {req pool i : Nat} (h : s.poolTake req pool = (u, i)) :
    i = firstGap 0 (s.pacer.pool.at pool).owner.keys
    ∧ (u.pacer.pool.at pool).owner = (s.pacer.pool.at pool).owner.put i (req + 1) ∧ (u.pacer.pool.at pool).ptr = (req + 1) % 5 := by
  obtain ⟨rfl, rfl⟩ := Prod.mk.inj h
  simp only [Tab.at_put_same, and_self]

/-- The winner asks a pool that is not empty for it, and every requester before it in the rotating order meets an empty pool. -/
theorem State.poolWinner_first {s : State} {pool n : Nat} {a : Ask} {l : List (Nat × Ask)} (h : s.poolWinner pool l = some (n, a)) :
    (n, a) ∈ l ∧ s.poolEmptyFor a.requester pool = false ∧ ∃ i < 5, a.requester = ((s.pacer.pool.at pool).ptr + i) % 5
      ∧ ∀ j < i, ∀ e ∈ l, e.2.requester = ((s.pacer.pool.at pool).ptr + j) % 5 → s.poolEmptyFor e.2.requester pool = true := by
  rw [State.poolWinner, List.findSome?_map, List.findSome?_eq_some_iff] at h
  obtain ⟨before, i, after, hrange, hfound, hnone⟩ := h
  rw [List.range_eq_range', List.range'_eq_append_iff] at hrange
  obtain ⟨k, hk, rfl, htail⟩ := hrange
  obtain ⟨rfl, hlt⟩ : i = k ∧ k < 5 := by
    obtain ⟨m, hm⟩ : ∃ m, 5 - k = m + 1 := ⟨5 - k - 1, by have := congrArg List.length htail; simp at this; omega⟩
    rw [hm, List.range'_succ, List.cons.injEq] at htail
    omega
  obtain ⟨hmem, hopen⟩ := List.mem_filter.1 (List.mem_of_find?_eq_some hfound)
  refine ⟨hmem, by simpa using hopen, i, hlt, by simpa using List.find?_some hfound, fun j hj e he hreq => ?_⟩
  have hpassed := List.find?_eq_none.1 (hnone j (List.mem_range'_1.2 ⟨Nat.zero_le j, by omega⟩)) e
  simpa [he, hreq] using hpassed

/-- One requester alone, for which the pool is not empty, wins. -/
theorem State.poolWinner_only {s : State} {pool n : Nat} {a : Ask} (hopen : s.poolEmptyFor a.requester pool = false) (hreq : a.requester < 5) :
    s.poolWinner pool [(n, a)] = some (n, a) := by
  cases hwinner : s.poolWinner pool [(n, a)] with
  | some w => exact congrArg some (List.mem_singleton.1 (State.poolWinner_first hwinner).1)
  | none =>
    rw [State.poolWinner, List.findSome?_eq_none_iff] at hwinner
    have hturn : a.requester ∈ (List.range 5).map (fun i => ((s.pacer.pool.at pool).ptr + i) % 5) :=
      List.mem_map.2 ⟨(a.requester + 5 - (s.pacer.pool.at pool).ptr % 5) % 5, List.mem_range.2 (by omega), by omega⟩
    simpa [hopen] using hwinner a.requester hturn

/-! ### What becomes of a request -/

section askAlone
variable {s : State} {n : Nat} {a : Ask}

theorem State.askAlone_granted (hopen : s.poolEmptyFor a.requester a.pool = false) (hpkt : a.pkt = none) :
    s.askAlone n a = ((s.setAsk n none).poolTake a.requester a.pool).1 := by
  simp only [State.askAlone, hopen, Bool.false_eq_true, if_false, State.granted, hpkt]

theorem State.askAlone_refused (hempty : s.poolEmptyFor a.requester a.pool = true) : s.askAlone n a = s.refusedAsk n a := if_pos hempty

theorem State.refusedAsk_steps (hstep : s.parOn P.stepUp a.requester = true) (hpool : a.pool < 3) :
    s.refusedAsk n a = s.setAsk n (some { a with wait := 1 }) := if_pos (by simp [hstep, hpool])

theorem State.refusedAsk_ends (h : s.parOn P.stepUp a.requester = false ∨ 3 ≤ a.pool) : s.refusedAsk n a = s.noPool n a := by
  refine if_neg ?_
  rcases h with h | h
  · simp [h]
  · simp [Nat.not_lt.2 h]

theorem State.noPool_gmu (h : a.requester = 2) : s.noPool n a = (s.setAsk n none).count Stat.gmuPoolDrops := by
  simp only [State.noPool, h]

theorem State.noPool_waits (h : a.requester = 0 ∨ a.requester = 3) : s.noPool n a =
    (s.setAsk n (some { a with wait := 2, pool := (poolFor a.bytes).getD 3 })).count Stat.poolEmpty a.requester := by
  rcases h with h | h <;> simp only [State.noPool, h]

theorem State.noPool_answers (h : a.requester = 1 ∨ a.requester = 4) : s.noPool n a =
    ((s.setAsk n none).count Stat.poolEmpty a.requester).emit (.poolRefused a.requester E.poolEmpty) := by
  rcases h with h | h <;> simp only [State.noPool, h]

/-- A cycle in which one request asks a pool. -/
theorem State.poolCycle_alone (hreq : a.requester < 5) : s.poolCycle [(n, a)] a.pool = s.askAlone n a := by
  cases hopen : s.poolEmptyFor a.requester a.pool with
  | true =>
    have hwinner : s.poolWinner a.pool [(n, a)] = none := by simp [State.poolWinner, hopen]
    rw [State.askAlone_refused hopen]
    simp [State.poolCycle, hwinner, hopen]
  | false =>
    have hwinner := State.poolWinner_only (n := n) hopen hreq
    simp [State.poolCycle, hwinner, State.askAlone, hopen]

omit n a in
/-- A cycle in which nothing asks the pool. -/
theorem State.poolCycle_none {l : List (Nat × Ask)} {pool : Nat} (h : l.filter (fun e => e.2.pool == pool) = []) : s.poolCycle l pool = s := by
  have hwinner : s.poolWinner pool [] = none := by simp [State.poolWinner]
  simp [State.poolCycle, hwinner, h]

theorem State.poolCycle_elsewhere {pool : Nat} (h : pool ≠ a.pool) : s.poolCycle [(n, a)] pool = s :=
  State.poolCycle_none (by simp [Ne.symm h])

end askAlone

/-- Rounds that change nothing. -/
theorem State.forEach_still {α : Type} {f : State → α → State} {l : List α} (h : ∀ a ∈ l, ∀ u, f u a = u) {s : State} : s.forEach l f = s :=
  State.forEach_invariant (P := fun u => u = s) (fun _ hu a ha => (h a ha _).trans hu) rfl

/-- Rounds of which one alone changes the state. -/
theorem State.forEach_range_one {f : State → Nat → State} {g : State → State} {m p : Nat} (hp : p < m) (hother : ∀ u j, j ≠ p → f u j = u)
    (hone : ∀ u, f u p = g u) {s : State} : s.forEach (List.range m) f = g s := by
  have hsplit : List.range m = List.range' 0 p ++ p :: List.range' (p + 1) (m - p - 1) := by
    rw [List.range_eq_range', List.range'_eq_append_iff]
    exact ⟨p, hp.le, rfl, by rw [Nat.zero_add, Nat.mul_one, show m - p = m - p - 1 + 1 by omega, List.range'_succ, Nat.add_sub_cancel]⟩
  rw [hsplit, State.forEach, List.foldl_append, List.foldl_cons]
  change State.forEach (f (State.forEach s (List.range' 0 p) f) p) _ f = _
  rw [State.forEach_still (s := s) (fun j hj u => hother u j (by rw [List.mem_range'_1] at hj; omega)), hone,
    State.forEach_still (fun j hj u => hother u j (by rw [List.mem_range'_1] at hj; omega))]

/-- One request alone in its cycle. -/
theorem State.poolAllocate_alone {s : State} {req bytes p : Nat} {a : Ask} (hup : s.pacer.down = false) (hreq : req < 5)
    (hp : poolFor bytes = some p) (ha : a = { requester := req, bytes := bytes, pool := p }) :
    s.poolAllocate [{ requester := req, bytes := bytes }] =
      State.askAlone { s with pacer := { s.pacer with nextAsk := s.pacer.nextAsk + 1 } } s.pacer.nextAsk a := by
  have hall : s.poolAllocate [{ requester := req, bytes := bytes }] =
      ({ s with pacer := { s.pacer with nextAsk := s.pacer.nextAsk + 1 } } : State).forEach (List.range 4)
        (fun u pool => u.poolCycle [(s.pacer.nextAsk, a)] pool) := by
    subst ha
    simp only [State.poolAllocate, hup, Bool.false_eq_true, if_false, List.filter_cons, List.filter_nil, hp, hreq, decide_true,
      Option.isNone_some, Option.isSome_some, Bool.and_true, Bool.and_false, if_true, State.forEach_nil, List.map_cons, List.map_nil,
      List.length_singleton, List.range_one, List.zip_cons_cons, List.zip_nil_left, Nat.add_zero, Option.getD_some]
  have hpool : a.pool < 4 := by rw [ha]; exact (poolFor_eq_some.1 hp).1
  have hreq : a.requester < 5 := by rw [ha]; exact hreq
  exact hall.trans (State.forEach_range_one hpool (g := fun u => u.askAlone s.pacer.nextAsk a) (fun u q hq => State.poolCycle_elsewhere hq)
    (fun u => State.poolCycle_alone hreq))

theorem State.poolAllocate_large {s : State} {req bytes : Nat} (hlarge : 65536 < bytes) (hreq : req < 5) (hup : s.pacer.down = false) :
    s.poolAllocate [{ requester := req, bytes := bytes }] = s.emit (.poolRefused req E.range) := by
  have hall : s.poolAllocate [{ requester := req, bytes := bytes }] =
      (s.emit (.poolRefused req E.range)).forEach (List.range 4) (fun u pool => u.poolCycle [] pool) := by
    simp only [State.poolAllocate, hup, Bool.false_eq_true, if_false, List.filter_cons, List.filter_nil, poolFor_large hlarge, hreq, decide_true,
      Option.isNone_none, Option.isSome_none, Bool.and_true, Bool.and_false, if_true, State.forEach_cons, State.forEach_nil]
    rfl
  exact hall.trans (State.forEach_still fun _ _ _ => State.poolCycle_none List.filter_nil)

end Sys2Proof.Machine
end

section
/-! O41: which pool and buffer a request takes, and what a refusal leads to. -/
namespace Sys2Proof.Machine

theorem exec_poolAllocate (asks : List PoolAsk) (s : State) : exec (.poolAllocate asks) s = runs (fun s => s.poolAllocate asks) s := rfl

theorem exec_poolStepUp (n : Nat) (s : State) : exec (.poolStepUp n) s = runs (fun s => s.poolStep n) s := rfl

theorem exec_poolRetry (n : Nat) (s : State) : exec (.poolRetry n) s = runs (fun s => s.poolAgain n) s := rfl

theorem exec_poolFree (pool b : Nat) (s : State) : exec (.poolFree pool b) s =
    runs (fun s => if 4 ≤ pool ∨ poolBuffers pool ≤ b then s else s.poolRelease pool b) s := rfl

/-- Settles O41: the buffer and the winner by their searches, a request alone by `State.askAlone`'s cases (log entry 88). -/
theorem poolsServeTheirRequesters : Obligations.PoolsServeTheirRequesters := by
  unfold Obligations.PoolsServeTheirRequesters
  simp only [exec_poolAllocate, exec_poolStepUp, exec_poolRetry, exec_poolFree]
  refine ⟨fun n p => poolFor_eq_some, ?take, fun s req pool => State.poolEmptyFor_iff, ?winner,
    fun s req bytes p a hup hreq hp ha => runs_keeping (State.poolAllocate_alone hup hreq hp ha),
    fun s req bytes hlarge hreq hup => runs_to (State.poolAllocate_large hlarge hreq hup) (by simp) (by simp), ?down, ?again, ?alone, ?free⟩
  case take =>
    intro s u req pool i hwf h
    obtain ⟨rfl, howner, hptr⟩ := State.poolTake_owner h
    obtain ⟨hfree, htaken⟩ := firstGap_keys hwf (n := 0) (fun _ _ => Nat.zero_le _)
    exact ⟨hfree, fun j => htaken j (Nat.zero_le j), howner, hptr⟩
  case winner =>
    intro s pool n i a l h
    obtain ⟨hmem, hopen, k, hk, hturn, hbefore⟩ := State.poolWinner_first h
    refine ⟨hmem, hopen, fun hi hi5 j hj => hbefore j ?_⟩
    omega
  case down =>
    refine fun s asks n hdown => ⟨runs_to (if_pos hdown) rfl rfl, ?_, ?_⟩
    · refine runs_to (s := s) (t := s) ?_ rfl rfl
      cases hask : s.pacer.ask.at n <;> simp [State.poolStep, hask, hdown]
    · refine runs_to (s := s) (t := s) ?_ rfl rfl
      cases hask : s.pacer.ask.at n <;> simp [State.poolAgain, hask, hdown]
  case again =>
    intro s n a hask hup
    have hstep : s.poolStep n = if a.wait = 1 ∧ s.pacer.down = false then s.askAlone n { a with pool := a.pool + 1 } else s := by
      rw [State.poolStep, hask]
    have hagain : s.poolAgain n = if (a.wait = 0 ∨ a.wait = 3) ∧ s.pacer.down = false then s.askAlone n a else s := by
      rw [State.poolAgain, hask]
    exact ⟨fun hwait => runs_keeping (hstep.trans (if_pos ⟨hwait, hup⟩)), fun hwait => runs_keeping (hagain.trans (if_pos ⟨hwait, hup⟩)),
      fun hwait => ⟨runs_to (hstep.trans (if_neg (by omega))) rfl rfl, runs_to (hagain.trans (if_neg (by omega))) rfl rfl⟩⟩
  case alone =>
    refine fun s n a => ⟨fun hempty => ?_, State.askAlone_granted⟩
    rw [State.askAlone_refused hempty]
    refine ⟨State.refusedAsk_steps, fun hends => ?_⟩
    rw [State.refusedAsk_ends hends]
    exact ⟨State.noPool_gmu, State.noPool_waits, State.noPool_answers⟩
  case free =>
    intro s pool b hpool hb
    have hfree : (if 4 ≤ pool ∨ poolBuffers pool ≤ b then s else s.poolRelease pool b) = s.poolRelease pool b := if_neg (by omega)
    exact ⟨fun htaken => runs_to (hfree.trans (if_pos htaken)) rfl rfl,
      fun hidle => runs_to (hfree.trans (if_neg (by simp [hidle]))) (by simp) (by simp)⟩

end Sys2Proof.Machine
end

section
/-! SUPPORT. The mailbox handshake, the checks of a request in their order, and SEQ (R391 to R394, R406 to R411; log entries 74, 90). -/
namespace Sys2Proof.Machine

/-! ### The handshake -/

section slots
variable {s : State} {slot : Nat}

/-- A slot is changed by what a change makes of the slot as it stands. -/
theorem State.updSlot_congr {f g : Slot → Slot} (h : f (s.mbx.slot.at slot) = g (s.mbx.slot.at slot)) : s.updSlot slot f = s.updSlot slot g := by
  simp only [State.updSlot, Tab.upd, h]

theorem State.writeWindow_past {off : Nat} {l : List Byte} (h : 4096 < off + l.length) : s.writeWindow slot off l = s := if_pos (.inr h)

theorem State.writeWindow_taken {off : Nat} {l : List Byte} (hslot : slot < 256) (hoff : off + l.length ≤ 4096) (h : (s.mbx.slot.at slot).st ≠ 1) :
    s.writeWindow slot off l = s.updSlot slot (fun k => { k with request := overlay k.request off l }) :=
  (if_neg (by omega)).trans (State.updSlot_congr (if_neg h))

theorem State.writeWindow_dropped {off : Nat} {l : List Byte} (hslot : slot < 256) (hoff : off + l.length ≤ 4096) (h : (s.mbx.slot.at slot).st = 1) :
    s.writeWindow slot off l = s.updSlot slot (fun k => { k with wrDropped := true }) :=
  (if_neg (by omega)).trans (State.updSlot_congr (if_pos h))

theorem State.releaseSlot_done (hslot : slot < 256) (h : (s.mbx.slot.at slot).st = 2) :
    s.releaseSlot slot = s.updSlot slot (fun k => { k with st := 0 }) :=
  (if_neg (Nat.not_le.2 hslot)).trans (State.updSlot_congr (if_pos h))

variable {dma : Option (List Byte)}

theorem State.ring_unstarted (h : s.tequin = false) : s.ring slot dma = s := if_pos (.inr h)

variable (hslot : slot < 256) (hup : s.tequin = true)
include hslot hup

theorem State.ring_busy (h : (s.mbx.slot.at slot).st = 1) : s.ring slot dma = s.updSlot slot (fun k => { k with wrDropped := true }) := by
  rw [State.ring, if_neg (by simp [hup]; omega), if_pos h]

theorem State.ring_submits {u : State} (h : (s.mbx.slot.at slot).st ≠ 1) (hu : u = s.updSlot slot (fun k => { k with st := 1, acc := none, held := none })) :
    s.ring slot dma = if s.pacer.down then { u with mbx := { u.mbx with rung := s.mbx.rung ++ [(slot, requestOf (s.mbx.slot.at slot).request dma)] } }
      else u.checkRequest slot (requestOf (s.mbx.slot.at slot).request dma) := by
  rw [State.ring, if_neg (by simp [hup]; omega), if_neg h, hu]
  simp only [State.updSlot_slot]
  rfl

end slots

/-! ### SEQ (R407) -/

section takeSeq
variable {k j : Session} {q x : Nat}

theorem Session.takeSeq_above (h : k.high < q) :
    k.takeSeq q = some { k with window := ((k.window * 2 ^ min (q - k.high) 64) % 2 ^ 64) ||| 1, high := q } := by
  rw [Session.takeSeq, if_neg (by omega), if_pos h]

theorem Session.takeSeq_within (h0 : q ≠ 0) (hle : q ≤ k.high) (hnear : k.high - q < 64) (hnew : bit k.window (k.high - q) = false) :
    k.takeSeq q = some { k with window := k.window ||| 2 ^ (k.high - q) } := by
  rw [Session.takeSeq, if_neg h0, if_neg (Nat.not_lt.2 hle), if_pos ⟨hnear, hnew⟩]

theorem Session.takeSeq_eq_none : k.takeSeq q = none ↔ q = 0 ∨ q ≤ k.high ∧ (64 ≤ k.high - q ∨ bit k.window (k.high - q) = true) := by
  constructor
  · intro hnone
    by_contra hnot
    push Not at hnot
    obtain ⟨h0, hwithin⟩ := hnot
    by_cases hle : q ≤ k.high
    · obtain ⟨hnear, hnew⟩ := hwithin hle
      rw [Session.takeSeq_within h0 hle hnear (by simpa using hnew)] at hnone
      exact Option.some_ne_none _ hnone
    · rw [Session.takeSeq_above (Nat.not_le.1 hle)] at hnone
      exact Option.some_ne_none _ hnone
  · rintro (rfl | ⟨hle, h⟩)
    · rfl
    · rw [Session.takeSeq]
      split
      · rfl
      · rw [if_neg (Nat.not_lt.2 hle), if_neg]
        rintro ⟨hnear, hnew⟩
        rcases h with h | h
        · omega
        · simp [h] at hnew

/-- A SEQ that is taken: above the highest, or a new one of the window. -/
theorem Session.takeSeq_eq_some (h : k.takeSeq q = some j) :
    q ≠ 0 ∧ (k.high < q ∧ j.high = q ∧ j.window = ((k.window * 2 ^ min (q - k.high) 64) % 2 ^ 64) ||| 1
      ∨ q ≤ k.high ∧ k.high - q < 64 ∧ j.high = k.high ∧ j.window = k.window ||| 2 ^ (k.high - q)) := by
  have hopen : ¬ (q = 0 ∨ q ≤ k.high ∧ (64 ≤ k.high - q ∨ bit k.window (k.high - q) = true)) :=
    fun hnot => Option.some_ne_none j (h.symm.trans (Session.takeSeq_eq_none.2 hnot))
  push Not at hopen
  obtain ⟨h0, hwithin⟩ := hopen
  refine ⟨h0, ?_⟩
  by_cases hle : q ≤ k.high
  · obtain ⟨hnear, hnew⟩ := hwithin hle
    rw [Session.takeSeq_within h0 hle hnear (by simpa using hnew), Option.some.injEq] at h
    subst h
    exact .inr ⟨hle, hnear, rfl, rfl⟩
  · rw [Session.takeSeq_above (Nat.not_le.1 hle), Option.some.injEq] at h
    subst h
    exact .inl ⟨Nat.not_le.1 hle, rfl, rfl⟩

/-- A SEQ is taken once. -/
theorem Session.takeSeq_again (h : k.takeSeq q = some j) : j.takeSeq q = none := by
  rw [Session.takeSeq_eq_none]
  obtain ⟨-, ⟨_, hhigh, hwindow⟩ | ⟨hle, _, hhigh, hwindow⟩⟩ := Session.takeSeq_eq_some h
  · exact .inr ⟨hhigh.ge, .inr (by simp [hhigh, hwindow, bit])⟩
  · exact .inr ⟨hhigh ▸ hle, .inr (by simp [hhigh, hwindow, bit])⟩

/-- A SEQ that is refused is refused after any other has been taken. -/
theorem Session.takeSeq_refused (hnone : k.takeSeq q = none) (h : k.takeSeq x = some j) : j.takeSeq q = none := by
  rw [Session.takeSeq_eq_none] at hnone ⊢
  refine hnone.imp_right ?_
  rintro ⟨hle, hpast⟩
  obtain ⟨-, ⟨habove, hhigh, hwindow⟩ | ⟨_, _, hhigh, hwindow⟩⟩ := Session.takeSeq_eq_some h
  · refine ⟨by omega, ?_⟩
    by_cases hfar : 64 ≤ j.high - q
    · exact .inl hfar
    · refine .inr ?_
      have hseen : bit k.window (k.high - q) = true := hpast.resolve_left (by omega)
      have hplace : k.high - q = x - q - (x - k.high) := by omega
      rw [hwindow, hhigh, bit, Nat.testBit_or, Nat.testBit_mod_two_pow, Nat.min_eq_left (by omega), Nat.testBit_mul_two_pow]
      rw [bit, hplace] at hseen
      simp [hseen]
      omega
  · exact ⟨hhigh ▸ hle, hpast.imp (fun hfar => hhigh ▸ hfar) (fun hseen => by
      rw [bit] at hseen
      rw [hwindow, hhigh, bit, Nat.testBit_or, hseen, Bool.true_or])⟩

/-- An accepted SEQ opens its session and starts its idle timer again. -/
theorem State.acceptSeq_session {s u : State} {c seq : Nat} (h : s.acceptSeq c seq = some u) :
    (u.sess c).st = 2 ∧ (u.sess c).deadline = s.time.mono + 1000000000 * s.par P.sessionIdleS := by
  obtain ⟨x, _, rfl⟩ := Option.map_eq_some_iff.1 h
  simp [State.sess]

end takeSeq

/-! ### The checks of R408 -/

section checkRequest
variable {s : State} {slot : Nat} {r : Request} {a : Accepted}

section form
variable (ha : a = r.accepted (s.instGen (slotInst slot)))
include ha

theorem State.checkRequest_form (hform : r.formatOk = false) : s.checkRequest slot r = s.refuse slot a E.format := by
  rw [ha, State.checkRequest]
  exact if_pos (by rw [hform]; rfl)

variable (hform : r.formatOk = true)
include hform

theorem State.checkRequest_session (hsession : r.session < 16) (h : (s.sess r.session).live = false ∨ (s.sess r.session).inst ≠ slotInst slot) :
    s.checkRequest slot r = s.refuse slot a E.session := by
  have hother : r.session ≠ 255 := by omega
  rw [ha]
  simp only [State.checkRequest, hform, Bool.not_true, Bool.false_eq_true, if_false, if_neg hother]
  refine if_pos ?_
  rcases h with h | h <;> simp [h]

variable (hflag : r.flag 0 = false)
include hflag

theorem State.checkRequest_unsessioned (hsession : r.session = 255) (hop : unsessioned r.op = true) :
    s.checkRequest slot r = s.updSlot slot (fun k => { k with acc := some a }) := by
  rw [ha]
  simp [State.checkRequest, hform, hsession, hop, hflag, State.verify]

theorem State.checkRequest_passes (hsession : r.session < 16) (hlive : (s.sess r.session).live = true) (hinst : (s.sess r.session).inst = slotInst slot) :
    s.checkRequest slot r = s.verify slot a r := by
  have hother : r.session ≠ 255 := by omega
  rw [ha]
  simp [State.checkRequest, hform, hsession, hother, hlive, hinst, hflag]

end form

section verify
variable (hsession : r.session < 16)
include hsession

theorem State.verify_waits (hroom : s.cmacRoom (if r.flag 2 = true then 2 else 1) = false) :
    s.verify slot a r = s.askTag slot (if r.flag 2 = true then 2 else 1) (.request a r) := by
  rw [State.verify, if_neg (by omega)]
  exact if_neg (by rw [hroom]; exact Bool.false_ne_true)

theorem State.verify_room (hroom : s.cmacRoom (if r.flag 2 = true then 2 else 1) = true) : s.verify slot a r = s.verifyTag slot a r := by
  rw [State.verify, if_neg (by omega)]
  exact if_pos hroom

end verify

theorem State.verifyTag_unsigned (h : Crypto.cmac (s.sess r.session).key ([0x01#8] ++ r.head.take 80 ++ r.payload) ≠ slice r.head 80 16) :
    s.verifyTag slot a r = s.refuse slot a E.unsigned := if_pos h

variable (htag : Crypto.cmac (s.sess r.session).key ([0x01#8] ++ r.head.take 80 ++ r.payload) = slice r.head 80 16)
include htag

theorem State.verifyTag_replay (h : (s.sess r.session).takeSeq r.seq = none) : s.verifyTag slot a r = s.refuse slot a E.replay := by
  have hseq : s.acceptSeq r.session r.seq = none := by rw [State.acceptSeq, h]; rfl
  rw [State.verifyTag, if_neg (not_not.2 htag), hseq]

theorem State.verifyTag_accepted {u : State} {i : OpInfo} (hseq : s.acceptSeq r.session r.seq = some u) (hop : opInfo r.op = some i)
    (hcritical : i.critical = false) (hflag : r.flag 2 = false) :
    s.verifyTag slot a r = State.updSlot { u with mbx := { u.mbx with accepted := u.mbx.accepted + 1 } } slot
      (fun k => { k with acc := some { a with order := u.mbx.accepted, at_ := u.time.mono } }) := by
  rw [State.verifyTag, if_neg (not_not.2 htag), hseq]
  simp [hop, hcritical, hflag]

end checkRequest

end Sys2Proof.Machine
end

section
/-! O42: what the mailbox rows do, and the order of the checks. -/
namespace Sys2Proof.Machine

theorem exec_requestWindowWrite (slot off : Nat) (l : List Byte) (s : State) :
    exec (.requestWindowWrite slot off l) s = runs (fun s => s.writeWindow slot off l) s := rfl

theorem exec_mbxRelease (slot : Nat) (s : State) : exec (.mbxRelease slot) s = runs (fun s => s.releaseSlot slot) s := rfl

theorem exec_mbxWrDroppedClear (slot : Nat) (s : State) : exec (.mbxWrDroppedClear slot) s =
    runs (fun s => if 256 ≤ slot then s else s.updSlot slot (fun k => { k with wrDropped := false })) s := rfl

theorem exec_doorbellRing (slot : Nat) (dma : Option (List Byte)) (s : State) :
    exec (.doorbellRing slot dma) s = runs (fun s => s.ring slot dma) s := rfl

/-- Settles O42: the handshake by the state of the slot, the checks in their order, and SEQ by its window. -/
theorem mailboxesTakeRequests : Obligations.MailboxesTakeRequests := by
  unfold Obligations.MailboxesTakeRequests
  simp only [exec_requestWindowWrite, exec_mbxRelease, exec_mbxWrDroppedClear, exec_doorbellRing]
  refine ⟨?handshake, ?checks, fun s slot r a hsession hroom => State.verify_waits hsession hroom, ?tag, fun s u c seq => State.acceptSeq_session,
    fun k q => Session.takeSeq_eq_none, fun k j q => Session.takeSeq_again, fun k j q x => Session.takeSeq_refused, fun s slot st a => rfl⟩
  case handshake =>
    intro s slot off l hslot
    refine ⟨fun h => runs_to (State.writeWindow_past h) rfl rfl, fun hoff h => runs_to (State.writeWindow_taken hslot hoff h) rfl rfl,
      fun hoff h => runs_to (State.writeWindow_dropped hslot hoff h) rfl rfl, fun h => runs_to (State.releaseSlot_done hslot h) rfl rfl,
      runs_to (if_neg (Nat.not_le.2 hslot)) rfl rfl, fun dma => ⟨fun h => runs_to (State.ring_unstarted h) rfl rfl, fun hup => ?_⟩⟩
    refine ⟨fun h => runs_to (State.ring_busy hslot hup h) rfl rfl, fun h u hu => ⟨fun hpacer => ?_, fun hpacer => ?_⟩⟩
    · exact runs_keeping ((State.ring_submits hslot hup h hu).trans (if_neg (by simp [hpacer])))
    · exact runs_to ((State.ring_submits hslot hup h hu).trans (if_pos hpacer)) (by rw [hu]; rfl) (by rw [hu]; rfl)
  case checks =>
    exact fun s slot r a hflag ha => ⟨State.checkRequest_form ha, State.checkRequest_session ha,
      fun hform => State.checkRequest_unsessioned ha hform hflag, fun hform => State.checkRequest_passes ha hform hflag⟩
  case tag =>
    intro s slot r a hsession hroom
    rw [State.verify_room hsession hroom]
    exact ⟨State.verifyTag_unsigned, fun htag => ⟨State.verifyTag_replay htag, fun u i => State.verifyTag_accepted htag⟩⟩

end Sys2Proof.Machine
end

section
/-! SUPPORT. The replies of group 0x01, case by case (R399 to R405, R414, R415; log entries 7, 8, 12, 91). -/
namespace Sys2Proof.Machine

/-- A command that something follows, when its tag is computed at once. -/
theorem runs_then {s u : State} {slot op : Nat} {a : Accepted} {f : State → Nat → Accepted → Reply} {what : Sequel} {next : State → State}
    (hg : s.grants slot op a) (hr : f s (slotInst slot) a = .after u [] what next)
    (htags : (u.tags a { rstate := 0, status := 0 } && !u.cmacFree) = false) :
    runs (serve slot op f) s = .next (s.keeping (next (u.answers slot a))) :=
  runs_grants hg (by rw [hr]; exact State.postThen_untagged htags what next)

/-! ### SESSION.OPEN -/

section sessionOpen
variable {s v : State} {i : Nat} {c : Chain} {ok : Bool} {a : Accepted}

/-- In FREERUN an entry is made, and nothing else changes. -/
theorem State.noteFreerun_only : s.noteFreerun i = { s with recd := (s.noteFreerun i).recd } := by
  unfold State.noteFreerun
  split
  · exact State.log_only ..
  · rfl

theorem State.sessionOpen_cert (h : s.chainStatus c = E.cert) : State.sessionOpen c ok s i a = .refuse E.cert := if_pos h

variable (hv : v = s.noteFreerun i)
include hv

theorem State.sessionOpen_unproved (h : s.chainStatus c = 0 ∨ s.chainStatus c = E.rootRevoked) (hok : ok = false) :
    State.sessionOpen c ok s i a = .refuseWith v E.unsigned [] := by
  have hcert : s.chainStatus c ≠ E.cert := by rcases h with h | h <;> rw [h] <;> decide
  rw [State.sessionOpen, if_neg hcert, hok, hv]
  rfl

theorem State.sessionOpen_revoked (h : s.chainStatus c = E.rootRevoked) (hok : ok = true) :
    State.sessionOpen c ok s i a = .refuseWith v E.rootRevoked [] := by
  rw [State.sessionOpen, if_neg (by rw [h]; decide), hok, hv, h]
  rfl

variable (hstatus : s.chainStatus c = 0) (hok : ok = true)
include hstatus hok

theorem State.sessionOpen_full (h : s.freeContext i = none) : State.sessionOpen c ok s i a = .refuseWith v E.noContext [] := by
  have hfull : (s.noteFreerun i).freeContext i = none := by rw [State.noteFreerun_only]; exact h
  rw [State.sessionOpen, if_neg (by rw [hstatus]; decide), hok, hstatus, hv]
  simp only [hfull]
  rfl

variable {k : Nat} (hk : s.freeContext i = some k)
include hk

theorem State.sessionOpen_entropy (h : s.sec.trngFailed = true) : State.sessionOpen c ok s i a = .refuseWith v E.entropy [] := by
  have hfree : (s.noteFreerun i).freeContext i = some k := by rw [State.noteFreerun_only]; exact hk
  have htrng : (s.noteFreerun i).sec.trngFailed = true := by rw [State.noteFreerun_only]; exact h
  rw [State.sessionOpen, if_neg (by rw [hstatus]; decide), hok, hstatus, hv]
  simp only [hfree, htrng]
  rfl

/-- The session that a SESSION.OPEN begins: pending, under the key of its exchange. -/
def State.opening (s : State) (c : Chain) (i k d : Nat) (nd : List Byte) (a : Accepted) : Session :=
  { st := 1, inst := i, deadline := s.time.mono + 1000000000 * s.par P.sessionConfirmS,
    ident := ((c.certs.head?).map (·.spki)).getD 0, root := ((chainRoot c).map (·.spki)).getD 0,
    key := sessionKey (beBytes 48 (Config.sharedSecret d (slice a.payload 0 97)).toNat) (slice a.payload 97 32) nd i k }

theorem State.sessionOpen_opens (h : s.sec.trngFailed = false) {d : Nat} {qd nd : List Byte} (hd : d = s.freeVal 384 % (p384Order - 1) + 1)
    (hqd : qd = beBytes 97 (Config.publicKey d).toNat) (hnd : nd = beBytes 32 (s.drawn.freeVal 256)) :
    ∃ sig, sig.length = 96 ∧ State.sessionOpen c ok s i a = .ok
      { v with mbx := { s.mbx with session := s.mbx.session.put k (s.opening c i k d nd a) }, free := s.free + 2 } (leBytes 1 k ++ qd ++ nd ++ sig) := by
  obtain ⟨r, hr⟩ : ∃ r, s.noteFreerun i = { s with recd := r } := ⟨_, State.noteFreerun_only⟩
  have hfree : State.freeContext { s with recd := r } i = some k := hk
  refine ⟨s.attestSign ([0x58#8, 0x51#8, 0x41#8, 0x43#8, 0x43#8, 0x45#8, 0x50#8, 0x54#8] ++ Crypto.sha384 a.payload ++ qd ++ nd ++ leBytes 1 k),
    beBytes_length _ _, ?_⟩
  rw [State.sessionOpen, if_neg (by rw [hstatus]; decide), hok, hstatus, hv, hr, hqd, hnd, hd]
  simp only [hfree, h]
  rfl

end sessionOpen

/-! ### Contexts and jobs -/

theorem State.freeContext_spec {s : State} {i k : Nat} (h : s.freeContext i = some k) :
    k < 16 ∧ (s.sess k).live = false ∧ (i ≠ 0 → s.par P.operatorContexts ≤ k) := by
  have hfree := List.find?_some h
  simp only [Bool.and_eq_true, Bool.not_eq_true', Bool.or_eq_true, beq_iff_eq, decide_eq_true_iff] at hfree
  obtain ⟨hlive, hshare⟩ := hfree
  exact ⟨List.mem_range.1 (List.mem_of_find?_eq_some h), hlive, hshare.resolve_left⟩

theorem State.target_spec {s : State} {i : Nat} {a : Accepted} {j : Job} (h : s.target i a = some j) :
    j ∈ s.mbx.jobs ∧ j.seq = leAt a.payload 0 8 ∧ (i ≠ 0 → j.session = a.session) := by
  have hspec : ∀ {b : Job}, b ∈ s.mbx.jobs.filter (fun j => j.slot.isNone && j.seq == leAt a.payload 0 8) → b ∈ s.mbx.jobs ∧ b.seq = leAt a.payload 0 8 := by
    intro b hb
    obtain ⟨hmem, hb⟩ := List.mem_filter.1 hb
    exact ⟨hmem, beq_iff_eq.1 (Bool.and_eq_true_iff.1 hb).2⟩
  simp only [State.target] at h
  split at h
  next x hfound =>
    obtain rfl := Option.some.inj h
    obtain ⟨hmem, hseq⟩ := hspec (List.mem_of_find?_eq_some hfound)
    exact ⟨hmem, hseq, fun _ => by simpa using List.find?_some hfound⟩
  next =>
    split at h
    next hi =>
      obtain ⟨hmem, hseq⟩ := hspec (List.mem_of_head? h)
      exact ⟨hmem, hseq, fun hne => absurd hi hne⟩
    next => exact absurd h (by simp)

section target
variable {s : State} {i : Nat} {a : Accepted}

theorem State.sessionPoll_none (h : s.target i a = none) : s.sessionPoll i a = .refuse E.noJob := by rw [State.sessionPoll, h]

theorem State.sessionPoll_kept {j : Job} (h : s.target i a = some j) : s.sessionPoll i a = .ok s
    (leBytes 1 j.rstate ++ leBytes 1 0 ++ leBytes 2 j.status ++ leBytes 4 j.done ++ leBytes 4 j.total ++ leBytes 2 (progress j.done j.total)
      ++ (if j.rstate = 1 then [] else j.result)) := by rw [State.sessionPoll, h]

theorem State.sessionAbort_none (h : s.target i a = none) : s.sessionAbort i a = .refuse E.noJob := by rw [State.sessionAbort, h]

theorem State.sessionAbort_running {j : Job} (h : s.target i a = some j) (hrun : j.rstate = 1) :
    s.sessionAbort i a = .ok (s.updJob j.session j.seq (fun j => { j with abort := true })) := by rw [State.sessionAbort, h]; simp only [if_pos hrun]

theorem State.sessionAbort_ended {j : Job} (h : s.target i a = some j) (hend : j.rstate ≠ 1) : s.sessionAbort i a = .ok s := by
  rw [State.sessionAbort, h]; simp only [if_neg hend]

end target

/-! ### Operator roots -/

section roots
variable {s : State} {i k : Nat} {a : Accepted} (hk : k = leAt a.payload 0 1)
include hk

theorem State.rootProgram_range (h : 4 ≤ k) : s.rootProgram i a = .refuse E.range := by
  subst hk; exact if_pos h

theorem State.rootProgram_writes (h : k < 4) (hhash : (s.mbx.root.at k).hash = none) (hrevoked : (s.mbx.root.at k).revoked = false) :
    s.rootProgram i a = .ok (s.setRoot k { hash := some (beAt a.payload 1 48) }) := by
  subst hk; exact (if_neg (Nat.not_le.2 h)).trans (if_neg (by simp [hhash, hrevoked]))

theorem State.rootProgram_inUse (h : k < 4) (hused : (s.mbx.root.at k).hash ≠ none ∨ (s.mbx.root.at k).revoked = true) :
    s.rootProgram i a = .refuse E.inUse := by
  subst hk
  refine (if_neg (Nat.not_le.2 h)).trans (if_pos ?_)
  rw [Bool.or_eq_true]
  exact hused.imp_left Option.isSome_iff_ne_none.2

theorem State.rootRevoke_last (h : k < 4) (hlast : s.otherRoots k = []) : s.rootRevoke i a = .refuse E.lastRoot := by
  subst hk; exact (if_neg (Nat.not_le.2 h)).trans (if_pos (List.isEmpty_iff.2 hlast))

theorem State.rootRevoke_revokes (h : k < 4) (hother : s.otherRoots k ≠ []) :
    s.rootRevoke i a = .after (s.setRoot k { s.mbx.root.at k with revoked := true }) [] (.closeRoot (s.mbx.root.at k).hash)
      (fun u => u.closeRoot (s.mbx.root.at k).hash) := by
  subst hk; exact (if_neg (Nat.not_le.2 h)).trans (if_neg (mt List.isEmpty_iff.1 hother))

end roots

end Sys2Proof.Machine
end

section
/-! O44: what the commands of group 0x01 answer and do. -/
namespace Sys2Proof.Machine

theorem exec_sessionDeviceId (slot : Nat) (s : State) :
    exec (.sessionDeviceId slot) s = runs (serve slot Op.sessionDeviceId State.deviceId) s := rfl

theorem exec_sessionOpen (slot : Nat) (c : Chain) (ok : Bool) (s : State) :
    exec (.sessionOpen slot c ok) s = runs (serve slot Op.sessionOpen (State.sessionOpen c ok)) s := rfl

theorem exec_sessionClose (slot : Nat) (s : State) : exec (.sessionClose slot) s = runs (serve slot Op.sessionClose State.sessionClose) s := rfl

theorem exec_sessionPoll (slot : Nat) (s : State) : exec (.sessionPoll slot) s = runs (serve slot Op.sessionPoll State.sessionPoll) s := rfl

theorem exec_sessionAbort (slot : Nat) (s : State) : exec (.sessionAbort slot) s = runs (serve slot Op.sessionAbort State.sessionAbort) s := rfl

theorem exec_sessionRootProgram (slot : Nat) (s : State) :
    exec (.sessionRootProgram slot) s = runs (serve slot Op.sessionRootProgram State.rootProgram) s := rfl

theorem exec_sessionRootRevoke (slot : Nat) (s : State) :
    exec (.sessionRootRevoke slot) s = runs (serve slot Op.sessionRootRevoke State.rootRevoke) s := rfl

/-- Settles O44: each clause is one reply of its command, carried out by the row that serves it. -/
theorem sessionCommands : Obligations.SessionCommands := by
  unfold Obligations.SessionCommands
  simp only [exec_sessionDeviceId, exec_sessionOpen, exec_sessionClose, exec_sessionPoll, exec_sessionAbort, exec_sessionRootProgram,
    exec_sessionRootRevoke]
  refine ⟨fun s slot a hg => runs_answers hg rfl, ?opens, fun s i k => State.freeContext_spec, fun s slot a hg => runs_follows (next := fun u => u.closeSession a.session none) hg rfl,
    fun s slot a hg => ⟨fun h => runs_refuses hg (State.sessionPoll_none h), fun j h => runs_answers hg (State.sessionPoll_kept h)⟩,
    fun s slot a hg => ⟨fun h => runs_refuses hg (State.sessionAbort_none h), fun j h =>
      ⟨fun hrun => runs_answers hg (State.sessionAbort_running h hrun), fun hend => runs_answers hg (State.sessionAbort_ended h hend)⟩⟩,
    fun s i a j => State.target_spec,
    fun s slot k a hg hk => ⟨fun h => runs_refuses hg (State.rootProgram_range hk h),
      fun h hhash hrevoked => runs_answers hg (State.rootProgram_writes hk h hhash hrevoked),
      fun h hused => runs_refuses hg (State.rootProgram_inUse hk h hused)⟩,
    fun s slot k a hg hk h => ⟨fun hlast => runs_refuses hg (State.rootRevoke_last hk h hlast),
      fun hother htags => runs_then hg (State.rootRevoke_revokes hk h hother) htags⟩⟩
  case opens =>
    intro s v slot a c ok hg hv
    refine ⟨fun h => runs_refuses hg (State.sessionOpen_cert h), fun h hok => runs_refusesWith hg (State.sessionOpen_unproved hv h hok),
      fun h hok => runs_refusesWith hg (State.sessionOpen_revoked hv h hok),
      fun h hok hk => runs_refusesWith hg (State.sessionOpen_full hv h hok hk),
      fun k h hok hk => ⟨fun htrng => runs_refusesWith hg (State.sessionOpen_entropy hv h hok hk htrng),
        fun htrng d qd nd hd hqd hnd => ?_⟩⟩
    obtain ⟨sig, hlen, hreply⟩ := State.sessionOpen_opens (a := a) hv h hok hk htrng hd hqd hnd
    exact ⟨_, sig, rfl, runs_answers hg hreply, hlen, Tab.at_put_same s.mbx.session k (s.opening c (slotInst slot) k d nd a),
      fun j hj => Tab.at_put_other s.mbx.session (s.opening c (slotInst slot) k d nd a) hj⟩

end Sys2Proof.Machine
end

section
/-! SUPPORT. The banks, the prelude of staging, and the staging commands, case by case (R423 to R433; log entry 92). -/
namespace Sys2Proof.Machine

/-! ### Parameters of a bank -/

theorem Bank.get_set_same (b : Bank) (p : Param) (i : Nat) (v : Int) : (b.set p i v).get p i = v := by
  rw [Bank.set, Bank.get]
  split
  next hdflt => rw [if_neg (by simp [Tab.has_del]), hdflt]
  next => rw [if_pos (by simp [Tab.has_ins]), Tab.at_ins_same]

theorem Bank.get_set_other (b : Bank) {p q : Param} {i j : Nat} (v : Int) (h : q.id * 2 ^ 32 + j ≠ p.id * 2 ^ 32 + i) :
    (b.set p i v).get q j = b.get q j := by
  rw [Bank.set, Bank.get, Bank.get]
  split
  · rw [Tab.has_del, Tab.at_del_other _ h, bne_iff_ne.2 h, Bool.and_true]
  · rw [Tab.has_ins, Tab.at_ins_other _ _ h, beq_eq_false_iff_ne.2 h, Bool.or_false]

/-! ### The prelude of a staging command -/

section stagePrelude
variable {s : State}

theorem State.stagePrelude_staging (hst : s.cfg.st = .staging) : s.stagePrelude = (s, s.cfg.window.isNone) := by
  rw [State.stagePrelude, hst]

theorem State.stagePrelude_busy (h : s.cfg.st = .committing ∨ s.cfg.st = .draining ∨ s.cfg.st = .retiring) : s.stagePrelude = (s, false) := by
  rcases h with h | h | h <;> rw [State.stagePrelude, h]

variable (hst : s.cfg.st = .empty ∨ s.cfg.st = .previous ∨ s.cfg.st = .retired)
include hst

/-- The generation that a copy of Active is numbered behind: the later of the last good one and Active's. -/
def State.latestGen (s : State) : BitVec 16 := if later 16 s.cfg.lastGood.toNat s.cfg.activeGen.toNat then s.cfg.lastGood else s.cfg.activeGen

/-- Standby holds no staged change. -/
theorem State.stagePrelude_idle : s.stagePrelude =
    if 32766 ≤ (s.cfg.activeGen - s.cfg.lastGood).toNat then (s.ruleEvent 431 s.cfg.activeGen.toNat 0 [s.cfg.lastGood.toNat], false)
    else if s.cfg.window.isSome then (s, false)
    else (s.copyActive.updCfg (fun c => { c with standbyGen := s.latestGen + 1 }), true) := by
  rcases hst with h | h | h <;> rw [State.stagePrelude, h] <;> rfl

theorem State.stagePrelude_far (h : 32766 ≤ (s.cfg.activeGen - s.cfg.lastGood).toNat) :
    s.stagePrelude = (s.ruleEvent 431 s.cfg.activeGen.toNat 0 [s.cfg.lastGood.toNat], false) := (State.stagePrelude_idle hst).trans (if_pos h)

variable (h : (s.cfg.activeGen - s.cfg.lastGood).toNat < 32766)
include h

theorem State.stagePrelude_window (hwindow : s.cfg.window ≠ none) : s.stagePrelude = (s, false) :=
  (State.stagePrelude_idle hst).trans ((if_neg (Nat.not_le.2 h)).trans (if_pos (Option.isSome_iff_ne_none.2 hwindow)))

theorem State.stagePrelude_copies (hwindow : s.cfg.window = none) :
    s.stagePrelude = (s.copyActive.updCfg (fun c => { c with standbyGen := s.latestGen + 1 }), true) :=
  (State.stagePrelude_idle hst).trans ((if_neg (Nat.not_le.2 h)).trans (if_neg (by simp [hwindow])))

end stagePrelude

theorem State.latestGen_eq (s : State) : s.latestGen = s.cfg.activeGen ∨ s.latestGen = s.cfg.lastGood := by
  unfold State.latestGen
  split
  · exact .inr rfl
  · exact .inl rfl

section stage
variable {s u : State} {f : State → Reply}

theorem State.stage_open (h : s.stagePrelude = (u, true)) : s.stage f = f u := by rw [State.stage, h]

theorem State.stage_busy (h : s.stagePrelude = (u, false)) : s.stage f = .refuseWith u E.busy [] := by rw [State.stage, h]

end stage

/-! ### Elements -/

section element
variable {s : State} {e : Nat × Nat × List Byte}

theorem State.elementStatus_ok {p : Param} (h : s.elementStatus e = 0) (hp : findParam e.1 = some p) :
    e.2.1 < p.count ∧ p.form.lenOk e.2.2.length = true ∧ p.form.rangeOk e.2.1 (p.form.decode e.2.2) = true := by
  simp only [State.elementStatus, hp] at h
  split_ifs at h with hcount hlen hrange
  · exact absurd h (by decide)
  · exact absurd h (by decide)
  · exact absurd h (by decide)
  · simp only [Bool.or_eq_true, Bool.not_eq_true', not_or, Bool.not_eq_false] at hrange
    exact ⟨Nat.not_le.1 hcount, by simpa using hlen, hrange.1⟩

theorem State.stageElement_cfg {p : Param} (hp : findParam e.1 = some p) :
    (s.stageElement e).cfg = { s.cfg with standby := s.cfg.standby.set p e.2.1 (p.form.decode e.2.2) } := by
  simp only [State.stageElement, hp]
  split <;> rfl

theorem stageAll_applied (n : Nat) (l : List (Nat × Nat × List Byte)) (h : s.elementStatus e = 0) : stageAll n s (e :: l) =
    ((stageAll (n + 1) (s.stageElement e) l).1, (stageAll (n + 1) (s.stageElement e) l).2.1 + 1, (stageAll (n + 1) (s.stageElement e) l).2.2) := by
  rw [stageAll]
  exact if_pos h

theorem stageAll_failed (n : Nat) (l : List (Nat × Nat × List Byte)) (h : s.elementStatus e ≠ 0) : stageAll n s (e :: l) =
    ((stageAll (n + 1) s l).1, (stageAll (n + 1) s l).2.1, (n, s.elementStatus e) :: (stageAll (n + 1) s l).2.2) := by
  rw [stageAll]
  exact if_neg h

end element

/-- The elements of a bank are read without an effect. -/
theorem getAll_bank (b : Bank) (s : State) (l : List (Nat × Nat)) : getAll (some b) s l =
    (s, l.flatMap (fun e => match findParam e.1 with | some p => element e.1 e.2 (p.form.encode (b.valueOf p e.2)) | none => [])) := by
  induction l with
  | nil => rfl
  | cons e l ih =>
    rw [getAll, List.flatMap_cons]
    cases findParam e.1 with
    | none => exact ih
    | some p => simp only [ih]

/-! ### CFG.SET, CFG.GET -/

section cfgSet
variable {s : State} {i : Nat} {a : Accepted} {l : List (Nat × Nat × List Byte)} (hl : elementsFrom (batchCount a.payload) (a.payload.drop 8) = some l)

theorem State.cfgSet_range (h : batchCount a.payload < 1 ∨ 4096 < batchCount a.payload) : s.cfgSet i a = .refuse E.range := if_pos h

variable (h1 : 1 ≤ batchCount a.payload) (h4096 : batchCount a.payload ≤ 4096)
include hl h1 h4096

theorem State.cfgSet_notOwner {o : Nat} (ho : o ∈ s.owners (l.map (fun e => (e.1, e.2.1)))) (hother : owns i o = false) :
    s.cfgSet i a = .refuse E.notOwner := by
  simp only [State.cfgSet, hl, Option.getD_some]
  refine (if_neg (by omega)).trans (if_pos ?_)
  rw [Bool.not_eq_true', List.all_eq_false]
  exact ⟨o, ho, by simp [hother]⟩

theorem State.cfgSet_stages (hmine : ∀ o ∈ s.owners (l.map (fun e => (e.1, e.2.1))), owns i o = true ∧ s.frozen o = false) :
    s.cfgSet i a = s.stage (fun u => .done (stageAll 0 u l).1 (if (stageAll 0 u l).2.2.isEmpty then 0 else E.partial_)
      (batchResult (stageAll 0 u l).2.1 (stageAll 0 u l).2.2) []) := by
  simp only [State.cfgSet, hl, Option.getD_some]
  refine (if_neg (by omega)).trans ((if_neg ?_).trans (if_neg ?_))
  · rw [Bool.not_eq_true', Bool.not_eq_false, List.all_eq_true]
    exact fun o ho => (hmine o ho).1
  · rw [List.any_eq_true]
    rintro ⟨o, ho, hfrozen⟩
    exact Bool.false_ne_true ((hmine o ho).2.symm.trans hfrozen)

end cfgSet

/-- The bank that CFG.GET reads: Active, or a Standby that is not EMPTY. -/
theorem State.cfgGet_reads {s : State} {i n : Nat} {a : Accepted} {l : List (Nat × Nat)} {b : Bank} (hn : n = leAt a.payload 2 2)
    (hl : l = (List.range n).map (fun i => (leAt a.payload (8 + 8 * i) 2, leAt a.payload (10 + 8 * i) 4))) (h1 : 1 ≤ n) (h256 : n ≤ 256)
    (hmine : ∀ o ∈ s.owners l, owns i o = true) (hknown : ∀ e ∈ l, ∃ p, findParam e.1 = some p ∧ e.2 < p.count)
    (hbank : leAt a.payload 0 1 = 0 ∧ b = s.cfg.active ∨ leAt a.payload 0 1 = 1 ∧ s.cfg.st ≠ .empty ∧ b = s.cfg.standby) :
    s.cfgGet i a = .ok s (getAll (some b) s l).2 := by
  have hbad : l.any (fun e => match findParam e.1 with | some p => decide (p.count ≤ e.2) | none => true) = false := by
    rw [List.any_eq_false]
    intro e he
    obtain ⟨p, hp, hcount⟩ := hknown e he
    simp [hp, hcount]
  have hread : (if leAt a.payload 0 1 = 0 then some s.cfg.active else if s.cfg.st = .empty then none else some s.cfg.standby) = some b := by
    rcases hbank with ⟨h0, hb⟩ | ⟨h0, hst, hb⟩
    · rw [if_pos h0, hb]
    · rw [if_neg (by omega), if_neg hst, hb]
  have hform : ¬ (1 < leAt a.payload 0 1 ∨ n < 1 ∨ 256 < n) := by omega
  simp only [State.cfgGet, ← hn, ← hl, hread]
  refine (if_neg hform).trans ((if_neg ?_).trans ((if_neg ?_).trans ?_))
  · rw [Bool.not_eq_true', Bool.not_eq_false, List.all_eq_true]
    exact hmine
  · rw [Bool.not_eq_true]
    exact hbad
  · rw [getAll_bank]

section cfgValidate
variable {s : State} {i : Nat} {a : Accepted}

theorem State.cfgValidate_sound (h : s.bankBroken s.cfg.standby = none) : s.cfgValidate i a = .ok s (leBytes 6 0) := by
  rw [State.cfgValidate, h]

theorem State.cfgValidate_broken {st j : Nat} {p : Param} (h : s.bankBroken s.cfg.standby = some (st, p, j)) :
    s.cfgValidate i a = .refuseWith s st (badBytes p j) := by
  rw [State.cfgValidate, h]

end cfgValidate

end Sys2Proof.Machine
end

section
/-! O45: what the staging commands and the reads of the banks do. -/
namespace Sys2Proof.Machine

theorem exec_cfgSet (slot : Nat) (s : State) : exec (.cfgSet slot) s = runs (serve slot Op.cfgSet State.cfgSet) s := rfl

theorem exec_cfgGet (slot : Nat) (s : State) : exec (.cfgGet slot) s = runs (serve slot Op.cfgGet State.cfgGet) s := rfl

theorem exec_cfgRestage (slot : Nat) (s : State) : exec (.cfgRestage slot) s = runs (serve slot Op.cfgRestage State.cfgRestage) s := rfl

theorem exec_cfgValidate (slot : Nat) (s : State) : exec (.cfgValidate slot) s = runs (serve slot Op.cfgValidate State.cfgValidate) s := rfl

/-- Settles O45: the banks by their tables, a staging command by what its prelude finds, and each reply by its case. -/
theorem configurationIsStaged : Obligations.ConfigurationIsStaged := by
  unfold Obligations.ConfigurationIsStaged
  simp only [exec_cfgSet, exec_cfgGet, exec_cfgRestage, exec_cfgValidate]
  refine ⟨fun b p i v => ⟨Bank.get_set_same b p i v, fun q j h => Bank.get_set_other b v h⟩, ?prelude,
    fun s e p h hp => ⟨State.stageElement_cfg hp, State.elementStatus_ok h hp⟩, ?set, fun s n e l => ⟨stageAll_applied n l, stageAll_failed n l⟩,
    fun b s l => by rw [getAll_bank]; exact ⟨rfl, rfl⟩, ?get, ?restage,
    fun s slot a hg => ⟨fun h => runs_answers hg (State.cfgValidate_sound h), fun st p i h => runs_refusesWith hg (State.cfgValidate_broken h)⟩⟩
  case prelude =>
    refine fun s => ⟨fun hst hwindow => by rw [State.stagePrelude_staging hst, hwindow]; rfl, ?_, fun hst =>
      ⟨State.stagePrelude_far hst, State.stagePrelude_window hst, fun h hwindow => ⟨_, State.stagePrelude_copies hst h hwindow, rfl, rfl, rfl, ?_, rfl⟩⟩⟩
    · rintro (hst | hst | hst | ⟨hst, hwindow⟩)
      · exact State.stagePrelude_busy (.inl hst)
      · exact State.stagePrelude_busy (.inr (.inl hst))
      · exact State.stagePrelude_busy (.inr (.inr hst))
      · rw [State.stagePrelude_staging hst, Option.isNone_eq_false_iff.2 (Option.isSome_iff_ne_none.2 hwindow)]
    · exact s.latestGen_eq.imp (congrArg (· + 1)) (congrArg (· + 1))
  case set =>
    intro s slot a l hg hl
    refine ⟨fun h => runs_refuses hg (State.cfgSet_range h), fun h1 h4096 =>
      ⟨fun o ho hother => runs_refuses hg (State.cfgSet_notOwner hl h1 h4096 ho hother), fun hmine u => ?_⟩⟩
    have hstages := State.cfgSet_stages (i := slotInst slot) hl h1 h4096 hmine
    refine ⟨fun hbusy => runs_refusesWith hg (hstages.trans (State.stage_busy hbusy)), fun t n failed hopen hall => ?_⟩
    exact runs_grants hg (by rw [hstages, State.stage_open hopen, hall]; rfl)
  case get =>
    intro s slot n a l hg hn hl h1 h256 hmine hknown
    exact ⟨fun hbank => runs_answers hg (State.cfgGet_reads hn hl h1 h256 hmine hknown (.inl ⟨hbank, rfl⟩)),
      fun hbank hst => runs_answers hg (State.cfgGet_reads hn hl h1 h256 hmine hknown (.inr ⟨hbank, hst, rfl⟩))⟩
  case restage =>
    exact fun s u slot a hg => ⟨fun hopen => runs_answers hg (State.stage_open hopen), fun hbusy => runs_refusesWith hg (State.stage_busy hbusy)⟩

end Sys2Proof.Machine
end

section
/-! SUPPORT. The last-good image: what it holds, its write, and its refresh (R437, R440 to R442; log entries 95, 156). -/
namespace Sys2Proof.Machine

/-- An entry by rule changes the recorder alone. -/
theorem State.ruleEvent_recd (s : State) (rule subject kind : Nat) (items : List Nat) :
    ∃ r, s.ruleEvent rule subject kind items = { s with recd := r } := ⟨_, State.log_only ..⟩

section image
variable {s : State}

theorem State.imageDue_down {c : Bool} (hdue : s.cfg.lgDue = some c) (h : s.pacer.down = true) : s.imageDue = s := by
  simp only [State.imageDue, hdue, if_pos h]

theorem State.imageDue_begins {c : Bool} (hdue : s.cfg.lgDue = some c) (h : s.pacer.down = false) : s.imageDue = s.beginImage c := by
  simp only [State.imageDue, hdue, h, Bool.false_eq_true, if_false]

theorem State.imageDue_none (hdue : s.cfg.lgDue = none) : s.imageDue = s := by
  simp only [State.imageDue, hdue]

/-- The slot that does not hold the last good generation holds no image while it is written. -/
theorem State.beginImage_only (c : Bool) : ∃ r, s.beginImage c = { s with recd := r, cfg := { s.cfg with
    writing := some (s.lgImage c, !s.cfg.goodSlot), lgDue := none, lgAt := s.time.mono + 1000000000 * s.par P.lgRefreshS
    slot0 := if s.cfg.goodSlot then { s.cfg.slot0 with valid := false } else s.cfg.slot0
    slot1 := if s.cfg.goodSlot then s.cfg.slot1 else { s.cfg.slot1 with valid := false } } } := by
  obtain ⟨r, hr⟩ := s.ruleEvent_recd 506 (s.lgImage c).writeSeq 0 [0, (s.lgImage c).writeSeq]
  refine ⟨r, ?_⟩
  simp only [State.beginImage, hr]
  cases s.cfg.goodSlot <;> rfl

/-- The image of a confirmation holds the Active generation. -/
theorem State.lgImage_confirmed : s.lgImage true = LgImage.seal { s.tableImage with
    gen := s.cfg.activeGen.toNat, bank := s.cfg.active, writeSeq := ((s.cfg.slot s.cfg.goodSlot).writeSeq + 1) % 2 ^ 32, valid := true }
      s.sec.keys.lastGood := rfl

/-- Any other image keeps the last good generation and its bank. -/
theorem State.lgImage_kept (h : s.cfg.writing = none) : s.lgImage false = LgImage.seal { s.tableImage with
    gen := s.cfg.lastGood.toNat, bank := if s.cfg.activeGen = s.cfg.lastGood then s.cfg.active else (s.cfg.slot s.cfg.goodSlot).bank
    writeSeq := ((s.cfg.slot s.cfg.goodSlot).writeSeq + 1) % 2 ^ 32, valid := true } s.sec.keys.lastGood := by
  rw [State.lgImage, h]
  rfl

end image

/-! ### The end of a write -/

section lastGoodWrite
variable {s : State}

theorem State.lastGoodWrite_none (ok : Bool) (h : s.cfg.writing = none) : s.lastGoodWrite ok = s := by
  simp only [State.lastGoodWrite, h]

variable {i : LgImage} {k : Bool} (h : s.cfg.writing = some (i, k))
include h

theorem State.lastGoodWrite_verified : ∃ r, s.lastGoodWrite true = { s with recd := r, cfg := { s.cfg with
    writing := none, lastGood := BitVec.ofNat 16 i.gen, slot0 := if k then s.cfg.slot0 else i, slot1 := if k then i else s.cfg.slot1 } } := by
  obtain ⟨r, hr⟩ := State.ruleEvent_recd { s with cfg := { s.cfg with writing := none } } 506 i.writeSeq 1 [0, i.writeSeq]
  refine ⟨r, ?_⟩
  simp only [State.lastGoodWrite, h, hr, if_true]

theorem State.lastGoodWrite_failed : s.lastGoodWrite false = State.raise
    ((State.ruleEvent { s with cfg := { s.cfg with writing := none } } 506 i.writeSeq 1 [0, i.writeSeq]).ruleEvent 442 i.gen 0) 184 0 := by
  simp only [State.lastGoodWrite, h, Bool.false_eq_true, if_false]

end lastGoodWrite

/-! ### The refresh -/

section lgRefresh
variable {s : State}

theorem State.lgRefresh_early (h : s.par P.lgRefreshS = 0 ∨ s.time.mono < s.cfg.lgAt ∨ s.cfg.writing ≠ none) : s.lgRefresh = s :=
  if_pos (h.imp_right (Or.imp_right Option.isSome_iff_ne_none.2))

variable (hon : s.par P.lgRefreshS ≠ 0) (hdue : s.cfg.lgAt ≤ s.time.mono) (hidle : s.cfg.writing = none)
include hon hdue hidle

/-- A refresh that is due makes an image due unless the tables are those of the image kept. -/
theorem State.lgRefresh_due {t : State} (ht : t = { s with cfg := { s.cfg with lgAt := s.time.mono + 1000000000 * s.par P.lgRefreshS } }) :
    s.lgRefresh = if (s.cfg.slot s.cfg.goodSlot).valid && s.tableImage.sameTables (s.cfg.slot s.cfg.goodSlot) then t
      else { t with cfg := { t.cfg with lgDue := some (s.cfg.lgDue == some true) } } := by
  subst ht
  exact if_neg (by simp [hon, hidle, Nat.not_lt.2 hdue])

theorem State.lgRefresh_same (hvalid : (s.cfg.slot s.cfg.goodSlot).valid = true)
    (hsame : s.tableImage.sameTables (s.cfg.slot s.cfg.goodSlot) = true) :
    s.lgRefresh = { s with cfg := { s.cfg with lgAt := s.time.mono + 1000000000 * s.par P.lgRefreshS } } :=
  (State.lgRefresh_due hon hdue hidle rfl).trans (if_pos (Bool.and_eq_true_iff.2 ⟨hvalid, hsame⟩))

theorem State.lgRefresh_differs (h : (s.cfg.slot s.cfg.goodSlot).valid = false ∨ s.tableImage.sameTables (s.cfg.slot s.cfg.goodSlot) = false) :
    s.lgRefresh = { s with cfg := { s.cfg with
      lgAt := s.time.mono + 1000000000 * s.par P.lgRefreshS, lgDue := some (s.cfg.lgDue == some true) } } :=
  (State.lgRefresh_due hon hdue hidle rfl).trans (if_neg (by rcases h with h | h <;> simp [h]))

end lgRefresh

end Sys2Proof.Machine
end

section
/-! O48: when an image is built, what its write leaves, and what the refresh does. -/
namespace Sys2Proof.Machine

theorem exec_lastGoodWrite (ok : Bool) (s : State) : exec (.lastGoodWrite ok) s = runs (fun s => s.lastGoodWrite ok) s := rfl

theorem exec_lgRefreshExpire (s : State) : exec .lgRefreshExpire s = runs State.lgRefresh s := rfl

/-- Settles O48: the image by its two forms, the write by its outcome, and the refresh by the tables (R437, R440 to R442). That a write which
fails raises source 184, CFG_PERSIST, and the layout under the CMAC, are log entries 95 and 156. -/
theorem lastGoodImagesAreWritten : Obligations.LastGoodImagesAreWritten := by
  unfold Obligations.LastGoodImagesAreWritten
  simp only [exec_lastGoodWrite, exec_lgRefreshExpire]
  refine ⟨fun s c hdue => ⟨State.imageDue_down hdue, State.imageDue_begins hdue⟩, fun s => State.imageDue_none, fun s c => s.beginImage_only c,
    ?confirmed, ?kept, ?write, fun s ok h => runs_to (f := fun s => s.lastGoodWrite ok) (State.lastGoodWrite_none ok h) rfl rfl, ?refresh⟩
  case confirmed =>
    intro s
    rw [State.lgImage_confirmed]
    exact ⟨rfl, rfl, rfl, rfl, rfl, rfl, LgImage.seal_good _ _ rfl⟩
  case kept =>
    intro s h
    rw [State.lgImage_kept h]
    exact ⟨rfl, LgImage.seal_good _ _ rfl, rfl, rfl⟩
  case write =>
    intro s i k h
    obtain ⟨r, hr⟩ := State.lastGoodWrite_verified h
    exact ⟨⟨r, runs_to (f := fun s => s.lastGoodWrite true) hr rfl rfl⟩, runs_keeping (State.lastGoodWrite_failed h)⟩
  case refresh =>
    rintro s _ rfl
    exact ⟨fun h => runs_to (State.lgRefresh_early h) rfl rfl, fun hon hdue hidle =>
      ⟨fun hvalid hsame => runs_to (State.lgRefresh_same hon hdue hidle hvalid hsame) rfl rfl,
        fun h => runs_to (State.lgRefresh_differs hon hdue hidle h) rfl rfl⟩⟩

end Sys2Proof.Machine
end

section
/-! SUPPORT. Requests, the pick, refreshes and the scrub of a pseudo-channel (R349 to R361, R367, R368; log entries 85, 86). -/
namespace Sys2Proof.Machine

theorem State.updPc_same (s : State) (pc : Nat) (f : Pc → Pc) : (s.updPc pc f).hbm.pc.at pc = f (s.hbm.pc.at pc) := Tab.at_upd_same _ _ _

theorem State.updPc_other (s : State) {pc k : Nat} (f : Pc → Pc) (h : k ≠ pc) : (s.updPc pc f).hbm.pc.at k = s.hbm.pc.at k := Tab.at_upd_other _ _ h

/-! ### A request asks for its place -/

/-- The rate limit of a master after a request. -/
def State.rated (s : State) (rank bytes : Nat) : State :=
  if hbmCost rank bytes = 0 then s
  else { s with hbm := { s.hbm with rate := s.hbm.rate.put rank (max (3000 * s.time.mono) (s.hbm.rate.at rank) + hbmCost rank bytes) } }

section rated
variable {s : State} {rank bytes : Nat}

theorem State.rated_rate : (s.rated rank bytes).hbm.rate.at rank =
    if hbmCost rank bytes = 0 then s.hbm.rate.at rank else max (3000 * s.time.mono) (s.hbm.rate.at rank) + hbmCost rank bytes := by
  unfold State.rated
  split
  · rfl
  · exact Tab.at_put_same _ _ _

theorem State.rated_keeps : (s.rated rank bytes).hbm.pc = s.hbm.pc ∧ (s.rated rank bytes).hbm.wait = s.hbm.wait := by
  unfold State.rated
  split <;> exact ⟨rfl, rfl⟩

end rated

section hbmAsk
variable {s : State} {rank addr bytes tag : Nat} {write : Bool} {c : Pc} {r : HReq} (hc : c = s.hbm.pc.at (pcOf addr))
include hc

theorem State.hbmAsk_out (h1 : c.st ≠ 1) (h2 : c.st ≠ 2) : s.hbmAsk rank addr bytes write tag = s := by
  subst hc; exact if_pos ⟨h1, h2⟩

variable (hr : r = { master := rank, addr := addr, bytes := bytes, write := write,
                     at_ := ceilDiv (max (3000 * s.time.mono) (s.hbm.rate.at rank)) 3000, tag := tag })
  (hst : c.st = 1 ∨ c.st = 2)
include hr hst

/-- The request enters a queue of its channel, or waits at its master. -/
theorem State.hbmAsk_in : s.hbmAsk rank addr bytes write tag =
    if c.room r && !s.hbm.wait.any (fun q => q.master == rank && pcOf q.addr == pcOf addr) then
      (s.rated rank bytes).updPc (pcOf addr) (fun c => c.enter s.time.mono r)
    else { s.rated rank bytes with hbm := { (s.rated rank bytes).hbm with wait := s.hbm.wait ++ [r] } } := by
  subst hc hr
  rw [State.hbmAsk, if_neg (by omega)]
  by_cases hcost : hbmCost rank bytes = 0
  · simp only [State.rated, if_pos hcost]
  · simp only [State.rated, if_neg hcost]

theorem State.hbmAsk_rate : (s.hbmAsk rank addr bytes write tag).hbm.rate.at rank =
    if hbmCost rank bytes = 0 then s.hbm.rate.at rank else max (3000 * s.time.mono) (s.hbm.rate.at rank) + hbmCost rank bytes := by
  rw [State.hbmAsk_in hc hr hst, ← State.rated_rate]
  split <;> rfl

theorem State.hbmAsk_enters (hheld : c.held rank < hbmLimit rank) (hqueue : (if write then c.writes else c.reads).length < 64)
    (hfirst : ∀ q ∈ s.hbm.wait, q.master = rank → pcOf q.addr ≠ pcOf addr) :
    (s.hbmAsk rank addr bytes write tag).hbm.pc.at (pcOf addr) = c.enter s.time.mono r
    ∧ (s.hbmAsk rank addr bytes write tag).hbm.wait = s.hbm.wait := by
  have hroom : c.room r = true := by
    subst hr
    simp [Pc.room, hst, hheld, hqueue]
  have hnone : s.hbm.wait.any (fun q => q.master == rank && pcOf q.addr == pcOf addr) = false := by
    rw [List.any_eq_false]
    intro q hq
    simpa using hfirst q hq
  rw [State.hbmAsk_in hc hr hst, if_pos (by rw [hroom, hnone]; rfl)]
  obtain ⟨hpc, hwait⟩ := State.rated_keeps (s := s) (rank := rank) (bytes := bytes)
  exact ⟨by rw [State.updPc_same, hpc, hc], hwait⟩

theorem State.hbmAsk_waits (h : hbmLimit rank ≤ c.held rank ∨ 64 ≤ (if write then c.writes else c.reads).length
      ∨ ∃ q ∈ s.hbm.wait, q.master = rank ∧ pcOf q.addr = pcOf addr) :
    (s.hbmAsk rank addr bytes write tag).hbm.pc.at (pcOf addr) = c ∧ (s.hbmAsk rank addr bytes write tag).hbm.wait = s.hbm.wait ++ [r] := by
  have hnot : (c.room r && !s.hbm.wait.any (fun q => q.master == rank && pcOf q.addr == pcOf addr)) = false := by
    rcases h with h | h | ⟨q, hq, hmaster, hpc⟩
    · subst hr
      simp [Pc.room, Nat.not_lt.2 h]
    · subst hr
      simp [Pc.room, Nat.not_lt.2 h]
    · have hany : s.hbm.wait.any (fun q => q.master == rank && pcOf q.addr == pcOf addr) = true :=
        List.any_eq_true.2 ⟨q, hq, by simp [hmaster, hpc]⟩
      rw [hany]
      exact Bool.and_false _
  rw [State.hbmAsk_in hc hr hst, if_neg (by rw [hnot]; exact Bool.false_ne_true)]
  obtain ⟨hpc, -⟩ := State.rated_keeps (s := s) (rank := rank) (bytes := bytes)
  exact ⟨by rw [hpc, hc], rfl⟩

omit hr hst hc in
theorem State.hbmAsk_elsewhere {k : Nat} (h : k ≠ pcOf addr) : (s.hbmAsk rank addr bytes write tag).hbm.pc.at k = s.hbm.pc.at k := by
  by_cases hst : (s.hbm.pc.at (pcOf addr)).st = 1 ∨ (s.hbm.pc.at (pcOf addr)).st = 2
  · obtain ⟨hpc, -⟩ := State.rated_keeps (s := s) (rank := rank) (bytes := bytes)
    rw [State.hbmAsk_in rfl rfl hst]
    split
    · rw [State.updPc_other _ _ h, hpc]
    · exact congrArg (Tab.at · k) hpc
  · rw [State.hbmAsk_out rfl (fun h1 => hst (.inl h1)) (fun h2 => hst (.inr h2))]

omit hr hst hc in
theorem State.hbmAsk_time : (s.hbmAsk rank addr bytes write tag).time = s.time := by rw [State.hbmAsk_only]

omit hr hst hc in
theorem State.hbmAsk_pending : (s.hbmAsk rank addr bytes write tag).pending = s.pending := by rw [State.hbmAsk_only]

end hbmAsk

/-- A request that goes out now or later, and behind those queued, takes the last place. -/
theorem Pc.enter_last {c : Pc} {now : Nat} {r : HReq} (hnow : now ≤ r.at_) (hlast : ∀ q ∈ c.reads ++ c.writes, q.at_ ≤ r.at_) :
    c.enter now r = { c with st := 1, writes := if r.write then c.writes ++ [r] else c.writes, reads := if r.write then c.reads else c.reads ++ [r] } := by
  have hput : ∀ l : List HReq, (∀ q ∈ l, q.at_ ≤ r.at_) →
      l.takeWhile (fun q => decide (q.at_ ≤ r.at_)) ++ r :: l.dropWhile (fun q => decide (q.at_ ≤ r.at_)) = l ++ [r] := by
    intro l hl
    rw [List.takeWhile_eq_self_iff.2 (fun q hq => decide_eq_true (hl q hq)), List.dropWhile_eq_nil_iff.2 (fun q hq => decide_eq_true (hl q hq))]
  have hreads := hput c.reads (fun q hq => hlast q (List.mem_append_left _ hq))
  have hwrites := hput c.writes (fun q hq => hlast q (List.mem_append_right _ hq))
  unfold Pc.enter
  simp only [Nat.max_eq_left hnow, hreads, hwrites]
  cases r.write <;> rfl

/-! ### Urgency -/

theorem hbmLevel_of {rank ns t : Nat} (ht : hbmTarget rank = some t) :
    hbmLevel rank ns = if hbmRealTime rank && decide (2 * t ≤ ns) then 2 else if t ≤ ns then 1 else 0 := by
  rw [hbmLevel, ht]

theorem hbmLevel_steps {rank ns t : Nat} (ht : hbmTarget rank = some t) :
    (ns < t → hbmLevel rank ns = 0) ∧ (t ≤ ns → ns < 2 * t → hbmLevel rank ns = 1)
    ∧ (0 < t → 2 * t ≤ ns → hbmLevel rank ns = if 1 ≤ rank ∧ rank ≤ 3 then 2 else 1) := by
  rw [hbmLevel_of ht]
  refine ⟨fun h => ?_, fun h h2 => ?_, fun _ h2 => ?_⟩
  · have hfar : ¬ 2 * t ≤ ns := by omega
    simp [hfar, Nat.not_le.2 h]
  · simp [Nat.not_le.2 h2, h]
  · have hlate : t ≤ ns := by omega
    simp [hbmRealTime, h2, hlate]

/-- The level that the requests of a list reach. -/
def State.topLevel (s : State) (l : List HReq) : Nat := l.foldl (fun m r => max m (s.levelOf r)) 0

/-- A running maximum is at least its start and every value it meets. -/
theorem le_foldl_max {α : Type} (f : α → Nat) (l : List α) (m : Nat) :
    m ≤ l.foldl (fun m a => max m (f a)) m ∧ ∀ a ∈ l, f a ≤ l.foldl (fun m a => max m (f a)) m := by
  induction l generalizing m with
  | nil => exact ⟨Nat.le_refl m, fun a ha => absurd ha List.not_mem_nil⟩
  | cons b l ih =>
    obtain ⟨hstart, hmet⟩ := ih (max m (f b))
    rw [List.foldl_cons]
    refine ⟨(Nat.le_max_left _ _).trans hstart, fun a ha => ?_⟩
    rcases List.mem_cons.1 ha with rfl | ha
    · exact (Nat.le_max_right _ _).trans hstart
    · exact hmet a ha

theorem State.levelOf_le_topLevel {s : State} {l : List HReq} {q : HReq} (hq : q ∈ l) : s.levelOf q ≤ s.topLevel l :=
  (le_foldl_max s.levelOf l 0).2 q hq

/-- The request of the pick is of the list, and of its highest level where any is late. -/
theorem State.hbmChoose_spec {s : State} {bank b : Nat} {l : List HReq} {r : HReq} (h : s.hbmChoose bank l = some (r, b)) :
    r ∈ l ∧ ((∃ q ∈ l, 1 ≤ s.levelOf q) → ∀ q ∈ l, s.levelOf q ≤ s.levelOf r) := by
  have hdef : s.hbmChoose bank l = if 1 ≤ s.topLevel l then
      ((List.range 10).findSome? (fun rank => l.find? (fun r => r.master == rank && s.levelOf r == s.topLevel l))).map (·, bank)
    else match l.find? (fun r => hbmRealTime r.master) with
      | some r => some (r, bank)
      | none => (firstFrom 32 bank (fun b => l.any (fun r => hbmBankOf r.addr == b))).bind (fun b =>
        (l.find? (fun r => hbmBankOf r.addr == b)).map (·, (b + 1) % 32)) := rfl
  rw [hdef] at h
  split at h
  next htop =>
    obtain ⟨x, hx, hpair⟩ := Option.map_eq_some_iff.1 h
    obtain ⟨rank, -, hfound⟩ := List.exists_of_findSome?_eq_some hx
    obtain ⟨rfl, -⟩ := Prod.mk.inj hpair
    have hlevel : s.levelOf x = s.topLevel l := by
      have := List.find?_some hfound
      simp at this
      exact this.2
    exact ⟨List.mem_of_find?_eq_some hfound, fun _ q hq => hlevel ▸ State.levelOf_le_topLevel hq⟩
  next htop =>
    have hnone : ¬ ∃ q ∈ l, 1 ≤ s.levelOf q := fun ⟨q, hq, hlate⟩ => htop (hlate.trans (State.levelOf_le_topLevel hq))
    refine ⟨?_, fun hlate => absurd hlate hnone⟩
    split at h
    next x hfound =>
      obtain ⟨rfl, -⟩ := Prod.mk.inj (Option.some.inj h)
      exact List.mem_of_find?_eq_some hfound
    next =>
      obtain ⟨k, -, hk⟩ := Option.bind_eq_some_iff.1 h
      obtain ⟨x, hfound, hpair⟩ := Option.map_eq_some_iff.1 hk
      obtain ⟨rfl, -⟩ := Prod.mk.inj hpair
      exact List.mem_of_find?_eq_some hfound

/-! ### The pick -/

section pick
variable {s : State} {pc ecc b : Nat} {c : Pc} {r : HReq} (hc : c = s.hbm.pc.at pc) (hst : c.st = 1)
include hc

theorem State.pick_busy (h : s.time.mono < c.busy) : s.pick pc ecc = s := by
  subst hc; exact if_pos (.inr h)

include hst

/-- A PC in service that is not busy ends its burst, and then takes a request unless the refresh it made occupies it. -/
theorem State.pick_ready (h : c.busy ≤ s.time.mono) : s.pick pc ecc =
    if s.time.mono < (s.burstEnd c).busy then s.updPc pc (fun _ => s.burstEnd c) else
      match s.hbmChoose (s.burstEnd c).bank ((s.burstEnd c).free s.time.mono (s.hbmBatch (s.burstEnd c))) with
      | none => s.updPc pc (fun _ => { s.burstEnd c with batch := s.hbmBatch (s.burstEnd c) })
      | some (r, b) => ((s.updPc pc (fun _ => (s.burstEnd c).take s.time.mono b r (s.hbmBatch (s.burstEnd c)))).hbmEnter pc).hbmChecked pc r ecc := by
  subst hc
  exact if_neg (by rw [State.hpc]; omega)

theorem State.pick_refreshes (hburst : c.burst = some r) (h : c.busy ≤ s.time.mono) (hdebt : 0 < c.debt)
    (hnone : ∀ q ∈ c.reads ++ c.writes, s.levelOf q ≠ 2) : s.pick pc ecc =
      s.updPc pc (fun _ => { c with burst := none, debt := c.debt - 1, busy := s.time.mono + 380, refEnd := s.time.mono + 380 }) := by
  have hlate : (c.reads ++ c.writes).any (fun r => s.levelOf r == 2) = false := by
    rw [List.any_eq_false]
    intro q hq
    simpa using hnone q hq
  have hend : s.burstEnd c = { c with burst := none, debt := c.debt - 1, busy := s.time.mono + 380, refEnd := s.time.mono + 380 } :=
    if_pos (by rw [hlate, hburst]; simpa using hdebt)
  rw [State.pick_ready hc hst h, hend]
  exact if_pos (Nat.lt_add_of_pos_right (by decide))

variable (hburst : c.burst = none) (h : c.busy ≤ s.time.mono)
include hburst h

/-- No burst is over: the pick takes of the queue it serves. -/
theorem State.pick_takes : s.pick pc ecc =
    match s.hbmChoose c.bank (c.free s.time.mono (s.hbmBatch c)) with
    | none => s.updPc pc (fun _ => { c with batch := s.hbmBatch c })
    | some (r, b) => ((s.updPc pc (fun _ => c.take s.time.mono b r (s.hbmBatch c))).hbmEnter pc).hbmChecked pc r ecc := by
  have hend : s.burstEnd c = c := by
    rw [State.burstEnd, hburst]
    exact (if_neg (by simp)).trans (by rw [← hburst])
  rw [State.pick_ready hc hst h, hend, if_neg (Nat.not_lt.2 h)]

theorem State.pick_none (hchoose : s.hbmChoose c.bank (c.free s.time.mono (s.hbmBatch c)) = none) :
    s.pick pc ecc = s.updPc pc (fun _ => { c with batch := s.hbmBatch c }) := by
  rw [State.pick_takes hc hst hburst h, hchoose]

theorem State.pick_some (hchoose : s.hbmChoose c.bank (c.free s.time.mono (s.hbmBatch c)) = some (r, b)) {u : State}
    (hu : u = (s.updPc pc (fun _ => c.take s.time.mono b r (s.hbmBatch c))).hbmEnter pc) : s.pick pc ecc = u.hbmChecked pc r ecc := by
  rw [State.pick_takes hc hst hburst h, hchoose, hu]

end pick

section hbmChecked
variable {u : State} {pc : Nat} {r : HReq}

theorem State.hbmChecked_clean {ecc : Nat} (h : r.write = true ∨ ecc = 0) : u.hbmChecked pc r ecc = u := by
  rcases h with h | rfl
  · exact if_pos h
  · exact ite_self u

theorem State.hbmChecked_corrected (h : r.write = false) : u.hbmChecked pc r 1 = u.count Stat.hbmEccCorrected := if_neg (by simp [h])

theorem State.hbmChecked_uncorrectable (h : r.write = false) : u.hbmChecked pc r 2 = (u.raise (160 + pc / 32) (pc % 32)).eccOutcome r :=
  if_neg (by simp [h])

end hbmChecked

section hbmEnter
variable {s : State} {pc : Nat}

theorem State.hbmEnter_none (h : s.hbm.wait.find? (fun r => pcOf r.addr == pc && (s.hbm.pc.at pc).room r) = none) : s.hbmEnter pc = s := by
  rw [State.hbmEnter, h]

theorem State.hbmEnter_some {r : HReq} (h : s.hbm.wait.find? (fun r => pcOf r.addr == pc && (s.hbm.pc.at pc).room r) = some r) :
    s.hbmEnter pc = ({ s with hbm := { s.hbm with wait := s.hbm.wait.erase r } }).updPc pc (fun c => c.enter s.time.mono r) := by
  rw [State.hbmEnter, h]

theorem State.hbmEnter_only : s.hbmEnter pc = { s with hbm := (s.hbmEnter pc).hbm } := by
  unfold State.hbmEnter
  split <;> rfl

end hbmEnter

/-! ### Refresh -/

section refreshFalls
variable {s : State} {pc : Nat} {c : Pc} (hc : c = s.hbm.pc.at pc)

theorem State.refreshFalls_early (h : s.time.mono < (s.hbm.pc.at pc).refresh) : s.refreshFalls pc = s := if_pos (.inr h)

variable (hst : c.st = 1) (hdue : c.refresh ≤ s.time.mono)
include hc hst hdue

theorem State.refreshFalls_due : s.refreshFalls pc =
    if 0 < c.ahead then s.updPc pc (fun c => { c with st := 1, refresh := c.refresh + c.interval, ahead := c.ahead - 1 })
    else if (c.burst.any (fun r => hbmRealTime r.master)) && decide (s.time.mono < c.busy) then
      if s.par P.refPostponeMax ≤ c.debt + 1 then
        (s.updPc pc (fun c => { c with st := 1, refresh := c.refresh + c.interval, busy := c.busy + 420, refEnd := c.splitAt s.time.mono + 380
                                       splits := if c.splits = BitVec.allOnes 16 then c.splits else c.splits + 1 })).count Stat.refSplits pc
      else s.updPc pc (fun c => { c with st := 1, refresh := c.refresh + c.interval, debt := c.debt + 1 })
    else s.updPc pc (fun c => { c with st := 1, refresh := c.refresh + c.interval, busy := max c.busy s.time.mono + 380
                                       refEnd := max c.busy s.time.mono + 380 }) := by
  subst hc
  rw [State.refreshFalls, State.hpc, if_neg (by omega)]
  rfl

theorem State.refreshFalls_covered (h : 0 < c.ahead) :
    s.refreshFalls pc = s.updPc pc (fun c => { c with st := 1, refresh := c.refresh + c.interval, ahead := c.ahead - 1 }) := by
  rw [State.refreshFalls_due hc hst hdue, if_pos h]

variable (hahead : c.ahead = 0)
include hahead

theorem State.refreshFalls_idle (hburst : c.burst = none) : s.refreshFalls pc =
    s.updPc pc (fun c => { c with st := 1, refresh := c.refresh + c.interval, busy := max c.busy s.time.mono + 380
                                  refEnd := max c.busy s.time.mono + 380 }) := by
  rw [State.refreshFalls_due hc hst hdue, if_neg (by omega), if_neg (by simp [hburst])]

variable {r : HReq} (hburst : c.burst = some r) (hrt : hbmRealTime r.master = true) (hbusy : s.time.mono < c.busy)
include hburst hrt hbusy

theorem State.refreshFalls_postponed (hdebt : c.debt + 1 < s.par P.refPostponeMax) :
    s.refreshFalls pc = s.updPc pc (fun c => { c with st := 1, refresh := c.refresh + c.interval, debt := c.debt + 1 }) := by
  rw [State.refreshFalls_due hc hst hdue, if_neg (by omega), if_pos (by simp [hburst, hrt, hbusy]), if_neg (Nat.not_le.2 hdebt)]

theorem State.refreshFalls_split (hdebt : s.par P.refPostponeMax ≤ c.debt + 1) : s.refreshFalls pc =
    (s.updPc pc (fun c => { c with st := 1, refresh := c.refresh + c.interval, busy := c.busy + 420, refEnd := c.splitAt s.time.mono + 380
                                   splits := if c.splits = BitVec.allOnes 16 then c.splits else c.splits + 1 })).count Stat.refSplits pc := by
  rw [State.refreshFalls_due hc hst hdue, if_neg (by omega), if_pos (by simp [hburst, hrt, hbusy]), if_pos hdebt]

end refreshFalls

section idle
variable {s : State} {pc : Nat} {c : Pc} (hc : c = s.hbm.pc.at pc)
include hc

theorem State.refreshAhead_enough (h : 2 ≤ c.ahead) : s.refreshAhead pc = s := by
  subst hc; exact if_neg (fun hidle => by have := hidle.2.2; rw [State.hpc] at this; omega)

theorem State.powerDown_queued (h : c.reads ≠ [] ∨ c.writes ≠ []) : s.powerDown pc = s := by
  subst hc
  refine if_neg ?_
  rintro ⟨-, hidle⟩
  simp only [State.hbmIdle, State.hpc, Bool.and_eq_true, List.isEmpty_iff] at hidle
  obtain ⟨⟨⟨hreads, hwrites⟩, -⟩, -⟩ := hidle
  exact h.elim (fun h => h hreads) (fun h => h hwrites)

variable (hst : c.st = 1)
include hst

theorem State.refreshAhead_idle (hidle : s.hbmIdle c 200 = true) (hahead : c.ahead < 2) : s.refreshAhead pc =
    s.updPc pc (fun c => { c with ahead := c.ahead + 1, busy := s.time.mono + 380, refEnd := s.time.mono + 380 }) := by
  subst hc; exact if_pos ⟨.inl hst, hidle, hahead⟩

theorem State.powerDown_idle (hidle : s.hbmIdle c (ceilDiv (s.par P.pdIdle) 4) = true) :
    s.powerDown pc = s.updPc pc (fun c => { c with st := 2, burst := none }) := by
  subst hc; exact if_pos ⟨hst, hidle⟩

end idle

/-! ### The patrol scrub -/

section patrol
variable {s : State} {addr : Nat}

theorem State.patrol_early {ecc : Nat} (h : s.hbm.valid = false ∨ s.time.mono < s.hbm.scrubAt) : s.patrol addr ecc = s :=
  if_pos (h.imp_right fun h => .inr (.inr h))

theorem State.patrol_due {ecc : Nat} (hvalid : s.hbm.valid = true) (haddr : addr < 2 ^ 36) (hst : (s.hbm.pc.at (pcOf (addr / 64 * 64))).st = 1)
    (hdue : s.hbm.scrubAt ≤ s.time.mono) {u : State} (hu : u = { s with hbm := { s.hbm with scrubAt := s.time.mono + s.scrubNs } }) :
    s.patrol addr ecc =
      (u.hbmChecked (pcOf (addr / 64 * 64)) { master := 9, addr := addr / 64 * 64, bytes := 64, write := false, at_ := s.time.mono } ecc).hbmAsk 9
        (addr / 64 * 64) 64 (decide (ecc = 1) || decide (ecc = 2)) 0 := by
  subst hu
  refine if_neg ?_
  rintro (h | h | ⟨h, -⟩ | h)
  · exact Bool.false_ne_true (h.symm.trans hvalid)
  · have hgranule : addr / 64 * 64 ≤ addr := Nat.div_mul_le_self addr 64
    omega
  · exact h hst
  · omega

end patrol

end Sys2Proof.Machine
end

section
/-! O39: how a pseudo-channel takes requests, refreshes, sleeps and is scrubbed. -/
namespace Sys2Proof.Machine

theorem exec_hbmPick (pc ecc : Nat) (s : State) : exec (.hbmPick pc ecc) s = runs (fun s => s.pick pc ecc) s := rfl

theorem exec_refreshDue (pc : Nat) (s : State) : exec (.refreshDue pc) s = runs (fun s => s.refreshFalls pc) s := rfl

theorem exec_refreshAheadOfTime (pc : Nat) (s : State) : exec (.refreshAheadOfTime pc) s = runs (fun s => s.refreshAhead pc) s := rfl

theorem exec_hbmPowerDown (pc : Nat) (s : State) : exec (.hbmPowerDown pc) s = runs (fun s => s.powerDown pc) s := rfl

theorem exec_patrolScrub (addr ecc : Nat) (s : State) : exec (.patrolScrub addr ecc) s = runs (fun s => s.patrol addr ecc) s := rfl

/-- Settles O39: a request by its place, the pick by its list, a refresh by what covers it. That a request enters where its master has no
other waiting, and the order of pick, refresh and patrol, is the model's choice (log entries 85, 86). -/
theorem hbmServesItsMasters : Obligations.HbmServesItsMasters := by
  unfold Obligations.HbmServesItsMasters
  simp only [exec_hbmPick, exec_refreshDue, exec_refreshAheadOfTime, exec_hbmPowerDown, exec_patrolScrub]
  refine ⟨?ask, fun c now r => Pc.enter_last, fun rank ns t => hbmLevel_steps, fun s bank b l r => State.hbmChoose_spec, ?pick, ?burst,
    fun s pc => ⟨State.hbmEnter_none, fun r => State.hbmEnter_some⟩, fun c now b r batch => ⟨rfl, rfl, rfl, rfl⟩, ?refresh,
    fun s pc h => runs_to (State.refreshFalls_early h) rfl rfl, ?idle, ?patrol,
    fun s addr ecc h => runs_to (State.patrol_early h) rfl rfl⟩
  case ask =>
    rintro s _ rank addr bytes tag write c r hc rfl hr
    exact ⟨State.hbmAsk_out hc, fun hst => ⟨State.hbmAsk_rate hc hr hst, State.hbmAsk_enters hc hr hst, State.hbmAsk_waits hc hr hst⟩,
      fun k => State.hbmAsk_elsewhere, State.hbmAsk_only ..⟩
  case pick =>
    intro s pc ecc b c r hc hst hburst
    refine ⟨fun h => runs_to (State.pick_busy hc h) rfl rfl, fun h hchoose => runs_to (State.pick_none hc hst hburst h hchoose) rfl rfl,
      fun h hchoose u hu => ?_⟩
    have htime : u.time = s.time := by rw [hu, State.hbmEnter_only]; rfl
    have hpending : u.pending = s.pending := by rw [hu, State.hbmEnter_only]; rfl
    have hpick := fun ecc => State.pick_some (ecc := ecc) hc hst hburst h hchoose hu
    refine ⟨fun hclean => runs_to ((hpick ecc).trans (State.hbmChecked_clean hclean)) htime hpending, ?_, ?_⟩
    · rintro hread rfl
      exact runs_to ((hpick 1).trans (State.hbmChecked_corrected hread)) (by simpa using htime) (by simpa using hpending)
    · rintro hread rfl
      exact runs_keeping ((hpick 2).trans (State.hbmChecked_uncorrectable hread))
  case burst =>
    exact fun s pc ecc c r hc hst hburst h hdebt hnone => runs_to (State.pick_refreshes hc hst hburst h hdebt hnone) rfl rfl
  case refresh =>
    intro s pc c hc hst hdue
    refine ⟨fun h => runs_to (State.refreshFalls_covered hc hst hdue h) rfl rfl,
      fun r hahead hburst hrt hbusy hdebt => runs_to (State.refreshFalls_postponed hc hst hdue hahead hburst hrt hbusy hdebt) rfl rfl,
      fun r hahead hburst hrt hbusy hdebt => ⟨_, runs_to (State.refreshFalls_split hc hst hdue hahead hburst hrt hbusy hdebt) (by simp) (by simp), ?_⟩,
      fun hahead hburst => runs_to (State.refreshFalls_idle hc hst hdue hahead hburst) rfl rfl⟩
    rw [State.count_only]
    subst hc
    exact ⟨by rw [State.updPc_same], by rw [State.updPc_same]; rfl, by rw [State.updPc_same], rfl⟩
  case idle =>
    exact fun s pc c hc hst => ⟨fun hidle hahead => runs_to (State.refreshAhead_idle hc hst hidle hahead) rfl rfl,
      fun h => runs_to (State.refreshAhead_enough hc h) rfl rfl, fun hidle => runs_to (State.powerDown_idle hc hst hidle) rfl rfl,
      fun h => runs_to (State.powerDown_queued hc h) rfl rfl⟩
  case patrol =>
    intro s addr hvalid haddr hst hdue
    have hpatrol := fun ecc => State.patrol_due (ecc := ecc) hvalid haddr hst hdue rfl
    refine ⟨_, rfl, runs_to ((hpatrol 0).trans (congrArg (State.hbmAsk · 9 _ 64 false 0) (State.hbmChecked_clean (.inr rfl)))) ?_ ?_,
      runs_to ((hpatrol 1).trans (congrArg (State.hbmAsk · 9 _ 64 true 0) (State.hbmChecked_corrected rfl))) ?_ ?_⟩
    all_goals simp [State.hbmAsk_time, State.hbmAsk_pending]

end Sys2Proof.Machine
end

section
/-! SUPPORT. What one step can do to the time unit, and the parts of LAP_BOUNDARY (R28 to R41, R545; log entries 3, 13, 15, 17). -/
namespace Sys2Proof.Machine

/-! ### One nanosecond -/

/-- A nanosecond of the core clock moves both counters, the fraction and the phase, and nothing else of the time unit. -/
theorem TimeUnit.tick_only (t : TimeUnit) (ppm : Nat) :
    t.tick ppm = { t with dev := (t.tick ppm).dev, frac := (t.tick ppm).frac, slew := (t.tick ppm).slew
                          mono := t.mono + min (t.next - t.dev) (t.gathered / 1000000000), mfrac := t.gathered % 1000000000 } := by
  unfold TimeUnit.tick; simp only []
  repeat' split
  all_goals rfl

/-- Device time goes on, and waits at the boundary. -/
theorem TimeUnit.tick_dev (t : TimeUnit) (ppm : Nat) (h : t.dev ≤ t.next) : t.dev ≤ (t.tick ppm).dev ∧ (t.tick ppm).dev ≤ t.next := by
  unfold TimeUnit.tick; simp only []
  generalize t.gathered / 1000000000 = g
  split
  · constructor <;> simp only [] <;> omega
  · split
    · split
      · next hroom => obtain ⟨-, hroom⟩ := hroom; constructor <;> simp only [] <;> omega
      · constructor <;> simp only [] <;> omega
    · split <;> constructor <;> simp only [] <;> omega

/-- While the time unit does not run or waits at a boundary, nothing passes. -/
theorem State.tick_still {s : State} (h : s.time.running = false ∨ s.time.next ≤ s.time.dev) : s.tick = s := by
  unfold State.tick
  rw [if_neg]
  rcases h with h | h <;> simp [h]

theorem step_idle {s : State} (h : s.pending = []) : step s = .next s.tick := by rw [step, h]; rfl

theorem step_command {s : State} {c : Instr} {rest : List Instr} (h : s.pending = c :: rest) :
    step s = exec c { s with pending := rest } := by rw [step, h]

/-- Settles O2: the nanosecond passes, or nothing does. -/
theorem idleStepIsOneNanosecond : Obligations.IdleStepIsOneNanosecond := by
  unfold Obligations.IdleStepIsOneNanosecond
  refine ⟨fun s hempty hrun hbefore => ?_, fun s hempty h => by rw [step_idle hempty, State.tick_still h]⟩
  have htime : s.tick.time = s.time.tick (s.par P.slewMax) := s.tick_time hrun hbefore
  have hdev := s.time.tick_dev (s.par P.slewMax) (Nat.le_of_lt hbefore)
  refine ⟨s.tick.time, s.tick.port, s.tick.cpy, s.tick.buf, s.tick.sched, s.tick.ctr, ?_, ?_⟩
  · rw [step_idle hempty]; exact congrArg _ (State.offWire_eq s.tick_wire)
  · rw [htime, TimeUnit.tick_only]
    refine ⟨rfl, fun hfreq hfrac => ?_, hdev.1, hdev.2, rfl, rfl⟩
    have hgathered : s.time.gathered = 1000000000 := by simp [TimeUnit.gathered, hfreq, hfrac]
    simp only [hgathered]
    exact ⟨by omega, by decide⟩

/-! ### Power-on -/

/-- Settles O4: each component as power-on leaves it; a table with no entry reads its default everywhere. -/
theorem powerOnState : Obligations.PowerOnState := by
  unfold Obligations.PowerOnState
  exact ⟨rfl, rfl, rfl, rfl, rfl, fun _ => rfl, fun _ => rfl, fun _ => ⟨rfl, rfl, rfl⟩, fun _ => rfl, rfl, rfl, rfl, rfl, fun _ => rfl,
    fun _ => ⟨rfl, rfl⟩, rfl, rfl⟩

/-- A time unit that starts anew, or is stopped, is in order. -/
theorem TimeUnit.inOrder_anew (r : Bool) : TimeUnit.inOrder { running := r } where
  rate := show lapRateOk 4000 = true by decide
  pending := nofun
  boundary := show 250000 % (1000000000 / 4000) = 0 by decide
  ahead := Nat.zero_le _
  near := show 2 * (250000 - 0) ≤ 3 * (1000000000 / 4000) by decide
  lap := Nat.le_refl 0
  valid := Nat.le_refl 0
  pps := nofun

/-- Settles O5: at power-on the time unit is stopped at 0. -/
theorem timeUnitInOrderAtReset : Obligations.TimeUnitInOrderAtReset := TimeUnit.inOrder_anew false

/-! ### What a step can do to the time unit -/

/-- A time unit that runs on as it did: counters, laps and rates are kept, and what is noted is noted now. -/
structure TimeUnit.RunsOn (t u : TimeUnit) : Prop where
  lapCount : u.lapCount = t.lapCount
  dev : u.dev = t.dev
  mono : u.mono = t.mono
  lapRate : u.lapRate = t.lapRate
  pendingRate : u.pendingRate = t.pendingRate
  next : u.next = t.next
  lapAt : u.lapAt = t.lapAt
  lastValid : u.lastValid = t.lastValid ∨ u.lastValid = t.mono
  ppsAt : u.ppsAt = t.ppsAt ∨ u.ppsAt = some t.mono

/-- What a row other than LAP_BOUNDARY may leave: a time unit that starts anew or is stopped, or one that runs on. -/
def TimeUnit.KeptBy (t u : TimeUnit) : Prop := u = { running := u.running } ∨ t.RunsOn u

theorem TimeUnit.RunsOn.refl (t : TimeUnit) : t.RunsOn t := ⟨rfl, rfl, rfl, rfl, rfl, rfl, rfl, .inl rfl, .inl rfl⟩

theorem TimeUnit.keptBy_refl (t : TimeUnit) : t.KeptBy t := .inr (.refl t)

/-- A source measurement sets the discipline and notes the time of the measurement. -/
theorem State.sourceValid_runsOn (s : State) (o : Int) : s.time.RunsOn (s.sourceValid o).time := by
  unfold State.sourceValid; simp only []
  split
  · exact .refl _
  · rw [setTimeState_time]
    split <;> exact ⟨rfl, rfl, rfl, rfl, rfl, rfl, rfl, .inr rfl, .inl rfl⟩

theorem State.timeSourceValid_runsOn (s : State) (p : Nat) (o : Int) : s.time.RunsOn (s.timeSourceValid p o).time := by
  unfold State.timeSourceValid
  split
  · exact .refl _
  · exact s.sourceValid_runsOn o

theorem State.sourceLost_runsOn (s : State) : s.time.RunsOn s.sourceLost.time := by
  unfold State.sourceLost; simp only []
  split
  · rw [State.drawn, setTimeState_time]; exact ⟨rfl, rfl, rfl, rfl, rfl, rfl, rfl, .inl rfl, .inl rfl⟩
  · exact .refl _

/-- An edge of PPS_IN has no effect, or is a measurement of the source. -/
theorem State.ppsEdge_cases (s : State) : s.ppsEdge = s ∨
    s.ppsEdge = ({ s with time := { s.time with ppsAt := some s.time.mono, setSeconds := none } } : State).sourceValid s.time.ppsOffset := by
  unfold State.ppsEdge; simp only []
  split <;> split <;> simp

/-- It notes its own time and that of the measurement. -/
theorem State.ppsEdge_runsOn (s : State) : s.time.RunsOn s.ppsEdge.time := by
  rcases s.ppsEdge_cases with h | h
  · rw [h]; exact .refl _
  · obtain ⟨hlap, hdev, hmono, hrate, hpending, hnext, hat, hvalid, hpps⟩ :=
      State.sourceValid_runsOn { s with time := { s.time with ppsAt := some s.time.mono, setSeconds := none } } s.time.ppsOffset
    rw [h]
    exact ⟨hlap, hdev, hmono, hrate, hpending, hnext, hat, hvalid, .inr (hpps.elim (fun h => h) fun h => h)⟩

theorem State.timeSetSeconds_runsOn (s : State) (slot : Nat) :
    s.time.RunsOn (serve slot Op.timeSetSeconds State.timeSetSeconds s).time := by
  unfold serve State.timeSetSeconds
  split
  · exact .refl _
  · simp only []
    split
    · split
      · simp only [State.refuse_frame]; exact .refl _
      · split
        · simp only [State.reply, State.refuse_frame]; exact .refl _
        · simp only [State.reply, Reply.ok, State.post_frame]
          exact ⟨rfl, rfl, rfl, rfl, rfl, rfl, rfl, .inl rfl, .inl rfl⟩
    · exact .refl _

theorem TimeUnit.keptBy_of_eq {t u : TimeUnit} (h : u = t) : t.KeptBy u := h ▸ t.keptBy_refl

/-- A reset row comes to a cold reset or a boot, which leave a time unit that starts anew, or keeps it. -/
theorem State.resetAssert_kept (s : State) : s.time.KeptBy s.resetAssert.time := by
  unfold State.resetAssert; simp only []
  split
  · exact s.time.keptBy_refl
  · split
    · exact s.time.keptBy_refl
    · exact .inl rfl

theorem State.resetRelease_kept (s : State) (g : Bool) : s.time.KeptBy (s.resetRelease g).time := by
  unfold State.resetRelease; simp only []
  split
  · exact s.time.keptBy_refl
  · split
    · exact .inl rfl
    · exact s.time.keptBy_refl

theorem State.supplyTrip_kept (s : State) : s.time.KeptBy s.supplyTrip.time := by
  unfold State.supplyTrip; simp only []
  split
  · exact s.time.keptBy_refl
  · exact .inl rfl

theorem State.supplyBack_kept (s : State) : s.time.KeptBy s.supplyBack.time := by
  unfold State.supplyBack; simp only []
  split
  · exact s.time.keptBy_refl
  · split
    · exact .inl rfl
    · exact s.time.keptBy_refl

theorem State.flushEnd_kept (s : State) : s.time.KeptBy s.flushEnd.time := by
  unfold State.flushEnd; simp only []
  split
  · exact s.time.keptBy_refl
  · split
    · exact s.time.keptBy_refl
    · split <;> exact .inl rfl

theorem State.linkDown_kept (s : State) : s.time.KeptBy s.linkDown.time := by
  unfold State.linkDown; simp only []
  split
  · exact .inr ⟨rfl, rfl, rfl, rfl, rfl, rfl, rfl, .inl rfl, .inl rfl⟩
  · exact s.time.keptBy_refl

/-- A row that does not set the time unit leaves it as it was. -/
theorem exec_time {c : Instr} {s t : State} (hrow : timeRow c = false) (h : exec c s = .next t) : t.time = s.time := by
  by_cases htest : ∃ op, c = .jtagInstruction op
  · obtain ⟨op, rfl⟩ := htest
    cases op with
    | privateOp k =>
      by_cases hopen : s.jtagOpen = true
      · exact nomatch (show Host.Outcome.refused Refusal.jtagPrivate = .next t by rw [← h]; exact (if_pos hopen).symm)
      · rw [← Host.Outcome.next.inj ((if_neg hopen).symm.trans h)]
    | _ => rw [← Host.Outcome.next.inj h]
  · obtain ⟨u, hu, -, htime⟩ := exec_next c s (not_exists.1 htest)
    rw [Host.Outcome.next.inj (h.symm.trans hu)]
    exact htime hrow

/-- Every row but LAP_BOUNDARY starts the time unit anew, stops it, or lets it run on. -/
theorem exec_kept {c : Instr} {s t : State} (hc : c ≠ .lapBoundary) (h : exec c s = .next t) : s.time.KeptBy t.time := by
  by_cases hrow : timeRow c = false
  · exact TimeUnit.keptBy_of_eq (exec_time hrow h)
  · cases c with
    | lapBoundary => exact absurd rfl hc
    | resetNAssert => exact Host.Outcome.next.inj h ▸ s.resetAssert_kept
    | resetNRelease g => exact Host.Outcome.next.inj h ▸ s.resetRelease_kept g
    | supplyMonitorTrip => exact Host.Outcome.next.inj h ▸ s.supplyTrip_kept
    | supplyMonitorRelease => exact Host.Outcome.next.inj h ▸ s.supplyBack_kept
    | powerFailFlushEnd => exact Host.Outcome.next.inj h ▸ s.flushEnd_kept
    | timeSourceValid x => exact Host.Outcome.next.inj h ▸ .inr (s.timeSourceValid_runsOn x.port x.offset)
    | sourceLossExpire => exact Host.Outcome.next.inj h ▸ .inr s.sourceLost_runsOn
    | ppsInEdge => exact Host.Outcome.next.inj h ▸ .inr s.ppsEdge_runsOn
    | timeSetSeconds slot => exact Host.Outcome.next.inj h ▸ .inr (s.timeSetSeconds_runsOn slot)
    | timeSecondsLoRead | functionLevelReset =>
      exact Host.Outcome.next.inj h ▸ .inr ⟨rfl, rfl, rfl, rfl, rfl, rfl, rfl, .inl rfl, .inl rfl⟩
    | pcieLinkDown => exact Host.Outcome.next.inj h ▸ s.linkDown_kept
    | _ => exact absurd rfl hrow

/-! ### LAP_BOUNDARY -/

/-- The state in which orders 4 to 10 of a boundary begin. -/
def State.carried (s : State) : State := s.toBoundary.timeStep.lapCounted.order3.lapLength

theorem State.lapBoundary_stopped {s : State} (h : s.time.running = false) : s.lapBoundary = s := by simp [State.lapBoundary, h]

theorem State.lapBoundary_running {s : State} (h : s.time.running = true) :
    s.lapBoundary = (s.carried.timeless (fun u => u.order4to10 s.lap)).ppsOut := by simp [State.lapBoundary, State.carried, h]

/-- Orders 4 to 10 and PPS_OUT leave the time unit as the orders before them do. -/
theorem State.lapBoundary_time {s : State} (h : s.time.running = true) : s.lapBoundary.time = s.carried.time := by
  rw [State.lapBoundary_running h, ppsOut_time]; rfl

/-- A time unit `u` after a boundary at which `t` stood, the monotonic counter at `m`: the lap is counted, the rates are accepted ones
where they changed, and the next boundary is set. -/
structure TimeUnit.AtBoundary (t : TimeUnit) (m : Nat) (u : TimeUnit) : Prop where
  lapCount : u.lapCount = t.lapCount + 1
  mono : u.mono = m
  lapAt : u.lapAt = m
  lastValid : u.lastValid = t.lastValid
  ppsAt : u.ppsAt = t.ppsAt
  rate : u.lapRate = t.lapRate ∨ lapRateOk u.lapRate = true
  pending : ∀ k, u.pendingRate = some k → lapRateOk k = true
  next : u.next = boundaryAfter u.dev (1000000000 / u.lapRate)

theorem State.carried_atBoundary (s : State) : s.time.AtBoundary s.toBoundary.time.mono s.carried.time := by
  have hcounted : s.toBoundary.timeStep.lapCounted.time =
      { s.toBoundary.time with dev := s.toBoundary.timeStep.time.dev, step := none, lapCount := s.time.lapCount + 1
                               lapAt := s.toBoundary.time.mono } := by
    rw [State.lapCounted, timeStep_time, State.toBoundary_time]
  obtain ⟨v, hv⟩ := order3_time s.toBoundary.timeStep.lapCounted
  obtain ⟨r, q, htime, hrate⟩ := lapLength_time s.toBoundary.timeStep.lapCounted.order3
  rw [hv, hcounted, State.toBoundary_time] at htime hrate
  simp only [TimeUnit.activated, Option.filter_eq_some_iff] at htime hrate
  rw [State.carried, htime, State.toBoundary_time]
  refine ⟨rfl, rfl, rfl, rfl, rfl, ?_, ?_, rfl⟩
  · rcases hrate with ⟨hr, -⟩ | ⟨⟨-, hr⟩, -⟩
    · exact .inl hr
    · exact .inr hr
  · rcases hrate with ⟨-, hq⟩ | ⟨-, hq⟩
    · intro k hk
      rw [hq] at hk
      exact (Option.filter_eq_some_iff.1 hk).2
    · intro k hk
      exact absurd (hq ▸ hk) (by simp)

/-- Time does not go back on its way to a boundary. -/
theorem State.toBoundary_mono (s : State) : s.time.mono ≤ s.toBoundary.time.mono := by
  rw [State.toBoundary_time]; exact Nat.le_add_right _ _

/-- What one step can do to the time unit: idling passes a nanosecond or nothing, LAP_BOUNDARY comes to a boundary of a running time unit,
and every other row starts it anew, stops it or lets it run on. -/
theorem step_time {s t : State} (h : step s = .next t) :
    (s.pending = [] ∧ s.time.dev < s.time.next ∧ t.time = s.time.tick (s.par P.slewMax))
    ∨ ((∃ rest, s.pending = .lapBoundary :: rest) ∧ ∃ m, s.time.mono ≤ m ∧ s.time.AtBoundary m t.time)
    ∨ s.time.KeptBy t.time := by
  cases hp : s.pending with
  | nil =>
    rw [step_idle hp] at h
    obtain rfl := Host.Outcome.next.inj h
    by_cases hpass : s.time.running = true ∧ s.time.dev < s.time.next
    · exact .inl ⟨rfl, hpass.2, s.tick_time hpass.1 hpass.2⟩
    · refine .inr (.inr (TimeUnit.keptBy_of_eq (congrArg _ (State.tick_still ?_))))
      rcases hrun : s.time.running with _ | _
      · exact .inl rfl
      · exact .inr (Nat.not_lt.1 fun hlt => hpass ⟨hrun, hlt⟩)
  | cons c rest =>
    rw [step_command hp] at h
    by_cases hc : c = .lapBoundary
    · subst hc
      have htime : t.time = ({ s with pending := rest } : State).lapBoundary.time := by rw [← Host.Outcome.next.inj h]
      rcases hrun : s.time.running with _ | _
      · refine .inr (.inr (TimeUnit.keptBy_of_eq ?_))
        rw [htime, State.lapBoundary_stopped (s := { s with pending := rest }) hrun]
      · refine .inr (.inl ⟨⟨rest, rfl⟩, _, State.toBoundary_mono { s with pending := rest }, ?_⟩)
        rw [htime, State.lapBoundary_time (s := { s with pending := rest }) hrun]
        exact State.carried_atBoundary { s with pending := rest }
    · exact .inr (.inr (exec_kept (s := { s with pending := rest }) hc h))

/-! ### The invariant, the lap count and the monotonic counter -/

theorem TimeUnit.inOrder_tick {t : TimeUnit} (h : t.inOrder) (ppm : Nat) : (t.tick ppm).inOrder := by
  obtain ⟨hrate, hpending, hboundary, hahead, hnear, hlap, hvalid, hpps⟩ := h
  obtain ⟨hlow, hhigh⟩ := t.tick_dev ppm hahead
  rw [TimeUnit.tick_only]
  exact ⟨hrate, hpending, hboundary, hhigh, by show 2 * (t.next - (t.tick ppm).dev) ≤ 3 * (1000000000 / t.lapRate); omega, Nat.le_add_right_of_le hlap,
    Nat.le_add_right_of_le hvalid, fun e he => Nat.le_add_right_of_le (hpps e he)⟩

theorem TimeUnit.inOrder_atBoundary {t u : TimeUnit} {m : Nat} (h : t.inOrder) (hm : t.mono ≤ m) (hu : t.AtBoundary m u) : u.inOrder := by
  have hrate : lapRateOk u.lapRate = true := hu.rate.elim (fun hr => hr ▸ h.rate) id
  obtain ⟨hwhole, hahead, hnear, -⟩ := boundaryAfter_spec u.dev _ (lapNs_pos _ hrate).1
  rw [← hu.next] at hwhole hahead hnear
  have hvalid := h.valid
  exact ⟨hrate, hu.pending, hwhole, Nat.le_of_lt hahead, hnear, by rw [hu.lapAt, hu.mono], by rw [hu.lastValid, hu.mono]; omega,
    fun e he => by rw [hu.mono]; exact (h.pps e (hu.ppsAt ▸ he)).trans hm⟩

theorem TimeUnit.inOrder_runsOn {t u : TimeUnit} (h : t.inOrder) (hu : t.RunsOn u) : u.inOrder where
  rate := hu.lapRate ▸ h.rate
  pending := hu.pendingRate ▸ h.pending
  boundary := by rw [hu.next, hu.lapRate]; exact h.boundary
  ahead := by rw [hu.dev, hu.next]; exact h.ahead
  near := by rw [hu.next, hu.dev, hu.lapRate]; exact h.near
  lap := by rw [hu.lapAt, hu.mono]; exact h.lap
  valid := by
    rw [hu.mono]
    rcases hu.lastValid with hv | hv
    · exact hv ▸ h.valid
    · exact Nat.le_of_eq hv
  pps e he := by
    rw [hu.mono]
    rcases hu.ppsAt with hp | hp
    · exact h.pps e (hp ▸ he)
    · exact Nat.le_of_eq (Option.some.inj (he.symm.trans hp))

/-- Settles O6: the nanosecond, the boundary and the other rows each keep the order. -/
theorem timeUnitStaysInOrder : Obligations.TimeUnitStaysInOrder := by
  unfold Obligations.TimeUnitStaysInOrder
  intro s t horder hstep
  rcases step_time hstep with ⟨-, -, htick⟩ | ⟨-, m, hm, hboundary⟩ | hanew | hon
  · exact htick ▸ TimeUnit.inOrder_tick horder _
  · exact TimeUnit.inOrder_atBoundary horder hm hboundary
  · exact hanew ▸ TimeUnit.inOrder_anew _
  · exact TimeUnit.inOrder_runsOn horder hon

/-- Settles O7: of the things a step can do, the boundary alone counts. -/
theorem lapCountCountsBoundaries : Obligations.LapCountCountsBoundaries := by
  unfold Obligations.LapCountCountsBoundaries
  refine ⟨fun s rest hp hrun => ⟨_, step_command hp, ?_⟩, fun s t hstep hp => ?_⟩
  · show ({ s with pending := rest } : State).lapBoundary.time.lapCount = _
    rw [State.lapBoundary_time (s := { s with pending := rest }) hrun, (State.carried_atBoundary _).lapCount]
  · rcases step_time hstep with ⟨-, -, htick⟩ | ⟨⟨rest, hrest⟩, -⟩ | hanew | hon
    · exact .inl (by rw [htick, TimeUnit.tick_only])
    · exact absurd hrest (hp rest)
    · exact .inr hanew
    · exact .inl hon.lapCount

/-- What is slewed of a stretch of device time is within SLEW_MAX of it. -/
theorem slewPart_natAbs (o : Int) (ns ppm : Nat) : (slewPart o ns ppm).natAbs ≤ ns * ppm / 1000000 := by
  unfold slewPart clampInt
  omega

/-- Settles O8: a boundary advances the counter by the device time to it less the part slewed. -/
theorem monotonicCounterNeverStepped : Obligations.MonotonicCounterNeverStepped := by
  unfold Obligations.MonotonicCounterNeverStepped
  refine ⟨fun s t hstep => ?_, fun s hrun hmax => ⟨_, rfl, ?_⟩⟩
  · rcases step_time hstep with ⟨-, -, htick⟩ | ⟨-, m, hm, hboundary⟩ | hanew | hon
    · exact .inl (by rw [htick, TimeUnit.tick_only]; exact Nat.le_add_right _ _)
    · exact .inl (hboundary.mono ▸ hm)
    · exact .inr hanew
    · exact .inl (Nat.le_of_eq hon.mono.symm)
  · have hslewed := slewPart_natAbs s.time.slew (s.time.next - s.time.dev) (s.par P.slewMax)
    have hpart : (s.time.next - s.time.dev) * s.par P.slewMax / 1000000 ≤ s.time.next - s.time.dev :=
      Nat.div_le_of_le_mul (by rw [Nat.mul_comm]; exact Nat.mul_le_mul_right _ (by omega))
    have hmono : s.lapBoundary.time.mono = s.time.mono
        + (((s.time.next - s.time.dev : Nat) : Int) - slewPart s.time.slew (s.time.next - s.time.dev) (s.par P.slewMax)).toNat := by
      rw [State.lapBoundary_time hrun, s.carried_atBoundary.mono, State.toBoundary_time]
    show s.time.mono + _ ≤ s.lapBoundary.time.mono + _ ∧ s.lapBoundary.time.mono ≤ _
    rw [hmono]
    omega

end Sys2Proof.Machine
end

section
/-! SUPPORT. The order of effects at a boundary and the discipline of device time (R30 to R41, R515, R545; log entries 13 to 15, 136). -/
namespace Sys2Proof.Machine

/-! ### Order 1: a time step -/

/-- What a MAC does about a gate changes no counter of the time unit's steps. -/
theorem State.timeSteps_gateMoves (s : State) (p : Nat) : (s.gateMoves p).ctr.timeSteps = s.ctr.timeSteps := by
  have hturns : (s.macTurns p).ctr = s.ctr := by
    unfold State.macTurns; simp only []
    repeat' split
    all_goals rfl
  unfold State.gateMoves
  split
  · rw [hturns]
  · repeat' split
    all_goals rfl

theorem State.timeSteps_count (s : State) (st : Stat) (i n : Nat) : (s.count st i n).ctr.timeSteps = s.ctr.timeSteps := by
  unfold State.count; split <;> rfl

theorem State.timeSteps_startList (s : State) (p k : Nat) : (s.startList p k).ctr.timeSteps = s.ctr.timeSteps := by
  unfold State.startList
  split
  · split
    · exact State.timeSteps_gateMoves _ p
    · rfl
  · rfl

/-- A step that waits moves device time and is counted once, whatever the lists then do. -/
theorem State.timeStep_some {s : State} {d : Int} (h : s.time.step = some d) :
    s.timeStep.time = { s.time with dev := ((s.time.dev : Int) + d).toNat, step := none } ∧ s.timeStep.ctr.timeSteps = s.ctr.timeSteps + 1 := by
  refine ⟨by simp only [State.timeStep, h]; rfl, ?_⟩
  simp only [State.timeStep, h]
  exact (State.forEach_keeps _ (fun u => u.ctr.timeSteps) _ _ (fun u x => u.timeSteps_startList _ _)).trans
    (State.forEach_keeps _ (fun u => u.ctr.timeSteps) _ _ (fun u p => (State.timeSteps_gateMoves _ p).trans (u.timeSteps_count _ _ _)))

theorem State.timeStep_none {s : State} (h : s.time.step = none) : s.timeStep = s := by simp only [State.timeStep, h]

/-! ### The rate of laps -/

/-- At a second of device time the rate that waits takes effect. -/
theorem State.lapLength_second {s : State} {r : Nat} (hr : s.time.pendingRate = some r) (h : s.time.dev % 1000000000 = 0) :
    s.lapLength.time.lapRate = r ∧ s.lapLength.time.pendingRate = none := by simp [State.lapLength, hr, h]

theorem State.lapLength_between {s : State} {r : Nat} (hr : s.time.pendingRate = some r) (h : s.time.dev % 1000000000 ≠ 0) :
    s.lapLength.time.lapRate = s.time.lapRate ∧ s.lapLength.time.pendingRate = some r := by simp [State.lapLength, hr, h]

theorem State.lapLength_next (s : State) : s.lapLength.time.next = boundaryAfter s.time.dev (1000000000 / s.lapLength.time.lapRate) := by
  obtain ⟨r, q, h, -⟩ := lapLength_time s
  rw [h]

/-- With no phase to slew, both counters go the way to the boundary. -/
theorem State.toBoundary_unslewed {s : State} (hslew : s.time.slew = 0) (h : s.time.dev ≤ s.time.next) :
    s.toBoundary.time = { s.time with dev := s.time.next, mono := s.time.mono + (s.time.next - s.time.dev) } := by
  have hpart : slewPart 0 (s.time.next - s.time.dev) (s.par P.slewMax) = 0 := by unfold slewPart clampInt; omega
  rw [State.toBoundary_time, hslew, hpart, Nat.max_eq_right h]
  simp only [Int.sub_zero, Int.toNat_natCast]
  rw [← hslew]

/-- PPS_OUT rises whatever waits in the queue. -/
theorem State.ppsOut_pending (s : State) (l : List Instr) : { s.ppsOut with pending := l } = ({ s with pending := l } : State).ppsOut := by
  unfold State.ppsOut State.emit; simp only []
  split
  · split <;> rfl
  · rfl

/-- Settles O31: the orders of a boundary as LAP_BOUNDARY runs them, then each of those that bear on time by its own rule. -/
theorem lapBoundaryFollowsItsOrders : Obligations.LapBoundaryFollowsItsOrders := by
  unfold Obligations.LapBoundaryFollowsItsOrders
  refine ⟨fun s hrun => ⟨_, rfl, _, rfl, ?_, rfl, ?_⟩, fun s hrun => ?_, fun s => State.toBoundary_unslewed, fun s d => State.timeStep_some,
    fun s => State.timeStep_none, fun s r hr => ⟨fun h => State.lapLength_second hr h, fun h => State.lapLength_between hr h⟩, fun dev lap h => ?_,
    State.lapLength_next, fun s => ⟨fun h => if_pos h, fun h => if_neg h⟩⟩
  · exact State.lapBoundary_time hrun
  · rw [State.lapBoundary_running hrun, State.ppsOut_pending]; simp only [State.timeless, State.carried]
  · show Host.Outcome.next { s.lapBoundary with pending := s.pending } = _
    rw [State.lapBoundary_stopped hrun]
  · obtain ⟨hwhole, hahead, hnear, hfar⟩ := boundaryAfter_spec dev lap h
    exact ⟨hwhole, hahead, hfar, hnear⟩

/-! ### The sources of time -/

/-- The discipline's frequency correction is within SLEW_MAX. -/
theorem State.correction_natAbs (s : State) : s.correction.natAbs ≤ 1000 * s.par P.slewMax := by
  have := Nat.mod_lt (s.freeVal 32) (show 0 < 2000 * s.par P.slewMax + 1 by omega)
  unfold State.correction
  omega

section sourceValid
variable {s : State} {o : Int} (hrun : s.time.running = true) (hsource : s.par P.timeSource ≠ 2)
include hrun hsource

/-- In LOCKED a small offset is slewed. -/
theorem State.sourceValid_slews (hlocked : s.time.state = .locked) (h : o.natAbs < s.par P.stepThreshold) :
    s.sourceValid o = { s with
      time := { s.time with lastValid := s.time.mono, step := none, slew := o, freq := s.correction, ref10 := decide (s.par P.timeSource = 1) }
      free := s.free + 1 } := by
  simp [State.sourceValid, State.setTimeState, State.drawn, hrun, hsource, hlocked, Nat.not_le.2 h]

/-- A large one waits as a step. -/
theorem State.sourceValid_steps (hlocked : s.time.state = .locked) (h : s.par P.stepThreshold ≤ o.natAbs) (ho : o ≠ 0) :
    s.sourceValid o = { s with
      time := { s.time with lastValid := s.time.mono, step := some o, slew := 0, freq := s.correction, ref10 := decide (s.par P.timeSource = 1) }
      free := s.free + 1 } := by
  simp [State.sourceValid, State.setTimeState, State.drawn, hrun, hsource, hlocked, h, ho]

/-- FREERUN is left by a step, with its entry and the end of the condition of TIME_SOURCE. -/
theorem State.sourceValid_locks (hfree : s.time.state = .freerun) (ho : o ≠ 0) :
    s.sourceValid o = (({ s with
      time := { s.time with state := .locked, lastValid := s.time.mono, step := some o, slew := 0, freq := s.correction
                            ref10 := decide (s.par P.timeSource = 1) }
      free := s.free + 1 } : State).timeless (fun u => (u.ruleEvent 37 0 0 [1]).clearCond 187 0)) := by
  simp [State.sourceValid, State.setTimeState, State.drawn, hrun, hsource, hfree, ho, TimeState.code]

end sourceValid

/-- The source counts but for a PTP engine at another port than PTP_PORT. -/
theorem State.timeSourceValid_counts {s : State} {p : Nat} {o : Int} (h : s.par P.timeSource = 0 → s.par P.ptpPort = p) :
    s.timeSourceValid p o = s.sourceValid o := by
  unfold State.timeSourceValid
  rw [if_neg]
  simpa using h

/-- With no valid input for SOURCE_LOSS, LOCKED is left for HOLDOVER. -/
theorem State.sourceLost_holds {s : State} (hlocked : s.time.state = .locked)
    (h : s.time.lastValid + 1000000000 * s.par P.sourceLoss ≤ s.time.mono) :
    s.sourceLost = ((({ s with
      time := { s.time with state := .holdover, slew := 0, ref10 := decide (s.freeVal 1 = 1) }
      gmu := { s.gmu with holdoverAt := s.time.mono } } : State).timeless (fun u => (u.ruleEvent 37 0 0 [2]).raise 187 0)).drawn) := by
  simp [State.sourceLost, State.setTimeState, hlocked, h, TimeState.code]

/-- An edge of PPS_IN marks the second that TIME.SET_SECONDS named. -/
theorem State.ppsEdge_named {s : State} {v : Nat} (hrun : s.time.running = true) (hsource : s.par P.timeSource = 1)
    (hfirst : s.time.ppsAt = none) (hv : s.time.setSeconds = some v) :
    s.ppsEdge = ({ s with time := { s.time with ppsAt := some s.time.mono, setSeconds := none } } : State).sourceValid
      ((1000000000 * v : Int) - s.time.dev) := by
  simp [State.ppsEdge, TimeUnit.ppsOffset, hrun, hsource, hfirst, hv]

theorem State.ppsEdge_early {s : State} {e : Nat} (he : s.time.ppsAt = some e) (h : s.time.mono < e + 500000000) : s.ppsEdge = s := by
  simp [State.ppsEdge, he, h]

theorem exec_timeSourceValid (p : Nat) (o : Int) (s : State) :
    exec (.timeSourceValid ⟨p, o⟩) s = runsTime (fun s => s.timeSourceValid p o) s := rfl

theorem exec_sourceLossExpire (s : State) : exec .sourceLossExpire s = runsTime State.sourceLost s := rfl

theorem exec_ppsInEdge (s : State) : exec .ppsInEdge s = runsTime State.ppsEdge s := rfl

theorem exec_timeSecondsLoRead (s : State) : exec .timeSecondsLoRead s = runsTime State.readSeconds s := rfl

/-- Settles O9: each clause is one case of a measurement, of the loss of the source, of an edge of PPS_IN or of the read. -/
theorem timeSourcesDisciplineDeviceTime : Obligations.TimeSourcesDisciplineDeviceTime := by
  unfold Obligations.TimeSourcesDisciplineDeviceTime
  simp only [exec_timeSourceValid, exec_sourceLossExpire, exec_ppsInEdge, exec_timeSecondsLoRead]
  refine ⟨fun s p o hrun hsource hport hlocked h => ⟨_, s.correction_natAbs, ?_⟩,
    fun s p o hrun hsource hport hlocked h ho => ⟨_, s.correction_natAbs, ?_⟩,
    fun s p o hrun hsource hport hfree ho => ⟨_, s.correction_natAbs, ?_⟩, fun s p o hptp hport => ?_, fun s hlocked h => ⟨decide (s.freeVal 1 = 1), ?_⟩,
    fun s v hrun hsource hfirst hlocked hv ho h => ⟨_, s.correction_natAbs, ?_⟩, fun s e he h => ?_, fun s => ?_⟩
  · exact runsTime_to ((State.timeSourceValid_counts hport).trans (State.sourceValid_slews hrun hsource hlocked h)) rfl
  · exact runsTime_to ((State.timeSourceValid_counts hport).trans (State.sourceValid_steps hrun hsource hlocked h ho)) rfl
  · refine runsTime_to ((State.timeSourceValid_counts hport).trans ((State.sourceValid_locks hrun hsource hfree ho).trans
      (State.timeless_eq _ _ ?_))) ?_
    · rw [(State.clearCond_time_pending _ _ _).1]; simp
    · rw [(State.clearCond_time_pending _ _ _).2]; simp
  · exact runsTime_to (f := fun s => s.timeSourceValid p o) (by simp [State.timeSourceValid, hptp, hport]) rfl
  · exact runsTime_queued (State.sourceLost_holds hlocked h)
  · have hmoved := State.ppsEdge_named hrun hsource hfirst hv
    have hstepped := State.sourceValid_steps (s := { s with time := { s.time with ppsAt := some s.time.mono, setSeconds := none } }) hrun
      (by show s.par P.timeSource ≠ 2; omega) hlocked h ho
    rw [show State.par { s with time := { s.time with ppsAt := some s.time.mono, setSeconds := none } } P.timeSource = 1 from hsource] at hstepped
    exact runsTime_to (hmoved.trans hstepped) rfl
  · exact runsTime_to (State.ppsEdge_early he h) rfl
  · exact runsTime_to rfl (by simp)

end Sys2Proof.Machine
end
section
/-! SUPPORT. Sessions, tokens, transfers and jobs that come to their end (R405, R412 to R415, R429). -/
namespace Sys2Proof.Machine

/-- Tokens that are dropped one by one are gone, and the recorder has its entries. -/
theorem State.forEach_dropToken (l : List DebugToken) : ∀ s : State, ∃ r, s.forEach l (fun s t => s.dropToken t) =
    { s with mbx := { s.mbx with tokens := s.mbx.tokens.filter (fun x => !l.contains x) }, recd := r } := by
  induction l with
  | nil => exact fun s => ⟨s.recd, by simp⟩
  | cons t l ih =>
    intro s
    obtain ⟨r, h⟩ := ih (s.dropToken t)
    refine ⟨r, ?_⟩
    have hdrop : s.dropToken t = { s with mbx := { s.mbx with tokens := s.mbx.tokens.filter (· != t) }, recd := (s.dropToken t).recd } := by
      rw [State.dropToken, State.ruleEvent, State.log_only]
    rw [State.forEach_cons, h, hdrop]
    simp only [List.filter_filter, List.contains_cons, Bool.not_or, Bool.and_comm]
    rfl

/-- So are all tokens that have a property. -/
theorem State.dropTokens_where (s : State) (f : DebugToken → Bool) :
    ∃ r, s.forEach (s.mbx.tokens.filter f) (fun s t => s.dropToken t) =
      { s with mbx := { s.mbx with tokens := s.mbx.tokens.filter (fun t => !f t) }, recd := r } := by
  obtain ⟨r, h⟩ := State.forEach_dropToken (s.mbx.tokens.filter f) s
  refine ⟨r, h.trans ?_⟩
  rw [List.filter_congr (q := fun t => !f t)]
  intro t ht
  simp [List.mem_filter, ht]

/-- A session that closes takes its ended jobs and its tokens with it, and is recorded. -/
theorem State.closeSession_live {s : State} {k : Nat} (n : Nat) (h : (s.sess k).live = true) : ∃ r, s.closeSession k (some n) = { s with
    mbx := { s.mbx with session := s.mbx.session.del k, jobs := s.mbx.jobs.filter (fun j => !(j.session == k && j.rstate != 1)),
                        tokens := s.mbx.tokens.filter (fun t => t.session != k) }, recd := r } := by
  simp only [State.closeSession, h, Bool.not_true, Bool.false_eq_true, if_false, State.endToken]
  generalize hu : State.ruleEvent _ 405 k n [] (s.sess k).inst = u
  rw [State.ruleEvent, State.log_only] at hu
  obtain ⟨r, hr⟩ := u.dropTokens_where (fun t => t.session == k)
  exact ⟨r, hr.trans (by subst hu; rfl)⟩

/-- A job that holds no slot ends: its result is kept, its end is recorded, and the mailbox vector is raised. -/
theorem State.endJob_done {s : State} {k q st : Nat} {l : List Byte} {j : Job} (hj : s.job k q = some j) (hrun : j.rstate = 1)
    (hslot : j.slot = none) (hlive : (s.sess k).live = true) :
    s.endJob k q 0 st l = ((s.updJob k q (fun j => { j with
      rstate := 0, status := st, result := l, waits := false, endAt := s.time.mono, done := j.total })).ruleEvent
        506 q 1 [j.op, q, 0, st] j.inst).cause j.inst 0 := by
  have hwrite : s.dmaWrite j.outAddr (List.take j.outLen []) = s := by simp [State.dmaWrite]
  have hkept : ∀ f, ((s.updJob k q f).sess k).live = true := fun _ => hlive
  simp only [State.endJob, hj, hrun, hslot, hwrite, hkept, ne_eq, not_true_eq_false, if_false, if_true]

theorem exec_sessionConfirmExpire (k : Nat) (s : State) : exec (.sessionConfirmExpire k) s =
    runs (fun s => if (s.sess k).st = 1 ∧ (s.sess k).deadline ≤ s.time.mono then s.closeSession k (some 0) else s) s := rfl

theorem exec_sessionIdleExpire (k : Nat) (s : State) : exec (.sessionIdleExpire k) s =
    runs (fun s => if (s.sess k).st = 2 ∧ (s.sess k).deadline ≤ s.time.mono then s.closeSession k (some 1) else s) s := rfl

theorem exec_transferTimeout (k : Nat) (s : State) : exec (.transferTimeout k) s = runs (fun s => s.transferExpire k) s := rfl

theorem exec_jobStep (k q : Nat) (s : State) : exec (.jobStep k q) s = runs (fun s => s.runJob k q) s := rfl

/-- A job in progress advances while the Pacer is up. -/
theorem State.runJob_advances {s : State} {k q : Nat} {j : Job} (hj : s.job k q = some j) (hrun : j.rstate = 1)
    (hup : s.pacer.down = false) : s.runJob k q = s.jobStep j := by simp [State.runJob, hj, hrun, hup]

theorem State.runJob_waits {s : State} {k q : Nat} {j : Job} (hj : s.job k q = some j) (h : j.rstate ≠ 1 ∨ s.pacer.down = true) :
    s.runJob k q = s := by
  rcases h with h | h <;> simp [State.runJob, hj, h]

/-- Settles O43: each clause is one case of a timer's row, or of a job's step or end. -/
theorem sessionsAndJobsEnd : Obligations.SessionsAndJobsEnd := by
  unfold Obligations.SessionsAndJobsEnd
  simp only [exec_sessionConfirmExpire, exec_sessionIdleExpire, exec_transferTimeout, exec_jobStep]
  refine ⟨fun s k hdue => ⟨fun hpending => runs_keeping (if_pos ⟨hpending, hdue⟩), fun hopen => runs_keeping (if_pos ⟨hopen, hdue⟩)⟩,
    fun s k hearly => ⟨runs_to (if_neg fun h => Nat.not_le.2 hearly h.2) rfl rfl, runs_to (if_neg fun h => Nat.not_le.2 hearly h.2) rfl rfl⟩,
    fun s k n => State.closeSession_live n, fun s => ?_, fun s k q => rfl, fun s k => ⟨fun hopen hdue => ?_, fun hearly => ?_⟩,
    fun s k q j hj => ⟨fun hrun hup => runs_keeping (State.runJob_advances hj hrun hup),
      fun h => runs_to (State.runJob_waits hj h) rfl rfl⟩, fun s k q st l j => State.endJob_done⟩
  · obtain ⟨r, hr⟩ := s.dropTokens_where (fun t => decide (t.endAt ≤ s.time.mono))
    exact ⟨r, runs_to (f := State.tokenExpire) hr rfl rfl⟩
  · exact runs_to (f := fun s => s.transferExpire k) (if_pos ⟨hopen, hdue⟩) (by simp) (by simp)
  · exact runs_to (f := fun s => s.transferExpire k) (if_neg fun h => Nat.not_le.2 hearly h.2) rfl rfl

end Sys2Proof.Machine
end

section
/-! SUPPORT. Verdicts: the CMAC unit's jobs, the Pacer's HMAC frames, and AUTH_VERDICT (R254, R259 to R272, R277, R452; log entry 74). -/
namespace Sys2Proof.Machine

/-! ### What the unit and a raise leave alone -/

theorem State.pkt_cfg_slotUnref (s : State) (k : Nat) : (s.slotUnref k).pkt = s.pkt ∧ (s.slotUnref k).cfg = s.cfg := by
  unfold State.slotUnref; simp only []
  split <;> exact ⟨rfl, rfl⟩

/-- A job that leaves the CMAC unit changes no packet and no bank. -/
theorem State.pkt_cfg_leaveCmac (s : State) (j : Nat) (c : CmacJob) : (s.leaveCmac j c).pkt = s.pkt ∧ (s.leaveCmac j c).cfg = s.cfg := by
  have hunref : ((s.setJob j none).jobUnref c).pkt = s.pkt ∧ ((s.setJob j none).jobUnref c).cfg = s.cfg := by
    unfold State.jobUnref
    split
    · exact State.pkt_cfg_slotUnref _ _
    · exact ⟨rfl, rfl⟩
  unfold State.leaveCmac State.feedCmac
  split
  · split
    · exact hunref
    · exact hunref
  · exact hunref

theorem State.pkt_faultIrq (s : State) (src unit : Nat) : (s.faultIrq src unit).pkt = s.pkt := by
  unfold State.faultIrq; simp only []
  split
  · split <;> simp
  · simp

/-- The record of a raise changes no packet. -/
theorem State.pkt_record (s : State) (src unit : Nat) (prot : Bool) : (s.record src unit prot).pkt = s.pkt := by
  unfold State.record; simp only []
  repeat' split
  all_goals simp [State.pkt_faultIrq, State.updSrc]

theorem State.pkt_noteFailure (s : State) (src unit : Nat) : (s.noteFailure src unit).pkt = s.pkt := by
  unfold State.noteFailure; simp only []
  split
  · simp [State.pkt_faultIrq, State.updSrc]
  · rfl

theorem State.pkt_powerCycle (s : State) : s.powerCycle.pkt = s.pkt := by
  unfold State.powerCycle State.powerFailFlush; simp only []
  split
  · rfl
  · split <;> rfl

/-- An attempt on a source that has no function of its own touches no packet, unless it is a warm reset, which leaves none. -/
theorem State.pkt_attempt {s : State} {src unit : Nat} (hfunc : (sourceInfo src).func = 0) :
    (s.attempt src unit).pkt = s.pkt ∨ (s.attempt src unit).pkt = [] := by
  unfold State.attempt; simp only []
  split
  · exact .inl (State.pkt_powerCycle _)
  · split
    · exact .inl rfl
    · split
      · split
        · exact .inl rfl
        · exact .inr rfl
      · split
        · next h => exact absurd hfunc h.2
        · split <;> exact .inl rfl

theorem State.pkt_raise {s : State} {src unit : Nat} {prot : Bool} (hfunc : (sourceInfo src).func = 0) :
    (s.raise src unit prot).pkt = s.pkt ∨ (s.raise src unit prot).pkt = [] := by
  unfold State.raise; simp only []
  split
  · exact .inl rfl
  · split
    · refine (State.pkt_attempt hfunc).imp_left fun h => h.trans ?_
      exact s.pkt_record src unit _
    · split
      · refine (State.pkt_attempt hfunc).imp_left fun h => (h.trans (State.pkt_noteFailure _ _ _)).trans ?_
        exact s.pkt_record src unit _
      · exact .inl (s.pkt_record src unit _)

/-! ### CMAC_JOB_COMPLETE and CMAC_JOB_RESUME -/

section frameJob
variable {s : State} {j n pipe : Nat} {c : CmacJob} (hj : s.sec.cmac.at j = some c) (hst : c.st = 1) (hwork : c.work = .frame n pipe)
  (hlive : (s.pkt.at n).live = true) (hcmac : (s.pkt.at n).cmac = some j)
include hlive hcmac

theorem State.jobPacket_waits : s.jobPacket j n = some (s.pkt.at n) := by simp [State.jobPacket, hlive, hcmac]

include hj hwork

/-- A frame job does not end before its frame. -/
theorem State.cmacDone_early (hended : (s.pkt.at n).ended = false) : s.cmacDone j = s := by
  simp [State.cmacDone, State.canEnd, hj, hwork, State.jobPacket_waits hlive hcmac, hended]

include hst in
/-- A frame job that ends leaves the unit, and its frame is judged. -/
theorem State.cmacDone_frame (hended : (s.pkt.at n).ended = true) : s.cmacDone j =
    (if s.instGen c.inst == c.gen then s.leaveCmac j c
     else (s.leaveCmac j c).count Stat.falseStartDiscards (6 * c.inst + 3)).frameJudged j c n (s.instGen c.inst == c.gen) := by
  simp only [State.cmacDone, State.canEnd, hj, hst, hwork, State.jobPacket_waits hlive hcmac, Option.all_some, hended, beq_self_eq_true,
    Bool.and_self, Bool.not_true, Bool.false_eq_true, if_false]

end frameJob

/-- A frame that is not on the bench takes the outcome of its tag check. -/
theorem State.frameJudged_unbenched {u : State} {j n : Nat} {c : CmacJob} {p : Packet} {fresh : Bool} (hp : u.jobPacket j n = some p)
    (hbench : p.bench = none) : u.frameJudged j c n fresh = u.updPkt n (fun q => { q with
      cmac := none, tagOk := some (tagMatches (u.bankOf p.gen) p.assoc p.pn (.cmac c.rounds) p)
      verdict := if fresh then q.verdict else .fail F.staleGen }) := by
  simp [State.frameJudged, hp, hbench]

theorem State.jobPacket_of_pkt {u s : State} {j n : Nat} (h : u.pkt = s.pkt) : u.jobPacket j n = s.jobPacket j n := by
  simp only [State.jobPacket, h]

theorem State.bankOf_of_cfg {u s : State} (g : Nat) (h : u.cfg = s.cfg) : u.bankOf g = s.bankOf g := by simp only [State.bankOf, h]

/-- The suspended job whose turn it is takes the free context. -/
theorem State.cmacResume_turn {s : State} {j : Nat} {c v : CmacJob} (hj : s.sec.cmac.at j = some c) (hst : c.st = 2)
    (hroom : s.cmacFree = true) (hnext : s.nextCmac = some (j, v)) : s.cmacResume j = s.startCmac j c := by
  simp [State.cmacResume, hj, hst, hroom, hnext]

/-- A job that has its round keys keeps them. -/
theorem State.startCmac_rounds {s : State} {j : Nat} {c : CmacJob} (h : c.rounds ≠ []) : (s.startCmac j c).sec.cmac.at j =
    some { c with st := 1, engine := if s.cmacBusy 1 < s.cmacBusy 0 then 1 else 0, order := s.sec.nextJob } := by
  simp [State.startCmac, State.setJob, h]

/-- A context that is freed goes to the next job, if one waits and has room. -/
theorem State.feedCmac_none {u : State} (h : u.cmacFree = false ∨ u.nextCmac = none) : u.feedCmac = u := by
  unfold State.feedCmac
  rcases h with h | h <;> simp [h]

theorem State.feedCmac_next {u : State} {m : Nat} {v : CmacJob} (hroom : u.cmacFree = true) (hnext : u.nextCmac = some (m, v)) :
    u.feedCmac = u.startCmac m v := by simp [State.feedCmac, hroom, hnext]

/-! ### HMAC_VERIFY -/

/-- A key that is not found leaves its frame without a buffer where it had none. -/
theorem State.hmacKey_none {s u : State} {a k : Nat} {ok : Bool} (h : s.hmacKey a k ok = (u, none)) : u.pkt = s.pkt ∨ u.pkt = [] := by
  unfold State.hmacKey at h; simp only [] at h
  split at h
  · cases h
  · split at h
    · obtain rfl := (Prod.mk.inj h).1; exact .inl rfl
    · split at h
      · cases h
      · obtain rfl := (Prod.mk.inj h).1
        refine (State.pkt_raise (by decide)).imp_left fun h => h.trans ?_
        rw [(State.ruleEvent_frame _ _ _ _ _ _).2.2.2.2.2.1, State.hbmAsk_only]

section hmacVerify
variable {s : State} {n : Nat} {ok : Bool} (hlive : (s.pkt.at n).live = true) (hhmac : (s.pkt.at n).hmac = true)
  (hended : (s.pkt.at n).ended = true) (hup : s.pacer.down = false) (hbuf : (s.pkt.at n).hbuf = none)
include hlive hhmac hended hup hbuf

theorem State.hmacVerify_pastGeneration (hgen : s.instGen (s.pkt.at n).inst ≠ (s.pkt.at n).instGen) :
    s.hmacVerify n ok = (s.count Stat.falseStartDrops (s.pkt.at n).inst).drop n := by
  simp [State.hmacVerify, hlive, hhmac, hended, hup, hbuf, hgen]

variable (hgen : s.instGen (s.pkt.at n).inst = (s.pkt.at n).instGen)
include hgen

theorem State.hmacVerify_noKey {u : State} (hkey : s.hmacKey (s.pkt.at n).assoc (s.pkt.at n).keyNum ok = (u, none)) :
    s.hmacVerify n ok = u.hmacFail n F.keyUnknown := by
  have hnone : (u.pkt.at n).hbuf = none := by
    rcases State.hmacKey_none hkey with h | h
    · rw [h, hbuf]
    · rw [h]; rfl
  simp [State.hmacVerify, hlive, hhmac, hended, hup, hgen, hkey, hnone]

variable {u v : State} {key : List Byte} (hkey : s.hmacKey (s.pkt.at n).assoc (s.pkt.at n).keyNum ok = (u, some key))
  (huse : u.hmacUse (s.pkt.at n).assoc (s.pkt.at n).keyNum = (v, true)) (hv : v.pkt = s.pkt)
  (htag : (tagAt (v.bankOf (s.pkt.at n).gen) (s.pkt.at n).assoc (s.pkt.at n).rx.bytes.length).isSome = true)
include hkey huse htag

include hv in
theorem State.hmacVerify_mismatch
    (hmatch : tagMatches (v.bankOf (s.pkt.at n).gen) (s.pkt.at n).assoc (s.pkt.at n).pn (.hmac key) (s.pkt.at n) = false) :
    s.hmacVerify n ok = v.hmacFail n F.tagMismatch := by
  have hsome := Option.isSome_iff_ne_none.1 htag
  simp [State.hmacVerify, hlive, hhmac, hended, hup, hgen, hkey, huse, hv, hbuf, hsome, hmatch]

theorem State.hmacVerify_passes {w : State}
    (hmatch : tagMatches (v.bankOf (s.pkt.at n).gen) (s.pkt.at n).assoc (s.pkt.at n).pn (.hmac key) (s.pkt.at n) = true)
    (hreplay : v.hmacReplay (v.bankOf (s.pkt.at n).gen) (s.pkt.at n).assoc (s.pkt.at n).keyNum (s.pkt.at n).pn = (w, true))
    (hw : w.pkt = s.pkt) : s.hmacVerify n ok =
      (((w.count Stat.verified (s.pkt.at n).assoc).updAssoc (s.pkt.at n).assoc (fun a => { a with
        verified := a.verified + 1, lastVerified := (s.pkt.at n).keyNum })).updPkt n
          (fun p => { p with hmac := false, verdict := .pass, judged := true })).passStage6 n := by
  have hsome := Option.isSome_iff_ne_none.1 htag
  simp [State.hmacVerify, hlive, hhmac, hended, hup, hgen, hkey, huse, hbuf, hsome, hmatch, hreplay, hw]

end hmacVerify

/-- The Pacer waits for the tail, and until it serves. -/
theorem State.hmacVerify_waits {s : State} {n : Nat} {ok : Bool} (h : (s.pkt.at n).ended = false ∨ s.pacer.down = true) :
    s.hmacVerify n ok = s := by
  rcases h with h | h <;> simp [State.hmacVerify, h]

/-! ### AUTH_VERDICT -/

section verdict
variable {s t : State} {n c : Nat} (hlive : (s.pkt.at n).live = true) (hended : (s.pkt.at n).ended = true) (hgood : (s.pkt.at n).bad = false)
  (hjudged : (s.pkt.at n).judged = false) (hhmac : (s.pkt.at n).hmac = false) (hbench : (s.pkt.at n).bench = none)
  (hcmac : (s.pkt.at n).cmac = none)
include hlive hended hgood hjudged hhmac hbench hcmac

theorem State.verdict_passes (hpending : (s.pkt.at n).verdict = .pending) (hcheck : s.tailCheck n = (t, 0)) :
    s.verdict n = ((t.passFrame n).raiseLearn n).reap n := by
  simp [State.verdict, hlive, hended, hgood, hjudged, hhmac, hbench, hcmac, hpending, hcheck]

theorem State.verdict_failsCheck (hpending : (s.pkt.at n).verdict = .pending) (hcheck : s.tailCheck n = (t, c)) (hc : c ≠ 0) :
    s.verdict n = t.failTail n c := by
  obtain ⟨k, rfl⟩ := Nat.exists_eq_succ_of_ne_zero hc
  simp [State.verdict, hlive, hended, hgood, hjudged, hhmac, hbench, hcmac, hpending, hcheck]

theorem State.verdict_failed (hfail : (s.pkt.at n).verdict = .fail c) : s.verdict n = s.failTail n c := by
  simp [State.verdict, hlive, hended, hgood, hjudged, hhmac, hbench, hcmac, hfail]

end verdict

theorem State.verdict_leaves {s : State} {n : Nat} (h : (s.pkt.at n).ended = false ∨ (s.pkt.at n).judged = true ∨ (s.pkt.at n).verdict = .none) :
    s.verdict n = s := by
  rcases h with h | h | h
  · simp [State.verdict, h]
  · simp [State.verdict, h]
  · simp [State.verdict, h]

/-- Giving up a slot reference leaves the verdict and the counters. -/
theorem State.pktUnref_judged (s : State) (n : Nat) : ((s.pktUnref n).pkt.at n).verdict = (s.pkt.at n).verdict
    ∧ ((s.pktUnref n).pkt.at n).judged = (s.pkt.at n).judged ∧ (s.pktUnref n).ctr = s.ctr := by
  have hctr : ∀ k, (s.slotUnref k).ctr = s.ctr := by
    intro k; unfold State.slotUnref; simp only []; split <;> rfl
  unfold State.pktUnref
  split
  · rw [State.updPkt_pkt, Tab.at_upd_same, (State.pkt_cfg_slotUnref _ _).1]
    exact ⟨rfl, rfl, hctr _⟩
  · exact ⟨rfl, rfl, rfl⟩

/-- A frame that passes is judged, and counts in VERIFIED of its association. -/
theorem State.passFrame_judged (s : State) (n : Nat) : ((s.passFrame n).pkt.at n).verdict = .pass ∧ ((s.passFrame n).pkt.at n).judged = true
    ∧ (s.passFrame n).statVal Stat.verified (s.pkt.at n).assoc = min (2 ^ 64 - 1) (s.statVal Stat.verified (s.pkt.at n).assoc + 1) := by
  unfold State.passFrame; simp only []
  generalize hu : State.updPkt _ n _ = u
  obtain ⟨hverdict, hjudged, hctr⟩ := u.pktUnref_judged n
  have hcount : u.statVal Stat.verified (s.pkt.at n).assoc = (s.count Stat.verified (s.pkt.at n).assoc).statVal Stat.verified (s.pkt.at n).assoc := by
    rw [← hu]; rfl
  refine ⟨hverdict.trans (by rw [← hu]; simp), hjudged.trans (by rw [← hu]; simp), ?_⟩
  rw [State.statVal, hctr, ← State.statVal, hcount, State.count_statVal, if_neg Nat.one_ne_zero]

theorem exec_cmacJobComplete (j : Nat) (s : State) : exec (.cmacJobComplete j) s = runs (fun s => s.cmacDone j) s := rfl

theorem exec_cmacJobResume (j : Nat) (s : State) : exec (.cmacJobResume j) s = runs (fun s => s.cmacResume j) s := rfl

theorem exec_hmacVerify (n : Nat) (ok : Bool) (s : State) : exec (.hmacVerify ⟨n, ok⟩) s = runs (fun s => s.hmacVerify n ok) s := rfl

theorem exec_authVerdict (n : Nat) (s : State) : exec (.authVerdict n) s = runs (fun s => s.verdict n) s := rfl

/-- Settles O25: each clause is one case of a job's end, of a context that is freed, of an HMAC frame or of a verdict at the tail. -/
theorem verdictsReachTheirFrames : Obligations.VerdictsReachTheirFrames := by
  unfold Obligations.VerdictsReachTheirFrames
  simp only [exec_cmacJobComplete, exec_cmacJobResume, exec_hmacVerify, exec_authVerdict]
  refine ⟨?complete, ?leave, fun s j c v hj hst hroom hnext => ⟨runs_to (State.cmacResume_turn hj hst hroom hnext) rfl rfl, State.startCmac_rounds⟩,
    fun s n ok hlive hhmac hended hup hgen hbuf => runs_keeping (State.hmacVerify_pastGeneration hlive hhmac hended hup hbuf hgen), ?verify,
    fun s n ok h => runs_to (State.hmacVerify_waits h) rfl rfl,
    fun s t n c hlive hended hgood hjudged hhmac hbench hcmac =>
      ⟨fun hpending hcheck => runs_keeping (State.verdict_passes hlive hended hgood hjudged hhmac hbench hcmac hpending hcheck),
        fun hpending hcheck hc => runs_keeping (State.verdict_failsCheck hlive hended hgood hjudged hhmac hbench hcmac hpending hcheck hc),
        fun hfail => runs_keeping (State.verdict_failed hlive hended hgood hjudged hhmac hbench hcmac hfail)⟩,
    State.passFrame_judged, fun s n h => runs_to (State.verdict_leaves h) rfl rfl⟩
  case complete =>
    rintro s j n pipe c _ hj hst hwork rfl hlive hcmac
    obtain ⟨hpkt, hcfg⟩ := s.pkt_cfg_leaveCmac j c
    have hwaits : (s.leaveCmac j c).jobPacket j n = some (s.pkt.at n) :=
      (State.jobPacket_of_pkt hpkt).trans (State.jobPacket_waits hlive hcmac)
    refine ⟨fun hended => runs_to (State.cmacDone_early hj hwork hlive hcmac hended) rfl rfl,
      fun hended hbench => ⟨fun hgen => runs_keeping ?_, fun hgen =>
        ⟨tagMatches (s.bankOf (s.pkt.at n).gen) (s.pkt.at n).assoc (s.pkt.at n).pn (.cmac c.rounds) (s.pkt.at n), runs_keeping ?_⟩⟩⟩
    · rw [State.cmacDone_frame hj hst hwork hlive hcmac hended, hgen, beq_self_eq_true, if_pos rfl,
        State.frameJudged_unbenched hwaits hbench, State.bankOf_of_cfg _ hcfg]
      rfl
    · rw [State.cmacDone_frame hj hst hwork hlive hcmac hended, beq_eq_false_iff_ne.2 hgen, if_neg Bool.false_ne_true,
        State.frameJudged_unbenched ((State.jobPacket_of_pkt (by simp)).trans hwaits) hbench, State.bankOf_of_cfg (s := s) _ (by simp [hcfg])]
      rfl
  case leave =>
    rintro s u j c hu
    have hleave : s.leaveCmac j c = u.feedCmac := by rw [hu, State.leaveCmac, State.jobUnref, State.setJob]
    exact ⟨fun h => hleave.trans (State.feedCmac_none h), fun m v hroom hnext => hleave.trans (State.feedCmac_next hroom hnext)⟩
  case verify =>
    rintro s u n ok key _ rfl hlive hhmac hended hup hgen hbuf
    exact ⟨fun hkey => runs_keeping (State.hmacVerify_noKey hlive hhmac hended hup hbuf hgen hkey), fun v w hkey huse hv htag =>
      ⟨fun hmatch => runs_keeping (State.hmacVerify_mismatch hlive hhmac hended hup hbuf hgen hkey huse hv htag hmatch),
        fun hmatch hreplay hw => runs_keeping (State.hmacVerify_passes hlive hhmac hended hup hbuf hgen hkey huse htag hmatch hreplay hw)⟩⟩

end Sys2Proof.Machine
end

section
/-! SUPPORT. The replies of the TIME, PORT, GATE and SCHED commands, check by check (R37, R72, R75, R228 to R234, R428, R446). -/
namespace Sys2Proof.Machine

/-- The instance that a command comes from owns a port: the operator owns every one. -/
theorem owns_iff {i o : Nat} : owns i o = true ↔ i = 0 ∨ i = o := by simp [owns]

theorem State.portCheck_eq (s : State) (i p : Nat) :
    s.portCheck i p = if 512 ≤ p then E.range else if i = 0 ∨ i = s.portInst p then 0 else E.notOwner := by
  simp only [State.portCheck, owns_iff]

/-! ### TIME.SET_SECONDS -/

theorem timeSetSeconds_source {s : State} {i : Nat} {a : Accepted} (h : s.par P.timeSource ≠ 1) :
    s.timeSetSeconds i a = .refuse E.state := if_pos h

theorem timeSetSeconds_done {s : State} {i : Nat} {a : Accepted} (h : s.par P.timeSource = 1) :
    s.timeSetSeconds i a = .ok { s with time := { s.time with setSeconds := some (leAt a.payload 0 6) } } := if_neg (not_not_intro h)

/-! ### PORT.STATUS, PORT.PTP_TS_READ -/

section port
variable {s : State} {i p : Nat} {a : Accepted} (hp : p = leAt a.payload 0 2)
include hp

theorem portStatus_refused (h : s.portCheck i p ≠ 0) : s.portStatus i a = .refuse (s.portCheck i p) := by subst hp; exact if_pos h

theorem portStatus_done (h : s.portCheck i p = 0) : s.portStatus i a = .ok s
    (leBytes 1 (s.prt p).link.code ++ leBytes 1 (b2n (s.prt p).hold.isSome) ++ leBytes 1 (b2n (s.portRamp p)) ++ leBytes 1 (b2n (s.prt p).verified)
      ++ leBytes 1 (s.prt p).locks ++ leBytes 3 0 ++ leBytes 8 (s.prt p).fecCorrected.toNat ++ leBytes 8 (s.prt p).fecUncorrectable.toNat
      ++ leBytes 4 (s.prt p).flaps.toNat) := by subst hp; exact if_neg (not_not_intro h)

variable {n : Nat} (hn : n = leAt a.payload 2 1) (hmine : s.portCheck i p = 0)
include hn hmine

theorem ptpRead_badCount (h : n < 1 ∨ 64 < n) : s.ptpRead i a = .refuse E.range := by
  subst hp hn
  exact (if_neg (not_not_intro hmine)).trans (if_pos h)

theorem ptpRead_done (h1 : 1 ≤ n) (h64 : n ≤ 64) : s.ptpRead i a = .ok (s.updPort p (fun x => { x with ptp := x.ptp.drop n }))
    (leBytes 1 (min n (s.prt p).ptp.length) ++ (leBytes 7 0 ++ ((s.prt p).ptp.take n).flatMap
      (fun (q, m, d, sec, ns) => leBytes 2 q ++ leBytes 1 m ++ leBytes 1 d ++ leBytes 4 ns ++ leBytes 6 sec ++ leBytes 2 0))) := by
  subst hp hn
  rw [← List.length_take, ← List.append_assoc]
  exact (if_neg (not_not_intro hmine)).trans (if_neg (by omega))

end port

/-! ### GATE.STAGE -/

section gateStage
variable {s : State} {i p : Nat} {a : Accepted} (hp : p = leAt a.payload 0 2)

theorem gateStage_range (h : gateStageOk a.payload = false) : s.gateStage i a = .refuse E.range := by simp [State.gateStage, h]

variable (hok : gateStageOk a.payload = true)
include hp hok

theorem gateStage_notOwner (h : owns i (s.portInst p) = false) : s.gateStage i a = .refuse E.notOwner := by
  subst hp; simp [State.gateStage, hok, h]

variable (hmine : owns i (s.portInst p) = true)
include hmine

theorem gateStage_frozen (h : s.frozen (s.portInst p) = true) : s.gateStage i a = .refuse E.state := by
  subst hp; simp [State.gateStage, hok, hmine, h]

theorem gateStage_stages (h : s.frozen (s.portInst p) = false) : s.gateStage i a = s.stage (fun u =>
    .ok { u with cfg := { u.cfg with standby := u.cfg.standby.setGate (4 * p + leAt a.payload 2 1) a.payload } }) := by
  subst hp; simp [State.gateStage, hok, hmine, h, State.updCfg]

end gateStage

/-! ### GATE.READ -/

section gateRead
variable {s : State} {i p k : Nat} {a : Accepted} (hp : p = leAt a.payload 0 2) (hk : k = leAt a.payload 2 1)
include hp hk

theorem gateRead_range (h : 512 ≤ p ∨ 4 ≤ k ∨ 1 < leAt a.payload 3 1) : s.gateRead i a = .refuse E.range := by
  subst hp hk; exact if_pos h

variable (h512 : p < 512) (h4 : k < 4)
include h512 h4

theorem gateRead_notOwner (hbank : leAt a.payload 3 1 ≤ 1) (h : owns i (s.portInst p) = false) : s.gateRead i a = .refuse E.notOwner := by
  subst hp hk
  exact (if_neg (by omega)).trans (if_pos (by simp [h]))

theorem gateRead_done {b : Bank} (hmine : owns i (s.portInst p) = true)
    (hbank : leAt a.payload 3 1 = 0 ∧ b = s.cfg.active ∨ leAt a.payload 3 1 = 1 ∧ b = s.cfg.standby) : s.gateRead i a = .ok s
      (leBytes 2 p ++ leBytes 1 k ++ leBytes 1 (b.getN P.strictStart (4 * p + k)) ++ leBytes 2 (b.getN P.glLen (4 * p + k)) ++ leBytes 2 0
        ++ leBytes 10 (b.getN P.glBaseTime (4 * p + k)) ++ leBytes 2 0 ++ leBytes 4 (b.getN P.glCycle (4 * p + k)) ++ (b.gateEntries p k).flatMap (leBytes 12)
        ++ (if leAt a.payload 3 1 = 0 then operBytes (s.gateProfile p k) else leBytes 12 0)) := by
  subst hp hk
  have hb : b = if leAt a.payload 3 1 = 0 then s.cfg.active else s.cfg.standby := by
    rcases hbank with ⟨h, rfl⟩ | ⟨h, rfl⟩ <;> simp [h]
  rw [hb]
  exact (if_neg (by omega)).trans (if_neg (by simp [hmine]))

end gateRead

/-! ### SCHED.PROFILE_SELECT -/

section profileSelect
variable {s : State} {i k lap : Nat} {a : Accepted} {l : List Nat} (hk : k = leAt a.payload 1 1) (hl : l = onesOf 512 (leAt a.payload 8 64))

theorem profileSelect_badLap (h : s.atLap (leAt a.payload 0 1) (leAt a.payload 4 4) = none) : s.profileSelect i a = .refuse E.format := by
  simp only [State.profileSelect, h]

variable (hlap : s.atLap (leAt a.payload 0 1) (leAt a.payload 4 4) = some lap)
include hk hl hlap

/-- With a lap in the right form, what is left to check is the profile and the ports. -/
theorem profileSelect_lap : s.profileSelect i a =
    if 4 ≤ k then .refuse E.range
    else if !l.all (fun p => owns i (s.portInst p)) then .refuse E.notOwner
    else if l.any (fun p => s.frozen (s.portInst p)) then .refuse E.state
    else .ok { s with sched := { s.sched with host := s.sched.host ++ [(lap, k, l)] } } (leBytes 4 lap) := by
  simp only [State.profileSelect, hlap, ← hk, ← hl]

theorem profileSelect_range (h : 4 ≤ k) : s.profileSelect i a = .refuse E.range := by
  rw [profileSelect_lap hk hl hlap, if_pos h]

variable (h4 : k < 4)
include h4

theorem profileSelect_notOwner (h : ∃ p ∈ l, owns i (s.portInst p) = false) : s.profileSelect i a = .refuse E.notOwner := by
  obtain ⟨p, hp, hother⟩ := h
  rw [profileSelect_lap hk hl hlap, if_neg (Nat.not_le.2 h4), if_pos]
  rw [Bool.not_eq_true', List.all_eq_false]
  exact ⟨p, hp, by simp [hother]⟩

variable (hmine : ∀ p ∈ l, owns i (s.portInst p) = true)
include hmine

theorem profileSelect_frozen (h : ∃ p ∈ l, s.frozen (s.portInst p) = true) : s.profileSelect i a = .refuse E.state := by
  rw [profileSelect_lap hk hl hlap, if_neg (Nat.not_le.2 h4), if_neg (by simpa using hmine), if_pos (List.any_eq_true.2 h)]

theorem profileSelect_done (h : ∀ p ∈ l, s.frozen (s.portInst p) = false) :
    s.profileSelect i a = .ok { s with sched := { s.sched with host := s.sched.host ++ [(lap, k, l)] } } (leBytes 4 lap) := by
  rw [profileSelect_lap hk hl hlap, if_neg (Nat.not_le.2 h4), if_neg (by simpa using hmine), if_neg (by simpa using h)]

end profileSelect

/-! ### The rows of the commands serve their commands -/

theorem exec_timeSetSeconds (slot : Nat) (s : State) :
    exec (.timeSetSeconds slot) s = runsTime (serve slot Op.timeSetSeconds State.timeSetSeconds) s := rfl

theorem exec_timeRead (slot : Nat) (s : State) : exec (.timeRead slot) s = runs (serve slot Op.timeRead State.timeRead) s := rfl

theorem exec_portStatus (slot : Nat) (s : State) : exec (.portStatus slot) s = runs (serve slot Op.portStatus State.portStatus) s := rfl

theorem exec_portPtpTsRead (slot : Nat) (s : State) : exec (.portPtpTsRead slot) s = runs (serve slot Op.portPtpTsRead State.ptpRead) s := rfl

theorem exec_gateStage (slot : Nat) (s : State) : exec (.gateStage slot) s = runs (serve slot Op.gateStage State.gateStage) s := rfl

theorem exec_gateRead (slot : Nat) (s : State) : exec (.gateRead slot) s = runs (serve slot Op.gateRead State.gateRead) s := rfl

theorem exec_schedProfileSelect (slot : Nat) (s : State) :
    exec (.schedProfileSelect slot) s = runs (serve slot Op.schedProfileSelect State.profileSelect) s := rfl

/-- Settles O47: each clause is one reply of its command, carried out by the row that serves it. -/
theorem timeAndGateCommands : Obligations.TimeAndGateCommands := by
  unfold Obligations.TimeAndGateCommands
  simp only [exec_timeSetSeconds, exec_timeRead, exec_portStatus, exec_portPtpTsRead, exec_gateStage, exec_gateRead, exec_schedProfileSelect]
  refine ⟨?seconds, fun s slot a hg => runs_answers hg rfl, State.portCheck_eq, ?status, ?ptp, ?stage, ?range, ?read, ?select⟩
  case seconds =>
    refine fun s slot a hg => ⟨fun h => runsTime_to ?_ (by simp), fun h => runsTime_to ?_ (by simp [State.answers])⟩
    · rw [serve_grants hg, timeSetSeconds_source h]; rfl
    · rw [serve_grants hg, timeSetSeconds_done h]; rfl
  case status =>
    exact fun s slot p a hg hp => ⟨fun h => runs_refuses hg (portStatus_refused hp h), fun h => runs_answers hg (portStatus_done hp h)⟩
  case ptp =>
    exact fun s slot p n a hg hp hn hmine => ⟨fun h1 h64 => runs_answers hg (ptpRead_done hp hn hmine h1 h64),
      fun h => runs_refuses hg (ptpRead_badCount hp hn hmine h)⟩
  case stage =>
    refine fun s u slot p a hg hp => ⟨fun h => runs_refuses hg (gateStage_range h),
      fun hok => ⟨fun h => runs_refuses hg (gateStage_notOwner hp hok h), fun hmine =>
        ⟨fun h => runs_refuses hg (gateStage_frozen hp hok hmine h), fun h => ⟨fun hopen => ?_, fun hbusy => ?_⟩⟩⟩⟩
    · exact runs_answers hg ((gateStage_stages hp hok hmine h).trans (State.stage_open hopen))
    · exact runs_refusesWith hg ((gateStage_stages hp hok hmine h).trans (State.stage_busy hbusy))
  case range =>
    exact fun s slot p k a hg hp hk => ⟨fun h => runs_refuses hg (gateRead_range hp hk h),
      fun h512 h4 hbank h => runs_refuses hg (gateRead_notOwner hp hk h512 h4 hbank h)⟩
  case read =>
    exact fun s slot p k a b hg hp hk h512 h4 hmine hbank => runs_answers hg (gateRead_done hp hk h512 h4 hmine hbank)
  case select =>
    exact fun s slot k lap a l hg hk hl => ⟨fun h => runs_refuses hg (profileSelect_badLap h), fun hlap =>
      ⟨fun h => runs_refuses hg (profileSelect_range hk hl hlap h), fun h4 h => runs_refuses hg (profileSelect_notOwner hk hl hlap h4 h),
        fun h4 hmine h => runs_refuses hg (profileSelect_frozen hk hl hlap h4 hmine h),
        fun h4 h => runs_answers hg (profileSelect_done hk hl hlap h4 (fun p hp => (h p hp).1) (fun p hp => (h p hp).2))⟩⟩

end Sys2Proof.Machine
end

section
/-! SUPPORT. Commit, confirmation, rollback and the fences (R46, R413, R433 to R440; log entries 92, 105, 126). -/
namespace Sys2Proof.Machine

/-! ### The lap that a command names -/

theorem State.atLap_now (s : State) : s.atLap 0 0 = some ((s.lap + 1) % 2 ^ 32) := rfl

theorem State.atLap_named {s : State} {l : Nat} (h : later 32 l s.lap = true) : s.atLap 1 l = some l := by simp [State.atLap, h]

theorem State.atLap_passed {s : State} {l : Nat} (h : later 32 l s.lap = false) : s.atLap 1 l = some ((s.lap + 1) % 2 ^ 32) := by
  simp [State.atLap, h]

theorem State.atLap_badForm {s : State} {n l : Nat} (h : 2 ≤ n) : s.atLap n l = none :=
  (if_neg (by omega)).trans (if_neg (by omega))

/-! ### CFG.COMMIT -/

section cfgCommit
variable {s : State} {i confirm l : Nat} {a : Accepted}

theorem cfgCommit_badLap (h : s.atLap (leAt a.payload 0 1) (leAt a.payload 4 4) = none) : s.cfgCommit i a = .refuse E.format := by
  simp [State.cfgCommit, h]

variable (hconfirm : confirm = leAt a.payload 2 2) (hlap : s.atLap (leAt a.payload 0 1) (leAt a.payload 4 4) = some l)
include hconfirm hlap

theorem cfgCommit_range (h : 3600 < confirm ∨ (confirm ≠ 0 ∧ s.cfg.rbDisable = true)) : s.cfgCommit i a = .refuse E.range := by
  subst hconfirm
  exact (if_neg (by simp [hlap])).trans (if_pos h)

variable (hmax : confirm ≤ 3600) (hopen : confirm = 0 ∨ s.cfg.rbDisable = false)
include hmax hopen

/-- With a lap and a window in range, what is left to check is what is in progress and what is staged. -/
theorem cfgCommit_inRange : s.cfgCommit i a = if s.cfgJob || s.cfg.window.isSome then .refuse E.busy
    else if !s.staged then .refuse E.notStaged
    else .job { s with cfg := { s.cfg with st := .committing } } (.commit confirm (leAt a.payload 0 1 = 1) (leAt a.payload 4 4)) 2 := by
  have hrange : ¬(3600 < confirm ∨ (confirm ≠ 0 ∧ s.cfg.rbDisable = true)) := by
    rintro (h | ⟨hsome, hoff⟩)
    · omega
    · simp [hsome, hoff] at hopen
  subst hconfirm
  exact (if_neg (by simp [hlap])).trans (if_neg hrange)

theorem cfgCommit_busy (h : s.cfgJob = true ∨ s.cfg.window ≠ none) : s.cfgCommit i a = .refuse E.busy := by
  rw [cfgCommit_inRange hconfirm hlap hmax hopen, if_pos]
  rwa [Bool.or_eq_true, Option.isSome_iff_ne_none]

variable (hjob : s.cfgJob = false) (hwindow : s.cfg.window = none)
include hjob hwindow

theorem cfgCommit_notStaged (h : s.staged = false) : s.cfgCommit i a = .refuse E.notStaged := by
  rw [cfgCommit_inRange hconfirm hlap hmax hopen, if_neg (by simp [hjob, hwindow]), if_pos (by simp [h])]

theorem cfgCommit_begins (h : s.staged = true) : s.cfgCommit i a =
    .job { s with cfg := { s.cfg with st := .committing } } (.commit confirm (leAt a.payload 0 1 = 1) (leAt a.payload 4 4)) 2 := by
  rw [cfgCommit_inRange hconfirm hlap hmax hopen, if_neg (by simp [hjob, hwindow]), if_neg (by simp [h])]

end cfgCommit

/-! ### The steps of a commit -/

section commitStep
variable {s : State} {j : Job} {confirm lap l : Nat} {atLap : Bool} (hst : s.cfg.st = .committing)
include hst

theorem State.commitStep_aborted (h : j.abort = true) : s.commitStep j confirm atLap lap =
    State.endJob { s with cfg := { s.cfg with st := .staging, act := none } } j.session j.seq 2 E.aborted
      (leBytes 2 s.cfg.standbyGen.toNat ++ leBytes 6 0 ++ leBytes 6 0) := by
  simp [State.commitStep, State.commitEnds, State.updCfg, hst, h]

/-- A bank without a fault gives the activation its lap. -/
theorem State.commitStep_accepted (habort : j.abort = false) (hwaits : j.waits = false) (hlap : s.atLap (b2n atLap) lap = some l)
    (hbank : s.bankBroken s.cfg.standby = none) (hlate : s.cfg.active.lateList s.cfg.standby (s.lapTime l) s.lapNs = none) :
    s.commitStep j confirm atLap lap = State.stepJob
      { s with cfg := { s.cfg with act := some { lap := l, kind := 0, confirmS := confirm, session := j.session, seq := j.seq } } }
      j.session j.seq (fun j => { j with waits := true }) := by
  simp [State.commitStep, State.commitCheck, State.updCfg, hst, habort, hwaits, hlap, hbank, hlate]

end commitStep

/-! ### Order 3: the banks -/

section activation
variable {s : State} {a : Activation}

theorem State.activation_windowOver (hover : s.windowOver = true) (hup : s.pacer.down = false) : s.activation = s.rollBack 1 := by
  simp [State.activation, hover, hup]

variable (hact : s.cfg.act = some a) (hwindow : s.windowOver = false)
include hact hwindow

theorem State.activation_early (h : later 32 a.lap s.lap = true) : s.activation = s := by simp [State.activation, hact, hwindow, h]

variable (habort : s.aborting a = false) (hdue : later 32 a.lap s.lap = false)
include habort hdue

theorem State.activation_commit (h : a.kind = 0) : s.activation = s.commitNow a := by
  simp [State.activation, State.activate, hact, hwindow, habort, hdue, h]

theorem State.activation_rollback (hkind : a.kind ≠ 0) (h : s.cfg.st = .draining ∨ s.cfg.st = .previous) :
    s.activation = { s.noAct.rollBack 0 with cfg := { (s.noAct.rollBack 0).cfg with fenceJob := (a.session, a.seq) } } := by
  simp [State.activation, State.activate, hact, hwindow, habort, hdue, hkind, h]

end activation

/-! ### The fences -/

/-- A fence that a boundary has reached moves Standby on and ends the job with the generation and the lap. -/
theorem State.fenceOver_passes {s : State} {now next : Standby} (hst : s.cfg.st = now) (h : s.cfg.fence ≤ s.boundaryAt) :
    ∃ u l, u = State.dropKeys { s with cfg := { s.cfg with st := next } } ∧ s.fenceOver now next =
      u.endJob u.cfg.fenceJob.1 u.cfg.fenceJob.2 0 0 (leBytes 2 u.cfg.activeGen.toNat ++ leBytes 2 0 ++ leBytes 4 u.cfg.commitLap ++ l) :=
  ⟨_, _, rfl, if_pos ⟨hst, h⟩⟩

theorem State.fenceOver_early {s : State} {now next : Standby} (h : s.boundaryAt < s.cfg.fence) : s.fenceOver now next = s :=
  if_neg fun hpass => Nat.not_le.2 h hpass.2

/-! ### Windows -/

section window
variable {s : State} {w i : Nat} {a : Accepted} (hw : s.cfg.window = some w)
include hw

theorem State.confirmEnds_over (h : w ≤ s.time.mono) : s.confirmEnds = { s with cfg := { s.cfg with expired := true } } := by
  simp [State.confirmEnds, State.windowOver, hw, h]

theorem State.confirmEnds_early (h : s.time.mono < w) (hexpired : s.cfg.expired = false) : s.confirmEnds = s := by
  simp [State.confirmEnds, State.windowOver, hw, Nat.not_le.2 h, hexpired]

theorem cfgConfirm_done (hgen : leAt a.payload 0 2 = s.cfg.activeGen.toNat) (h : a.at_ < w) : s.cfgConfirm i a = .ok s.confirmed := by
  simp [State.cfgConfirm, hw, hgen, h]

theorem cfgConfirm_refused (h : leAt a.payload 0 2 ≠ s.cfg.activeGen.toNat ∨ w ≤ a.at_) : s.cfgConfirm i a = .refuse E.noRollback := by
  rcases h with h | h
  · simp [State.cfgConfirm, hw, h]
  · simp [State.cfgConfirm, hw, Nat.not_lt.2 h]

end window

theorem State.confirmed_eq (s : State) : s.confirmed = { s with cfg := { s.cfg with
    window := none, expired := false
    lgDue := (if s.cfg.activeGen = s.cfg.lastGood ∧ s.cfg.writing = none then s.cfg.lgDue else some true) } } := by
  simp only [State.confirmed, Option.isSome_eq_false_iff, Option.isNone_iff_eq_none]

/-! ### CFG.ROLLBACK, CFG.ROLLBACK_DISABLE, CFG.STATUS -/

section cfgRollback
variable {s : State} {i l : Nat} {a : Accepted} (hlap : s.atLap (leAt a.payload 0 1) (leAt a.payload 4 4) = some l)
include hlap

theorem cfgRollback_refused (h : (s.cfg.st ≠ .draining ∧ s.cfg.st ≠ .previous) ∨ s.cfg.rbDisable = true) :
    s.cfgRollback i a = .refuse E.noRollback := by
  rcases h with ⟨hdraining, hprevious⟩ | h
  · simp [State.cfgRollback, hlap, hdraining, hprevious]
  · simp [State.cfgRollback, hlap, h]

variable (hst : s.cfg.st = .draining ∨ s.cfg.st = .previous) (hallowed : s.cfg.rbDisable = false)
include hst hallowed

theorem cfgRollback_busy (h : s.cfgJob = true) : s.cfgRollback i a = .refuse E.busy := by
  rcases hst with hst | hst <;> simp [State.cfgRollback, hlap, hst, hallowed, h]

theorem cfgRollback_begins (h : s.cfgJob = false) : s.cfgRollback i a =
    .job { s with cfg := { s.cfg with act := some { lap := l, kind := 1, session := a.session, seq := a.seq } } } .rollback 1 := by
  rcases hst with hst | hst <;> simp [State.cfgRollback, State.updCfg, hlap, hst, hallowed, h]

end cfgRollback

section rollbackDisable
variable {s : State} {i v : Nat} {a : Accepted} (hv : v = leAt a.payload 0 1)
include hv

theorem cfgRollbackDisable_done (h : v = 0 ∨ (v = 1 ∧ s.cfg.window = none)) : s.cfgRollbackDisable i a =
    .ok { s with cfg := { s.cfg with rbDisable := v == 1, lgDue := some (s.cfg.lgDue == some true) } } := by
  subst hv
  have hvalue : ¬1 < leAt a.payload 0 1 := by omega
  have hwindow : ¬(leAt a.payload 0 1 = 1 ∧ s.cfg.window.isSome) := by
    rintro ⟨hone, hsome⟩
    rcases h with h | ⟨-, h⟩
    · omega
    · simp [h] at hsome
  exact (if_neg hvalue).trans (if_neg hwindow)

theorem cfgRollbackDisable_window (hone : v = 1) (h : s.cfg.window ≠ none) : s.cfgRollbackDisable i a = .refuse E.busy := by
  subst hv
  exact (if_neg (by omega)).trans (if_pos ⟨hone, Option.isSome_iff_ne_none.2 h⟩)

end rollbackDisable

/-! ### The rows -/

theorem exec_cfgCommit (slot : Nat) (s : State) : exec (.cfgCommit slot) s = runs (serve slot Op.cfgCommit State.cfgCommit) s := rfl

theorem exec_cfgConfirm (slot : Nat) (s : State) : exec (.cfgConfirm slot) s = runs (serve slot Op.cfgConfirm State.cfgConfirm) s := rfl

theorem exec_cfgRollback (slot : Nat) (s : State) : exec (.cfgRollback slot) s = runs (serve slot Op.cfgRollback State.cfgRollback) s := rfl

theorem exec_cfgRollbackDisable (slot : Nat) (s : State) :
    exec (.cfgRollbackDisable slot) s = runs (serve slot Op.cfgRollbackDisable State.cfgRollbackDisable) s := rfl

theorem exec_cfgStatus (slot : Nat) (s : State) : exec (.cfgStatus slot) s = runs (serve slot Op.cfgStatus State.cfgStatus) s := rfl

theorem exec_commitFencePass (s : State) : exec .commitFencePass s = runs (fun s => s.fenceOver .draining .previous) s := rfl

theorem exec_rollbackFencePass (s : State) : exec .rollbackFencePass s = runs (fun s => s.fenceOver .retiring .retired) s := rfl

theorem exec_confirmWindowExpire (s : State) : exec .confirmWindowExpire s = runs State.confirmEnds s := rfl

/-- Settles O46: each clause is one reply of its command, one step of its job, or one case of the boundary, a fence or a window (that a
rollback's job has one step, and the order of the checks, are log entries 92 and 105). -/
theorem configurationIsActivated : Obligations.ConfigurationIsActivated := by
  unfold Obligations.ConfigurationIsActivated
  simp only [exec_cfgCommit, exec_cfgConfirm, exec_cfgRollback, exec_cfgRollbackDisable, exec_cfgStatus, exec_commitFencePass,
    exec_rollbackFencePass, exec_confirmWindowExpire]
  refine ⟨?commit, ?lap, fun s j confirm lap l atLap hst habort hwaits => State.commitStep_accepted hst habort hwaits,
    fun s j confirm lap atLap => State.commitStep_aborted, ?activation, fun s => State.activation_windowOver, fun s st => rfl, ?fence, ?window,
    State.confirmed_eq, ?rollback, ?disable, fun s slot a hg hwindow => runs_answers hg (by rw [State.cfgStatus, hwindow])⟩
  case commit =>
    exact fun s slot confirm l a hg hconfirm => ⟨fun h => runs_refuses hg (cfgCommit_badLap h), fun hlap =>
      ⟨fun h => runs_refuses hg (cfgCommit_range hconfirm hlap h), fun hmax hopen =>
        ⟨fun h => runs_refuses hg (cfgCommit_busy hconfirm hlap hmax hopen h), fun hjob hwindow =>
          ⟨fun h => runs_refuses hg (cfgCommit_notStaged hconfirm hlap hmax hopen hjob hwindow h),
            fun h h32 => runs_begins hg h32 (cfgCommit_begins hconfirm hlap hmax hopen hjob hwindow h)⟩⟩⟩⟩
  case lap =>
    refine fun s n l => ⟨?_, ?_, ?_, State.atLap_badForm⟩
    · rintro rfl; exact s.atLap_now
    · rintro rfl h; exact State.atLap_named h
    · rintro rfl h; exact State.atLap_passed h
  case activation =>
    exact fun s a hact hwindow habort => ⟨State.activation_early hact hwindow,
      fun hdue h => State.activation_commit hact hwindow habort hdue h, fun hdue hkind h => State.activation_rollback hact hwindow habort hdue hkind h⟩
  case fence =>
    refine fun s => ⟨fun hst h => ?_, fun hst h => ?_,
      fun h => ⟨runs_to (State.fenceOver_early h) rfl rfl, runs_to (State.fenceOver_early h) rfl rfl⟩⟩
    · obtain ⟨u, l, hu, hpass⟩ := State.fenceOver_passes (next := .previous) hst h
      exact ⟨u, l, hu, runs_keeping hpass⟩
    · obtain ⟨u, l, hu, hpass⟩ := State.fenceOver_passes (next := .retired) hst h
      exact ⟨u, l, hu, runs_keeping hpass⟩
  case window =>
    exact fun s w hw => ⟨fun h => runs_to (State.confirmEnds_over hw h) rfl rfl,
      fun h hexpired => runs_to (State.confirmEnds_early hw h hexpired) rfl rfl,
      fun slot a hg => ⟨fun hgen h => runs_answers hg (cfgConfirm_done hw hgen h), fun h => runs_refuses hg (cfgConfirm_refused hw h)⟩⟩
  case rollback =>
    exact fun s slot l a hg hlap => ⟨fun h => runs_refuses hg (cfgRollback_refused hlap h), fun hst hallowed =>
      ⟨fun h => runs_refuses hg (cfgRollback_busy hlap hst hallowed h),
        fun h h32 => runs_begins hg h32 (cfgRollback_begins hlap hst hallowed h)⟩⟩
  case disable =>
    exact fun s slot v a hg hv => ⟨fun h => runs_answers hg (cfgRollbackDisable_done hv h),
      fun hone h => runs_refuses hg (cfgRollbackDisable_window hv hone h)⟩

end Sys2Proof.Machine
end

section
/-! SUPPORT. The places of exact-match entries, the batches that write and clear them, and the TBL commands (R33, R34, R113 to R126, R422,
R423, R446). -/
namespace Sys2Proof.Machine

/-! ### Places of an entry -/

section place
variable {s : State} {b : Bank} {t : Nat} {e : Entry} {c : Nat × Nat}

theorem State.placeFront_bucket (hsegments : b.getN P.ftSegments t ≠ 0)
    (h : s.freeCell (bucketCells 0 (frontBase t) (b.front1 t e.key)
      ++ (if b.on P.ftForm t then bucketCells 0 (frontBase t) (b.front2 t e.key) else [])) = some c) :
    s.placeFront b t e = (s.setEntry c e, true) := by
  simp only [State.placeFront, State.placeFrontOnce, if_neg hsegments, h, Placed.done]

/-- Where no bucket of the table's own is left to try, a key goes to its overflow bucket. -/
theorem State.placeFrontOnce_overflow
    (h : b.getN P.ftSegments t = 0 ∨ b.on P.ftForm t = false ∧ s.freeCell (bucketCells 0 (frontBase t) (b.front1 t e.key)) = none) :
    s.placeFrontOnce b t e = s.placeOverflow b e := by
  by_cases h0 : b.getN P.ftSegments t = 0
  · exact if_pos h0
  · obtain ⟨hform, hnone⟩ := h.resolve_left h0
    simp [State.placeFrontOnce, h0, hform, hnone]

theorem State.placeFront_overflow
    (h : b.getN P.ftSegments t = 0 ∨ b.on P.ftForm t = false ∧ s.freeCell (bucketCells 0 (frontBase t) (b.front1 t e.key)) = none)
    (hfree : s.freeCell (bucketCells 1 0 (b.front3 e.key)) = some c) : s.placeFront b t e = (s.setEntry c e, true) := by
  simp only [State.placeFront, State.placeFrontOnce_overflow h, State.placeOverflow, hfree, Placed.done]

theorem State.placeFront_full
    (h : b.getN P.ftSegments t = 0 ∨ b.on P.ftForm t = false ∧ s.freeCell (bucketCells 0 (frontBase t) (b.front1 t e.key)) = none)
    (hfree : s.freeCell (bucketCells 1 0 (b.front3 e.key)) = none) : s.placeFront b t e = (s, false) := by
  simp only [State.placeFront, State.placeFrontOnce_overflow h, State.placeOverflow, hfree, Placed.done]

theorem State.placeStation_bucket (h : s.freeCell (bucketCells 2 0 (b.station1 e.key)) = some c) :
    s.placeStation b e = some (s.setEntry c e) := by
  simp only [State.placeStation, h]

end place

/-! ### One entry of TBL.INSERT or TBL.DELETE -/

section newKey
variable {s : State} {i : Nat} {e : TblEntry} (hnew : s.findKey s.cfg.active e.table e.key = none)
include hnew

theorem State.tblPlace_front {u : State} {ok : Bool} (hstation : e.station = false)
    (h : s.placeFront s.cfg.active e.table { valid := true, key := e.key, result := e.result, host := true } = (u, ok)) :
    s.tblPlace i e = (u, if ok then 0 else E.tableFull) := by
  cases ok <;> simp [State.tblPlace, hnew, hstation, h]

variable (hstation : e.station = true)
include hstation

theorem State.tblPlace_stationMax (h : s.par P.instStationMax (R.inst.get e.result) ≤ s.stationCount (R.inst.get e.result)) :
    s.tblPlace i e = (s, E.tableFull) := by
  simp [State.tblPlace, hnew, hstation, h]

variable (hmax : s.stationCount (R.inst.get e.result) < s.par P.instStationMax (R.inst.get e.result))
include hmax

theorem State.tblPlace_station {u : State}
    (h : s.placeStation s.cfg.active { valid := true, key := stationKey e.key, result := e.result, host := true } = some u) :
    s.tblPlace i e = (u, 0) := by
  simp [State.tblPlace, hnew, hstation, Nat.not_le.2 hmax, h]

theorem State.tblPlace_stationFull
    (h : s.placeStation s.cfg.active { valid := true, key := stationKey e.key, result := e.result, host := true } = none) :
    s.tblPlace i e = (s, E.tableFull) := by
  simp [State.tblPlace, hnew, hstation, Nat.not_le.2 hmax, h]

end newKey

section heldKey
variable {s : State} {i : Nat} {e : TblEntry} {c : Nat × Nat} (hheld : s.findKey s.cfg.active e.table e.key = some c)
include hheld

theorem State.tblPlace_duplicate (h : e.replace = false) : s.tblPlace i e = (s, E.duplicate) := by
  simp [State.tblPlace, hheld, h]

theorem State.tblPlace_notOwner (hreplace : e.replace = true) (h : owns i (R.inst.get (s.entry c).result) = false) :
    s.tblPlace i e = (s, E.notOwner) := by
  simp [State.tblPlace, hheld, hreplace, h]

theorem State.tblPlace_replaces (hreplace : e.replace = true) (hmine : owns i (R.inst.get (s.entry c).result) = true) (hfront : c.1 < 2) :
    s.tblPlace i e = (s.setEntry c { (s.entry c) with result := e.result, hit := false, host := true }, 0) := by
  simp [State.tblPlace, hheld, hreplace, hmine, Nat.not_le.2 hfront]

end heldKey

section insertOne
variable {s : State} {i o : Nat} {x : List Byte} {e : TblEntry} (he : e = tblEntry x)
include he

theorem State.tblInsertOne_range (h : 16 ≤ e.table ∨ e.key / 2 ^ 124 ≠ e.table ∨ resultOk e.result = false) :
    s.tblInsertOne i x = (s, E.range) := by
  subst he; exact if_pos h

variable (htable : e.table < 16) (hkey : e.key / 2 ^ 124 = e.table) (hresult : resultOk e.result = true)
include htable hkey hresult

theorem State.tblInsertOne_inRange : s.tblInsertOne i x =
    if e.station = true ∧ (s.cfg.active.stationTable e.table = false ∨ e.key % 2 ^ 64 ≠ 0 ∨ R.pinned.get e.result = 1) then (s, E.range)
    else if i ≠ 0 ∧ R.inst.get e.result ≠ i then (s, E.notOwner)
    else if s.refCheck (R.inst.get e.result) (resultRefs e.result) ≠ 0 then (s, s.refCheck (R.inst.get e.result) (resultRefs e.result))
    else s.tblPlace i e := by
  subst he
  refine (if_neg (by simp [-Nat.reducePow, hkey, hresult, htable])).trans (if_congr ?_ rfl rfl)
  simp [or_assoc]

theorem State.tblInsertOne_noStation (hstation : e.station = true)
    (h : s.cfg.active.stationTable e.table = false ∨ e.key % 2 ^ 64 ≠ 0 ∨ R.pinned.get e.result = 1) :
    s.tblInsertOne i x = (s, E.range) := by
  rw [State.tblInsertOne_inRange he htable hkey hresult, if_pos ⟨hstation, h⟩]

variable (ho : o = R.inst.get e.result)
    (hplace : e.station = false ∨ (s.cfg.active.stationTable e.table = true ∧ e.key % 2 ^ 64 = 0 ∧ R.pinned.get e.result ≠ 1))
include ho hplace

theorem State.tblInsertOne_placed : s.tblInsertOne i x =
    if i ≠ 0 ∧ o ≠ i then (s, E.notOwner)
    else if s.refCheck o (resultRefs e.result) ≠ 0 then (s, s.refCheck o (resultRefs e.result)) else s.tblPlace i e := by
  rw [State.tblInsertOne_inRange he htable hkey hresult, ← ho, if_neg]
  rintro ⟨hstation, hbad⟩
  obtain hnot | ⟨hback, hhalf, hpin⟩ := hplace
  · simp [hnot] at hstation
  · simp [-Nat.reducePow, hback, hhalf, hpin] at hbad

end insertOne

section deleteOne
variable {s : State} {i : Nat} {e : List Byte} (htable : leAt e 0 1 < 16) (hkey : keyAt e / 2 ^ 124 = leAt e 0 1)
include htable hkey

theorem State.tblDeleteOne_notFound (h : s.findKey s.cfg.active (leAt e 0 1) (keyAt e) = none) :
    s.tblDeleteOne i e = (s, E.notFound) := by
  simp [-Nat.reducePow, State.tblDeleteOne, Nat.not_le.2 htable, hkey, h]

theorem State.tblDeleteOne_clears {c : Nat × Nat} (h : s.findKey s.cfg.active (leAt e 0 1) (keyAt e) = some c)
    (hmine : owns i (R.inst.get (s.entry c).result) = true) : s.tblDeleteOne i e = (s.setEntry c {}, 0) := by
  simp [-Nat.reducePow, State.tblDeleteOne, Nat.not_le.2 htable, hkey, h, hmine]

end deleteOne

/-! ### Batches of entries -/

/-- Writes or clears one entry, as the opcode of its batch says: the state and a status. -/
def State.tblOne (s : State) (op i : Nat) (e : List Byte) : State × Nat :=
  if op = Op.tblInsert then s.tblInsertOne i e else s.tblDeleteOne i e

theorem runTbl_stops {op i pos done : Nat} {s : State} {e : List Byte} {l : List (List Byte)} {failed : List (Nat × Nat)}
    (h : s.batchBudget ≤ s.mbx.batchUsed) : runTbl op i s (e :: l) pos done failed = (s, e :: l, pos, done, failed) := by
  rw [runTbl, if_pos h]

theorem runTbl_one {op i pos done : Nat} {s u : State} {e : List Byte} {l : List (List Byte)} {failed : List (Nat × Nat)} {r : State × Nat}
    (hr : r = s.tblOne op i e) (hu : u = { r.1 with mbx := { r.1.mbx with batchUsed := r.1.mbx.batchUsed + 1 } })
    (h : s.mbx.batchUsed < s.batchBudget) : runTbl op i s (e :: l) pos done failed =
      if r.2 = 0 then runTbl op i u l (pos + 1) (done + 1) failed else runTbl op i u l (pos + 1) done (failed ++ [(pos, r.2)]) := by
  subst hu hr
  rw [runTbl, if_neg (Nat.not_le.2 h)]
  rfl

section batch
variable {s t : State} {i op n pos done : Nat} {a : Accepted} {rest : List (List Byte)} {failed : List (Nat × Nat)}
  (hrun : runTbl op i s (batchEntries n a.payload) 0 0 [] = (t, rest, pos, done, failed))
include hrun

theorem State.tblBatch_ends (h : rest = []) : s.tblBatch i op n a = .done t (batchStatus failed) (batchResult done failed) [] := by
  subst h; rw [State.tblBatch, hrun]

theorem State.tblBatch_waits (h : rest ≠ []) :
    s.tblBatch i op n a = .maybe t (.batch op rest pos done failed []) (batchCount a.payload) := by
  obtain ⟨e, l, rfl⟩ := List.exists_cons_of_ne_nil h
  rw [State.tblBatch, hrun]

/-- A command whose reply is a batch is DONE when none of its entries is left, and a job that waits otherwise. -/
theorem runs_batch {slot : Nat} {f : State → Nat → Accepted → Reply} (hg : s.grants slot op a) (hi : i = slotInst slot)
    (hf : f s i a = s.tblBatch i op n a) :
    (rest = [] → runs (serve slot op f) s
      = .next (s.keeping (t.post slot a { rstate := 0, status := batchStatus failed, result := batchResult done failed })))
    ∧ (rest ≠ [] → s.running.length < 32 → runs (serve slot op f) s
      = .next (s.keeping (t.defers slot a (.batch op rest pos done failed []) (batchCount a.payload)))) := by
  subst hi
  exact ⟨fun h => runs_grants hg (by rw [hf, State.tblBatch_ends hrun h]; rfl),
    fun h h32 => runs_defers hg h32 (hf.trans (State.tblBatch_waits hrun h))⟩

end batch

/-! ### TBL.INSERT, TBL.DELETE -/

section insert
variable {s : State} {i : Nat} {a : Accepted} {l : List (List Byte)}

theorem tblInsert_range (h : countOk Op.tblInsert a = false) : s.tblInsert i a = .refuse E.range := by simp [State.tblInsert, h]

variable (hcount : countOk Op.tblInsert a = true) (hl : l = batchEntries 32 a.payload)
include hcount hl

theorem tblInsert_notOwner (hi : i ≠ 0)
    (h : ∃ e ∈ l, (tblEntry e).station = false ∧ (tblEntry e).table < 16 ∧ s.par P.ftOwner (tblEntry e).table ≠ i) :
    s.tblInsert i a = .refuse E.notOwner := by
  rw [State.tblInsert, if_neg (by simp [hcount]), if_pos]
  simpa [hi, ← hl, and_assoc] using h

variable (hmine : ∀ e ∈ l, i = 0 ∨ (tblEntry e).station = true ∨ 16 ≤ (tblEntry e).table ∨ s.par P.ftOwner (tblEntry e).table = i)
include hmine

theorem tblInsert_owned : s.tblInsert i a =
    if s.frozen i || l.any (fun e => s.frozen (R.inst.get (tblEntry e).result)) then .refuse E.state
    else s.tblBatch i Op.tblInsert 32 a := by
  rw [State.tblInsert, if_neg (by simp [hcount]), if_neg, ← hl]
  · simp only [List.any_map]; rfl
  · rintro ⟨h0, hany⟩
    simp only [List.any_map, ← hl, List.any_eq_true, Function.comp_apply, Bool.and_eq_true, Bool.not_eq_true', decide_eq_true_eq,
      bne_iff_ne] at hany
    obtain ⟨e, he, ⟨hstation, htable⟩, howner⟩ := hany
    obtain h | h | h | h := hmine e he
    · exact h0 h
    · simp [h] at hstation
    · omega
    · exact howner h

theorem tblInsert_frozen (h : s.frozen i = true ∨ ∃ e ∈ l, s.frozen (R.inst.get (tblEntry e).result) = true) :
    s.tblInsert i a = .refuse E.state := by
  rw [tblInsert_owned hcount hl hmine, if_pos]
  simpa using h

theorem tblInsert_runs (hfr : s.frozen i = false) (hfre : ∀ e ∈ l, s.frozen (R.inst.get (tblEntry e).result) = false) :
    s.tblInsert i a = s.tblBatch i Op.tblInsert 32 a := by
  rw [tblInsert_owned hcount hl hmine, if_neg]
  simpa [hfr] using hfre

end insert

section delete
variable {s : State} {i : Nat} {a : Accepted} {l : List (List Byte)}

theorem tblDelete_range (h : countOk Op.tblDelete a = false) : s.tblDelete i a = .refuse E.range := by simp [State.tblDelete, h]

variable (hcount : countOk Op.tblDelete a = true) (hl : l = batchEntries 24 a.payload)
include hcount hl

theorem tblDelete_notOwner (h : ∃ o ∈ s.keyOwners l, owns i o = false) : s.tblDelete i a = .refuse E.notOwner := by
  rw [State.tblDelete, if_neg (by simp [hcount]), if_pos]
  simpa [← hl] using h

variable (hmine : ∀ o ∈ s.keyOwners l, owns i o = true)
include hmine

theorem tblDelete_owned : s.tblDelete i a =
    if s.frozen i || (s.keyOwners l).any s.frozen then .refuse E.state else s.tblBatch i Op.tblDelete 24 a := by
  rw [State.tblDelete, if_neg (by simp [hcount]), if_neg, ← hl]
  simpa [← hl] using hmine

theorem tblDelete_frozen (h : s.frozen i = true ∨ ∃ o ∈ s.keyOwners l, s.frozen o = true) : s.tblDelete i a = .refuse E.state := by
  rw [tblDelete_owned hcount hl hmine, if_pos]
  simpa using h

theorem tblDelete_runs (hfr : s.frozen i = false) (hfro : ∀ o ∈ s.keyOwners l, s.frozen o = false) :
    s.tblDelete i a = s.tblBatch i Op.tblDelete 24 a := by
  rw [tblDelete_owned hcount hl hmine, if_neg]
  simpa [hfr] using hfro

end delete

/-! ### TBL.LOOKUP, TBL.DUMP -/

section lookup
variable {s : State} {i t : Nat} {a : Accepted} (ht : t = leAt a.payload 0 1) (htable : t < 16) (hkey : keyAt a.payload / 2 ^ 124 = t)
include ht htable hkey

theorem tblLookup_none (h : s.findKey s.cfg.active t (keyAt a.payload) = none) : s.tblLookup i a = .ok s (leBytes 16 0) := by
  simp [-Nat.reducePow, State.tblLookup, ← ht, Nat.not_le.2 htable, hkey, h]

theorem tblLookup_some {c : Nat × Nat} (h : s.findKey s.cfg.active t (keyAt a.payload) = some c)
    (hmine : owns i (R.inst.get (s.entry c).result) = true) :
    s.tblLookup i a = .ok s (leBytes 1 1 ++ leBytes 1 c.1 ++ leBytes 1 (b2n (s.entry c).hit) ++ leBytes 1 0
      ++ leBytes 4 (placeOf c.1 c.2) ++ leBytes 8 (s.entry c).result) := by
  simp [-Nat.reducePow, State.tblLookup, ← ht, Nat.not_le.2 htable, hkey, h, hmine]

end lookup

/-- The cursor at which a dump goes on after n entries; 0 when no entry is left. -/
def dumpNext (tier n : Nat) (l : List (Nat × Entry)) : Nat := ((l.drop n).head?.map (fun e => placeOf tier e.1)).getD 0

theorem dumpNext_end {tier n : Nat} {l : List (Nat × Entry)} (h : l.length ≤ n) : dumpNext tier n l = 0 := by
  simp [dumpNext, List.drop_of_length_le h]

theorem tblDump_done {s : State} {i tier n : Nat} {a : Accepted} {l : List (Nat × Entry)} (htier : tier = leAt a.payload 1 1)
    (hn : n = leAt a.payload 6 2) (htable : leAt a.payload 0 1 < 16) (h4 : tier < 4) (hfilter : leAt a.payload 2 1 < 4)
    (hport : leAt a.payload 4 2 < 512) (h1 : 1 ≤ n) (hmax : n ≤ 2048)
    (hl : l = s.dumpFrom i (leAt a.payload 0 1) tier (leAt a.payload 2 1) (leAt a.payload 4 2) (leAt a.payload 8 8)) :
    s.tblDump i a = .ok s (leBytes 8 (dumpNext tier n l) ++ leBytes 2 (min n l.length) ++ leBytes 6 0)
      ((l.take n).flatMap (fun e => tblBytes tier e.2)) := by
  rw [State.tblDump, ← htier, ← hn, if_neg (by omega), ← hl, dumpNext]
  cases h : (l.drop n).head? <;> simp only [h, Option.map, Option.getD]

/-! ### TBL.FLUSH -/

section flush
variable {s : State} {owner sel i p : Nat} {a : Accepted} (hsel : sel = leAt a.payload 0 1) (hi : i = leAt a.payload 1 1)
  (hp : p = leAt a.payload 2 2)
include hsel hi hp

theorem tblFlush_range (h : 8 ≤ sel ∨ (bit sel 1 = true ∧ 512 ≤ p) ∨ (bit sel 2 = true ∧ 64 ≤ i)) :
    s.tblFlush owner a = .refuse E.range := by
  subst hsel hi hp; exact if_pos h

variable (h8 : sel < 8) (hport : bit sel 1 = false ∨ p < 512) (hinst : bit sel 2 = false ∨ i < 64)
  (hportMine : bit sel 1 = false ∨ owns owner (s.portInst p) = true) (hinstMine : bit sel 2 = false ∨ owns owner i = true)
  (hfr : s.frozen owner = false) (hinstFr : bit sel 2 = false ∨ s.frozen i = false)
include h8 hport hinst hportMine hinstMine hfr hinstFr

theorem tblFlush_allowed : s.tblFlush owner a =
    if s.running.any (fun j => j.op == Op.tblFlush) then .refuse E.busy else .job s (.flush sel i p 0) 4 := by
  have hrange : ¬(8 ≤ sel ∨ (bit sel 1 = true ∧ 512 ≤ p) ∨ (bit sel 2 = true ∧ 64 ≤ i)) := by
    rintro (h | ⟨hb, h⟩ | ⟨hb, h⟩)
    · omega
    · exact absurd (hport.resolve_left (by simp [hb])) (by omega)
    · exact absurd (hinst.resolve_left (by simp [hb])) (by omega)
  rw [State.tblFlush, ← hsel, ← hi, ← hp, if_neg hrange, if_neg, if_neg]
  · rcases hinstFr with h | h <;> simp [hfr, h]
  · rcases hportMine with h | h <;> rcases hinstMine with h' | h' <;> simp [h, h']

theorem tblFlush_busy (h : ∃ j ∈ s.running, j.op = Op.tblFlush) : s.tblFlush owner a = .refuse E.busy := by
  rw [tblFlush_allowed hsel hi hp h8 hport hinst hportMine hinstMine hfr hinstFr, if_pos]
  simpa using h

theorem tblFlush_begins (h : ∀ j ∈ s.running, j.op ≠ Op.tblFlush) : s.tblFlush owner a = .job s (.flush sel i p 0) 4 := by
  rw [tblFlush_allowed hsel hi hp h8 hport hinst hportMine hinstMine hfr hinstFr, if_neg]
  simpa using h

end flush

section flushStep
variable {s : State} {j : Job} {sel i p n m : Nat} {l : List (Nat × Entry)} (hkind : j.kind = .flush sel i p n) (hgo : j.abort = false)
  (hl : l = (s.tbl.store j.done).filter (fun e => e.2.valid && Machine.flushed j.inst sel i p e.2.result)) (hm : m = n + l.length)
include hkind hgo hl hm

/-- A step of a flush clears one structure; the step of the last one ends the job. -/
theorem State.jobStep_flush : s.jobStep j =
    if 3 ≤ j.done then
      ((s.forEach l (fun s e => s.setEntry (j.done, e.1) {})).stepJob j.session j.seq (fun j => { j with kind := .flush sel i p m })).endJob
        j.session j.seq 0 0 (leBytes 4 m)
    else (s.forEach l (fun s e => s.setEntry (j.done, e.1) {})).stepJob j.session j.seq (fun j => { j with kind := .flush sel i p m }) := by
  simp only [State.jobStep, hkind, State.flushStep, hgo, Bool.false_eq_true, if_false, ← hl, ← hm]

theorem State.jobStep_flushOne (h : j.done < 3) : s.jobStep j =
    (s.forEach l (fun s e => s.setEntry (j.done, e.1) {})).stepJob j.session j.seq (fun j => { j with kind := .flush sel i p m }) := by
  rw [State.jobStep_flush hkind hgo hl hm, if_neg (by omega)]

theorem State.jobStep_flushLast (h : 3 ≤ j.done) : s.jobStep j =
    ((s.forEach l (fun s e => s.setEntry (j.done, e.1) {})).stepJob j.session j.seq (fun j => { j with kind := .flush sel i p m })).endJob
      j.session j.seq 0 0 (leBytes 4 m) := by
  rw [State.jobStep_flush hkind hgo hl hm, if_pos h]

end flushStep

theorem exec_tblInsert (slot : Nat) (s : State) : exec (.tblInsert slot) s = runs (serve slot Op.tblInsert State.tblInsert) s := rfl

theorem exec_tblDelete (slot : Nat) (s : State) : exec (.tblDelete slot) s = runs (serve slot Op.tblDelete State.tblDelete) s := rfl

theorem exec_tblLookup (slot : Nat) (s : State) : exec (.tblLookup slot) s = runs (serve slot Op.tblLookup State.tblLookup) s := rfl

theorem exec_tblDump (slot : Nat) (s : State) : exec (.tblDump slot) s = runs (serve slot Op.tblDump State.tblDump) s := rfl

theorem exec_tblFlush (slot : Nat) (s : State) : exec (.tblFlush slot) s = runs (serve slot Op.tblFlush State.tblFlush) s := rfl

/-- Settles O50: each clause is one reply of its command, one entry of a batch, or one step of a flush (the flush's 4 steps, its criteria
taken together and the cursor of TBL.DUMP are log entry 68). -/
theorem tableCommandsChangeEntries : Obligations.TableCommandsChangeEntries := by
  unfold Obligations.TableCommandsChangeEntries
  simp only [exec_tblInsert, exec_tblDelete, exec_tblLookup, exec_tblDump, exec_tblFlush]
  refine ⟨fun s slot a => ⟨fun hg h => runs_refuses hg (tblInsert_range h), fun hg h => runs_refuses hg (tblDelete_range h)⟩, ?insert, ?delete,
    ?inserts, ?deletes, fun op i pos done s e l failed r u hr hu => ⟨runTbl_stops, runTbl_one hr hu⟩, ?place, ?bucket, ?insertOne, ?held,
    fun s i e c htable hkey => ⟨State.tblDeleteOne_notFound htable hkey, State.tblDeleteOne_clears htable hkey⟩, ?lookup, ?dump, ?flush,
    fun s j sel i p n m l hkind hgo hl hm => ⟨State.jobStep_flushOne hkind hgo hl hm, State.jobStep_flushLast hkind hgo hl hm⟩⟩
  case insert =>
    exact fun s slot a l hg hcount hl => ⟨fun hi h => runs_refuses hg (tblInsert_notOwner hcount hl hi h),
      fun hmine h => runs_refuses hg (tblInsert_frozen hcount hl hmine h)⟩
  case delete =>
    exact fun s slot a l hg hcount hl => ⟨fun h => runs_refuses hg (tblDelete_notOwner hcount hl h),
      fun hmine h => runs_refuses hg (tblDelete_frozen hcount hl hmine h)⟩
  case inserts =>
    rintro s t slot pos done a l rest failed hg hcount rfl hmine hfr hfre hrun
    exact runs_batch hrun hg rfl (tblInsert_runs hcount rfl hmine hfr hfre)
  case deletes =>
    rintro s t slot pos done a l rest failed hg hcount rfl hfr hown hrun
    exact runs_batch hrun hg rfl (tblDelete_runs hcount rfl (fun o ho => (hown o ho).1) hfr (fun o ho => (hown o ho).2))
  case place =>
    exact fun s i e hnew => ⟨fun hstation u h => State.tblPlace_front hnew hstation h, fun hstation u h => State.tblPlace_front hnew hstation h,
      State.tblPlace_stationMax hnew, fun hstation hmax =>
        ⟨fun u => State.tblPlace_station hnew hstation hmax, State.tblPlace_stationFull hnew hstation hmax⟩⟩
  case bucket =>
    exact fun s b t e c => ⟨State.placeFront_bucket, fun h => ⟨State.placeFront_overflow h, State.placeFront_full h⟩,
      State.placeStation_bucket⟩
  case insertOne =>
    refine fun s i o x e he ho => ⟨State.tblInsertOne_range he, fun htable hkey hresult => ⟨State.tblInsertOne_noStation he htable hkey hresult,
      fun hplace => ?_⟩⟩
    rw [State.tblInsertOne_placed he htable hkey hresult ho hplace]
    refine ⟨fun hi h => if_pos ⟨hi, h⟩, fun hmine => ?_⟩
    rw [if_neg (by tauto)]
    exact ⟨fun h => if_pos h, fun h => if_neg (not_not_intro h)⟩
  case held =>
    exact fun s i e c hheld => ⟨State.tblPlace_duplicate hheld, State.tblPlace_notOwner hheld, State.tblPlace_replaces hheld⟩
  case lookup =>
    exact fun s slot t a c hg ht htable hkey => ⟨fun h => runs_answers hg (tblLookup_none ht htable hkey h),
      fun h hmine => runs_answers hg (tblLookup_some ht htable hkey h hmine)⟩
  case dump =>
    exact fun s slot tier n a l hg htier hn htable h4 hfilter hport h1 hmax hl =>
      ⟨dumpNext tier n l, runs_answersOut hg (tblDump_done htier hn htable h4 hfilter hport h1 hmax hl), dumpNext_end⟩
  case flush =>
    exact fun s slot sel i p a hg hsel hi hp => ⟨fun h => runs_refuses hg (tblFlush_range hsel hi hp (.inl h)),
      fun h8 h => runs_refuses hg (tblFlush_range hsel hi hp (.inr h)), fun h8 hport hinst hportMine hinstMine hfr hinstFr =>
        ⟨fun h => runs_refuses hg (tblFlush_busy hsel hi hp h8 hport hinst hportMine hinstMine hfr hinstFr h),
          fun h h32 => runs_begins hg h32 (tblFlush_begins hsel hi hp h8 hport hinst hportMine hinstMine hfr hinstFr h)⟩⟩

end Sys2Proof.Machine
end

section
/-! SUPPORT. The replies and job steps of the INST commands, freezes and resumes, retire markers and segmented transfers (R47, R48, R417,
R429, R450 to R458). -/
namespace Sys2Proof.Machine

/-- A change of an instance by two functions that agree on it. -/
theorem State.updInst_congr {s : State} {i : Nat} {f g : Inst → Inst} (h : f (s.inst.at i) = g (s.inst.at i)) :
    s.updInst i f = s.updInst i g := by
  simp only [State.updInst, Tab.upd, h]

/-! ### INST.STATUS, INST.RESET -/

section status
variable {s : State} {inst i : Nat} {a : Accepted} (hi : i = leAt a.payload 0 1)
include hi

theorem instStatus_range (h : 64 ≤ i) : s.instStatus inst a = .refuse E.range := by subst hi; exact if_pos h

variable (h64 : i < 64) (hmine : owns inst i = true)
include h64 hmine

theorem instStatus_done : s.instStatus inst a = .ok s (leBytes 1 (s.inst.at i).gen.toNat ++ leBytes 1 (s.inst.at i).st ++ leBytes 2 0
    ++ leBytes 4 (s.buf.instCells.at i - s.par P.instCells i)) := by
  subst hi
  exact (if_neg (Nat.not_le.2 h64)).trans (if_neg (by simp [hmine]))

theorem instReset_state (h : (s.inst.at i).st ≠ 0) : s.instReset inst a = .refuse E.state := by
  simp [State.instReset, ← hi, Nat.not_le.2 h64, hmine, h]

variable (hst : (s.inst.at i).st = 0)
include hst

theorem instReset_busy (h : nextGen (s.inst.at i).gen.toNat (s.inst.at i).inUse = none) : s.instReset inst a = .refuse E.busy := by
  simp [State.instReset, ← hi, Nat.not_le.2 h64, hmine, hst, h]

theorem instReset_after {g : Nat} (h : nextGen (s.inst.at i).gen.toNat (s.inst.at i).inUse = some g) :
    s.instReset inst a = .after s (leBytes 1 g) (.resetInst i g) (fun s => s.resetInst i g) := by
  simp [State.instReset, ← hi, Nat.not_le.2 h64, hmine, hst, h]

end status

/-- A command with a result that something follows: at once after the answer, or once the answer's tag is there. -/
theorem runs_followsResult {s : State} {slot op : Nat} {a : Accepted} {f : State → Nat → Accepted → Reply} {l : List Byte} {what : Sequel}
    {next : State → State} (hg : s.grants slot op a) (hr : f s (slotInst slot) a = .after s l what next) :
    ((s.tags a { rstate := 0, status := 0, result := l } && !s.cmacFree) = false →
      runs (serve slot op f) s = .next (s.keeping (next (s.answers slot a l))))
    ∧ ((s.tags a { rstate := 0, status := 0, result := l } && !s.cmacFree) = true → a.silent = false → a.buf = none →
      runs (serve slot op f) s = .next (s.keeping (s.askTag slot 1 (.response a { rstate := 0, status := 0, result := l } what)))) :=
  ⟨fun h => runs_grants hg (by rw [hr]; exact State.postThen_untagged h what next),
    fun h hloud hbuf => runs_grants hg (by rw [hr]; exact State.postThen_tagged h hloud hbuf what next)⟩

/-! ### INST.DELETE -/

section delete
variable {s : State} {inst i : Nat} {a : Accepted} (hi : i = leAt a.payload 0 1)
include hi

theorem instDelete_range (h : i < 1 ∨ 64 ≤ i) : s.instDelete inst a = .refuse E.range := by subst hi; exact if_pos h

variable (h1 : 1 ≤ i) (h64 : i < 64)
include h1 h64

theorem instDelete_state (h : (s.inst.at i).st = 2) : s.instDelete inst a = .refuse E.state := by
  subst hi
  exact (if_neg (by omega)).trans (if_pos h)

variable (hst : (s.inst.at i).st ≠ 2)
include hst

theorem instDelete_busy (h : s.instBusy i = true) : s.instDelete inst a = .refuse E.busy := by
  subst hi
  exact (if_neg (by omega)).trans ((if_neg hst).trans (if_pos (by simp [h])))

theorem instDelete_begins {g : Nat} (hidle : s.instBusy i = false) (hg : nextGen (s.inst.at i).gen.toNat (s.inst.at i).inUse = some g) :
    s.instDelete inst a = .job s (.instDelete i 0 []) 4 := by
  subst hi
  exact (if_neg (by omega)).trans ((if_neg hst).trans (if_neg (by simp [hidle, hg])))

end delete

section deleteStep
variable {s : State} {j : Job} {i g : Nat} {l : List Nat}

theorem State.jobStep_deleteDrains (hkind : j.kind = .instDelete i 3 l) (h : s.draining i ≠ []) : s.jobStep j = s := by
  simp [State.jobStep, hkind, State.deleteStep, h]

theorem State.jobStep_deleteEnds (hkind : j.kind = .instDelete i 3 l) (h : s.draining i = []) : s.jobStep j =
    (s.updInst i (fun x => { x with st := 2, freezeAt := none, resumeAt := none, saved := [] })).endJob j.session j.seq 0 0 := by
  simp [State.jobStep, hkind, State.deleteStep, h]

variable (hgo : j.abort = false)
include hgo

theorem State.jobStep_deleteReset (hkind : j.kind = .instDelete i 0 l)
    (hg : nextGen (s.inst.at i).gen.toNat (s.inst.at i).inUse = some g) :
    s.jobStep j = (s.resetInst i g).stepJob j.session j.seq (fun j => { j with kind := .instDelete i 1 [] }) := by
  simp [State.jobStep, hkind, State.deleteStep, hgo, hg]

theorem State.jobStep_deleteWaits (hkind : j.kind = .instDelete i 1 l) (h : s.moving = true) : s.jobStep j = s := by
  simp [State.jobStep, hkind, State.deleteStep, hgo, h]

theorem State.jobStep_deleteTables (hkind : j.kind = .instDelete i 1 l) (h : s.moving = false) :
    s.jobStep j = (s.dropTables i).stepJob j.session j.seq (fun j => { j with kind := .instDelete i 2 [] }) := by
  simp [State.jobStep, hkind, State.deleteStep, hgo, h]

theorem State.jobStep_deleteRecords (hkind : j.kind = .instDelete i 2 l) : s.jobStep j =
    (s.drainObjs i).stepJob j.session j.seq (fun j => { j with kind := .instDelete i 3 ((s.drainObjs i).draining i) }) := by
  simp [State.jobStep, hkind, State.deleteStep, hgo]

end deleteStep

/-! ### INST.FREEZE, INST.RESUME and their boundary -/

section freezeOne
variable {s : State} {i lap : Nat}

theorem State.freezeOne_freezes {u : State} (hu : u = s.updInst i (fun x => { x with st := 1, freezeAt := none }))
    (hst : (s.inst.at i).st = 0) (hat : (s.inst.at i).freezeAt = some lap) (hdue : later 32 lap s.lap = false)
    (hresume : (s.inst.at i).resumeAt = none) : s.freezeOne i = u.updInst i (fun x => { x with saved := u.instImage i }) := by
  have hfreeze : s.updInst i (fun x => { x with st := if x.st = 2 then 2 else 1, freezeAt := none }) = u :=
    (State.updInst_congr (by simp [hst])).trans hu.symm
  simp [State.freezeOne, hst, hat, hdue, hresume, hfreeze]

theorem State.freezeOne_resumes (hst : (s.inst.at i).st = 1) (hat : (s.inst.at i).resumeAt = some lap) (hdue : later 32 lap s.lap = false)
    (hfreeze : (s.inst.at i).freezeAt = none) : s.freezeOne i = s.updInst i (fun x => { x with st := 0, resumeAt := none, saved := [] }) := by
  have hresume : s.updInst i (fun x => { x with st := if x.st = 2 then 2 else 0, resumeAt := none, saved := [] })
      = s.updInst i (fun x => { x with st := 0, resumeAt := none, saved := [] }) := State.updInst_congr (by simp [hst])
  simp [State.freezeOne, hat, hdue, hfreeze, hresume]

theorem State.freezeOne_early (h : ∀ l, (s.inst.at i).freezeAt = some l ∨ (s.inst.at i).resumeAt = some l → later 32 l s.lap = true) :
    s.freezeOne i = s := by
  cases hfreeze : (s.inst.at i).freezeAt with
  | none =>
    cases hresume : (s.inst.at i).resumeAt with
    | none => simp [State.freezeOne, hfreeze, hresume]
    | some r => simp [State.freezeOne, hfreeze, hresume, h r (.inr hresume)]
  | some f =>
    cases hresume : (s.inst.at i).resumeAt with
    | none => simp [State.freezeOne, hfreeze, hresume, h f (.inl hfreeze)]
    | some r => simp [State.freezeOne, hfreeze, hresume, h f (.inl hfreeze), h r (.inr hresume)]

end freezeOne

section freeze
variable {s : State} {inst i lap : Nat} {a : Accepted} (hi : i = leAt a.payload 0 1)
  (hlap : s.atLap (leAt a.payload 1 1) (leAt a.payload 4 4) = some lap) (h64 : i < 64)
include hi hlap h64

theorem instFreeze_state (h : (s.inst.at i).st = 2) : s.instFreeze inst a = .refuse E.state := by
  simp [State.instFreeze, ← hi, hlap, Nat.not_le.2 h64, h]

theorem instFreeze_done (h : (s.inst.at i).st ≠ 2) :
    s.instFreeze inst a = .ok (s.updInst i (fun x => { x with freezeAt := some lap })) (leBytes 4 lap) := by
  simp [State.instFreeze, ← hi, hlap, Nat.not_le.2 h64, h]

theorem instResume_state (h : (s.inst.at i).st ≠ 1) : s.instResume inst a = .refuse E.state := by
  simp [State.instResume, ← hi, hlap, Nat.not_le.2 h64, h]

theorem instResume_done (h : (s.inst.at i).st = 1) :
    s.instResume inst a = .ok (s.updInst i (fun x => { x with resumeAt := some lap })) (leBytes 4 lap) := by
  simp [State.instResume, ← hi, hlap, Nat.not_le.2 h64, h]

end freeze

/-! ### Retire markers -/

section marker
variable {s : State} {i g e : Nat} {m : List (Nat × Nat)} (hm : m = (s.inst.at i).markers.filter (fun k => k != (g, e)))

theorem State.markerReturn_waits (h : (g, e) ∉ (s.inst.at i).markers ∨ s.engineWork i g e = true) : s.markerReturn i g e = s := by
  refine if_neg ?_
  rcases h with h | h <;> simp [h]

include hm

theorem State.markerReturn_returns (hhas : (g, e) ∈ (s.inst.at i).markers) (hidle : s.engineWork i g e = false) :
    s.markerReturn i g e = s.updInst i (fun y => { y with
      markers := m
      used := if m.any (fun k => k.1 == g) then y.used else if bit y.used g then y.used - 2 ^ g else y.used }) := by
  subst hm
  exact (if_pos (by simp [hhas, hidle])).trans (State.updInst_congr rfl)

theorem State.markerReturn_more (hhas : (g, e) ∈ (s.inst.at i).markers) (hidle : s.engineWork i g e = false) (h : ∃ k ∈ m, k.1 = g) :
    s.markerReturn i g e = s.updInst i (fun y => { y with markers := m }) := by
  have hany : m.any (fun k => k.1 == g) = true := by simpa using h
  rw [State.markerReturn_returns hm hhas hidle]
  exact State.updInst_congr (by rw [if_pos hany])

theorem State.markerReturn_last (hhas : (g, e) ∈ (s.inst.at i).markers) (hidle : s.engineWork i g e = false) (h : ∀ k ∈ m, k.1 ≠ g)
    (hused : bit (s.inst.at i).used g = true) :
    s.markerReturn i g e = s.updInst i (fun y => { y with markers := m, used := y.used - 2 ^ g }) := by
  have hany : ¬m.any (fun k => k.1 == g) = true := by
    rintro hany
    obtain ⟨k, hk, hg⟩ := List.any_eq_true.1 hany
    exact h k hk (eq_of_beq hg)
  rw [State.markerReturn_returns hm hhas hidle]
  exact State.updInst_congr (by rw [if_neg hany, if_pos hused])

end marker

/-- The generation that an instance takes, the six markers of the one it had, and the flush of that one's frames. -/
theorem State.takeGen_inst (s : State) (i g : Nat) : (s.takeGen i g).inst.at i = { s.inst.at i with
    gen := BitVec.ofNat 8 g, used := (s.inst.at i).inUse ||| 2 ^ g, flush := some (s.inst.at i).gen.toNat
    markers := (s.inst.at i).markers ++ (List.range 6).map (fun e => ((s.inst.at i).gen.toNat, e)) } := by
  rw [State.takeGen, State.updInst_inst, Tab.at_upd_same]

/-! ### INST.SAVE -/

section save
variable {s : State} {inst i seg : Nat} {a : Accepted} (hi : i = leAt a.payload 0 1) (h64 : i < 64)
include hi h64

theorem instSave_state (h : (s.inst.at i).st ≠ 1) : s.instSave inst a = .refuse E.state := by
  simp [State.instSave, ← hi, Nat.not_le.2 h64, h]

variable (hseg : seg = leAt a.payload 2 2)
include hseg

theorem instSave_range (hst : (s.inst.at i).st = 1) (h : segments (s.inst.at i).saved ≤ seg) : s.instSave inst a = .refuse E.range := by
  simp [State.instSave, ← hi, ← hseg, Nat.not_le.2 h64, hst, h]

theorem instSave_begins (hst : (s.inst.at i).st = 1) (h : seg < segments (s.inst.at i).saved) (hidle : s.instBusy i = false) :
    s.instSave inst a = .job s (.instSave i seg) 1 := by
  simp [State.instSave, ← hi, ← hseg, Nat.not_le.2 h64, hst, Nat.not_le.2 h, hidle]

end save

theorem State.jobStep_save {s : State} {j : Job} {i seg : Nat} {l part : List Byte} (hkind : j.kind = .instSave i seg) (hgo : j.abort = false)
    (hst : (s.inst.at i).st = 1) (hl : l = (s.inst.at i).saved) (hpart : part = (l.drop (65536 * seg)).take 65536) :
    s.jobStep j = s.endJob j.session j.seq 0 0 (leBytes 2 (segments l) ++ leBytes 2 0 ++ leBytes 4 part.length) part := by
  simp only [State.jobStep, hkind, State.saveStep, hgo, Bool.false_eq_true, if_false, hst, ne_eq, not_true_eq_false, ← hl, ← hpart]

/-! ### Segments of a transfer -/

section transfer
variable {s : State} {t seg total : Nat} {l : List Byte}

theorem State.takeSegment_range (h : total = 0 ∨ total ≤ seg ∨ 65536 < l.length) : s.takeSegment t seg total l = .error E.range := if_pos h

theorem State.takeSegment_first (htotal : 0 < total) (hlen : l.length ≤ 65536) : s.takeSegment t 0 total l =
    .ok (s.putTransfer t { next := 1, total := total, bytes := l, deadline := 60000000000 + s.time.mono, open_ := true }) :=
  (if_neg (by omega)).trans (if_pos rfl)

theorem State.takeSegment_later (hseg : 0 < seg) (htotal : seg < total) (hlen : l.length ≤ 65536) : s.takeSegment t seg total l =
    if (s.mbx.transfer.at t).open_ = false ∨ (s.mbx.transfer.at t).next ≠ seg ∨ (s.mbx.transfer.at t).total ≠ total then .error E.state
    else .ok (s.putTransfer t { s.mbx.transfer.at t with
      next := seg + 1, bytes := (s.mbx.transfer.at t).bytes ++ l, deadline := 60000000000 + s.time.mono }) :=
  (if_neg (by omega)).trans (if_neg (by omega))

end transfer

/-! ### INST.RESTORE -/

section restore
variable {s : State} {inst i seg total : Nat} {a : Accepted} {ok : Bool} (hi : i = leAt a.payload 0 1) (h64 : i < 64)
include hi h64

theorem instRestore_state (h : (s.inst.at i).st ≠ 1) : State.instRestore ok s inst a = .refuse E.state := by
  simp [State.instRestore, ← hi, Nat.not_le.2 h64, h]

variable (hseg : seg = leAt a.payload 2 2) (htotal : total = leAt a.payload 4 2) (hst : (s.inst.at i).st = 1) (hidle : s.instBusy i = false)
include hseg htotal hst hidle

theorem instRestore_segmentRefused {st : Nat} (h : s.takeSegment i seg total (a.payload.drop 6) = .error st) :
    State.instRestore ok s inst a = .refuse st := by
  simp [State.instRestore, ← hi, ← hseg, ← htotal, Nat.not_le.2 h64, hst, hidle, h]

theorem instRestore_begins {u : State} (h : s.takeSegment i seg total (a.payload.drop 6) = .ok u) :
    State.instRestore ok s inst a = .job u (.instRestore i ok) (if seg + 1 = total then 2 else 1) := by
  simp [State.instRestore, ← hi, ← hseg, ← htotal, Nat.not_le.2 h64, hst, hidle, h]

end restore

section restoreStep
variable {s : State} {j : Job} {i : Nat} {ok : Bool} (hkind : j.kind = .instRestore i ok) (hgo : j.abort = false) (htotal : j.total = 2)
include hkind hgo htotal

theorem State.jobStep_restoreFirst (h : j.done = 0) : s.jobStep j = s.stepJob j.session j.seq id := by
  simp [State.jobStep, hkind, State.restoreStep, hgo, htotal, h]

theorem State.jobStep_restoreWaits (hdone : j.done ≠ 0) (h : s.moving = true) : s.jobStep j = s := by
  simp [State.jobStep, hkind, State.restoreStep, hgo, htotal, hdone, h]

theorem State.jobStep_restoreAll {u : State} {st : Nat} (hdone : j.done ≠ 0) (hidle : s.moving = false)
    (h : s.restoreAll i ok (s.mbx.transfer.at i).bytes = (u, st)) : s.jobStep j = (u.endTransfer i).endJob j.session j.seq 0 st := by
  simp [State.jobStep, hkind, State.restoreStep, hgo, htotal, hdone, hidle, h]

end restoreStep

theorem State.restoreAll_unsigned (s : State) (i : Nat) (l : List Byte) : s.restoreAll i false l = (s, E.signature) := rfl

theorem State.restoreAll_badImage (s : State) (i : Nat) {l : List Byte} (h : savedImage l = none) :
    s.restoreAll i true l = (s, E.imageFormat) := by
  simp [State.restoreAll, h]

theorem exec_instStatus (slot : Nat) (s : State) : exec (.instStatus slot) s = runs (serve slot Op.instStatus State.instStatus) s := rfl

theorem exec_instReset (slot : Nat) (s : State) : exec (.instReset slot) s = runs (serve slot Op.instReset State.instReset) s := rfl

theorem exec_instDelete (slot : Nat) (s : State) : exec (.instDelete slot) s = runs (serve slot Op.instDelete State.instDelete) s := rfl

theorem exec_instFreeze (slot : Nat) (s : State) : exec (.instFreeze slot) s = runs (serve slot Op.instFreeze State.instFreeze) s := rfl

theorem exec_instResume (slot : Nat) (s : State) : exec (.instResume slot) s = runs (serve slot Op.instResume State.instResume) s := rfl

theorem exec_instSave (slot : Nat) (s : State) : exec (.instSave slot) s = runs (serve slot Op.instSave State.instSave) s := rfl

theorem exec_instRestore (slot : Nat) (ok : Bool) (s : State) :
    exec (.instRestore slot ok) s = runs (serve slot Op.instRestore (State.instRestore ok)) s := rfl

theorem exec_retireMarkerReturn (i g e : Nat) (s : State) :
    exec (.retireMarkerReturn i g e) s = runs (fun s => s.markerReturn i g e) s := rfl

/-- Settles O54: each clause is one reply of its command, one step of its job, or one case of a freeze or a marker (the steps of a delete and
the return of the markers are log entry 96, the steps of a save and a restore entry 97). -/
theorem instancesAreResetFrozenAndSaved : Obligations.InstancesAreResetFrozenAndSaved := by
  unfold Obligations.InstancesAreResetFrozenAndSaved
  simp only [exec_instStatus, exec_instReset, exec_instDelete, exec_instFreeze, exec_instResume, exec_instSave, exec_instRestore,
    exec_retireMarkerReturn]
  refine ⟨?commands, fun s j i g l hkind hgo => State.jobStep_deleteReset hgo hkind, ?delete, fun s => rfl, ?boundary, ?freeze, ?marker,
    fun s i g => by simp [State.takeGen_inst], ?save, fun s j i seg l part => State.jobStep_save, ?restore, ?segment, ?restoreStep,
    fun s i l => ⟨s.restoreAll_unsigned i l, s.restoreAll_badImage i⟩⟩
  case commands =>
    rintro s slot i a x hi rfl
    refine ⟨fun hg h => runs_refuses hg (instStatus_range hi h), fun hg h64 hmine => runs_answers hg (instStatus_done hi h64 hmine), ?_, ?_⟩
    · exact fun hg h64 hmine => ⟨fun h => runs_refuses hg (instReset_state hi h64 hmine h),
        fun hst h => runs_refuses hg (instReset_busy hi h64 hmine hst h),
        fun g hst h => runs_followsResult hg (instReset_after hi h64 hmine hst h)⟩
    · exact fun hg => ⟨fun h => runs_refuses hg (instDelete_range hi h), fun h1 h64 h => runs_refuses hg (instDelete_state hi h1 h64 h),
        fun h1 h64 hst h => runs_refuses hg (instDelete_busy hi h1 h64 hst h),
        fun g h1 h64 hst hidle h h32 => runs_begins hg h32 (instDelete_begins hi h1 h64 hst hidle h)⟩
  case delete =>
    exact fun s j i l hgo => ⟨fun hkind => ⟨State.jobStep_deleteWaits hgo hkind, State.jobStep_deleteTables hgo hkind⟩,
      State.jobStep_deleteRecords hgo, fun hkind => ⟨State.jobStep_deleteDrains hkind, State.jobStep_deleteEnds hkind⟩⟩
  case boundary =>
    rintro s u i lap x rfl hu
    exact ⟨State.freezeOne_freezes hu, State.freezeOne_resumes, State.freezeOne_early⟩
  case freeze =>
    exact fun s slot i lap a hi hlap h64 => ⟨fun hg => ⟨fun h => runs_refuses hg (instFreeze_state hi hlap h64 h),
      fun h => runs_answers hg (instFreeze_done hi hlap h64 h)⟩, fun hg => ⟨fun h => runs_refuses hg (instResume_state hi hlap h64 h),
      fun h => runs_answers hg (instResume_done hi hlap h64 h)⟩⟩
  case marker =>
    rintro s i g e x m rfl hm
    exact ⟨fun hhas hidle => ⟨fun h => runs_to (State.markerReturn_more hm hhas hidle h) rfl rfl,
      fun h hused => runs_to (State.markerReturn_last hm hhas hidle h hused) rfl rfl⟩, fun h => runs_to (State.markerReturn_waits h) rfl rfl⟩
  case save =>
    exact fun s slot i seg a hg hi hseg h64 => ⟨fun h => runs_refuses hg (instSave_state hi h64 h),
      fun hst h => runs_refuses hg (instSave_range hi h64 hseg hst h),
      fun hst h hidle h32 => runs_begins hg h32 (instSave_begins hi h64 hseg hst h hidle)⟩
  case restore =>
    exact fun s slot i seg total a ok hg hi hseg htotal h64 => ⟨fun h => runs_refuses hg (instRestore_state hi h64 h), fun hst hidle =>
      ⟨fun st h => runs_refuses hg (instRestore_segmentRefused hi h64 hseg htotal hst hidle h),
        fun u h h32 => runs_begins hg h32 (instRestore_begins hi h64 hseg htotal hst hidle h)⟩⟩
  case segment =>
    refine fun s t seg total l => ⟨State.takeSegment_range, State.takeSegment_first, fun hseg htotal hlen => ?_⟩
    rw [State.takeSegment_later hseg htotal hlen]
    refine ⟨fun hopen hnext hsame => if_neg ?_, fun h => if_pos ?_⟩
    · simp [hopen, hnext, hsame]
    · exact h.imp id .inl
  case restoreStep =>
    exact fun s u j i st ok hkind hgo htotal => ⟨State.jobStep_restoreFirst hkind hgo htotal, State.jobStep_restoreWaits hkind hgo htotal,
      State.jobStep_restoreAll hkind hgo htotal⟩

end Sys2Proof.Machine
end
